-- ==== Sys2Proof/Word.lean ====
section
/-! DEFINITION. The word and byte types of the QST1024 (R1: a word is 20 bits, a byte is 8 bits) and the plain data
types that every layer shares: a half, a master, a profile, and a table of data by number. -/

namespace Sys2Proof

/-- A word is 20 bits (R1). -/
abbrev Word := BitVec 20

/-- A byte is 8 bits (R1). -/
abbrev Byte := BitVec 8

/-- The two identical halves of the main die (R21). -/
inductive Half where
  | A
  | B
  deriving DecidableEq, Repr

/-- The other half. -/
def Half.other : Half → Half
  | .A => .B
  | .B => .A

/-- The number a half has in seats and run-owner latches: 0 for Half A and 1 for Half B (R42, R49). -/
def Half.num : Half → Nat
  | .A => 0
  | .B => 1

/-- The half a bit of a seat or latch names (R42, R49). -/
def Half.ofBit : Bool → Half
  | false => .A
  | true => .B

/-- The masters that reach registers (R13). A steward is numbered 0 to 7; port 0 is CPA, port 1 is CPB, and 2 stands for
the commands that come over the fabric (R600); the debug path addresses steward k, the VC as 8 (R519). -/
inductive Master where
  | steward (k : Fin 8)
  | vc
  | port (p : Fin 3)
  | jtag (k : Fin 9)
  deriving DecidableEq, Repr

/-- The three operating profiles (R95). -/
inductive Profile where
  | noon
  | dusk
  | night
  deriving DecidableEq, Repr

/-- Sparse data by number: pairs with strictly rising numbers. What an unlisted number holds is said by the one
who reads the table. -/
abbrev Tbl (α : Type) := List (Nat × α)

end Sys2Proof
end

