-- ==== Sys2Proof/Syntax.lean ====
section
/-! DEFINITION. The commands of the QST1024: one constructor for every row of the spec's table of operations and events
(opcode_table.json), with the operands of the row. A command is something that reaches the device or befalls it from
outside the model: a register access, a bus or protocol operation, an edge, the instant of a timed event. -/

namespace Sys2Proof

/-- A timebase: that of a bay, or a general timer (R20, R130). -/
inductive TbUnit where
  | bay (n : Fin 64)
  | gt (g : Fin 8)
  deriving DecidableEq, Repr

/-- The halves that an event befalls in one handshake stage: one of them, or both (R65). -/
inductive Halves where
  | one (h : Half)
  | both
  deriving DecidableEq, Repr

/-- The staged registers of a timebase (R113). -/
inductive TbStaged where
  | pre
  | per
  | phase (k : Fin 16)
  deriving DecidableEq, Repr

/-- What a phase of a feeder did in a fundamental cycle of its busbar, as the die's legal path measured it (R353, R354):
RMS current in 0.001 % of the current full scale; active and reactive energy, signed, and apparent energy, each in
millionths of a register unit. -/
structure PhaseCycle where
  irms : Nat
  p : Int
  q : Int
  s : Nat
  deriving DecidableEq, Repr

/-- A feeder's cycle: its three phases. -/
structure FeederCycle where
  feeder : Fin 8
  l1 : PhaseCycle
  l2 : PhaseCycle
  l3 : PhaseCycle
  deriving DecidableEq, Repr

/-- The measured values of a POWER, BUS or HARM record (R356): type, source, the bytes of the body of R381. -/
structure MetMeas where
  rtype : Nat
  source : Nat
  body : List Byte
  deriving DecidableEq, Repr

/-- How the self-tests of a start of the metrology die end (R368, R383): true where the test passes, and which MRAM
copies have a good CRC. -/
structure MetTests where
  rom : Bool
  lrp : Bool
  xmet : Bool
  copyA : Bool
  copyB : Bool
  deriving DecidableEq, Repr

/-- How a command frame reaches the metrology die: good, with a bad CRC, or less than 50 µs after the one before it
(R375, R376). -/
inductive MetArrival where
  | good
  | badCrc
  | early
  deriving DecidableEq, Repr

/-- What the parameter page of a populated chip enable says, and its blocks with the factory's bad-block mark
(R393, R397). -/
structure NandChip where
  page : Nat
  spare : Nat
  pages : Nat
  blocks : Nat
  bad : List Nat
  deriving DecidableEq, Repr


/-- A packet of the fabric without its CRC (R423). -/
structure Packet where
  kind : Nat
  ttl : Nat
  cls : Fin 4
  dst : BitVec 12
  src : BitVec 12
  tag : BitVec 32
  payload : List Byte
  deriving DecidableEq, Repr

/-- How a packet arrived: whole, failing its CRC, or with a block error (R421, R426). -/
inductive Arrival where
  | whole
  | badCrc
  | badBlock
  deriving DecidableEq, Repr

/-- The kind is one of R424. -/
def Packet.known (p : Packet) : Bool := decide (1 ≤ p.kind) && decide (p.kind ≤ 12)

/-- A packet that R423 can frame. -/
def Packet.wf (p : Packet) : Bool :=
  decide (p.kind < 256) && decide (p.ttl < 256) && decide (p.payload.length ≤ 4112)

/-- The key of an alarm entry: DST, ingress (8 for local), subject, kind, epoch (R445). -/
structure AlarmKey where
  dst : Nat
  ingress : Nat
  subject : Nat
  kind : Nat
  epoch : Nat
  deriving DecidableEq, Repr



/-- A bit disturbed while a half's memories were held in DEEP (R570): of the instruction memory or of the banks. -/
structure Flip where
  half : Half
  instr : Bool
  addr : Nat
  deriving DecidableEq, Repr

/-- The address lies in the memory. -/
def Flip.wf (f : Flip) : Bool := decide (f.addr < (if f.instr then 0x40000 else 0x80000))


/-- What the debug path is asked to do with the steward addressed (R519). Registers: a general register, or with cr a
control register, by number. -/
inductive DebugOp where
  | halt
  | readReg (cr : Bool) (n : Fin 32)
  | writeReg (cr : Bool) (n : Fin 32) (v : Word)
  | readData (a : Word)
  | writeData (a : Word) (v : Word)
  | readInstr (a : BitVec 18)
  | writeInstr (a : BitVec 18) (v : Word)
  | readIo (a : Word)
  | writeIo (a : Word) (v : Word)
  deriving DecidableEq, Repr

/-- A command of the device. -/
inductive Instr where
  /-- REGISTER_WRITE (R6). -/
  | registerWrite (m : Master) (addr : Nat) (value : Word)
  /-- WATCH_BOUNDARY (R91). -/
  | watchBoundary (disagree : List (Fin 64))
  /-- HEARTBEAT (R54). -/
  | heartbeat (h : Half) (seq : BitVec 8)
  /-- DECLARE_FAULT (R59). -/
  | declareFault (h : Halves) (key : Word)
  /-- SELF_CHECK_DONE (R60). -/
  | selfCheckDone (passA : Bool) (passB : Bool)
  /-- SUPPLY_FAIL (R62). -/
  | supplyFail (h : Halves)
  /-- SUPPLY_RECOVERY (R63). -/
  | supplyRecovery (h : Half)
  /-- HALF_RESET_ENTRY (R61). -/
  | halfResetEntry (h : Half)
  /-- BOOTWAIT_EXPIRY (R57). -/
  | bootwaitExpiry (h : Half)
  /-- SEAT_GIVE (R64). -/
  | seatGive (m : Master) (all : Bool) (bay : Fin 64)
  /-- SEAT_CLAIM (R64). -/
  | seatClaim (m : Master) (all : Bool) (bay : Fin 64)
  /-- MIRROR_SYNC_BAY (R67). -/
  | mirrorSyncBay (h : Half) (bay : Fin 64) (agree : Bool)
  /-- TERMINAL_PATH_SWITCH (R68). -/
  | terminalPathSwitch (t : Fin 1024)
  /-- TRANSFER_REQUEST (R89). -/
  | transferRequest (h : Half) (a : Fin 16) (r : Fin 4) (counts : Nat)
  /-- STALLED_REQUEST_ACK (R89). -/
  | stalledRequestAck (h : Half) (a : Fin 16) (r : Fin 4)
  /-- LEND_RELEASE (R90). -/
  | lendRelease (h : Half)
  /-- BUDGET_COMMIT (R88). -/
  | budgetCommit (h : Half)
  /-- WATCH_LENGTH_WRITE (R93). -/
  | watchLengthWrite (h : Half) (us : Word)
  /-- PROFILE_REQUEST (R96). -/
  | profileRequest (m : Master) (target : BitVec 2) (acked : Bool)
  /-- REGULATOR_POLL (R96). -/
  | regulatorPoll (readA : Option (BitVec 16)) (readB : Option (BitVec 16)) (acked : Bool)
  /-- PROFILE_TIMEOUT (R96). -/
  | profileTimeout
  /-- TIMEBASE_WRAP (R112). -/
  | timebaseWrap (t : TbUnit)
  /-- TIMEBASE_STAGE (R113). -/
  | timebaseStage (m : Master) (t : TbUnit) (r : TbStaged) (value : Word)
  /-- TIMEBASE_ENABLE (R114). -/
  | timebaseEnable (m : Master) (t : TbUnit) (en : Bool)
  /-- CHAIN_SNAPSHOT_READ (R118). -/
  | chainSnapshotRead (m : Master) (t : TbUnit)
  /-- COMPARE_ARM (R119). -/
  | compareArm (m : Master) (t : TbUnit) (value : Word)
  /-- COMPARE_MATCH (R119). -/
  | compareMatch (t : TbUnit)
  /-- CAPTURE_EDGE (R122). -/
  | captureEdge (t : TbUnit) (unit : Fin 2) (rise : Bool)
  /-- LFX_EDGE_COARSE (R125). -/
  | lfxEdgeCoarse
  /-- GP_INPUT_EDGE (R679). -/
  | gpInputEdge (p : Fin 32) (rise : Bool)
  /-- SLOT_PERIOD_START (R143). -/
  | slotPeriodStart (t : Fin 1024)
  /-- PULSE_RISE (R143). -/
  | pulseRise (t : Fin 1024)
  /-- TRIP_BLANK_END (R161). -/
  | tripBlankEnd (t : Fin 1024)
  /-- PULSE_FALL (R143). -/
  | pulseFall (t : Fin 1024)
  /-- SAR_CYCLE (R165). -/
  | sarCycle (bay : Fin 64) (code : BitVec 12)
  /-- THRESHOLD_READBACK (R164). -/
  | thresholdReadback (bay : Fin 64) (which : Fin 18) (code : BitVec 12)
  /-- THRESHOLD_STALE (R164). -/
  | thresholdStale (bay : Fin 64) (which : Fin 18)
  /-- COMPLIANCE_LOSS (R142). -/
  | complianceLoss (t : Fin 1024)
  /-- TRIP (R161). -/
  | trip (t : Fin 1024)
  /-- TRIP_CLEAR (R162). -/
  | tripClear (m : Master) (t : Fin 1024)
  /-- TD_AGE_TICK (R178). -/
  | tdAgeTick
  /-- TALK_REQUEST (R153). -/
  | talkRequest (m : Master) (t : Fin 1024) (op : BitVec 4) (arg : BitVec 12)
  /-- TALK_CANCEL (R156). -/
  | talkCancel (m : Master) (t : Fin 1024)
  /-- TALK_EXCHANGE_START (R155). -/
  | talkExchangeStart (t : Fin 1024)
  /-- TALK_EXCHANGE_END (R156). -/
  | talkExchangeEnd (t : Fin 1024) (reply : Word)
  /-- TALK_ONE_SECOND_MARK (R157). -/
  | talkOneSecondMark (t : Fin 1024)
  /-- LINE_TRIP (R206). -/
  | lineTrip (b : Fin 64) (volts : Bool)
  /-- LINE_BLANK_END (R205). -/
  | lineBlankEnd (b : Fin 64) (above : Bool)
  /-- LINE_TRIP_CLEAR (R206). -/
  | lineTripClear (m : Master) (b : Fin 64) (volts : Bool) (amps : Bool)
  /-- SYNTH_FREQ_WRITE (R211). -/
  | synthFreqWrite (m : Master) (j : Fin 8) (freq : BitVec 9)
  /-- SYNTH_CAL_REQUEST (R211). -/
  | synthCalRequest (m : Master) (j : Fin 8)
  /-- SYNTH_GATE_APPLY (R211). -/
  | synthGateApply (j : Fin 8)
  /-- SYNTH_CAL_DONE (R210). -/
  | synthCalDone (j : Fin 8) (ok : Bool)
  /-- SYNTH_SETTLE_DONE (R210). -/
  | synthSettleDone (j : Fin 8)
  /-- SYNTH_UNLOCK (R210). -/
  | synthUnlock (j : Fin 8)
  /-- SYNTH_RETRY (R210). -/
  | synthRetry (j : Fin 8)
  /-- LS_TEMP_UPDATE (R210). -/
  | lsTempUpdate (j : Fin 8) (now : BitVec 8)
  /-- LINE_DEFER_EXPIRY (R213). -/
  | lineDeferExpiry (b : Fin 64)
  /-- TRANSMIT_BUFFER_WRITE (R240). -/
  | transmitBufferWrite (m : Master) (b : Fin 64) (value : Word)
  /-- LINE_SUBMIT (R229). -/
  | lineSubmit (m : Master) (b : Fin 64) (id : BitVec 16)
  /-- LINE_CANCEL (R232). -/
  | lineCancel (m : Master) (b : Fin 64) (mask : BitVec 8)
  /-- LINE_DISABLE (R231). -/
  | lineDisable (m : Master) (b : Fin 64)
  /-- RECEIVE_POP (R235). -/
  | receivePop (m : Master) (b : Fin 64)
  /-- RECEIVE_DATA_READ (R243). -/
  | receiveDataRead (m : Master) (b : Fin 64)
  /-- LE_START (R248). -/
  | leStart (m : Master) (b : Fin 64)
  /-- LE_STOP (R265). -/
  | leStop (m : Master) (b : Fin 64)
  /-- LE_ABORT (R265). -/
  | leAbort (m : Master) (b : Fin 64)
  /-- LE_STEP (R262). -/
  | leStep (m : Master) (b : Fin 64) (input : Bool)
  /-- LE_RESUME (R262). -/
  | leResume (m : Master) (b : Fin 64)
  /-- LE_SWAP (R263). -/
  | leSwap (m : Master) (b : Fin 64) (restart : Bool) (force : Bool)
  /-- LE_SWAP_TAKE_EFFECT (R263). -/
  | leSwapTakeEffect (b : Fin 64)
  /-- LE_SWAP_LATE (R264). -/
  | leSwapLate (b : Fin 64)
  /-- LE_LATE (R251). -/
  | leLate (b : Fin 64)
  /-- PROGRAM_WORD_WRITE (R280). -/
  | programWordWrite (m : Master) (b : Fin 64) (hi : Word)
  /-- LE_BR (R254). -/
  | leBr (b : Fin 64)
  /-- LE_CALL (R254). -/
  | leCall (b : Fin 64)
  /-- LE_SYM (R255). -/
  | leSym (b : Fin 64)
  /-- LE_SMP (R255). -/
  | leSmp (b : Fin 64) (input : Bool)
  /-- LE_WAIT (R254). -/
  | leWait (b : Fin 64)
  /-- LE_WAIT_END (R254). -/
  | leWaitEnd (b : Fin 64)
  /-- LE_ALIGN_STOP (R254). -/
  | leAlignStop (b : Fin 64)
  /-- LE_ALIGN_EDGE (R254). -/
  | leAlignEdge (b : Fin 64)
  /-- LE_ALIGN_SOFT (R254). -/
  | leAlignSoft (b : Fin 64)
  /-- LE_LDI (R254). -/
  | leLdi (b : Fin 64)
  /-- LE_ALU (R254). -/
  | leAlu (b : Fin 64)
  /-- LE_DJNZ (R254). -/
  | leDjnz (b : Fin 64)
  /-- LE_MOV (R256). -/
  | leMov (b : Fin 64)
  /-- LE_GET (R254). -/
  | leGet (b : Fin 64)
  /-- LE_PUT (R254). -/
  | lePut (b : Fin 64)
  /-- LE_CRC_INIT (R254). -/
  | leCrcInit (b : Fin 64)
  /-- LE_CRC_CHECK (R254). -/
  | leCrcCheck (b : Fin 64)
  /-- LE_CRC_LOAD (R254). -/
  | leCrcLoad (b : Fin 64)
  /-- LE_IDLE (R258). -/
  | leIdle (b : Fin 64)
  /-- LE_IDLE_RETURN (R258). -/
  | leIdleReturn (b : Fin 64)
  /-- FIN_TXOK (R259). -/
  | finTxok (b : Fin 64)
  /-- FIN_NOACK (R259). -/
  | finNoack (b : Fin 64)
  /-- FIN_ARBLOST (R259). -/
  | finArblost (b : Fin 64)
  /-- FIN_COLL (R259). -/
  | finColl (b : Fin 64)
  /-- FIN_TXABORT (R259). -/
  | finTxabort (b : Fin 64)
  /-- FIN_DECIDE (R232). -/
  | finDecide (b : Fin 64)
  /-- FIN_OPEN (R259). -/
  | finOpen (b : Fin 64)
  /-- FIN_DELIVER (R234). -/
  | finDeliver (b : Fin 64)
  /-- FIN_BADCRC (R259). -/
  | finBadcrc (b : Fin 64)
  /-- FIN_BADFMT (R259). -/
  | finBadfmt (b : Fin 64)
  /-- LE_HALT_BREAK (R262). -/
  | leHaltBreak (b : Fin 64)
  /-- LE_FAULT (R257). -/
  | leFault (b : Fin 64)
  /-- POLL_INSTANT (R283). -/
  | pollInstant (b : Fin 64)
  /-- POLL_RELEASE (R287). -/
  | pollRelease (b : Fin 64)
  /-- REPLY_WAIT_EXPIRY (R288). -/
  | replyWaitExpiry (b : Fin 64)
  /-- PIPELINE_INPUT (R294). -/
  | pipelineInput (b : Fin 64)
  /-- POLL_ENTRY_COMMIT (R284). -/
  | pollEntryCommit (m : Master) (b : Fin 64) (value : Word)
  /-- PIPELINE_ENABLE (R285). -/
  | pipelineEnable (m : Master) (b : Fin 64)
  /-- PIPELINE_DISABLE (R285). -/
  | pipelineDisable (m : Master) (b : Fin 64)
  /-- IDENT_REQUEST (R311). -/
  | identRequest (m : Master) (b : Fin 64) (node : BitVec 7)
  /-- CUSTOM_SET_COMMIT (R300). -/
  | customSetCommit (m : Master) (b : Fin 64) (value : Word)
  /-- RECOGNISER_CONFIG_WRITE (R304). -/
  | recogniserConfigWrite (m : Master) (b : Fin 64) (value : Word)
  /-- RECOGNISER_ACK (R321). -/
  | recogniserAck (m : Master) (b : Fin 64) (value : Word)
  /-- CODE_ITEM (R331). -/
  | codeItem (h : Half) (e : Fin 4)
  /-- CODE_RECORD (R336). -/
  | codeRecord (h : Half) (e : Fin 4)
  /-- SEAL_DEADLINE (R326). -/
  | sealDeadline (h : Half) (c : Fin 16512)
  /-- PFAIL_SEAL (R657). -/
  | pfailSeal (h : Half) (c : Fin 16512)
  /-- TAKEOVER_SEAL (R325). -/
  | takeoverSeal (h : Half) (c : Fin 16512)
  /-- CHANNEL_FLUSH (R347). -/
  | channelFlush (m : Master) (b : Fin 64) (all : Bool) (entry : Fin 512)
  /-- CODING_COMMIT (R345). -/
  | codingCommit (m : Master) (b : Fin 64) (value : Word)
  /-- METROLOGY_CODING_WRITE (R349). -/
  | metrologyCodingWrite (value : Word)
  /-- SEAL_QUEUE_WAIT_END (R343). -/
  | sealQueueWaitEnd (h : Half) (e : Fin 4)
  /-- METROLOGY_CYCLE_END (R354). -/
  | metrologyCycleEnd (b : Fin 2) (feeders : List FeederCycle)
  /-- MSEC_SECOND (R358). -/
  | msecSecond (meas : List MetMeas)
  /-- VMET_FALL (R359). -/
  | vmetFall (feeders : List FeederCycle) (saved : Bool)
  /-- METROLOGY_START (R383). -/
  | metrologyStart (tests : MetTests)
  /-- SEAL_CHANGE (R362). -/
  | sealChange (openSeal : Bool)
  /-- GET_ID (R364). -/
  | getId (payload : List Byte) (crcOk : Bool)
  /-- GET_PARAM (R364). -/
  | getParam (payload : List Byte) (crcOk : Bool)
  /-- GET_LOG (R364). -/
  | getLog (payload : List Byte) (crcOk : Bool)
  /-- GET_ENERGY (R364). -/
  | getEnergy (payload : List Byte) (crcOk : Bool)
  /-- SET_PARAM (R364). -/
  | setParam (payload : List Byte) (crcOk : Bool)
  /-- COMMIT (R364). -/
  | commitParams (payload : List Byte) (crcOk : Bool)
  /-- DISCARD (R364). -/
  | discardParams (payload : List Byte) (crcOk : Bool)
  /-- SELFTEST_ROM (R368). -/
  | selftestRom (pass : Bool)
  /-- SELFTEST_LRP (R368). -/
  | selftestLrp (pass : Bool)
  /-- XMET_FAIL (R368). -/
  | xmetFail
  /-- WATCHDOG_EXPIRY (R368). -/
  | watchdogExpiry (tests : MetTests)
  /-- PHASE_LOSS (R365). -/
  | phaseLoss (c : Fin 6)
  /-- PHASE_RETURN (R365). -/
  | phaseReturn (c : Fin 6)
  /-- DISPLAY_FRAME (R369). -/
  | displayFrame
  /-- DISPLAY_TIMEOUT (R375). -/
  | displayTimeout
  /-- ENERGY_PULSE (R370). -/
  | energyPulse (reactive : Bool)
  /-- STATUS_FRAME (R371). -/
  | statusFrame (ticks : BitVec 48)
  /-- SAMPLES_FRAME (R371). -/
  | samplesFrame (input : Fin 30) (tick : BitVec 48) (values : List Word)
  /-- RECORD_FRAME (R371). -/
  | recordFrame (body : List Byte)
  /-- LINK_RESEND (R371). -/
  | linkResend
  /-- READ (R375). -/
  | metRead (how : MetArrival)
  /-- REPORT (R375). -/
  | metReport (how : MetArrival)
  /-- STREAM (R375). -/
  | metStream (how : MetArrival)
  /-- LOGREAD (R375). -/
  | metLogread (how : MetArrival)
  /-- DISPLAY (R375). -/
  | metDisplay (how : MetArrival)
  /-- TARIFF (R375). -/
  | metTariff (how : MetArrival)
  /-- METROLOGY_FRAME_ACCEPT (R371). -/
  | metrologyFrameAccept (crcOk : Bool)
  /-- METROLOGY_STATUS_RECEIVED (R374). -/
  | metrologyStatusReceived (crcOk : Bool)
  /-- METROLOGY_LINK_DOWN (R374). -/
  | metrologyLinkDown
  /-- MET_COMMAND_SEND (R388). -/
  | metCommandSend (m : Master) (w : Word)
  /-- MET_NOLINK_TIMEOUT (R376). -/
  | metNolinkTimeout
  /-- BUSHEL_COMMIT (R399). -/
  | bushelCommit (h : Half)
  /-- PAGE_PROGRAM (R400). -/
  | pageProgram
  /-- PAGE_PROGRAM_DONE (R400). -/
  | pageProgramDone (pass : Bool)
  /-- SLOT_ERASE (R401). -/
  | slotErase
  /-- SLOT_ERASE_DONE (R396). -/
  | slotEraseDone (pass : Bool)
  /-- SLOT_REFRESH (R396). -/
  | slotRefresh
  /-- ARCHIVE_ENABLE (R404). -/
  | archiveEnable (m : Master) (chips : List NandChip) (torn : Nat)
  /-- ARCHIVE_RECOVERY_DONE (R404). -/
  | archiveRecoveryDone (firstBad : Option Nat)
  /-- ARCHIVE_DISABLE (R412). -/
  | archiveDisable (m : Master)
  /-- ARCHIVE_FORMAT (R397). -/
  | archiveFormat (m : Master) (key : Word)
  /-- ARCHIVE_FORMAT_DONE (R397). -/
  | archiveFormatDone (chips : List NandChip)
  /-- ARCHIVE_READ (R407). -/
  | archiveRead (m : Master) (parm : BitVec 15)
  /-- ARCHIVE_FIND (R407). -/
  | archiveFind (m : Master) (parm : BitVec 15)
  /-- ARCHIVE_NEXT (R407). -/
  | archiveNext (m : Master)
  /-- ARCHIVE_REQUEST_DONE (R417). -/
  | archiveRequestDone (corr : Nat)
  /-- REPLICA_SEND (R408). -/
  | replicaSend
  /-- REPLICA_RESEND (R408). -/
  | replicaResend
  /-- RACK_RECEIVED (R408). -/
  | rackReceived (l : Fin 8) (lap : Nat) (off : Nat) (ok : Bool)
  /-- REPL_RECEIVED (R409). -/
  | replReceived (l : Fin 8) (p : Packet) (lap : Nat) (off : Nat)
  /-- ORIGIN_FREE (R410). -/
  | originFree (m : Master) (value : Word)
  /-- BLOCK_LOCK (R420). -/
  | blockLock (l : Fin 8)
  /-- BLOCK_LOCK_LOST (R420). -/
  | blockLockLost (l : Fin 8)
  /-- LINK_DOWN (R422). -/
  | linkDown (l : Fin 8)
  /-- HELLO_SEND (R430). -/
  | helloSend
  /-- HELLO_RECEIVED (R422). -/
  | helloReceived (l : Fin 8) (p : Packet)
  /-- HELLO_TIMEOUT (R422). -/
  | helloTimeout (l : Fin 8)
  /-- ROOT_EXPIRY (R437). -/
  | rootExpiry
  /-- CREDIT_RECEIVED (R425). -/
  | creditReceived (l : Fin 8) (c : Fin 4) (n : BitVec 16)
  /-- EGRESS_STUCK (R425). -/
  | egressStuck (l : Fin 8) (c : Fin 4)
  /-- PACKET_TRANSIT (R426). -/
  | packetTransit (l : Fin 8) (p : Packet) (how : Arrival)
  /-- CLAIM_RECEIVED (R429). -/
  | claimReceived (l : Fin 8) (p : Packet)
  /-- CLAIM_FLOOD (R429). -/
  | claimFlood
  /-- ADDRESS_HELD (R429). -/
  | addressHeld
  /-- ADDRESS_SEARCH_RESTART (R428). -/
  | addressSearchRestart
  /-- ROUTE_RECEIVED (R433). -/
  | routeReceived (l : Fin 8) (p : Packet)
  /-- ROUTE_PERIODIC (R432). -/
  | routePeriodic
  /-- ROUTE_TRIGGERED (R432). -/
  | routeTriggered
  /-- ROUTE_OFFER_LAPSE (R433). -/
  | routeOfferLapse (a : BitVec 12) (l : Fin 8)
  /-- ROUTE_GONE_EXPIRY (R433). -/
  | routeGoneExpiry (a : BitVec 12)
  /-- SYNC_SEND (R440). -/
  | syncSend (l : Fin 8) (sub : Fin 16)
  /-- SYNC_RECEIVED (R440). -/
  | syncReceived (l : Fin 8) (seq : Fin 64) (sub : Fin 16) (turn : Nat)
  /-- SYNCR_RECEIVED (R440). -/
  | syncrReceived (l : Fin 8) (seq : Fin 64) (sub : Fin 16)
  /-- TIMESTAMPS_RECEIVED (R440). -/
  | timestampsReceived (l : Fin 8) (seq : Fin 64) (t1 : BitVec 48) (t4 : BitVec 48)
  /-- TSYNC_TIMEOUT (R441). -/
  | tsyncTimeout
  /-- SWAP_REQUEST (R439). -/
  | swapRequest (l : Fin 8) (m : Option Master)
  /-- ROLE_REQ_RECEIVED (R439). -/
  | roleReqReceived (l : Fin 8) (seq : Byte)
  /-- ROLE_ACK_RECEIVED (R439). -/
  | roleAckReceived (l : Fin 8) (seq : Byte)
  /-- ROLE_NAK_RECEIVED (R439). -/
  | roleNakReceived (l : Fin 8) (seq : Byte) (collided : Bool)
  /-- SWAP_TIMEOUT (R439). -/
  | swapTimeout (l : Fin 8)
  /-- SWAP_BACKOFF_END (R439). -/
  | swapBackoffEnd (l : Fin 8)
  /-- TIME_SET_WRITE (R443). -/
  | timeSetWrite (m : Master) (hi : Word)
  /-- ALARM_RECEIVED (R445). -/
  | alarmReceived (l : Fin 8) (p : Packet)
  /-- ALSUM_RECEIVED (R445). -/
  | alsumReceived (l : Fin 8) (p : Packet)
  /-- ALARM_SUMMARY (R445). -/
  | alarmSummary (k : AlarmKey)
  /-- CMD_RECEIVED (R447). -/
  | cmdReceived (l : Fin 8) (p : Packet)
  /-- REPLY_RECEIVED (R447). -/
  | replyReceived (l : Fin 8) (p : Packet)
  /-- AREQ_RECEIVED (R448). -/
  | areqReceived (l : Fin 8) (p : Packet) (op : Fin 3) (arg : BitVec 60) (parm : BitVec 15) (origin : BitVec 20)
  /-- ADATA_RECEIVED (R448). -/
  | adataReceived (l : Fin 8) (p : Packet)
  /-- UNREACH_RECEIVED (R447). -/
  | unreachReceived (l : Fin 8) (p : Packet)
  /-- ROUTED_COMMAND_TIMEOUT (R447). -/
  | routedCommandTimeout (p : Fin 2) (tag : BitVec 32)
  /-- ADD (R467). -/
  | add (k : Fin 9)
  /-- SUB (R467). -/
  | sub (k : Fin 9)
  /-- AND (R467). -/
  | andRR (k : Fin 9)
  /-- OR (R467). -/
  | orRR (k : Fin 9)
  /-- XOR (R467). -/
  | xorRR (k : Fin 9)
  /-- SLT (R467). -/
  | slt (k : Fin 9)
  /-- SLTU (R467). -/
  | sltu (k : Fin 9)
  /-- ANDN (R467). -/
  | andn (k : Fin 9)
  /-- SLL (R467). -/
  | sll (k : Fin 9)
  /-- SRL (R467). -/
  | srl (k : Fin 9)
  /-- SRA (R467). -/
  | sra (k : Fin 9)
  /-- ADDS (R467). -/
  | adds (k : Fin 9)
  /-- SUBS (R467). -/
  | subs (k : Fin 9)
  /-- ADDUS (R467). -/
  | addus (k : Fin 9)
  /-- SUBUS (R467). -/
  | subus (k : Fin 9)
  /-- ADDI (R468). -/
  | addi (k : Fin 9)
  /-- MOVI (R468). -/
  | movi (k : Fin 9)
  /-- SLLI (R468). -/
  | slli (k : Fin 9)
  /-- SRLI (R468). -/
  | srli (k : Fin 9)
  /-- SRAI (R468). -/
  | srai (k : Fin 9)
  /-- ADDI_LONG (R468). -/
  | addiLong (k : Fin 9)
  /-- ANDI (R468). -/
  | andi (k : Fin 9)
  /-- ORI (R468). -/
  | ori (k : Fin 9)
  /-- XORI (R468). -/
  | xori (k : Fin 9)
  /-- SLTI (R468). -/
  | slti (k : Fin 9)
  /-- SLTIU (R468). -/
  | sltiu (k : Fin 9)
  /-- ADDSI (R468). -/
  | addsi (k : Fin 9)
  /-- LD (R469). -/
  | ld (k : Fin 9)
  /-- LDX (R469). -/
  | ldx (k : Fin 9)
  /-- ST (R469). -/
  | st (k : Fin 9) (clash : Bool)
  /-- STX (R469). -/
  | stx (k : Fin 9) (clash : Bool)
  /-- IN (R469). -/
  | inShort (k : Fin 9)
  /-- INX (R469). -/
  | inx (k : Fin 9)
  /-- OUT (R469). -/
  | out (k : Fin 9)
  /-- OUTX (R469). -/
  | outx (k : Fin 9)
  /-- BZ (R472). -/
  | bz (k : Fin 9)
  /-- BR (R472). -/
  | br (k : Fin 9)
  /-- J (R473). -/
  | j (k : Fin 9)
  /-- CALL (R473). -/
  | call (k : Fin 9) (clash : Bool)
  /-- JR (R473). -/
  | jr (k : Fin 9)
  /-- CALLR (R473). -/
  | callr (k : Fin 9) (clash : Bool)
  /-- RET (R473). -/
  | ret (k : Fin 9)
  /-- RETI (R484). -/
  | reti (k : Fin 9)
  /-- LOOP (R474). -/
  | loopOpen (k : Fin 9)
  /-- LPOP (R474). -/
  | lpop (k : Fin 9)
  /-- NOP (R475). -/
  | nop (k : Fin 9)
  /-- WAIT (R476). -/
  | wait (k : Fin 9)
  /-- WAIT_END (R476). -/
  | waitEnd (k : Fin 8)
  /-- BRK (R475). -/
  | brk (k : Fin 9)
  /-- FENCE (R463). -/
  | fence (k : Fin 9)
  /-- TRAP (R475). -/
  | trap (k : Fin 9)
  /-- MFC (R461). -/
  | mfc (k : Fin 9)
  /-- MTC (R461). -/
  | mtc (k : Fin 9)
  /-- EI (R475). -/
  | ei (k : Fin 9)
  /-- DI (R475). -/
  | di (k : Fin 9)
  /-- MUL (R477). -/
  | mul (k : Fin 9)
  /-- MULH (R477). -/
  | mulh (k : Fin 9)
  /-- MULHU (R477). -/
  | mulhu (k : Fin 9)
  /-- MAC (R477). -/
  | mac (k : Fin 9)
  /-- MACU (R477). -/
  | macu (k : Fin 9)
  /-- MSU (R477). -/
  | msu (k : Fin 9)
  /-- MACS (R477). -/
  | macs (k : Fin 9)
  /-- RDACC (R478). -/
  | rdacc (k : Fin 9)
  /-- MFA (R478). -/
  | mfa (k : Fin 9)
  /-- MTA (R478). -/
  | mta (k : Fin 9)
  /-- LR (R479). -/
  | lr (k : Fin 9)
  /-- SC (R479). -/
  | sc (k : Fin 9) (clash : Bool)
  /-- TAS (R479). -/
  | tas (k : Fin 9)
  /-- BLKMOV (R480). -/
  | blkmov (k : Fin 9) (clash : Bool)
  /-- BLKFILL (R480). -/
  | blkfill (k : Fin 9) (clash : Bool)
  /-- BLKCRC (R480). -/
  | blkcrc (k : Fin 9)
  /-- INTERRUPT_ACCEPT (R532). -/
  | interruptAccept (k : Fin 8)
  /-- STEWARD_START (R491). -/
  | stewardStart (k : Fin 9)
  /-- STEWARD_STOP (R491). -/
  | stewardStop (k : Fin 9)
  /-- HALT_REQUEST (R487). -/
  | stewardHalt (k : Fin 9)
  /-- BREAKPOINT_HALT (R487). -/
  | breakpointHalt (k : Fin 9)
  /-- RESUME (R487). -/
  | stewardResume (k : Fin 9)
  /-- STEP (R487). -/
  | stewardStep (k : Fin 9)
  /-- STEWARD_REGISTER_WRITE (R493). -/
  | stewardRegisterWrite (k : Fin 9) (value : Word)
  /-- HALF_BOOT (R503). -/
  | halfBoot (h : Half) (reads0 : Bool) (reads1 : Bool) (readsVc : Bool)
  /-- BOOT_PREF_WRITE (R501). -/
  | bootPrefWrite (h : Half) (pref : Fin 2)
  /-- FLASH_READ (R507). -/
  | flashRead (h : Half) (cross : Bool)
  /-- FLASH_PROGRAM (R507). -/
  | flashProgram (h : Half) (cross : Bool)
  /-- FLASH_ERASE (R507). -/
  | flashErase (h : Half) (cross : Bool)
  /-- FLASH_VERIFY (R507). -/
  | flashVerify (h : Half) (cross : Bool)
  /-- FLASH_OPERATION_DONE (R507). -/
  | flashOperationDone (f : Fin 2) (reads : Bool)
  /-- VC_LOAD (R510). -/
  | vcLoad (flash : Fin 2) (slot : Fin 2)
  /-- VACATE (R511). -/
  | vacate (x : Half)
  /-- RESTART (R511). -/
  | restart (x : Half)
  /-- HOLD (R511). -/
  | hold (x : Half)
  /-- RELEASE (R511). -/
  | release (x : Half)
  /-- RESTORE (R511). -/
  | restore
  /-- ENVELOPE_SESSION_EXPIRY (R515). -/
  | envelopeSessionExpiry
  /-- NONCE_EXPIRY (R514). -/
  | nonceExpiry (path : Fin 4098)
  /-- ENVELOPE_BACKOFF_END (R516). -/
  | envelopeBackoffEnd
  /-- END_OF_INTERRUPT (R533). -/
  | endOfInterrupt (h : Half) (k : Fin 4) (src : BitVec 9)
  /-- SOFTWARE_INTERRUPT (R551). -/
  | softwareInterrupt (m : Master) (other : Bool) (set : BitVec 16)
  /-- INTERRUPT_SYNC_READ (R537). -/
  | interruptSyncRead (k : Fin 8)
  /-- SOFTWARE_EVENT (R558). -/
  | softwareEvent (pulse : BitVec 8)
  /-- GPO_PULSE_END (R544). -/
  | gpoPulseEnd (p : Fin 32)
  /-- VC_BELL (R668). -/
  | vcBell (ring : BitVec 2)
  /-- TEST_WINDOW (R568). -/
  | testWindow (h : Half)
  /-- TEST_WINDOW_DONE (R569). -/
  | testWindowDone (h : Half) (fail : Option (Fin 26))
  /-- INSTRUCTION_MEMORY_WRITE (R567). -/
  | instructionMemoryWrite (h : Half) (w : Word)
  /-- VIGIL_MEMORY_WRITE (R572). -/
  | vigilMemoryWrite (m : Master) (w : Word)
  /-- STATUS (R585). -/
  | status (p : Fin 2) (n : Nat)
  /-- PEEK (R595). -/
  | peek (p : Fin 2) (q : Option Byte) (n : Nat)
  /-- FETCH (R593). -/
  | fetch (p : Fin 2) (host : List Byte)
  /-- REFETCH (R593). -/
  | refetch (p : Fin 2) (host : List Byte)
  /-- ALARMS (R598). -/
  | alarms (p : Fin 2) (host : List Byte)
  /-- LANES (R585). -/
  | lanes (p : Fin 2) (b : List Byte)
  /-- PACKET_TAKEN (R588). -/
  | packetTaken (p : Fin 2) (b : List Byte) (cut : Bool)
  /-- COMMAND_START (R591). -/
  | commandStart (p : Fin 3)
  /-- CMD_NOP (R611). -/
  | cmdNop (p : Fin 3)
  /-- CMD_IDENT (R611). -/
  | cmdIdent (p : Fin 3)
  /-- CMD_REG_READ (R612). -/
  | cmdRegRead (p : Fin 3)
  /-- CMD_REG_WRITE (R613). -/
  | cmdRegWrite (p : Fin 3)
  /-- CMD_MEM_READ (R613). -/
  | cmdMemRead (p : Fin 3)
  /-- CMD_MEM_WRITE (R613). -/
  | cmdMemWrite (p : Fin 3)
  /-- CMD_SEAT_MOVE (R614). -/
  | cmdSeatMove (p : Fin 3)
  /-- CMD_BLOCK_MOVE (R614). -/
  | cmdBlockMove (p : Fin 3)
  /-- CMD_PROFILE (R614). -/
  | cmdProfile (p : Fin 3) (acked : Bool)
  /-- CMD_TALK (R614). -/
  | cmdTalk (p : Fin 3)
  /-- CMD_FLUSH (R614). -/
  | cmdFlush (p : Fin 3)
  /-- CMD_ARC_READ (R615). -/
  | cmdArcRead (p : Fin 3)
  /-- CMD_ARC_FIND (R615). -/
  | cmdArcFind (p : Fin 3)
  /-- CMD_ARC_NEXT (R615). -/
  | cmdArcNext (p : Fin 3)
  /-- CMD_ARC_FORMAT (R615). -/
  | cmdArcFormat (p : Fin 3)
  /-- CMD_TIME_SET (R615). -/
  | cmdTimeSet (p : Fin 3)
  /-- CMD_MET_CMD (R615). -/
  | cmdMetCmd (p : Fin 3)
  /-- CMD_MET_RECORD (R615). -/
  | cmdMetRecord (p : Fin 3)
  /-- ENV_NONCE (R514). -/
  | envNonce (p : Fin 3)
  /-- ENV_OPEN (R514). -/
  | envOpen (p : Fin 3)
  /-- ENV_CLOSE (R617). -/
  | envClose (p : Fin 3)
  /-- ENV_TERM (R618). -/
  | envTerm (p : Fin 3)
  /-- ENV_LINE (R619). -/
  | envLine (p : Fin 3)
  /-- ENV_RANGE (R617). -/
  | envRange (p : Fin 3)
  /-- ENV_REMOTE (R617). -/
  | envRemote (p : Fin 3)
  /-- OTP_KEY (R506). -/
  | otpKey (p : Fin 3)
  /-- OTP_REVOKE (R506). -/
  | otpRevoke (p : Fin 3)
  /-- OTP_SVN (R506). -/
  | otpSvn (p : Fin 3)
  /-- OTP_DBGOFF (R519). -/
  | otpDbgoff (p : Fin 3)
  /-- TW_TRANSFER (R623). -/
  | twTransfer (m : Master) (b : Fin 8) (value : Word)
  /-- TW_TRANSFER_DONE (R623). -/
  | twTransferDone (b : Fin 8) (outcome : Fin 4) (count : BitVec 7) (data : List Byte)
  /-- TW_TARGET_ADDRESS (R625). -/
  | twTargetAddress (b : Fin 8) (ten : Bool) (addr : BitVec 10) (read : Bool)
  /-- TW_TARGET_BYTE (R626). -/
  | twTargetByte (b : Fin 8) (v : Byte)
  /-- TW_TARGET_READ_BYTE (R626). -/
  | twTargetReadByte (b : Fin 8)
  /-- TW_TARGET_STOP (R626). -/
  | twTargetStop (b : Fin 8) (restart : Bool)
  /-- TW_RX_POP (R632). -/
  | twRxPop (m : Master) (b : Fin 8)
  /-- TW_TX_PUSH (R632). -/
  | twTxPush (m : Master) (b : Fin 8) (v : Byte)
  /-- TW_TIMEOUT (R627). -/
  | twTimeout (b : Fin 8)
  /-- SLEEP_REQUEST (R646). -/
  | sleepRequest (m : Master)
  /-- DEEP_REQUEST (R646). -/
  | deepRequest (m : Master)
  /-- OFF_REQUEST (R646). -/
  | offRequest (m : Master) (key : BitVec 16)
  /-- RUN_REQUEST (R650). -/
  | runRequest (m : Master)
  /-- POWER_ENTRY_COMMIT (R646). -/
  | powerEntryCommit (pinFalls : Bool)
  /-- POWER_ENTRY_REFUSED (R646). -/
  | powerEntryRefused
  /-- ENTRY_TIMEOUT (R646). -/
  | entryTimeout
  /-- WAKE_REQUEST (R648). -/
  | wakeRequest (wakeLow : Bool)
  /-- RETURN_TO_RUN (R651). -/
  | returnToRun (flips : List Flip)
  /-- REGULATOR_RETRY (R651). -/
  | regulatorRetry (acked : Bool)
  /-- PAD_HOLD_RELEASE (R652). -/
  | padHoldRelease (groups : BitVec 5)
  /-- VIGIL_ALARM (R666). -/
  | vigilAlarm
  /-- BROWNOUT (R655). -/
  | brownout (word : Option (BitVec 14))
  /-- XREF_LOSS (R639). -/
  | xrefLoss
  /-- XREF_RETURN (R639). -/
  | xrefReturn
  /-- LFX_LOSS (R640). -/
  | lfxLoss
  /-- LFX_OK (R638). -/
  | lfxOk
  /-- PFAIL_ASSERT (R657). -/
  | pfailAssert
  /-- PFAIL_RELEASE (R657). -/
  | pfailRelease
  /-- POWER_ON_RESET (R641). -/
  | powerOnReset (testN : Bool) (xrefMode : Bool)
  /-- RESET_N (R642). -/
  | resetN (low : Bool)
  /-- EXTEST (R683). -/
  | extest (pins : BitVec 1121) (shift : Option (BitVec 3363))
  /-- SAMPLE_PRELOAD (R683). -/
  | samplePreload (pins : BitVec 1121) (shift : Option (BitVec 3363))
  /-- IDCODE (R684). -/
  | idcode
  /-- CLAMP (R683). -/
  | clamp
  /-- HIGHZ (R683). -/
  | highz
  /-- DEBUG (R519). -/
  | debug (k : Fin 9) (op : DebugOp)
  /-- BYPASS (R683). -/
  | bypass
  /-- TRST_N (R683). -/
  | trstN
  /-- XMET_RETURN (R368). -/
  | xmetReturn
  /-- TW_BUS_STOP (R623). -/
  | twBusStop (b : Fin 8)
  /-- VAON_FALL (R691). -/
  | vaonFall
  /-- REFRESH_SWITCH (R396). -/
  | refreshSwitch
  /-- VC_LOAD_DONE (R510). -/
  | vcLoadDone (reads : Bool)
  /-- LINE_EDGE (R248). -/
  | lineEdge (b : Fin 64) (rise : Bool)
  /-- ACKNOWLEDGEMENT_FRAME (R371). -/
  | acknowledgementFrame
  deriving DecidableEq, Repr

end Sys2Proof
end

