-- ==== Sys2Proof/Config.lean ====
section
/-! DEFINITION. What one device fixes and the spec leaves open: opaque constants with no body, so that nothing can be
proved of their values. A free value of a step is such a constant applied to a counter of State or to its operands. -/

namespace Sys2Proof.Config

/-- The pseudo-random values of special 14 of a line engine, by the model's count of free values (R256). -/
opaque random16 : Nat → BitVec 16

/-- The origin of the free-running µs count of special 13 of the line engines (R256). -/
opaque usOrigin : Nat

/-- The unique ID of the device, which its factory sets (R39). -/
opaque uid : BitVec 64

/-- The first fifteen coefficients of the supplied FIR sets 0 to 4, fixed in ROM, as s20 (R295). -/
opaque firHalf : Nat → Nat → BitVec 20

/-- The sixteenth coefficient of supplied set j: a set is symmetric and its coefficients sum to 2^18 (R295). -/
def firMid (j : Nat) : Int := 131072 - ((List.range 15).map (fun i => (firHalf j i).toInt)).sum

/-- Coefficient i of supplied set j (R295). Every one is an s20 value (R294): values that leave no such sixteenth coefficient
are those of no device, and a set of two equal coefficients stands for them. -/
def fir (j i : Nat) : Int :=
  let m := if i < 16 then i else 31 - i
  if -524288 ≤ firMid j ∧ firMid j < 524288 then (if m < 15 then (firHalf j m).toInt else firMid j)
  else if m < 15 then 0 else 131072

/-- The adjustment of the rate of fabric time from an offset and the rate in force (R440 gives no law). -/
opaque rateLaw : Int → Int → Int

/-- Whether an addition to fabric time that is no whole number of 2^-32 ns is rounded up, from the rate in force (R436
states no rounding). -/
opaque timeRound : Int → Bool

/-- What LK_DELAY reads where the mean path delay does not fit its 20 bits (R440, R456). -/
opaque delayOut : Int → BitVec 20

/-- For how many TREF counts an access holds its resource (R84 states no figures), by the model's count of free values. -/
opaque holdTime : Nat → Nat

/-- The back-off after a swap collision, a number of µs (R439), by the model's count of free values. -/
opaque backoff : Nat → Nat

/-- The bit start that ALIGN EDGE takes where there has been no edge (R254 gives none), by the model's count of free
values. -/
opaque noEdge : Nat → Nat

/-- The unique ID of the metrology die (R367). -/
opaque metUid : BitVec 64

/-- What the metrology die measured where a command brings no measured body: by the model's count of free values, the
record type, its source, the place of the byte (R356). -/
opaque metByte : Nat → Nat → Nat → Nat → BitVec 8

/-- Whether the metrology die rounds a quotient up, by its dividend and divisor (R356 states no rounding). -/
opaque metRound : Int → Nat → Bool

/-- Which of REASON 2 and 3 the die gives: for a reserved byte that is not 0, under 0; for a parameter out of range, under
1; for a CMD not in R375, under 2 (R376). -/
opaque metReason : Nat → Bool

/-- The fabric time in ns of a tick count, as the receiver estimates it from the tick counts and times of the latest STATUS
frames (R373). -/
opaque metStamp : List (Nat × Nat) → Nat → Nat

/-- A character of a display page, by page, the values it shows, and its place (R369: the ROM composes the text). -/
opaque pageText : Nat → List Nat → Nat → BitVec 8

/-- The VOUT_MODE byte of the core regulators of the board, A as 0 and B as 1 (R629). -/
opaque voutMode : Nat → BitVec 8

/-- The words of the boot ROM of a half, 0 or 1, by offset (R495). -/
opaque bootRom : Nat → Nat → BitVec 20

/-- What a word holds that could not be read: TVAL and TEXT of one that could not be fetched (R461, R483 state none), a bank
word written back after its window's test (R568), by the model's count of free values. -/
opaque lostWord : Nat → BitVec 20

/-- What the boot ROM leaves in the word registers it does not set (R504), by the model's count of free values and the
register. -/
opaque entryWord : Nat → Nat → BitVec 20

/-- The hash of the factory's signing key in OTP slot 0 (R506). -/
opaque factoryKey : List (BitVec 8)

/-- What retained memory holds after a rejected VC image (R510), by the model's count of free values and the address. -/
opaque voidWord : Nat → Nat → BitVec 20

/-- The random value of ENV_NONCE (R514), by the model's count of free values. -/
opaque random : Nat → BitVec 16

/-- A nonce is never 0 (R514). -/
def nonce (n : Nat) : BitVec 16 := if random n = 0 then 1 else random n

/-- What DEV_WHO.WHO reads to a master that is neither a steward nor the VC (R40 gives none). -/
opaque whoElse : BitVec 4

/-- Whether both core regulators acknowledge a group command that an OUT starts (R96, R629): an outcome of the board, by
the model's count of free values. -/
opaque regulatorAcks : Nat → Bool

/-- The level a line engine samples in a step that an OUT starts (R262): an outcome of the field, by the model's count of
free values. -/
opaque lineLevel : Nat → Bool

end Sys2Proof.Config
end

