-- ==== Sys2Proof/Machine/RegMap.lean ====
section
/-! DEFINITION. The register maps of the spec: the address of every register, the place of every field, and for every
register which bits a write stores, which a write of 1 clears, and the value after reset (R4, R6, R7, R9). A bay register
is given by its bay offset (R32), every other register by its I/O address. -/

namespace Sys2Proof.Machine

/-- A field: the register's offset within its block, and its bits [hi:lo] (R4). -/
structure Fld where
  addr : Nat
  hi : Nat
  lo : Nat
  deriving DecidableEq, Repr

/-- A row of a register map: n2 groups of n1 registers, the registers s1 apart and the groups s2 apart; the bits a
write stores, the bits a write of 1 clears, and the reset value (R6, R9). -/
structure RegRow where
  base : Nat
  n1 : Nat
  s1 : Nat
  n2 : Nat
  s2 : Nat
  rw : Nat
  w1c : Nat
  reset : Nat
  deriving DecidableEq, Repr

namespace Reg

/-- `DEV_PART` (R37). -/
abbrev DEV_PART : Nat := 0xF00
abbrev DEV_PART_FAMILY : Fld := ⟨0xF00, 19, 12⟩
abbrev DEV_PART_PART : Fld := ⟨0xF00, 11, 0⟩
/-- `DEV_REV` (R38). -/
abbrev DEV_REV : Nat := 0xF01
abbrev DEV_REV_MAJOR : Fld := ⟨0xF01, 15, 8⟩
abbrev DEV_REV_MINOR : Fld := ⟨0xF01, 7, 0⟩
/-- `DEV_UID0` (R39). -/
abbrev DEV_UID0 : Nat := 0xF02
abbrev DEV_UID0_UID_0 : Fld := ⟨0xF02, 19, 0⟩
/-- `DEV_UID1` (R39). -/
abbrev DEV_UID1 : Nat := 0xF03
abbrev DEV_UID1_UID_1 : Fld := ⟨0xF03, 19, 0⟩
/-- `DEV_UID2` (R39). -/
abbrev DEV_UID2 : Nat := 0xF04
abbrev DEV_UID2_UID_2 : Fld := ⟨0xF04, 19, 0⟩
/-- `DEV_UID3` (R39). -/
abbrev DEV_UID3 : Nat := 0xF05
abbrev DEV_UID3_UID_3 : Fld := ⟨0xF05, 3, 0⟩
/-- `DEV_WHO` (R40). -/
abbrev DEV_WHO : Nat := 0xF06
abbrev DEV_WHO_HALF : Fld := ⟨0xF06, 4, 4⟩
abbrev DEV_WHO_WHO : Fld := ⟨0xF06, 3, 0⟩
/-- `DEV_CFG` (R41). -/
abbrev DEV_CFG : Nat := 0xF07
abbrev DEV_CFG_MET_UP : Fld := ⟨0xF07, 3, 3⟩
abbrev DEV_CFG_PARTNER_OK : Fld := ⟨0xF07, 2, 2⟩
abbrev DEV_CFG_PROFILE : Fld := ⟨0xF07, 1, 0⟩
/-- `DEV_SHR` (R42). -/
abbrev DEV_SHR : Nat := 0xF08
abbrev DEV_SHR_GP_HI : Fld := ⟨0xF08, 16, 16⟩
abbrev DEV_SHR_GP_LO : Fld := ⟨0xF08, 15, 15⟩
abbrev DEV_SHR_GT_HI : Fld := ⟨0xF08, 14, 14⟩
abbrev DEV_SHR_GT_LO : Fld := ⟨0xF08, 13, 13⟩
abbrev DEV_SHR_TW : Fld := ⟨0xF08, 12, 5⟩
abbrev DEV_SHR_CPB : Fld := ⟨0xF08, 4, 4⟩
abbrev DEV_SHR_CPA : Fld := ⟨0xF08, 3, 3⟩
abbrev DEV_SHR_MET_LINK : Fld := ⟨0xF08, 2, 2⟩
abbrev DEV_SHR_ARCHIVE : Fld := ⟨0xF08, 1, 1⟩
abbrev DEV_SHR_FABRIC : Fld := ⟨0xF08, 0, 0⟩
/-- `DEV_REFUSED` (R43). -/
abbrev DEV_REFUSED : Nat := 0xF09
abbrev DEV_REFUSED_COUNT : Fld := ⟨0xF09, 19, 0⟩
/-- `DEV_REFUSED_LAST` (R44). -/
abbrev DEV_REFUSED_LAST : Nat := 0xF0A
abbrev DEV_REFUSED_LAST_ADDR : Fld := ⟨0xF0A, 19, 0⟩
/-- `SEAT_OWN0` (R49). -/
abbrev SEAT_OWN0 : Nat := 0x7E000
abbrev SEAT_OWN0_OWN_0 : Fld := ⟨0x7E000, 19, 0⟩
/-- `SEAT_OWN1` (R49). -/
abbrev SEAT_OWN1 : Nat := 0x7E001
abbrev SEAT_OWN1_OWN_1 : Fld := ⟨0x7E001, 19, 0⟩
/-- `SEAT_OWN2` (R49). -/
abbrev SEAT_OWN2 : Nat := 0x7E002
abbrev SEAT_OWN2_OWN_2 : Fld := ⟨0x7E002, 19, 0⟩
/-- `SEAT_OWN3` (R49). -/
abbrev SEAT_OWN3 : Nat := 0x7E003
abbrev SEAT_OWN3_OWN_3 : Fld := ⟨0x7E003, 3, 0⟩
/-- `HLT_WATCH` (R74). -/
abbrev HLT_WATCH : Nat := 0xE00
abbrev HLT_WATCH_SEQ : Fld := ⟨0xE00, 7, 0⟩
/-- `HLT_BEAT` (R75). -/
abbrev HLT_BEAT : Nat := 0xE01
abbrev HLT_BEAT_SEQ : Fld := ⟨0xE01, 7, 0⟩
/-- `HLT_YIELD` (R76). -/
abbrev HLT_YIELD : Nat := 0xE02
abbrev HLT_YIELD_KEY : Fld := ⟨0xE02, 19, 0⟩
/-- `HLT_STAT` (R77). -/
abbrev HLT_STAT : Nat := 0xE03
abbrev HLT_STAT_SELF_FAIL : Fld := ⟨0xE03, 9, 9⟩
abbrev HLT_STAT_SELF_BUSY : Fld := ⟨0xE03, 8, 8⟩
abbrev HLT_STAT_MISSED : Fld := ⟨0xE03, 7, 6⟩
abbrev HLT_STAT_BEAT_OK : Fld := ⟨0xE03, 5, 5⟩
abbrev HLT_STAT_SYNCED : Fld := ⟨0xE03, 4, 4⟩
/-- `SEAT_REQ` (R78). -/
abbrev SEAT_REQ : Nat := 0x7E008
abbrev SEAT_REQ_OP : Fld := ⟨0x7E008, 19, 18⟩
abbrev SEAT_REQ_ALL : Fld := ⟨0x7E008, 6, 6⟩
abbrev SEAT_REQ_BAY : Fld := ⟨0x7E008, 5, 0⟩
/-- `SEAT_RES` (R79). -/
abbrev SEAT_RES : Nat := 0x7E009
abbrev SEAT_RES_PEND : Fld := ⟨0x7E009, 14, 14⟩
abbrev SEAT_RES_BAY : Fld := ⟨0x7E009, 13, 8⟩
abbrev SEAT_RES_STATUS : Fld := ⟨0x7E009, 7, 0⟩
/-- `REF_STAT` (R80). -/
abbrev REF_STAT : Nat := 0x7E00A
abbrev REF_STAT_BOOT_LATE_B : Fld := ⟨0x7E00A, 11, 11⟩
abbrev REF_STAT_BOOT_LATE_A : Fld := ⟨0x7E00A, 10, 10⟩
abbrev REF_STAT_ORPHAN : Fld := ⟨0x7E00A, 9, 9⟩
abbrev REF_STAT_DUAL_FAULT : Fld := ⟨0x7E00A, 8, 8⟩
abbrev REF_STAT_MIRROR_SPLIT : Fld := ⟨0x7E00A, 7, 7⟩
abbrev REF_STAT_DUAL_CLAIM : Fld := ⟨0x7E00A, 6, 6⟩
abbrev REF_STAT_SUPPLY_B : Fld := ⟨0x7E00A, 5, 5⟩
abbrev REF_STAT_SUPPLY_A : Fld := ⟨0x7E00A, 4, 4⟩
abbrev REF_STAT_YIELD_B : Fld := ⟨0x7E00A, 3, 3⟩
abbrev REF_STAT_YIELD_A : Fld := ⟨0x7E00A, 2, 2⟩
abbrev REF_STAT_TAKEOVER_B : Fld := ⟨0x7E00A, 1, 1⟩
abbrev REF_STAT_TAKEOVER_A : Fld := ⟨0x7E00A, 0, 0⟩
/-- `REF_CAUSE` (R81). -/
abbrev REF_CAUSE : Nat := 0x7E00B
abbrev REF_CAUSE_BAY : Fld := ⟨0x7E00B, 13, 8⟩
abbrev REF_CAUSE_HALF : Fld := ⟨0x7E00B, 4, 4⟩
abbrev REF_CAUSE_CAUSE : Fld := ⟨0x7E00B, 3, 0⟩
/-- `REF_MIS` (R82). -/
abbrev REF_MIS : Nat := 0x7E00C
abbrev REF_MIS_COUNT : Fld := ⟨0x7E00C, 19, 0⟩
/-- `REF_MOVES` (R82). -/
abbrev REF_MOVES : Nat := 0x7E00D
abbrev REF_MOVES_COUNT : Fld := ⟨0x7E00D, 19, 0⟩
/-- `REF_BOOTWAIT` (R83). -/
abbrev REF_BOOTWAIT : Nat := 0x7E00E
abbrev REF_BOOTWAIT_MS : Fld := ⟨0x7E00E, 19, 0⟩
/-- `BG_CTL` (R99). -/
abbrev BG_CTL : Nat := 0x600
abbrev BG_CTL_LATE : Fld := ⟨0x600, 5, 4⟩
abbrev BG_CTL_FOLLOW : Fld := ⟨0x600, 0, 0⟩
/-- `BG_LEN` (R100). -/
abbrev BG_LEN : Nat := 0x601
abbrev BG_LEN_US : Fld := ⟨0x601, 13, 0⟩
/-- `BG_STAT` (R101). -/
abbrev BG_STAT : Nat := 0x602
abbrev BG_STAT_COMMIT_ST : Fld := ⟨0x602, 19, 12⟩
abbrev BG_STAT_PENDING : Fld := ⟨0x602, 5, 5⟩
abbrev BG_STAT_SQUEEZED : Fld := ⟨0x602, 4, 4⟩
abbrev BG_STAT_FLOOR_OVER : Fld := ⟨0x602, 3, 3⟩
abbrev BG_STAT_LEN_BAD : Fld := ⟨0x602, 2, 2⟩
abbrev BG_STAT_COMMIT_BAD : Fld := ⟨0x602, 1, 1⟩
/-- `BG_COMMIT` (R102). -/
abbrev BG_COMMIT : Nat := 0x603
abbrev BG_COMMIT_GO : Fld := ⟨0x603, 0, 0⟩
/-- `BG_FLOOR` (R103). -/
abbrev BG_FLOOR : Nat := 0x604
abbrev BG_FLOOR_GRAINS : Fld := ⟨0x604, 19, 0⟩
/-- `BG_GRANT` (R104). -/
abbrev BG_GRANT : Nat := 0x610
abbrev BG_GRANT_GRAINS : Fld := ⟨0x610, 19, 0⟩
/-- `BG_USED` (R105). -/
abbrev BG_USED : Nat := 0x650
abbrev BG_USED_GRAINS : Fld := ⟨0x650, 19, 0⟩
/-- `BG_STALL` (R106). -/
abbrev BG_STALL : Nat := 0x690
abbrev BG_STALL_GRAINS : Fld := ⟨0x690, 19, 0⟩
/-- `BG_BOR` (R107). -/
abbrev BG_BOR : Nat := 0x6A0
abbrev BG_BOR_LEND : Fld := ⟨0x6A0, 3, 3⟩
abbrev BG_BOR_EN : Fld := ⟨0x6A0, 2, 2⟩
abbrev BG_BOR_PRIO : Fld := ⟨0x6A0, 1, 0⟩
/-- `PRF_REQ` (R108). -/
abbrev PRF_REQ : Nat := 0x6C0
abbrev PRF_REQ_TARGET : Fld := ⟨0x6C0, 1, 0⟩
/-- `PRF_STAT` (R109). -/
abbrev PRF_STAT : Nat := 0x6C1
abbrev PRF_STAT_STATUS : Fld := ⟨0x6C1, 15, 8⟩
abbrev PRF_STAT_BUSY : Fld := ⟨0x6C1, 4, 4⟩
abbrev PRF_STAT_TARGET : Fld := ⟨0x6C1, 1, 0⟩
/-- `PRF_OVR` (R110). -/
abbrev PRF_OVR : Nat := 0x6C2
abbrev PRF_OVR_SEAL : Fld := ⟨0x6C2, 4, 4⟩
abbrev PRF_OVR_LINE_RATE : Fld := ⟨0x6C2, 3, 3⟩
abbrev PRF_OVR_TOL : Fld := ⟨0x6C2, 2, 2⟩
abbrev PRF_OVR_PRESET : Fld := ⟨0x6C2, 1, 1⟩
abbrev PRF_OVR_GRANTS : Fld := ⟨0x6C2, 0, 0⟩
/-- `TB_CTL` (R133). -/
abbrev TB_CTL : Nat := 0x0
abbrev TB_CTL_CAP_IE : Fld := ⟨0x0, 13, 13⟩
abbrev TB_CTL_WRAP_IE : Fld := ⟨0x0, 12, 12⟩
abbrev TB_CTL_CMP_IE : Fld := ⟨0x0, 11, 11⟩
abbrev TB_CTL_CMP_AUTO : Fld := ⟨0x0, 10, 10⟩
abbrev TB_CTL_STAGGER : Fld := ⟨0x0, 9, 9⟩
abbrev TB_CTL_PIN_EDGE : Fld := ⟨0x0, 8, 8⟩
abbrev TB_CTL_PIN : Fld := ⟨0x0, 7, 3⟩
abbrev TB_CTL_SRC : Fld := ⟨0x0, 2, 1⟩
abbrev TB_CTL_EN : Fld := ⟨0x0, 0, 0⟩
/-- `GT_CTL` (R134). -/
abbrev GT_CTL : Nat := 0x71000
abbrev GT_CTL_FREEZE : Fld := ⟨0x71000, 14, 14⟩
abbrev GT_CTL_CAP_IE : Fld := ⟨0x71000, 13, 13⟩
abbrev GT_CTL_WRAP_IE : Fld := ⟨0x71000, 12, 12⟩
abbrev GT_CTL_CMP_IE : Fld := ⟨0x71000, 11, 11⟩
abbrev GT_CTL_CMP_AUTO : Fld := ⟨0x71000, 10, 10⟩
abbrev GT_CTL_PIN_EDGE : Fld := ⟨0x71000, 8, 8⟩
abbrev GT_CTL_PIN : Fld := ⟨0x71000, 7, 3⟩
abbrev GT_CTL_SRC : Fld := ⟨0x71000, 2, 1⟩
abbrev GT_CTL_EN : Fld := ⟨0x71000, 0, 0⟩
/-- `TB_PRE` (R135). -/
abbrev TB_PRE : Nat := 0x1
abbrev TB_PRE_N_M1 : Fld := ⟨0x1, 19, 8⟩
abbrev TB_PRE_F : Fld := ⟨0x1, 7, 0⟩
/-- `TB_PER` (R135). -/
abbrev TB_PER : Nat := 0x2
abbrev TB_PER_PER : Fld := ⟨0x2, 19, 0⟩
/-- `TB_COUNT` (R135). -/
abbrev TB_COUNT : Nat := 0x3
abbrev TB_COUNT_COUNT : Fld := ⟨0x3, 19, 0⟩
/-- `TB_SNAP` (R135). -/
abbrev TB_SNAP : Nat := 0x4
abbrev TB_SNAP_SNAP : Fld := ⟨0x4, 19, 0⟩
/-- `TB_CMP` (R135). -/
abbrev TB_CMP : Nat := 0x5
abbrev TB_CMP_CMP : Fld := ⟨0x5, 19, 0⟩
/-- `TB_CMP_STEP` (R135). -/
abbrev TB_CMP_STEP : Nat := 0x6
abbrev TB_CMP_STEP_STEP : Fld := ⟨0x6, 19, 0⟩
/-- `TB_STAT` (R136). -/
abbrev TB_STAT : Nat := 0x7
abbrev TB_STAT_PEND : Fld := ⟨0x7, 12, 12⟩
abbrev TB_STAT_COARSE : Fld := ⟨0x7, 11, 11⟩
abbrev TB_STAT_ARMED : Fld := ⟨0x7, 10, 10⟩
abbrev TB_STAT_SLP_CLAMP : Fld := ⟨0x7, 9, 9⟩
abbrev TB_STAT_GAP : Fld := ⟨0x7, 8, 8⟩
abbrev TB_STAT_BAD : Fld := ⟨0x7, 7, 7⟩
abbrev TB_STAT_OVR1 : Fld := ⟨0x7, 6, 6⟩
abbrev TB_STAT_OVR0 : Fld := ⟨0x7, 5, 5⟩
abbrev TB_STAT_DONE1 : Fld := ⟨0x7, 4, 4⟩
abbrev TB_STAT_DONE0 : Fld := ⟨0x7, 3, 3⟩
abbrev TB_STAT_WRAP : Fld := ⟨0x7, 2, 2⟩
abbrev TB_STAT_CMP : Fld := ⟨0x7, 1, 1⟩
abbrev TB_STAT_RUN : Fld := ⟨0x7, 0, 0⟩
/-- `GT_PRE` (R135). -/
abbrev GT_PRE : Nat := 0x71001
abbrev GT_PRE_N_M1 : Fld := ⟨0x71001, 19, 8⟩
abbrev GT_PRE_F : Fld := ⟨0x71001, 7, 0⟩
/-- `GT_PER` (R135). -/
abbrev GT_PER : Nat := 0x71002
abbrev GT_PER_PER : Fld := ⟨0x71002, 19, 0⟩
/-- `GT_COUNT` (R135). -/
abbrev GT_COUNT : Nat := 0x71003
abbrev GT_COUNT_COUNT : Fld := ⟨0x71003, 19, 0⟩
/-- `GT_SNAP` (R135). -/
abbrev GT_SNAP : Nat := 0x71004
abbrev GT_SNAP_SNAP : Fld := ⟨0x71004, 19, 0⟩
/-- `GT_CMP` (R135). -/
abbrev GT_CMP : Nat := 0x71005
abbrev GT_CMP_CMP : Fld := ⟨0x71005, 19, 0⟩
/-- `GT_CMP_STEP` (R135). -/
abbrev GT_CMP_STEP : Nat := 0x71006
abbrev GT_CMP_STEP_STEP : Fld := ⟨0x71006, 19, 0⟩
/-- `GT_STAT` (R136). -/
abbrev GT_STAT : Nat := 0x71007
abbrev GT_STAT_PEND : Fld := ⟨0x71007, 12, 12⟩
abbrev GT_STAT_COARSE : Fld := ⟨0x71007, 11, 11⟩
abbrev GT_STAT_ARMED : Fld := ⟨0x71007, 10, 10⟩
abbrev GT_STAT_SLP_CLAMP : Fld := ⟨0x71007, 9, 9⟩
abbrev GT_STAT_GAP : Fld := ⟨0x71007, 8, 8⟩
abbrev GT_STAT_BAD : Fld := ⟨0x71007, 7, 7⟩
abbrev GT_STAT_OVR1 : Fld := ⟨0x71007, 6, 6⟩
abbrev GT_STAT_OVR0 : Fld := ⟨0x71007, 5, 5⟩
abbrev GT_STAT_DONE1 : Fld := ⟨0x71007, 4, 4⟩
abbrev GT_STAT_DONE0 : Fld := ⟨0x71007, 3, 3⟩
abbrev GT_STAT_WRAP : Fld := ⟨0x71007, 2, 2⟩
abbrev GT_STAT_CMP : Fld := ⟨0x71007, 1, 1⟩
abbrev GT_STAT_RUN : Fld := ⟨0x71007, 0, 0⟩
/-- `TB_SLP` (R137). -/
abbrev TB_SLP : Nat := 0x8
abbrev TB_SLP_COARSE : Fld := ⟨0x8, 15, 0⟩
/-- `TB_SLP_LVL` (R137). -/
abbrev TB_SLP_LVL : Nat := 0x9
abbrev TB_SLP_LVL_LVL : Fld := ⟨0x9, 15, 0⟩
/-- `TB_CAP_CFG` (R138). -/
abbrev TB_CAP_CFG : Nat := 0x10
abbrev TB_CAP_CFG_EN : Fld := ⟨0x10, 7, 7⟩
abbrev TB_CAP_CFG_POL : Fld := ⟨0x10, 6, 6⟩
abbrev TB_CAP_CFG_SEL : Fld := ⟨0x10, 5, 5⟩
abbrev TB_CAP_CFG_PIN : Fld := ⟨0x10, 4, 0⟩
/-- `TB_CAP_RISE` (R138). -/
abbrev TB_CAP_RISE : Nat := 0x11
abbrev TB_CAP_RISE_RISE : Fld := ⟨0x11, 19, 0⟩
/-- `TB_CAP_FALL` (R138). -/
abbrev TB_CAP_FALL : Nat := 0x12
abbrev TB_CAP_FALL_FALL : Fld := ⟨0x12, 19, 0⟩
/-- `TB_CAP_WIDTH` (R138). -/
abbrev TB_CAP_WIDTH : Nat := 0x13
abbrev TB_CAP_WIDTH_WIDTH : Fld := ⟨0x13, 19, 0⟩
/-- `GT_CAP_CFG` (R138). -/
abbrev GT_CAP_CFG : Nat := 0x71010
abbrev GT_CAP_CFG_EN : Fld := ⟨0x71010, 7, 7⟩
abbrev GT_CAP_CFG_POL : Fld := ⟨0x71010, 6, 6⟩
abbrev GT_CAP_CFG_SEL : Fld := ⟨0x71010, 5, 5⟩
abbrev GT_CAP_CFG_PIN : Fld := ⟨0x71010, 4, 0⟩
/-- `GT_CAP_RISE` (R138). -/
abbrev GT_CAP_RISE : Nat := 0x71011
abbrev GT_CAP_RISE_RISE : Fld := ⟨0x71011, 19, 0⟩
/-- `GT_CAP_FALL` (R138). -/
abbrev GT_CAP_FALL : Nat := 0x71012
abbrev GT_CAP_FALL_FALL : Fld := ⟨0x71012, 19, 0⟩
/-- `GT_CAP_WIDTH` (R138). -/
abbrev GT_CAP_WIDTH : Nat := 0x71013
abbrev GT_CAP_WIDTH_WIDTH : Fld := ⟨0x71013, 19, 0⟩
/-- `TB_PHASE` (R139). -/
abbrev TB_PHASE : Nat := 0x40
abbrev TB_PHASE_OFFSET : Fld := ⟨0x40, 19, 0⟩
/-- `TS_CTL` (R168). -/
abbrev TS_CTL : Nat := 0x0
abbrev TS_CTL_CLS_IE : Fld := ⟨0x0, 15, 15⟩
abbrev TS_CTL_TALK_IE : Fld := ⟨0x0, 14, 14⟩
abbrev TS_CTL_TRIP_IE : Fld := ⟨0x0, 13, 13⟩
abbrev TS_CTL_TALK_RETRY : Fld := ⟨0x0, 12, 11⟩
abbrev TS_CTL_BORROW : Fld := ⟨0x0, 10, 10⟩
abbrev TS_CTL_PRB_DIV : Fld := ⟨0x0, 9, 7⟩
abbrev TS_CTL_PROBE : Fld := ⟨0x0, 6, 6⟩
abbrev TS_CTL_TEL_DIV : Fld := ⟨0x0, 5, 3⟩
abbrev TS_CTL_TEL_AT : Fld := ⟨0x0, 2, 1⟩
abbrev TS_CTL_EN : Fld := ⟨0x0, 0, 0⟩
/-- `TS_ON` (R169). -/
abbrev TS_ON : Nat := 0x1
abbrev TS_ON_ON : Fld := ⟨0x1, 19, 0⟩
/-- `TS_FINE_R` (R169). -/
abbrev TS_FINE_R : Nat := 0x2
abbrev TS_FINE_R_FINE_R : Fld := ⟨0x2, 11, 0⟩
/-- `TS_FINE_F` (R169). -/
abbrev TS_FINE_F : Nat := 0x3
abbrev TS_FINE_F_FINE_F : Fld := ⟨0x3, 11, 0⟩
/-- `TS_TEL` (R170). -/
abbrev TS_TEL : Nat := 0x4
abbrev TS_TEL_CLS : Fld := ⟨0x4, 19, 18⟩
abbrev TS_TEL_COMP : Fld := ⟨0x4, 17, 17⟩
abbrev TS_TEL_SEQ : Fld := ⟨0x4, 15, 12⟩
abbrev TS_TEL_CODE : Fld := ⟨0x4, 11, 0⟩
/-- `TS_PRB` (R170). -/
abbrev TS_PRB : Nat := 0x5
abbrev TS_PRB_ANS : Fld := ⟨0x5, 19, 17⟩
abbrev TS_PRB_SEQ : Fld := ⟨0x5, 15, 12⟩
abbrev TS_PRB_CODE : Fld := ⟨0x5, 11, 0⟩
/-- `TS_THR` (R171). -/
abbrev TS_THR : Nat := 0x6
abbrev TS_THR_RB : Fld := ⟨0x6, 19, 8⟩
abbrev TS_THR_THR : Fld := ⟨0x6, 7, 0⟩
/-- `TS_STAT` (R172). -/
abbrev TS_STAT : Nat := 0x7
abbrev TS_STAT_THR_BAD : Fld := ⟨0x7, 8, 8⟩
abbrev TS_STAT_REPAY_SHORT : Fld := ⟨0x7, 7, 7⟩
abbrev TS_STAT_BORROWED : Fld := ⟨0x7, 6, 6⟩
abbrev TS_STAT_TALK_DONE : Fld := ⟨0x7, 5, 5⟩
abbrev TS_STAT_PRB_CLS : Fld := ⟨0x7, 4, 4⟩
abbrev TS_STAT_TEL_CLS : Fld := ⟨0x7, 3, 3⟩
abbrev TS_STAT_TEL_MISS : Fld := ⟨0x7, 2, 2⟩
abbrev TS_STAT_COMP : Fld := ⟨0x7, 1, 1⟩
abbrev TS_STAT_TRIP : Fld := ⟨0x7, 0, 0⟩
/-- `TS_TALK_CMD` (R173). -/
abbrev TS_TALK_CMD : Nat := 0x8
abbrev TS_TALK_CMD_CANCEL : Fld := ⟨0x8, 16, 16⟩
abbrev TS_TALK_CMD_OP : Fld := ⟨0x8, 15, 12⟩
abbrev TS_TALK_CMD_ARG : Fld := ⟨0x8, 11, 0⟩
/-- `TS_TALK_RSP` (R173). -/
abbrev TS_TALK_RSP : Nat := 0x9
abbrev TS_TALK_RSP_FRAME : Fld := ⟨0x9, 19, 0⟩
/-- `TS_TALK_ST` (R173). -/
abbrev TS_TALK_ST : Nat := 0xA
abbrev TS_TALK_ST_STATUS : Fld := ⟨0xA, 19, 12⟩
abbrev TS_TALK_ST_BUSY : Fld := ⟨0xA, 11, 11⟩
abbrev TS_TALK_ST_TRIES : Fld := ⟨0xA, 10, 9⟩
abbrev TS_TALK_ST_WAIT : Fld := ⟨0xA, 7, 0⟩
/-- `TS_LEDGER` (R174). -/
abbrev TS_LEDGER : Nat := 0xB
abbrev TS_LEDGER_LEDGER : Fld := ⟨0xB, 19, 0⟩
/-- `TS_TRIPS` (R174). -/
abbrev TS_TRIPS : Nat := 0xC
abbrev TS_TRIPS_TRIPS : Fld := ⟨0xC, 19, 0⟩
/-- `TS_LOST` (R174). -/
abbrev TS_LOST : Nat := 0xD
abbrev TS_LOST_LOST : Fld := ⟨0xD, 19, 0⟩
/-- `TRM_SUM` (R175). -/
abbrev TRM_SUM : Nat := 0x7E
abbrev TRM_SUM_PEND : Fld := ⟨0x7E, 15, 0⟩
/-- `TD_CFG` (R194). -/
abbrev TD_CFG : Nat := 0xE
abbrev TD_CFG_HI : Fld := ⟨0xE, 19, 14⟩
abbrev TD_CFG_LO : Fld := ⟨0xE, 13, 8⟩
abbrev TD_CFG_PIV : Fld := ⟨0xE, 7, 2⟩
abbrev TD_CFG_PZ : Fld := ⟨0xE, 1, 1⟩
abbrev TD_CFG_H_IE : Fld := ⟨0xE, 0, 0⟩
/-- `TD_STAT` (R195). -/
abbrev TD_STAT : Nat := 0xF
abbrev TD_STAT_HEALTH : Fld := ⟨0xF, 19, 16⟩
abbrev TD_STAT_LAST : Fld := ⟨0xF, 15, 12⟩
abbrev TD_STAT_HCHG : Fld := ⟨0xF, 7, 7⟩
abbrev TD_STAT_PRV_SKIP : Fld := ⟨0xF, 6, 6⟩
abbrev TD_STAT_EXCESS : Fld := ⟨0xF, 5, 5⟩
abbrev TD_STAT_ILK_HOLD : Fld := ⟨0xF, 4, 4⟩
abbrev TD_STAT_CLIP_SLEW : Fld := ⟨0xF, 3, 3⟩
abbrev TD_STAT_CLIP_DUTY : Fld := ⟨0xF, 2, 2⟩
abbrev TD_STAT_PROVING : Fld := ⟨0xF, 1, 1⟩
/-- `TD_AGE` (R196). -/
abbrev TD_AGE : Nat := 0x50
abbrev TD_AGE_AGE : Fld := ⟨0x50, 19, 0⟩
/-- `TD_EXCESS` (R196). -/
abbrev TD_EXCESS : Nat := 0x60
abbrev TD_EXCESS_TICKS : Fld := ⟨0x60, 19, 0⟩
/-- `TD_SUM` (R197). -/
abbrev TD_SUM : Nat := 0x3A
abbrev TD_SUM_PEND : Fld := ⟨0x3A, 15, 0⟩
/-- `TS_ENV` (R198). -/
abbrev TS_ENV : Nat := 0x18
abbrev TS_ENV_MAXD : Fld := ⟨0x18, 19, 10⟩
abbrev TS_ENV_SLEW : Fld := ⟨0x18, 9, 2⟩
abbrev TS_ENV_FAILSAFE : Fld := ⟨0x18, 1, 1⟩
/-- `TS_ILK` (R199). -/
abbrev TS_ILK : Nat := 0x19
abbrev TS_ILK_DEAD : Fld := ⟨0x19, 15, 8⟩
abbrev TS_ILK_ILK : Fld := ⟨0x19, 4, 4⟩
abbrev TS_ILK_PARTNER : Fld := ⟨0x19, 3, 0⟩
/-- `ENV_LAST` (R200). -/
abbrev ENV_LAST : Nat := 0x38
abbrev ENV_LAST_CAUSE : Fld := ⟨0x38, 7, 4⟩
abbrev ENV_LAST_SLOT : Fld := ⟨0x38, 3, 0⟩
/-- `ENV_BAYCNT` (R200). -/
abbrev ENV_BAYCNT : Nat := 0x39
abbrev ENV_BAYCNT_COUNT : Fld := ⟨0x39, 19, 0⟩
/-- `LN_CFG` (R238). -/
abbrev LN_CFG : Nat := 0x180
abbrev LN_CFG_ARB_MAX : Fld := ⟨0x180, 19, 16⟩
abbrev LN_CFG_RWAIT : Fld := ⟨0x180, 12, 8⟩
abbrev LN_CFG_TRIP_IE : Fld := ⟨0x180, 7, 7⟩
abbrev LN_CFG_TX_IE : Fld := ⟨0x180, 6, 6⟩
abbrev LN_CFG_RX_IE : Fld := ⟨0x180, 5, 5⟩
abbrev LN_CFG_ERR_IE : Fld := ⟨0x180, 4, 4⟩
abbrev LN_CFG_ACK_EN : Fld := ⟨0x180, 3, 3⟩
abbrev LN_CFG_RATE : Fld := ⟨0x180, 2, 1⟩
abbrev LN_CFG_EN : Fld := ⟨0x180, 0, 0⟩
/-- `LN_STAT` (R239). -/
abbrev LN_STAT : Nat := 0x181
abbrev LN_STAT_BAD : Fld := ⟨0x181, 11, 11⟩
abbrev LN_STAT_THR_BAD : Fld := ⟨0x181, 10, 10⟩
abbrev LN_STAT_UNLOCK : Fld := ⟨0x181, 9, 9⟩
abbrev LN_STAT_DEFERRED : Fld := ⟨0x181, 8, 8⟩
abbrev LN_STAT_NOLOCK : Fld := ⟨0x181, 7, 7⟩
abbrev LN_STAT_RXOVF : Fld := ⟨0x181, 6, 6⟩
abbrev LN_STAT_RXERR : Fld := ⟨0x181, 5, 5⟩
abbrev LN_STAT_RXNEW : Fld := ⟨0x181, 4, 4⟩
abbrev LN_STAT_TXDONE : Fld := ⟨0x181, 3, 3⟩
abbrev LN_STAT_ITRIP : Fld := ⟨0x181, 2, 2⟩
abbrev LN_STAT_VTRIP : Fld := ⟨0x181, 1, 1⟩
abbrev LN_STAT_INFRAME : Fld := ⟨0x181, 0, 0⟩
/-- `LN_TX` (R240). -/
abbrev LN_TX : Nat := 0x182
abbrev LN_TX_CDTHR : Fld := ⟨0x182, 14, 8⟩
abbrev LN_TX_AMP : Fld := ⟨0x182, 7, 0⟩
/-- `LN_TXA` (R240). -/
abbrev LN_TXA : Nat := 0x184
abbrev LN_TXA_ADDR : Fld := ⟨0x184, 7, 0⟩
/-- `LN_TXD` (R240). -/
abbrev LN_TXD : Nat := 0x185
abbrev LN_TXD_DATA : Fld := ⟨0x185, 15, 0⟩
/-- `LN_TXC` (R240). -/
abbrev LN_TXC : Nat := 0x186
abbrev LN_TXC_ENTRY : Fld := ⟨0x186, 19, 17⟩
abbrev LN_TXC_RATE : Fld := ⟨0x186, 16, 15⟩
abbrev LN_TXC_RETRY : Fld := ⟨0x186, 14, 12⟩
abbrev LN_TXC_AR : Fld := ⟨0x186, 7, 7⟩
abbrev LN_TXC_LEN : Fld := ⟨0x186, 6, 0⟩
/-- `LN_TXID` (R240). -/
abbrev LN_TXID : Nat := 0x187
abbrev LN_TXID_ID : Fld := ⟨0x187, 15, 0⟩
/-- `LN_QSTAT` (R241). -/
abbrev LN_QSTAT : Nat := 0x188
abbrev LN_QSTAT_SUB_ST : Fld := ⟨0x188, 19, 12⟩
abbrev LN_QSTAT_P_BUSY : Fld := ⟨0x188, 8, 8⟩
abbrev LN_QSTAT_BUSY : Fld := ⟨0x188, 7, 0⟩
/-- `LN_CANCEL` (R241). -/
abbrev LN_CANCEL : Nat := 0x189
abbrev LN_CANCEL_MASK : Fld := ⟨0x189, 7, 0⟩
/-- `LN_DEFER` (R241). -/
abbrev LN_DEFER : Nat := 0x18A
abbrev LN_DEFER_ENTRY : Fld := ⟨0x18A, 19, 17⟩
abbrev LN_DEFER_P : Fld := ⟨0x18A, 16, 16⟩
abbrev LN_DEFER_US : Fld := ⟨0x18A, 11, 0⟩
/-- `LN_RXID` (R243). -/
abbrev LN_RXID : Nat := 0x190
abbrev LN_RXID_COUNT : Fld := ⟨0x190, 19, 16⟩
abbrev LN_RXID_ID : Fld := ⟨0x190, 15, 0⟩
/-- `LN_RXC` (R243). -/
abbrev LN_RXC : Nat := 0x191
abbrev LN_RXC_ROBUST : Fld := ⟨0x191, 9, 9⟩
abbrev LN_RXC_ACKD : Fld := ⟨0x191, 8, 8⟩
abbrev LN_RXC_AR : Fld := ⟨0x191, 7, 7⟩
abbrev LN_RXC_LEN : Fld := ⟨0x191, 6, 0⟩
/-- `LN_RXT` (R243). -/
abbrev LN_RXT : Nat := 0x192
abbrev LN_RXT_TS : Fld := ⟨0x192, 19, 0⟩
/-- `LN_RXA` (R243). -/
abbrev LN_RXA : Nat := 0x195
abbrev LN_RXA_ADDR : Fld := ⟨0x195, 4, 0⟩
/-- `LN_RXD` (R243). -/
abbrev LN_RXD : Nat := 0x196
abbrev LN_RXD_DATA : Fld := ⟨0x196, 15, 0⟩
/-- `LN_RXPOP` (R243). -/
abbrev LN_RXPOP : Nat := 0x197
abbrev LN_RXPOP_POP : Fld := ⟨0x197, 0, 0⟩
/-- `LN_TXS` (R242). -/
abbrev LN_TXS : Nat := 0x1C0
abbrev LN_TXS_STATUS : Fld := ⟨0x1C0, 19, 12⟩
abbrev LN_TXS_DONE : Fld := ⟨0x1C0, 11, 11⟩
abbrev LN_TXS_CPEND : Fld := ⟨0x1C0, 10, 10⟩
abbrev LN_TXS_ACKED : Fld := ⟨0x1C0, 9, 9⟩
abbrev LN_TXS_TRIES : Fld := ⟨0x1C0, 8, 6⟩
abbrev LN_TXS_ARBL : Fld := ⟨0x1C0, 5, 2⟩
abbrev LN_TXS_DEFER : Fld := ⟨0x1C0, 1, 1⟩
abbrev LN_TXS_BUSY : Fld := ⟨0x1C0, 0, 0⟩
/-- `LN_CNT` (R244). -/
abbrev LN_CNT : Nat := 0x1D0
abbrev LN_CNT_COUNT : Fld := ⟨0x1D0, 19, 0⟩
/-- `LN_SNS_V` (R245). -/
abbrev LN_SNS_V : Nat := 0x1D8
abbrev LN_SNS_V_SEQ : Fld := ⟨0x1D8, 15, 12⟩
abbrev LN_SNS_V_CODE : Fld := ⟨0x1D8, 11, 0⟩
/-- `LN_SNS_I` (R245). -/
abbrev LN_SNS_I : Nat := 0x1D9
abbrev LN_SNS_I_SEQ : Fld := ⟨0x1D9, 15, 12⟩
abbrev LN_SNS_I_CODE : Fld := ⟨0x1D9, 11, 0⟩
/-- `LN_RB_V` (R245). -/
abbrev LN_RB_V : Nat := 0x1DA
abbrev LN_RB_V_RB : Fld := ⟨0x1DA, 11, 0⟩
/-- `LN_RB_I` (R245). -/
abbrev LN_RB_I : Nat := 0x1DB
abbrev LN_RB_I_RB : Fld := ⟨0x1DB, 11, 0⟩
/-- `LS_SYN` (R246). -/
abbrev LS_SYN : Nat := 0x1E0
abbrev LS_SYN_CAL : Fld := ⟨0x1E0, 19, 19⟩
abbrev LS_SYN_FREQ : Fld := ⟨0x1E0, 8, 0⟩
/-- `LS_STAT` (R246). -/
abbrev LS_STAT : Nat := 0x1E1
abbrev LS_STAT_BAD : Fld := ⟨0x1E1, 8, 8⟩
abbrev LS_STAT_CAL_FAIL : Fld := ⟨0x1E1, 7, 7⟩
abbrev LS_STAT_CAL_DONE : Fld := ⟨0x1E1, 6, 6⟩
abbrev LS_STAT_UNLOCK : Fld := ⟨0x1E1, 5, 5⟩
abbrev LS_STAT_PEND : Fld := ⟨0x1E1, 4, 4⟩
abbrev LS_STAT_STATE : Fld := ⟨0x1E1, 3, 1⟩
/-- `LS_TEMP` (R246). -/
abbrev LS_TEMP : Nat := 0x1E2
abbrev LS_TEMP_NOW : Fld := ⟨0x1E2, 15, 8⟩
abbrev LS_TEMP_CAL : Fld := ⟨0x1E2, 7, 0⟩
/-- `LS_CALS` (R246). -/
abbrev LS_CALS : Nat := 0x1E3
abbrev LS_CALS_COUNT : Fld := ⟨0x1E3, 19, 0⟩
/-- `LN_ENV` (R247). -/
abbrev LN_ENV : Nat := 0x1F0
abbrev LN_ENV_TXMAX : Fld := ⟨0x1F0, 19, 12⟩
abbrev LN_ENV_PWR_EN : Fld := ⟨0x1F0, 8, 8⟩
abbrev LN_ENV_PWR_SLOT : Fld := ⟨0x1F0, 3, 0⟩
/-- `LN_LIM` (R247). -/
abbrev LN_LIM : Nat := 0x1F1
abbrev LN_LIM_VTHR : Fld := ⟨0x1F1, 15, 8⟩
abbrev LN_LIM_ITHR : Fld := ⟨0x1F1, 7, 0⟩
/-- `LN_BLANK` (R247). -/
abbrev LN_BLANK : Nat := 0x1F2
abbrev LN_BLANK_BLANK : Fld := ⟨0x1F2, 7, 0⟩
/-- `LE_CFG` (R275). -/
abbrev LE_CFG : Nat := 0x200
abbrev LE_CFG_LATE_IE : Fld := ⟨0x200, 9, 9⟩
abbrev LE_CFG_SWAP_IE : Fld := ⟨0x200, 8, 8⟩
abbrev LE_CFG_FLT_IE : Fld := ⟨0x200, 7, 7⟩
abbrev LE_CFG_LOOP : Fld := ⟨0x200, 3, 3⟩
abbrev LE_CFG_FE : Fld := ⟨0x200, 2, 2⟩
abbrev LE_CFG_PROTO : Fld := ⟨0x200, 1, 0⟩
/-- `LE_CTL` (R276). -/
abbrev LE_CTL : Nat := 0x201
abbrev LE_CTL_RESUME : Fld := ⟨0x201, 3, 3⟩
abbrev LE_CTL_STEP : Fld := ⟨0x201, 2, 2⟩
abbrev LE_CTL_ABORT : Fld := ⟨0x201, 1, 1⟩
abbrev LE_CTL_RUN : Fld := ⟨0x201, 0, 0⟩
/-- `LE_STAT` (R277). -/
abbrev LE_STAT : Nat := 0x202
abbrev LE_STAT_NOFIN : Fld := ⟨0x202, 16, 16⟩
abbrev LE_STAT_FAULTED : Fld := ⟨0x202, 15, 15⟩
abbrev LE_STAT_ABORTED : Fld := ⟨0x202, 14, 14⟩
abbrev LE_STAT_FORCED : Fld := ⟨0x202, 13, 13⟩
abbrev LE_STAT_SWAP_LATE : Fld := ⟨0x202, 12, 12⟩
abbrev LE_STAT_SWAPPED : Fld := ⟨0x202, 11, 11⟩
abbrev LE_STAT_BAD : Fld := ⟨0x202, 10, 10⟩
abbrev LE_STAT_BANK : Fld := ⟨0x202, 9, 9⟩
abbrev LE_STAT_SWPEND : Fld := ⟨0x202, 8, 8⟩
abbrev LE_STAT_STALL : Fld := ⟨0x202, 5, 4⟩
abbrev LE_STAT_STATE : Fld := ⟨0x202, 2, 0⟩
/-- `LE_PC` (R278). -/
abbrev LE_PC : Nat := 0x203
abbrev LE_PC_DEPTH : Fld := ⟨0x203, 9, 8⟩
abbrev LE_PC_PC : Fld := ⟨0x203, 7, 0⟩
/-- `LE_SWAP` (R278). -/
abbrev LE_SWAP : Nat := 0x204
abbrev LE_SWAP_RESTART : Fld := ⟨0x204, 2, 2⟩
abbrev LE_SWAP_FORCE : Fld := ⟨0x204, 1, 1⟩
abbrev LE_SWAP_GO : Fld := ⟨0x204, 0, 0⟩
/-- `LE_SWST` (R278). -/
abbrev LE_SWST : Nat := 0x205
abbrev LE_SWST_STATUS : Fld := ⟨0x205, 19, 12⟩
abbrev LE_SWST_RESTART : Fld := ⟨0x205, 8, 8⟩
abbrev LE_SWST_FORCE : Fld := ⟨0x205, 7, 7⟩
abbrev LE_SWST_PEND : Fld := ⟨0x205, 6, 6⟩
abbrev LE_SWST_WAIT : Fld := ⟨0x205, 2, 0⟩
/-- `LE_FAULT` (R278). -/
abbrev LE_FAULT : Nat := 0x206
abbrev LE_FAULT_CODE : Fld := ⟨0x206, 19, 12⟩
abbrev LE_FAULT_ADDR : Fld := ⟨0x206, 7, 0⟩
/-- `LE_DBG` (R278). -/
abbrev LE_DBG : Nat := 0x207
abbrev LE_DBG_BRK_EN : Fld := ⟨0x207, 8, 8⟩
abbrev LE_DBG_ADDR : Fld := ⟨0x207, 7, 0⟩
/-- `LE_PER` (R279). -/
abbrev LE_PER : Nat := 0x208
abbrev LE_PER_CYCLES : Fld := ⟨0x208, 19, 0⟩
/-- `LE_EDGE` (R279). -/
abbrev LE_EDGE : Nat := 0x20C
abbrev LE_EDGE_SRC : Fld := ⟨0x20C, 2, 2⟩
abbrev LE_EDGE_POL : Fld := ⟨0x20C, 1, 0⟩
/-- `LE_TSADJ` (R279). -/
abbrev LE_TSADJ : Nat := 0x20D
abbrev LE_TSADJ_CYCLES : Fld := ⟨0x20D, 15, 0⟩
/-- `LE_STUFF` (R279). -/
abbrev LE_STUFF : Nat := 0x20E
abbrev LE_STUFF_RUN : Fld := ⟨0x20E, 4, 1⟩
abbrev LE_STUFF_VAL : Fld := ⟨0x20E, 0, 0⟩
/-- `LE_CRC_CFG` (R279). -/
abbrev LE_CRC_CFG : Nat := 0x20F
abbrev LE_CRC_CFG_DIR : Fld := ⟨0x20F, 6, 6⟩
abbrev LE_CRC_CFG_W : Fld := ⟨0x20F, 5, 0⟩
/-- `LE_CRC_POLY` (R279). -/
abbrev LE_CRC_POLY : Nat := 0x210
abbrev LE_CRC_POLY_POLY : Fld := ⟨0x210, 19, 0⟩
/-- `LE_CRC_INIT` (R279). -/
abbrev LE_CRC_INIT : Nat := 0x212
abbrev LE_CRC_INIT_INIT : Fld := ⟨0x212, 19, 0⟩
/-- `LE_ARG` (R279). -/
abbrev LE_ARG : Nat := 0x214
abbrev LE_ARG_ARG : Fld := ⟨0x214, 19, 0⟩
/-- `LE_PA` (R280). -/
abbrev LE_PA : Nat := 0x218
abbrev LE_PA_BANK : Fld := ⟨0x218, 8, 8⟩
abbrev LE_PA_ADDR : Fld := ⟨0x218, 7, 0⟩
/-- `LE_PD_LO` (R280). -/
abbrev LE_PD_LO : Nat := 0x219
abbrev LE_PD_LO_LO : Fld := ⟨0x219, 19, 0⟩
/-- `LE_PD_HI` (R280). -/
abbrev LE_PD_HI : Nat := 0x21A
abbrev LE_PD_HI_HI : Fld := ⟨0x21A, 11, 0⟩
/-- `LE_BCRC` (R280). -/
abbrev LE_BCRC : Nat := 0x21B
abbrev LE_BCRC_BCRC : Fld := ⟨0x21B, 19, 0⟩
/-- `LE_CELL` (R281). -/
abbrev LE_CELL : Nat := 0x220
abbrev LE_CELL_CELL : Fld := ⟨0x220, 15, 0⟩
/-- `LE_TSR` (R281). -/
abbrev LE_TSR : Nat := 0x228
abbrev LE_TSR_TSR : Fld := ⟨0x228, 19, 0⟩
/-- `LE_RSR` (R281). -/
abbrev LE_RSR : Nat := 0x22A
abbrev LE_RSR_RSR : Fld := ⟨0x22A, 19, 0⟩
/-- `LE_CRC` (R281). -/
abbrev LE_CRC : Nat := 0x22C
abbrev LE_CRC_CRC : Fld := ⟨0x22C, 19, 0⟩
/-- `LE_CNT_LATE` (R281). -/
abbrev LE_CNT_LATE : Nat := 0x230
abbrev LE_CNT_LATE_COUNT : Fld := ⟨0x230, 19, 0⟩
/-- `LE_CNT_ABORT` (R281). -/
abbrev LE_CNT_ABORT : Nat := 0x231
abbrev LE_CNT_ABORT_COUNT : Fld := ⟨0x231, 19, 0⟩
/-- `LE_CNT_SWAP` (R281). -/
abbrev LE_CNT_SWAP : Nat := 0x232
abbrev LE_CNT_SWAP_COUNT : Fld := ⟨0x232, 19, 0⟩
/-- `PL_CFG` (R312). -/
abbrev PL_CFG : Nat := 0x300
abbrev PL_CFG_OUT : Fld := ⟨0x300, 11, 9⟩
abbrev PL_CFG_REPOLL : Fld := ⟨0x300, 8, 7⟩
abbrev PL_CFG_ERR_IE : Fld := ⟨0x300, 6, 6⟩
abbrev PL_CFG_MISS_IE : Fld := ⟨0x300, 5, 5⟩
abbrev PL_CFG_ID_IE : Fld := ⟨0x300, 4, 4⟩
abbrev PL_CFG_EN : Fld := ⟨0x300, 0, 0⟩
/-- `PL_STAT` (R313). -/
abbrev PL_STAT : Nat := 0x301
abbrev PL_STAT_IDDONE : Fld := ⟨0x301, 7, 7⟩
abbrev PL_STAT_ALMDROP : Fld := ⟨0x301, 6, 6⟩
abbrev PL_STAT_OVERRUN : Fld := ⟨0x301, 5, 5⟩
abbrev PL_STAT_BADREPLY : Fld := ⟨0x301, 4, 4⟩
abbrev PL_STAT_LATE : Fld := ⟨0x301, 3, 3⟩
abbrev PL_STAT_MISS : Fld := ⟨0x301, 2, 2⟩
abbrev PL_STAT_BAD : Fld := ⟨0x301, 1, 1⟩
abbrev PL_STAT_RUN : Fld := ⟨0x301, 0, 0⟩
/-- `PL_TA` (R314). -/
abbrev PL_TA : Nat := 0x302
abbrev PL_TA_ENTRY : Fld := ⟨0x302, 10, 3⟩
abbrev PL_TA_WORD : Fld := ⟨0x302, 2, 0⟩
/-- `PL_TD` (R314). -/
abbrev PL_TD : Nat := 0x303
abbrev PL_TD_DATA : Fld := ⟨0x303, 19, 0⟩
/-- `PL_CNT` (R316). -/
abbrev PL_CNT : Nat := 0x304
abbrev PL_CNT_COUNT : Fld := ⟨0x304, 19, 0⟩
/-- `PL_IDENT` (R317). -/
abbrev PL_IDENT : Nat := 0x30C
abbrev PL_IDENT_NODE : Fld := ⟨0x30C, 6, 0⟩
/-- `PL_IDST` (R317). -/
abbrev PL_IDST : Nat := 0x30D
abbrev PL_IDST_STATUS : Fld := ⟨0x30D, 19, 12⟩
abbrev PL_IDST_DONE : Fld := ⟨0x30D, 11, 11⟩
abbrev PL_IDST_BUSY : Fld := ⟨0x30D, 10, 10⟩
abbrev PL_IDST_NODE : Fld := ⟨0x30D, 6, 0⟩
/-- `PL_IDD` (R317). -/
abbrev PL_IDD : Nat := 0x30E
abbrev PL_IDD_DATA : Fld := ⟨0x30E, 15, 0⟩
/-- `PL_CA` (R318). -/
abbrev PL_CA : Nat := 0x318
abbrev PL_CA_SET : Fld := ⟨0x318, 8, 6⟩
abbrev PL_CA_ADDR : Fld := ⟨0x318, 5, 0⟩
/-- `PL_CD` (R318). -/
abbrev PL_CD : Nat := 0x319
abbrev PL_CD_DATA : Fld := ⟨0x319, 19, 0⟩
/-- `PL_CCMT` (R318). -/
abbrev PL_CCMT : Nat := 0x31A
abbrev PL_CCMT_C1 : Fld := ⟨0x31A, 1, 1⟩
abbrev PL_CCMT_C0 : Fld := ⟨0x31A, 0, 0⟩
/-- `PL_CSTAT` (R318). -/
abbrev PL_CSTAT : Nat := 0x31B
abbrev PL_CSTAT_BAD : Fld := ⟨0x31B, 4, 4⟩
abbrev PL_CSTAT_FADE1 : Fld := ⟨0x31B, 3, 3⟩
abbrev PL_CSTAT_FADE0 : Fld := ⟨0x31B, 2, 2⟩
abbrev PL_CSTAT_PEND1 : Fld := ⟨0x31B, 1, 1⟩
abbrev PL_CSTAT_PEND0 : Fld := ⟨0x31B, 0, 0⟩
/-- `RG_SEL` (R319). -/
abbrev RG_SEL : Nat := 0x320
abbrev RG_SEL_SEL : Fld := ⟨0x320, 5, 0⟩
/-- `RG_CFG` (R319). -/
abbrev RG_CFG : Nat := 0x321
abbrev RG_CFG_EN : Fld := ⟨0x321, 19, 19⟩
abbrev RG_CFG_TYPE : Fld := ⟨0x321, 18, 16⟩
abbrev RG_CFG_SRC : Fld := ⟨0x321, 15, 15⟩
abbrev RG_CFG_IE : Fld := ⟨0x321, 14, 14⟩
abbrev RG_CFG_REC : Fld := ⟨0x321, 13, 13⟩
abbrev RG_CFG_ALM : Fld := ⟨0x321, 12, 12⟩
abbrev RG_CFG_REL : Fld := ⟨0x321, 11, 11⟩
abbrev RG_CFG_ENTRY : Fld := ⟨0x321, 7, 0⟩
/-- `RG_A` (R319). -/
abbrev RG_A : Nat := 0x322
abbrev RG_A_A : Fld := ⟨0x322, 19, 0⟩
/-- `RG_B` (R319). -/
abbrev RG_B : Nat := 0x323
abbrev RG_B_B : Fld := ⟨0x323, 19, 0⟩
/-- `RG_PC` (R319). -/
abbrev RG_PC : Nat := 0x324
abbrev RG_PC_PERS : Fld := ⟨0x324, 19, 12⟩
abbrev RG_PC_CLR : Fld := ⟨0x324, 11, 4⟩
abbrev RG_PC_SPAN : Fld := ⟨0x324, 3, 0⟩
/-- `RG_ST` (R319). -/
abbrev RG_ST : Nat := 0x325
abbrev RG_ST_PEND : Fld := ⟨0x325, 17, 17⟩
abbrev RG_ST_ACTIVE : Fld := ⟨0x325, 16, 16⟩
abbrev RG_ST_COUNT : Fld := ⟨0x325, 15, 8⟩
abbrev RG_ST_HIST : Fld := ⟨0x325, 7, 4⟩
/-- `RG_HITS` (R319). -/
abbrev RG_HITS : Nat := 0x326
abbrev RG_HITS_HITS : Fld := ⟨0x326, 19, 0⟩
/-- `RG_LASTV` (R319). -/
abbrev RG_LASTV : Nat := 0x327
abbrev RG_LASTV_VALUE : Fld := ⟨0x327, 19, 0⟩
/-- `RG_LASTT` (R319). -/
abbrev RG_LASTT : Nat := 0x328
abbrev RG_LASTT_TS : Fld := ⟨0x328, 19, 0⟩
/-- `RG_ACK` (R319). -/
abbrev RG_ACK : Nat := 0x32B
abbrev RG_ACK_ALL : Fld := ⟨0x32B, 6, 6⟩
abbrev RG_ACK_NUM : Fld := ⟨0x32B, 5, 0⟩
/-- `RG_PEND` (R320). -/
abbrev RG_PEND : Nat := 0x330
abbrev RG_PEND_BITS_0 : Fld := ⟨0x330, 19, 0⟩
/-- `RG_ACT` (R320). -/
abbrev RG_ACT : Nat := 0x334
abbrev RG_ACT_BITS_0 : Fld := ⟨0x334, 19, 0⟩
/-- `CC_A` (R344). -/
abbrev CC_A : Nat := 0x340
abbrev CC_A_ENTRY : Fld := ⟨0x340, 11, 3⟩
abbrev CC_A_WORD : Fld := ⟨0x340, 2, 0⟩
/-- `CC_D` (R345). -/
abbrev CC_D : Nat := 0x341
abbrev CC_D_EDEF : Fld := ⟨0x341, 19, 19⟩
abbrev CC_D_ORDER : Fld := ⟨0x341, 18, 17⟩
abbrev CC_D_THIN : Fld := ⟨0x341, 16, 16⟩
abbrev CC_D_SEAL : Fld := ⟨0x341, 15, 12⟩
abbrev CC_D_E : Fld := ⟨0x341, 11, 0⟩
/-- `CC_EV` (R346). -/
abbrev CC_EV : Nat := 0x342
abbrev CC_EV_LINE : Fld := ⟨0x342, 3, 3⟩
abbrev CC_EV_ENV : Fld := ⟨0x342, 2, 2⟩
abbrev CC_EV_TRIP : Fld := ⟨0x342, 1, 1⟩
abbrev CC_EV_HEALTH : Fld := ⟨0x342, 0, 0⟩
/-- `CC_FLUSH` (R347). -/
abbrev CC_FLUSH : Nat := 0x343
abbrev CC_FLUSH_ALL : Fld := ⟨0x343, 9, 9⟩
abbrev CC_FLUSH_ENTRY : Fld := ⟨0x343, 8, 0⟩
/-- `CC_STAT` (R347). -/
abbrev CC_STAT : Nat := 0x344
abbrev CC_STAT_BAD : Fld := ⟨0x344, 0, 0⟩
/-- `CE_STAT` (R348). -/
abbrev CE_STAT : Nat := 0x800
abbrev CE_STAT_SQFULL : Fld := ⟨0x800, 3, 3⟩
abbrev CE_STAT_RECDROP : Fld := ⟨0x800, 2, 2⟩
abbrev CE_STAT_DROP : Fld := ⟨0x800, 1, 1⟩
abbrev CE_STAT_BUSY : Fld := ⟨0x800, 0, 0⟩
/-- `CE_XCFG` (R349). -/
abbrev CE_XCFG : Nat := 0x801
abbrev CE_XCFG_SEAL : Fld := ⟨0x801, 5, 2⟩
abbrev CE_XCFG_ORDER : Fld := ⟨0x801, 1, 0⟩
/-- `CE_RATIO` (R350). -/
abbrev CE_RATIO : Nat := 0x802
abbrev CE_RATIO_RATIO : Fld := ⟨0x802, 11, 0⟩
/-- `CE_OCC` (R350). -/
abbrev CE_OCC : Nat := 0x804
abbrev CE_OCC_SAMPLES : Fld := ⟨0x804, 16, 8⟩
abbrev CE_OCC_RECORDS : Fld := ⟨0x804, 6, 0⟩
/-- `CE_CNT` (R351). -/
abbrev CE_CNT : Nat := 0x810
abbrev CE_CNT_COUNT : Fld := ⟨0x810, 19, 0⟩
/-- `MET_CTL` (R386). -/
abbrev MET_CTL : Nat := 0x50000
abbrev MET_CTL_CMD_IE : Fld := ⟨0x50000, 3, 3⟩
abbrev MET_CTL_ERR_IE : Fld := ⟨0x50000, 2, 2⟩
abbrev MET_CTL_RST_IE : Fld := ⟨0x50000, 1, 1⟩
abbrev MET_CTL_RX_EN : Fld := ⟨0x50000, 0, 0⟩
/-- `MET_STAT` (R387). -/
abbrev MET_STAT : Nat := 0x50001
abbrev MET_STAT_TARIFF : Fld := ⟨0x50001, 11, 10⟩
abbrev MET_STAT_BACKLOG : Fld := ⟨0x50001, 9, 9⟩
abbrev MET_STAT_LOGFULL : Fld := ⟨0x50001, 8, 8⟩
abbrev MET_STAT_MERR : Fld := ⟨0x50001, 7, 7⟩
abbrev MET_STAT_UNSEALED : Fld := ⟨0x50001, 6, 6⟩
abbrev MET_STAT_UP : Fld := ⟨0x50001, 5, 5⟩
abbrev MET_STAT_DROP : Fld := ⟨0x50001, 4, 4⟩
abbrev MET_STAT_CRCERR : Fld := ⟨0x50001, 3, 3⟩
abbrev MET_STAT_RESTART : Fld := ⟨0x50001, 2, 2⟩
abbrev MET_STAT_CMDDONE : Fld := ⟨0x50001, 1, 1⟩
/-- `MET_CMD0` (R388). -/
abbrev MET_CMD0 : Nat := 0x50002
abbrev MET_CMD0_B0 : Fld := ⟨0x50002, 15, 8⟩
abbrev MET_CMD0_B1 : Fld := ⟨0x50002, 7, 0⟩
/-- `MET_CMD1` (R388). -/
abbrev MET_CMD1 : Nat := 0x50003
abbrev MET_CMD1_B2 : Fld := ⟨0x50003, 15, 8⟩
abbrev MET_CMD1_B3 : Fld := ⟨0x50003, 7, 0⟩
/-- `MET_CMD2` (R388). -/
abbrev MET_CMD2 : Nat := 0x50004
abbrev MET_CMD2_B4 : Fld := ⟨0x50004, 15, 8⟩
abbrev MET_CMD2_B5 : Fld := ⟨0x50004, 7, 0⟩
/-- `MET_CST` (R388). -/
abbrev MET_CST : Nat := 0x50005
abbrev MET_CST_STATUS : Fld := ⟨0x50005, 19, 12⟩
abbrev MET_CST_DONE : Fld := ⟨0x50005, 11, 11⟩
abbrev MET_CST_BUSY : Fld := ⟨0x50005, 10, 10⟩
abbrev MET_CST_SER : Fld := ⟨0x50005, 7, 4⟩
abbrev MET_CST_REASON : Fld := ⟨0x50005, 3, 0⟩
/-- `MET_FWID` (R389). -/
abbrev MET_FWID : Nat := 0x50010
abbrev MET_FWID_FWID : Fld := ⟨0x50010, 15, 0⟩
/-- `MET_FWCRC` (R389). -/
abbrev MET_FWCRC : Nat := 0x50014
abbrev MET_FWCRC_FWCRC : Fld := ⟨0x50014, 19, 0⟩
/-- `MET_CHG` (R389). -/
abbrev MET_CHG : Nat := 0x50016
abbrev MET_CHG_CHG : Fld := ⟨0x50016, 19, 0⟩
/-- `MET_LRPCRC` (R389). -/
abbrev MET_LRPCRC : Nat := 0x50018
abbrev MET_LRPCRC_LRPCRC : Fld := ⟨0x50018, 19, 0⟩
/-- `MET_MSEC` (R389). -/
abbrev MET_MSEC : Nat := 0x5001A
abbrev MET_MSEC_MSEC : Fld := ⟨0x5001A, 19, 0⟩
/-- `MET_RSEL` (R390). -/
abbrev MET_RSEL : Nat := 0x50020
abbrev MET_RSEL_TYPE : Fld := ⟨0x50020, 12, 8⟩
abbrev MET_RSEL_SOURCE : Fld := ⟨0x50020, 7, 0⟩
/-- `MET_RA` (R390). -/
abbrev MET_RA : Nat := 0x50021
abbrev MET_RA_ADDR : Fld := ⟨0x50021, 6, 0⟩
/-- `MET_RD` (R390). -/
abbrev MET_RD : Nat := 0x50022
abbrev MET_RD_DATA : Fld := ⟨0x50022, 15, 0⟩
/-- `MET_RINFO` (R390). -/
abbrev MET_RINFO : Nat := 0x50023
abbrev MET_RINFO_SEQ : Fld := ⟨0x50023, 11, 8⟩
abbrev MET_RINFO_RLEN : Fld := ⟨0x50023, 7, 0⟩
/-- `MET_CNT` (R391). -/
abbrev MET_CNT : Nat := 0x50030
abbrev MET_CNT_COUNT : Fld := ⟨0x50030, 19, 0⟩
/-- `MET_CNT_DIE` (R391). -/
abbrev MET_CNT_DIE : Nat := 0x50034
abbrev MET_CNT_DIE_COUNT : Fld := ⟨0x50034, 19, 0⟩
/-- `AR_ORIG_UID` (R410). -/
abbrev AR_ORIG_UID : Nat := 0x40040
abbrev AR_ORIG_UID_UID : Fld := ⟨0x40040, 19, 0⟩
/-- `AR_ORIG` (R410). -/
abbrev AR_ORIG : Nat := 0x40044
abbrev AR_ORIG_VALID : Fld := ⟨0x40044, 19, 19⟩
abbrev AR_ORIG_ADDR : Fld := ⟨0x40044, 11, 0⟩
/-- `AR_ORIG_FREE` (R410). -/
abbrev AR_ORIG_FREE : Nat := 0x40060
abbrev AR_ORIG_FREE_INDEX : Fld := ⟨0x40060, 2, 0⟩
/-- `AR_CTL` (R412). -/
abbrev AR_CTL : Nat := 0x40000
abbrev AR_CTL_REPL_IE : Fld := ⟨0x40000, 9, 9⟩
abbrev AR_CTL_ERR_IE : Fld := ⟨0x40000, 8, 8⟩
abbrev AR_CTL_MAXMODE : Fld := ⟨0x40000, 5, 2⟩
abbrev AR_CTL_OVERWRITE : Fld := ⟨0x40000, 1, 1⟩
abbrev AR_CTL_EN : Fld := ⟨0x40000, 0, 0⟩
/-- `AR_STAT` (R413). -/
abbrev AR_STAT : Nat := 0x40001
abbrev AR_STAT_NOFMT : Fld := ⟨0x40001, 11, 11⟩
abbrev AR_STAT_BAD : Fld := ⟨0x40001, 10, 10⟩
abbrev AR_STAT_REPL_LOST : Fld := ⟨0x40001, 9, 9⟩
abbrev AR_STAT_REPL_STALL : Fld := ⟨0x40001, 8, 8⟩
abbrev AR_STAT_ECC : Fld := ⟨0x40001, 7, 7⟩
abbrev AR_STAT_NOSPARE : Fld := ⟨0x40001, 6, 6⟩
abbrev AR_STAT_GEOM_BAD : Fld := ⟨0x40001, 5, 5⟩
abbrev AR_STAT_FULL : Fld := ⟨0x40001, 4, 4⟩
abbrev AR_STAT_PFAIL : Fld := ⟨0x40001, 3, 3⟩
abbrev AR_STAT_RECOVER : Fld := ⟨0x40001, 2, 2⟩
abbrev AR_STAT_FORMAT : Fld := ⟨0x40001, 1, 1⟩
abbrev AR_STAT_READY : Fld := ⟨0x40001, 0, 0⟩
/-- `AR_CFG0` (R414). -/
abbrev AR_CFG0 : Nat := 0x40002
abbrev AR_CFG0_REFRESH : Fld := ⟨0x40002, 19, 14⟩
abbrev AR_CFG0_SPARES : Fld := ⟨0x40002, 13, 0⟩
/-- `AR_CFG1` (R414). -/
abbrev AR_CFG1 : Nat := 0x40003
abbrev AR_CFG1_SCAN : Fld := ⟨0x40003, 19, 10⟩
abbrev AR_CFG1_BACK : Fld := ⟨0x40003, 9, 0⟩
/-- `AR_PAIR` (R414). -/
abbrev AR_PAIR : Nat := 0x40004
abbrev AR_PAIR_MODE : Fld := ⟨0x40004, 8, 8⟩
abbrev AR_PAIR_DIST : Fld := ⟨0x40004, 7, 0⟩
/-- `AR_FMT` (R414). -/
abbrev AR_FMT : Nat := 0x40005
abbrev AR_FMT_KEY : Fld := ⟨0x40005, 19, 0⟩
/-- `AR_GEOM` (R415). -/
abbrev AR_GEOM : Nat := 0x40008
abbrev AR_GEOM_CE : Fld := ⟨0x40008, 19, 18⟩
abbrev AR_GEOM_P16K : Fld := ⟨0x40008, 17, 17⟩
abbrev AR_GEOM_PGS : Fld := ⟨0x40008, 11, 0⟩
/-- `AR_SLOTS` (R415). -/
abbrev AR_SLOTS : Nat := 0x40009
abbrev AR_SLOTS_SLOTS : Fld := ⟨0x40009, 19, 0⟩
/-- `AR_CAP` (R415). -/
abbrev AR_CAP : Nat := 0x4000A
abbrev AR_CAP_CAP : Fld := ⟨0x4000A, 19, 0⟩
/-- `AR_HEAD` (R415). -/
abbrev AR_HEAD : Nat := 0x4000C
abbrev AR_HEAD_HEAD : Fld := ⟨0x4000C, 19, 0⟩
/-- `AR_TAIL` (R415). -/
abbrev AR_TAIL : Nat := 0x4000E
abbrev AR_TAIL_TAIL : Fld := ⟨0x4000E, 19, 0⟩
/-- `AR_SAFE` (R415). -/
abbrev AR_SAFE : Nat := 0x40010
abbrev AR_SAFE_SAFE : Fld := ⟨0x40010, 19, 0⟩
/-- `AR_LAP` (R415). -/
abbrev AR_LAP : Nat := 0x40012
abbrev AR_LAP_LAP : Fld := ⟨0x40012, 19, 0⟩
/-- `AR_REPL` (R416). -/
abbrev AR_REPL : Nat := 0x40018
abbrev AR_REPL_ACCEPT : Fld := ⟨0x40018, 13, 13⟩
abbrev AR_REPL_EN : Fld := ⟨0x40018, 12, 12⟩
abbrev AR_REPL_ADDR : Fld := ⟨0x40018, 11, 0⟩
/-- `AR_RPTR` (R416). -/
abbrev AR_RPTR : Nat := 0x40019
abbrev AR_RPTR_RPTR : Fld := ⟨0x40019, 19, 0⟩
/-- `AR_REQ_ARG` (R417). -/
abbrev AR_REQ_ARG : Nat := 0x40020
abbrev AR_REQ_ARG_ARG : Fld := ⟨0x40020, 19, 0⟩
/-- `AR_REQ_DST` (R417). -/
abbrev AR_REQ_DST : Nat := 0x40022
abbrev AR_REQ_DST_DST : Fld := ⟨0x40022, 19, 0⟩
/-- `AR_REQ_OP` (R417). -/
abbrev AR_REQ_OP : Nat := 0x40023
abbrev AR_REQ_OP_OP : Fld := ⟨0x40023, 19, 18⟩
abbrev AR_REQ_OP_PARM : Fld := ⟨0x40023, 14, 0⟩
/-- `AR_REQ_TIME` (R417). -/
abbrev AR_REQ_TIME : Nat := 0x40024
abbrev AR_REQ_TIME_TIME_HI : Fld := ⟨0x40024, 19, 0⟩
/-- `AR_REQ_ST` (R417). -/
abbrev AR_REQ_ST : Nat := 0x40025
abbrev AR_REQ_ST_STATUS : Fld := ⟨0x40025, 19, 12⟩
abbrev AR_REQ_ST_DONE : Fld := ⟨0x40025, 11, 11⟩
abbrev AR_REQ_ST_BUSY : Fld := ⟨0x40025, 10, 10⟩
/-- `AR_REQ_ORIGIN` (R417). -/
abbrev AR_REQ_ORIGIN : Nat := 0x40026
abbrev AR_REQ_ORIGIN_ORIGIN : Fld := ⟨0x40026, 19, 0⟩
/-- `AR_CNT` (R418). -/
abbrev AR_CNT : Nat := 0x40030
abbrev AR_CNT_COUNT : Fld := ⟨0x40030, 19, 0⟩
/-- `FAB_CTL` (R451). -/
abbrev FAB_CTL : Nat := 0x30000
abbrev FAB_CTL_ENV_REMOTE : Fld := ⟨0x30000, 8, 8⟩
abbrev FAB_CTL_RCMD : Fld := ⟨0x30000, 7, 7⟩
abbrev FAB_CTL_TIME_IE : Fld := ⟨0x30000, 6, 6⟩
abbrev FAB_CTL_ROLE_IE : Fld := ⟨0x30000, 5, 5⟩
abbrev FAB_CTL_ADDR_IE : Fld := ⟨0x30000, 4, 4⟩
abbrev FAB_CTL_LINK_IE : Fld := ⟨0x30000, 3, 3⟩
abbrev FAB_CTL_ERR_IE : Fld := ⟨0x30000, 2, 2⟩
abbrev FAB_CTL_EN : Fld := ⟨0x30000, 0, 0⟩
/-- `FAB_STAT` (R452). -/
abbrev FAB_STAT : Nat := 0x30001
abbrev FAB_STAT_VALID : Fld := ⟨0x30001, 10, 10⟩
abbrev FAB_STAT_TSTEP : Fld := ⟨0x30001, 9, 9⟩
abbrev FAB_STAT_ROOT_CHG : Fld := ⟨0x30001, 8, 8⟩
abbrev FAB_STAT_ROLE_COLL : Fld := ⟨0x30001, 7, 7⟩
abbrev FAB_STAT_ADDR_LOST : Fld := ⟨0x30001, 6, 6⟩
abbrev FAB_STAT_NOADDR : Fld := ⟨0x30001, 5, 5⟩
abbrev FAB_STAT_CACHE_OVF : Fld := ⟨0x30001, 4, 4⟩
abbrev FAB_STAT_LINK_CHG : Fld := ⟨0x30001, 3, 3⟩
abbrev FAB_STAT_DROP : Fld := ⟨0x30001, 2, 2⟩
abbrev FAB_STAT_TSYNC : Fld := ⟨0x30001, 1, 1⟩
abbrev FAB_STAT_ROOT : Fld := ⟨0x30001, 0, 0⟩
/-- `FAB_ADDR` (R453). -/
abbrev FAB_ADDR : Nat := 0x30002
abbrev FAB_ADDR_STATE : Fld := ⟨0x30002, 15, 14⟩
abbrev FAB_ADDR_ADDR : Fld := ⟨0x30002, 11, 0⟩
/-- `FAB_CLAIM` (R453). -/
abbrev FAB_CLAIM : Nat := 0x30003
abbrev FAB_CLAIM_USE_PREF : Fld := ⟨0x30003, 13, 13⟩
abbrev FAB_CLAIM_PREF : Fld := ⟨0x30003, 11, 0⟩
/-- `FAB_LAST` (R453). -/
abbrev FAB_LAST : Nat := 0x30004
abbrev FAB_LAST_VALID : Fld := ⟨0x30004, 12, 12⟩
abbrev FAB_LAST_ADDR : Fld := ⟨0x30004, 11, 0⟩
/-- `FAB_TPRIO` (R453). -/
abbrev FAB_TPRIO : Nat := 0x30005
abbrev FAB_TPRIO_TPRIO : Fld := ⟨0x30005, 3, 0⟩
/-- `FAB_SINK` (R453). -/
abbrev FAB_SINK : Nat := 0x30006
abbrev FAB_SINK_EN : Fld := ⟨0x30006, 12, 12⟩
abbrev FAB_SINK_ADDR : Fld := ⟨0x30006, 11, 0⟩
/-- `FAB_CMD_TMO` (R453). -/
abbrev FAB_CMD_TMO : Nat := 0x30008
abbrev FAB_CMD_TMO_MS : Fld := ⟨0x30008, 9, 0⟩
/-- `FAB_TIME` (R454). -/
abbrev FAB_TIME : Nat := 0x30010
abbrev FAB_TIME_TIME : Fld := ⟨0x30010, 19, 0⟩
/-- `FAB_TSET` (R454). -/
abbrev FAB_TSET : Nat := 0x30013
abbrev FAB_TSET_TSET : Fld := ⟨0x30013, 19, 0⟩
/-- `FAB_TSTAT` (R454). -/
abbrev FAB_TSTAT : Nat := 0x30016
abbrev FAB_TSTAT_SET_ST : Fld := ⟨0x30016, 19, 12⟩
abbrev FAB_TSTAT_PAR_VALID : Fld := ⟨0x30016, 11, 11⟩
abbrev FAB_TSTAT_PARENT : Fld := ⟨0x30016, 10, 8⟩
abbrev FAB_TSTAT_DIST : Fld := ⟨0x30016, 7, 0⟩
/-- `FAB_TOFF` (R454). -/
abbrev FAB_TOFF : Nat := 0x30017
abbrev FAB_TOFF_OFFSET : Fld := ⟨0x30017, 19, 0⟩
/-- `FAB_RATE` (R454). -/
abbrev FAB_RATE : Nat := 0x30018
abbrev FAB_RATE_RATE : Fld := ⟨0x30018, 19, 0⟩
/-- `FAB_ROOT` (R454). -/
abbrev FAB_ROOT : Nat := 0x30019
abbrev FAB_ROOT_ROOT : Fld := ⟨0x30019, 19, 0⟩
/-- `FAB_RT_A` (R455). -/
abbrev FAB_RT_A : Nat := 0x30020
abbrev FAB_RT_A_ADDR : Fld := ⟨0x30020, 11, 0⟩
/-- `FAB_RT_D0` (R455). -/
abbrev FAB_RT_D0 : Nat := 0x30021
abbrev FAB_RT_D0_STATE : Fld := ⟨0x30021, 19, 18⟩
abbrev FAB_RT_D0_METRIC : Fld := ⟨0x30021, 17, 11⟩
abbrev FAB_RT_D0_NEXT : Fld := ⟨0x30021, 10, 8⟩
abbrev FAB_RT_D0_ALT_VALID : Fld := ⟨0x30021, 7, 7⟩
abbrev FAB_RT_D0_ALT : Fld := ⟨0x30021, 6, 4⟩
/-- `FAB_RT_D1` (R455). -/
abbrev FAB_RT_D1 : Nat := 0x30022
abbrev FAB_RT_D1_ALT_METRIC : Fld := ⟨0x30022, 19, 13⟩
abbrev FAB_RT_D1_AGE : Fld := ⟨0x30022, 12, 0⟩
/-- `FAB_RT_OWNER` (R455). -/
abbrev FAB_RT_OWNER : Nat := 0x30023
abbrev FAB_RT_OWNER_OWNER : Fld := ⟨0x30023, 19, 0⟩
/-- `FAB_CNT` (R457). -/
abbrev FAB_CNT : Nat := 0x30030
abbrev FAB_CNT_COUNT : Fld := ⟨0x30030, 19, 0⟩
/-- `LK_CTL` (R456). -/
abbrev LK_CTL : Nat := 0x30100
abbrev LK_CTL_COST : Fld := ⟨0x30100, 7, 4⟩
abbrev LK_CTL_LOCK : Fld := ⟨0x30100, 3, 3⟩
abbrev LK_CTL_SWAP : Fld := ⟨0x30100, 2, 2⟩
abbrev LK_CTL_EN : Fld := ⟨0x30100, 0, 0⟩
/-- `LK_STAT` (R456). -/
abbrev LK_STAT : Nat := 0x30101
abbrev LK_STAT_SWAP_ST : Fld := ⟨0x30101, 19, 12⟩
abbrev LK_STAT_SWAP_BUSY : Fld := ⟨0x30101, 11, 11⟩
abbrev LK_STAT_TSRC : Fld := ⟨0x30101, 10, 10⟩
abbrev LK_STAT_ROLE : Fld := ⟨0x30101, 9, 8⟩
abbrev LK_STAT_STATE : Fld := ⟨0x30101, 6, 4⟩
/-- `LK_NBR` (R456). -/
abbrev LK_NBR : Nat := 0x30102
abbrev LK_NBR_NSTATE : Fld := ⟨0x30102, 15, 14⟩
abbrev LK_NBR_NADDR : Fld := ⟨0x30102, 11, 0⟩
/-- `LK_NUID` (R456). -/
abbrev LK_NUID : Nat := 0x30103
abbrev LK_NUID_NUID : Fld := ⟨0x30103, 19, 0⟩
/-- `LK_ASYM` (R456). -/
abbrev LK_ASYM : Nat := 0x30107
abbrev LK_ASYM_ASYM : Fld := ⟨0x30107, 19, 0⟩
/-- `LK_DELAY` (R456). -/
abbrev LK_DELAY : Nat := 0x30108
abbrev LK_DELAY_DELAY : Fld := ⟨0x30108, 19, 0⟩
/-- `LK_CNT` (R457). -/
abbrev LK_CNT : Nat := 0x30109
abbrev LK_CNT_COUNT : Fld := ⟨0x30109, 19, 0⟩
/-- `STW_CTL` (R491). -/
abbrev STW_CTL : Nat := 0xC00
abbrev STW_CTL_BKP1_EN : Fld := ⟨0xC00, 6, 6⟩
abbrev STW_CTL_BKP0_EN : Fld := ⟨0xC00, 5, 5⟩
abbrev STW_CTL_BRK_DBG : Fld := ⟨0xC00, 4, 4⟩
abbrev STW_CTL_STEP : Fld := ⟨0xC00, 3, 3⟩
abbrev STW_CTL_RESUME : Fld := ⟨0xC00, 2, 2⟩
abbrev STW_CTL_HALT : Fld := ⟨0xC00, 1, 1⟩
abbrev STW_CTL_RUN : Fld := ⟨0xC00, 0, 0⟩
/-- `STW_STAT` (R492). -/
abbrev STW_STAT : Nat := 0xC01
abbrev STW_STAT_BAD : Fld := ⟨0xC01, 11, 11⟩
abbrev STW_STAT_LOCKED : Fld := ⟨0xC01, 10, 10⟩
abbrev STW_STAT_HCAUSE : Fld := ⟨0xC01, 9, 6⟩
abbrev STW_STAT_STATE : Fld := ⟨0xC01, 2, 0⟩
/-- `STW_PC` (R493). -/
abbrev STW_PC : Nat := 0xC02
abbrev STW_PC_PC : Fld := ⟨0xC02, 19, 0⟩
/-- `STW_START` (R493). -/
abbrev STW_START : Nat := 0xC03
abbrev STW_START_START : Fld := ⟨0xC03, 19, 0⟩
/-- `STW_BKP0` (R493). -/
abbrev STW_BKP0 : Nat := 0xC04
abbrev STW_BKP0_ADDR : Fld := ⟨0xC04, 19, 0⟩
/-- `STW_BKP1` (R493). -/
abbrev STW_BKP1 : Nat := 0xC05
abbrev STW_BKP1_ADDR : Fld := ⟨0xC05, 19, 0⟩
/-- `STW_RSEL` (R493). -/
abbrev STW_RSEL : Nat := 0xC06
abbrev STW_RSEL_CR : Fld := ⟨0xC06, 5, 5⟩
abbrev STW_RSEL_NUM : Fld := ⟨0xC06, 4, 0⟩
/-- `STW_RDAT` (R493). -/
abbrev STW_RDAT : Nat := 0xC07
abbrev STW_RDAT_DATA : Fld := ⟨0xC07, 19, 0⟩
/-- `STW_RET` (R494). -/
abbrev STW_RET : Nat := 0xC08
abbrev STW_RET_COUNT : Fld := ⟨0xC08, 19, 0⟩
/-- `STW_TRAPS` (R494). -/
abbrev STW_TRAPS : Nat := 0xC0A
abbrev STW_TRAPS_COUNT : Fld := ⟨0xC0A, 19, 0⟩
/-- `STW_TLAST` (R494). -/
abbrev STW_TLAST : Nat := 0xC0B
abbrev STW_TLAST_CAUSE : Fld := ⟨0xC0B, 19, 0⟩
/-- `VC_STW_CTL` (R491). -/
abbrev VC_STW_CTL : Nat := 0x7E0C0
abbrev VC_STW_CTL_BKP1_EN : Fld := ⟨0x7E0C0, 6, 6⟩
abbrev VC_STW_CTL_BKP0_EN : Fld := ⟨0x7E0C0, 5, 5⟩
abbrev VC_STW_CTL_BRK_DBG : Fld := ⟨0x7E0C0, 4, 4⟩
abbrev VC_STW_CTL_STEP : Fld := ⟨0x7E0C0, 3, 3⟩
abbrev VC_STW_CTL_RESUME : Fld := ⟨0x7E0C0, 2, 2⟩
abbrev VC_STW_CTL_HALT : Fld := ⟨0x7E0C0, 1, 1⟩
abbrev VC_STW_CTL_RUN : Fld := ⟨0x7E0C0, 0, 0⟩
/-- `VC_STW_STAT` (R492). -/
abbrev VC_STW_STAT : Nat := 0x7E0C1
abbrev VC_STW_STAT_BAD : Fld := ⟨0x7E0C1, 11, 11⟩
abbrev VC_STW_STAT_LOCKED : Fld := ⟨0x7E0C1, 10, 10⟩
abbrev VC_STW_STAT_HCAUSE : Fld := ⟨0x7E0C1, 9, 6⟩
abbrev VC_STW_STAT_STATE : Fld := ⟨0x7E0C1, 2, 0⟩
/-- `VC_STW_PC` (R493). -/
abbrev VC_STW_PC : Nat := 0x7E0C2
abbrev VC_STW_PC_PC : Fld := ⟨0x7E0C2, 19, 0⟩
/-- `VC_STW_START` (R493). -/
abbrev VC_STW_START : Nat := 0x7E0C3
abbrev VC_STW_START_START : Fld := ⟨0x7E0C3, 19, 0⟩
/-- `VC_STW_BKP0` (R493). -/
abbrev VC_STW_BKP0 : Nat := 0x7E0C4
abbrev VC_STW_BKP0_ADDR : Fld := ⟨0x7E0C4, 19, 0⟩
/-- `VC_STW_BKP1` (R493). -/
abbrev VC_STW_BKP1 : Nat := 0x7E0C5
abbrev VC_STW_BKP1_ADDR : Fld := ⟨0x7E0C5, 19, 0⟩
/-- `VC_STW_RSEL` (R493). -/
abbrev VC_STW_RSEL : Nat := 0x7E0C6
abbrev VC_STW_RSEL_CR : Fld := ⟨0x7E0C6, 5, 5⟩
abbrev VC_STW_RSEL_NUM : Fld := ⟨0x7E0C6, 4, 0⟩
/-- `VC_STW_RDAT` (R493). -/
abbrev VC_STW_RDAT : Nat := 0x7E0C7
abbrev VC_STW_RDAT_DATA : Fld := ⟨0x7E0C7, 19, 0⟩
/-- `VC_STW_RET` (R494). -/
abbrev VC_STW_RET : Nat := 0x7E0C8
abbrev VC_STW_RET_COUNT : Fld := ⟨0x7E0C8, 19, 0⟩
/-- `VC_STW_TRAPS` (R494). -/
abbrev VC_STW_TRAPS : Nat := 0x7E0CA
abbrev VC_STW_TRAPS_COUNT : Fld := ⟨0x7E0CA, 19, 0⟩
/-- `VC_STW_TLAST` (R494). -/
abbrev VC_STW_TLAST : Nat := 0x7E0CB
abbrev VC_STW_TLAST_CAUSE : Fld := ⟨0x7E0CB, 19, 0⟩
/-- `BF_OP` (R520). -/
abbrev BF_OP : Nat := 0xA00
abbrev BF_OP_OP : Fld := ⟨0xA00, 19, 18⟩
/-- `BF_ADDR` (R520). -/
abbrev BF_ADDR : Nat := 0xA01
abbrev BF_ADDR_ADDR : Fld := ⟨0xA01, 19, 0⟩
/-- `BF_LEN` (R520). -/
abbrev BF_LEN : Nat := 0xA03
abbrev BF_LEN_LEN : Fld := ⟨0xA03, 11, 0⟩
/-- `BF_DST` (R520). -/
abbrev BF_DST : Nat := 0xA04
abbrev BF_DST_DST : Fld := ⟨0xA04, 19, 0⟩
/-- `BF_ST` (R520). -/
abbrev BF_ST : Nat := 0xA05
abbrev BF_ST_STATUS : Fld := ⟨0xA05, 19, 12⟩
abbrev BF_ST_DONE : Fld := ⟨0xA05, 11, 11⟩
abbrev BF_ST_BUSY : Fld := ⟨0xA05, 10, 10⟩
/-- `BOOT_INFO` (R521). -/
abbrev BOOT_INFO : Nat := 0xA06
abbrev BOOT_INFO_CAUSE : Fld := ⟨0xA06, 19, 17⟩
abbrev BOOT_INFO_SLOT : Fld := ⟨0xA06, 16, 16⟩
abbrev BOOT_INFO_ROLLED : Fld := ⟨0xA06, 15, 15⟩
abbrev BOOT_INFO_VCLOAD : Fld := ⟨0xA06, 14, 14⟩
abbrev BOOT_INFO_SVN : Fld := ⟨0xA06, 13, 8⟩
abbrev BOOT_INFO_ST_ALT : Fld := ⟨0xA06, 7, 0⟩
/-- `BOOT_SEL` (R522). -/
abbrev BOOT_SEL : Nat := 0x7E040
abbrev BOOT_SEL_ROLLED : Fld := ⟨0x7E040, 7, 7⟩
abbrev BOOT_SEL_CONFIRMED : Fld := ⟨0x7E040, 6, 6⟩
abbrev BOOT_SEL_TRIES : Fld := ⟨0x7E040, 5, 4⟩
abbrev BOOT_SEL_LAST : Fld := ⟨0x7E040, 1, 1⟩
abbrev BOOT_SEL_PREF : Fld := ⟨0x7E040, 0, 0⟩
/-- `RU_CTL` (R523). -/
abbrev RU_CTL : Nat := 0x7E044
abbrev RU_CTL_OP : Fld := ⟨0x7E044, 19, 17⟩
abbrev RU_CTL_HALF : Fld := ⟨0x7E044, 16, 16⟩
/-- `RU_STAT` (R523). -/
abbrev RU_STAT : Nat := 0x7E045
abbrev RU_STAT_STATUS : Fld := ⟨0x7E045, 19, 12⟩
abbrev RU_STAT_SNAP : Fld := ⟨0x7E045, 4, 4⟩
abbrev RU_STAT_HELD_B : Fld := ⟨0x7E045, 3, 3⟩
abbrev RU_STAT_HELD_A : Fld := ⟨0x7E045, 2, 2⟩
abbrev RU_STAT_VAC_B : Fld := ⟨0x7E045, 1, 1⟩
abbrev RU_STAT_VAC_A : Fld := ⟨0x7E045, 0, 0⟩
/-- `RU_MAP` (R523). -/
abbrev RU_MAP : Nat := 0x7E048
abbrev RU_MAP_SEATS : Fld := ⟨0x7E048, 19, 0⟩
/-- `RU_LATCHES` (R523). -/
abbrev RU_LATCHES : Nat := 0x7E04C
abbrev RU_LATCHES_LATCHES : Fld := ⟨0x7E04C, 16, 0⟩
/-- `ENV_STAT` (R524). -/
abbrev ENV_STAT : Nat := 0x7E050
abbrev ENV_STAT_BACKOFF : Fld := ⟨0x7E050, 11, 11⟩
abbrev ENV_STAT_FAILS : Fld := ⟨0x7E050, 10, 8⟩
abbrev ENV_STAT_OPEN : Fld := ⟨0x7E050, 7, 7⟩
abbrev ENV_STAT_PATH : Fld := ⟨0x7E050, 6, 5⟩
/-- `ENV_SRC` (R524). -/
abbrev ENV_SRC : Nat := 0x7E051
abbrev ENV_SRC_SRC : Fld := ⟨0x7E051, 11, 0⟩
/-- `ENV_CNT` (R524). -/
abbrev ENV_CNT : Nat := 0x7E052
abbrev ENV_CNT_COUNT : Fld := ⟨0x7E052, 19, 0⟩
/-- `OTP_KEYS` (R524). -/
abbrev OTP_KEYS : Nat := 0x7E058
abbrev OTP_KEYS_REVOKED : Fld := ⟨0x7E058, 7, 4⟩
abbrev OTP_KEYS_PROG : Fld := ⟨0x7E058, 3, 0⟩
/-- `OTP_MISC` (R524). -/
abbrev OTP_MISC : Nat := 0x7E059
abbrev OTP_MISC_DBG_OFF : Fld := ⟨0x7E059, 6, 6⟩
abbrev OTP_MISC_MINSVN : Fld := ⟨0x7E059, 5, 0⟩
/-- `VC_LOAD` (R525). -/
abbrev VC_LOAD : Nat := 0x7E060
abbrev VC_LOAD_GO : Fld := ⟨0x7E060, 19, 19⟩
abbrev VC_LOAD_FLASH : Fld := ⟨0x7E060, 18, 18⟩
abbrev VC_LOAD_SLOT : Fld := ⟨0x7E060, 17, 17⟩
/-- `VC_STAT` (R525). -/
abbrev VC_STAT : Nat := 0x7E061
abbrev VC_STAT_STATUS : Fld := ⟨0x7E061, 19, 12⟩
abbrev VC_STAT_RUNNING : Fld := ⟨0x7E061, 11, 11⟩
abbrev VC_STAT_LOADED : Fld := ⟨0x7E061, 10, 10⟩
abbrev VC_STAT_BUSY : Fld := ⟨0x7E061, 9, 9⟩
abbrev VC_STAT_FLASH : Fld := ⟨0x7E061, 8, 8⟩
abbrev VC_STAT_SLOT : Fld := ⟨0x7E061, 7, 7⟩
/-- `VC_SPLIT` (R525). -/
abbrev VC_SPLIT : Nat := 0x7E062
abbrev VC_SPLIT_SPLIT : Fld := ⟨0x7E062, 14, 0⟩
/-- `IC_CFG` (R550). -/
abbrev IC_CFG : Nat := 0x0
abbrev IC_CFG_SPLIT : Fld := ⟨0x0, 2, 0⟩
/-- `IC_SWSET` (R551). -/
abbrev IC_SWSET : Nat := 0x1
abbrev IC_SWSET_OTHER : Fld := ⟨0x1, 16, 16⟩
abbrev IC_SWSET_SET : Fld := ⟨0x1, 15, 0⟩
/-- `IC_SYNC` (R551). -/
abbrev IC_SYNC : Nat := 0x2
abbrev IC_SYNC_ZERO : Fld := ⟨0x2, 19, 0⟩
/-- `IC_STAT` (R551). -/
abbrev IC_STAT : Nat := 0x3
abbrev IC_STAT_OFFER : Fld := ⟨0x3, 1, 1⟩
abbrev IC_STAT_EOI_BAD : Fld := ⟨0x3, 0, 0⟩
/-- `IC_STW` (R552). -/
abbrev IC_STW : Nat := 0x10
abbrev IC_STW_RUNPRI : Fld := ⟨0x10, 19, 15⟩
abbrev IC_STW_DEPTH : Fld := ⟨0x10, 14, 11⟩
abbrev IC_STW_VALID : Fld := ⟨0x10, 10, 10⟩
abbrev IC_STW_CUR : Fld := ⟨0x10, 8, 0⟩
/-- `IC_EOI` (R552). -/
abbrev IC_EOI : Nat := 0x11
abbrev IC_EOI_SRC : Fld := ⟨0x11, 8, 0⟩
/-- `IC_SCTL` (R552). -/
abbrev IC_SCTL : Nat := 0x12
abbrev IC_SCTL_ACCEPT : Fld := ⟨0x12, 0, 0⟩
/-- `IC_STW_OWN` (R552). -/
abbrev IC_STW_OWN : Nat := 0x20
abbrev IC_STW_OWN_RUNPRI : Fld := ⟨0x20, 19, 15⟩
abbrev IC_STW_OWN_DEPTH : Fld := ⟨0x20, 14, 11⟩
abbrev IC_STW_OWN_VALID : Fld := ⟨0x20, 10, 10⟩
abbrev IC_STW_OWN_CUR : Fld := ⟨0x20, 8, 0⟩
/-- `IC_EOI_OWN` (R552). -/
abbrev IC_EOI_OWN : Nat := 0x21
abbrev IC_EOI_OWN_SRC : Fld := ⟨0x21, 8, 0⟩
/-- `IC_SCTL_OWN` (R552). -/
abbrev IC_SCTL_OWN : Nat := 0x22
abbrev IC_SCTL_OWN_ACCEPT : Fld := ⟨0x22, 0, 0⟩
/-- `IC_PENDMAP` (R553). -/
abbrev IC_PENDMAP : Nat := 0x100
abbrev IC_PENDMAP_PEND : Fld := ⟨0x100, 19, 0⟩
/-- `IC_ACTMAP` (R553). -/
abbrev IC_ACTMAP : Nat := 0x120
abbrev IC_ACTMAP_ACT : Fld := ⟨0x120, 19, 0⟩
/-- `IC_SRC` (R554). -/
abbrev IC_SRC : Nat := 0x200
abbrev IC_SRC_ASSERT : Fld := ⟨0x200, 9, 9⟩
abbrev IC_SRC_ACTIVE : Fld := ⟨0x200, 8, 8⟩
abbrev IC_SRC_PEND : Fld := ⟨0x200, 7, 7⟩
abbrev IC_SRC_TYPE : Fld := ⟨0x200, 6, 6⟩
abbrev IC_SRC_EN : Fld := ⟨0x200, 4, 4⟩
abbrev IC_SRC_LEVEL : Fld := ⟨0x200, 3, 0⟩
/-- `VW_SEL` (R555). -/
abbrev VW_SEL : Nat := 0x7E070
abbrev VW_SEL_EN : Fld := ⟨0x7E070, 19, 19⟩
abbrev VW_SEL_HALF : Fld := ⟨0x7E070, 18, 18⟩
abbrev VW_SEL_SRC : Fld := ⟨0x7E070, 8, 0⟩
/-- `VW_STAT` (R555). -/
abbrev VW_STAT : Nat := 0x7E080
abbrev VW_STAT_WOKE : Fld := ⟨0x7E080, 15, 0⟩
/-- `EM_CSEL` (R556). -/
abbrev EM_CSEL : Nat := 0x1000
abbrev EM_CSEL_SEL : Fld := ⟨0x1000, 7, 0⟩
/-- `EM_CCFG` (R556). -/
abbrev EM_CCFG : Nat := 0x1001
abbrev EM_CCFG_OWNER : Fld := ⟨0x1001, 19, 18⟩
abbrev EM_CCFG_SECURE : Fld := ⟨0x1001, 17, 17⟩
abbrev EM_CCFG_MOVED : Fld := ⟨0x1001, 16, 16⟩
abbrev EM_CCFG_EN : Fld := ⟨0x1001, 15, 15⟩
abbrev EM_CCFG_PW : Fld := ⟨0x1001, 14, 7⟩
abbrev EM_CCFG_MODE : Fld := ⟨0x1001, 2, 0⟩
/-- `EM_CSTAT` (R556). -/
abbrev EM_CSTAT : Nat := 0x1002
abbrev EM_CSTAT_BUSY : Fld := ⟨0x1002, 1, 1⟩
abbrev EM_CSTAT_PEND : Fld := ⟨0x1002, 0, 0⟩
/-- `EM_CDROP` (R556). -/
abbrev EM_CDROP : Nat := 0x1003
abbrev EM_CDROP_COUNT : Fld := ⟨0x1003, 19, 0⟩
/-- `EM_EN` (R557). -/
abbrev EM_EN : Nat := 0x1010
abbrev EM_EN_EN : Fld := ⟨0x1010, 19, 0⟩
/-- `EM_GPEDGE` (R558). -/
abbrev EM_GPEDGE : Nat := 0x1020
abbrev EM_GPEDGE_EDGE : Fld := ⟨0x1020, 19, 0⟩
/-- `EM_SWEV` (R558). -/
abbrev EM_SWEV : Nat := 0x1024
abbrev EM_SWEV_PULSE : Fld := ⟨0x1024, 7, 0⟩
/-- `EM_QPEND` (R558). -/
abbrev EM_QPEND : Nat := 0x1030
abbrev EM_QPEND_QPEND : Fld := ⟨0x1030, 19, 0⟩
/-- `BAY_EVSEL` (R559). -/
abbrev BAY_EVSEL : Nat := 0xA
abbrev BAY_EVSEL_B : Fld := ⟨0xA, 17, 9⟩
abbrev BAY_EVSEL_A : Fld := ⟨0xA, 8, 0⟩
/-- `MC_CTL` (R573). -/
abbrev MC_CTL : Nat := 0x20000
abbrev MC_CTL_TST_IE : Fld := ⟨0x20000, 4, 4⟩
abbrev MC_CTL_ECC_IE : Fld := ⟨0x20000, 3, 3⟩
abbrev MC_CTL_CORR_IE : Fld := ⟨0x20000, 2, 2⟩
abbrev MC_CTL_SUP_IE : Fld := ⟨0x20000, 1, 1⟩
abbrev MC_CTL_TST_EN : Fld := ⟨0x20000, 0, 0⟩
/-- `MC_STAT` (R574). -/
abbrev MC_STAT : Nat := 0x20001
abbrev MC_STAT_RDY : Fld := ⟨0x20001, 6, 6⟩
abbrev MC_STAT_REMOTE_DOWN : Fld := ⟨0x20001, 5, 5⟩
abbrev MC_STAT_TST_FAIL : Fld := ⟨0x20001, 4, 4⟩
abbrev MC_STAT_SUPER : Fld := ⟨0x20001, 3, 3⟩
abbrev MC_STAT_UNCORR : Fld := ⟨0x20001, 2, 2⟩
abbrev MC_STAT_CORR : Fld := ⟨0x20001, 1, 1⟩
abbrev MC_STAT_TST_BUSY : Fld := ⟨0x20001, 0, 0⟩
/-- `MC_ELOG` (R575). -/
abbrev MC_ELOG : Nat := 0x20002
abbrev MC_ELOG_ADDR : Fld := ⟨0x20002, 19, 0⟩
/-- `MC_ELOG_SRC` (R575). -/
abbrev MC_ELOG_SRC : Nat := 0x20003
abbrev MC_ELOG_SRC_SPACE : Fld := ⟨0x20003, 5, 4⟩
abbrev MC_ELOG_SRC_PORT : Fld := ⟨0x20003, 3, 0⟩
/-- `MC_SUPLAST` (R575). -/
abbrev MC_SUPLAST : Nat := 0x20004
abbrev MC_SUPLAST_ADDR : Fld := ⟨0x20004, 19, 0⟩
/-- `MC_TPOS` (R575). -/
abbrev MC_TPOS : Nat := 0x20005
abbrev MC_TPOS_WIN : Fld := ⟨0x20005, 14, 0⟩
/-- `MC_TFAIL` (R575). -/
abbrev MC_TFAIL : Nat := 0x20006
abbrev MC_TFAIL_ADDR : Fld := ⟨0x20006, 19, 0⟩
/-- `MC_TFAIL_BIT` (R575). -/
abbrev MC_TFAIL_BIT : Nat := 0x20007
abbrev MC_TFAIL_BIT_BIT : Fld := ⟨0x20007, 4, 0⟩
/-- `MC_CNT` (R576). -/
abbrev MC_CNT : Nat := 0x20008
abbrev MC_CNT_COUNT : Fld := ⟨0x20008, 19, 0⟩
/-- `MC_CONF` (R576). -/
abbrev MC_CONF : Nat := 0x20010
abbrev MC_CONF_COUNT : Fld := ⟨0x20010, 19, 0⟩
/-- `MC_SUPER` (R576). -/
abbrev MC_SUPER : Nat := 0x20020
abbrev MC_SUPER_COUNT : Fld := ⟨0x20020, 19, 0⟩
/-- `IM_A` (R577). -/
abbrev IM_A : Nat := 0x20080
abbrev IM_A_ADDR : Fld := ⟨0x20080, 17, 0⟩
/-- `IM_D` (R577). -/
abbrev IM_D : Nat := 0x20081
abbrev IM_D_DATA : Fld := ⟨0x20081, 19, 0⟩
/-- `VM_A` (R577). -/
abbrev VM_A : Nat := 0x7E090
abbrev VM_A_ADDR : Fld := ⟨0x7E090, 13, 0⟩
/-- `VM_D` (R577). -/
abbrev VM_D : Nat := 0x7E091
abbrev VM_D_DATA : Fld := ⟨0x7E091, 19, 0⟩
/-- `CP_CFG` (R605). -/
abbrev CP_CFG : Nat := 0x70000
abbrev CP_CFG_ALM_EN : Fld := ⟨0x70000, 8, 8⟩
abbrev CP_CFG_ATN_EVQ : Fld := ⟨0x70000, 7, 7⟩
abbrev CP_CFG_ATN_ALM : Fld := ⟨0x70000, 6, 6⟩
abbrev CP_CFG_ATN_RPL : Fld := ⟨0x70000, 5, 5⟩
abbrev CP_CFG_ERR_IE : Fld := ⟨0x70000, 4, 4⟩
abbrev CP_CFG_ALM_IE : Fld := ⟨0x70000, 3, 3⟩
abbrev CP_CFG_OVR_IE : Fld := ⟨0x70000, 2, 2⟩
abbrev CP_CFG_QUAD : Fld := ⟨0x70000, 0, 0⟩
/-- `CP_STAT` (R606). -/
abbrev CP_STAT : Nat := 0x70001
abbrev CP_STAT_LAST_ST : Fld := ⟨0x70001, 19, 12⟩
abbrev CP_STAT_SELECTED : Fld := ⟨0x70001, 3, 3⟩
abbrev CP_STAT_OVERRUN : Fld := ⟨0x70001, 2, 2⟩
abbrev CP_STAT_ALMDROP : Fld := ⟨0x70001, 1, 1⟩
abbrev CP_STAT_REFUSED : Fld := ⟨0x70001, 0, 0⟩
/-- `CP_QCNT` (R606). -/
abbrev CP_QCNT : Nat := 0x70002
abbrev CP_QCNT_QCNT : Fld := ⟨0x70002, 19, 0⟩
/-- `CP_CNT` (R607). -/
abbrev CP_CNT : Nat := 0x70008
abbrev CP_CNT_COUNT : Fld := ⟨0x70008, 19, 0⟩
/-- `TW_CFG` (R631). -/
abbrev TW_CFG : Nat := 0x60000
abbrev TW_CFG_TMO : Fld := ⟨0x60000, 12, 6⟩
abbrev TW_CFG_SPEED : Fld := ⟨0x60000, 5, 4⟩
abbrev TW_CFG_IE : Fld := ⟨0x60000, 3, 3⟩
abbrev TW_CFG_TGT_EN : Fld := ⟨0x60000, 2, 2⟩
abbrev TW_CFG_CTL_EN : Fld := ⟨0x60000, 1, 1⟩
abbrev TW_CFG_EN : Fld := ⟨0x60000, 0, 0⟩
/-- `TW_TADDR` (R631). -/
abbrev TW_TADDR : Nat := 0x60001
abbrev TW_TADDR_EN : Fld := ⟨0x60001, 11, 11⟩
abbrev TW_TADDR_TEN : Fld := ⟨0x60001, 10, 10⟩
abbrev TW_TADDR_ADDR : Fld := ⟨0x60001, 9, 0⟩
/-- `TW_TMASK` (R631). -/
abbrev TW_TMASK : Nat := 0x60005
abbrev TW_TMASK_EN : Fld := ⟨0x60005, 11, 11⟩
abbrev TW_TMASK_MASK : Fld := ⟨0x60005, 9, 0⟩
/-- `TW_CA` (R632). -/
abbrev TW_CA : Nat := 0x60006
abbrev TW_CA_TEN : Fld := ⟨0x60006, 10, 10⟩
abbrev TW_CA_ADDR : Fld := ⟨0x60006, 9, 0⟩
/-- `TW_CCMD` (R632). -/
abbrev TW_CCMD : Nat := 0x60007
abbrev TW_CCMD_GO : Fld := ⟨0x60007, 19, 19⟩
abbrev TW_CCMD_HOLD : Fld := ⟨0x60007, 18, 18⟩
abbrev TW_CCMD_RLEN : Fld := ⟨0x60007, 13, 7⟩
abbrev TW_CCMD_WLEN : Fld := ⟨0x60007, 6, 0⟩
/-- `TW_CBA` (R632). -/
abbrev TW_CBA : Nat := 0x60008
abbrev TW_CBA_INDEX : Fld := ⟨0x60008, 5, 0⟩
/-- `TW_CBD` (R632). -/
abbrev TW_CBD : Nat := 0x60009
abbrev TW_CBD_BYTE : Fld := ⟨0x60009, 7, 0⟩
/-- `TW_CST` (R632). -/
abbrev TW_CST : Nat := 0x6000A
abbrev TW_CST_STATUS : Fld := ⟨0x6000A, 19, 12⟩
abbrev TW_CST_DONE : Fld := ⟨0x6000A, 11, 11⟩
abbrev TW_CST_BUSY : Fld := ⟨0x6000A, 10, 10⟩
abbrev TW_CST_COUNT : Fld := ⟨0x6000A, 6, 0⟩
/-- `TW_TRX` (R632). -/
abbrev TW_TRX : Nat := 0x6000B
abbrev TW_TRX_VALID : Fld := ⟨0x6000B, 11, 11⟩
abbrev TW_TRX_FIRST : Fld := ⟨0x6000B, 10, 10⟩
abbrev TW_TRX_AIDX : Fld := ⟨0x6000B, 9, 8⟩
abbrev TW_TRX_BYTE : Fld := ⟨0x6000B, 7, 0⟩
/-- `TW_TTX` (R632). -/
abbrev TW_TTX : Nat := 0x6000C
abbrev TW_TTX_BYTE : Fld := ⟨0x6000C, 7, 0⟩
abbrev TW_TTX_FREE : Fld := ⟨0x6000C, 5, 0⟩
/-- `TW_STAT` (R633). -/
abbrev TW_STAT : Nat := 0x6000D
abbrev TW_STAT_BUSBUSY : Fld := ⟨0x6000D, 8, 8⟩
abbrev TW_STAT_BAD : Fld := ⟨0x6000D, 7, 7⟩
abbrev TW_STAT_TMO : Fld := ⟨0x6000D, 6, 6⟩
abbrev TW_STAT_ARB : Fld := ⟨0x6000D, 5, 5⟩
abbrev TW_STAT_TSTOP : Fld := ⟨0x6000D, 4, 4⟩
abbrev TW_STAT_TREQ : Fld := ⟨0x6000D, 3, 3⟩
abbrev TW_STAT_TRXNE : Fld := ⟨0x6000D, 2, 2⟩
abbrev TW_STAT_TFULL : Fld := ⟨0x6000D, 1, 1⟩
abbrev TW_STAT_CDONE : Fld := ⟨0x6000D, 0, 0⟩
/-- `TW_CNT_ARB` (R633). -/
abbrev TW_CNT_ARB : Nat := 0x6000E
abbrev TW_CNT_ARB_COUNT : Fld := ⟨0x6000E, 19, 0⟩
/-- `TW_CNT_TMO` (R633). -/
abbrev TW_CNT_TMO : Nat := 0x6000F
abbrev TW_CNT_TMO_COUNT : Fld := ⟨0x6000F, 19, 0⟩
/-- `TW7_PMB` (R634). -/
abbrev TW7_PMB : Nat := 0x60100
abbrev TW7_PMB_EN : Fld := ⟨0x60100, 19, 19⟩
abbrev TW7_PMB_PEC : Fld := ⟨0x60100, 18, 18⟩
abbrev TW7_PMB_BADMODE : Fld := ⟨0x60100, 17, 17⟩
abbrev TW7_PMB_ADDR_A : Fld := ⟨0x60100, 13, 7⟩
abbrev TW7_PMB_ADDR_B : Fld := ⟨0x60100, 6, 0⟩
/-- `TW7_PMB_EXP` (R634). -/
abbrev TW7_PMB_EXP : Nat := 0x60101
abbrev TW7_PMB_EXP_N_B : Fld := ⟨0x60101, 9, 5⟩
abbrev TW7_PMB_EXP_N_A : Fld := ⟨0x60101, 4, 0⟩
/-- `PWR_REQ` (R662). -/
abbrev PWR_REQ : Nat := 0x7E0A0
abbrev PWR_REQ_TARGET : Fld := ⟨0x7E0A0, 19, 18⟩
abbrev PWR_REQ_KEY : Fld := ⟨0x7E0A0, 15, 0⟩
/-- `PWR_ST` (R663). -/
abbrev PWR_ST : Nat := 0x7E0A1
abbrev PWR_ST_STATUS : Fld := ⟨0x7E0A1, 19, 12⟩
abbrev PWR_ST_BLOCK : Fld := ⟨0x7E0A1, 11, 8⟩
abbrev PWR_ST_BUSY : Fld := ⟨0x7E0A1, 7, 7⟩
abbrev PWR_ST_STATE : Fld := ⟨0x7E0A1, 6, 4⟩
abbrev PWR_ST_WAKE : Fld := ⟨0x7E0A1, 3, 0⟩
/-- `PWR_CFG` (R664). -/
abbrev PWR_CFG : Nat := 0x7E0A2
abbrev PWR_CFG_VREG_FULL : Fld := ⟨0x7E0A2, 6, 6⟩
abbrev PWR_CFG_CP_WAKE : Fld := ⟨0x7E0A2, 5, 5⟩
abbrev PWR_CFG_EVM_WAKE : Fld := ⟨0x7E0A2, 4, 4⟩
abbrev PWR_CFG_VW_WAKE : Fld := ⟨0x7E0A2, 3, 3⟩
abbrev PWR_CFG_VA_WAKE : Fld := ⟨0x7E0A2, 2, 2⟩
abbrev PWR_CFG_WN_EDGE : Fld := ⟨0x7E0A2, 1, 1⟩
abbrev PWR_CFG_WN_EN : Fld := ⟨0x7E0A2, 0, 0⟩
/-- `PWR_STAT` (R665). -/
abbrev PWR_STAT : Nat := 0x7E0A3
abbrev PWR_STAT_PFAIL : Fld := ⟨0x7E0A3, 8, 8⟩
abbrev PWR_STAT_VREG_FAIL : Fld := ⟨0x7E0A3, 7, 7⟩
abbrev PWR_STAT_BROWNOUT : Fld := ⟨0x7E0A3, 6, 6⟩
abbrev PWR_STAT_LFX_FAIL : Fld := ⟨0x7E0A3, 5, 5⟩
abbrev PWR_STAT_XREF_FAIL : Fld := ⟨0x7E0A3, 4, 4⟩
abbrev PWR_STAT_LFX_OK : Fld := ⟨0x7E0A3, 3, 3⟩
abbrev PWR_STAT_OSC_RDY : Fld := ⟨0x7E0A3, 2, 2⟩
abbrev PWR_STAT_REG_RDY : Fld := ⟨0x7E0A3, 1, 1⟩
/-- `PWR_PAD` (R665). -/
abbrev PWR_PAD : Nat := 0x7E0A4
abbrev PWR_PAD_HOLD : Fld := ⟨0x7E0A4, 4, 0⟩
/-- `VA_CMP` (R666). -/
abbrev VA_CMP : Nat := 0x7E0A8
abbrev VA_CMP_CMP : Fld := ⟨0x7E0A8, 19, 0⟩
/-- `VA_STAT` (R666). -/
abbrev VA_STAT : Nat := 0x7E0AB
abbrev VA_STAT_ARMED : Fld := ⟨0x7E0AB, 2, 2⟩
abbrev VA_STAT_HIT : Fld := ⟨0x7E0AB, 1, 1⟩
abbrev VA_STAT_EN : Fld := ⟨0x7E0AB, 0, 0⟩
/-- `PWR_RES` (R667). -/
abbrev PWR_RES : Nat := 0x7E0B0
abbrev PWR_RES_TIME : Fld := ⟨0x7E0B0, 19, 0⟩
/-- `PWR_ENT_SLEEP` (R667). -/
abbrev PWR_ENT_SLEEP : Nat := 0x7E0B8
abbrev PWR_ENT_SLEEP_COUNT : Fld := ⟨0x7E0B8, 19, 0⟩
/-- `PWR_ENT_DEEP` (R667). -/
abbrev PWR_ENT_DEEP : Nat := 0x7E0B9
abbrev PWR_ENT_DEEP_COUNT : Fld := ⟨0x7E0B9, 19, 0⟩
/-- `PWR_BOCNT` (R667). -/
abbrev PWR_BOCNT : Nat := 0x7E0BA
abbrev PWR_BOCNT_COUNT : Fld := ⟨0x7E0BA, 19, 0⟩
/-- `PWR_OFFCNT` (R667). -/
abbrev PWR_OFFCNT : Nat := 0x7E0BB
abbrev PWR_OFFCNT_COUNT : Fld := ⟨0x7E0BB, 19, 0⟩
/-- `VW_WIN` (R668). -/
abbrev VW_WIN : Nat := 0x7E0E0
abbrev VW_WIN_DOWN : Fld := ⟨0x7E0E0, 1, 1⟩
abbrev VW_WIN_HALF : Fld := ⟨0x7E0E0, 0, 0⟩
/-- `VC_BELL` (R668). -/
abbrev VC_BELL : Nat := 0x7E0E1
abbrev VC_BELL_RING : Fld := ⟨0x7E0E1, 1, 0⟩
/-- `HP_CTL` (R669). -/
abbrev HP_CTL : Nat := 0x500
abbrev HP_CTL_XREF_IE : Fld := ⟨0x500, 3, 3⟩
abbrev HP_CTL_PFAIL_IE : Fld := ⟨0x500, 2, 2⟩
abbrev HP_CTL_REF_IE : Fld := ⟨0x500, 1, 1⟩
abbrev HP_CTL_WOKE_IE : Fld := ⟨0x500, 0, 0⟩
/-- `HP_STAT` (R669). -/
abbrev HP_STAT : Nat := 0x501
abbrev HP_STAT_IDLE : Fld := ⟨0x501, 4, 4⟩
abbrev HP_STAT_XREF : Fld := ⟨0x501, 3, 3⟩
abbrev HP_STAT_PFAIL : Fld := ⟨0x501, 2, 2⟩
abbrev HP_STAT_REFUSED : Fld := ⟨0x501, 1, 1⟩
abbrev HP_STAT_WOKE : Fld := ⟨0x501, 0, 0⟩
/-- `PKG_STRAP` (R678). -/
abbrev PKG_STRAP : Nat := 0x7E0F0
abbrev PKG_STRAP_TEST_N : Fld := ⟨0x7E0F0, 1, 1⟩
abbrev PKG_STRAP_XREF_MODE : Fld := ⟨0x7E0F0, 0, 0⟩
/-- `GP_CFG` (R681). -/
abbrev GP_CFG : Nat := 0x72000
abbrev GP_CFG_IE : Fld := ⟨0x72000, 10, 10⟩
abbrev GP_CFG_IEDGE : Fld := ⟨0x72000, 9, 8⟩
abbrev GP_CFG_PULL : Fld := ⟨0x72000, 7, 6⟩
abbrev GP_CFG_OD : Fld := ⟨0x72000, 5, 5⟩
abbrev GP_CFG_SRC : Fld := ⟨0x72000, 4, 3⟩
abbrev GP_CFG_DIR : Fld := ⟨0x72000, 2, 2⟩
/-- `GP_OUT` (R682). -/
abbrev GP_OUT : Nat := 0x72020
abbrev GP_OUT_OUT : Fld := ⟨0x72020, 15, 0⟩
/-- `GP_IN` (R682). -/
abbrev GP_IN : Nat := 0x72022
abbrev GP_IN_IN : Fld := ⟨0x72022, 15, 0⟩
/-- `GP_FLAG` (R682). -/
abbrev GP_FLAG : Nat := 0x72024
abbrev GP_FLAG_FLAG : Fld := ⟨0x72024, 15, 0⟩
/-- `GP_STAT` (R682). -/
abbrev GP_STAT : Nat := 0x72026
abbrev GP_STAT_BAD : Fld := ⟨0x72026, 0, 0⟩
/-- `SEAT_ORPH0` (R49). -/
abbrev SEAT_ORPH0 : Nat := 0x7E004
abbrev SEAT_ORPH0_OWN_0 : Fld := ⟨0x7E004, 19, 0⟩
/-- `SEAT_ORPH1` (R49). -/
abbrev SEAT_ORPH1 : Nat := 0x7E005
abbrev SEAT_ORPH1_OWN_1 : Fld := ⟨0x7E005, 19, 0⟩
/-- `SEAT_ORPH2` (R49). -/
abbrev SEAT_ORPH2 : Nat := 0x7E006
abbrev SEAT_ORPH2_OWN_2 : Fld := ⟨0x7E006, 19, 0⟩
/-- `SEAT_ORPH3` (R49). -/
abbrev SEAT_ORPH3 : Nat := 0x7E007
abbrev SEAT_ORPH3_OWN_3 : Fld := ⟨0x7E007, 3, 0⟩

end Reg

/-- Registers of a bay, by bay offset (R32). -/
def bayRows : List RegRow := [
  ⟨0x0, 1, 1, 1, 0x100000, 0x3FFF, 0x0, 0x200⟩,
  ⟨0x1, 1, 1, 1, 0x100000, 0xFFFFF, 0x0, 0x0⟩,
  ⟨0x2, 1, 1, 1, 0x100000, 0xFFFFF, 0x0, 0x13880⟩,
  ⟨0x3, 1, 1, 1, 0x100000, 0xFFFFF, 0x0, 0x0⟩,
  ⟨0x4, 1, 1, 1, 0x100000, 0x0, 0x0, 0x0⟩,
  ⟨0x5, 1, 1, 1, 0x100000, 0xFFFFF, 0x0, 0x0⟩,
  ⟨0x6, 1, 1, 1, 0x100000, 0xFFFFF, 0x0, 0x0⟩,
  ⟨0x7, 1, 1, 1, 0x100000, 0x0, 0x3FE, 0x0⟩,
  ⟨0x8, 1, 1, 1, 0x100000, 0xFFFF, 0x0, 0x0⟩,
  ⟨0x9, 1, 1, 1, 0x100000, 0xFFFF, 0x0, 0x0⟩,
  ⟨0x10, 2, 4, 1, 0x100000, 0xFF, 0x0, 0x0⟩,
  ⟨0x11, 2, 4, 1, 0x100000, 0x0, 0x0, 0x0⟩,
  ⟨0x12, 2, 4, 1, 0x100000, 0x0, 0x0, 0x0⟩,
  ⟨0x13, 2, 4, 1, 0x100000, 0x0, 0x0, 0x0⟩,
  ⟨0x40, 16, 1, 1, 0x100000, 0xFFFFF, 0x0, 0x5⟩,
  ⟨0x80, 16, 16, 1, 0x100000, 0xFFFF, 0x0, 0x2C00⟩,
  ⟨0x81, 16, 16, 1, 0x100000, 0xFFFFF, 0x0, 0x0⟩,
  ⟨0x82, 16, 16, 1, 0x100000, 0xFFF, 0x0, 0x0⟩,
  ⟨0x83, 16, 16, 1, 0x100000, 0xFFF, 0x0, 0x0⟩,
  ⟨0x84, 16, 16, 1, 0x100000, 0x0, 0x0, 0x0⟩,
  ⟨0x85, 16, 16, 1, 0x100000, 0x0, 0x0, 0x60000⟩,
  ⟨0x86, 16, 16, 1, 0x100000, 0x0, 0x0, 0xDA⟩,
  ⟨0x87, 16, 16, 1, 0x100000, 0x0, 0x1FF, 0x0⟩,
  ⟨0x88, 16, 16, 1, 0x100000, 0x0, 0x0, 0x0⟩,
  ⟨0x89, 16, 16, 1, 0x100000, 0x0, 0x0, 0x0⟩,
  ⟨0x8A, 16, 16, 1, 0x100000, 0x0, 0x0, 0x0⟩,
  ⟨0x8B, 16, 16, 1, 0x100000, 0x0, 0x0, 0x0⟩,
  ⟨0x8C, 16, 16, 1, 0x100000, 0xFFFFF, 0x0, 0x0⟩,
  ⟨0x8D, 16, 16, 1, 0x100000, 0xFFFFF, 0x0, 0x0⟩,
  ⟨0x7E, 1, 1, 1, 0x100000, 0x0, 0x0, 0x0⟩,
  ⟨0x8E, 16, 16, 1, 0x100000, 0xFFFFF, 0x0, 0x0⟩,
  ⟨0x8F, 16, 16, 1, 0x100000, 0x0, 0xFC, 0x0⟩,
  ⟨0x50, 16, 1, 1, 0x100000, 0x0, 0x0, 0xFFFFF⟩,
  ⟨0x60, 16, 1, 1, 0x100000, 0xFFFFF, 0x0, 0x0⟩,
  ⟨0x3A, 1, 1, 1, 0x100000, 0x0, 0x0, 0x0⟩,
  ⟨0x18, 16, 2, 1, 0x100000, 0x0, 0x0, 0x0⟩,
  ⟨0x19, 16, 2, 1, 0x100000, 0x0, 0x0, 0x0⟩,
  ⟨0x38, 1, 1, 1, 0x100000, 0x0, 0x0, 0x0⟩,
  ⟨0x39, 1, 1, 1, 0x100000, 0xFFFFF, 0x0, 0x0⟩,
  ⟨0x180, 1, 1, 1, 0x100000, 0xF1FFF, 0x0, 0xF0A88⟩,
  ⟨0x181, 1, 1, 1, 0x100000, 0x0, 0xFFE, 0x0⟩,
  ⟨0x182, 1, 1, 1, 0x100000, 0x7FFF, 0x0, 0x42FF⟩,
  ⟨0x184, 1, 1, 1, 0x100000, 0xFF, 0x0, 0x0⟩,
  ⟨0x185, 1, 1, 1, 0x100000, 0x0, 0x0, 0x0⟩,
  ⟨0x186, 1, 1, 1, 0x100000, 0xFF0FF, 0x0, 0x3080⟩,
  ⟨0x187, 1, 1, 1, 0x100000, 0x0, 0x0, 0x0⟩,
  ⟨0x188, 1, 1, 1, 0x100000, 0x0, 0x0, 0x0⟩,
  ⟨0x189, 1, 1, 1, 0x100000, 0x0, 0x0, 0x0⟩,
  ⟨0x18A, 1, 1, 1, 0x100000, 0x0, 0x0, 0x0⟩,
  ⟨0x190, 1, 1, 1, 0x100000, 0x0, 0x0, 0x0⟩,
  ⟨0x191, 1, 1, 1, 0x100000, 0x0, 0x0, 0x0⟩,
  ⟨0x192, 3, 1, 1, 0x100000, 0x0, 0x0, 0x0⟩,
  ⟨0x195, 1, 1, 1, 0x100000, 0x1F, 0x0, 0x0⟩,
  ⟨0x196, 1, 1, 1, 0x100000, 0x0, 0x0, 0x0⟩,
  ⟨0x197, 1, 1, 1, 0x100000, 0x0, 0x0, 0x0⟩,
  ⟨0x1C0, 8, 1, 1, 0x100000, 0x0, 0x0, 0x0⟩,
  ⟨0x1D0, 8, 1, 1, 0x100000, 0xFFFFF, 0x0, 0x0⟩,
  ⟨0x1D8, 1, 1, 1, 0x100000, 0x0, 0x0, 0x0⟩,
  ⟨0x1D9, 1, 1, 1, 0x100000, 0x0, 0x0, 0x0⟩,
  ⟨0x1DA, 1, 1, 1, 0x100000, 0x0, 0x0, 0x0⟩,
  ⟨0x1DB, 1, 1, 1, 0x100000, 0x0, 0x0, 0x0⟩,
  ⟨0x1E0, 1, 1, 1, 0x100000, 0x1FF, 0x0, 0x84⟩,
  ⟨0x1E1, 1, 1, 1, 0x100000, 0x0, 0x1E0, 0x0⟩,
  ⟨0x1E2, 1, 1, 1, 0x100000, 0x0, 0x0, 0x0⟩,
  ⟨0x1E3, 1, 1, 1, 0x100000, 0xFFFFF, 0x0, 0x0⟩,
  ⟨0x1F0, 1, 1, 1, 0x100000, 0x0, 0x0, 0x0⟩,
  ⟨0x1F1, 1, 1, 1, 0x100000, 0x0, 0x0, 0xFFFF⟩,
  ⟨0x1F2, 1, 1, 1, 0x100000, 0x0, 0x0, 0xA⟩,
  ⟨0x200, 1, 1, 1, 0x100000, 0x38F, 0x0, 0x80⟩,
  ⟨0x201, 1, 1, 1, 0x100000, 0x1, 0x0, 0x0⟩,
  ⟨0x202, 1, 1, 1, 0x100000, 0x0, 0x1FC00, 0x0⟩,
  ⟨0x203, 1, 1, 1, 0x100000, 0x0, 0x0, 0x0⟩,
  ⟨0x204, 1, 1, 1, 0x100000, 0x0, 0x0, 0x0⟩,
  ⟨0x205, 1, 1, 1, 0x100000, 0x0, 0x0, 0x0⟩,
  ⟨0x206, 1, 1, 1, 0x100000, 0x0, 0x0, 0x0⟩,
  ⟨0x207, 1, 1, 1, 0x100000, 0x1FF, 0x0, 0x0⟩,
  ⟨0x208, 4, 1, 1, 0x100000, 0xFFFFF, 0x0, 0x0⟩,
  ⟨0x20C, 1, 1, 1, 0x100000, 0x7, 0x0, 0x1⟩,
  ⟨0x20D, 1, 1, 1, 0x100000, 0xFFFF, 0x0, 0x0⟩,
  ⟨0x20E, 1, 1, 1, 0x100000, 0x1F, 0x0, 0x0⟩,
  ⟨0x20F, 1, 1, 1, 0x100000, 0x7F, 0x0, 0x0⟩,
  ⟨0x210, 1, 1, 1, 0x100000, 0xFFFFF, 0x0, 0x0⟩,
  ⟨0x211, 1, 1, 1, 0x100000, 0xFFF, 0x0, 0x0⟩,
  ⟨0x212, 1, 1, 1, 0x100000, 0xFFFFF, 0x0, 0x0⟩,
  ⟨0x213, 1, 1, 1, 0x100000, 0xFFF, 0x0, 0x0⟩,
  ⟨0x214, 4, 1, 1, 0x100000, 0xFFFFF, 0x0, 0x0⟩,
  ⟨0x218, 1, 1, 1, 0x100000, 0x1FF, 0x0, 0x0⟩,
  ⟨0x219, 1, 1, 1, 0x100000, 0xFFFFF, 0x0, 0x0⟩,
  ⟨0x21A, 1, 1, 1, 0x100000, 0xFFF, 0x0, 0x0⟩,
  ⟨0x21B, 2, 1, 1, 0x100000, 0x0, 0x0, 0x0⟩,
  ⟨0x220, 8, 1, 1, 0x100000, 0x0, 0x0, 0x0⟩,
  ⟨0x228, 2, 1, 1, 0x100000, 0x0, 0x0, 0x0⟩,
  ⟨0x22A, 2, 1, 1, 0x100000, 0x0, 0x0, 0x0⟩,
  ⟨0x22C, 2, 1, 1, 0x100000, 0x0, 0x0, 0x0⟩,
  ⟨0x230, 1, 1, 1, 0x100000, 0xFFFFF, 0x0, 0x0⟩,
  ⟨0x231, 1, 1, 1, 0x100000, 0xFFFFF, 0x0, 0x0⟩,
  ⟨0x232, 1, 1, 1, 0x100000, 0xFFFFF, 0x0, 0x0⟩,
  ⟨0x300, 1, 1, 1, 0x100000, 0xFF1, 0x0, 0x80⟩,
  ⟨0x301, 1, 1, 1, 0x100000, 0x0, 0xFE, 0x0⟩,
  ⟨0x302, 1, 1, 1, 0x100000, 0x7FF, 0x0, 0x0⟩,
  ⟨0x303, 1, 1, 1, 0x100000, 0xFFFFF, 0x0, 0x0⟩,
  ⟨0x304, 7, 1, 1, 0x100000, 0xFFFFF, 0x0, 0x0⟩,
  ⟨0x30C, 1, 1, 1, 0x100000, 0x0, 0x0, 0x0⟩,
  ⟨0x30D, 1, 1, 1, 0x100000, 0x0, 0x0, 0x0⟩,
  ⟨0x30E, 8, 1, 1, 0x100000, 0x0, 0x0, 0x0⟩,
  ⟨0x318, 1, 1, 1, 0x100000, 0x1FF, 0x0, 0x0⟩,
  ⟨0x319, 1, 1, 1, 0x100000, 0xFFFFF, 0x0, 0x0⟩,
  ⟨0x31A, 1, 1, 1, 0x100000, 0x0, 0x0, 0x0⟩,
  ⟨0x31B, 1, 1, 1, 0x100000, 0x0, 0x10, 0x0⟩,
  ⟨0x320, 1, 1, 1, 0x100000, 0x3F, 0x0, 0x0⟩,
  ⟨0x321, 1, 1, 1, 0x100000, 0xFF8FF, 0x0, 0x0⟩,
  ⟨0x322, 1, 1, 1, 0x100000, 0xFFFFF, 0x0, 0x0⟩,
  ⟨0x323, 1, 1, 1, 0x100000, 0xFFFFF, 0x0, 0x0⟩,
  ⟨0x324, 1, 1, 1, 0x100000, 0xFFFFF, 0x0, 0x1011⟩,
  ⟨0x325, 1, 1, 1, 0x100000, 0x0, 0x20000, 0x0⟩,
  ⟨0x326, 1, 1, 1, 0x100000, 0xFFFFF, 0x0, 0x0⟩,
  ⟨0x327, 1, 1, 1, 0x100000, 0x0, 0x0, 0x0⟩,
  ⟨0x328, 3, 1, 1, 0x100000, 0x0, 0x0, 0x0⟩,
  ⟨0x32B, 1, 1, 1, 0x100000, 0x0, 0x0, 0x0⟩,
  ⟨0x330, 4, 1, 1, 0x100000, 0x0, 0x0, 0x0⟩,
  ⟨0x334, 4, 1, 1, 0x100000, 0x0, 0x0, 0x0⟩,
  ⟨0x340, 1, 1, 1, 0x100000, 0xFFF, 0x0, 0x0⟩,
  ⟨0x341, 1, 1, 1, 0x100000, 0xFFFFF, 0x0, 0xA0000⟩,
  ⟨0x342, 1, 1, 1, 0x100000, 0xF, 0x0, 0x7⟩,
  ⟨0x343, 1, 1, 1, 0x100000, 0x0, 0x0, 0x0⟩,
  ⟨0x344, 1, 1, 1, 0x100000, 0x0, 0x1, 0x0⟩,
  ⟨0xA, 1, 1, 1, 0x100000, 0x3FFFF, 0x0, 0x0⟩]

/-- Registers of a half's own system space below 0x0_1000 (R32). -/
def halfRows : List RegRow := [
  ⟨0xF00, 1, 1, 1, 0x100000, 0x0, 0x0, 0x51400⟩,
  ⟨0xF01, 1, 1, 1, 0x100000, 0x0, 0x0, 0x100⟩,
  ⟨0xF02, 1, 1, 1, 0x100000, 0x0, 0x0, 0x0⟩,
  ⟨0xF03, 1, 1, 1, 0x100000, 0x0, 0x0, 0x0⟩,
  ⟨0xF04, 1, 1, 1, 0x100000, 0x0, 0x0, 0x0⟩,
  ⟨0xF05, 1, 1, 1, 0x100000, 0x0, 0x0, 0x0⟩,
  ⟨0xF06, 1, 1, 1, 0x100000, 0x0, 0x0, 0x0⟩,
  ⟨0xF07, 1, 1, 1, 0x100000, 0x0, 0x0, 0x0⟩,
  ⟨0xF08, 1, 1, 1, 0x100000, 0x0, 0x0, 0x14E12⟩,
  ⟨0xF09, 1, 1, 1, 0x100000, 0xFFFFF, 0x0, 0x0⟩,
  ⟨0xF0A, 1, 1, 1, 0x100000, 0x0, 0x0, 0x0⟩,
  ⟨0xE00, 1, 1, 1, 0x100000, 0x0, 0x0, 0x0⟩,
  ⟨0xE01, 1, 1, 1, 0x100000, 0x0, 0x0, 0x0⟩,
  ⟨0xE02, 1, 1, 1, 0x100000, 0x0, 0x0, 0x0⟩,
  ⟨0xE03, 1, 1, 1, 0x100000, 0x0, 0x0, 0x0⟩,
  ⟨0x600, 1, 1, 1, 0x100000, 0x31, 0x0, 0x21⟩,
  ⟨0x601, 1, 1, 1, 0x100000, 0x3FFF, 0x0, 0x3E8⟩,
  ⟨0x602, 1, 1, 1, 0x100000, 0x0, 0x1E, 0x0⟩,
  ⟨0x603, 1, 1, 1, 0x100000, 0x0, 0x0, 0x0⟩,
  ⟨0x604, 3, 1, 1, 0x100000, 0x0, 0x0, 0x0⟩,
  ⟨0x610, 64, 1, 1, 0x100000, 0xFFFFF, 0x0, 0x0⟩,
  ⟨0x650, 64, 1, 1, 0x100000, 0x0, 0x0, 0x0⟩,
  ⟨0x690, 16, 1, 1, 0x100000, 0xFFFFF, 0x0, 0x0⟩,
  ⟨0x6A0, 16, 1, 1, 0x100000, 0xF, 0x0, 0xC⟩,
  ⟨0x6C0, 1, 1, 1, 0x100000, 0x0, 0x0, 0x0⟩,
  ⟨0x6C1, 1, 1, 1, 0x100000, 0x0, 0x0, 0x0⟩,
  ⟨0x6C2, 1, 1, 1, 0x100000, 0x1F, 0x0, 0x0⟩,
  ⟨0x800, 1, 1, 1, 0x100000, 0x0, 0xE, 0x0⟩,
  ⟨0x801, 1, 1, 1, 0x100000, 0x3F, 0x0, 0x2⟩,
  ⟨0x802, 1, 1, 1, 0x100000, 0x0, 0x0, 0x0⟩,
  ⟨0x804, 4, 1, 1, 0x100000, 0x0, 0x0, 0x0⟩,
  ⟨0x810, 4, 1, 1, 0x100000, 0xFFFFF, 0x0, 0x0⟩,
  ⟨0xC00, 4, 32, 1, 0x100000, 0x71, 0x0, 0x1⟩,
  ⟨0xC01, 4, 32, 1, 0x100000, 0x0, 0xC00, 0x0⟩,
  ⟨0xC02, 4, 32, 1, 0x100000, 0x0, 0x0, 0x0⟩,
  ⟨0xC03, 4, 32, 1, 0x100000, 0xFFFFF, 0x0, 0x0⟩,
  ⟨0xC04, 4, 32, 1, 0x100000, 0xFFFFF, 0x0, 0x0⟩,
  ⟨0xC05, 4, 32, 1, 0x100000, 0xFFFFF, 0x0, 0x0⟩,
  ⟨0xC06, 4, 32, 1, 0x100000, 0x3F, 0x0, 0x0⟩,
  ⟨0xC07, 4, 32, 1, 0x100000, 0xFFFFF, 0x0, 0x0⟩,
  ⟨0xC08, 2, 1, 4, 0x20, 0xFFFFF, 0x0, 0x0⟩,
  ⟨0xC0A, 4, 32, 1, 0x100000, 0xFFFFF, 0x0, 0x0⟩,
  ⟨0xC0B, 4, 32, 1, 0x100000, 0x0, 0x0, 0x0⟩,
  ⟨0xA00, 2, 16, 1, 0x100000, 0x0, 0x0, 0x0⟩,
  ⟨0xA01, 1, 1, 2, 0x10, 0xFFFFF, 0x0, 0x0⟩,
  ⟨0xA02, 1, 1, 2, 0x10, 0xF, 0x0, 0x0⟩,
  ⟨0xA03, 2, 16, 1, 0x100000, 0xFFF, 0x0, 0x0⟩,
  ⟨0xA04, 2, 16, 1, 0x100000, 0xFFFFF, 0x0, 0x0⟩,
  ⟨0xA05, 2, 16, 1, 0x100000, 0x0, 0x0, 0x0⟩,
  ⟨0xA06, 1, 1, 1, 0x100000, 0x0, 0x0, 0x0⟩,
  ⟨0x0, 1, 1, 1, 0x100000, 0x7, 0x0, 0x0⟩,
  ⟨0x1, 1, 1, 1, 0x100000, 0x0, 0x0, 0x0⟩,
  ⟨0x2, 1, 1, 1, 0x100000, 0x0, 0x0, 0x0⟩,
  ⟨0x3, 1, 1, 1, 0x100000, 0x0, 0x1, 0x0⟩,
  ⟨0x10, 4, 4, 1, 0x100000, 0x0, 0x0, 0x80000⟩,
  ⟨0x11, 4, 4, 1, 0x100000, 0x0, 0x0, 0x0⟩,
  ⟨0x12, 4, 4, 1, 0x100000, 0x1, 0x0, 0x1⟩,
  ⟨0x20, 1, 1, 1, 0x100000, 0x0, 0x0, 0x80000⟩,
  ⟨0x21, 1, 1, 1, 0x100000, 0x0, 0x0, 0x0⟩,
  ⟨0x22, 1, 1, 1, 0x100000, 0x1, 0x0, 0x1⟩,
  ⟨0x100, 26, 1, 1, 0x100000, 0x0, 0x0, 0x0⟩,
  ⟨0x120, 26, 1, 1, 0x100000, 0x0, 0x0, 0x0⟩,
  ⟨0x200, 512, 1, 1, 0x100000, 0x1F, 0x80, 0xF⟩,
  ⟨0x500, 1, 1, 1, 0x100000, 0xF, 0x0, 0xD⟩,
  ⟨0x501, 1, 1, 1, 0x100000, 0x0, 0xF, 0x0⟩]

/-- Registers of the event matrix (R556 to R558). -/
def matrixRows : List RegRow := [
  ⟨0x1000, 1, 1, 1, 0x100000, 0xFF, 0x0, 0x0⟩,
  ⟨0x1001, 1, 1, 1, 0x100000, 0xEFF87, 0x0, 0x0⟩,
  ⟨0x1002, 1, 1, 1, 0x100000, 0x0, 0x1, 0x0⟩,
  ⟨0x1003, 1, 1, 1, 0x100000, 0xFFFFF, 0x0, 0x0⟩,
  ⟨0x1010, 13, 1, 1, 0x100000, 0xFFFFF, 0x0, 0x0⟩,
  ⟨0x1020, 4, 1, 1, 0x100000, 0xFFFFF, 0x0, 0x0⟩,
  ⟨0x1024, 1, 1, 1, 0x100000, 0x0, 0x0, 0x0⟩,
  ⟨0x1030, 2, 1, 1, 0x100000, 0x0, 0x0, 0x0⟩]

/-- Memory control registers (R573 to R577). -/
def memoryRows : List RegRow := [
  ⟨0x20000, 1, 1, 1, 0x100000, 0x1F, 0x0, 0x19⟩,
  ⟨0x20001, 1, 1, 1, 0x100000, 0x0, 0x3E, 0x0⟩,
  ⟨0x20002, 1, 1, 1, 0x100000, 0x0, 0x0, 0x0⟩,
  ⟨0x20003, 1, 1, 1, 0x100000, 0x0, 0x0, 0x0⟩,
  ⟨0x20004, 1, 1, 1, 0x100000, 0x0, 0x0, 0x0⟩,
  ⟨0x20005, 1, 1, 1, 0x100000, 0x0, 0x0, 0x0⟩,
  ⟨0x20006, 1, 1, 1, 0x100000, 0x0, 0x0, 0x0⟩,
  ⟨0x20007, 1, 1, 1, 0x100000, 0x0, 0x0, 0x0⟩,
  ⟨0x20008, 4, 1, 1, 0x100000, 0xFFFFF, 0x0, 0x0⟩,
  ⟨0x20010, 14, 1, 1, 0x100000, 0xFFFFF, 0x0, 0x0⟩,
  ⟨0x20020, 14, 1, 1, 0x100000, 0xFFFFF, 0x0, 0x0⟩,
  ⟨0x20080, 1, 1, 1, 0x100000, 0x3FFFF, 0x0, 0x0⟩,
  ⟨0x20081, 1, 1, 1, 0x100000, 0xFFFFF, 0x0, 0x0⟩]

/-- Registers of the fabric router (R451 to R457). -/
def fabricRows : List RegRow := [
  ⟨0x30000, 1, 1, 1, 0x100000, 0x1FD, 0x0, 0x90⟩,
  ⟨0x30001, 1, 1, 1, 0x100000, 0x0, 0x3FC, 0x0⟩,
  ⟨0x30002, 1, 1, 1, 0x100000, 0x0, 0x0, 0x0⟩,
  ⟨0x30003, 1, 1, 1, 0x100000, 0x2FFF, 0x0, 0x0⟩,
  ⟨0x30004, 1, 1, 1, 0x100000, 0x1FFF, 0x0, 0x0⟩,
  ⟨0x30005, 1, 1, 1, 0x100000, 0xF, 0x0, 0x8⟩,
  ⟨0x30006, 2, 1, 1, 0x100000, 0x1FFF, 0x0, 0x0⟩,
  ⟨0x30008, 1, 1, 1, 0x100000, 0x3FF, 0x0, 0xC8⟩,
  ⟨0x30010, 3, 1, 1, 0x100000, 0x0, 0x0, 0x0⟩,
  ⟨0x30013, 3, 1, 1, 0x100000, 0x0, 0x0, 0x0⟩,
  ⟨0x30016, 1, 1, 1, 0x100000, 0x0, 0x0, 0xFF⟩,
  ⟨0x30017, 1, 1, 1, 0x100000, 0x0, 0x0, 0x0⟩,
  ⟨0x30018, 1, 1, 1, 0x100000, 0x0, 0x0, 0x0⟩,
  ⟨0x30019, 4, 1, 1, 0x100000, 0x0, 0x0, 0x0⟩,
  ⟨0x30020, 1, 1, 1, 0x100000, 0xFFF, 0x0, 0x0⟩,
  ⟨0x30021, 1, 1, 1, 0x100000, 0x0, 0x0, 0x20000⟩,
  ⟨0x30022, 1, 1, 1, 0x100000, 0x0, 0x0, 0x80000⟩,
  ⟨0x30023, 4, 1, 1, 0x100000, 0x0, 0x0, 0x0⟩,
  ⟨0x30030, 7, 1, 1, 0x100000, 0xFFFFF, 0x0, 0x0⟩,
  ⟨0x30100, 8, 16, 1, 0x100000, 0xF9, 0x0, 0x11⟩,
  ⟨0x30101, 8, 16, 1, 0x100000, 0x0, 0x0, 0x0⟩,
  ⟨0x30102, 8, 16, 1, 0x100000, 0x0, 0x0, 0x0⟩,
  ⟨0x30103, 4, 1, 8, 0x10, 0x0, 0x0, 0x0⟩,
  ⟨0x30107, 8, 16, 1, 0x100000, 0xFFFFF, 0x0, 0x0⟩,
  ⟨0x30108, 8, 16, 1, 0x100000, 0x0, 0x0, 0x0⟩,
  ⟨0x30109, 5, 1, 8, 0x10, 0xFFFFF, 0x0, 0x0⟩]

/-- Registers of the archive controller (R410 to R418). -/
def archiveRows : List RegRow := [
  ⟨0x40040, 4, 1, 4, 0x8, 0x0, 0x0, 0x0⟩,
  ⟨0x40044, 4, 8, 1, 0x100000, 0x0, 0x0, 0x0⟩,
  ⟨0x40060, 1, 1, 1, 0x100000, 0x0, 0x0, 0x0⟩,
  ⟨0x40000, 1, 1, 1, 0x100000, 0x33F, 0x0, 0x13E⟩,
  ⟨0x40001, 1, 1, 1, 0x100000, 0x0, 0x7C0, 0x0⟩,
  ⟨0x40002, 1, 1, 1, 0x100000, 0xFFFFF, 0x0, 0xC0190⟩,
  ⟨0x40003, 1, 1, 1, 0x100000, 0xFFFFF, 0x0, 0x4003C⟩,
  ⟨0x40004, 1, 1, 1, 0x100000, 0x1FF, 0x0, 0x102⟩,
  ⟨0x40005, 1, 1, 1, 0x100000, 0x0, 0x0, 0x0⟩,
  ⟨0x40008, 1, 1, 1, 0x100000, 0x0, 0x0, 0x0⟩,
  ⟨0x40009, 1, 1, 1, 0x100000, 0x0, 0x0, 0x0⟩,
  ⟨0x4000A, 2, 1, 1, 0x100000, 0x0, 0x0, 0x0⟩,
  ⟨0x4000C, 2, 1, 1, 0x100000, 0x0, 0x0, 0x0⟩,
  ⟨0x4000E, 2, 1, 1, 0x100000, 0x0, 0x0, 0x0⟩,
  ⟨0x40010, 2, 1, 1, 0x100000, 0x0, 0x0, 0x0⟩,
  ⟨0x40012, 1, 1, 1, 0x100000, 0x0, 0x0, 0x0⟩,
  ⟨0x40018, 1, 1, 1, 0x100000, 0x3FFF, 0x0, 0x0⟩,
  ⟨0x40019, 2, 1, 1, 0x100000, 0x0, 0x0, 0x0⟩,
  ⟨0x40020, 2, 1, 1, 0x100000, 0xFFFFF, 0x0, 0x0⟩,
  ⟨0x40022, 1, 1, 1, 0x100000, 0xFFFFF, 0x0, 0x0⟩,
  ⟨0x40023, 1, 1, 1, 0x100000, 0x0, 0x0, 0x0⟩,
  ⟨0x40024, 1, 1, 1, 0x100000, 0xFFFFF, 0x0, 0x0⟩,
  ⟨0x40025, 1, 1, 1, 0x100000, 0x0, 0x0, 0x0⟩,
  ⟨0x40026, 1, 1, 1, 0x100000, 0xFFFFF, 0x0, 0x0⟩,
  ⟨0x40030, 5, 1, 1, 0x100000, 0xFFFFF, 0x0, 0x0⟩]

/-- Registers of the metrology link (R386 to R391). -/
def metrologyRows : List RegRow := [
  ⟨0x50000, 1, 1, 1, 0x100000, 0xF, 0x0, 0x7⟩,
  ⟨0x50001, 1, 1, 1, 0x100000, 0x0, 0x1E, 0x0⟩,
  ⟨0x50002, 1, 1, 1, 0x100000, 0x0, 0x0, 0x0⟩,
  ⟨0x50003, 1, 1, 1, 0x100000, 0x0, 0x0, 0x0⟩,
  ⟨0x50004, 1, 1, 1, 0x100000, 0x0, 0x0, 0x0⟩,
  ⟨0x50005, 1, 1, 1, 0x100000, 0x0, 0x0, 0x0⟩,
  ⟨0x50010, 4, 1, 1, 0x100000, 0x0, 0x0, 0x0⟩,
  ⟨0x50014, 2, 1, 1, 0x100000, 0x0, 0x0, 0x0⟩,
  ⟨0x50016, 2, 1, 1, 0x100000, 0x0, 0x0, 0x0⟩,
  ⟨0x50018, 2, 1, 1, 0x100000, 0x0, 0x0, 0x0⟩,
  ⟨0x5001A, 2, 1, 1, 0x100000, 0x0, 0x0, 0x0⟩,
  ⟨0x50020, 1, 1, 1, 0x100000, 0x1FFF, 0x0, 0x0⟩,
  ⟨0x50021, 1, 1, 1, 0x100000, 0x7F, 0x0, 0x0⟩,
  ⟨0x50022, 1, 1, 1, 0x100000, 0x0, 0x0, 0x0⟩,
  ⟨0x50023, 1, 1, 1, 0x100000, 0x0, 0x0, 0x0⟩,
  ⟨0x50030, 4, 1, 1, 0x100000, 0xFFFFF, 0x0, 0x0⟩,
  ⟨0x50034, 3, 1, 1, 0x100000, 0x0, 0x0, 0x0⟩]

/-- Registers of the two-wire buses (R631 to R634). -/
def twoWireRows : List RegRow := [
  ⟨0x60000, 8, 32, 1, 0x100000, 0x1FFF, 0x0, 0x780⟩,
  ⟨0x60001, 4, 1, 8, 0x20, 0xFFF, 0x0, 0x0⟩,
  ⟨0x60005, 8, 32, 1, 0x100000, 0xBFF, 0x0, 0x0⟩,
  ⟨0x60006, 8, 32, 1, 0x100000, 0x7FF, 0x0, 0x0⟩,
  ⟨0x60007, 8, 32, 1, 0x100000, 0x0, 0x0, 0x0⟩,
  ⟨0x60008, 8, 32, 1, 0x100000, 0x3F, 0x0, 0x0⟩,
  ⟨0x60009, 8, 32, 1, 0x100000, 0xFF, 0x0, 0x0⟩,
  ⟨0x6000A, 8, 32, 1, 0x100000, 0x0, 0x0, 0x0⟩,
  ⟨0x6000B, 8, 32, 1, 0x100000, 0x0, 0x0, 0x0⟩,
  ⟨0x6000C, 8, 32, 1, 0x100000, 0x0, 0x0, 0x20⟩,
  ⟨0x6000D, 8, 32, 1, 0x100000, 0x0, 0xF1, 0x0⟩,
  ⟨0x6000E, 8, 32, 1, 0x100000, 0xFFFFF, 0x0, 0x0⟩,
  ⟨0x6000F, 8, 32, 1, 0x100000, 0xFFFFF, 0x0, 0x0⟩,
  ⟨0x60100, 1, 1, 1, 0x100000, 0xC3FFF, 0x0, 0x82041⟩,
  ⟨0x60101, 1, 1, 1, 0x100000, 0x0, 0x0, 0x0⟩]

/-- Registers of the command ports, general timers and general pins. -/
def portRows : List RegRow := [
  ⟨0x71000, 8, 32, 1, 0x100000, 0x7DFF, 0x0, 0x0⟩,
  ⟨0x71001, 8, 32, 1, 0x100000, 0xFFFFF, 0x0, 0x0⟩,
  ⟨0x71002, 8, 32, 1, 0x100000, 0xFFFFF, 0x0, 0x0⟩,
  ⟨0x71003, 8, 32, 1, 0x100000, 0xFFFFF, 0x0, 0x0⟩,
  ⟨0x71004, 8, 32, 1, 0x100000, 0x0, 0x0, 0x0⟩,
  ⟨0x71005, 8, 32, 1, 0x100000, 0xFFFFF, 0x0, 0x0⟩,
  ⟨0x71006, 8, 32, 1, 0x100000, 0xFFFFF, 0x0, 0x0⟩,
  ⟨0x71007, 8, 32, 1, 0x100000, 0x0, 0x3FE, 0x0⟩,
  ⟨0x71010, 2, 4, 8, 0x20, 0xFF, 0x0, 0x0⟩,
  ⟨0x71011, 2, 4, 8, 0x20, 0x0, 0x0, 0x0⟩,
  ⟨0x71012, 2, 4, 8, 0x20, 0x0, 0x0, 0x0⟩,
  ⟨0x71013, 2, 4, 8, 0x20, 0x0, 0x0, 0x0⟩,
  ⟨0x70000, 2, 64, 1, 0x100000, 0x1FC, 0x0, 0x1E0⟩,
  ⟨0x70001, 2, 64, 1, 0x100000, 0x0, 0x7, 0x0⟩,
  ⟨0x70002, 2, 64, 1, 0x100000, 0x0, 0x0, 0x0⟩,
  ⟨0x70008, 9, 1, 2, 0x40, 0xFFFFF, 0x0, 0x0⟩,
  ⟨0x72000, 32, 1, 1, 0x100000, 0x7FC, 0x0, 0x80⟩,
  ⟨0x72020, 2, 1, 1, 0x100000, 0xFFFF, 0x0, 0x0⟩,
  ⟨0x72022, 2, 1, 1, 0x100000, 0x0, 0x0, 0x0⟩,
  ⟨0x72024, 2, 1, 1, 0x100000, 0x0, 0xFFFF, 0x0⟩,
  ⟨0x72026, 1, 1, 1, 0x100000, 0x0, 0x1, 0x0⟩]

/-- Registers of the Vigil domain. -/
def vigilRows : List RegRow := [
  ⟨0x7E000, 1, 1, 1, 0x100000, 0x0, 0x0, 0x0⟩,
  ⟨0x7E001, 1, 1, 1, 0x100000, 0x0, 0x0, 0xFF000⟩,
  ⟨0x7E002, 1, 1, 1, 0x100000, 0x0, 0x0, 0xFFFFF⟩,
  ⟨0x7E003, 1, 1, 1, 0x100000, 0x0, 0x0, 0xF⟩,
  ⟨0x7E008, 1, 1, 1, 0x100000, 0x0, 0x0, 0x0⟩,
  ⟨0x7E009, 1, 1, 1, 0x100000, 0x0, 0x0, 0x0⟩,
  ⟨0x7E00A, 1, 1, 1, 0x100000, 0x0, 0xFFF, 0x0⟩,
  ⟨0x7E00B, 1, 1, 1, 0x100000, 0x0, 0x0, 0x0⟩,
  ⟨0x7E00C, 1, 1, 1, 0x100000, 0x0, 0x0, 0x0⟩,
  ⟨0x7E00D, 1, 1, 1, 0x100000, 0x0, 0x0, 0x0⟩,
  ⟨0x7E00E, 1, 1, 1, 0x100000, 0xFFFFF, 0x0, 0x7D0⟩,
  ⟨0x7E0C0, 1, 1, 1, 0x100000, 0x71, 0x0, 0x1⟩,
  ⟨0x7E0C1, 1, 1, 1, 0x100000, 0x0, 0xC00, 0x0⟩,
  ⟨0x7E0C2, 1, 1, 1, 0x100000, 0x0, 0x0, 0x0⟩,
  ⟨0x7E0C3, 1, 1, 1, 0x100000, 0xFFFFF, 0x0, 0x0⟩,
  ⟨0x7E0C4, 1, 1, 1, 0x100000, 0xFFFFF, 0x0, 0x0⟩,
  ⟨0x7E0C5, 1, 1, 1, 0x100000, 0xFFFFF, 0x0, 0x0⟩,
  ⟨0x7E0C6, 1, 1, 1, 0x100000, 0x3F, 0x0, 0x0⟩,
  ⟨0x7E0C7, 1, 1, 1, 0x100000, 0xFFFFF, 0x0, 0x0⟩,
  ⟨0x7E0C8, 2, 1, 1, 0x100000, 0xFFFFF, 0x0, 0x0⟩,
  ⟨0x7E0CA, 1, 1, 1, 0x100000, 0xFFFFF, 0x0, 0x0⟩,
  ⟨0x7E0CB, 1, 1, 1, 0x100000, 0x0, 0x0, 0x0⟩,
  ⟨0x7E040, 2, 1, 1, 0x100000, 0x1, 0x80, 0x0⟩,
  ⟨0x7E044, 1, 1, 1, 0x100000, 0x0, 0x0, 0x0⟩,
  ⟨0x7E045, 1, 1, 1, 0x100000, 0x0, 0x0, 0x0⟩,
  ⟨0x7E048, 4, 1, 1, 0x100000, 0x0, 0x0, 0x0⟩,
  ⟨0x7E04C, 1, 1, 1, 0x100000, 0x0, 0x0, 0x0⟩,
  ⟨0x7E050, 1, 1, 1, 0x100000, 0x0, 0x0, 0x0⟩,
  ⟨0x7E051, 1, 1, 1, 0x100000, 0x0, 0x0, 0x0⟩,
  ⟨0x7E052, 1, 1, 1, 0x100000, 0xFFFFF, 0x0, 0x0⟩,
  ⟨0x7E058, 1, 1, 1, 0x100000, 0x0, 0x0, 0x0⟩,
  ⟨0x7E059, 1, 1, 1, 0x100000, 0x0, 0x0, 0x0⟩,
  ⟨0x7E060, 1, 1, 1, 0x100000, 0x0, 0x0, 0x0⟩,
  ⟨0x7E061, 1, 1, 1, 0x100000, 0x0, 0x0, 0x0⟩,
  ⟨0x7E062, 1, 1, 1, 0x100000, 0x0, 0x0, 0x0⟩,
  ⟨0x7E070, 16, 1, 1, 0x100000, 0xC01FF, 0x0, 0x0⟩,
  ⟨0x7E080, 1, 1, 1, 0x100000, 0x0, 0xFFFF, 0x0⟩,
  ⟨0x7E090, 1, 1, 1, 0x100000, 0x3FFF, 0x0, 0x0⟩,
  ⟨0x7E091, 1, 1, 1, 0x100000, 0xFFFFF, 0x0, 0x0⟩,
  ⟨0x7E0A0, 1, 1, 1, 0x100000, 0x0, 0x0, 0x0⟩,
  ⟨0x7E0A1, 1, 1, 1, 0x100000, 0x0, 0x0, 0x9⟩,
  ⟨0x7E0A2, 1, 1, 1, 0x100000, 0x7F, 0x0, 0x3D⟩,
  ⟨0x7E0A3, 1, 1, 1, 0x100000, 0x0, 0xF0, 0x2⟩,
  ⟨0x7E0A4, 1, 1, 1, 0x100000, 0x0, 0x1F, 0x0⟩,
  ⟨0x7E0A8, 3, 1, 1, 0x100000, 0xFFFFF, 0x0, 0x0⟩,
  ⟨0x7E0AB, 1, 1, 1, 0x100000, 0x1, 0x2, 0x0⟩,
  ⟨0x7E0B0, 8, 1, 1, 0x100000, 0xFFFFF, 0x0, 0x0⟩,
  ⟨0x7E0B8, 1, 1, 1, 0x100000, 0xFFFFF, 0x0, 0x0⟩,
  ⟨0x7E0B9, 1, 1, 1, 0x100000, 0xFFFFF, 0x0, 0x0⟩,
  ⟨0x7E0BA, 1, 1, 1, 0x100000, 0xFFFFF, 0x0, 0x0⟩,
  ⟨0x7E0BB, 1, 1, 1, 0x100000, 0x0, 0x0, 0x0⟩,
  ⟨0x7E0E0, 1, 1, 1, 0x100000, 0x1, 0x2, 0x0⟩,
  ⟨0x7E0E1, 1, 1, 1, 0x100000, 0x0, 0x0, 0x0⟩,
  ⟨0x7E0F0, 1, 1, 1, 0x100000, 0x0, 0x0, 0x0⟩,
  ⟨0x7E004, 1, 1, 1, 0x100000, 0x0, 0x0, 0xFFFFF⟩,
  ⟨0x7E005, 1, 1, 1, 0x100000, 0x0, 0x0, 0xFFFFF⟩,
  ⟨0x7E006, 1, 1, 1, 0x100000, 0x0, 0x0, 0xFFFFF⟩,
  ⟨0x7E007, 1, 1, 1, 0x100000, 0x0, 0x0, 0xF⟩]

/-- The row of a map that an address belongs to. -/
def RegRow.has (r : RegRow) (a : Nat) : Bool :=
  decide (r.base ≤ a) && decide ((a - r.base) / r.s2 < r.n2)
    && decide ((a - r.base) % r.s2 % r.s1 = 0) && decide ((a - r.base) % r.s2 / r.s1 < r.n1)

/-- The part of the register map an I/O address lies in (R32); a bay address is reduced to its bay offset. -/
def rowsAt (a : Nat) : List RegRow × Nat :=
  if a < 0x1000 then (halfRows, a)
  else if a < 0x2000 then (matrixRows, a)
  else if a < 0x10000 then ([], a)
  else if a < 0x20000 then (bayRows, (a - 0x10000) % 0x400)
  else if a < 0x30000 then (memoryRows, a)
  else if a < 0x40000 then (fabricRows, a)
  else if a < 0x50000 then (archiveRows, a)
  else if a < 0x60000 then (metrologyRows, a)
  else if a < 0x70000 then (twoWireRows, a)
  else if a < 0x7E000 then (portRows, a)
  else if a < 0x80000 then (vigilRows, a)
  else ([], a)

/-- The register-map row of an I/O address, or none where no chapter assigns it (R8). -/
def regRow? (a : Nat) : Option RegRow :=
  let p := rowsAt a
  p.1.find? (fun r => r.has p.2)

end Sys2Proof.Machine
end

