-- ==== Sys2Proof/Machine/Table.lean ====
section
/-! DEFINITION. Sparse tables of plain data: pairs of a number and a value, numbers strictly rising. A table that holds
memory or registers lists no entry equal to what an unlisted number reads as (its default), so that equal contents are
equal data. -/

namespace Sys2Proof.Machine

/-- The entry listed under a number, if one is. -/
def tblFind {α : Type} : Tbl α → Nat → Option α
  | [], _ => none
  | (n, v) :: t, k => if n = k then some v else tblFind t k

/-- What a number holds: its entry, or the default where none is listed. -/
def tblGet {α : Type} (t : Tbl α) (d : α) (k : Nat) : α :=
  (tblFind t k).getD d

/-- The table with the number's entry taken out. -/
def tblDel {α : Type} : Tbl α → Nat → Tbl α
  | [], _ => []
  | (n, v) :: t, k => if n = k then tblDel t k else (n, v) :: tblDel t k

/-- The table with an entry listed in its place by number, over any entry that stood there. -/
def tblPut {α : Type} : Tbl α → Nat → α → Tbl α
  | [], k, v => [(k, v)]
  | (n, w) :: t, k, v =>
    if k < n then (k, v) :: (n, w) :: t
    else if n = k then (k, v) :: t
    else (n, w) :: tblPut t k v

/-- The table with the number holding a value: listed unless the value is the default. -/
def tblSet {α : Type} [DecidableEq α] (t : Tbl α) (d : α) (k : Nat) (v : α) : Tbl α :=
  if v = d then tblDel t k else tblPut t k v

/-- The canonical form: numbers strictly rising and no entry equal to the default. -/
def tblWf {α : Type} [DecidableEq α] (d : α) : Tbl α → Bool
  | [] => true
  | [(_, v)] => decide (v ≠ d)
  | (n, v) :: (m, w) :: t => decide (n < m) && decide (v ≠ d) && tblWf d ((m, w) :: t)

/-- A list with one place changed; a place past its end changes nothing. -/
def listSet {α : Type} : List α → Nat → α → List α
  | [], _, _ => []
  | _ :: t, 0, v => v :: t
  | h :: t, k + 1, v => h :: listSet t k v

/-- A list without the values equal to one. -/
def listDrop {α : Type} [DecidableEq α] (l : List α) (v : α) : List α :=
  l.filter (fun x => decide (x ≠ v))

/-- A list of marks with one added, unless it is there. -/
def listMark {α : Type} [DecidableEq α] (l : List α) (v : α) : List α :=
  if v ∈ l then l else l ++ [v]

end Sys2Proof.Machine
end

