-- ==== Sys2Proof/Machine/State.lean ====
section
/-! DEFINITION. The state of the QST1024: every register, memory, queue, latch and mode the spec gives the device, as
plain data, and the commands that are waiting. Registers whose value stands in a register map are held in one table
by register key; what a block holds beside its registers stands in the structures below. -/

namespace Sys2Proof.Machine

/-- What one activity of a half has done on its resources in the current watch (R84 to R90). A place is 4a + r for
activity a and resource r. -/
structure Budget where
  /-- Grants written but not yet in force (R88). -/
  staged : Tbl Nat
  /-- Grains spent from the activity's own grant in this watch (R89). -/
  spent : Tbl Nat
  /-- Grains taken from the pool in this watch (R90). -/
  borrowed : Tbl Nat
  /-- Debt deducted from this watch's grant (R89). -/
  debt : Tbl Nat
  /-- Grains an activity has lent to the pool at the release point (R90). -/
  lent : Tbl Nat
  /-- The unallocated pool of each resource (R90). -/
  pool : Tbl Nat
  /-- Requests whose acknowledge is withheld, oldest first: place, grains to be held, TREF edge of the request. -/
  waiting : List (Nat × Nat × Nat)
  /-- A watch length that takes effect at the next boundary (R93). -/
  nextLen : Option Nat
  deriving DecidableEq, Repr

/-- The profile whose bundled defaults are in force in a half, class by class (R98). -/
structure Defaults where
  preset : Profile
  tol : Profile
  lineRate : Profile
  sealing : Profile
  deriving DecidableEq, Repr

/-- What a half holds beside its registers and stewards (R54 to R67, R526 to R535). -/
structure HalfState where
  /-- The core supply is above the failure threshold by the monitor's decision (R62). -/
  supplyOk : Bool
  /-- The half is in half reset (R61, R63). -/
  inReset : Bool
  /-- HOLD keeps the half in half reset (R511). -/
  held : Bool
  /-- The boot ROM of the half is running (R503). -/
  booting : Bool
  /-- The booting steward waits in the ROM because both slots failed (R505). -/
  romWait : Bool
  /-- What BOOT_INFO.CAUSE will say of the next boot (R521). -/
  bootCause : Nat
  /-- A valid heartbeat has been given since the last reset (R55), and one since mirror synchronisation was complete
  (R47). -/
  beatSeen : Bool
  beatSynced : Bool
  /-- The half has yielded since its last reset (R55). -/
  yielded : Bool
  /-- REF_BOOTWAIT has not elapsed since the release of the half's reset (R57). -/
  bootWait : Bool
  /-- Bays whose copy counts as synchronised (R67). -/
  synced : BitVec 64
  /-- A failed self-check that only the next reset clears (R60). -/
  selfStuck : Bool
  /-- The half is within REF_BOOTWAIT of a power-on reset or RESET_N and has not yielded (R66). -/
  cold : Bool
  budget : Budget
  defaults : Defaults
  /-- Profile defaults take effect at the next watch boundary (R96 step 5). -/
  defaultsDue : Bool
  /-- CE_XCFG as written and not yet in force (R349). -/
  nextXcfg : Option Word
  /-- The half has booted and the boot is not yet confirmed (R502). -/
  confirmDue : Bool
  /-- Pulse latches set in the half's interrupt controller (R527). -/
  latched : List Nat
  /-- Active sources of the half's interrupt controller (R528). -/
  active : List Nat
  deriving DecidableEq, Repr

/-- The referee and the pad side of the seats (R48 to R72). -/
structure Referee where
  /-- Bays that disagreed at the latest watch boundary (R52). -/
  disagreed : BitVec 64
  /-- The bays whose two disagreements the self-checks in progress are to settle (R52, R60). -/
  question : List Nat
  /-- The live driver path of each terminal: 0 Half A, 1 Half B (R68). -/
  termPath : BitVec 1024
  /-- Terminals whose switch to the new path waits for the end of a TALK exchange (R68). -/
  pathWaits : BitVec 1024
  /-- The live transmit path of each line (R69). -/
  linePath : BitVec 64
  deriving DecidableEq, Repr

/-- A consumer of the event matrix (R544, R556, R557). Owner: 0 Half A, 1 Half B, 2 host. -/
structure Consumer where
  owner : Nat
  secure : Bool
  moved : Bool
  en : Bool
  pw : Nat
  mode : Nat
  busy : Bool
  pend : Bool
  drop : Nat
  enables : BitVec 256
  /-- A GPO consumer's event output. -/
  out : Bool
  /-- TREF edge at which its running pulse began. -/
  since : Nat
  deriving DecidableEq, Repr

/-- What a bay timebase or general timer holds beside its registers (R111 to R125). -/
structure Timebase where
  /-- Source edges until the next tick. -/
  left : Nat
  /-- The prescaler's accumulator. -/
  acc : Nat
  stagedPre : Option Word
  stagedPer : Option Word
  stagedPhase : Tbl Word
  /-- STAGGER was set again and recomputes the offsets at the next wrap (R124). -/
  restagger : Bool
  /-- A RISE has been latched since the last DONE, in capture units 0 and 1 (R122). -/
  rise0 : Bool
  rise1 : Bool
  /-- The carried fraction of coarse counting in SLEEP (R125). -/
  frac : Nat
  /-- Ticks advanced at the latest LFX edge in SLEEP (R125). -/
  moved : Nat
  /-- The source edge of a wrap has come and TIMEBASE_WRAP has not; and the source edges since (log entry 2). -/
  due : Bool
  overdue : Nat
  /-- A tick has come at which the compare has not been evaluated (R119). -/
  ticked : Bool
  /-- The model's time at the latest tick, a due wrap among them, from which fine placements count (R143). -/
  tickAt : Nat
  deriving DecidableEq, Repr

/-- A TALK request in a terminal's request slot (R153 to R157). -/
structure TalkReq where
  op : Nat
  arg : Nat
  /-- Placed by the host's command or envelope command; otherwise by a steward. -/
  host : Bool
  /-- TREF count of the acceptance. -/
  accepted : Nat
  /-- Retries used. -/
  tries : Nat
  /-- An exchange of this request is running. -/
  running : Bool
  /-- TREF count of the latest exchange start. -/
  started : Nat
  /-- The running exchange is in a borrowed window. -/
  borrowed : Bool
  /-- A cancel was written during an exchange (R156). -/
  cancel : Bool
  /-- The 1 s mark has passed (R157). -/
  marked : Bool
  /-- The TREF count at which the exchange in a borrowed window is to start, while that window stands (R157). -/
  planned : Option Nat
  /-- The turnaround sample of the running exchange (R155 step 6). -/
  turnaround : Option Nat
  deriving DecidableEq, Repr

/-- What a slot is repaying: light borrowed for a TALK window or excess light of a proof, with the ticks to be repaid
over 64 periods and the periods done (R158, R182). -/
inductive Repay where
  | none
  | borrow (d n : Nat)
  | proof (e n : Nat)
  deriving DecidableEq, Repr

/-- What a half's copy of a bay has done in the current watch, of which its mirror signature is formed (R51). -/
structure Mirror where
  /-- Changes of the slots' pad command bands, the latest first: slot, band (0 REST, 1 TALK, 2 DRIVE), TREF count. -/
  edges : List (Nat × Nat × Nat)
  /-- TALK frames sent, the latest first. -/
  frames : List Word
  /-- Bits the line engine has transmitted, the latest first. -/
  bits : List Bool
  deriving DecidableEq, Repr

/-- What a pulse slot and its terminal hold in one half's copy beside their registers (R143 to R183). -/
structure Slot where
  /-- TS_ON, TS_FINE_R and TS_FINE_F in force; the registers hold the values written (R144). -/
  on : Nat
  fineR : Nat
  fineF : Nat
  /-- The previous commanded on-time (R188). -/
  prev : Nat
  /-- The commanded on-time of this period after the envelope limits (R188). -/
  cmd : Nat
  /-- The applied on-time of this period. -/
  applied : Nat
  /-- The slot commands I_ON. -/
  drive : Bool
  /-- A rise of this period is still to come. -/
  riseDue : Bool
  /-- This period's pulse is a proving pulse, and the on-time it would otherwise have had (R181, R182). -/
  proving : Option Nat
  repay : Repay
  /-- Qualifying pulses since the last one sampled (R149) and off phases since the last one probed (R150). -/
  telCount : Nat
  prbCount : Nat
  /-- A telemetry request, with the TREF edges of its earliest sample and its deadline (R149, R165). -/
  telReq : Option (Nat × Nat)
  /-- A probe request, likewise (R150). -/
  prbReq : Option (Nat × Nat)
  /-- A telemetry sample not yet committed: code, out of compliance, and the fabric time of its instant (R161). -/
  sample : Option (Nat × Bool × Nat)
  /-- The source is out of compliance; the next sample is marked NOPATH (R142). -/
  noPath : Bool
  talk : Option TalkReq
  /-- TREF edge of the latest rise, and of the start of the latest off phase. -/
  roseAt : Nat
  fellAt : Option Nat
  /-- TREF edge of the latest TALK exchange start (R153). -/
  talkAt : Option Nat
  /-- The latest LAW-class telemetry code and the latest probe code, with the fabric time of the sample (R291). -/
  lawSample : Option (Nat × Nat)
  prbSample : Option (Nat × Nat)
  /-- The model's time of the latest period start. -/
  periodAt : Option Nat
  deriving DecidableEq, Repr

/-- The current a terminal pad sources (R140); off is no current at all. -/
inductive PadLevel where
  | off
  | rest
  | talk0
  | talk1
  | on
  deriving DecidableEq, Repr

/-- A terminal pad (R48, R161, R190). -/
structure Pad where
  level : PadLevel
  /-- The trip comparator is armed: 500 ns have passed since the rise (R161). -/
  armed : Bool
  /-- A trip has cut the current and has not been cleared (R161, R162). -/
  cut : Bool
  /-- TREF edge of the pad's most recent fall from I_ON, if it has had one (R190). -/
  lastFall : Option Nat
  /-- The level latched for DEEP (R652), while it is held. -/
  latch : Option PadLevel
  /-- The TALK command frame sent in the latest exchange (R154). -/
  frame : Word
  /-- The model's time of the pad's latest rise to I_ON (R147, R161). -/
  riseAt : Nat
  /-- TS_ENV as it was at the slot's latest period start: FAILSAFE acts from there, and MAXD on a static band (R189). -/
  env : Word
  deriving DecidableEq, Repr

/-- The bay SAR and the threshold readbacks of a bay (R164, R165). -/
structure Sar where
  /-- The TREF count of the latest cycle's sample instant that has been used. -/
  done : Option Nat
  /-- The TREF count of the latest threshold readback of each converter: terminals 0 to 15, the line's voltage 16 and current
  17 (R164, R208). -/
  readAt : Tbl Nat
  /-- TREF count of the latest TALK exchange start in the bay (R153). -/
  lastTalk : Option Nat
  /-- The latest line sense codes and the fabric time of each (R291). -/
  lsv : Option (Nat × Nat)
  lsi : Option (Nat × Nat)
  deriving DecidableEq, Repr

/-- A transmit entry of a line, 0 to 7, or P as 8 (R229 to R232). -/
structure TxEntry where
  id : Nat
  ar : Bool
  len : Nat
  /-- The RATE field it was submitted with. -/
  rate : Nat
  retry : Nat
  busy : Bool
  done : Bool
  status : Nat
  cpend : Bool
  acked : Bool
  tries : Nat
  /-- Arbitration losses; LN_TXS shows 15 at most. -/
  arbl : Nat
  deferred : Bool
  /-- The order of submission (R230). -/
  order : Nat
  /-- TREF cycles the attempt has been deferred in SETTLE, and in CAL or in STOPPED after a failure (R213). -/
  settle : Nat
  cal : Nat
  deriving DecidableEq, Repr

/-- A received frame (R234, R243). -/
structure RxFrame where
  id : Nat
  ar : Bool
  robust : Bool
  ackd : Bool
  payload : List Byte
  /-- Fabric time of its SOF in ns (R236). -/
  ts : Nat
  deriving DecidableEq, Repr

/-- What a line holds in one half's copy beside its registers (R229 to R236). -/
structure Line where
  entries : Tbl TxEntry
  /-- The buffers of the entries: 64 bytes from 64 × entry on. -/
  buf : Tbl Byte
  /-- The order number of the next submission. -/
  order : Nat
  /-- The entry whose attempt is open. -/
  attempt : Option Nat
  /-- The attempt has sent its SOF; it has passed its deciding instant (R232). -/
  sof : Bool
  decided : Bool
  /-- The transmit amplitude, taken at the latest SOF or acknowledge (R204). -/
  amp : Nat
  /-- The receive FIFO, its head first (R235). -/
  fifo : List RxFrame
  /-- The outcome of entry P, until the poll scheduler has taken it (R287). -/
  pEnd : Option Nat
  deriving DecidableEq, Repr

/-- The states of a carrier synthesiser (R210). -/
inductive SynMode where
  | stopped
  | cal
  | settle
  | locked
  deriving DecidableEq, Repr

/-- A carrier synthesiser (R209 to R211). -/
structure Synth where
  mode : SynMode
  /-- The frequency in force, kHz. -/
  freq : Nat
  /-- It has been calibrated since reset. -/
  calibrated : Bool
  /-- The latest calibration failed (R210). -/
  failed : Bool
  /-- Gated items that wait: a frequency change, a calibration. -/
  pendFreq : Option Nat
  pendCal : Bool
  /-- A frequency written during CAL or SETTLE; a calibration asked for while STOPPED or in SETTLE. -/
  staged : Option Nat
  heldCal : Bool
  /-- The frequency has changed and the synthesiser has not locked since: no line of the octet decodes (R212). -/
  deaf : Bool
  deriving DecidableEq, Repr


/-- The states of a line engine (R277). -/
inductive EngMode where
  | stopped
  | idle
  | active
  | halted
  | fault
  deriving DecidableEq, Repr

/-- A receive assembly of a line engine (R259). -/
structure Assembly where
  id : Nat
  flags : Nat
  bytes : List Byte
  /-- Fabric time in ns and TREF edge of the SOF. -/
  ts : Nat
  edge : Nat
  /-- The frame is lost and counted already (R212). -/
  lost : Bool
  deriving DecidableEq, Repr

/-- A line engine in one half's copy (R248 to R265). -/
structure Engine where
  mode : EngMode
  /-- The active bank: 0 A, 1 B. -/
  bank : Nat
  pc : Nat
  /-- The link stack, the latest entry first. -/
  links : List Nat
  cells : Tbl (BitVec 16)
  tsr : BitVec 32
  rsr : BitVec 32
  crc : BitVec 32
  run : Nat
  /-- The running bit: TREF edge of its start, and its period. -/
  bit : Option (Nat × Nat)
  /-- The period of the bit running or last run (R264). -/
  lastPer : Nat
  /-- The symbol on the output, none when OFF; MOD of the bit; the raw symbol of the bit being sent. -/
  sym : Option Bool
  mod : Nat
  raw : Bool
  /-- The latest changes of the output, the newest first, with the TREF edge of each (R274). -/
  hist : List (Nat × Bool)
  /-- Periods the engine is late by: 0 on time, 1 holding, 2 off (R251). -/
  late : Nat
  /-- TREF edge and fabric time in ns of the latest selected edge (R248). -/
  edge : Option (Nat × Nat)
  /-- The level of the edge detector's input, and the TREF edge since which it stands. -/
  level : Bool
  since : Nat
  /-- The condition flags of R254 that are held. -/
  z : Bool
  c : Bool
  rxv : Bool
  mis : Bool
  stf : Bool
  ste : Bool
  crcok : Bool
  tmo : Bool
  edgeF : Bool
  txg : Bool
  rxe : Bool
  acc : Bool
  ovf : Bool
  /-- A WAIT or IDLE waits, and the TREF edge at which it began. -/
  waiting : Option Nat
  /-- One instruction is being executed by STEP; the next one is not tested against the breakpoint (R262). -/
  stepping : Bool
  skipBreak : Bool
  /-- The program has an attempt open (R258). -/
  attempt : Bool
  assembly : Option Assembly
  /-- What it was sending was aborted from outside: it drives nothing until it has done with it (R69, R206, R213). -/
  mute : Bool
  /-- A frame is being received since IDLE returned on its edge or arbitration was lost; whether it is lost already (R212). -/
  hears : Option Bool
  /-- A swap is pending: RESTART and FORCE (R263). -/
  swap : Option (Bool × Bool)
  /-- The pending swap has been reported late (R264). -/
  swapLate : Bool
  /-- TREF cycles spent stalled while the swap has been pending (R264). -/
  stalled : Nat
  /-- The staged registers' values in force, by bay offset (R261). -/
  live : Tbl Word
  /-- Staged writes wait. -/
  dirty : Bool
  deriving DecidableEq, Repr


/-- An input on its way to a bay's filter chains: entry, instant number and grid instant in ns, value or none, cause and
number of missing instants, SAT, time stamp, TSYNC (R290, R292, R310). -/
structure PInput where
  e : Nat
  kn : Nat
  at_ : Nat
  value : Option Word
  miss : Nat
  n : Nat
  sat : Bool
  ts : Nat
  tsync : Bool
  deriving DecidableEq, Repr

/-- Where a POLL stands (R287): not released, released to entry P, awaiting its reply. -/
inductive PollPhase where
  | waiting
  | released
  | awaiting
  deriving DecidableEq, Repr

/-- A POLL, or an IDENT request, of a bay (R286, R311). -/
structure Poll where
  ident : Bool
  /-- Its instant in ns. -/
  at_ : Nat
  node : Nat
  prio : Nat
  /-- Entry, node channel and instant number of each channel asked for. -/
  parts : List (Nat × Nat × Nat)
  /-- Re-polls used (R288). -/
  tries : Nat
  phase : PollPhase
  /-- TREF edge of the end of its ACK slot. -/
  ackEnd : Nat
  deriving DecidableEq, Repr

/-- A filter chain (R294). Inputs enter less the first present input since the reset, so that all-zero sums stand for
that input at every earlier instant (R297). -/
structure FilterChain where
  /-- The set: 0 to 4 Gill to Firkin, 5 C0, 6 C1, 7 NONE (R295, R318). -/
  set : Nat
  k : Nat
  logD : Nat
  coef : List Int
  base : Option Int
  integ : List Int
  comb : List Int
  hist : List Int
  /-- Outputs since the reset. -/
  outs : Nat
  /-- Inputs since the latest one with SAT, and since the latest held one. -/
  sat : Option Nat
  subst : Option Nat
  deriving DecidableEq, Repr

/-- A poll entry with its chains (R282, R284, R297 to R299, R315). -/
structure PollEntry where
  /-- The words committed latest, under which instants fall due. -/
  w0 : Word
  w1 : Word
  w2 : Word
  /-- Words 0 and 1 as the inputs taken so far have them: inputs of before a commit are taken under the words of before it. -/
  v0 : Word
  v1 : Word
  /-- Commits that no input has been taken under yet: words 0 and 1, and the first instant under them in ns. -/
  newer : List (Word × Word × Nat)
  raw : Word
  filt : Word
  miss : Nat
  sat : Bool
  subst : Bool
  settle : Bool
  tsync : Bool
  seq : Nat
  missed : Nat
  /-- The next instant at which it takes an input, and the last one at which it did, in ns. -/
  due : Nat
  took : Option Nat
  /-- Fabric time of the source sample used last (R291). -/
  srcAt : Option Nat
  /-- Missing inputs in a row, and the last present input (R297). -/
  run : Nat
  last : Int
  chain : FilterChain
  /-- A chain that waits for its first output without SETTLE (R298). -/
  next : Option FilterChain
  /-- A cross-fade: the coefficients it leaves and the outputs done; the coefficients that wait for its end (R299). -/
  fade : Option (List Int × Nat)
  after : Option (Nat × List Int)
  /-- The next output is the first of a reset or changed chain (R325). -/
  chg : Bool
  deriving DecidableEq, Repr

/-- The header and coefficients of a custom filter set (R300). -/
structure FirSet where
  k : Nat
  logD : Nat
  coef : Tbl Word
  deriving DecidableEq, Repr

/-- A custom filter set: in force, and a commit that is held (R299, R300). -/
structure CustomSet where
  now : FirSet
  held : Option FirSet
  deriving DecidableEq, Repr

/-- A bay's pipeline in one half's copy (R287, R300, R310). -/
structure BayPipe where
  queue : List PInput
  /-- Inputs lost at a full queue and not yet recorded. -/
  lost : List PInput
  /-- Inputs that wait for those of earlier instants of their entries, and gaps that found the queue full (R289, R293). -/
  held : List PInput
  polls : List Poll
  set0 : CustomSet
  set1 : CustomSet
  deriving DecidableEq, Repr

/-- A recogniser in one half's copy (R301 to R305, R319). -/
structure Recog where
  cfg : Word
  a : Word
  b : Word
  pc : Word
  active : Bool
  n : Nat
  /-- Present samples since the last reset or missing sample, the latest first, at most 15. -/
  hist : List Int
  ref : Option Int
  pend : Bool
  hits : Nat
  lastV : Word
  lastT : Nat
  /-- The grid instant of the latest missing sample (R305). -/
  missAt : Nat
  deriving DecidableEq, Repr


/-- The coding settings of a sample item, as they stood when it entered its engine (R325, R331 to R334). -/
structure CodeSet where
  e : Nat
  order : Nat
  thin : Bool
  b : Nat
  sgn : Bool
  /-- Nominal spacing in ns. -/
  step : Nat
  /-- EXPLICIT time (R333). -/
  explicit : Bool
  deriving DecidableEq, Repr

/-- A sample item in an engine's queue (R324). -/
structure Item where
  chan : Nat
  /-- The value, or none where the instants are missing. -/
  value : Option Word
  /-- The cause of missing instants and how many they are (R290). -/
  miss : Nat
  n : Nat
  /-- SAT, SUBST, SETTLE, TSYNC as bits 3 to 0 (R329). -/
  flags : Nat
  /-- Fabric time in ns, of the first instant of a run. -/
  ts : Nat
  set : CodeSet
  /-- A chain was reset or changed at this item (R284, R298, R325). -/
  chg : Bool
  /-- It stands for items lost at a full queue, and takes no place in it (R324). -/
  gone : Bool
  /-- TREF edge at which it entered (R326). -/
  enter : Nat
  deriving DecidableEq, Repr

/-- A record in an engine's queue (R336, R337). -/
structure Rec where
  chan : Nat
  rtype : Nat
  payload : List Byte
  /-- Fabric time at which it entered the engine, in ns. -/
  ts : Nat
  /-- Records of the channel lost at a full queue before this one (R324). -/
  dropped : Nat
  /-- TREF edge at which it entered (R326). -/
  enter : Nat
  deriving DecidableEq, Repr

/-- A bushel of a channel, open or sealed and not committed (R325 to R338). -/
structure Bushel where
  chan : Nat
  seq : Nat
  /-- The body holds records. -/
  records : Bool
  chg : Bool
  tko : Bool
  flush : Bool
  full : Bool
  t0 : Nat
  set : CodeSet
  k0 : Nat
  flags0 : Nat
  /-- The bits of the body, the latest first. -/
  rbits : List Bool
  /-- TREF edge of its seal deadline (R326). -/
  deadline : Nat
  /-- Time of the latest item. -/
  last : Nat
  /-- The Rice coders of values and of times (R332, R333). -/
  k : Nat
  acc : Nat
  kt : Nat
  acct : Nat
  /-- Reconstructed values, the latest first, at most two (R331). -/
  hist : List Int
  /-- The flag state, none before the first present value (R329). -/
  flags : Option Nat
  /-- The latest time coded in EXPLICIT mode (R333). -/
  tprev : Int
  /-- A missing run not written yet: cause, instants, time of the first (R329). -/
  run : Option (Nat × Nat × Nat)
  /-- Present values since the last knot, the latest first; the first of them is the candidate (R334). -/
  seg : List Int
  /-- RAW items written and not yet counted (R351). -/
  raws : Nat
  deriving DecidableEq, Repr

/-- A compression engine of a half (R323, R324, R343). -/
structure Coder where
  samples : List Item
  records : List Rec
  /-- Sealed bushels that wait for a full seal queue. -/
  waiting : List Bushel
  deriving DecidableEq, Repr

/-- What the coding of a half holds beside its engines: sealed bushels in the seal queue and not yet committed, the
oldest first, and the input and sealed bytes of the current watch (R343, R350). Input is counted in halves of a byte. -/
structure CodeHalf where
  out : List Bushel
  input : Nat
  sealedBytes : Nat
  deriving DecidableEq, Repr

/-- A channel's own coding state (R338). -/
structure Chan where
  /-- The next sequence number. -/
  seq : Nat
  /-- The Rice parameter at the end of the previous bushel (R327). -/
  k0 : Nat
  /-- The next bushel has CHG or TKO set (R325). -/
  chg : Bool
  tko : Bool
  /-- The half that coded the latest bushel, once there is one, and the settings it was coded under. -/
  coder : Option Half
  set : CodeSet
  /-- The time of the last item of the latest bushel that reached the archive. -/
  reached : Nat
  /-- The SEQ of a bushel that never reached the archive (R338). -/
  lost : Option Nat
  /-- Records lost at a full queue and not reported (R324). -/
  dropped : Nat
  /-- How often the channel's coding had moved or been interrupted when its latest bushel opened (R307, R338). -/
  gaps : Nat
  deriving DecidableEq, Repr

/-- The settings of a channel in one half's copy: words 0 and 1 in force (R345). -/
structure ChanCfg where
  w0 : Word
  w1 : Word
  deriving DecidableEq, Repr


/-- An entry of the metrology die's event log (R365), with the order in which it was written. -/
structure LogEntry where
  ord : Nat
  msec : Nat
  code : Nat
  detail : Nat
  chg : Nat
  data : List Byte
  deriving DecidableEq, Repr

/-- A copy of the MRAM block (R359): registers in whole units, MSEC, tariff, copy counter. -/
structure MetCopy where
  energy : Tbl Nat
  msec : Nat
  tariff : Nat
  ctr : Nat
  deriving DecidableEq, Repr

/-- A record of the metrology die, prefix included (R380, R381). -/
structure MetRec where
  rtype : Nat
  payload : List Byte
  deriving DecidableEq, Repr

/-- What a frame on the data lane carries (R371): samples of an input, a span of samples the die dropped, a record, or
nothing where the die dropped the record. -/
inductive MetBody where
  | samples (input preset tick : Nat) (values : List Word)
  | lost (input preset tick n : Nat)
  | record (r : MetRec)
  | empty
  deriving DecidableEq, Repr

/-- A frame sent and not acknowledged. -/
structure MetFrame where
  seq : Nat
  body : MetBody
  deriving DecidableEq, Repr

/-- A STATUS frame (R371). -/
structure MetStatus where
  ticks : Nat
  msec : Nat
  unsealed : Bool
  merr : Bool
  tariff : Nat
  /-- Serial and REASON of the latest command. -/
  result : Option (Nat × Nat)
  rej : Nat
  sdrop : Nat
  rdrop : Nat
  chg : Nat
  starts : Nat
  logFull : Bool
  /-- Unacknowledged bytes of the two buffers, in units of 256. -/
  sbuf : Nat
  rbuf : Nat
  deriving DecidableEq, Repr

/-- A request for records that the die has accepted (R375): a READ with type, source and TAG, or the entries left of a
LOGREAD. -/
inductive MetReq where
  | read (rtype source tag : Nat)
  | log (index count : Nat)
  deriving DecidableEq, Repr

/-- The metrology die (R352 to R383). -/
structure Meter where
  /-- VMET is present and the die has started. -/
  on : Bool
  /-- The final block of the latest power-down was written (R359, R361). -/
  saved : Bool
  msec : Nat
  /-- The energy registers, in millionths of a unit: 24 f + 4 q + ph, then 192 + 8 f + 2 T + direction (R355). -/
  energy : Tbl Nat
  /-- Energy booked in the report interval of POWER, in the units of `energy`: 2 × current channel, plus 1 for reactive; and the
  MSEC at which the interval began (R356). -/
  bookedNow : Tbl Int
  bookedFrom : Nat
  tariff : Nat
  nextTariff : Option Nat
  copyA : Option MetCopy
  copyB : Option MetCopy
  /-- Parameters in force, those committed for the next second, and those staged, by ID (R363, R364). -/
  params : Tbl Nat
  committed : Option (Tbl Nat)
  staged : Tbl Nat
  chg : Nat
  log : Tbl LogEntry
  /-- Entries written since manufacture. -/
  logged : Nat
  unsealed : Bool
  /-- Self-tests that are failing (R368). -/
  fails : List Nat
  /-- Voltage channels reported lost (R365). -/
  lostPhases : List Nat
  starts : Nat
  /-- The page a DISPLAY command selected and the MSEC at which it came; display frames since the list stepped; the place
  in the list; the latest display frame (R369). -/
  page : Option (Nat × Nat)
  shown : Nat
  place : Nat
  display : List Byte
  /-- Energy not yet given as pulses, in units of R370's count times 10^-12, and pulses given. -/
  pulseP : Nat
  pulseQ : Nat
  pulsesP : Nat
  pulsesQ : Nat
  /-- Stream presets by input, report interval codes by RTYPE, and those for the next second (R375, R382). -/
  streams : Tbl Nat
  intervals : Tbl Nat
  nextIntervals : List (Nat × Nat)
  /-- Records generated and not sent, requests not answered, frames not acknowledged, the number of the latest frame. -/
  due : List MetRec
  reqs : List MetReq
  unacked : List MetFrame
  seq : Nat
  /-- How many of the unacknowledged frames have reached the receiver since they were last sent. -/
  arrived : Nat
  /-- A resend has begun and the receiver has not seen it (R371). -/
  resent : Bool
  /-- The die's own counters, and what it dropped since its latest MDROP (R371, R372). -/
  rej : Nat
  sdrop : Nat
  rdrop : Nat
  dropped : Nat × Nat
  /-- Serial and REASON of the latest command. -/
  result : Option (Nat × Nat)
  /-- The STATUS frame on its way, and the command frame on its way. -/
  status : Option MetStatus
  command : Option (List Byte)
  /-- The latest answer on the calibration port: CMD, status, data (R364). -/
  answer : Option (Nat × Nat × List Byte)
  deriving DecidableEq, Repr

/-- The main die's end of the metrology link (R371 to R376, R388 to R391). -/
structure MetLink where
  /-- The number of the last frame accepted. -/
  accepted : Nat
  /-- The latest STATUS frame, and the TREF edge of its arrival. -/
  last : Option MetStatus
  lastAt : Nat
  /-- Tick counts and fabric times of the last 1,024 STATUS frames, the latest first (R373). -/
  latches : List (Nat × Nat)
  /-- TREF edge at which the command awaiting its result was sent. -/
  sentAt : Nat
  /-- The latest records by 256 × (RTYPE − 0x20) + SOURCE: SEQ and payload (R390). -/
  window : Tbl (Nat × List Byte)
  deriving DecidableEq, Repr


/-- A bushel committed to the ring (R399). Positions count bytes since the format: LAP × C + offset. -/
structure Landed where
  pos : Nat
  /-- The half whose engine committed it, none for a replica. -/
  half : Option Half
  /-- Fabric time of the commit in ns. -/
  ts : Nat
  bytes : List Byte
  deriving DecidableEq, Repr

/-- Who asked the archive for a read operation (R407): a steward of a half, a command port's command, a peer. -/
inductive ArcSource where
  | steward (h : Half)
  | port (p : Nat)
  | peer (addr rid : Nat)
  deriving DecidableEq, Repr

/-- A read operation asked of the archive (R407): OP, parameters of R417. -/
structure ArcReq where
  src : ArcSource
  op : Nat
  /-- Offset, or fabric time for FIND. -/
  arg : Nat
  /-- Length, or channel for FIND. -/
  parm : Nat
  origin : Nat
  dst : Nat
  deriving DecidableEq, Repr

/-- An origin of replicas (R410), with the position of its last acknowledged replica as (LAP, offset). -/
structure Origin where
  uid : Nat
  addr : Nat
  lap : Nat
  off : Nat
  deriving DecidableEq, Repr

/-- The archive controller with its MRAM and the NAND behind it (R392 to R417). -/
structure Archive where
  /-- The MRAM holds archive state (R706). -/
  formatted : Bool
  /-- Geometry of the accepted NAND: chip enables, page bytes, pages per block. -/
  ces : Nat
  page : Nat
  pages : Nat
  /-- The physical block of each slot, the spares, and the dead slots (R395, R396). -/
  map : List Nat
  spares : List Nat
  dead : List Nat
  /-- Positions (R398); the pages before prog have been programmed. -/
  head : Nat
  tail : Nat
  safe : Nat
  prog : Nat
  rptr : Nat
  /-- The bushels that can be read or still lie in the landing ring, the oldest first. -/
  landed : List Landed
  /-- The page being programmed, as a position recorded in MRAM (R400). -/
  programming : Option Nat
  /-- The slot being erased, as a position of its start, and the position up to which slots are erased (R401). -/
  erasing : Option Nat
  erased : Nat
  /-- Slots queued for refresh, each with whether a codeword of it failed (R394, R396). -/
  refresh : List (Nat × Bool)
  /-- The copy of a slot to a spare that runs: slot, whether a codeword of it failed, spare (R396). -/
  copying : Option (Nat × Bool × Nat)
  /-- Requests in arrival order; the first is being served (R407). -/
  requests : List ArcReq
  /-- Replicas sent and not acknowledged: position and TREF edge of the latest sending (R408). -/
  sent : List (Nat × Nat)
  /-- Replicas acknowledged before an older one. -/
  acked : List Nat
  /-- The partner refused (R409). -/
  stalled : Bool
  /-- The origins of indices 1 to 4. -/
  origins : Tbl Origin
  deriving DecidableEq, Repr


/-- The states of a link (R422). -/
inductive LinkMode where
  | down
  | locking
  | locked
  | up
  | loop
  deriving DecidableEq, Repr

/-- What a link sends: packets, and the control blocks of R421. -/
inductive LinkOut where
  | packet (p : Packet)
  /-- A copy whose CRC is sent inverted (R426). -/
  | spoiled (p : Packet)
  | sync (kind seq : Nat)
  | stamps (seq t1 t4 : Nat)
  | role (code seq reason : Nat)
  deriving DecidableEq, Repr

/-- A link of the router beside its registers (R419 to R440). Roles are 0 NONE, 1 PARENT, 2 CHILD. -/
structure Link where
  mode : LinkMode
  /-- TREF edges of the latest valid HELLOs, the newest first, at most three. -/
  hellos : List Nat
  /-- What the neighbour's latest HELLO said: link number, role, TSYNC, its root's VALID, TPRIO, UID, ROOT_SEQ and
  distance. -/
  nlink : Nat
  nrole : Nat
  ntsync : Bool
  nvalid : Bool
  ntprio : Nat
  nroot : Nat
  nseq : Nat
  ndist : Nat
  /-- TREF edge at which the reported root's ROOT_SEQ last advanced (R437). -/
  rootAt : Option Nat
  role : Nat
  /-- HELLO intervals in a row for which the rule of R438 has given the other assignment. -/
  wrong : Nat
  /-- The outstanding swap request: its SEQ and TREF edge (R439). -/
  req : Option (Nat × Nat)
  roleSeq : Nat
  /-- A back-off after a collision, with the TREF edge of its end. -/
  backoff : Option Nat
  /-- Firmware's request still stands. -/
  fwReq : Bool
  /-- Credits in units of 64 bytes for classes 0 to 3 (R425), and credits returned to the neighbour. -/
  credit : Tbl Nat
  returned : Tbl Nat
  /-- Packets that wait, in arrival order, with the TREF edge since which each has stood at the head of its class. -/
  queue : List (Packet × Nat)
  /-- The latest exchange: SEQ, t1 or t2, t3 in ns (R440). -/
  seq : Nat
  t12 : Nat
  t3 : Nat
  /-- Exchanges done under the present roles. -/
  fresh : Nat
  /-- The latest item the link has sent. -/
  sent : Option LinkOut
  deriving DecidableEq, Repr

/-- An entry of the route table (R431): STATE 0 EMPTY, 1 REACH, 2 GONE, 3 SELF. -/
structure Route where
  mode : Nat
  owner : Nat
  metric : Nat
  next : Nat
  /-- The alternate link and its metric. -/
  alt : Option (Nat × Nat)
  /-- TREF edge of the latest change. -/
  changed : Nat
  deriving DecidableEq, Repr

/-- The router beside its links and registers (R428 to R447). -/
structure Router where
  /-- Candidates that go before the hashed ones, and the number of the candidate being tried (R428). -/
  prefs : List Nat
  cand : Nat
  /-- TREF edge since which the candidate stands without a conflict, or since which no address is left. -/
  since : Nat
  /-- The claim SEQ of this device. -/
  claimSeq : Nat
  /-- Claims seen: UID, SEQ, TREF edge (R426). -/
  seen : List (Nat × Nat × Nat)
  /-- Pages of the route table that changed and were not sent since (R432). -/
  dirty : List Nat
  /-- The root: UID, VALID, TPRIO (R437). -/
  rootUid : Nat
  rootValid : Bool
  rootPrio : Nat
  /-- ROOT_SEQ of this device's own HELLOs. -/
  rootSeq : Nat
  /-- The time parent, its latest valid exchange and the TREF edge since which it has reported TSYNC = 0 (R441). -/
  parent : Option Nat
  exchangeAt : Nat
  offSince : Option Nat
  /-- Exchanges in a row within 100 ns, and beyond 1,000 ns (R440, R441). -/
  good : Nat
  far : Nat
  /-- The alarm sequence number (R444), the suppression cache with its counts, and the keys freed (R445). -/
  alarmSeq : Nat
  cache : List (AlarmKey × Nat)
  freed : List AlarmKey
  /-- Packets of the device's own that wait for injection, with the activity they are charged to (R426, R444). -/
  inject : List (Nat × Packet)
  /-- TREF edge at which each page was sent last on each link, by 4 × link + page (R432). -/
  pageAt : Tbl Nat
  /-- Tag numbers of routed commands and replicas. -/
  cmdTag : Nat
  deriving DecidableEq, Repr


/-- The states of a steward (R492). -/
inductive StewMode where
  | stopped
  | running
  | waiting
  | halted
  | lockup
  deriving DecidableEq, Repr

/-- A steward core, S0 to S7 as 0 to 7 and the VC as 8 (R458). -/
structure Steward where
  mode : StewMode
  pc : Word
  /-- The instruction executed last (R493). -/
  last : Word
  /-- w1 to w15 by number; w0 reads 0 (R458). -/
  w : Tbl Word
  acc : BitVec 48
  /-- Control registers by number, but for those another field holds (R461). -/
  cr : Tbl Word
  /-- The address of the reservation held, if one is (R479). -/
  rsv : Option Word
  /-- A load whose delay instruction has not been executed: destination and value (R470). -/
  load : Option (Nat × Word)
  /-- The interrupt controller's stack for this steward: the running priority saved and the source (R532). -/
  stack : List (Nat × Nat)
  /-- The running priority, 16 at base (R529). -/
  runPri : Nat
  /-- A run bit was cleared or a halt asked for and the next permitted boundary has not come (R487, R491). -/
  stopDue : Bool
  haltDue : Option Nat
  /-- The instruction after a RESUME or STEP is not tested against the breakpoints (R487). -/
  skipBreak : Bool
  /-- A single step is being executed from debug halt (R487). -/
  stepping : Bool
  deriving DecidableEq, Repr


/-- Who asked for a boot flash operation (R507, R508, R616): a half through its BF_ block or its BFX_ block, a command
port's command, or one whose result is discarded because the half was reset (R513). -/
inductive FlashSource where
  | own (h : Half)
  | cross (h : Half)
  | port (p : Nat)
  | gone
  deriving DecidableEq, Repr

/-- A boot flash operation (R507): OP, flash byte address, bytes, data-memory address, and the bytes a command brings. -/
structure FlashOp where
  src : FlashSource
  op : Nat
  addr : Nat
  len : Nat
  dst : Nat
  data : List Byte
  deriving DecidableEq, Repr

/-- The OTP store (R506): key hashes programmed in the field, fuses, MINSVN, DBG_OFF. Slot 0 holds the factory's hash. -/
structure Otp where
  keys : Tbl (List Byte)
  prog : BitVec 4
  revoked : BitVec 4
  minSvn : Nat
  dbgOff : Bool
  deriving DecidableEq, Repr

/-- The envelope lock (R514 to R516): the valid nonce of each path, CPA and CPB as 0 and 1 and a fabric source a as 2 + a,
the TREF edge at which the path's latest was given, that of the latest envelope command of the open session, and that at which
the backoff began. -/
structure EnvLock where
  nonces : Tbl Nat
  issued : Tbl Nat
  last : Nat
  backoffAt : Nat
  deriving DecidableEq, Repr


/-- A command taken by a port (R586). Parameters are those after LEN, the target's address included in a routed one. -/
structure Cmd where
  op : Nat
  tag : Nat
  routed : Bool
  params : List Byte
  /-- For a command that came over the fabric: the origin's address and the TAG of its packet (R600). -/
  origin : Option (Nat × Nat)
  deriving DecidableEq, Repr

/-- A command port, CPA as 0 and CPB as 1; number 2 is the shared queue of commands routed to this device (R600). -/
structure Port where
  queue : List Cmd
  /-- The local command being executed (R591). -/
  exec : Option Cmd
  /-- It has begun and awaits the end of an operation; the outcome a block has given it: status and results. -/
  begun : Bool
  result : Option (Nat × List Byte)
  replies : List (List Byte)
  /-- The reply the last FETCH removed (R593). -/
  removed : Option (List Byte)
  alarms : List (List Byte)
  /-- An alarm was dropped since the last ALARMS transaction (R596). -/
  dropped : Bool
  nak : Bool
  /-- Quick registers LAST and LASTX: ST_ code, opcode, bytes, tag (R596). -/
  lastSt : Nat
  lastOp : Nat
  lastCount : Nat
  lastTag : Nat
  /-- The time a PEEK of 0x11 latched (R597). -/
  latch : Nat
  /-- The bytes the device drove in the latest transaction. -/
  out : List Byte
  /-- Routed commands outstanding, with the TAG of the packet and the TREF edge of its sending (R591). -/
  routed : List (Cmd × Nat × Nat)
  deriving DecidableEq, Repr



/-- A two-wire bus block beside its registers (R622 to R628). -/
structure TwBus where
  /-- The controller buffer. -/
  buf : Tbl Byte
  /-- The transfer that runs: WLEN, RLEN, HOLD; and whether it waits for the bus. -/
  run : Option (Nat × Nat × Bool)
  waits : Bool
  /-- The bus is kept with SCL low under HOLD. -/
  held : Bool
  /-- The receive FIFO, its head first: byte, address index, FIRST. -/
  rx : List (Byte × Nat × Bool)
  tx : List Byte
  /-- The address index matched in the transaction in progress, and whether it is a read. -/
  target : Option (Nat × Bool)
  /-- The next byte is the first after the address. -/
  first : Bool
  /-- A byte that waits for room in the receive FIFO, SCL stretched. -/
  stuck : Option Byte
  /-- SCL is stretched for want of a byte to send. -/
  starved : Bool
  /-- The bytes the block drove in the latest transaction. -/
  sent : List Byte
  deriving DecidableEq, Repr

/-- The PMBus sequencer of TW7 (R629): the latest group command and whether both regulators acknowledged it. -/
structure Pmbus where
  sent : List Byte
  acked : Bool
  /-- VOUT_MODE has been read from each regulator since EN was set (R629). -/
  modesRead : Bool
  deriving DecidableEq, Repr


/-- The power states between which the device moves (R644); IDLE is RUN with both halves idle. -/
inductive PwrMode where
  | run
  | sleep
  | deep
  | off
  deriving DecidableEq, Repr

/-- The power controller and the outside facts it holds (R635 to R660). -/
structure Power where
  mode : PwrMode
  /-- An entry in progress towards a mode (R646). -/
  entering : Option PwrMode
  /-- TREF edge at which it was asked for. -/
  enteredAt : Nat
  /-- The half whose steward asked for the entry in progress, if a steward did. -/
  requester : Option Half
  /-- The step of a return in progress (R651). -/
  returning : Option Nat
  /-- WAKE_N is low; the WAKE_N edge latch (R648). -/
  wakeLow : Bool
  edgeLatch : Bool
  /-- A wake consumer of the event matrix asks for RUN (R544). -/
  matrixWake : Bool
  /-- A transaction on CPA or CPB asks for RUN (R601); the VC does (R650); a brown-out does (R655). -/
  portWakeA : Bool
  portWakeB : Bool
  vcWake : Bool
  brownWake : Bool
  /-- PFAIL_N is asserted, after its filter (R657). -/
  pfail : Bool
  /-- The Vigil regulator is in full mode (R654). -/
  fullMode : Bool
  /-- XREF runs; LFX has run for 100 ms (R638 to R640). -/
  xref : Bool
  lfx : Bool
  /-- XREF was lost in RUN and has not returned (R639). -/
  xrefGone : Bool
  /-- VAON is in range (R636). -/
  vaon : Bool
  /-- RESET_N is low (R642). -/
  resetLow : Bool
  /-- The core regulators are confirmed at the profile voltage (R651). -/
  regConfirmed : Bool
  /-- GP pins latched for DEEP: direction and level of each (R652). -/
  gpLatch : Option (BitVec 32 × BitVec 32)
  /-- The straps as sampled: TEST_N, XREF_MODE (R678). -/
  testN : Bool
  xrefMode : Bool
  /-- Time counted and not yet a unit of PWR_RES, in 1/12,500,000 of one (R656). -/
  resFrac : Nat
  /-- Time since the latest LFX edge, in 1/64 of a TREF edge (R29). -/
  lfxPhase : Nat
  deriving DecidableEq, Repr

/-- The instructions of the test access port (R683). -/
inductive JtagInstr where
  | extest
  | sample
  | idcode
  | clamp
  | highz
  | debug
  | bypass
  deriving DecidableEq, Repr

/-- The IEEE 1149.1 port (R683 to R686): its instruction, the boundary register's cells by number, what its input cells
captured last, one for each ball in order, and the word its data register gave last. -/
structure Jtag where
  instr : JtagInstr
  cells : BitVec 3363
  seen : BitVec 1121
  out : BitVec 32
  deriving DecidableEq, Repr

/-- Why the machine stops with a fault. No command of the spec stops the device; a term whose operands lie outside the range
that its row admits is none of its commands. -/
inductive Fault where
  /-- Raised by the meaning of a command on an ill-formed term of it (`Instr.wf`). Safe: the device has no such command. -/
  | illFormed
  deriving DecidableEq, Repr

/-- Why the model refuses a command. -/
inductive Refusal where
  /-- The command has no meaning in the model. Safe. -/
  | notModelled (mnemonic : String)
  deriving DecidableEq, Repr

/-- The whole device. -/
structure State where
  /-- The registers that hold a value of their own, by register key; an unlisted one holds its reset value (R9). -/
  regs : Tbl Word
  /-- Words written to the lower words of wide registers and not committed, by master and register (R12, R13). -/
  staging : Tbl Word
  /-- Words latched by a read of a wide register's lowest word, by master and register (R12, R13). -/
  snaps : Tbl Word
  /-- The seat of each bay: 0 Half A, 1 Half B (R22, R49). -/
  seats : BitVec 64
  /-- The orphaned bays, as SEAT_ORPH shows them (R46, R47, R50). -/
  orphans : BitVec 64
  /-- How often the coding of each bay's channels, and of the metrology channels under number 64, has moved to the other half
  or been interrupted while the bay was orphaned (R307, R338). -/
  gaps : Tbl Nat
  /-- The run-owner latches, laid out as DEV_SHR (R26, R42). -/
  owners : Word
  /-- Half A. -/
  halfA : HalfState
  /-- Half B. -/
  halfB : HalfState
  /-- The referee and the live driver paths. -/
  referee : Referee
  /-- The profile in force (R95). -/
  profile : Profile
  /-- The target of a profile change in progress (R96). -/
  profileTarget : Option Profile
  /-- The model's measure of time, in TREF periods of 5 ns. -/
  tref : Nat
  /-- How much of tref passed while TREF stood still; the rest is the count of TREF edges. -/
  stood : Nat
  /-- The TREF count at which TREF locked latest (R164, R165). -/
  lockAt : Nat
  /-- TREF is locked and running (R29, R639). -/
  trefRuns : Bool
  /-- The consumers of the event matrix, by number (R544). -/
  consumers : Tbl Consumer
  /-- The timebases: bays of Half A's copy at 0 to 63, of Half B's at 64 to 127, general timers at 128 to 135. -/
  timebases : Tbl Timebase
  /-- The slots: terminals 0 to 1,023 of Half A's copy, then those of Half B's. -/
  slots : Tbl Slot
  /-- The terminal pads, by terminal. -/
  pads : Tbl Pad
  /-- The bay SARs, by bay. -/
  sars : Tbl Sar
  /-- What the copies of the bays have done in this watch: those of Half A at 0 to 63, of Half B at 64 to 127. -/
  mirrors : Tbl Mirror
  /-- Fabric time in units of 2^-32 ns, 60 integer bits (R436). -/
  fabricTime : Nat
  /-- The data memory of the halves: address, plus 2^19 for Half B (R560). -/
  banks : Tbl Word
  /-- Words of data memory in error: 1 a single bit, 2 uncorrectable (R564). -/
  bankMarks : Tbl Nat
  /-- The instruction memories: address, plus 2^18 for Half B (R567). -/
  imem : Tbl Word
  /-- Words of instruction memory in error (R564). -/
  imemMarks : Tbl Nat
  /-- The Vigil memory (R571). -/
  vmem : Tbl Word
  /-- Words of Vigil memory in error (R572). -/
  vmemMarks : Tbl Nat
  /-- The lines: bays of Half A's copy at 0 to 63, of Half B's at 64 to 127. -/
  lines : Tbl Line
  /-- The carrier synthesisers, by octet. -/
  synths : Tbl Synth
  /-- Lines whose current comparator is blanked (R205). -/
  lineBlanked : BitVec 64
  /-- The model's own count of the free values taken so far; no rule of the spec rests on it. -/
  freeCount : Nat
  /-- The line engines, numbered as the lines. -/
  engines : Tbl Engine
  /-- The engines' program banks: 512 words for each copy, bank A first. -/
  progs : Tbl (BitVec 32)
  /-- The poll entries: 256 × the copy's number + entry, copies numbered as the timebases of bays (R282). -/
  pollEntries : Tbl PollEntry
  /-- The bays' pipelines: bays of Half A's copy at 0 to 63, of Half B's at 64 to 127. -/
  pipes : Tbl BayPipe
  /-- The recognisers: 64 × the copy's number + local number (R301). -/
  recogs : Tbl Recog
  /-- The compression engines: 0 to 3 of Half A, 4 to 7 of Half B. -/
  coders : Tbl Coder
  /-- The coding of each half beside its engines, by the half's number. -/
  codeHalves : Tbl CodeHalf
  /-- The channels' coding state, by channel number. -/
  chans : Tbl Chan
  /-- The channels' settings: channel numbers of Half A's copy, plus 2^16 for Half B's. -/
  chanCfgs : Tbl ChanCfg
  /-- The open bushels: channel number of those of Half A, plus 2^16 for those of Half B. -/
  bushels : Tbl Bushel
  /-- The metrology die. -/
  meter : Meter
  /-- The receiving end of the metrology link, in the shared block. -/
  metLink : MetLink
  /-- The archive controller, its MRAM and the NAND behind it. -/
  archive : Archive
  /-- The fabric links, 0 to 7. -/
  links : Tbl Link
  /-- The route table, by fabric address. -/
  routes : Tbl Route
  /-- Offers: 8 × address + link, to the reported metric and the TREF edge it came at (R433). -/
  offers : Tbl (Nat × Nat)
  /-- The fabric router beside its links, routes and registers. -/
  router : Router
  /-- The stewards S0 to S7 and the VC as number 8. -/
  stewards : Tbl Steward
  /-- The boot flashes: byte address, plus 2^24 for BFB; an unlisted byte is erased, 0xFF (R496). -/
  flash : Tbl Byte
  /-- The operations of the boot flash ports, by flash, the one that runs first (R507). -/
  flashOps : Tbl (List FlashOp)
  /-- The OTP store. -/
  otp : Otp
  /-- The envelope lock. -/
  envLock : EnvLock
  /-- The VC image is to be loaded by the next half that boots (R509). -/
  vcDue : Bool
  /-- A VC image load that runs: flash and slot (R510). -/
  vcLoading : Option (Nat × Nat)
  /-- ENTRY of the VC image loaded last (R509, R655). -/
  vcEntry : Word
  /-- The command ports, and as number 2 the queue of routed commands. -/
  ports : Tbl Port
  /-- The two-wire buses, 0 to 7. -/
  twBuses : Tbl TwBus
  /-- The PMBus sequencer of TW7. -/
  pmbus : Pmbus
  /-- The power controller. -/
  power : Power
  /-- The levels at the general pins, as synchronised (R679). -/
  gpPins : BitVec 32
  /-- The IEEE 1149.1 port. -/
  jtag : Jtag
  /-- The commands that are waiting, the next one first. -/
  pending : List Instr
  deriving DecidableEq, Repr

def Budget.reset : Budget := ⟨[], [], [], [], [], [], [], none⟩

def Defaults.reset : Defaults := ⟨.noon, .noon, .noon, .noon⟩

/-- A half right after a power-on reset: in half reset, until its supply recovers (R643). -/
def HalfState.reset : HalfState where
  supplyOk := true
  inReset := true
  held := false
  booting := false
  romWait := false
  bootCause := 1
  beatSeen := false
  beatSynced := false
  yielded := false
  bootWait := true
  synced := 0
  selfStuck := false
  cold := true
  budget := Budget.reset
  defaults := Defaults.reset
  defaultsDue := false
  nextXcfg := none
  confirmDue := false
  latched := []
  active := []

def Referee.reset : Referee where
  disagreed := 0
  question := []
  termPath := BitVec.allOnes 512 ++ (0 : BitVec 512)
  pathWaits := 0
  linePath := 0xFFFFFFFF00000000#64

/-- The owner of a consumer after reset (R556): 0 Half A, 1 Half B, 2 host. -/
def Consumer.resetOwner (c : Nat) : Nat :=
  if c < 64 then (if c < 32 then 0 else 1)
  else if c < 72 then (if c < 68 then 0 else 1)
  else if c < 104 then (if c < 88 then 0 else 1)
  else if c < 136 then (if c < 120 then 0 else 1)
  else 0

def Consumer.reset (c : Nat) : Consumer where
  owner := Consumer.resetOwner c
  secure := false
  moved := false
  en := false
  pw := 0
  mode := 0
  busy := false
  pend := false
  drop := 0
  enables := 0
  out := false
  since := 0

def Timebase.reset : Timebase := ⟨0, 0, none, none, [], false, false, false, 0, 0, false, 0, false, 0⟩

def Mirror.reset : Mirror := ⟨[], [], []⟩

def Slot.reset : Slot where
  on := 0
  fineR := 0
  fineF := 0
  prev := 0
  cmd := 0
  applied := 0
  drive := false
  riseDue := false
  proving := none
  repay := .none
  telCount := 0
  prbCount := 0
  telReq := none
  prbReq := none
  sample := none
  noPath := false
  talk := none
  roseAt := 0
  fellAt := none
  talkAt := none
  lawSample := none
  prbSample := none
  periodAt := none

def Pad.reset : Pad := ⟨.rest, false, false, none, none, 0, 0, 0⟩

def Sar.reset : Sar := ⟨none, [], none, none, none⟩

def TxEntry.reset : TxEntry := ⟨0, false, 0, 0, 0, false, false, 0, false, false, 0, 0, false, 0, 0, 0⟩

def Line.reset : Line := ⟨[], [], 0, none, false, false, 0, [], none⟩

def Synth.reset : Synth := ⟨.stopped, 132, false, false, none, false, none, false, false⟩


def Engine.reset : Engine where
  mode := .stopped
  bank := 0
  pc := 0
  links := []
  cells := []
  tsr := 0
  rsr := 0
  crc := 0
  run := 0
  bit := none
  lastPer := 0
  sym := none
  mod := 0
  raw := false
  hist := []
  late := 0
  edge := none
  level := false
  since := 0
  z := false
  c := false
  rxv := false
  mis := false
  stf := false
  ste := false
  crcok := false
  tmo := false
  edgeF := false
  txg := false
  rxe := false
  acc := false
  ovf := false
  waiting := none
  stepping := false
  skipBreak := false
  attempt := false
  assembly := none
  mute := false
  hears := none
  swap := none
  swapLate := false
  stalled := 0
  live := []
  dirty := false



def FilterChain.reset : FilterChain := ⟨7, 0, 0, [], none, [], [], [], 0, none, none⟩

def PollEntry.reset : PollEntry where
  w0 := 0
  w1 := 0x90600
  w2 := 0
  v0 := 0
  v1 := 0x90600
  newer := []
  raw := 0
  filt := 0
  miss := 0
  sat := false
  subst := false
  settle := false
  tsync := false
  seq := 0
  missed := 0
  due := 0
  took := none
  srcAt := none
  run := 0
  last := 0
  chain := FilterChain.reset
  next := none
  fade := none
  after := none
  chg := false

def FirSet.reset : FirSet := ⟨3, 1, []⟩

def CustomSet.reset : CustomSet := ⟨FirSet.reset, none⟩

def BayPipe.reset : BayPipe := ⟨[], [], [], [], CustomSet.reset, CustomSet.reset⟩

def Recog.reset : Recog := ⟨0, 0, 0, 0x01011, false, 0, [], none, false, 0, 0, 0, 0⟩

def Coder.reset : Coder := ⟨[], [], []⟩

def CodeHalf.reset : CodeHalf := ⟨[], 0, 0⟩

def ChanCfg.reset : ChanCfg := ⟨0xA0000, 0⟩

def CodeSet.zero : CodeSet := ⟨0, 0, false, 0, false, 0, false⟩

def Chan.reset : Chan := ⟨0, 0, false, false, none, CodeSet.zero, 0, none, 0, 0⟩

def Bushel.reset : Bushel where
  chan := 0
  seq := 0
  records := false
  chg := false
  tko := false
  flush := false
  full := false
  t0 := 0
  set := CodeSet.zero
  k0 := 0
  flags0 := 0
  rbits := []
  deadline := 0
  last := 0
  k := 0
  acc := 0
  kt := 0
  acct := 0
  hist := []
  flags := none
  tprev := 0
  run := none
  seg := []
  raws := 0


/-- The metrology die as manufactured (R355, R358, R363, R364, R382), before its first start. -/
def Meter.reset : Meter where
  on := false
  saved := true
  msec := 0
  energy := []
  bookedNow := []
  bookedFrom := 0
  tariff := 0
  nextTariff := none
  copyA := some ⟨[], 0, 0, 0⟩
  copyB := some ⟨[], 0, 0, 0⟩
  params := []
  committed := none
  staged := []
  chg := 0
  log := []
  logged := 0
  unsealed := false
  fails := []
  lostPhases := []
  starts := 0
  page := none
  shown := 0
  place := 0
  display := []
  pulseP := 0
  pulseQ := 0
  pulsesP := 0
  pulsesQ := 0
  streams := []
  intervals := []
  nextIntervals := []
  due := []
  reqs := []
  unacked := []
  seq := 0
  arrived := 0
  resent := false
  rej := 0
  sdrop := 0
  rdrop := 0
  dropped := (0, 0)
  result := none
  status := none
  command := none
  answer := none

def MetLink.reset : MetLink := ⟨0, none, 0, [], 0, []⟩


def Archive.reset : Archive :=
  ⟨false, 0, 0, 0, [], [], [], 0, 0, 0, 0, 0, [], none, none, 0, [], none, [], [], [], false, []⟩


def Link.reset : Link where
  mode := .down
  hellos := []
  nlink := 0
  nrole := 0
  ntsync := false
  nvalid := false
  ntprio := 0
  nroot := 0
  nseq := 0
  ndist := 255
  rootAt := none
  role := 0
  wrong := 0
  req := none
  roleSeq := 0
  backoff := none
  fwReq := false
  credit := []
  returned := []
  queue := []
  seq := 0
  t12 := 0
  t3 := 0
  fresh := 0
  sent := none

def Route.reset : Route := ⟨0, 0, 64, 0, none, 0⟩

def Router.reset : Router where
  prefs := []
  cand := 0
  since := 0
  claimSeq := 0
  seen := []
  dirty := []
  rootUid := 0
  rootValid := false
  rootPrio := 0
  rootSeq := 0
  parent := none
  exchangeAt := 0
  offSince := none
  good := 0
  far := 0
  alarmSeq := 0
  cache := []
  freed := []
  inject := []
  pageAt := []
  cmdTag := 0


def Steward.reset : Steward where
  mode := .stopped
  pc := 0
  last := 0
  w := []
  acc := 0
  cr := []
  rsv := none
  load := none
  stack := []
  runPri := 16
  stopDue := false
  haltDue := none
  skipBreak := false
  stepping := false


/-- The OTP store as it leaves the factory (R506). -/
def Otp.reset : Otp := ⟨[], 1, 0, 0, false⟩

def EnvLock.reset : EnvLock := ⟨[], [], 0, 0⟩



def Port.reset : Port where
  queue := []
  exec := none
  begun := false
  result := none
  replies := []
  removed := none
  alarms := []
  dropped := false
  nak := false
  lastSt := 0
  lastOp := 0
  lastCount := 0
  lastTag := 0
  latch := 0
  out := []
  routed := []



def TwBus.reset : TwBus := ⟨[], none, false, false, [], [], none, false, none, false, []⟩

def Pmbus.reset : Pmbus := ⟨[], true, false⟩


def Power.reset : Power where
  mode := .run
  entering := none
  enteredAt := 0
  requester := none
  returning := none
  wakeLow := false
  edgeLatch := false
  matrixWake := false
  portWakeA := false
  portWakeB := false
  vcWake := false
  brownWake := false
  pfail := false
  fullMode := true
  xref := false
  lfx := false
  xrefGone := false
  vaon := true
  resetLow := false
  regConfirmed := true
  gpLatch := none
  testN := true
  xrefMode := false
  resFrac := 0
  lfxPhase := 0

def Jtag.reset : Jtag := ⟨.idcode, 0, 0, 0⟩

/-- The device right after a power-on reset of every supply (R9, R641, R643): every register at its reset value, the
seats and run-owner latches at theirs, both halves in half reset, memories with nothing listed. -/
def State.reset : State where
  regs := []
  staging := []
  snaps := []
  seats := 0xFFFFFFFF00000000#64
  orphans := 0xFFFFFFFFFFFFFFFF#64
  gaps := []
  owners := 0x14E12#20
  halfA := HalfState.reset
  halfB := HalfState.reset
  referee := Referee.reset
  profile := .noon
  profileTarget := none
  tref := 0
  stood := 0
  lockAt := 0
  trefRuns := false
  consumers := []
  timebases := []
  slots := []
  pads := []
  sars := []
  mirrors := []
  fabricTime := 0
  banks := []
  bankMarks := []
  imem := []
  imemMarks := []
  vmem := []
  vmemMarks := []
  lines := []
  synths := []
  lineBlanked := 0
  freeCount := 0
  engines := []
  progs := []
  pollEntries := []
  pipes := []
  recogs := []
  coders := []
  codeHalves := []
  chans := []
  chanCfgs := []
  bushels := []
  meter := Meter.reset
  metLink := MetLink.reset
  archive := Archive.reset
  links := []
  routes := []
  offers := []
  router := Router.reset
  stewards := []
  flash := []
  flashOps := []
  otp := Otp.reset
  envLock := EnvLock.reset
  vcDue := true
  vcLoading := none
  vcEntry := 0
  ports := []
  twBuses := []
  pmbus := Pmbus.reset
  power := Power.reset
  gpPins := 0
  jtag := Jtag.reset
  pending := []

end Sys2Proof.Machine
end

