-- ==== Sys2Proof/Machine/Status.lean ====
section
/-! DEFINITION. The status codes and their values (R621). -/

namespace Sys2Proof.Machine.St

/-- Success -/
abbrev OK : Nat := 0x00
/-- Reserved transaction opcode (R585), or a command opcode not listed in this chapter -/
abbrev BAD_OPCODE : Nat := 0x01
/-- A parameter out of range, of the wrong count, or not permitted -/
abbrev BAD_PARAM : Nat := 0x02
/-- The resource already holds a request or operation -/
abbrev BUSY : Nat := 0x03
/-- Select released before the packet was complete (R588, R590) -/
abbrev TRUNCATED : Nat := 0x04
/-- LEN invalid (R588) -/
abbrev TOO_LONG : Nat := 0x05
/-- Packet CRC mismatch -/
abbrev CRC : Nat := 0x06
/-- Tag in use on this port (R594) -/
abbrev TAG_BUSY : Nat := 0x07
/-- Command queue full (R588, R600) -/
abbrev QUEUE_FULL : Nat := 0x08
/-- Device in SLEEP or DEEP (R601) -/
abbrev ASLEEP : Nat := 0x09
/-- Packet taken; extra clock edges clocked out 0xFF (R589) -/
abbrev OVERRUN : Nat := 0x0A
/-- The executing half yielded; the effect may be whole, partial or absent (R71); also a profile change abandoned (R97) -/
abbrev TAKEOVER : Nat := 0x0B
/-- The half that must act is not healthy, synchronised or running -/
abbrev PARTNER_NOT_READY : Nat := 0x10
/-- Give from a half that does not hold the seat, or a request from the VC (R64) -/
abbrev NOT_HOLDER : Nat := 0x11
/-- Claim refused; the holder keeps the seat (R64) -/
abbrev DUAL_CLAIM : Nat := 0x12
/-- The half still holds seats or runs blocks (R508, R511) -/
abbrev HALF_SEATED : Nat := 0x13
/-- Staged grants exceed a capacity (R88) -/
abbrev BUDGET_OVER : Nat := 0x14
/-- Regulators not confirmed; old voltage restored (R96) -/
abbrev PROFILE_TIMEOUT : Nat := 0x15
/-- Envelope write outside a session, by a steward, or after a failed open (R36, R516) -/
abbrev ENVELOPE_LOCKED : Nat := 0x20
/-- The envelope command would break R192, R207, R618 or R619 -/
abbrev ENVELOPE_CONFLICT : Nat := 0x21
/-- Exchange complete; the driver's RSTAT ≠ 0 (R156) -/
abbrev TALK_NAK : Nat := 0x28
/-- Reply CHK wrong after the last retry -/
abbrev TALK_CHECK : Nat := 0x29
/-- Turnaround sample out of range after the last retry -/
abbrev TALK_NOREPLY : Nat := 0x2A
/-- Request cancelled before its exchange started -/
abbrev TALK_CANCELLED : Nat := 0x2B
/-- No window within 1 s and no borrow possible (R157) -/
abbrev TALK_NOWINDOW : Nat := 0x2C
/-- Line disabled, or its TXMAX is 0 (R229, R231) -/
abbrev LINE_DISABLED : Nat := 0x30
/-- Line trip latched (R206) -/
abbrev LINE_TRIPPED : Nat := 0x31
/-- Synthesiser deferral bound exceeded (R213) -/
abbrev LINE_NOLOCK : Nat := 0x32
/-- Attempt aborted by loss of lock, abort or loss of the transmitting half -/
abbrev LINE_ABORTED : Nat := 0x33
/-- Data-phase bit mismatch (R225) -/
abbrev LINE_COLLISION : Nat := 0x34
/-- Arbitration losses exceeded `ARB_MAX` -/
abbrev LINE_ARB_LOST : Nat := 0x35
/-- No acknowledge after the last retry -/
abbrev LINE_NOACK : Nat := 0x36
/-- Entry removed, or dropped on losing arbitration, by cancel (R232) -/
abbrev LINE_CANCELLED : Nat := 0x37
/-- Cancel came after the deciding instant; the frame ran; `ACKED` tells the result -/
abbrev SENT_CANCEL_LATE : Nat := 0x38
/-- No IDENT_R within RWAIT (R311) -/
abbrev POLL_NOREPLY : Nat := 0x39
/-- The metrology die refused the command (R376) -/
abbrev MET_REFUSED : Nat := 0x40
/-- No result within 5 ms; acceptance unknown -/
abbrev MET_NOLINK : Nat := 0x41
/-- Archive not ready (R393, R404) -/
abbrev ARC_NOTREADY : Nat := 0x48
/-- A codeword failed (R394) -/
abbrev ARC_ECC : Nat := 0x49
/-- Offset outside the readable ring (R406) -/
abbrev ARC_RANGE : Nat := 0x4A
/-- No matching bushel within the scan (R407) -/
abbrev ARC_NOTFOUND : Nat := 0x4B
/-- Partner refused a replica (R409) -/
abbrev ARC_REPL_REFUSED : Nat := 0x4C
/-- No route to the target, or no HELD address at the origin -/
abbrev FAB_UNREACHABLE : Nat := 0x50
/-- Hop limit reached -/
abbrev FAB_HOPS : Nat := 0x51
/-- No answer in time; the command may have been executed (R439, R447) -/
abbrev FAB_TIMEOUT : Nat := 0x52
/-- Target refuses routed commands, or the command needs a local port (R610, R613) -/
abbrev FAB_REFUSED : Nat := 0x53
/-- Time set at a device that is not root (R443) -/
abbrev FAB_NOT_ROOT : Nat := 0x54
/-- Role swap refused by the other end -/
abbrev FAB_ROLE_REFUSED : Nat := 0x55
/-- Swap requests crossed; roles as R439 -/
abbrev SWAP_COLLIDED : Nat := 0x56
/-- Link left UP during the request -/
abbrev FAB_LINK_DOWN : Nat := 0x57
/-- Image header or field out of range (R500) -/
abbrev IMG_FORMAT : Nat := 0x60
/-- SVN below MINSVN, or an SVN advance not permitted (R506) -/
abbrev IMG_ROLLBACK : Nat := 0x61
/-- Public key not usable -/
abbrev IMG_KEY : Nat := 0x62
/-- Signature invalid -/
abbrev IMG_SIGNATURE : Nat := 0x63
/-- Flash read did not complete -/
abbrev BOOT_FLASH : Nat := 0x64
/-- Program or erase in a slot of a running half (R507) -/
abbrev BOOT_SLOT_ACTIVE : Nat := 0x65
/-- A two-wire address or data byte was not acknowledged -/
abbrev TW_NACK : Nat := 0x70
/-- Two-wire arbitration lost during an address or data byte -/
abbrev TW_ARB_LOST : Nat := 0x71
/-- Two-wire arbitration lost during a STOP or repeated START -/
abbrev TW_ARB_SR : Nat := 0x72
/-- Clock stretch exceeded its timeout; the bus was released and the block reset -/
abbrev TW_TIMEOUT : Nat := 0x73
/-- A block refused or held the power-state handshake, as Power, clocks, reset and power loss describes -/
abbrev PWR_REFUSED : Nat := 0x78

end Sys2Proof.Machine.St
end

