-- ==== Sys2Proof/Machine/Ops.lean ====
section
/-! DEFINITION. The named operations over registers, fields, halves, seats, run-owner latches and memory words. -/

namespace Sys2Proof.Machine

/-- What a meaning answers. -/
abbrev Result := Host.Outcome State Fault Refusal

/-! ## Words and fields (R4) -/

/-- Bits [hi:lo] of a word, as a number. -/
def bits (w : Word) (hi lo : Nat) : Nat :=
  (w.toNat >>> lo) % 2 ^ (hi + 1 - lo)

/-- A word with bits [hi:lo] replaced. -/
def setBits (w : Word) (hi lo v : Nat) : Word :=
  BitVec.ofNat 20
    ((w.toNat - (bits w hi lo) * 2 ^ lo) + (v % 2 ^ (hi + 1 - lo)) * 2 ^ lo)

/-- A word holding one field. -/
def inField (hi lo v : Nat) : Word := setBits 0 hi lo v

/-- The bits of a number, the most significant of n bits first. -/
def natBits (n v : Nat) : List Bool := (List.range n).map (fun i => v.testBit (n - 1 - i))

/-- A number from its bits, the most significant first. -/
def bitsNat (l : List Bool) : Nat := l.foldl (fun a b => 2 * a + (if b then 1 else 0)) 0

/-- The bits of bytes, each most significant first. -/
def bytesBits (l : List Byte) : List Bool := l.flatMap (fun b => natBits 8 b.toNat)

/-- One bit into a left-shifting CRC register of width w (R219, R328). -/
def crcFeed (w poly c : Nat) (d : Bool) : Nat :=
  let c2 := 2 * c % 2 ^ w
  if (c.testBit (w - 1)) != d then c2 ^^^ poly else c2

/-- The CRC of a string of bits. -/
def crcBits (w poly init : Nat) (l : List Bool) : Nat := l.foldl (crcFeed w poly) init

/-- The CRC-32 of R280 and R328. -/
def crc32 (l : List Byte) : Nat := crcBits 32 0x04C11DB7 0xFFFFFFFF (bytesBits l) ^^^ 0xFFFFFFFF

/-- The n bytes of a number, the most significant first. -/
def bigEndian : Nat → Nat → List Byte
  | 0, _ => []
  | n + 1, v => BitVec.ofNat 8 (v / 256 ^ n) :: bigEndian n v

/-- The number that bytes hold, the most significant first. -/
def fromBytes (l : List Byte) : Nat := l.foldl (fun a b => 256 * a + b.toNat) 0

/-- The two's complement value of the low n bits of a number. -/
def signed (n v : Nat) : Int :=
  if v % 2 ^ n < 2 ^ (n - 1) then (v % 2 ^ n : Nat) else ((v % 2 ^ n : Nat) : Int) - 2 ^ n

/-- The low n bits of an integer, as a number. -/
def unsigned (n : Nat) (v : Int) : Nat := (v % (2 ^ n : Nat)).toNat

/-! ## Register keys: copy × 2^20 + address -/

/-- Registers of a half's own copy. -/
def halfKey (h : Half) : Nat := h.num * 0x100000

/-- Registers that exist once. -/
def oneKey : Nat := 0x200000

/-- A half's copy of a bay's registers (R24, R32). -/
def bayKey (h : Half) (b : Nat) : Nat := halfKey h + 0x10000 + 0x400 * b

/-- A bay's registers on the pad side, which exist once (R186, R207). -/
def padKey (b : Nat) : Nat := oneKey + 0x10000 + 0x400 * b

/-- A half's copy of a terminal's registers. -/
def termKey (h : Half) (t : Nat) : Nat := bayKey h (t / 16) + 0x80 + 16 * (t % 16)

/-- The default grant of an activity on a resource, in grains per ms (R98). -/
def profileGrant (p : Profile) (a r : Nat) : Nat :=
  match a, r with
  | 3, 0 => match p with | .noon => 1200 | .dusk => 1400 | .night => 1600
  | 4, 0 => match p with | .noon => 800 | .dusk => 900 | .night => 1000
  | 5, 0 => 300
  | 6, 0 => 200
  | 7, 0 => 300
  | 8, 0 => match p with | .noon => 3600 | .dusk => 3000 | .night => 2400
  | 9, 0 => 200
  | 10, 0 => 64
  | 11, 0 => 100
  | 8, 1 => 450
  | 9, 1 => 150
  | 5, 2 => 600
  | 6, 2 => 300
  | 7, 3 => 500
  | 9, 3 => 100
  | _, _ => 0

/-- The reset value of a register (R9): its map's, but for the registers whose reset value depends on their number. -/
def regReset (key : Nat) : Word :=
  let a := key % 0x100000
  if 0x10000 ≤ a ∧ a < 0x20000 ∧ 0x40 ≤ a % 0x400 ∧ a % 0x400 < 0x50 then
    BitVec.ofNat 20 (5000 * (a % 0x400 - 0x40))
  else if 0x610 ≤ a ∧ a < 0x650 then
    BitVec.ofNat 20 (profileGrant .noon ((a - 0x610) / 4) ((a - 0x610) % 4))
  else if 0xC00 ≤ a ∧ a < 0xC80 ∧ a % 0x20 = 0 then (if a = 0xC00 then 1 else 0)
  else if a = 0x7E0C0 then 0
  else if (0xC00 ≤ a ∧ a < 0xC80 ∧ a % 0x20 = 3) ∨ a = 0x7E0C3 then 0xF0000
  else
    match regRow? a with
    | some r => BitVec.ofNat 20 r.reset
    | none => 0

/-! ## Registers -/

/-- The value a register holds. -/
def State.reg (s : State) (key : Nat) : Word := tblGet s.regs (regReset key) key

/-- The state with a register holding a value. -/
def State.setReg (s : State) (key : Nat) (w : Word) : State :=
  { s with regs := tblSet s.regs (regReset key) key w }

/-- The value of a field of the register block at a key. -/
def State.get (s : State) (base : Nat) (f : Fld) : Nat :=
  bits (s.reg (base + f.addr)) f.hi f.lo

/-- Whether a field of one bit is set. -/
def State.flag (s : State) (base : Nat) (f : Fld) : Bool := decide (s.get base f = 1)

/-- The state with a field of the register block at a key holding a value. -/
def State.put (s : State) (base : Nat) (f : Fld) (v : Nat) : State :=
  s.setReg (base + f.addr) (setBits (s.reg (base + f.addr)) f.hi f.lo v)

/-- A counter counts up and stays at its maximum (R11). -/
def State.count (s : State) (key : Nat) (n : Nat) : State :=
  s.setReg key (BitVec.ofNat 20 (min 0xFFFFF ((s.reg key).toNat + n)))

/-- The state with the registers of a list set one by one. -/
def State.setRegs (s : State) : List (Nat × Word) → State
  | [] => s
  | (k, w) :: t => (s.setReg k w).setRegs t

/-- The state with the words of a wide value in consecutive registers, the least significant first (R12). -/
def State.setWide (s : State) (key n v : Nat) : State :=
  match n with
  | 0 => s
  | m + 1 => (s.setReg key (BitVec.ofNat 20 v)).setWide (key + 1) m (v / 0x100000)

/-- The wide value in consecutive registers (R12). -/
def State.wide (s : State) (key : Nat) : Nat → Nat
  | 0 => 0
  | m + 1 => (s.reg key).toNat + 0x100000 * s.wide (key + 1) m

/-- A write of a register by the access codes of its fields (R6, R7): the bits a write stores take the written value,
the bits a write of 1 clears are cleared, every other bit stays. -/
def State.plainWrite (s : State) (key : Nat) (w : Word) : State :=
  match regRow? (key % 0x100000) with
  | some r =>
    let old := (s.reg key).toNat
    let rw := w.toNat &&& r.rw
    let keep := old &&& (0xFFFFF ^^^ r.rw ^^^ (w.toNat &&& r.w1c))
    s.setReg key (BitVec.ofNat 20 (keep ||| rw))
  | none => s

/-! ## Staging of wide registers (R12, R13) -/

/-- The masters by number (R13). -/
def masterNo : Master → Nat
  | .steward k => k.val
  | .vc => 8
  | .port p => 9 + p.val
  | .jtag _ => 12

/-- The place of a master's staged word of a wide register, and of its snapshot words. -/
def stageKey (m : Master) (addr : Nat) : Nat := masterNo m * 0x100000 + addr

/-- The place of a master's staged word of a table that is reached through a window: words 0 and 1 of the poll entries from 0
on, the words of the custom filter sets from 0x10000 on, word 0 of the channels' settings from 0x20000 on (R284, R300, R345). -/
def tableKey (m : Master) (n : Nat) : Nat := 0x1000000 + masterNo m * 0x100000 + n

/-- A write of a lower word is held in the master's staging. -/
def State.stage (s : State) (m : Master) (addr : Nat) (w : Word) : State :=
  { s with staging := tblPut s.staging (stageKey m addr) w }

/-- The master's staged word, or the word the register holds where the master has written none since its last commit. -/
def State.staged (s : State) (m : Master) (addr : Nat) (held : Word) : Word :=
  (tblFind s.staging (stageKey m addr)).getD held

/-- A commit takes the word out of the master's staging. -/
def State.unstage (s : State) (m : Master) (addr : Nat) : State :=
  { s with staging := tblDel s.staging (stageKey m addr) }

/-! ## Halves, seats and run-owner latches -/

def State.half (s : State) : Half → HalfState
  | .A => s.halfA
  | .B => s.halfB

def State.setHalf (s : State) (h : Half) (x : HalfState) : State :=
  match h with
  | .A => { s with halfA := x }
  | .B => { s with halfB := x }

/-- The half that holds a bay's seat (R46). -/
def State.holder (s : State) (b : Nat) : Half := Half.ofBit (s.seats.getLsbD b)

/-- The places of the run-owner latches (R42). -/
abbrev blkFabric : Nat := 0
abbrev blkArchive : Nat := 1
abbrev blkMet : Nat := 2
abbrev blkPort (p : Nat) : Nat := 3 + p
abbrev blkTw (b : Nat) : Nat := 5 + b
abbrev blkGt (g : Nat) : Nat := 13 + g / 4
abbrev blkGp (p : Nat) : Nat := 15 + p / 16

/-- The half that runs a shared block (R26). -/
def State.runner (s : State) (blk : Nat) : Half := Half.ofBit (s.owners.getLsbD blk)

/-- A half computes while it is not in half reset (R23, R63). -/
def State.computes (s : State) (h : Half) : Bool := !(s.half h).inReset

/-- The copy of a bay that an act of its hardware outside the halves follows: the seat holder's, or the other half's
while the holder does not compute. -/
def State.viewOf (s : State) (b : Nat) : Half :=
  if s.computes (s.holder b) then s.holder b else (s.holder b).other

/-- A half is healthy (R55), and its bays are orphaned no more: at the earliest from its first valid heartbeat after mirror
synchronisation was complete (R47). -/
def State.healthy (s : State) (h : Half) : Bool :=
  let x := s.half h
  x.supplyOk && !x.inReset && x.beatSeen && x.beatSynced && !x.yielded
    && decide (s.get (halfKey h) Reg.HLT_STAT_MISSED < 3)
    && s.flag (halfKey h) Reg.HLT_STAT_SYNCED
    && !s.flag (halfKey h) Reg.HLT_STAT_SELF_FAIL

/-- A bay is orphaned now: its seat holder is not healthy (R46). -/
def State.orphaned (s : State) (b : Nat) : Bool := !s.healthy (s.holder b)

/-- An event of a bay befalls the copy of every half that computes (R23, R24). -/
def State.onCopies (s : State) (f : Half → State → State) : State :=
  let s1 := if s.computes .A then f .A s else s
  if s1.computes .B then f .B s1 else s1

/-- The half whose writes a master's writes are judged as: a steward's own, the VC's by its window (R661), a command
port's by the half that runs the port (R26). -/
def State.masterHalf (s : State) : Master → Half
  | .steward k => if k.val < 4 then .A else .B
  | .vc => Half.ofBit (s.flag oneKey Reg.VW_WIN_HALF)
  | .port p => s.runner (if p.val < 2 then blkPort p.val else blkFabric)
  | .jtag k => if k.val < 4 then .A else if k.val < 8 then .B else Half.ofBit (s.flag oneKey Reg.VW_WIN_HALF)

/-- A master that is not a steward of a half: its writes carry no half's authority but are executed by the half that
holds the seat or runs the block (R26, R612). -/
def isHost : Master → Bool
  | .port _ => true
  | _ => false

/-- A master that acts as the VC: the VC itself, and the debug path addressing it (R519). -/
def isVc : Master → Bool
  | .vc => true
  | .jtag k => decide (k.val = 8)
  | _ => false

/-- A refused write is counted and its address recorded in the writing half (R43, R44). -/
def State.refuseWrite (s : State) (h : Half) (addr : Nat) : State :=
  (s.count (halfKey h + Reg.DEV_REFUSED) 1).setReg (halfKey h + Reg.DEV_REFUSED_LAST) (BitVec.ofNat 20 addr)

/-- A write of a bay's registers is accepted: its master belongs to the seat holder, or is a command port, whose
commands the seat holder executes (R24). -/
def State.bayWriteOk (s : State) (m : Master) (b : Nat) : Bool :=
  isHost m || decide (s.masterHalf m = s.holder b)

/-- A write of a shared block's registers is accepted (R26). -/
def State.blockWriteOk (s : State) (m : Master) (blk : Nat) : Bool :=
  isHost m || decide (s.masterHalf m = s.runner blk)

/-- A bay write: its effect on both halves' copies where it is accepted, else a refused write (R24). -/
def State.bayWrite (s : State) (m : Master) (b addr : Nat) (f : Half → State → State) : State :=
  if s.bayWriteOk m b then s.onCopies f else s.refuseWrite (s.masterHalf m) addr

/-- A write of a shared block: its effect where it is accepted, else a refused write (R26). -/
def State.blockWrite (s : State) (m : Master) (blk addr : Nat) (f : State → State) : State :=
  if s.blockWriteOk m blk then f s else s.refuseWrite (s.masterHalf m) addr

/-- A pad group is held since DEEP (R652): 4 fabric, 3 NAND, 2 general pins, 1 lines, 0 terminals. -/
def State.padHeld (s : State) (g : Nat) : Bool := (s.reg (oneKey + Reg.PWR_PAD)).getLsbD g

/-! ## Structures by number -/

def bayIx (h : Half) (b : Nat) : Nat := h.num * 64 + b

def slotIx (h : Half) (t : Nat) : Nat := h.num * 1024 + t

def State.consumer (s : State) (c : Nat) : Consumer := tblGet s.consumers (Consumer.reset c) c

def State.setConsumer (s : State) (c : Nat) (x : Consumer) : State :=
  { s with consumers := tblSet s.consumers (Consumer.reset c) c x }

def State.timebase (s : State) (i : Nat) : Timebase := tblGet s.timebases Timebase.reset i

def State.setTimebase (s : State) (i : Nat) (x : Timebase) : State :=
  { s with timebases := tblSet s.timebases Timebase.reset i x }

def State.slot (s : State) (h : Half) (t : Nat) : Slot := tblGet s.slots Slot.reset (slotIx h t)

def State.setSlot (s : State) (h : Half) (t : Nat) (x : Slot) : State :=
  { s with slots := tblSet s.slots Slot.reset (slotIx h t) x }

def State.pad (s : State) (t : Nat) : Pad := tblGet s.pads Pad.reset t

def State.setPad (s : State) (t : Nat) (x : Pad) : State :=
  { s with pads := tblSet s.pads Pad.reset t x }

def State.steward (s : State) (k : Nat) : Steward := tblGet s.stewards Steward.reset k

def State.setSteward (s : State) (k : Nat) (x : Steward) : State :=
  { s with stewards := tblSet s.stewards Steward.reset k x }

def State.sar (s : State) (b : Nat) : Sar := tblGet s.sars Sar.reset b

def State.setSar (s : State) (b : Nat) (x : Sar) : State := { s with sars := tblSet s.sars Sar.reset b x }

/-- The count of TREF edges, which stands still while TREF does. -/
def State.onTref (s : State) : Nat := s.tref - s.stood

/-! ## Mirrors (R51) -/

def State.mirror (s : State) (h : Half) (b : Nat) : Mirror := tblGet s.mirrors Mirror.reset (bayIx h b)

def State.setMirror (s : State) (h : Half) (b : Nat) (x : Mirror) : State :=
  { s with mirrors := tblSet s.mirrors Mirror.reset (bayIx h b) x }

/-- The pad command band of a slot: 0 REST, 1 TALK, 2 DRIVE. -/
def Slot.band (x : Slot) : Nat :=
  if x.drive then 2
  else match x.talk with
    | some r => if r.running then 1 else 0
    | none => 0

/-- A change of a slot's pad command band goes into the signature of its copy, with the edge's TREF count (R51). Watches
stand still with TREF (R56), and so do the signatures. -/
def noteBand (h : Half) (t was : Nat) (s : State) : State :=
  let now := (s.slot h t).band
  if now = was ∨ s.trefRuns = false then s
  else
    let m := s.mirror h (t / 16)
    s.setMirror h (t / 16) { m with edges := (t % 16, now, s.onTref) :: m.edges }

/-- An event of a terminal befalls its slot in the copy of every half that computes (R23, R24, R51). -/
def State.onSlot (s : State) (t : Nat) (f : Half → State → State) : State :=
  s.onCopies (fun h s => noteBand h t (s.slot h t).band (f h s))

/-- A TALK frame that a copy sends goes into its signature. -/
def noteFrame (h : Half) (b : Nat) (w : Word) (s : State) : State :=
  let m := s.mirror h b
  s.setMirror h b { m with frames := w :: m.frames }

/-- A bit that a copy's line engine transmits goes into its signature. -/
def noteBit (h : Half) (b : Nat) (v : Bool) (s : State) : State :=
  let m := s.mirror h b
  s.setMirror h b { m with bits := v :: m.bits }

/-- Fabric time in whole ns, 60 bits (R436). -/
def State.timeNs (s : State) : Nat := s.fabricTime / 0x100000000 % 2 ^ 60

/-! ## Memory words (R560, R564) -/

/-- The place of a data address in the banks. -/
def bankIx (h : Half) (a : Nat) : Nat := h.num * 0x80000 + a % 0x80000

/-- The word stored at a data address. -/
def State.bank (s : State) (h : Half) (a : Nat) : Word := tblGet s.banks 0 (bankIx h a)

/-- The half of steward k, S0 to S7. -/
def stewHalf (k : Nat) : Half := if k < 4 then .A else .B

/-- The place in the banks of a data address of steward k: its own half's banks below 0x8_0000, else the other half's
(R462). -/
def stewBankIx (k a : Nat) : Nat :=
  bankIx (if a % 0x100000 < 0x80000 then stewHalf k else (stewHalf k).other) a

/-- A write to a word by any master clears every reservation of it (R479). -/
def dropRsv (t : Tbl Steward) (ix : Nat) : Tbl Steward :=
  t.map (fun e =>
    match e.2.rsv with
    | some a => if e.1 < 8 ∧ stewBankIx e.1 a.toNat = ix then (e.1, { e.2 with rsv := none }) else e
    | none => e)

/-- A write stores the whole word with fresh check bits (R564). -/
def State.setBank (s : State) (h : Half) (a : Nat) (w : Word) : State :=
  { s with
    banks := tblSet s.banks 0 (bankIx h a) w, bankMarks := tblSet s.bankMarks 0 (bankIx h a) 0,
    stewards := dropRsv s.stewards (bankIx h a) }

/-- Consecutive words stored from a data address on. -/
def State.setBankRun (s : State) (h : Half) (a : Nat) : List Word → State
  | [] => s
  | w :: t => (s.setBank h a w).setBankRun h (a + 1) t

/-- Bytes packed two to a word, the first in the high byte of bits [15:0], as `LN_TXD` packs them (R240). -/
def packBytes : List Byte → List Word
  | [] => []
  | [b] => [BitVec.ofNat 20 (b.toNat * 256)]
  | b :: c :: t => BitVec.ofNat 20 (b.toNat * 256 + c.toNat) :: packBytes t

/-- The bytes of words packed two to a word. -/
def unpackWords : List Word → List Byte
  | [] => []
  | w :: t => BitVec.ofNat 8 (w.toNat / 256) :: BitVec.ofNat 8 w.toNat :: unpackWords t

/-! ## Commands of the command ports (R608, R609) -/

/-- The parameters of a command, those after a routed one's address bytes (R608). -/
def cmdParams (c : Cmd) : List Byte := if c.routed then c.params.drop 2 else c.params

/-- The outcome of an operation, for the command of a port that has begun and waits for it. -/
def noteResult (op : Nat) (test : List Byte → Bool) (st : Nat) (bytes : List Byte) (s : State) : State :=
  { s with ports := s.ports.map (fun (e : Nat × Port) =>
      match e.2.exec with
      | some c =>
        if c.op = op ∧ e.2.begun = true ∧ test (cmdParams c) = true then (e.1, { e.2 with result := some (st, bytes) }) else e
      | none => e) }

/-- A pulse source sets its pending latch; a second pulse merges with the first (R527). The latches of a half in half
reset stay clear (R535). -/
def State.pulseIrq (s : State) (h : Half) (src : Nat) : State :=
  let x := s.half h
  if x.inReset then s else s.setHalf h { x with latched := listMark x.latched src }

end Sys2Proof.Machine
end

