-- ==== Sys2Proof/Machine/Events.lean ====
section
/-! DEFINITION. The event matrix (R541 to R549) and the capture units it feeds (R122, R123). -/

namespace Sys2Proof.Machine

/-! ## Timebases by number: bays of Half A's copy 0 to 63, of Half B's 64 to 127, general timers 128 to 135 -/

/-- The register block of a timebase. -/
def tbKey (i : Nat) : Nat :=
  if i < 64 then bayKey .A i else if i < 128 then bayKey .B (i - 64) else oneKey + 0x71000 + 0x20 * (i - 128)

/-- The modulus of a timebase: its PER, where 0 encodes 1,048,576 (R112). -/
def modulus (per : Word) : Nat := if per = 0 then 0x100000 else per.toNat

def State.tbModulus (s : State) (i : Nat) : Nat := modulus (s.reg (tbKey i + Reg.TB_PER))

def State.tbCount (s : State) (i : Nat) : Nat := (s.reg (tbKey i + Reg.TB_COUNT)).toNat

/-- The numbers of the copies of a timebase that count: those of the halves that compute, or the general timer (R23). -/
def State.tbCopies (s : State) : TbUnit → List Nat
  | .bay n => (if s.computes .A then [n.val] else []) ++ (if s.computes .B then [64 + n.val] else [])
  | .gt g => [128 + g.val]

/-- An action on every copy of a timebase that counts. -/
def State.onTimebase (s : State) (t : TbUnit) (f : Nat → State → State) : State :=
  (s.tbCopies t).foldl (fun s i => f i s) s

/-! ## Capture (R122, R123) -/

/-- The flag bits of capture unit c in TB_STAT. -/
def capDone (c : Nat) : Fld := if c = 0 then Reg.TB_STAT_DONE0 else Reg.TB_STAT_DONE1
def capOvr (c : Nat) : Fld := if c = 0 then Reg.TB_STAT_OVR0 else Reg.TB_STAT_OVR1

/-- The register block of capture unit c, with the offsets of unit 0. -/
def capKey (i c : Nat) : Nat := tbKey i + 4 * c

def Timebase.risen (t : Timebase) (c : Nat) : Bool := if c = 0 then t.rise0 else t.rise1

def Timebase.setRisen (t : Timebase) (c : Nat) (v : Bool) : Timebase :=
  if c = 0 then { t with rise0 := v } else { t with rise1 := v }

/-- An opening edge latches the count into RISE; while DONE is still set it sets OVR (R122, R123). -/
def captureRise (i c : Nat) (s : State) : State :=
  let s1 := if s.flag (tbKey i) (capDone c) then s.put (tbKey i) (capOvr c) 1 else s
  let s2 := s1.setReg (capKey i c + Reg.TB_CAP_RISE) (s.reg (tbKey i + Reg.TB_COUNT))
  s2.setTimebase i ((s.timebase i).setRisen c true)

/-- A closing edge after a RISE latches FALL, writes WIDTH and sets DONE; one with no RISE is ignored (R122). -/
def captureFall (i c : Nat) (s : State) : State :=
  if (s.timebase i).risen c then
    let m := s.tbModulus i
    let rise := (s.reg (capKey i c + Reg.TB_CAP_RISE)).toNat
    let s1 := s.setReg (capKey i c + Reg.TB_CAP_FALL) (s.reg (tbKey i + Reg.TB_COUNT))
    let s2 := s1.setReg (capKey i c + Reg.TB_CAP_WIDTH) (BitVec.ofNat 20 ((s.tbCount i + (m - rise % m)) % m))
    (s2.put (tbKey i) (capDone c) 1).setTimebase i ((s.timebase i).setRisen c false)
  else s

/-- A detected edge of the pin a capture unit watches: POL says whether a rising edge opens or closes (R122). Unit 1 with SEL
set takes events in place of a pin. -/
def capturePin (i c : Nat) (rise : Bool) (s : State) : State :=
  if s.flag (capKey i c) Reg.TB_CAP_CFG_EN && !(decide (c = 1) && s.flag (capKey i c) Reg.TB_CAP_CFG_SEL) then
    if rise = s.flag (capKey i c) Reg.TB_CAP_CFG_POL then captureFall i c s else captureRise i c s
  else s

/-- An event at the consumer of capture unit 1: the first is the rise and the second the fall (R122). -/
def captureEvent (i : Nat) (s : State) : State :=
  if s.flag (capKey i 1) Reg.TB_CAP_CFG_EN && s.flag (capKey i 1) Reg.TB_CAP_CFG_SEL then
    if (s.timebase i).risen 1 then captureFall i 1 s else captureRise i 1 s
  else s

/-! ## Delivery (R544, R545) -/

/-- The action of consumer c (R544), which is enabled and not busy. -/
def consumerAct (c : Nat) (s : State) : State :=
  let k := s.consumer c
  if c < 64 then s.onCopies (fun h s => captureEvent (bayIx h c) s)
  else if c < 72 then captureEvent (128 + (c - 64)) s
  else if c < 104 then
    match k.mode with
    | 0 => s.setConsumer c { k with out := true }
    | 1 => s.setConsumer c { k with out := false }
    | 2 => s.setConsumer c { k with out := !k.out }
    | 3 => s.setConsumer c { k with out := true, busy := true, since := s.tref }
    | 4 => s.setConsumer c { k with out := false, busy := true, since := s.tref }
    | _ => s
  else if c < 136 then s.setConsumer c { k with pend := true }
  else if c < 144 then
    if s.power.mode = .sleep then
      { s.setConsumer c { k with busy := true } with power := { s.power with matrixWake := true } }
    else s
  else s

/-- A consumer is busy: its pulse runs, or, for an IRQ consumer, its PEND is set (R544). -/
def Consumer.isBusy (k : Consumer) (c : Nat) : Bool :=
  if 104 ≤ c ∧ c < 136 then k.pend else k.busy

/-- A consumer counts events merged or ignored (R545). -/
def dropEvents (c n : Nat) (s : State) : State :=
  s.setConsumer c { s.consumer c with drop := min 0xFFFFF ((s.consumer c).drop + n) }

/-- Pulses of producers that meet reach consumer c: they are one event, at which it acts if it is enabled and not busy, and
each further pulse counts a drop; a busy one counts a drop for each; one that is not enabled does nothing (R545). -/
def deliver (ps : List Nat) (c : Nat) (s : State) : State :=
  let k := s.consumer c
  let n := (ps.filter (fun p => k.enables.getLsbD p)).length
  if k.en && decide (0 < n) then
    if k.isBusy c then dropEvents c n s else consumerAct c (dropEvents c (n - 1) s)
  else s

/-- A producer can pulse: all in RUN and IDLE, some in SLEEP, none where the matrix is stopped (R541, R542). -/
def State.mayPulse (s : State) (p : Nat) : Bool :=
  match s.power.mode with
  | .run => true
  | .sleep => decide (p < 232) || decide (248 ≤ p)
  | _ => false

/-- Pulses that meet reach every consumer. Only a consumer that has been configured can act, and those are the ones the table
lists. -/
def raiseEvents (ps : List Nat) (s : State) : State :=
  let live := ps.filter (fun p => s.mayPulse p)
  if live = [] then s else (s.consumers.map Prod.fst).foldl (fun s c => deliver live c s) s

/-- A pulse of producer p. -/
def raiseEvent (p : Nat) (s : State) : State := raiseEvents [p] s

/-- The producers (R542). -/
abbrev evTbCmp (n : Nat) : Nat := n
abbrev evBayA (n : Nat) : Nat := 64 + n
abbrev evBayB (n : Nat) : Nat := 128 + n
abbrev evGtCmp (g : Nat) : Nat := 192 + g
abbrev evGpin (p : Nat) : Nat := 200 + p
abbrev evWatch : Nat := 232
abbrev evTakeover : Nat := 233
abbrev evDualClaim : Nat := 234
abbrev evBudgetFloor : Nat := 235
abbrev evBudgetSqueeze : Nat := 236
abbrev evProfile : Nat := 237
abbrev evMetLink : Nat := 238
abbrev evMetRestart : Nat := 239
abbrev evFabLink : Nat := 240
abbrev evFabAddr : Nat := 241
abbrev evFabTime : Nat := 242
abbrev evStewLock : Nat := 243
abbrev evBootFail : Nat := 244
abbrev evPfail : Nat := 245
abbrev evWake : Nat := 246
abbrev evSw (i : Nat) : Nat := 248 + i

/-- The members of a bay's event set (R543). -/
inductive BayEvent where
  | tbCmp
  | trip
  | termHealth
  | envelope
  | lineTrip
  | lineTx
  | lineRx
  | lineEngine
  | recog
  deriving DecidableEq, Repr

def BayEvent.bit : BayEvent → Nat
  | .tbCmp => 0
  | .trip => 1
  | .termHealth => 2
  | .envelope => 3
  | .lineTrip => 4
  | .lineTx => 5
  | .lineRx => 6
  | .lineEngine => 7
  | .recog => 8

/-- The producers that a member of a bay's event set makes pulse, under BAY_EVSEL (R543). -/
def bayProducers (b : Nat) (e : BayEvent) (sel : Word) : List Nat :=
  (if e = .tbCmp then [evTbCmp b] else []) ++ (if sel.getLsbD e.bit then [evBayA b] else [])
    ++ (if sel.getLsbD (9 + e.bit) then [evBayB b] else [])

/-- A member of bay b's event set pulses in half h's copy. The matrix takes a bay's producers only from the seat holder
(R543); in SLEEP they pulse through compares and line trips alone (R542). -/
def raiseBayEvent (h : Half) (b : Nat) (e : BayEvent) (s : State) : State :=
  if s.holder b = h ∧ (s.power.mode = .sleep → e = .tbCmp ∨ e = .lineTrip) then
    raiseEvents (bayProducers b e (s.reg (bayKey h b + Reg.BAY_EVSEL))) s
  else s

end Sys2Proof.Machine
end

