-- ==== Sys2Proof/Machine/Budget.lean ====
section
/-! DEFINITION. The budget governor's books (R84 to R92): what an activity of a half has spent, borrowed and lent on its
resources, and the withholding of acknowledges. -/

namespace Sys2Proof.Machine

/-! ## Budget (R84 to R94). A place is 4a + r for activity a and resource r. Time is held in TREF counts, 200 to a grain. -/

def State.budget (s : State) (h : Half) : Budget := (s.half h).budget

def State.setBudget (s : State) (h : Half) (x : Budget) : State := s.setHalf h { s.half h with budget := x }

/-- The watch length in µs (R93). -/
def State.watchUs (s : State) (h : Half) : Nat := s.get (halfKey h) Reg.BG_LEN_US

/-- The capacity of a resource, in grains (R84). -/
def capacity (r w : Nat) : Nat := if r = 0 then 8 * w else w

/-- An activity whose floor the governor keeps (R85). -/
def isFloored (a : Nat) : Bool := decide (a < 3)

/-- The floor in force at a place (R86, R103). -/
def State.floorAt (s : State) (h : Half) (place : Nat) : Nat :=
  if place = 0 then (s.reg (halfKey h + Reg.BG_FLOOR)).toNat
  else if place = 4 then (s.reg (halfKey h + Reg.BG_FLOOR + 1)).toNat
  else if place = 9 then (s.reg (halfKey h + Reg.BG_FLOOR + 2)).toNat
  else 0

/-- The grant in force (R104). -/
def State.grantAt (s : State) (h : Half) (place : Nat) : Nat := (s.reg (halfKey h + Reg.BG_GRANT + place)).toNat

/-- The effective grant: of a floored activity the larger of grant and floor (R87). -/
def State.effective (s : State) (h : Half) (place : Nat) : Nat := max (s.grantAt h place) (s.floorAt h place)

/-- The places of a resource. -/
def placesOf (r : Nat) : List Nat := (List.range 12).map (fun a => 4 * a + r)

/-- Unspent TREF counts of a place, negative where overspent (R89, R90). -/
def State.unspent (s : State) (h : Half) (place : Nat) : Int :=
  let b := s.budget h
  200 * ((s.effective h place : Int) - tblGet b.debt 0 place + tblGet b.borrowed 0 place - tblGet b.lent 0 place)
    - tblGet b.spent 0 place

/-- The pool of a resource at the start of a watch (R90). -/
def State.basePool (s : State) (h : Half) (r : Nat) : Nat :=
  capacity r (s.watchUs h) - ((placesOf r).map (fun p => s.effective h p)).sum

/-- A new watch begins: nothing spent, borrowed or lent; the pools are filled. -/
def newWatch (h : Half) (debt : Tbl Nat) (s : State) : State :=
  let b := s.budget h
  s.setBudget h
    { b with
      spent := [], borrowed := [], lent := [], debt := debt,
      pool := [0, 1, 2, 3].foldl (fun t r => tblSet t 0 r (s.basePool h r)) [] }

/-- The half's table for a resource is in force (R84). -/
def State.governs (s : State) (h : Half) (r : Nat) : Bool :=
  if r = 2 then decide (s.runner blkArchive = h) else if r = 3 then decide (s.runner blkFabric = h) else true

/-- Whole grains of TREF counts: a part of a grain counts as one (DESIGN CHOICE, log entry 112; R105 and R106 state no
rounding). -/
def grains (t : Nat) : Nat := (t + 199) / 200

/-- A grain of the pool is borrowed for a place (R90). -/
def borrowGrain (h : Half) (place n : Nat) (s : State) : State :=
  let b := s.budget h
  s.setBudget h
    { b with
      borrowed := tblSet b.borrowed 0 place (tblGet b.borrowed 0 place + n),
      pool := tblSet b.pool 0 (place % 4) (tblGet b.pool 0 (place % 4) - n) }

/-- The excess of a floored activity beyond the pool comes from what other activities have not spent; the spec names no
order among them: the highest activity number first (R87). -/
def takeFromOthers (h : Half) (place : Nat) : List Nat → Nat → State → State
  | [], _, s => s
  | p :: t, need, s =>
    let n := min need ((s.unspent h p).toNat / 200)
    let b := s.budget h
    let s1 := s.setBudget h
      { b with
        lent := tblSet b.lent 0 p (tblGet b.lent 0 p + n),
        borrowed := tblSet b.borrowed 0 place (tblGet b.borrowed 0 place + n) }
    takeFromOthers h place t (need - n) s1

/-- A transfer that started is charged (R84, R87, R89). -/
def chargeTransfer (h : Half) (place hold : Nat) (s : State) : State :=
  if 48 ≤ place then s
  else
    let b := s.budget h
    let s1 := s.setBudget h { b with spent := tblSet b.spent 0 place (tblGet b.spent 0 place + hold) }
    let over_ := grains (-(s1.unspent h place)).toNat
    if isFloored (place / 4) ∧ 0 < over_ then
      let n := min over_ (tblGet (s1.budget h).pool 0 (place % 4))
      let s2 := borrowGrain h place n s1
      let others := ((List.range 9).map (fun i => 4 * (11 - i) + place % 4))
      let s3 := takeFromOthers h place others (over_ - n) s2
      raiseEvent evBudgetFloor (s3.put (halfKey h) Reg.BG_STAT_FLOOR_OVER 1)
    else s1

/-- The acknowledge is never withheld (R84, R85, R87); of MET, none while PFAIL_N is asserted (R378). -/
def State.neverWithheld (s : State) (h : Half) (place : Nat) : Bool :=
  isFloored (place / 4) || (s.power.pfail && decide (place / 4 = 11) && decide (s.runner blkMet = h)) || decide (48 ≤ place) || !s.trefRuns || !s.governs h (place % 4)

/-- The activity may borrow a grain now: it may borrow at all, the pool holds one (R90, R107). -/
def State.mayBorrow (s : State) (h : Half) (place : Nat) : Bool :=
  s.flag (halfKey h + place / 4) Reg.BG_BOR_EN && decide (0 < tblGet (s.budget h).pool 0 (place % 4))

/-- Another waiting activity takes the next borrowed grain before this one: a higher PRIO, or an equal one and a lower
number (R90). -/
def State.outranked (s : State) (h : Half) (place : Nat) : Bool :=
  let prio (p : Nat) : Nat := s.get (halfKey h + p / 4) Reg.BG_BOR_PRIO
  (s.budget h).waiting.any (fun (w : Nat × Nat × Nat) =>
    decide (w.1 % 4 = place % 4) && decide (w.1 ≠ place) && s.flag (halfKey h + w.1 / 4) Reg.BG_BOR_EN
      && decide (s.unspent h w.1 < 200)
      && (decide (prio place < prio w.1) || (decide (prio place = prio w.1) && decide (w.1 < place))))

/-- The request at a place is acknowledged now: the state with a borrowed grain where it needs one, or none. -/
def admitTransfer (h : Half) (place : Nat) (s : State) : Option State :=
  if s.neverWithheld h place || decide (200 ≤ s.unspent h place) then some s
  else if s.mayBorrow h place && !s.outranked h place then some (borrowGrain h place 1 s)
  else none

/-- A request at a place is withheld: it waits, and so does its time (R89). -/
def withhold (h : Half) (place hold : Nat) (s : State) : State :=
  let b := s.budget h
  s.setBudget h { b with waiting := b.waiting ++ [(place, hold, s.tref)] }

/-- A request withheld at a place is acknowledged: it waits no more, and its wait is counted (R89, R106). -/
def release (h : Half) (w : Nat × Nat × Nat) (s : State) : State :=
  let b := s.budget h
  (s.setBudget h { b with waiting := b.waiting.erase w }).count (halfKey h + Reg.BG_STALL + w.1 / 4) (grains (s.tref - w.2.2))

/-- The first request withheld at a place. -/
def State.withheld (s : State) (h : Half) (place : Nat) : Option (Nat × Nat × Nat) :=
  (s.budget h).waiting.find? (fun w => decide (w.1 = place))

/-- An access of the model's own is charged: the spec does not say for how long it holds its resource, a free value. -/
def chargeAccess (h : Half) (place : Nat) (s : State) : State :=
  chargeTransfer h place (Config.holdTime s.freeCount) { s with freeCount := s.freeCount + 1 }

/-- An access of an activity to a resource, asked for by a command other than TRANSFER_REQUEST, is acknowledged (R89): none
while the acknowledge is withheld; it waits then as a request that holds nothing yet. -/
def State.admitted (s : State) (h : Half) (a r : Nat) : Option State :=
  let place := 4 * a + r
  match s.withheld h place with
  | some w => if w.2.1 = 0 then (admitTransfer h place s).map (release h w) else none
  | none => admitTransfer h place s

/-- The state with an access acknowledged and charged. -/
def State.access (s : State) (h : Half) (a r : Nat) : Option State := (s.admitted h a r).map (chargeAccess h (4 * a + r))

/-- The state in which an access that is not acknowledged waits. -/
def awaitAccess (h : Half) (a r : Nat) (s : State) : State :=
  if (s.withheld h (4 * a + r)).isSome then s else withhold h (4 * a + r) 0 s

/-- What an access does once it is acknowledged; until then it waits. -/
def withAccess (h : Half) (a r : Nat) (f : State → State) (s : State) : State :=
  match s.access h a r with
  | some t => f t
  | none => awaitAccess h a r s

/-- An activity's number (R85). -/
abbrev actTerm : Nat := 0
abbrev actLine : Nat := 1
abbrev actMirror : Nat := 2
abbrev actPipe : Nat := 3
abbrev actCode : Nat := 4
abbrev actArchW : Nat := 5
abbrev actArchR : Nat := 6
abbrev actFabTx : Nat := 7
abbrev actStew : Nat := 8
abbrev actHost : Nat := 9
abbrev actTest : Nat := 10
abbrev actMet : Nat := 11

end Sys2Proof.Machine
end

