-- ==== Sys2Proof/Machine/Bushels.lean ====
section
/-! DEFINITION. The coder, the bushel format, and the bushels of a half: opening, coding and sealing (R322 to R340). -/

namespace Sys2Proof.Machine

/-! ## Engines and channels (R322, R323) -/

def State.coder (s : State) (h : Half) (e : Nat) : Coder := tblGet s.coders Coder.reset (4 * h.num + e)

def State.setCoder (s : State) (h : Half) (e : Nat) (x : Coder) : State :=
  { s with coders := tblSet s.coders Coder.reset (4 * h.num + e) x }

def State.chan (s : State) (c : Nat) : Chan := tblGet s.chans Chan.reset c

def State.setChan (s : State) (c : Nat) (x : Chan) : State := { s with chans := tblSet s.chans Chan.reset c x }

/-- The engine of a channel: that of its bay or metrology channel, modulo 4 (R323). -/
def engineOf (c : Nat) : Nat :=
  if c < 16384 then c / 256 % 4 else if c < 16448 then (c - 16384) % 4 else (c - 16448) % 4

/-- The half that codes a channel now, if one does: the healthy seat holder of its bay, or the half that runs the
metrology link (R323). -/
def State.codedBy (s : State) (c : Nat) : Option Half :=
  if c < 16448 then
    let b := if c < 16384 then c / 256 else c - 16384
    if s.orphaned b then none else some (s.holder b)
  else some (s.runner blkMet)

/-- Where the moves and interruptions of a channel's coding are counted: its bay, or 64 for the metrology channels. -/
def gapOf (c : Nat) : Nat := if c < 16384 then c / 256 else if c < 16448 then c - 16384 else 64

/-- How often the coding of a channel has moved or been interrupted. -/
def State.gapsOf (s : State) (c : Nat) : Nat := tblGet s.gaps 0 (gapOf c)

/-- The coding of a bay's channels, or of the metrology channels as 64, moves or is interrupted (R307, R338). -/
def noteGap (g : Nat) (s : State) : State := { s with gaps := tblSet s.gaps 0 g (tblGet s.gaps 0 g + 1) }

/-- Record types (R337). -/
abbrev recRecog : Nat := 1
abbrev recHealth : Nat := 2
abbrev recTrip : Nat := 3
abbrev recEnvelope : Nat := 4
abbrev recLine : Nat := 5
abbrev recLost : Nat := 6
abbrev recDropped : Nat := 7

/-! ## The coder (R329 to R334) -/

/-- floor(log2 v) + 1, and 0 for 0 (R332). -/
def nbits (v : Nat) : Nat := if v = 0 then 0 else Nat.log2 v + 1

def Bushel.put (x : Bushel) (l : List Bool) : Bushel := { x with rbits := l.reverse ++ x.rbits }

/-- 23 ones: an escape (R329). -/
def escape : List Bool := List.replicate 23 true

/-- A Rice codeword of u with parameter k, where it is not an escape (R329). -/
def riceCode (u k : Nat) : Option (List Bool) :=
  if u >>> k < 23 then some (List.replicate (u >>> k) true ++ [false] ++ natBits k u) else none

/-- The adaptation of a Rice parameter: the new accumulator and parameter (R332). -/
def riceAdapt (acc u : Nat) : Nat × Nat :=
  let a := acc - acc / 16 + u
  (a, min 19 (nbits (a / 32)))

/-- Zigzag mapping (R331). -/
def zigzag (q : Int) : Nat := if 0 ≤ q then (2 * q).toNat else (-2 * q - 1).toNat

/-- Clamped to s20 or u20 (R331). -/
def clampBy (sgn : Bool) (v : Int) : Int :=
  if sgn then max (-524288) (min 524287 v) else max 0 (min 1048575 v)

/-- The number a value stands for, by SGN. -/
def valueOf (sgn : Bool) (w : Word) : Int := if sgn then w.toInt else w.toNat

/-- The prediction of the next value (R331). -/
def Bushel.predict (x : Bushel) : Int :=
  clampBy x.set.sgn <|
    match x.set.order, x.hist with
    | 0, _ => if x.set.sgn then 0 else 0x80000
    | _, [] => if x.set.sgn then 0 else 0x80000
    | 1, r :: _ => r
    | _, [r] => r
    | _, r :: r2 :: _ => 2 * r - r2

/-- The quantised residual of a value (R331). -/
def Bushel.residual (x : Bushel) (v : Int) : Int :=
  let d := v - x.predict
  let e : Int := x.set.e
  if 0 ≤ d then (d + e) / (2 * e + 1) else -((-d + e) / (2 * e + 1))

/-- The reconstruction of a value as the next one coded (R331). -/
def Bushel.recon (x : Bushel) (v : Int) : Int :=
  clampBy x.set.sgn (x.predict + x.residual v * (2 * (x.set.e : Int) + 1))

/-- A time codeword of Δ ns (R333). -/
def Bushel.putTime (x : Bushel) (d : Int) : Bushel :=
  let u := zigzag d
  let a := riceAdapt x.acct u
  let y := match riceCode u x.kt with
    | some l => x.put l
    | none => x.put (escape ++ natBits 61 u)
  { y with acct := a.1, kt := a.2 }

/-- In EXPLICIT mode, the time of an instant at t, after which the latest time coded is that of the last of n instants
(R333). -/
def Bushel.timeOf (x : Bushel) (t n : Nat) : Bushel :=
  if x.set.explicit then
    let y := x.putTime ((t : Int) - x.tprev - (x.set.step : Int))
    { y with tprev := (t : Int) + (((n - 1) * x.set.step : Nat) : Int) }
  else x

/-- A present value is written: value, then skip, then time (R330, R331). -/
def Bushel.emit (x : Bushel) (v : Int) (skip t : Nat) : Bushel :=
  let u := zigzag (x.residual v)
  let r := x.recon v
  let a := riceAdapt x.acc u
  let y := match riceCode u x.k with
    | some l => x.put l
    | none => { x.put (escape ++ natBits 4 0 ++ natBits 21 u) with raws := x.raws + 1 }
  let z := if x.set.thin then y.put (natBits 6 skip) else y
  { z with acc := a.1, k := a.2, hist := (r :: x.hist).take 2 }.timeOf t 1

/-- The pending candidate is emitted as a knot (R334). -/
def Bushel.knot (x : Bushel) : Bushel :=
  match x.seg with
  | [] => x
  | v :: t => { x.emit v t.length 0 with seg := [] }

/-- A missing run is written, in items of at most 1,048,576 instants (R329). -/
def Bushel.putRun (x : Bushel) (cause n t : Nat) : Nat → Bushel
  | 0 => x
  | fuel + 1 =>
    let m := min n 0x100000
    let y := { x.put (escape ++ natBits 4 1 ++ natBits 3 cause ++ natBits 20 (m - 1)) with hist := [] }.timeOf t m
    if n ≤ 0x100000 then y else y.putRun cause (n - m) (t + m * x.set.step) fuel

/-- The missing run that waits is written. -/
def Bushel.closeRun (x : Bushel) : Bushel :=
  match x.run with
  | none => x
  | some (cause, n, t) => { x.putRun cause n t (n / 0x100000 + 1) with run := none }

/-- Missing instants join the run that waits, or start one (R329, R334). -/
def Bushel.addMissing (x : Bushel) (cause n t : Nat) : Bushel :=
  let y := { x.knot with last := t + (n - 1) * x.set.step }
  match y.run with
  | some (c, m, t0) =>
    if c = cause then { y with run := some (c, m + n, t0) } else { y.closeRun with run := some (cause, n, t) }
  | none => { y with run := some (cause, n, t) }

/-- floor interpolation between knots at distance n, at distance m from the first (R334). -/
def lerp (ra rj : Int) (n m : Nat) : Int := ra + (2 * (rj - ra) * (m : Int) + (n : Int)) / (2 * (n : Int))

/-- The segment from the last knot to a new present value keeps the bound at every value between (R334). -/
def Bushel.segmentOk (x : Bushel) (ra v : Int) : Bool :=
  let n := x.seg.length + 1
  let b : Int := max x.set.b x.set.e
  decide (n ≤ 64)
    && ((List.range x.seg.length).zip x.seg.reverse).all
        (fun p => let d := p.2 - lerp ra (x.recon v) n (p.1 + 1); decide (-b ≤ d) && decide (d ≤ b))

/-- A present value joins the body (R329 to R334). -/
def Bushel.addValue (x : Bushel) (v : Int) (fl t : Nat) : Bushel :=
  let y := { x.closeRun with last := t }
  let z := match y.flags with
    | none => { y with flags := some fl, flags0 := fl }
    | some f => if f = fl then y else { y.knot.put (escape ++ natBits 4 2 ++ natBits 4 fl) with flags := some fl }
  if z.set.thin then
    match z.hist with
    | [] => z.emit v 0 t
    | ra :: _ =>
      if z.segmentOk ra v then { z with seg := v :: z.seg }
      else { z.knot with seg := [v] }
  else z.emit v 0 t

/-- A record joins the body (R336). -/
def Bushel.addRecord (x : Bushel) (rtype : Nat) (payload : List Byte) (t : Nat) : Bushel :=
  let head := bigEndian 1 rtype ++ bigEndian 1 payload.length ++ bigEndian 5 (t - x.last)
  { x.put (bytesBits (head ++ payload)) with last := t }

/-! ## Bushels (R325 to R328) -/

/-- What a seal leaves pending is written (R334). -/
def Bushel.finish (x : Bushel) : Bushel := x.knot.closeRun

/-- Bits of an END item, and of the LOST that may still go before the body (R329, R338). -/
def Bushel.overhead (x : Bushel) : Nat :=
  (if x.records then 0 else 27) + (if x.tko then (if x.records then 152 else 119) else 0)

/-- The bytes a bushel has when sealed as it stands, header and seal included. -/
def Bushel.size (x : Bushel) : Nat :=
  let y := x.finish
  44 + (y.rbits.length + y.overhead + 7) / 8

/-- The bytes of a string of bits, with zero bits to the byte boundary. -/
def packBits (l : List Bool) : List Byte :=
  (List.range ((l.length + 7) / 8)).map
    (fun i => BitVec.ofNat 8 (bitsNat ((List.range 8).map (fun j => (l[8 * i + j]?).getD false))))

/-- The body of a sealed bushel, with LOST first where the channel lost bushel s (R329, R336, R338). -/
def Bushel.body (x : Bushel) (lost : Option (Nat × Nat)) : List Byte :=
  if x.records then
    let pre := match lost with
      | some (q, from_) => bigEndian 1 recLost ++ bigEndian 1 12 ++ bigEndian 5 0 ++ bigEndian 4 q ++ bigEndian 8 from_
      | none => []
    pre ++ packBits x.rbits.reverse
  else
    let pre := match lost with
      | some (q, from_) => escape ++ natBits 4 3 ++ natBits 32 q ++ natBits 60 from_
      | none => []
    packBits (pre ++ x.rbits.reverse ++ escape ++ natBits 4 15)

/-- The header of a bushel of a length (R327). -/
def Bushel.header (x : Bushel) (len : Nat) : List Byte :=
  let bit (c : Bool) (n : Nat) : Nat := if c then 2 ^ n else 0
  let set := if x.records then { CodeSet.zero with step := 0 } else x.set
  bigEndian 2 0xB54C ++ bigEndian 1 1
    ++ bigEndian 1 (bit x.records 7 + bit (decide (0 < set.e) || set.thin) 6 + bit x.chg 5 + bit x.tko 4 + bit x.flush 3
        + bit x.full 2)
    ++ bigEndian 2 len ++ bigEndian 2 x.chan ++ bigEndian 8 Config.uid.toNat ++ bigEndian 4 x.seq ++ bigEndian 8 x.t0
    ++ bigEndian 6 set.step ++ bigEndian 2 (set.order * 0x4000 + bit set.sgn 13 + bit set.explicit 12 + set.e)
    ++ bigEndian 2 (bit set.thin 15 + (if set.thin then set.b else 0)) ++ bigEndian 1 x.k0 ++ bigEndian 1 x.flags0

/-- The bytes of a sealed bushel (R327, R328). -/
def Bushel.bytes (x : Bushel) (lost : Option (Nat × Nat)) : List Byte :=
  let body := x.body lost
  let l := x.header (44 + body.length) ++ body
  l ++ bigEndian 4 (crc32 l)

/-! ## Open bushels -/

def bushelIx (h : Half) (c : Nat) : Nat := 0x10000 * h.num + c

def State.openBushel (s : State) (h : Half) (c : Nat) : Option Bushel := tblFind s.bushels (bushelIx h c)

def State.setOpen (s : State) (h : Half) (c : Nat) (x : Bushel) : State :=
  { s with bushels := tblPut s.bushels (bushelIx h c) x }

def State.closeOpen (s : State) (h : Half) (c : Nat) : State := { s with bushels := tblDel s.bushels (bushelIx h c) }

def State.codeHalf (s : State) (h : Half) : CodeHalf := tblGet s.codeHalves CodeHalf.reset h.num

def State.setCodeHalf (s : State) (h : Half) (x : CodeHalf) : State :=
  { s with codeHalves := tblSet s.codeHalves CodeHalf.reset h.num x }

/-- Bushels in a half's seal queue: those passed to the archive and those committed and not yet programmed (R399). -/
def State.sealQueue (s : State) (h : Half) : Nat :=
  (s.codeHalf h).out.length
    + (s.archive.landed.filter (fun l => decide (l.half = some h) && decide (s.archive.prog ≤ l.pos))).length

/-- The settings of a channel in half h's copy (R345). -/
def State.chanCfg (s : State) (h : Half) (c : Nat) : ChanCfg := tblGet s.chanCfgs ChanCfg.reset (bushelIx h c)

def State.setChanCfg (s : State) (h : Half) (c : Nat) (x : ChanCfg) : State :=
  { s with chanCfgs := tblSet s.chanCfgs ChanCfg.reset (bushelIx h c) x }

/-- The seal interval in ms of a SEAL code (R98, R326). -/
def sealMs (p : Profile) : Nat → Nat
  | 0 => match p with | .noon => 250 | .dusk => 500 | .night => 1000
  | 1 => 50
  | 2 => 100
  | 3 => 250
  | 4 => 500
  | 5 => 1000
  | 6 => 2000
  | 7 => 5000
  | 8 => 10000
  | 9 => 30000
  | _ => 60000

/-- The seal interval of a channel in ms (R326, R349). -/
def State.sealInterval (s : State) (h : Half) (c : Nat) : Nat :=
  let code := if c < 16448 then bits (s.chanCfg h c).w0 15 12 else s.get (halfKey h) Reg.CE_XCFG_SEAL
  sealMs (s.half h).defaults.sealing code

/-- The tolerance of a sample channel (R98, R345). -/
def State.tolerance (s : State) (h : Half) (c : Nat) : Nat :=
  let w := (s.chanCfg h c).w0
  if bits w 19 19 = 1 then (match (s.half h).defaults.tol with | .noon => 2 | .dusk => 4 | .night => 8) else bits w 11 0

/-- A bushel opens with its first item, of time t, that entered its engine at a TREF edge (R325 to R327, R338). -/
def State.newBushel (s : State) (h : Half) (c : Nat) (records : Bool) (set : CodeSet) (t enter : Nat) : Bushel :=
  let k := s.chan c
  let chg := k.chg || (k.coder.isSome && decide (k.set ≠ set))
  let k0 := if chg || records || k.coder.isNone then 0 else k.k0
  { Bushel.reset with
    chan := c, seq := k.seq, records := records, chg := chg,
    tko := k.tko || decide (k.gaps ≠ s.gapsOf c), t0 := t, set := set, k0 := k0,
    deadline := enter + 200000 * s.sealInterval h c, last := t, k := k0, acc := if k0 = 0 then 0 else 2 ^ (k0 + 4),
    tprev := (t : Int) - (set.step : Int) }

/-- The bushel just opened is the channel's latest (R338). -/
def State.opened (s : State) (h : Half) (c : Nat) (set : CodeSet) : State :=
  let k := s.chan c
  s.setChan c { k with seq := (k.seq + 1) % 2 ^ 32, chg := false, tko := false, coder := some h, set := set, gaps := s.gapsOf c }

/-- A bushel of a channel opens (R325). -/
def openChan (h : Half) (c : Nat) (records : Bool) (set : CodeSet) (chg : Bool) (t enter : Nat) (s : State) : State :=
  let s1 := if chg ∧ (s.chan c).coder.isSome then s.setChan c { s.chan c with chg := true } else s
  (s1.opened h c set).setOpen h c (s1.newBushel h c records set t enter)

/-- The open bushel of a channel is sealed and passed to the seal queue, or waits for it in its engine (R325, R343). -/
def sealBushel (h : Half) (c : Nat) (flush full : Bool) (s : State) : State :=
  match s.openBushel h c with
  | none => s
  | some x =>
    let y := { x.finish with flush := flush, full := full }
    let k := s.chan c
    let s1 := ((s.closeOpen h c).setChan c { k with k0 := if y.records then 0 else y.k }).count
      (halfKey h + Reg.CE_CNT) 1
    let s2 := s1.count (halfKey h + Reg.CE_CNT + 3) y.raws
    let q := s2.codeHalf h
    let s3 := s2.setCodeHalf h { q with sealedBytes := q.sealedBytes + x.size }
    if s3.sealQueue h < 128 then
      let q3 := s3.codeHalf h
      s3.setCodeHalf h { q3 with out := q3.out ++ [{ y with raws := 0 }] }
    else
      let e := s3.coder h (engineOf c)
      (s3.setCoder h (engineOf c) { e with waiting := e.waiting ++ [{ y with raws := 0 }] }).put (halfKey h)
        Reg.CE_STAT_SQFULL 1

/-- A half holds a bushel of a channel that the archive has not committed: sealed, or with others' open. -/
def State.holdsSealed (s : State) (h : Half) (c : Nat) : Bool :=
  (s.codeHalf h).out.any (fun x => decide (x.chan = c)) || (s.coder h (engineOf c)).waiting.any (fun x => decide (x.chan = c))

/-- The channel's previous bushel is not committed, so that a half opens no new one (R399): its own, or the other half's, whose
coding of the channel has moved (R338). -/
def State.chanBlocked (s : State) (h : Half) (c : Nat) : Bool :=
  (s.openBushel h c).isNone
    && (s.holdsSealed h c || s.holdsSealed h.other c || (s.openBushel h.other c).isSome)

/-! ## Coding (R323, R324) -/

/-- Nothing is coded in the bushel yet. -/
def Bushel.bare (x : Bushel) : Bool := x.rbits.isEmpty && x.run.isNone && x.seg.isEmpty

/-- The body with an item. -/
def Bushel.addItem (x : Bushel) (i : Item) : Bushel :=
  match i.value with
  | some w => x.addValue (valueOf i.set.sgn w) i.flags i.ts
  | none => x.addMissing i.miss i.n i.ts

/-- Input of a watch grows (R350). -/
def countInput (h : Half) (n : Nat) (s : State) : State :=
  s.setCodeHalf h { s.codeHalf h with input := (s.codeHalf h).input + n }

/-- The item leaves the queue and stands in the bushel. -/
def storeItem (h : Half) (i : Item) (rest : List Item) (x : Bushel) (s : State) : State :=
  let e := engineOf i.chan
  let s1 := (s.setCoder h e { s.coder h e with samples := rest }).setOpen h i.chan x
  if i.value.isSome then countInput h 5 s1 else s1

/-- An engine codes an item (R325, R331): into the open bushel, or a new one. Where the open bushel must be sealed first, for
size, for a change of coding or because the item came after its deadline, this step seals it and the item keeps its place. -/
def codeItem (h : Half) (i : Item) (before after : List Item) (s : State) : State :=
  match s.openBushel h i.chan with
  | some x =>
    let y := x.addItem i
    let changed := i.chg || decide (x.set ≠ i.set)
    if !x.bare && changed then
      let s1 := sealBushel h i.chan false false s
      s1.setChan i.chan { s1.chan i.chan with chg := true }
    else if !x.bare && decide (x.deadline ≤ i.enter) then sealBushel h i.chan false (decide (4096 < y.size)) s
    else if y.size ≤ 4096 then storeItem h i (before ++ after) y s
    else sealBushel h i.chan false true s
  | none =>
    let s1 := openChan h i.chan false i.set i.chg i.ts i.enter s
    match s1.openBushel h i.chan with
    | some x => storeItem h i (before ++ after) (x.addItem i) s1
    | none => s1

/-- The first item of a queue that a test picks, with those before and after it. -/
def pickFirst {α : Type} (p : α → Bool) : List α → List α → Option (List α × α × List α)
  | _, [] => none
  | b, i :: t => if p i then some (b, i, t) else pickFirst p (b ++ [i]) t

/-- The first item of a queue whose channel can take it, with those before and after it. -/
def State.pickItem (s : State) (h : Half) (l : List Item) : Option (List Item × Item × List Item) :=
  pickFirst (fun i => !s.chanBlocked h i.chan) [] l

/-- A record and the DROPPED record that goes before it (R324, R336). -/
def Bushel.addRec (x : Bushel) (r : Rec) : Bushel :=
  let y := if 0 < r.dropped then x.addRecord recDropped (bigEndian 3 (min r.dropped 0xFFFFFF)) r.ts else x
  y.addRecord r.rtype r.payload r.ts

/-- The record leaves the queue and stands in the bushel. -/
def storeRecord (h : Half) (r : Rec) (rest : List Rec) (x : Bushel) (s : State) : State :=
  let e := engineOf r.chan
  countInput h (2 * (7 + r.payload.length)) ((s.setCoder h e { s.coder h e with records := rest }).setOpen h r.chan x)

/-- An engine stores a record, into the open bushel or a new one; a record that came after the bushel's deadline, or would not
fit, seals the bushel first (R326, R336). -/
def codeRecord (h : Half) (r : Rec) (rest : List Rec) (s : State) : State :=
  match s.openBushel h r.chan with
  | some x =>
    let y := x.addRec r
    if !x.bare && decide (x.deadline ≤ r.enter) then sealBushel h r.chan false (decide (4096 < y.size)) s
    else if y.size ≤ 4096 then storeRecord h r rest y s
    else sealBushel h r.chan false true s
  | none =>
    let s1 := openChan h r.chan true CodeSet.zero false r.ts r.enter s
    match s1.openBushel h r.chan with
    | some x => storeRecord h r rest (x.addRec r) s1
    | none => s1

/-! ## What a seal takes with it (R325, R340) -/

/-- The items of a channel that entered before an edge, where one is given, are coded: they belong to the bushel to be sealed.
They wait where no new bushel may open, unless the half is about to be reset. -/
def codeItems (h : Half) (c : Nat) (before : Option Nat) (force : Bool) : Nat → State → State
  | 0, s => s
  | n + 1, s =>
    match pickFirst (fun (i : Item) => decide (i.chan = c)) [] (s.coder h (engineOf c)).samples with
    | some (b, i, t) =>
      if (!force && s.chanBlocked h c) || (match before with | some e => decide (e ≤ i.enter) | none => false) then s
      else codeItems h c before force n (codeItem h i b t s)
    | none => s

/-- The same of the records of a channel. -/
def codeRecords (h : Half) (c : Nat) (before : Option Nat) (force : Bool) : Nat → State → State
  | 0, s => s
  | n + 1, s =>
    match pickFirst (fun (r : Rec) => decide (r.chan = c)) [] (s.coder h (engineOf c)).records with
    | some (b, r, t) =>
      if (!force && s.chanBlocked h c) || (match before with | some e => decide (e ≤ r.enter) | none => false) then s
      else codeRecords h c before force n (codeRecord h r (b ++ t) s)
    | none => s

/-- What waits for the bushel of a channel is coded into it. -/
def codeWaiting (h : Half) (c : Nat) (before : Option Nat) (force : Bool) (s : State) : State :=
  let q := s.coder h (engineOf c)
  codeRecords h c before force (2 * q.records.length) (codeItems h c before force (2 * q.samples.length) s)

/-- The bushel of a channel is sealed with what waits for it: an item in the engine's queue has opened the bushel or joined it
when it entered (R325, R340, R399). -/
def sealChan (h : Half) (c : Nat) (flush : Bool) (before : Option Nat) (force : Bool) (s : State) : State :=
  sealBushel h c flush false (codeWaiting h c before force s)

/-- The channels of a half that have an open bushel or items that wait. -/
def State.busyChans (s : State) (h : Half) : List Nat :=
  ((s.bushels.map Prod.fst).filter (fun i => decide (i / 0x10000 = h.num))).map (fun i => i % 0x10000)
    ++ [0, 1, 2, 3].flatMap (fun e => ((s.coder h e).samples.map Item.chan ++ (s.coder h e).records.map Rec.chan).eraseDups)

/-- Every bushel of a half whose channel a test picks is sealed. -/
def sealWhere (h : Half) (flush : Bool) (p : Nat → Bool) (s : State) : State :=
  ((s.busyChans h).filter p).foldl (fun s c => sealChan h c flush none false s) s

/-! ## What enters the engines (R323 to R325) -/

/-- An item or record of a channel enters its engine: a bushel whose coding has moved away or been interrupted since it opened
is sealed, and a new one opens where none is open and none may be waited for (R307, R325, R399). -/
def enterChan (h : Half) (c : Nat) (records : Bool) (set : CodeSet) (chg : Bool) (t : Nat) (s : State) : State :=
  let s1 := if (s.openBushel h c).isSome ∧ (s.chan c).gaps ≠ s.gapsOf c then sealChan h c false none false s else s
  let q := s1.coder h (engineOf c)
  if (s1.openBushel h c).isSome || s1.chanBlocked h c || q.samples.any (fun i => decide (i.chan = c))
      || q.records.any (fun r => decide (r.chan = c)) then s1
  else openChan h c records set chg t s1.tref s1

/-- Places taken in a sample queue (R324, R350). -/
def Coder.taken (x : Coder) : Nat := (x.samples.filter (fun i => !i.gone)).length

/-- Items lost at a full queue join those of their channel just before them, where they follow on in time under one setting
(R324). -/
def joinLost (x : Item) (l : List Item) : List Item :=
  match l.reverse.find? (fun i => decide (i.chan = x.chan)) with
  | some y =>
    if y.gone && !x.chg && decide (y.set = x.set) && decide (y.ts + y.n * y.set.step = x.ts) then
      l.map (fun i => if i = y then { y with n := y.n + x.n } else i)
    else l ++ [x]
  | none => l ++ [x]

/-- A sample item enters its engine's sample queue; at a full one it is lost and counted, and a missing instant with cause
OVERRUN is stored in its place (R324). -/
def pushItem (h : Half) (x : Item) (s : State) : State :=
  let e := engineOf x.chan
  let s1 := enterChan h x.chan false x.set x.chg x.ts s
  let q := s1.coder h e
  if q.taken < 256 then s1.setCoder h e { q with samples := q.samples ++ [{ x with enter := s1.tref }] }
  else
    let y := { x with value := none, miss := 6, flags := 0, gone := true, enter := s1.tref }
    ((s1.count (halfKey h + Reg.CE_CNT + 1) 1).put (halfKey h) Reg.CE_STAT_DROP 1).setCoder h e
      { q with samples := joinLost y q.samples }

/-- A record enters its engine's record queue, or is lost at a full one and counted (R324). -/
def pushRecord (h : Half) (c rtype : Nat) (payload : List Byte) (s : State) : State :=
  let e := engineOf c
  if (s.coder h e).records.length < 64 then
    let s1 := enterChan h c true CodeSet.zero false s.timeNs s
    let x := s1.coder h e
    let k := s1.chan c
    (s1.setCoder h e { x with records := x.records ++ [⟨c, rtype, payload, s1.timeNs, k.dropped, s1.tref⟩] }).setChan c
      { k with dropped := 0 }
  else
    let k := s.chan c
    ((s.count (halfKey h + Reg.CE_CNT + 2) 1).put (halfKey h) Reg.CE_STAT_RECDROP 1).setChan c
      { k with dropped := k.dropped + 1 }

end Sys2Proof.Machine
end

