-- ==== Sys2Proof/Machine/Records.lean ====
section
/-! DEFINITION. The event records of a bay (R323, R337, R346). -/

namespace Sys2Proof.Machine

/-- An event record of bay b from half h's copy, where that half codes the bay and CC_EV enables it (R323, R337,
R346). -/
def bayRecord (h : Half) (b : Nat) (en : Fld) (rtype : Nat) (payload : List Byte) (s : State) : State :=
  if s.codedBy (16384 + b) = some h ∧ s.flag (bayKey h b) en then pushRecord h (16384 + b) rtype payload s else s

/-- A bit of LN_STAT is set; a rise is a LINE record (R239, R337). -/
def setLineStat (h : Half) (b : Nat) (f : Fld) (s : State) : State :=
  if s.flag (bayKey h b) f then s
  else bayRecord h b Reg.CC_EV_LINE recLine (bigEndian 2 (2 ^ f.lo)) (s.put (bayKey h b) f 1)

end Sys2Proof.Machine
end

