-- ==== Sys2Proof/Machine/Coders.lean ====
section
/-! DEFINITION. The compression engines: their commands and settings, and what half reset leaves of them (R322 to R351). -/

namespace Sys2Proof.Machine

/-! ## The engines' commands (R324, R326, R341, R343) -/

/-- The record at the head of an engine's queue can be stored; one whose channel is held back does not stop the samples. -/
def State.recordReady (s : State) (h : Half) (e : Nat) : Bool :=
  (pickFirst (fun (r : Rec) => !s.chanBlocked h r.chan) [] (s.coder h e).records).isSome

/-- CODE_ITEM (R323, R324, R331, R343): the record queue is served first, and a sealed bushel that waits stops the
engine. An engine with no grain of CODE waits (R89, R343). -/
def execCodeItem (h : Half) (e : Fin 4) (s : State) : Result :=
  .next <|
    let q := s.coder h e.val
    if s.computes h ∧ s.power.mode = .run ∧ s.recordReady h e.val = false ∧ q.waiting = [] then
      match s.pickItem h q.samples with
      | some (b, i, t) => withAccess h actCode 0 (codeItem h i b t) s
      | none => s
    else s

/-- CODE_RECORD (R324, R336, R343): the first record of the queue whose channel can take it. -/
def execCodeRecord (h : Half) (e : Fin 4) (s : State) : Result :=
  .next <|
    let q := s.coder h e.val
    if s.computes h ∧ s.power.mode = .run ∧ q.waiting = [] then
      match pickFirst (fun (r : Rec) => !s.chanBlocked h r.chan) [] q.records with
      | some (b, r, t) => withAccess h actCode 0 (codeRecord h r (b ++ t)) s
      | none => s
    else s

/-- SEAL_DEADLINE (R326): what entered before the deadline goes with the bushel, what came after waits for the next (R340). -/
def execSealDeadline (h : Half) (c : Fin 16512) (s : State) : Result :=
  .next <|
    match s.openBushel h c.val with
    | some x => if x.deadline ≤ s.tref then sealChan h c.val false (some x.deadline) false s else s
    | none => s

/-- PFAIL_SEAL (R341, R657). -/
def execPfailSeal (h : Half) (c : Fin 16512) (s : State) : Result :=
  .next (if s.power.pfail then sealChan h c.val true none false s else s)

/-- The half whose engines the channel has moved to: the seat holder, or the half that runs the metrology link. -/
def State.chanHome (s : State) (c : Nat) : Half :=
  if c < 16384 then s.holder (c / 256) else if c < 16448 then s.holder (c - 16384) else s.runner blkMet

/-- TAKEOVER_SEAL (R72, R307, R325): the open bushel of a channel whose coding has moved away, or been interrupted, since it
opened. -/
def execTakeoverSeal (h : Half) (c : Fin 16512) (s : State) : Result :=
  .next (if (s.chan c.val).gaps = s.gapsOf c.val then s else sealChan h c.val false none false s)

/-- The channel an ENTRY of the coding window names (R344). -/
def ccChannel (b e : Nat) : Option Nat :=
  if e < 256 then some (256 * b + e) else if e = 256 then some (16384 + b) else none

/-- A write of CC_FLUSH (R347): the open bushels of the bay's holder are sealed with FLUSH. -/
def flushBay (b : Nat) (w : Word) (s : State) : State :=
  let h := s.holder b
  if bits w 9 9 = 1 then sealWhere h true (fun c => decide (c / 256 = b) || decide (c = 16384 + b)) s
  else match ccChannel b (bits w 8 0) with
    | some c => sealChan h c true none false s
    | none => s

/-- A write of CC_FLUSH by a master (R24, R347). -/
def writeFlush (m : Master) (b : Nat) (w : Word) (s : State) : State :=
  if s.bayWriteOk m b then flushBay b w s
  else s.refuseWrite (s.masterHalf m) (0x10000 + 0x400 * b + Reg.CC_FLUSH)

/-- CHANNEL_FLUSH (R347). -/
def execChannelFlush (m : Master) (b : Fin 64) (all : Bool) (entry : Fin 512) (s : State) : Result :=
  .next (writeFlush m b.val (inField 9 9 (if all then 1 else 0) ||| inField 8 0 entry.val) s)

/-- A commit of a channel's settings (R345): refused with BAD, or in force. The first item under changed settings seals the
bushel that is open then (R325). -/
def commitCoding (h : Half) (b c : Nat) (w0 w1 : Word) (s : State) : State :=
  if bits w0 18 17 = 3 ∨ 11 ≤ bits w0 15 12 then s.put (bayKey h b) Reg.CC_STAT_BAD 1
  else s.setChanCfg h c ⟨w0, inField 11 0 w1.toNat⟩

/-- Word 0 of a channel as a master has staged it (R13, R345). -/
def State.stagedCc (s : State) (m : Master) (c : Nat) : Option Word := tblFind s.staging (tableKey m (0x20000 + c))

/-- CC_A advances (R344). -/
def advanceCcA (h : Half) (b : Nat) (s : State) : State :=
  let a := s.get (bayKey h b) Reg.CC_A_ENTRY
  let n := s.get (bayKey h b) Reg.CC_A_WORD
  s.setReg (bayKey h b + Reg.CC_A) (BitVec.ofNat 20 ((8 * a + n + 1) % 4096))

/-- A write of CC_D in one half's copy, with the master's staged words: word 1 commits, and CC_A advances (R344, R345). -/
def writeCcD (h : Half) (b : Nat) (st : Nat → Option Word) (w : Word) (s : State) : State :=
  advanceCcA h b
    (match ccChannel b (s.get (bayKey h b) Reg.CC_A_ENTRY) with
     | some c =>
       if s.get (bayKey h b) Reg.CC_A_WORD = 1 then commitCoding h b c ((st c).getD (s.chanCfg h c).w0) w s else s
     | none => s)

/-- A write of CC_D by a master (R13, R24, R345): word 0 is staged; the commit of word 1 takes it out of the staging, unless it
is refused. -/
def ccdWrite (m : Master) (b : Nat) (w : Word) (s : State) : State :=
  let h := s.viewOf b
  let n := s.get (bayKey h b) Reg.CC_A_WORD
  let t := s.bayWrite m b (0x10000 + 0x400 * b + Reg.CC_D) (fun h s' => writeCcD h b (fun c => s.stagedCc m c) w s')
  match ccChannel b (s.get (bayKey h b) Reg.CC_A_ENTRY) with
  | some c =>
    let key := tableKey m (0x20000 + c)
    let w0 := (s.stagedCc m c).getD (s.chanCfg h c).w0
    if !s.bayWriteOk m b then t
    else if n = 0 then { t with staging := tblPut t.staging key w }
    else if n = 1 ∧ ¬ (bits w0 18 17 = 3 ∨ 11 ≤ bits w0 15 12) then { t with staging := tblDel t.staging key }
    else t
  | none => t

/-- What CC_D reads (R345). FILL is the header and the body as far as it is coded. -/
def State.ccD (s : State) (h : Half) (b : Nat) (word : Nat) : Word :=
  match ccChannel b (s.get (bayKey h b) Reg.CC_A_ENTRY) with
  | some c =>
    match word with
    | 0 => (s.chanCfg h c).w0
    | 1 => (s.chanCfg h c).w1
    | 2 => BitVec.ofNat 20 (s.chan c).seq
    | 3 => BitVec.ofNat 20 ((s.chan c).seq / 0x100000)
    | 4 =>
      match s.openBushel (s.holder b) c with
      | some x => BitVec.ofNat 20 (40 + (x.rbits.length + 7) / 8)
      | none => 0
    | _ => 0
  | none => 0

/-- CODING_COMMIT (R345): a write of CC_D while CC_A addresses word 1. -/
def execCodingCommit (m : Master) (b : Fin 64) (value : Word) (s : State) : Result :=
  .next (if s.get (bayKey (s.viewOf b) b) Reg.CC_A_WORD = 1 then ccdWrite m b value s else s)

/-- A write of CE_XCFG, carried to both halves and in force from the next watch boundary, as BG_LEN is (R93, R349); ORDER 3 or
SEAL 11 to 15 is not stored. -/
def writeXcfg (w : Word) (s : State) : State :=
  if bits w 1 0 = 3 ∨ 11 ≤ bits w 5 2 then s
  else
    let put (h : Half) (s : State) : State := s.setHalf h { s.half h with nextXcfg := some (inField 5 0 w.toNat) }
    put .B (put .A s)

/-- The waiting CE_XCFG takes effect at a watch boundary (R93, R349). -/
def applyXcfg (h : Half) (s : State) : State :=
  match (s.half h).nextXcfg with
  | some w => (s.setReg (halfKey h + Reg.CE_XCFG) w).setHalf h { s.half h with nextXcfg := none }
  | none => s

/-- METROLOGY_CODING_WRITE (R349). -/
def execMetrologyCodingWrite (value : Word) (s : State) : Result := .next (writeXcfg value s)

/-- SEAL_QUEUE_WAIT_END (R343). -/
def execSealQueueWaitEnd (h : Half) (e : Fin 4) (s : State) : Result :=
  .next <|
    let q := s.coder h e.val
    match q.waiting with
    | x :: t =>
      if s.sealQueue h < 128 then
        let s1 := s.setCoder h e.val { q with waiting := t }
        s1.setCodeHalf h { s1.codeHalf h with out := (s1.codeHalf h).out ++ [x] }
      else s
    | [] => s

/-! ## The watch and the half's reset -/

/-- CE_RATIO at the end of a watch (R350). -/
def ratioWatch (h : Half) (s : State) : State :=
  let q := s.codeHalf h
  let r := if q.input = 0 then 0 else min 0xFFF (q.sealedBytes * 4096 * 2 / q.input)
  (s.put (halfKey h) Reg.CE_RATIO_RATIO r).setCodeHalf h { q with input := 0, sealedBytes := 0 }

/-- A bushel that will never reach the archive (R338). -/
def loseBushel (x : Bushel) (s : State) : State :=
  let k := s.chan x.chan
  if k.lost.isSome then s else s.setChan x.chan { k with lost := some x.seq, tko := true }

/-- Items of a channel that wait for a bushel which could not open yet are lost as its bushel (R338, R399). -/
def loseHeld (h : Half) (c : Nat) (s : State) : State :=
  if (s.openBushel h c).isSome then s
  else
    let k := s.chan c
    s.setChan c { k with seq := (k.seq + 1) % 2 ^ 32, tko := true, lost := some (k.lost.getD k.seq) }

/-- A half that enters half reset (R72, R338): with a good supply it seals its open bushels, with what waits for them; at a
supply failure they are lost. What is sealed is passed on either way: no rule loses sealed data (R73, R339). -/
def abandonCoding (h : Half) (s : State) : State :=
  let es := [0, 1, 2, 3]
  let s1 := if (s.half h).supplyOk then (s.busyChans h).foldl (fun s c => sealChan h c false none true s) s
    else
      let mine := (s.bushels.filter (fun e => decide (e.1 / 0x10000 = h.num))).map Prod.snd
      mine.foldl (fun s x => loseBushel x s) ((s.busyChans h).eraseDups.foldl (fun s c => loseHeld h c s) s)
  let out := (s1.codeHalf h).out ++ es.flatMap (fun e => (s1.coder h e).waiting)
  let s2 := es.foldl (fun s e => s.setCoder h e Coder.reset) (s1.setCodeHalf h { CodeHalf.reset with out := out })
  { s2 with bushels := s2.bushels.filter (fun e => decide (e.1 / 0x10000 ≠ h.num)) }

end Sys2Proof.Machine
end

