-- ==== Sys2Proof/Machine/Fabric.lean ====
section
/-! DEFINITION. The fabric router: links, packets, addresses, routes, roles and alarms (R419 to R446). -/

namespace Sys2Proof.Machine

def State.link (s : State) (l : Nat) : Link := tblGet s.links Link.reset l

def State.setLink (s : State) (l : Nat) (x : Link) : State := { s with links := tblSet s.links Link.reset l x }

def State.route (s : State) (a : Nat) : Route := tblGet s.routes Route.reset a

def State.port (s : State) (p : Nat) : Port := tblGet s.ports Port.reset p

def State.setPort (s : State) (p : Nat) (x : Port) : State := { s with ports := tblSet s.ports Port.reset p x }

/-- The register blocks of a link and of a command port. -/
def linkKey (l : Nat) : Nat := oneKey + 0x10 * l
def portKey (p : Nat) : Nat := oneKey + 0x40 * p

def State.setRouter (s : State) (r : Router) : State := { s with router := r }

def ownUid : Nat := Config.uid.toNat

/-- The address the device holds, if it is HELD (R428). -/
def State.ownAddr (s : State) : Option Nat :=
  if s.get oneKey Reg.FAB_ADDR_STATE = 2 then some (s.get oneKey Reg.FAB_ADDR_ADDR) else none

/-- A bit of FAB_STAT is set. -/
def fabMark (f : Fld) (s : State) : State := s.put oneKey f 1

/-- A router counter counts one, by offset from FAB_CNT_NOROUTE (R457). -/
def countFab (k : Nat) (s : State) : State := s.count (oneKey + Reg.FAB_CNT + k) 1

/-- A link counter counts, by offset from LK_CNT_CRC (R457). -/
def countLink (l k n : Nat) (s : State) : State := s.count (linkKey l + Reg.LK_CNT + k) n

/-! ## Sending (R421 to R425) -/

/-- The credit a packet takes, in units of 64 bytes of its padded length (R423, R425). -/
def packetUnits (p : Packet) : Nat := ((p.payload.length + 23) / 8 * 8 + 63) / 64

/-- The credits a link starts UP with (R425). -/
def fullCredit : Tbl Nat := [(0, 128), (1, 128), (2, 256), (3, 512)]

/-- The queue without the first packet of a class; the next of the class stands at the head from now on. -/
def popClass (c now : Nat) : List (Packet × Nat) → List (Packet × Nat)
  | [] => []
  | (p, t) :: q =>
    if p.cls.val = c then
      q.zipIdx.map (fun e =>
        if e.1.1.cls.val = c ∧ (q.take e.2).all (fun f => decide (f.1.cls.val ≠ c)) then (e.1.1, now) else e.1)
    else (p, t) :: popClass c now q

/-- The packet at the head of a class. -/
def Link.head (x : Link) (c : Nat) : Option (Packet × Nat) := x.queue.find? (fun e => decide (e.1.cls.val = c))

/-- The packet to send next: of the lowest class whose head has credit (R425). -/
def Link.pick (x : Link) : Option Packet :=
  [0, 1, 2, 3].findSome? (fun c =>
    match x.head c with
    | some (p, _) => if packetUnits p ≤ tblGet x.credit 0 c then some p else none
    | none => none)

/-- An UP link sends what its credits allow (R425). -/
def drainLink (l : Nat) : Nat → State → State
  | 0, s => s
  | n + 1, s =>
    let x := s.link l
    match x.pick with
    | some p =>
      let c := p.cls.val
      drainLink l n (s.setLink l
        { x with queue := popClass c s.tref x.queue, credit := tblSet x.credit 0 c (tblGet x.credit 0 c - packetUnits p),
                 sent := some (.packet p) })
    | none => s

/-- A packet joins an UP link's queue (R425). -/
def egress (l : Nat) (p : Packet) (s : State) : State :=
  let x := s.link l
  if x.mode = .up then
    drainLink l (x.queue.length + 1) (s.setLink l { x with queue := x.queue ++ [(p, s.tref)] })
  else s

/-- A control block sent on an UP link (R422). -/
def sendBlock (l : Nat) (b : LinkOut) (s : State) : State :=
  let x := s.link l
  if x.mode = .up then s.setLink l { x with sent := some b } else s

/-- The links that are UP. -/
def State.upLinks (s : State) : List Nat := (List.range 8).filter (fun l => decide ((s.link l).mode = .up))

/-- The link a packet to an address goes out on (R435). -/
def State.nextHop (s : State) (a : Nat) : Option Nat :=
  if (s.route a).mode = 1 then some (s.route a).next else none

/-- An UNREACH to the source of a packet that failed, for CMD, AREQ and REPL (R424, R426). -/
def unreach (p : Packet) (st : Nat) (s : State) : State :=
  if p.kind = 6 ∨ p.kind = 8 ∨ p.kind = 10 then
    match s.ownAddr, s.nextHop p.src.toNat with
    | some a, some l =>
      egress l
        ⟨12, 64, 2, p.src, BitVec.ofNat 12 a, 0,
          bigEndian 1 p.kind ++ bigEndian 1 st ++ bigEndian 2 p.dst.toNat ++ bigEndian 4 p.tag.toNat⟩ s
    | _, _ => s
  else s

/-- A packet in transit is forwarded, or dropped (R426). -/
def forward (p : Packet) (s : State) : State :=
  if p.ttl ≤ 1 then unreach p St.FAB_HOPS (fabMark Reg.FAB_STAT_DROP (countFab 1 s))
  else
    match s.nextHop p.dst.toNat with
    | some l => egress l { p with ttl := p.ttl - 1 } (countFab 6 s)
    | none => unreach p St.FAB_UNREACHABLE (fabMark Reg.FAB_STAT_DROP (countFab 0 s))

/-! ## Routes (R431 to R434) -/

/-- An entry takes its values; a change is dated and marks its page (R432, R455). -/
def setRoute (a : Nat) (r : Route) (s : State) : State :=
  let old := s.route a
  if { r with changed := old.changed } = old then s
  else
    { s with routes := tblSet s.routes Route.reset a { r with changed := s.tref },
             router := { s.router with dirty := listMark s.router.dirty (a / 1024) } }

/-- The cost of a link (R431). -/
def State.linkCost (s : State) (l : Nat) : Nat := max 1 (s.get (linkKey l) Reg.LK_CTL_COST)

/-- The offers for an address: link, reported metric, offer (R433). -/
def State.offersFor (s : State) (a : Nat) : List (Nat × Nat × Nat) :=
  s.upLinks.filterMap (fun l =>
    match tblFind s.offers (8 * a + l) with
    | some (m, _) => if m + s.linkCost l < 64 then some (l, m, m + s.linkCost l) else none
    | none => none)

/-- The lowest offer, the lower link first. -/
def lowest (l : List (Nat × Nat × Nat)) : Option (Nat × Nat × Nat) :=
  l.foldl (fun best x =>
    match best with
    | none => some x
    | some b => if x.2.2 < b.2.2 then some x else some b) none

/-- An entry as R433 gives it from the offers. -/
def refreshRoute (a : Nat) (s : State) : State :=
  let r := s.route a
  if r.mode = 3 then s
  else
    let l := s.offersFor a
    match lowest l with
    | some (n, _, m) =>
      let alt := lowest (l.filter (fun x => decide (x.1 ≠ n) && decide (x.2.1 < m)))
      setRoute a { r with mode := 1, metric := m, next := n, alt := alt.map (fun x => (x.1, x.2.2)) } s
    | none => if r.mode = 1 then setRoute a { r with mode := 2, metric := 64, next := 0, alt := none } s else s

/-- Routes over a link that has left UP take their alternates, or go to metric 64 (R433, R434). -/
def failRoutes (l : Nat) (s : State) : State :=
  let s1 := (s.routes.map Prod.fst).foldl
    (fun s a =>
      let r := s.route a
      if r.mode = 1 ∧ r.next = l then
        match r.alt with
        | some (n, m) => setRoute a { r with next := n, metric := m, alt := none } s
        | none => setRoute a { r with mode := 2, metric := 64, next := 0, alt := none } s
      else if (r.alt.map Prod.fst) = some l then setRoute a { r with alt := none } s
      else s) s
  { s1 with offers := s1.offers.filter (fun e => decide (e.1 % 8 ≠ l)) }

/-- The owner of an address as a HELD claim or HELLO gives it; of two owners the higher UID stays (R429). -/
def noteOwner (a uid : Nat) (s : State) : State :=
  let r := s.route a
  if r.mode = 3 then s
  else setRoute a { r with owner := max r.owner uid } s

/-! ## Claiming an address (R428, R429) -/

/-- Candidate i of the device's search: those that go before, then h, then each 1,597 on (R428). -/
def State.candidate (s : State) (i : Nat) : Nat :=
  let p := s.router.prefs
  match p[i]? with
  | some a => a
  | none => (crc32 (bigEndian 8 ownUid) % 4096 + 1597 * (i - p.length)) % 4096

/-- A candidate is skipped: the route table holds it with another owner (R428). -/
def State.taken (s : State) (a : Nat) : Bool :=
  let r := s.route a
  (decide (r.mode = 1) || decide (r.mode = 2)) && decide (r.owner ≠ ownUid)

/-- The address in the SRC of what the device sends (R423). -/
def State.srcAddr (s : State) : BitVec 12 := match s.ownAddr with | some a => BitVec.ofNat 12 a | none => 0

/-- A CLAIM on every UP link (R424, R429). -/
def floodClaim (s : State) : State :=
  let q := (s.router.claimSeq + 1) % 65536
  let w := s.get oneKey Reg.FAB_ADDR_STATE * 0x4000 + s.get oneKey Reg.FAB_ADDR_ADDR
  let p : Packet := ⟨2, 64, 0, 0, s.srcAddr, 0, bigEndian 8 ownUid ++ bigEndian 2 w ++ bigEndian 2 q ++ bigEndian 4 0⟩
  s.upLinks.foldl (fun s l => egress l p s)
    (s.setRouter { s.router with claimSeq := q, seen := s.router.seen ++ [(ownUid, q, s.tref)] })

/-- The address state and the address held or tried (R453). -/
def setAddr (st a : Nat) (s : State) : State := (s.put oneKey Reg.FAB_ADDR_STATE st).put oneKey Reg.FAB_ADDR_ADDR a

/-- The search goes on from candidate i; with none left the state is NONE (R428). -/
def tryFrom (i : Nat) : Nat → State → State
  | 0, s => fabMark Reg.FAB_STAT_NOADDR ((setAddr 0 0 s).setRouter { s.router with since := s.tref })
  | n + 1, s =>
    let a := s.candidate i
    if s.taken a then tryFrom (i + 1) n s
    else (setAddr 1 a s).setRouter { s.router with cand := i, since := s.tref }

/-- A claim starts from the candidates of R428. -/
def startClaim (s : State) : State :=
  let pref := if s.flag oneKey Reg.FAB_CLAIM_USE_PREF then [s.get oneKey Reg.FAB_CLAIM_PREF] else []
  let last := if s.flag oneKey Reg.FAB_LAST_VALID then [s.get oneKey Reg.FAB_LAST_ADDR] else []
  tryFrom 0 (4096 + (pref ++ last).length) (s.setRouter { s.router with prefs := pref ++ last })

/-- The next candidate (R428, R429). -/
def moveOn (s : State) : State :=
  tryFrom (s.router.cand + 1) (4096 + s.router.prefs.length - (s.router.cand + 1)) s

/-- The entry of an address the device no longer holds. -/
def emptyRoute (a : Nat) (s : State) : State :=
  setRoute a { s.route a with mode := 0, owner := 0, metric := 64, next := 0, alt := none } s

/-- A held address is given up, and the device claims again from h (R429). -/
def giveUpAddr (s : State) : State :=
  let a := s.get oneKey Reg.FAB_ADDR_ADDR
  let s1 := (fabMark Reg.FAB_STAT_ADDR_LOST s).put oneKey Reg.FAB_LAST_VALID 0
  let s2 := refreshRoute a (emptyRoute a s1)
  raiseEvent evFabAddr (tryFrom 0 4096 (s2.setRouter { s2.router with prefs := [] }))

/-- A CLAIM, HELLO or route owner that gives an address with a UID; held where the other holds it (R429). -/
def conflict (a uid : Nat) (held : Bool) (s : State) : State :=
  let st := s.get oneKey Reg.FAB_ADDR_STATE
  if st = 0 ∨ a ≠ s.get oneKey Reg.FAB_ADDR_ADDR ∨ uid = ownUid then s
  else if st = 1 then (if held || decide (ownUid < uid) then moveOn s else s)
  else if held && decide (ownUid < uid) then giveUpAddr s
  else floodClaim s

/-- 200 ms without a conflict, or at once a GONE address of the device's own (R429, R449). -/
def State.mayHold (s : State) : Bool :=
  let a := s.get oneKey Reg.FAB_ADDR_ADDR
  decide (s.get oneKey Reg.FAB_ADDR_STATE = 1)
    && (decide (s.router.since + 40000000 ≤ s.tref)
      || (decide ((s.route a).mode = 2) && decide ((s.route a).owner = ownUid)))

/-- ADDRESS_HELD (R429). -/
def execAddressHeld (s : State) : Result :=
  .next (if s.mayHold then
    let a := s.get oneKey Reg.FAB_ADDR_ADDR
    let s1 := setRoute a { s.route a with mode := 3, owner := ownUid, metric := 0, next := 0, alt := none }
      (s.put oneKey Reg.FAB_ADDR_STATE 2)
    raiseEvent evFabAddr (floodClaim ((s1.put oneKey Reg.FAB_LAST_ADDR a).put oneKey Reg.FAB_LAST_VALID 1))
  else s)

/-- CLAIM_FLOOD (R429): every 50 ms of TENTATIVE. -/
def execClaimFlood (s : State) : Result :=
  .next (if s.get oneKey Reg.FAB_ADDR_STATE = 1 then floodClaim s else s)

/-- ADDRESS_SEARCH_RESTART (R428): 10 s after the last candidate failed. -/
def execAddressSearchRestart (s : State) : Result :=
  .next (if s.flag oneKey Reg.FAB_CTL_EN ∧ s.get oneKey Reg.FAB_ADDR_STATE = 0
      ∧ s.router.since + 2000000000 ≤ s.tref then startClaim s else s)

/-! ## The root and the time parent (R437, R438, R441) -/

/-- A candidate for the root: VALID, TPRIO, UID. -/
abbrev Standing := Bool × Nat × Nat

/-- The first of two candidates ranks before the second (R437). -/
def ranksBefore (x y : Standing) : Bool :=
  if x.1 ≠ y.1 then x.1
  else if x.2.1 ≠ y.2.1 then decide (x.2.1 < y.2.1)
  else decide (y.2.2 < x.2.2)

/-- The better of a candidate and the best so far. -/
def better (best : Option Standing) (x : Standing) : Option Standing :=
  match best with
  | none => some x
  | some b => if ranksBefore x b then some x else some b

/-- What the device itself stands with. -/
def State.ownStanding (s : State) : Standing :=
  (s.flag oneKey Reg.FAB_STAT_VALID, s.get oneKey Reg.FAB_TPRIO_TPRIO, ownUid)

/-- The root an UP neighbour reports, while its ROOT_SEQ advances (R437). -/
def State.reported (s : State) (l : Nat) : Option Standing :=
  let x := s.link l
  match x.rootAt with
  | some t =>
    if x.mode = .up ∧ s.tref < t + 60000000 ∧ x.nroot ≠ ownUid ∧ x.ntprio ≠ 15 ∧ x.ndist ≠ 255 then
      some (x.nvalid, x.ntprio, x.nroot) else none
  | none => none

/-- The best candidate of all (R437). -/
def State.bestRoot (s : State) : Option Standing :=
  ((List.range 8).filterMap s.reported).foldl better
    (if s.get oneKey Reg.FAB_TPRIO_TPRIO = 15 then none else some s.ownStanding)

/-- The UID of the neighbour of a link. -/
def State.nuid (s : State) (l : Nat) : Nat := s.wide (linkKey l + Reg.LK_NUID) 4

/-- The link chosen as time parent, with its neighbour's distance (R438); after a swap a link stands back until two exchanges
have completed under the new roles (R439). -/
def State.bestParent (s : State) : Option (Nat × Nat) :=
  (s.upLinks.filterMap (fun l =>
    let x := s.link l
    if x.role = 2 ∧ 2 ≤ x.fresh ∧ x.ntsync = true ∧ x.nroot = s.router.rootUid ∧ (s.reported l).isSome = true then some (l, x.ndist)
    else none)).foldl
    (fun best x =>
      match best with
      | none => some x
      | some b => if x.2 < b.2 ∨ (x.2 = b.2 ∧ s.nuid b.1 < s.nuid x.1) then some x else some b) none

/-- TSYNC of a device that is not root falls (R441). -/
def dropTsync (s : State) : State :=
  s.put oneKey Reg.FAB_STAT_TSYNC 0

/-- The device is its own root. -/
def State.isRoot (s : State) : Bool := s.flag oneKey Reg.FAB_STAT_ROOT

/-- A change of root (R437). -/
def adoptRoot (s : State) : State :=
  let r := match s.bestRoot with | some x => x | none => (false, 15, 0)
  let old := s.router
  let s1 := s.setRouter { old with rootValid := r.1, rootPrio := r.2.1, rootUid := r.2.2 }
  let s2 := s1.put oneKey Reg.FAB_STAT_ROOT (if r.2.2 = ownUid then 1 else 0)
  let s3 := (s2.setWide (oneKey + Reg.FAB_ROOT) 4 (r.2.2 % 2 ^ 64)).put oneKey ⟨Reg.FAB_ROOT + 3, 7, 4⟩ r.2.1
  if r.2.2 = old.rootUid then s3
  else raiseEvent evFabTime (fabMark Reg.FAB_STAT_ROOT_CHG s3)

/-- The time parent and the distance follow the links (R438); a swap leaves the parent until two exchanges have
completed under the new roles (R439). -/
def adoptParent (s : State) : State :=
  let keep : Bool := match s.router.parent with
    | some l => decide ((s.link l).mode = .up) && decide ((s.link l).role ≠ 0) && decide ((s.link l).fresh < 2)
        && decide ((s.link l).nroot = s.router.rootUid) && !s.isRoot
    | none => false
  let p := if keep then s.router.parent.map (fun l => (l, (s.link l).ndist))
    else if s.isRoot then none else s.bestParent
  let same := decide (p.map Prod.fst = s.router.parent)
  let s1 := s.setRouter
    { s.router with
      parent := p.map Prod.fst,
      good := if same then s.router.good else 0,
      far := if same then s.router.far else 0,
      exchangeAt := if same then s.router.exchangeAt else s.tref }
  let d := if s.isRoot then 0 else match p with | some x => min 255 (x.2 + 1) | none => 255
  ((s1.put oneKey Reg.FAB_TSTAT_DIST d).put oneKey Reg.FAB_TSTAT_PAR_VALID (if p.isSome then 1 else 0)).put oneKey
    Reg.FAB_TSTAT_PARENT ((p.map Prod.fst).getD 0)

/-- TSYNC at the root follows VALID; elsewhere a distance beyond 25 clears it, and a parent that reports TSYNC = 0 is
dated (R441). -/
def settleTsync (s : State) : State :=
  if s.isRoot then s.put oneKey Reg.FAB_STAT_TSYNC (s.get oneKey Reg.FAB_STAT_VALID)
  else
    let d := s.get oneKey Reg.FAB_TSTAT_DIST
    let off := match s.router.parent with | some l => !(s.link l).ntsync | none => false
    let since := match s.router.offSince with | some t => t | none => s.tref
    let s1 := s.setRouter { s.router with offSince := if off then some since else none }
    if 25 < d ∧ d < 255 then dropTsync s1 else s1

/-- Root, time parent, distance and TSYNC follow what the links report (R437, R438, R441). -/
def refreshTime (s : State) : State :=
  if s.flag oneKey Reg.FAB_CTL_EN then settleTsync (adoptParent (adoptRoot s)) else s

/-- ROOT_EXPIRY (R437): a reported root stopped advancing. -/
def execRootExpiry (s : State) : Result := .next (refreshTime s)

/-- The parent has reported TSYNC = 0 for 100 ms (R441). -/
def State.parentOff (s : State) : Bool :=
  match s.router.offSince with | some t => decide (t + 20000000 ≤ s.tref) | none => false

/-- TSYNC_TIMEOUT (R441). -/
def execTsyncTimeout (s : State) : Result :=
  .next (if !s.isRoot && s.flag oneKey Reg.FAB_STAT_TSYNC
      && (decide (s.router.exchangeAt + 20000000 ≤ s.tref) || s.parentOff)
    then dropTsync s else s)

/-! ## Links (R420 to R422, R430) -/

/-- The conditions under which a link is not DOWN (R422). -/
def State.linkEnabled (s : State) (l : Nat) : Bool :=
  s.flag oneKey Reg.FAB_CTL_EN && s.flag (linkKey l) Reg.LK_CTL_EN && decide (s.power.mode = .run)
    && !s.padHeld 4

/-- A swap request ends with a status (R439, R456). -/
def endSwap (l st : Nat) (s : State) : State :=
  let x := s.link l
  ((s.setLink l { x with req := none, backoff := none, fwReq := false }).put (linkKey l) Reg.LK_STAT_SWAP_ST st).put (linkKey l)
    Reg.LK_STAT_SWAP_BUSY 0

/-- A link leaves UP for another state (R422, R434, R439). -/
def leaveUp (l : Nat) (into : LinkMode) (s : State) : State :=
  let x := s.link l
  if x.mode = .up then
    let s1 := countLink l 2 x.queue.length (countLink l 3 1 s)
    let s2 := if x.req.isSome || x.backoff.isSome then endSwap l St.FAB_LINK_DOWN s1 else s1
    let s3 := s2.setLink l
      { s2.link l with mode := into, queue := [], credit := [], returned := [], role := 0, wrong := 0, hellos := [],
                       fresh := 0, rootAt := none, fwReq := false }
    refreshTime (raiseEvent evFabLink (fabMark Reg.FAB_STAT_LINK_CHG (failRoutes l s3)))
  else s.setLink l { x with mode := into, hellos := [] }

/-- A link follows its enables: DOWN while they do not hold, LOCKING from DOWN on while they do (R422). -/
def followEnable (l : Nat) (s : State) : State :=
  if s.linkEnabled l then
    (if (s.link l).mode = .down then s.setLink l { s.link l with mode := .locking } else s)
  else if (s.link l).mode = .down then s
  else leaveUp l .down s

/-- All links follow their enables. -/
def followEnables (s : State) : State := (List.range 8).foldl (fun s l => followEnable l s) s

/-- A write of FAB_CTL: the router starts its claim when it is enabled, and holds no address when it is disabled. The
host's own command alone changes ENV_REMOTE (R447). -/
def writeFabCtl (w : Word) (remote : Bool) (s : State) : State :=
  let was := s.flag oneKey Reg.FAB_CTL_EN
  let old := s.get oneKey Reg.FAB_CTL_ENV_REMOTE
  let s1 := s.plainWrite (oneKey + Reg.FAB_CTL) w
  let s2 := followEnables (if remote then s1 else s1.put oneKey Reg.FAB_CTL_ENV_REMOTE old)
  let now := s2.flag oneKey Reg.FAB_CTL_EN
  if now && !was then refreshTime (startClaim s2)
  else if was && !now then
    let s3 := if s2.get oneKey Reg.FAB_ADDR_STATE = 2 then emptyRoute (s2.get oneKey Reg.FAB_ADDR_ADDR) s2 else s2
    setAddr 0 0 s3
  else s2

/-- BLOCK_LOCK (R420, R422). -/
def execBlockLock (l : Fin 8) (s : State) : Result :=
  .next (if (s.link l).mode = .locking then s.setLink l { s.link l with mode := .locked, hellos := [] } else s)

/-- BLOCK_LOCK_LOST (R420, R422). -/
def execBlockLockLost (l : Fin 8) (s : State) : Result :=
  .next (match (s.link l).mode with
    | .down => s
    | .locking => s
    | _ => leaveUp l .locking s)

/-- LINK_DOWN (R422). -/
def execLinkDown (l : Fin 8) (s : State) : Result :=
  .next (if (s.link l).mode = .up then leaveUp l (if s.linkEnabled l then .locked else .down) s else s)

/-- HELLO_TIMEOUT (R422): 40 ms without a valid HELLO. -/
def execHelloTimeout (l : Fin 8) (s : State) : Result :=
  .next (match (s.link l).hellos with
    | t :: _ => if (s.link l).mode = .up ∧ t + 8000000 ≤ s.tref then leaveUp l .locked s else s
    | [] => s)

/-- The payload of a HELLO (R430). -/
def helloBytes (l : Nat) (sleep : Bool) (s : State) : List Byte :=
  let r := s.router
  bigEndian 8 ownUid
    ++ bigEndian 2 (s.get oneKey Reg.FAB_ADDR_STATE * 0x4000 + (if sleep then 0x2000 else 0) + s.get oneKey Reg.FAB_ADDR_ADDR)
    ++ bigEndian 1 l
    ++ bigEndian 1 ((s.link l).role * 64 + s.get oneKey Reg.FAB_STAT_TSYNC * 32 + (if r.rootValid then 16 else 0) + r.rootPrio)
    ++ bigEndian 8 r.rootUid ++ bigEndian 2 r.rootSeq ++ bigEndian 1 (s.get oneKey Reg.FAB_TSTAT_DIST)
    ++ bigEndian 1 (s.get oneKey Reg.FAB_TPRIO_TPRIO) ++ bigEndian 8 0

/-- A HELLO is sent on a link in LOCKED, UP or LOOP, outside the credit scheme (R422, R425); the root advances ROOT_SEQ
with each of its HELLOs (R430). -/
def sendHello (sleep : Bool) (l : Nat) (s : State) : State :=
  match (s.link l).mode with
  | .down => s
  | .locking => s
  | _ =>
    let s1 := if s.isRoot then s.setRouter { s.router with rootSeq := (s.router.rootSeq + 1) % 65536 } else s
    s1.setLink l { s1.link l with sent := some (.packet ⟨1, 1, 0, 0, s1.srcAddr, 0, helloBytes l sleep s1⟩) }

/-- The rule for the start of UP: this end is the PARENT end (R438). -/
def State.parentByRule (s : State) (l : Nat) : Bool :=
  let x := s.link l
  let own : Standing := (s.router.rootValid, s.router.rootPrio, s.router.rootUid)
  let his : Standing := (x.nvalid, x.ntprio, x.nroot)
  if s.router.rootUid ≠ x.nroot then ranksBefore own his
  else if s.get oneKey Reg.FAB_TSTAT_DIST ≠ x.ndist then decide (s.get oneKey Reg.FAB_TSTAT_DIST < x.ndist)
  else decide (s.nuid l < ownUid)

/-- The role a link takes, with the exchanges counted under it: from 0 after a swap (R439), else two at once. -/
def setRole (l r fresh : Nat) (s : State) : State :=
  s.setLink l { s.link l with role := r, fresh := fresh, wrong := 0 }

/-- A HELLO interval of a link: the intervals in a row for which the rule gives the other assignment (R438). -/
def countWrong (l : Nat) (s : State) : State :=
  let x := s.link l
  if x.mode = .up ∧ x.role ≠ 0 then
    s.setLink l { x with wrong := if s.parentByRule l = decide (x.role = 1) then 0 else x.wrong + 1 }
  else s

/-- HELLO_SEND (R430): every 10 ms, on each LOCKED, UP or LOOP link. -/
def execHelloSend (s : State) : Result :=
  .next ((List.range 8).foldl (fun s l => countWrong l (sendHello false l s)) s)

/-- A 16-bit serial number has advanced (R437). -/
def seqAdvanced (old new : Nat) : Bool :=
  let d := (new + 65536 - old % 65536) % 65536
  decide (0 < d) && decide (d < 32768)

/-- A field of a payload: n bytes from place i on. -/
def payloadField (b : List Byte) (i n : Nat) : Nat := fromBytes ((b.drop i).take n)

/-- What a HELLO says is taken into the link (R430, R437). -/
def takeHello (l : Nat) (b : List Byte) (s : State) : State :=
  let x := s.link l
  let f := payloadField b
  let root := f 12 8
  let q := f 20 2
  let adv := decide (root ≠ x.nroot) || x.rootAt.isNone || seqAdvanced x.nseq q
  let s1 := s.setLink l
    { x with
      hellos := (s.tref :: x.hellos).take 3, nlink := f 10 1, nrole := f 11 1 / 64, ntsync := decide (f 11 1 / 32 % 2 = 1),
      nvalid := decide (f 11 1 / 16 % 2 = 1), ntprio := f 11 1 % 16, nroot := root, nseq := q, ndist := f 22 1,
      rootAt := if adv then some s.tref else x.rootAt }
  let s2 := s1.setWide (linkKey l + Reg.LK_NUID) 4 (f 0 8)
  let s3 := (s2.put (linkKey l) Reg.LK_NBR_NSTATE (f 8 2 / 0x4000)).put (linkKey l) Reg.LK_NBR_NADDR (f 8 2 % 4096)
  if root = s3.router.rootUid ∧ s3.isRoot = false ∧ seqAdvanced s3.router.rootSeq q then
    s3.setRouter { s3.router with rootSeq := q } else s3

/-- A link comes UP at the third valid HELLO within 30 ms (R422, R425, R438). -/
def bringUp (l : Nat) (s : State) : State :=
  let x := s.link l
  match x.hellos with
  | [_, _, t] =>
    if x.mode = .locked ∧ s.tref ≤ t + 6000000 then
      let s1 := s.setLink l { x with mode := .up, credit := fullCredit, returned := [], queue := [] }
      let s2 := refreshTime s1
      let s3 := setRole l (if s.parentByRule l then 1 else 2) 2 s2
      raiseEvent evFabLink (fabMark Reg.FAB_STAT_LINK_CHG s3)
    else s
  | _ => s

/-- Two ends that show the same role: the end with the higher UID takes PARENT at once (R438). -/
def settleRoles (l : Nat) (s : State) : State :=
  let x := s.link l
  if x.mode = .up ∧ x.role ≠ 0 ∧ x.nrole = x.role then setRole l (if s.nuid l < ownUid then 1 else 2) 2 s else s

/-- HELLO_RECEIVED (R422, R430): a HELLO whose CRC holds. -/
def execHelloReceived (l : Fin 8) (p : Packet) (s : State) : Result :=
  if p.wf && decide (p.kind = 1) && decide (p.payload.length = 32) then
    let uid := payloadField p.payload 0 8
    let w := payloadField p.payload 8 2
    let m := (s.link l).mode
    .next (if m = .down ∨ m = .locking then s
      else if uid = ownUid then leaveUp l .loop s
      else if w / 0x2000 % 2 = 1 then (if m = .up then leaveUp l .locked s else s)
      else
        let s0 := if m = .loop then s.setLink l { s.link l with mode := .locked, hellos := [] } else s
        let s1 := settleRoles l (bringUp l (takeHello l p.payload s0))
        let a := w % 4096
        let st := w / 0x4000
        let s2 := if st = 0 then s1 else conflict a uid (decide (st = 2)) s1
        let s3 := if st = 2 then noteOwner a uid s2 else s2
        refreshTime s3)
  else .fault .illFormed

/-! ## Packets received (R425, R426) -/

/-- A packet's buffer is freed and its credit is owed to the neighbour (R425, R426). -/
def oweCredit (l : Nat) (p : Packet) (s : State) : State :=
  let x := s.link l
  s.setLink l { x with returned := tblSet x.returned 0 p.cls.val (tblGet x.returned 0 p.cls.val + packetUnits p) }

/-- A packet other than HELLO that an UP link has received. -/
def received (l : Nat) (p : Packet) (f : State → State) (s : State) : State :=
  if (s.link l).mode = .up then f (oweCredit l p s) else s

/-- The packet's destination is the device's HELD address (R426). -/
def State.isFor (s : State) (p : Packet) : Bool := decide (s.ownAddr = some p.dst.toNat)

/-- CREDIT_RECEIVED (R425). -/
def execCreditReceived (l : Fin 8) (c : Fin 4) (n : BitVec 16) (s : State) : Result :=
  let x := s.link l
  let cap := tblGet fullCredit 0 c.val
  .next (if x.mode = .up then
    drainLink l (x.queue.length + 1)
      (s.setLink l { x with credit := tblSet x.credit 0 c.val (min cap (tblGet x.credit 0 c.val + n.toNat)) })
  else s)

/-- EGRESS_STUCK (R425): a packet 10 ms at the head of its class is dropped. -/
def execEgressStuck (l : Fin 8) (c : Fin 4) (s : State) : Result :=
  let x := s.link l
  .next (match x.head c.val with
    | some (_, t) =>
      if x.mode = .up ∧ t + 2000000 ≤ s.tref then
        drainLink l (x.queue.length + 1) (countLink l 2 1 (s.setLink l { x with queue := popClass c.val s.tref x.queue }))
      else s
    | none => s)

/-- A copy of a packet whose CRC fails, which was being forwarded at once on an idle link with credit, ends with its CRC
inverted (R426). -/
def spoil (p : Packet) (s : State) : State :=
  if decide (p.kind ≤ 5) || !p.known || s.isFor p || decide (p.ttl ≤ 1) then s
  else
    match s.nextHop p.dst.toNat with
    | some l =>
      let x := s.link l
      let c := p.cls.val
      if x.mode = .up ∧ x.queue = [] ∧ packetUnits p ≤ tblGet x.credit 0 c then
        s.setLink l
          { x with credit := tblSet x.credit 0 c (tblGet x.credit 0 c - packetUnits p),
                   sent := some (.spoiled { p with ttl := p.ttl - 1 }) }
      else s
    | none => s

/-- PACKET_TRANSIT (R421, R426): a packet not for this device. -/
def execPacketTransit (l : Fin 8) (p : Packet) (how : Arrival) (s : State) : Result :=
  if p.wf then
    .next (match how with
      | .badCrc => received l p (fun s => spoil p (countLink l 0 1 s)) s
      | .badBlock => received l p (fun s => spoil p (countLink l 0 1 (countLink l 1 1 s))) s
      | .whole =>
        if !p.known then received l p (fun s => fabMark Reg.FAB_STAT_DROP (countFab 2 s)) s
        else if decide (p.kind ≤ 5) || s.isFor p then s
        else received l p (forward p) s)
  else .fault .illFormed

/-- The claims seen in the last 1 s (R426). -/
def State.recentClaims (s : State) : List (Nat × Nat × Nat) :=
  s.router.seen.filter (fun e => decide (s.tref < e.2.2 + 200000000))

/-- A CLAIM is forwarded on every other UP link unless it was seen in the last 1 s (R426). -/
def passClaim (l : Nat) (p : Packet) (uid q : Nat) (s : State) : State :=
  let old := s.recentClaims
  if old.any (fun e => decide (e.1 = uid) && decide (e.2.1 = q)) then s.setRouter { s.router with seen := old }
  else
    let s1 := s.setRouter { s.router with seen := old ++ [(uid, q, s.tref)] }
    if p.ttl ≤ 1 then s1
    else (s1.upLinks.filter (fun k => decide (k ≠ l))).foldl (fun s k => egress k { p with ttl := p.ttl - 1 } s) s1

/-- CLAIM_RECEIVED (R426, R428, R429). -/
def execClaimReceived (l : Fin 8) (p : Packet) (s : State) : Result :=
  if p.wf && decide (p.kind = 2) && decide (p.payload.length = 16) then
    .next (received l p (fun s =>
      let uid := payloadField p.payload 0 8
      let w := payloadField p.payload 8 2
      let held := decide (w / 0x4000 = 2)
      let s1 := conflict (w % 4096) uid held s
      let s2 := if held && decide (uid ≠ ownUid) then noteOwner (w % 4096) uid s1 else s1
      passClaim l p uid (payloadField p.payload 10 2) s2) s)
  else .fault .illFormed

/-! ## Route updates (R432, R433) -/

/-- One metric byte of a page received on a link (R433). A byte of 0 offers only the neighbour's own HELD address; every
other 0 is an EMPTY entry (DEDUCED, R432). -/
def takeMetric (l a m : Nat) (s : State) : State :=
  let own := decide (s.get (linkKey l) Reg.LK_NBR_NSTATE = 2) && decide (s.get (linkKey l) Reg.LK_NBR_NADDR = a)
  let offers :=
    if (decide (m < 64) && (decide (0 < m) || own)) = true then tblPut s.offers (8 * a + l) (m, s.tref)
    else tblDel s.offers (8 * a + l)
  refreshRoute a { s with offers := offers }

/-- ROUTE_RECEIVED (R433). -/
def execRouteReceived (l : Fin 8) (p : Packet) (s : State) : Result :=
  if p.wf && decide (p.kind = 3) && decide (p.payload.length = 1026) then
    .next (received l p (fun s =>
      let page := payloadField p.payload 0 1 % 4
      ((p.payload.drop 2).take 1024).zipIdx.foldl (fun s e => takeMetric l.val (page * 1024 + e.2) e.1.toNat s) s) s)
  else .fault .illFormed

/-- The metric byte of an address on a link (R432). -/
def State.metricByte (s : State) (l a : Nat) : Nat :=
  let r := s.route a
  if r.mode = 0 then 0
  else if r.mode = 1 ∧ r.next = l then 64
  else min r.metric 64

/-- A page may be sent on a link: it has not been in the last 10 ms (R432). -/
def State.pageFree (s : State) (page l : Nat) : Bool :=
  match tblFind s.router.pageAt (4 * l + page) with
  | some t => decide (t + 2000000 ≤ s.tref)
  | none => true

/-- A ROUTE page sent on a link where it may be (R424, R432). -/
def sendPage (page l : Nat) (s : State) : State :=
  if s.pageFree page l then
    egress l
      ⟨3, 1, 0, 0, s.srcAddr, 0,
        BitVec.ofNat 8 page :: 0 :: (List.range 1024).map (fun i => BitVec.ofNat 8 (s.metricByte l (page * 1024 + i)))⟩
      (s.setRouter { s.router with pageAt := tblPut s.router.pageAt (4 * l + page) s.tref })
  else s

/-- ROUTE_PERIODIC (R432): every 100 ms. A device without a HELD address sources only HELLO and CLAIM (R428). -/
def execRoutePeriodic (s : State) : Result :=
  .next (if s.ownAddr.isSome then
    s.upLinks.foldl (fun s l => (List.range 4).foldl (fun s p => sendPage p l s) s) s
  else s)

/-- ROUTE_TRIGGERED (R432): the pages changed since they were last sent; those that some link may not send yet stay due. -/
def execRouteTriggered (s : State) : Result :=
  .next (if s.ownAddr.isSome then
    let d := s.router.dirty
    let later := d.filter (fun p => s.upLinks.any (fun l => !s.pageFree p l))
    s.upLinks.foldl (fun s l => d.foldl (fun s p => sendPage p l s) s) (s.setRouter { s.router with dirty := later })
  else s)

/-- ROUTE_OFFER_LAPSE (R433): an offer not refreshed for 350 ms. -/
def execRouteOfferLapse (a : BitVec 12) (l : Fin 8) (s : State) : Result :=
  let k := 8 * a.toNat + l.val
  .next (match tblFind s.offers k with
    | some (_, t) =>
      if t + 70000000 ≤ s.tref then refreshRoute a.toNat { s with offers := tblDel s.offers k } else s
    | none => s)

/-- ROUTE_GONE_EXPIRY (R433): 600 s after an entry became GONE. -/
def execRouteGoneExpiry (a : BitVec 12) (s : State) : Result :=
  let r := s.route a.toNat
  .next (if r.mode = 2 ∧ r.changed + 120000000000 ≤ s.tref then emptyRoute a.toNat s else s)

/-! ## Alarms (R444 to R446) -/

/-- The CRC-16 of R587 over bytes. -/
def crc16 (l : List Byte) : Nat := crcBits 16 0x1021 0xFFFF (bytesBits l)

/-- An ALARM or ALSUM in the alarm queue of one port (R598). -/
def queueAlarm (pt : Nat) (p : Packet) (s : State) : State :=
  if s.flag (portKey pt) Reg.CP_CFG_ALM_EN then
    let x := s.port pt
    if x.alarms.length < 64 then
      let b := bigEndian 1 4 ++ bigEndian 1 0 ++ bigEndian 2 (p.payload.length + 7) ++ bigEndian 1 p.kind
        ++ bigEndian 2 p.src.toNat ++ bigEndian 4 p.tag.toNat ++ p.payload
      s.setPort pt { x with alarms := x.alarms ++ [b ++ bigEndian 2 (crc16 b)] }
    else
      ((s.setPort pt { x with dropped := true }).count (portKey pt + Reg.CP_CNT + 6) 1).put (portKey pt)
        Reg.CP_STAT_ALMDROP 1
  else s

/-- Delivery at the sink (R444, R598). -/
def deliverAlarm (p : Packet) (s : State) : State := queueAlarm 1 p (queueAlarm 0 p s)

/-- A packet with a bit of byte 5 of its payload set: OVF is bit 6 and LATE bit 5 (R444). -/
def markAlarm (b : Nat) (p : Packet) : Packet :=
  { p with payload := listSet p.payload 5 (BitVec.ofNat 8 ((p.payload.getD 5 0).toNat ||| 2 ^ b)) }

/-- An ALARM or ALSUM goes on: delivered at its sink, sent from its origin, or forwarded (R426, R444). -/
def passAlarm (ingress : Nat) (p : Packet) (s : State) : State :=
  if s.isFor p then deliverAlarm p s
  else if ingress = 8 then
    match s.nextHop p.dst.toNat with
    | some l => egress l p s
    | none => fabMark Reg.FAB_STAT_DROP (countFab 0 s)
  else forward p s

/-- The key of an ALARM (R445). -/
def alarmKey (ingress : Nat) (p : Packet) : AlarmKey :=
  let f := payloadField p.payload
  ⟨p.dst.toNat, ingress, f 0 4 % 0x4000000, f 4 1, (f 16 4 % 0x10000000 * 0x100000000 + f 12 4) / 100000000⟩

/-- The key of an ALSUM (R445). -/
def alsumKey (ingress : Nat) (p : Packet) : AlarmKey :=
  let f := payloadField p.payload
  ⟨p.dst.toNat, ingress, f 0 4 % 0x4000000, f 4 1, f 6 5⟩

/-- The count of an entry of the suppression cache. -/
def State.suppressed (s : State) (k : AlarmKey) : Option Nat :=
  (s.router.cache.find? (fun e => decide (e.1 = k))).map Prod.snd

/-- The count of an entry advances (R445). -/
def addSuppressed (k : AlarmKey) (n : Nat) (s : State) : State :=
  s.setRouter { s.router with cache := s.router.cache.map (fun e => if e.1 = k then (k, e.2 + n) else e) }

/-- The handling of an ALARM (R445). -/
def handleAlarm (ingress : Nat) (p : Packet) (s : State) : State :=
  let k := alarmKey ingress p
  let p1 := if k ∈ s.router.freed then markAlarm 5 p else p
  match s.suppressed k with
  | some _ => countFab 4 (addSuppressed k 1 s)
  | none =>
    if s.router.cache.length < 256 then
      passAlarm ingress p1
        (s.setRouter { s.router with cache := s.router.cache ++ [(k, 0)], freed := listDrop s.router.freed k })
    else passAlarm ingress (markAlarm 6 p1) (fabMark Reg.FAB_STAT_CACHE_OVF (countFab 3 s))

/-- ALARM_RECEIVED (R445). -/
def execAlarmReceived (l : Fin 8) (p : Packet) (s : State) : Result :=
  if p.wf && decide (p.kind = 4) && decide (p.payload.length = 20) then
    .next (received l p (handleAlarm l.val p) s)
  else .fault .illFormed

/-- ALSUM_RECEIVED (R445). -/
def execAlsumReceived (l : Fin 8) (p : Packet) (s : State) : Result :=
  if p.wf && decide (p.kind = 5) && decide (p.payload.length = 16) then
    .next (received l p (fun s =>
      let k := alsumKey l.val p
      match s.suppressed k with
      | some _ => addSuppressed k (payloadField p.payload 12 4) s
      | none => passAlarm l.val (if s.isFor p then markAlarm 5 p else p) s) s)
  else .fault .illFormed

/-- The fabric time at which an entry is summed up, in ns (R445). -/
def State.summaryTime (s : State) (k : AlarmKey) : Nat :=
  let m := if s.ownAddr = some k.dst then 0 else (s.route k.dst).metric
  (k.epoch + 1) * 100000000 + 1000000 + 63 * 500000 - m * 500000

/-- The ALSUM of an entry (R444). -/
def alsumBytes (k : AlarmKey) (n : Nat) : List Byte :=
  bigEndian 4 k.subject ++ bigEndian 1 k.kind ++ bigEndian 1 0 ++ bigEndian 5 k.epoch ++ bigEndian 1 0 ++ bigEndian 4 n

/-- The enabled sinks (R444). -/
def State.sinks (s : State) : List Nat :=
  (List.range 2).filterMap (fun i =>
    if s.flag (oneKey + i) Reg.FAB_SINK_EN then some (s.get (oneKey + i) Reg.FAB_SINK_ADDR) else none)

/-! ## Injection (R426, R428, R444) -/

/-- A packet of the device's own goes out. An ALARM is coalesced first (R445). -/
def sendNow (p : Packet) (s : State) : State :=
  if p.kind = 4 then handleAlarm 8 p s
  else if p.kind = 5 then passAlarm 8 p s
  else
    match s.nextHop p.dst.toNat with
    | some l => egress l p s
    | none => s

/-- Nothing is injected: an alarm for the device itself is served locally (R444), and a coalesced one is discarded (R445). -/
def State.servedHere (s : State) (p : Packet) : Bool :=
  (decide (p.kind = 4) || decide (p.kind = 5)) && (s.isFor p || (decide (p.kind = 4) && (s.suppressed (alarmKey 8 p)).isSome))

/-- One packet that waits for injection: it goes out once its activity's access to the injection port is acknowledged, in order
within the activity (R84, R89, R426). Answers what still waits. -/
def tryInject (acc : List (Nat × Packet) × State) (e : Nat × Packet) : List (Nat × Packet) × State :=
  let s := acc.2
  if acc.1.any (fun x => decide (x.1 = e.1)) then (acc.1 ++ [e], s)
  else if s.servedHere e.2 then (acc.1, sendNow e.2 s)
  else
    match s.access (s.runner blkFabric) e.1 3 with
    | some t => (acc.1, sendNow e.2 t)
    | none => (acc.1 ++ [e], awaitAccess (s.runner blkFabric) e.1 3 s)

/-- What waits for injection is injected as far as grants allow. -/
def drainInject (s : State) : State :=
  let r := s.router.inject.foldl tryInject ([], s.setRouter { s.router with inject := [] })
  r.2.setRouter { r.2.router with inject := r.1 }

/-- Packets join those that wait for injection. -/
def injectAll (ps : List (Nat × Packet)) (s : State) : State :=
  drainInject (s.setRouter { s.router with inject := s.router.inject ++ ps })

/-- The activity a packet of the device's own is charged to (R426). -/
def actOf (kind : Nat) : Nat := if kind = 6 then actHost else actFabTx

/-- A packet of this device's own to an address; without a HELD address it is not sent (R428). -/
def sendTo (kind cls dst tag : Nat) (payload : List Byte) (s : State) : State :=
  match s.ownAddr with
  | some a =>
    injectAll [(actOf kind, ⟨kind, 64, Fin.ofNat 4 cls, BitVec.ofNat 12 dst, BitVec.ofNat 12 a, BitVec.ofNat 32 tag, payload⟩)] s
  | none => s

/-- ALARM_SUMMARY (R445). A device without a HELD address sources no ALSUM (R428). -/
def execAlarmSummary (k : AlarmKey) (s : State) : Result :=
  .next (match s.suppressed k with
    | some n =>
      if s.summaryTime k ≤ s.timeNs then
        let s1 := s.setRouter
          { s.router with cache := s.router.cache.filter (fun e => decide (e.1 ≠ k)), freed := listMark s.router.freed k }
        if s.ownAddr.isSome ∧ 0 < n then
          injectAll [(actFabTx,
            ⟨5, 64, 1, BitVec.ofNat 12 k.dst, s.srcAddr, BitVec.ofNat 32 s.router.alarmSeq, alsumBytes k n⟩)] s1
        else s1
      else s
    | none => s)

/-- The alarms that wait for injection: the packets of one alarm share its number (R444). -/
def State.alarmsWaiting (s : State) : Nat :=
  (((s.router.inject.map Prod.snd).filter (fun p => decide (p.kind = 4))).map Packet.tag).eraseDups.length

/-- An alarm handed to the router: refused, or injected once for each enabled sink (R444). The payload is that of R444. -/
def injectAlarm (payload : List Byte) (s : State) : Option State :=
  if s.ownAddr.isNone ∨ s.sinks = [] ∨ 32 ≤ s.alarmsWaiting then none
  else
    let q := (s.router.alarmSeq + 1) % 0x100000000
    let ps := s.sinks.map (fun d =>
      (actFabTx, (⟨4, 64, 1, BitVec.ofNat 12 d, s.srcAddr, BitVec.ofNat 32 q, payload⟩ : Packet)))
    some (injectAll ps (s.setRouter { s.router with alarmSeq := q }))

end Sys2Proof.Machine
end

