-- ==== Sys2Proof/Machine/Balls.lean ====
section
/-! DEFINITION. The package's balls as far as the boundary register takes them (R671 to R675, R685), and what the
register asks of a terminal pad (R686). -/

namespace Sys2Proof.Machine

/-- The ball of slot s of a bay's tile: row index and column (R673). -/
def ball (bay s : Nat) : Nat × Nat :=
  let d := s / 2
  let l := s % 2
  if bay < 16 then (d, 2 * bay + 1 + l)
  else if bay < 32 then (2 * (bay - 16) + l, 46 - d)
  else if bay < 48 then (45 - d, 46 - 2 * (bay - 32) - l)
  else (45 - 2 * (bay - 48) - l, 1 + d)

/-- A ball is a terminal's: one of the outer eight rings of the strips (R672, R674). -/
def terminalBall (row col : Nat) : Bool :=
  (decide (row < 8) && decide (1 ≤ col) && decide (col ≤ 32))
    || (decide (row < 32) && decide (39 ≤ col) && decide (col ≤ 46))
    || (decide (38 ≤ row) && decide (row < 46) && decide (15 ≤ col) && decide (col ≤ 46))
    || (decide (14 ≤ row) && decide (row < 46) && decide (1 ≤ col) && decide (col ≤ 8))

/-- A ball is in the boundary register (R685): terminals, command ports, two-wire pins, GP pins, boot flash pins, the ONFI
port but for NAND_ZQ, and PFAIL_N, WAKE_N and RESET_N. -/
def scanBall (row col : Nat) : Bool :=
  terminalBall row col
    || ((row == 12 || row == 13) && decide (1 ≤ col) && decide (col ≤ 7))
    || (row == 16 && decide (13 ≤ col) && decide (col ≤ 28))
    || ((row == 17 || row == 18) && decide (13 ≤ col) && decide (col ≤ 34))
    || (row == 19 && decide (13 ≤ col) && decide (col ≤ 15))
    || (row == 32 && decide (35 ≤ col) && decide (col ≤ 46))
    || (row == 33 && decide (35 ≤ col) && decide (col ≤ 42))

/-- The place of a ball in the register: the number of balls before it, row by row (R685). -/
def scanIndex (row col : Nat) : Nat :=
  ((List.range (46 * row + (col - 1))).filter (fun i => scanBall (i / 46) (i % 46 + 1))).length

/-- The place of a terminal's ball. -/
def terminalScan (t : Nat) : Nat := scanIndex (ball (t / 16) (t % 16)).1 (ball (t / 16) (t % 16)).2

/-- The boundary register replaces both halves at the included pads (R683, R686). -/
def State.scanDrives (s : State) : Bool :=
  match s.jtag.instr with
  | .extest => true
  | .clamp => true
  | .highz => true
  | _ => false

/-- The output and enable cells of a ball drive it; HIGHZ disables every output (R683, R685). -/
def State.scanOut (s : State) (i : Nat) : Option Bool :=
  if s.jtag.instr = .highz then none
  else if s.jtag.cells.getLsbD (3 * i + 2) then some (s.jtag.cells.getLsbD (3 * i + 1))
  else none

end Sys2Proof.Machine
end

