-- ==== Sys2Proof/Machine/Timebases.lean ====
section
/-! DEFINITION. Bay timebases and general timers (R111 to R139, R679 for the pin inputs that feed them). -/

namespace Sys2Proof.Machine

/-- The prescaler's N and F (R111). -/
def State.tbN (s : State) (i : Nat) : Nat := s.get (tbKey i) Reg.TB_PRE_N_M1 + 1
def State.tbF (s : State) (i : Nat) : Nat := s.get (tbKey i) Reg.TB_PRE_F
def State.tbEn (s : State) (i : Nat) : Bool := s.flag (tbKey i) Reg.TB_CTL_EN
def State.tbSrc (s : State) (i : Nat) : Nat := s.get (tbKey i) Reg.TB_CTL_SRC

/-- A bay's timebase treats the reserved source as TREF (R115); a general timer's is LFX (R130). -/
def State.tbOnTref (s : State) (i : Nat) : Bool :=
  decide (s.tbSrc i = 0) || (decide (i < 128) && decide (s.tbSrc i = 3))

/-- A general timer with FREEZE set stops while a steward of the half that runs it is in debug halt (R131). -/
def State.tbFrozen (s : State) (i : Nat) : Bool :=
  if i < 128 then false
  else s.flag (tbKey i) Reg.GT_CTL_FREEZE
    && ((List.range 4).any fun k => decide ((s.steward (4 * (s.runner (blkGt (i - 128))).num + k)).mode = .halted))

/-- The timebase counts: it is enabled, not frozen, and the clocks of its power state run (R114, R125, R128, R132). A chained
general timer follows its chain, whatever that counts on. -/
def State.tbRuns (s : State) (i : Nat) : Bool :=
  s.tbEn i && !s.tbFrozen i
    && match s.power.mode with
       | .run => s.trefRuns || (decide (128 ≤ i) && decide (2 ≤ s.tbSrc i))
       | .sleep => if i < 128 then !decide (s.tbSrc i = 1) else decide (2 ≤ s.tbSrc i)
       | _ => false

/-- The offset of phase register k, whose staged value counts where one is staged. -/
def State.tbPhase (s : State) (i k : Nat) : Nat := (s.reg (tbKey i + Reg.TB_PHASE + k)).toNat

/-- The even stagger of slot k: floor(k × PER / 16) (R124). -/
def stagger (m k : Nat) : Nat := k * m / 16

/-- The offsets once a new modulus takes effect: under STAGGER the even ones; otherwise each offset, staged or in force,
modulo the new PER, with BAD set where that changes it (R114, R124). General timers have no offsets. -/
def applyPhases (i m : Nat) (newPer : Bool) (s : State) : Nat → State
  | 0 => s
  | k + 1 =>
    let s1 := applyPhases i m newPer s k
    if s.flag (tbKey i) Reg.TB_CTL_STAGGER then
      if newPer || (s.timebase i).restagger then
        s1.setReg (tbKey i + Reg.TB_PHASE + k) (BitVec.ofNat 20 (stagger m k)) else s1
    else
      let p := (tblGet (s.timebase i).stagedPhase (s.reg (tbKey i + Reg.TB_PHASE + k)) k).toNat
      let s2 := s1.setReg (tbKey i + Reg.TB_PHASE + k) (BitVec.ofNat 20 (p % m))
      if m ≤ p then s2.put (tbKey i) Reg.TB_STAT_BAD 1 else s2

/-- All staged values take effect together, acc is cleared and PEND clears (R113). -/
def applyStaged (i : Nat) (s : State) : State :=
  let t := s.timebase i
  let s1 := match t.stagedPre with | some w => s.setReg (tbKey i + Reg.TB_PRE) w | none => s
  let s2 := match t.stagedPer with | some w => s1.setReg (tbKey i + Reg.TB_PER) w | none => s1
  let m := s2.tbModulus i
  let s3 := if i < 128 then applyPhases i m t.stagedPer.isSome s2 16 else s2
  let any := t.stagedPre.isSome || t.stagedPer.isSome || !t.stagedPhase.isEmpty
  let s4 := s3.setReg (tbKey i + Reg.TB_COUNT) (BitVec.ofNat 20 (s.tbCount i % m))
  (s4.put (tbKey i) Reg.TB_STAT_PEND 0).setTimebase i
    { t with stagedPre := none, stagedPer := none, stagedPhase := [], restagger := false,
             acc := if any then 0 else t.acc }

/-- A value is staged while the timebase runs, and takes effect at once while it is stopped (R113). -/
def stage (i : Nat) (put : Timebase → Timebase) (s : State) : State :=
  let s1 := s.setTimebase i (put (s.timebase i))
  if s.tbEn i then s1.put (tbKey i) Reg.TB_STAT_PEND 1 else applyStaged i s1

/-- The PER that will be in force when a phase offset written now takes effect (R114). -/
def State.tbNextModulus (s : State) (i : Nat) : Nat :=
  match (s.timebase i).stagedPer with
  | some w => modulus w
  | none => s.tbModulus i

/-- A write of TB_PRE, TB_PER or TB_PHASE (R113, R114, R124). -/
def writeStaged (i : Nat) (r : TbStaged) (w : Word) (s : State) : State :=
  match r with
  | .pre => stage i (fun t => { t with stagedPre := some w }) s
  | .per =>
    if w = 1 then s.put (tbKey i) Reg.TB_STAT_BAD 1
    else stage i (fun t => { t with stagedPer := some w }) s
  | .phase k =>
    if 128 ≤ i then s
    else if s.flag (tbKey i) Reg.TB_CTL_STAGGER then s
    else if s.tbNextModulus i ≤ w.toNat then s.put (tbKey i) Reg.TB_STAT_BAD 1
    else stage i (fun t => { t with stagedPhase := tblPut t.stagedPhase k.val w }) s

/-- The chain's lowest member has no timebase below it: bay 0 and GT0 (R115, R130). -/
def chainLowest (i : Nat) : Bool := decide (i % 64 = 0)

/-! ## Ticks and wraps (R111 to R113, R117) -/

/-- The number of source edges after a tick, and the accumulator then (R111). -/
def nextInterval (n f acc : Nat) : Nat × Nat :=
  if 256 ≤ acc + f then (n + 1, acc + f - 256) else (n, acc + f)

/-- The prescaler after a tick, under the ratio in force (R111): a compare is to be evaluated at this tick (R119). -/
def afterTick (i : Nat) (s : State) : State :=
  let t := s.timebase i
  let p := nextInterval (s.tbN i) (s.tbF i) t.acc
  s.setTimebase i { t with left := p.1, acc := p.2, due := false, overdue := 0, ticked := true }

/-- The latest tick of a timebase is now. -/
def State.stampTick (s : State) (i : Nat) : State := s.setTimebase i { s.timebase i with tickAt := s.tref }

/-- A tick that does not wrap. -/
def tick (i : Nat) (s : State) : State :=
  (afterTick i (s.setReg (tbKey i + Reg.TB_COUNT) (BitVec.ofNat 20 (s.tbCount i + 1)))).stampTick i

/-- The tick that wraps: the count returns to 0, WRAP is set, the staged values take effect, and the prescaler starts its next
interval under them (R111 to R113). -/
def wrapTick (i : Nat) (s : State) : State :=
  afterTick i (applyStaged i ((s.setReg (tbKey i + Reg.TB_COUNT) 0).put (tbKey i) Reg.TB_STAT_WRAP 1))

/-- One source edge (R111). The edge of a wrap makes the wrap due, which is a command of its own; the edges that come before
that command are kept and counted after it (DESIGN CHOICE, log entry 2). -/
def sourceEdge (i : Nat) (s : State) : State :=
  if s.tbRuns i then
    let t := s.timebase i
    if t.due then s.setTimebase i { t with overdue := t.overdue + 1 }
    else if 1 < t.left then s.setTimebase i { t with left := t.left - 1 }
    else if s.tbCount i + 1 = s.tbModulus i then s.setTimebase i { t with due := true, tickAt := s.tref }
    else tick i s
  else s

/-- A number of source edges. -/
def sourceEdges (i : Nat) : Nat → State → State
  | 0, s => s
  | n + 1, s => sourceEdges i n (sourceEdge i s)

/-- The number of the timebase above in a chain: the next bay of the same copy or the next general timer (R117). -/
def chainUpper (i : Nat) : Option Nat :=
  if i < 128 then (if i % 64 = 63 then none else some (i + 1)) else (if i = 135 then none else some (i + 1))

/-- The wrap of a timebase whose wrap is due; the chain's upper member counts one source edge on the TREF edge of that wrap,
and wraps with it where that is the edge of its own wrap (R112, R117, R118). The first argument bounds the chain. -/
def wrapChain : Nat → Nat → State → State
  | 0, _, s => s
  | n + 1, i, s =>
    if (s.timebase i).due then
      let s1 := wrapTick i s
      let s2 := match chainUpper i with
        | some u => if s1.tbSrc u = 2 then wrapChain n u (sourceEdge u s1) else s1
        | none => s1
      sourceEdges i (s.timebase i).overdue s2
    else s

/-- TIMEBASE_WRAP in one copy: the wrap, once its source edge has come (R112). -/
def wrapTimebase (i : Nat) (s : State) : State := wrapChain 64 i s

/-- Counting starts from the current count with acc cleared and the first tick N source edges away; stopping makes a wrap
whose edge has come and applies staged values (R113, R114, R115). -/
def setEnable (i : Nat) (en : Bool) (s : State) : State :=
  if en = s.tbEn i then s
  else if en then
    let s1 := s.put (tbKey i) Reg.TB_CTL_EN 1
    let s2 := s1.setTimebase i
      { s.timebase i with acc := 0, left := s.tbN i, frac := 0, due := false, overdue := 0, ticked := false,
                          tickAt := s.tref }
    if (decide (s.tbSrc i = 2) && chainLowest i) || (decide (i < 128) && decide (s.tbSrc i = 3)) then
      s2.put (tbKey i) Reg.TB_STAT_BAD 1 else s2
  else
    let s1 := (wrapTimebase i s).put (tbKey i) Reg.TB_CTL_EN 0
    let s2 := applyStaged i s1
    s2.setTimebase i { s2.timebase i with acc := 0, due := false, overdue := 0 }

/-- A write of TB_CTL or GT_CTL: SRC is written only while EN is clear (R114), and a bay's reserved one sets BAD (R115);
setting STAGGER again recomputes the offsets at the next wrap (R124); then EN takes its value. That a SRC written with its own
value is no change, and that STAGGER set on a stopped timebase recomputes at once, are DESIGN CHOICES (log entry 111). -/
def writeTbCtl (i : Nat) (w : Word) (s : State) : State :=
  let src := bits w 2 1
  let stag := decide (i < 128) && decide (bits w 9 9 = 1) && !s.flag (tbKey i) Reg.TB_CTL_STAGGER
  let frozenSrc := s.tbEn i && !decide (src = s.tbSrc i)
  let en := decide (bits w 0 0 = 1)
  let old := s.tbSrc i
  let wasEn := s.get (tbKey i) Reg.TB_CTL_EN
  let s1 := s.plainWrite (tbKey i + Reg.TB_CTL) w
  let s2 := s1.put (tbKey i) Reg.TB_CTL_EN wasEn
  let s3 := if frozenSrc then (s2.put (tbKey i) Reg.TB_CTL_SRC old).put (tbKey i) Reg.TB_STAT_BAD 1 else s2
  let s4 := if stag then s3.setTimebase i { s3.timebase i with restagger := true } else s3
  let s5 := if stag && !s4.tbEn i then applyStaged i s4 else s4
  let s6 := if decide (i < 128) && decide (src = 3) && !s.tbEn i then s5.put (tbKey i) Reg.TB_STAT_BAD 1 else s5
  setEnable i en s6

/-- TB_COUNT is written only while EN is clear, and stores the value modulo PER (R114). -/
def writeTbCount (i : Nat) (w : Word) (s : State) : State :=
  if s.tbEn i then s.put (tbKey i) Reg.TB_STAT_BAD 1
  else s.setReg (tbKey i + Reg.TB_COUNT) (BitVec.ofNat 20 (w.toNat % s.tbModulus i))

/-- A write of TB_CMP arms the compare, which is evaluated from the next tick on (R119). -/
def writeTbCmp (i : Nat) (w : Word) (s : State) : State :=
  ((s.setReg (tbKey i + Reg.TB_CMP) w).put (tbKey i) Reg.TB_STAT_ARMED 1).setTimebase i { s.timebase i with ticked := false }

/-- An armed compare matches when (count − CMP) mod M < floor(M / 2) (R119). -/
def State.tbMatches (s : State) (i : Nat) : Bool :=
  let m := s.tbModulus i
  let cmp := (s.reg (tbKey i + Reg.TB_CMP)).toNat % m
  s.flag (tbKey i) Reg.TB_STAT_ARMED && decide ((s.tbCount i + (m - cmp)) % m < m / 2)

/-- The producer of a timebase's compare pulses: the bay's, or the general timer's (R119, R542). -/
def tbEvent (i : Nat) (s : State) : State :=
  if i < 64 then raiseBayEvent .A i .tbCmp s
  else if i < 128 then raiseBayEvent .B (i - 64) .tbCmp s
  else raiseEvent (evGtCmp (i - 128)) s

/-- The compare evaluated at the latest tick (R119, R120). -/
def compareTick (i : Nat) (s : State) : State :=
  if s.tbRuns i && s.tbMatches i then
    let m := s.tbModulus i
    let step := (s.reg (tbKey i + Reg.TB_CMP_STEP)).toNat
    let cmp := (s.reg (tbKey i + Reg.TB_CMP)).toNat
    let s1 := (s.put (tbKey i) Reg.TB_STAT_CMP 1).setTimebase i { s.timebase i with ticked := false }
    let s2 :=
      if s.flag (tbKey i) Reg.TB_CTL_CMP_AUTO then
        let s' := s1.setReg (tbKey i + Reg.TB_CMP) (BitVec.ofNat 20 ((cmp + step) % m))
        if step = 0 then s'.put (tbKey i) Reg.TB_STAT_ARMED 0 else s'
      else s1.put (tbKey i) Reg.TB_STAT_ARMED 0
    tbEvent i s2
  else s

/-- One LFX edge of a timebase that counts on TREF, in SLEEP: it advances by 6,103.515625 / (N + F/256) ticks, the
remainder carried (R125). Answers the wraps made. -/
def coarseTicks (n f frac : Nat) : Nat × Nat :=
  ((1562500 + frac) / (256 * n + f), (1562500 + frac) % (256 * n + f))

/-- The count advanced by a number of ticks, with the wraps made and staged values applied at a wrap (R113, R125). -/
def advance (i ticks : Nat) (s : State) : State × Nat :=
  let m := s.tbModulus i
  let c := s.tbCount i + ticks
  let s1 := s.setReg (tbKey i + Reg.TB_COUNT) (BitVec.ofNat 20 (c % m))
  if m ≤ c then (applyStaged i (s1.put (tbKey i) Reg.TB_STAT_WRAP 1), c / m) else (s1, 0)

/-- Source edges in SLEEP, where a wrap is made at its edge: the state and the wraps made (R125, R132). -/
def coarseEdges (i : Nat) : Nat → State × Nat → State × Nat
  | 0, r => r
  | n + 1, (s, w) =>
    let t := s.timebase i
    if 1 < t.left then coarseEdges i n (s.setTimebase i { t with left := t.left - 1 }, w)
    else if s.tbCount i + 1 = s.tbModulus i then coarseEdges i n (wrapTick i s, w + 1)
    else coarseEdges i n (tick i s, w)

/-- The coarse counting of one timebase at an LFX edge, given the wraps of the member below (R125, R132): one on TREF advances
by the ticks of an LFX period, a chained one by the wraps below, a general timer on LFX by the edge itself. A compare is
evaluated at each LFX edge, and on those that count edges at a tick. -/
def coarseStep (i below : Nat) (s : State) : State × Nat :=
  if s.tbRuns i then
    if s.tbOnTref i then
      let t := s.timebase i
      let p := coarseTicks (s.tbN i) (s.tbF i) t.frac
      let r := advance i p.1 (s.setTimebase i { t with frac := p.2, moved := p.1 })
      (compareTick i r.1, r.2)
    else
      let was := s.tbCount i
      let m := s.tbModulus i
      let n := if s.tbSrc i = 2 then below else 1
      let r := coarseEdges i n (s.setTimebase i { s.timebase i with ticked := false }, 0)
      let u := r.1.setTimebase i { r.1.timebase i with moved := r.2 * m + r.1.tbCount i - was }
      (if (u.timebase i).ticked then compareTick i u else u, r.2)
  else (s, 0)

/-- The coarse counting of timebases from number i on, n of them, lowest first, each given the wraps of the one below. -/
def coarseChain (s : State) (i below : Nat) : Nat → State
  | 0 => s
  | n + 1 =>
    let r := coarseStep i (if chainLowest i then 0 else below) s
    coarseChain r.1 (i + 1) r.2 n

/-! ## The pins that feed timebases and captures (R115, R116, R122, R679) -/

/-- The registers of general pins that stand in the low or high group. -/
def gpGroup (base p : Nat) : Nat := oneKey + base + p / 16

/-- The level of pin p read in GP_IN, and its place. -/
def setGpIn (p : Nat) (v : Bool) (s : State) : State :=
  s.setReg (gpGroup Reg.GP_IN p)
    (setBits (s.reg (gpGroup Reg.GP_IN p)) (p % 16) (p % 16) (if v then 1 else 0))

/-- Whether an edge of a kind is one a two-bit selection names: 1 rising, 2 falling, 3 both. -/
def edgeSelected (sel : Nat) (rise : Bool) : Bool := if rise then decide (sel % 2 = 1) else decide (sel / 2 % 2 = 1)

/-- An edge of pin p at one timebase: a source edge, and the captures that watch the pin. A capture of the pin that is also the
source latches the count after the tick (DESIGN CHOICE, log entry 111: R122 does not say which). -/
def pinEdgeAt (p : Nat) (rise : Bool) (i : Nat) (s : State) : State :=
  let s1 :=
    if s.tbSrc i = 1 ∧ s.get (tbKey i) Reg.TB_CTL_PIN = p ∧ (rise = true ∨ s.get (tbKey i) Reg.TB_CTL_PIN_EDGE = 1)
    then sourceEdge i s else s
  let s2 :=
    if s1.get (capKey i 0) Reg.TB_CAP_CFG_PIN = p then capturePin i 0 rise s1 else s1
  if s2.get (capKey i 1) Reg.TB_CAP_CFG_PIN = p ∧ s2.get (capKey i 1) Reg.TB_CAP_CFG_SEL = 0
  then capturePin i 1 rise s2 else s2

/-- The numbers of every timebase copy that counts: those of halves that compute, and the general timers. -/
def State.allTimebases (s : State) : List Nat :=
  (if s.computes .A then List.range 64 else []) ++
    (if s.computes .B then (List.range 64).map (64 + ·) else []) ++ (List.range 8).map (128 + ·)

/-- The synchroniser of the pins runs: on TREF, or in SLEEP on LFX (R116, R680). -/
def State.pinsSampled (s : State) : Bool := s.trefRuns || decide (s.power.mode = .sleep)

/-- An input edge of pin p that the synchroniser passes: its level, its flag where IEDGE selects the edge, its event where
EM_GPEDGE selects it, and the timebases and captures it feeds (R679, R542, R116). -/
def gpEdge (p : Nat) (rise : Bool) (s : State) : State :=
  if !s.pinsSampled then s else
  let s1 := { setGpIn p rise s with gpPins := if rise then s.gpPins ||| (1#32 <<< p) else s.gpPins &&& ~~~(1#32 <<< p) }
  let s2 :=
    if edgeSelected (s1.get (oneKey + p) Reg.GP_CFG_IEDGE) rise then
      s1.setReg (gpGroup Reg.GP_FLAG p) (setBits (s1.reg (gpGroup Reg.GP_FLAG p)) (p % 16) (p % 16) 1) else s1
  let s3 := s2.allTimebases.foldl (fun s i => pinEdgeAt p rise i s) s2
  let sel := bits (s3.reg (oneKey + Reg.EM_GPEDGE + p / 10)) (2 * (p % 10) + 1) (2 * (p % 10))
  if edgeSelected sel rise then raiseEvent (evGpin p) s3 else s3

/-! ## Access by masters -/

/-- The half whose copies a general timer's write is judged against, or the bay's holder (R24, R26). -/
def onTbWrite (m : Master) (t : TbUnit) (off : Nat) (f : Nat → State → State) (s : State) : State :=
  match t with
  | .bay n => s.bayWrite m n.val (0x10000 + 0x400 * n.val + off) (fun h s => f (bayIx h n.val) s)
  | .gt g => s.blockWrite m (blkGt g.val) (0x71000 + 0x20 * g.val + off) (f (128 + g.val))

/-- The copy of a timebase a master reads: its own half's, the seat holder's for a command port (R24, R612), or the general
timer. -/
def State.tbRead (s : State) (m : Master) : TbUnit → Nat
  | .bay n => bayIx (if isHost m then s.holder n.val else s.masterHalf m) n.val
  | .gt g => 128 + g.val

/-- A read of TB_COUNT copies the count of a chained upper member into its TB_SNAP (R118). -/
def readCount (i : Nat) (s : State) : State :=
  match chainUpper i with
  | some u => if s.tbSrc u = 2 then s.setReg (tbKey u + Reg.TB_SNAP) (s.reg (tbKey u + Reg.TB_COUNT)) else s
  | none => s

def TbStaged.off : TbStaged → Nat
  | .pre => Reg.TB_PRE
  | .per => Reg.TB_PER
  | .phase k => Reg.TB_PHASE + k.val

/-! ## Meanings -/

/-- TIMEBASE_WRAP (R112). -/
def execTimebaseWrap (t : TbUnit) (s : State) : Result :=
  .next (s.onTimebase t wrapTimebase)

/-- TIMEBASE_STAGE (R113). -/
def execTimebaseStage (m : Master) (t : TbUnit) (r : TbStaged) (value : Word) (s : State) : Result :=
  .next (onTbWrite m t (TbStaged.off r) (fun i s => writeStaged i r value s) s)

/-- CHAIN_SNAPSHOT_READ (R118): a read of the timebase's TB_COUNT by a master. -/
def execChainSnapshotRead (m : Master) (t : TbUnit) (s : State) : Result :=
  .next (readCount (s.tbRead m t) s)

/-- COMPARE_ARM (R119). -/
def execCompareArm (m : Master) (t : TbUnit) (value : Word) (s : State) : Result :=
  .next (onTbWrite m t Reg.TB_CMP (fun i s => writeTbCmp i value s) s)

/-- COMPARE_MATCH (R119): the compare is evaluated once at each tick. -/
def execCompareMatch (t : TbUnit) (s : State) : Result :=
  .next (s.onTimebase t (fun i s => if (s.timebase i).ticked then compareTick i s else s))

/-- CAPTURE_EDGE (R122): a synchronised edge reaches a capture unit. -/
def execCaptureEdge (t : TbUnit) (unit : Fin 2) (rise : Bool) (s : State) : Result :=
  .next (if s.pinsSampled then s.onTimebase t (fun i s => capturePin i unit.val rise s) else s)

/-- GP_INPUT_EDGE (R679). -/
def execGpInputEdge (p : Fin 32) (rise : Bool) (s : State) : Result :=
  .next (gpEdge p.val rise s)

end Sys2Proof.Machine
end

