-- ==== Sys2Proof/Machine/Terminals.lean ====
section
/-! DEFINITION. Terminals: pulse slots, pads, trips, telemetry and probe samples, TALK, diagnosis and the terminal
envelope (R140 to R200), and the bay SAR (R165). -/

namespace Sys2Proof.Machine

/-! ## Where a terminal's registers stand -/

/-- The envelope registers of a terminal, TS_ENV and TS_ILK, which exist once (R186): the base of their offsets. -/
def envKey (t : Nat) : Nat := padKey (t / 16) + 2 * (t % 16)

/-- TS_THR of a terminal, which exists once (R186). -/
def thrKey (t : Nat) : Nat := padKey (t / 16) + 0x80 + 16 * (t % 16)

/-- The timebase copy that times a terminal in half h's copy. -/
def tbOf (h : Half) (t : Nat) : Nat := bayIx h (t / 16)

/-- The registers TD_AGE and TD_EXCESS of a terminal. -/
def ageKey (h : Half) (t : Nat) : Nat := bayKey h (t / 16) + Reg.TD_AGE + t % 16
def excessKey (h : Half) (t : Nat) : Nat := bayKey h (t / 16) + Reg.TD_EXCESS + t % 16

/-! ## Health (R176 to R178) -/

/-- The health an evidence class says (R176). -/
def healthOfEvidence : Nat → Nat
  | 1 => 1
  | 2 => 2
  | 3 => 3
  | 4 => 4
  | 5 => 5
  | 6 => 6
  | 7 => 1
  | 8 => 2
  | 9 => 4
  | 10 => 5
  | 11 => 7
  | 12 => 6
  | _ => 0

/-- The proving interval in s (R194). -/
def State.piv (s : State) (h : Half) (t : Nat) : Nat := min 60 (s.get (termKey h t) Reg.TD_CFG_PIV)

/-- The stale limit in units of 100 ms: 2 × PIV s, or 120 s when PIV is 0 (R177). -/
def State.staleLimit (s : State) (h : Half) (t : Nat) : Nat :=
  if s.piv h t = 0 then 1200 else 20 * s.piv h t

/-- HEALTH as R176 and R177 give it. -/
def State.healthNow (s : State) (h : Half) (t : Nat) : Nat :=
  if s.flag (termKey h t) Reg.TS_STAT_TRIP then 8
  else if s.get (termKey h t) Reg.TD_STAT_LAST = 0 ∨ s.staleLimit h t < (s.reg (ageKey h t)).toNat then 0
  else healthOfEvidence (s.get (termKey h t) Reg.TD_STAT_LAST)

/-- HEALTH brought up to date; a change sets HCHG and raises EV_TERM_HEALTH (R177). -/
def refreshHealth (h : Half) (t : Nat) (s : State) : State :=
  let v := s.healthNow h t
  let old := s.get (termKey h t) Reg.TD_STAT_HEALTH
  if old = v then s
  else
    let s1 := (s.put (termKey h t) Reg.TD_STAT_HEALTH v).put (termKey h t) Reg.TD_STAT_HCHG 1
    let s2 := bayRecord h (t / 16) Reg.CC_EV_HEALTH recHealth
      (bigEndian 2 t ++ [BitVec.ofNat 8 (16 * v + s.get (termKey h t) Reg.TD_STAT_LAST), BitVec.ofNat 8 (16 * old)]) s1
    raiseBayEvent h (t / 16) .termHealth s2

/-- A sample as evidence: LAST, the age cleared, HEALTH (R176). -/
def takeEvidence (h : Half) (t cls : Nat) (s : State) : State :=
  refreshHealth h t ((s.put (termKey h t) Reg.TD_STAT_LAST cls).setReg (ageKey h t) 0)

/-! ## Samples (R148, R151, R161, R176) -/

/-- The class of a telemetry sample: 0 LAW, 1 FAULT, 2 LOW, 3 NOPATH (R148). -/
def telClass (code : Nat) (noPath : Bool) : Nat :=
  if noPath then 3 else if 3520 ≤ code then 1 else if code ≤ 640 then 2 else 0

/-- The answer of a probe sample (R151). -/
def probeAnswer (code : Nat) (noPath : Bool) : Nat :=
  if noPath then 5
  else if code ≤ 255 then 4
  else if code ≤ 512 then 0
  else if 1088 ≤ code ∧ code ≤ 1472 then 1
  else if 1856 ≤ code ∧ code ≤ 2240 then 2
  else 3

/-- The evidence class of a telemetry sample (R176): lo = max(64 × LO, 1,045), hi = 64 × HI when HI is not 0. -/
def telEvidence (code cls lo hi : Nat) : Nat :=
  match cls with
  | 0 => if code < max (64 * lo) 1045 then 2 else if hi ≠ 0 ∧ 64 * hi < code then 3 else 1
  | 1 => 4
  | 2 => 5
  | _ => 6

/-- The evidence class of a probe answer (R176). -/
def probeEvidence (ans : Nat) : Nat :=
  match ans with
  | 0 => 7
  | 1 => 8
  | 2 => 9
  | 4 => 10
  | 3 => 11
  | _ => 12

/-- A telemetry sample is committed: TS_TEL, the class-change flag, evidence, and a LAW code for the pipeline (R161). -/
def commitSample (h : Half) (t : Nat) (s : State) : State :=
  let x := s.slot h t
  match x.sample with
  | none => s
  | some (code, bad, at_) =>
    let key := termKey h t
    let cls := telClass code bad
    let old := s.get key Reg.TS_TEL_CLS
    let seq := (s.get key Reg.TS_TEL_SEQ + 1) % 16
    let s1 := (((s.put key Reg.TS_TEL_CLS cls).put key Reg.TS_TEL_COMP (if bad then 1 else 0)).put key
      Reg.TS_TEL_SEQ seq).put key Reg.TS_TEL_CODE code
    let s2 := if cls = old then s1 else s1.put key Reg.TS_STAT_TEL_CLS 1
    let law := if cls = 0 then some (code, at_) else x.lawSample
    let s3 := s2.setSlot h t { x with sample := none, lawSample := law }
    takeEvidence h t (telEvidence code cls (s.get key Reg.TD_CFG_LO) (s.get key Reg.TD_CFG_HI)) s3

/-- A probe sample: TS_PRB, the answer-change flag, evidence, and the code for the pipeline (R150, R151, R166). -/
def probeSample (h : Half) (t code : Nat) (s : State) : State :=
  let x := s.slot h t
  let key := termKey h t
  let ans := probeAnswer code x.noPath
  let old := s.get key Reg.TS_PRB_ANS
  let seq := (s.get key Reg.TS_PRB_SEQ + 1) % 16
  let s1 := ((s.put key Reg.TS_PRB_ANS ans).put key Reg.TS_PRB_SEQ seq).put key Reg.TS_PRB_CODE code
  let s2 := if ans = old then s1 else s1.put key Reg.TS_STAT_PRB_CLS 1
  let s3 := s2.setSlot h t { x with prbReq := none, noPath := false, prbSample := some (code, s.timeNs) }
  takeEvidence h t (probeEvidence ans) s3

/-! ## Pads (R46, R140, R191, R639, R652) -/

/-- The half whose driver path is live at a terminal (R68). -/
def State.livePath (s : State) (t : Nat) : Half := Half.ofBit (s.referee.termPath.getLsbD t)

/-- The interlock holds back a rise of a terminal: its partner sources I_ON, or fell less than DEAD µs ago (R190). -/
def State.interlocked (s : State) (t : Nat) : Bool :=
  if s.flag (envKey t) Reg.TS_ILK_ILK then
    let p := 16 * (t / 16) + s.get (envKey t) Reg.TS_ILK_PARTNER
    decide ((s.pad p).level = .on)
      || match (s.pad p).lastFall with
         | some f => decide (s.tref < f + 200 * s.get (envKey t) Reg.TS_ILK_DEAD)
         | none => false
  else false

/-- The pad's source may take I_ON: it has it, or the interlock allows the rise (R190). -/
def State.onAllowed (s : State) (t : Nat) : Bool := decide ((s.pad t).level = .on) || !s.interlocked t

/-- What the boundary register asks of a terminal pad (R686). -/
def State.scanWanted (s : State) (t : Nat) : PadLevel :=
  match s.scanOut (terminalScan t) with
  | none => .off
  | some v =>
    if v && !(s.pad t).cut && decide (s.get (envKey t) Reg.TS_ENV_MAXD = 1000) && s.onAllowed t then .on else .rest

/-- TS_ENV of a terminal as it stood at the slot's latest period start (R189). -/
def State.envMaxd (s : State) (t : Nat) : Nat := bits (s.pad t).env Reg.TS_ENV_MAXD.hi Reg.TS_ENV_MAXD.lo
def State.envFailsafe (s : State) (t : Nat) : Bool :=
  decide (bits (s.pad t).env Reg.TS_ENV_FAILSAFE.hi Reg.TS_ENV_FAILSAFE.lo = 1)

/-- The pad follows the slot of its live path: nothing takes the pad from it (R46, R639, R652, R686). -/
def State.followsSlot (s : State) (t : Nat) : Bool :=
  s.power.vaon && !decide (s.power.mode = .off) && !s.scanDrives && (s.pad t).latch.isNone
    && !(decide (s.power.mode = .run) && !s.power.xref) && !s.orphaned (t / 16) && s.computes (s.livePath t)

/-- The current of a running exchange, by the TREF count since its start: lead-in, the frame's bits, turnaround and reply,
tail (R155 steps 1, 3, 4 and 9). -/
def talkLevel (frame : Word) (e : Nat) : PadLevel :=
  if e < 400 then .talk0
  else if e < 4400 then (if frame.getLsbD (19 - (e - 400) / 200) then .talk1 else .talk0)
  else if e < 9200 then .talk0
  else .rest

/-- What the slot of the live path asks of its pad (R140, R143, R155). TALK current flows while TRIP is set (R156). -/
def State.slotWanted (s : State) (t : Nat) : PadLevel :=
  let x := s.slot (s.livePath t) t
  if x.drive then (if (s.pad t).cut || !s.onAllowed t then .rest else .on)
  else match x.talk with
    | some r => if r.running then talkLevel (s.pad t).frame (s.onTref - r.started) else .rest
    | none => .rest

/-- The level asked of a pad: none without VAON; the boundary register's while it drives; held in DEEP; I_REST while XREF
is lost in RUN (R639); the fail-safe band in an orphaned bay; no current from a path whose half is in half reset (R68);
otherwise what the live path's slot commands. A trip cuts I_ON whatever asks for it (R48, R161). -/
def State.padWanted (s : State) (t : Nat) : PadLevel :=
  if !s.power.vaon || decide (s.power.mode = .off) then .off
  else if s.scanDrives then s.scanWanted t
  else
    match (s.pad t).latch with
    | some l => if (s.pad t).cut then .rest else l
    | none =>
      if decide (s.power.mode = .run) && !s.power.xref then .rest
      else if s.orphaned (t / 16) then
        (if s.envFailsafe t && !(s.pad t).cut && s.onAllowed t then .on else .rest)
      else if !s.computes (s.livePath t) then .off
      else s.slotWanted t

/-! ## The envelope's actions (R193, R200) -/

/-- An envelope action: the bits of TD_STAT, one count of the bay, the latest action, and EV_ENVELOPE when a bit goes from
0 to 1. The counter, ENV_LAST and the event stand in the envelope gate, once per bay, and follow the seat holder's
copy (R193, R200, R543). -/
def envelopeAction (h : Half) (t : Nat) (fs : List Fld) (cause : Nat) (s : State) : State :=
  let fresh := fs.any (fun f => !s.flag (termKey h t) f)
  let s1 := fs.foldl (fun s f => s.put (termKey h t) f 1) s
  if s.holder (t / 16) = h then
    let b := t / 16
    let s2 := s1.count (padKey b + Reg.ENV_BAYCNT) 1
    let s3 := s2.setReg (padKey b + Reg.ENV_LAST) (inField 7 4 cause ||| inField 3 0 (t % 16))
    if fresh then raiseBayEvent h b .envelope
      (bayRecord h b Reg.CC_EV_ENV recEnvelope (bigEndian 2 t ++ [BitVec.ofNat 8 cause]) s3)
    else s3
  else s1

/-! ## Lengths of time in ticks (R149, R153, R157, R181) -/

/-- 256 × the TREF cycles of a tick. -/
def State.tickLen (s : State) (i : Nat) : Nat := 256 * s.tbN i + s.tbF i

/-- The TREF cycles of a number of ticks, rounded down. -/
def State.cycles (s : State) (i ticks : Nat) : Nat := ticks * s.tickLen i / 256

/-- The ticks of a number of TREF cycles, rounded up. -/
def State.ticksUp (s : State) (i cyc : Nat) : Nat := (256 * cyc + s.tickLen i - 1) / s.tickLen i

/-- The source edges from now to the k-th tick from now, under the prescaler's state (R111). -/
def State.edgesTo (s : State) (i : Nat) : Nat → Nat
  | 0 => 0
  | k + 1 =>
    let x := s.timebase i
    (if x.due then 0 else x.left) + k * s.tbN i + (x.acc + k * s.tbF i) / 256

/-- The ticks to the slot's next period start; at one, a whole period. -/
def State.ticksToPeriod (s : State) (h : Half) (t : Nat) : Nat :=
  let i := tbOf h t
  let m := s.tbModulus i
  let d := (s.tbPhase i (t % 16) + m - s.tbCount i) % m
  if d = 0 then m else d

/-- A fine placement as it will be applied, by its register (R144). -/
def State.fine (s : State) (h : Half) (t : Nat) (f : Fld) : Nat :=
  let i := tbOf h t
  if s.tbSrc i = 1 then 0 else min (s.get (termKey h t) f) (s.tbN i - 1)

/-- The TREF cycles from now to the rise of the slot's next period. -/
def State.toNextRise (s : State) (h : Half) (t : Nat) : Nat :=
  s.edgesTo (tbOf h t) (s.ticksToPeriod h t) + s.fine h t Reg.TS_FINE_R_FINE_R

/-- The instant is that at which the count reached a value, a number of TREF cycles later (R143). -/
def State.atTick (s : State) (i count cyc : Nat) : Bool :=
  decide (s.power.mode = .run) && s.tbRuns i && !(s.timebase i).due && decide (s.tbCount i = count)
    && decide ((s.timebase i).tickAt + cyc = s.tref)

/-! ## A proof given up (R181, R185) -/

/-- The ticks of light a proving pulse has delivered beyond its normal on-time. -/
def State.proofExcess (s : State) (h : Half) (t : Nat) : Nat :=
  let x := s.slot h t
  match x.proving with
  | some o => if x.drive then (s.tref - x.roseAt) * 256 / s.tickLen (tbOf h t) - o else 0
  | none => 0

/-- A proof ends before its pulse's own fall, or without a pulse: nothing enters the ledger, and what was delivered beyond the
normal on-time is written to TD_EXCESS (R185 for a trip). -/
def dropProof (h : Half) (t : Nat) (s : State) : State :=
  let x := s.slot h t
  match x.proving with
  | none => s
  | some o =>
    let e := s.proofExcess h t
    let s1 := (s.put (termKey h t) Reg.TD_STAT_PROVING 0).setSlot h t { x with proving := none, applied := o }
    if 0 < e then (s1.count (excessKey h t) e).put (termKey h t) Reg.TD_STAT_EXCESS 1 else s1

/-- A pulse that the interlock holds back: the pin stays in REST until the next period start (R190, R185). -/
def suppress (h : Half) (t : Nat) (s : State) : State :=
  let s1 := envelopeAction h t [Reg.TD_STAT_ILK_HOLD] 3 (dropProof h t s)
  s1.setSlot h t { s1.slot h t with drive := false, riseDue := false, sample := none, telReq := none }

/-! ## The pad takes its level (R147, R161, R190, R205) -/

/-- The terminal of bay b that its line envelope names as power slot (R205, R207). -/
def State.powerSlot (s : State) (b : Nat) : Nat := 16 * b + s.get (padKey b) Reg.LN_ENV_PWR_SLOT

/-- A slot that comes to its pad in mid-pulse makes a rise there, which the interlock may hold back (R190). -/
def holdPulse (t : Nat) (s : State) : State :=
  if s.followsSlot t && (s.slot (s.livePath t) t).drive && !(s.pad t).cut && !s.onAllowed t then
    s.onSlot t (fun h s => if (s.slot h t).drive then suppress h t s else s)
  else s

/-- The pad takes its level; a fall from I_ON is remembered and disarms the comparator (R161, R190), and a rise of a
power slot blanks its line's current comparator (R205). -/
def syncPad (t : Nat) (s0 : State) : State :=
  let s := holdPulse t s0
  let p := s.pad t
  let l := s.padWanted t
  if l = p.level then s
  else if p.level = .on then s.setPad t { p with level := l, armed := false, lastFall := some s.tref }
  else if l = .on then
    let s1 := s.setPad t { p with level := l, armed := false, riseAt := s.tref }
    if s.powerSlot (t / 16) = t then { s1 with lineBlanked := s1.lineBlanked ||| BitVec.twoPow 64 (t / 16) } else s1
  else s.setPad t { p with level := l, armed := false }

/-! ## The period of a slot (R143, R144, R157, R158, R180 to R183, R188) -/

/-- The largest on-time the envelope allows: PER × MAXD / 1,000 (R188). -/
def State.maxOn (s : State) (h : Half) (t : Nat) : Nat :=
  s.tbModulus (tbOf h t) * s.get (envKey t) Reg.TS_ENV_MAXD / 1000

/-- The commanded on-time: the duty limit, then the slew limit (R188). Answers it with the two clip marks. -/
def commandedOn (on maxon slew per prev : Nat) : Nat × Bool × Bool :=
  let c := min on maxon
  let lim := prev + max 1 (slew * per / 1024)
  if slew ≠ 0 ∧ prev < c ∧ lim < c then (lim, decide (maxon < on), true) else (c, decide (maxon < on), false)

/-- The commanded on-time of a period under the envelope's limits, with the marks of what it clipped: one action of the
envelope, which ENV_LAST calls slew where both limits acted, since that limit comes last (R188, R193). -/
def limitOn (h : Half) (t on : Nat) (prev : Nat) (s : State) : Nat × State :=
  let r := commandedOn on (s.maxOn h t) (s.get (envKey t) Reg.TS_ENV_SLEW) (s.tbModulus (tbOf h t)) prev
  let fs := (if r.2.1 then [Reg.TD_STAT_CLIP_DUTY] else []) ++ (if r.2.2 then [Reg.TD_STAT_CLIP_SLEW] else [])
  (r.1, if fs = [] then s else envelopeAction h t fs (if r.2.2 then 2 else 1) s)

/-- The ticks borrowed at a period start to open a 60 µs window before the next rise: (R − F′) − (R − F), rounded up; in
continuous DRIVE R is the next period start, and there is no fall (R157). -/
def State.borrowTicks (s : State) (h : Half) (t cmd : Nat) : Nat :=
  let i := tbOf h t
  let off := if s.tbModulus i ≤ cmd then 0 else s.toNextRise h t - (s.edgesTo i cmd + (s.slot h t).fineF)
  if 12000 ≤ off then 0 else s.ticksUp i (12000 - off)

/-- A borrow is possible (R157). -/
def State.canBorrow (s : State) (h : Half) (t : Nat) : Bool :=
  let i := tbOf h t
  decide (12000 * 256 ≤ s.tbModulus i * s.tickLen i) && s.flag (termKey h t) Reg.TS_CTL_BORROW
    && s.tbRuns i && s.tbOnTref i

/-- The light ledger as a signed number of ticks (R158, R174). -/
def State.ledger (s : State) (h : Half) (t : Nat) : Int := signed 20 (s.reg (termKey h t + Reg.TS_LEDGER)).toNat

def State.setLedger (s : State) (h : Half) (t : Nat) (v : Int) : State :=
  s.setReg (termKey h t + Reg.TS_LEDGER) (BitVec.ofNat 20 (unsigned 20 v))

/-- One period of repaying a borrow of d ticks (R158): the applied on-time, and the state with the ledger lowered and,
after the 64th period, a deficit written off to TS_LOST. -/
def repayBorrow (h : Half) (t d n cmd maxon : Nat) (s : State) : Nat × State :=
  let per := s.tbModulus (tbOf h t)
  let l := (s.ledger h t).toNat
  let a := min l (min ((d + 63) / 64) (min per maxon - cmd))
  let rest := l - a
  let s1 := s.setLedger h t rest
  let x := s.slot h t
  if rest = 0 then (cmd + a, s1.setSlot h t { x with repay := .none })
  else if n + 1 = 64 then
    (cmd + a,
      (((s1.setLedger h t 0).count (termKey h t + Reg.TS_LOST) rest).put (termKey h t) Reg.TS_STAT_REPAY_SHORT 1).setSlot
        h t { x with repay := .none })
  else (cmd + a, s1.setSlot h t { x with repay := .borrow d (n + 1) })

/-- One period of repaying the excess of a proof of e ticks (R182). -/
def repayProof (h : Half) (t e n cmd : Nat) (s : State) : Nat × State :=
  let l := (-(s.ledger h t)).toNat
  let a := min l (min ((e + 63) / 64) cmd)
  let rest := l - a
  let s1 := s.setLedger h t (-(rest : Int))
  let x := s.slot h t
  if rest = 0 then
    (cmd - a, (s1.put (termKey h t) Reg.TD_STAT_PROVING 0).setSlot h t { x with repay := .none })
  else if n + 1 = 64 then
    (cmd - a,
      ((((s1.setLedger h t 0).count (excessKey h t) rest).put (termKey h t) Reg.TD_STAT_EXCESS 1).put (termKey h t)
        Reg.TD_STAT_PROVING 0).setSlot h t { x with repay := .none })
  else (cmd - a, s1.setSlot h t { x with repay := .proof e (n + 1) })

/-- A proof is due at a period start (R180), but for the talk borrow, which is judged first. -/
def State.proofDue (s : State) (h : Half) (t cmd : Nat) : Bool :=
  decide (s.piv h t ≠ 0) && decide (10 * s.piv h t ≤ (s.reg (ageKey h t)).toNat)
    && s.tbOnTref (tbOf h t) && s.trefRuns && decide (s.ledger h t = 0)
    && (decide (cmd ≠ 0) || s.flag (termKey h t) Reg.TD_CFG_PZ)

/-- A talk borrow of d ticks in a period of cmd ticks (R157): the light is owed, and the exchange starts 6.0 µs after the
earlier fall. -/
def borrow (h : Half) (t d cmd : Nat) (s : State) : Nat × State :=
  let x := s.slot h t
  let on := cmd - d
  let fall := if on = 0 then 0 else s.edgesTo (tbOf h t) on + x.fineF
  let s1 := (s.setLedger h t d).put (termKey h t) Reg.TS_STAT_BORROWED 1
  (on, s1.setSlot h t
    { x with repay := .borrow d 0, talk := x.talk.map (fun r => { r with planned := some (s.onTref + fall + 1200) }) })

/-- The on-time of a period, given the commanded one: a talk borrow, a repayment, a proof, or none of these. -/
def applyLedger (h : Half) (t cmd maxon : Nat) (s : State) : Nat × State :=
  let x := s.slot h t
  let key := termKey h t
  let d := s.borrowTicks h t cmd
  let wants := match x.talk with
    | some r => (r.marked || decide (r.accepted + 200000000 ≤ s.onTref)) && !r.running
    | none => false
  if wants && decide (s.ledger h t = 0) && decide (0 < d) && s.canBorrow h t then borrow h t d cmd s
  else
    match x.repay with
    | .borrow d n => if 0 < s.ledger h t then repayBorrow h t d n cmd maxon s else (cmd, s)
    | .proof e n => if s.ledger h t < 0 then repayProof h t e n cmd s else (cmd, s)
    | .none =>
      if s.proofDue h t cmd then
        let p := s.ticksUp (tbOf h t) 1200
        if maxon < p then (cmd, s.put key Reg.TD_STAT_PRV_SKIP 1)
        else
          (max cmd p,
            (s.put key Reg.TD_STAT_PROVING 1).setSlot h t { x with proving := some cmd })
      else (cmd, s)

/-- The TREF edges of the earliest sample and of the deadline of a telemetry request for a pulse that rises at r and
lasts a number of TREF cycles (R149). -/
def telWindow (r len at_ : Nat) : Nat × Nat :=
  let first := r + 800
  let start :=
    match at_ with
    | 1 => max first (r + len / 2)
    | 2 => max first (r + (len - 200))
    | _ => first
  (start, r + (len - 50))

/-- The rise of a pulse, or a period start in continuous DRIVE: a qualifying pulse asks for a telemetry sample. The fall comes
where the count and the fine placement put it, or in continuous DRIVE at the next period start; on a timebase whose edges no
one knows in advance nothing is known of it but the latest (R149, R181). -/
def startPulse (h : Half) (t : Nat) (s : State) : State :=
  let x := s.slot h t
  let i := tbOf h t
  let key := termKey h t
  let m := s.tbModulus i
  let len :=
    if !s.tbOnTref i then 2 ^ 40
    else if m ≤ x.applied then s.edgesTo i (s.ticksToPeriod h t)
    else s.edgesTo i x.applied + x.fineF
  let at_ := if s.tbOnTref i || decide (s.get key Reg.TS_CTL_TEL_AT = 3) then s.get key Reg.TS_CTL_TEL_AT else 0
  let x1 := { x with drive := true, riseDue := false, roseAt := s.tref, prbReq := none }
  if x.proving.isSome then
    s.setSlot h t { x1 with telReq := some (telWindow s.tref len 0), telCount := 0 }
  else if s.cycles i (min x.applied m) < 1200 then s.setSlot h t x1
  else if x.telCount + 1 = 2 ^ s.get key Reg.TS_CTL_TEL_DIV then
    s.setSlot h t { x1 with telReq := (if at_ = 3 then none else some (telWindow s.tref len at_)), telCount := 0 }
  else s.setSlot h t { x1 with telCount := x.telCount + 1 }

/-- The start of an off phase: a qualifying one asks for a probe sample, no earlier than 8.0 µs after it and no later than
0.25 µs before the next rise (R150). -/
def startOff (h : Half) (t : Nat) (s : State) : State :=
  let x := s.slot h t
  let key := termKey h t
  let x1 := { x with fellAt := some s.tref }
  if s.flag key Reg.TS_CTL_PROBE && s.flag key Reg.TS_CTL_EN then
    let gap := if s.tbOnTref (tbOf h t) then s.toNextRise h t else 2 ^ 40
    if x.prbCount + 1 = 2 ^ s.get key Reg.TS_CTL_PRB_DIV then
      s.setSlot h t { x1 with prbReq := some (s.tref + 1600, s.tref + (gap - 50)), prbCount := 0 }
    else s.setSlot h t { x1 with prbCount := x.prbCount + 1, prbReq := none }
  else s.setSlot h t { x1 with prbReq := none }

/-- A qualifying pulse that ends without a sample sets TEL_MISS (R149). -/
def missTelemetry (h : Half) (t : Nat) (s : State) : State :=
  let x := s.slot h t
  if x.telReq.isSome then (s.put (termKey h t) Reg.TS_STAT_TEL_MISS 1).setSlot h t { x with telReq := none } else s

/-- The light of a proof at the fall of its pulse (R182, R183). -/
def endProof (h : Half) (t : Nat) (s : State) : State :=
  let x := s.slot h t
  match x.proving with
  | none => s
  | some 0 =>
    ((s.count (excessKey h t) x.applied).put (termKey h t) Reg.TD_STAT_PROVING 0).setSlot h t { x with proving := none }
  | some o =>
    if o < x.applied then
      (s.setLedger h t (s.ledger h t - ((x.applied - o : Nat) : Int))).setSlot h t
        { x with proving := none, repay := .proof (x.applied - o) 0 }
    else (s.put (termKey h t) Reg.TD_STAT_PROVING 0).setSlot h t { x with proving := none }

/-- A pulse's telemetry at its end: the sample is committed, or missed where it was due (R149, R161). -/
def closeSample (h : Half) (t : Nat) (s : State) : State := missTelemetry h t (commitSample h t s)

/-- The fall of a pulse in half h's copy: the sample is committed or missed, the proof's light entered, the off phase
begins (R143, R161, R182). -/
def fallCopy (h : Half) (t : Nat) (s : State) : State :=
  let s1 := endProof h t (closeSample h t s)
  startOff h t (s1.setSlot h t { s1.slot h t with drive := false })

/-- A slot that no longer drives: it holds I_REST, takes no sample and commands nothing (R145, R188). -/
def Slot.rest (x : Slot) (now : Nat) : Slot :=
  { x with drive := false, riseDue := false, prev := 0, cmd := 0, applied := 0, proving := none, sample := none, telReq := none,
           prbReq := none, fellAt := if x.drive then some now else x.fellAt }

/-- A slot in half h's copy comes to rest: its pulse falls, and a proof in progress is given up. -/
def restSlot (h : Half) (t : Nat) (s : State) : State :=
  let s1 := dropProof h t (if (s.slot h t).drive then closeSample h t s else s)
  s1.setSlot h t ((s1.slot h t).rest s1.tref)

/-- Every slot comes to rest, as when the timebases stop. -/
def restSlots (s : State) : State :=
  (List.range 1024).foldl (fun s t => syncPad t (s.onSlot t (fun h s => restSlot h t s))) s

/-- The slots of a bay copy whose timebase does not count come to rest (R145). -/
def restBay (i : Nat) (s : State) : State :=
  if i < 128 ∧ s.tbEn i = false then
    let h := Half.ofBit (decide (64 ≤ i))
    (List.range 16).foldl (fun s k =>
      let t := 16 * (i % 64) + k
      syncPad t (noteBand h t (s.slot h t).band (restSlot h t s))) s
  else s

/-- What a slot takes at its period start: the on-time and fine placements staged (R144); a borrowed window that has not been
used is gone. -/
def loadStaged (h : Half) (t : Nat) (s : State) : Slot :=
  let x := s.slot h t
  { x with on := s.get (termKey h t) Reg.TS_ON_ON, fineR := s.fine h t Reg.TS_FINE_R_FINE_R,
           fineF := s.fine h t Reg.TS_FINE_F_FINE_F, periodAt := some s.tref
           talk := x.talk.map (fun r => if r.running then r else { r with planned := none }) }

/-- The count of half h's copy reaches the terminal's phase offset now, and the period has not been started (R143). -/
def State.atPeriodStart (s : State) (h : Half) (t : Nat) : Bool :=
  let i := tbOf h t
  s.atTick i (s.tbPhase i (t % 16)) 0 && decide ((s.slot h t).periodAt ≠ some s.tref)

/-- A half that computes has the slot at a period start. -/
def State.periodBegins (s : State) (t : Nat) : Bool :=
  (s.computes .A && s.atPeriodStart .A t) || (s.computes .B && s.atPeriodStart .B t)

/-- A rise of the period that starts now would fall within a TALK exchange or within 6.0 µs after its end, and is deferred to
the following period start (R153). -/
def State.riseDeferred (s : State) (h : Half) (t : Nat) : Bool :=
  let key := termKey h t
  s.flag key Reg.TS_CTL_EN && !s.flag key Reg.TS_STAT_TRIP
    && (decide (s.get key Reg.TS_ON_ON ≠ 0) || s.proofDue h t 0)
    && match (s.slot h t).talkAt with
       | some a => decide (s.onTref + s.fine h t Reg.TS_FINE_R_FINE_R < a + 10800)
       | none => false

/-- The period start of a slot in half h's copy, with what is left of the period before. -/
def periodStart (h : Half) (t : Nat) (s : State) : State :=
  let key := termKey h t
  if !s.atPeriodStart h t then s
  else if s.riseDeferred h t then s.setSlot h t { s.slot h t with periodAt := some s.tref }
  else
    let wasOn := (s.slot h t).drive
    let s1 := if wasOn then endProof h t (closeSample h t s) else dropProof h t s
    let x := loadStaged h t s1
    if s.flag key Reg.TS_CTL_EN && !s.flag key Reg.TS_STAT_TRIP then
      let r := limitOn h t x.on x.prev s1
      let l := applyLedger h t r.1 (s.maxOn h t) (r.2.setSlot h t { x with prev := r.1, cmd := r.1 })
      let s2 := l.2.setSlot h t { l.2.slot h t with applied := l.1 }
      if l.1 = 0 then
        startOff h t (s2.setSlot h t { s2.slot h t with riseDue := false, drive := false })
      else if wasOn then startPulse h t s2
      else s2.setSlot h t { s2.slot h t with riseDue := true }
    else
      startOff h t (s1.setSlot h t { x with prev := 0, cmd := 0, applied := 0, riseDue := false, drive := false })

/-- The rise instant of the slot in half h's copy: the pulse is due, FINE_R cycles after the tick of its phase offset (R143). -/
def State.riseNow (s : State) (h : Half) (t : Nat) : Bool :=
  let i := tbOf h t
  (s.slot h t).riseDue && s.atTick i (s.tbPhase i (t % 16)) (s.slot h t).fineR

/-- The rise in half h's copy: the pulse rises unless the interlock suppresses it (R190). -/
def riseCopy (held : Bool) (h : Half) (t : Nat) (s : State) : State :=
  if s.riseNow h t then (if held then suppress h t s else startPulse h t s) else s

/-- The fall instant of the slot in half h's copy: FINE_F cycles after the tick of its phase offset plus the applied on-time; a
pulse whose applied on-time is the period or more has no fall (R143). -/
def State.fallNow (s : State) (h : Half) (t : Nat) : Bool :=
  let i := tbOf h t
  let x := s.slot h t
  x.drive && decide (x.applied < s.tbModulus i)
    && s.atTick i ((s.tbPhase i (t % 16) + x.applied) % s.tbModulus i) x.fineF

/-- The lower-numbered partner of a terminal rises on this TREF edge, whether or not its commands have come yet (R190). -/
def State.lowerRises (s : State) (t : Nat) : Bool :=
  if s.flag (envKey t) Reg.TS_ILK_ILK then
    let p := 16 * (t / 16) + s.get (envKey t) Reg.TS_ILK_PARTNER
    decide (p < t) && (s.onCopies (fun h s => periodStart h p s)).riseNow (s.livePath p) p && !s.interlocked p
  else false

/-- A trip in half h's copy: TRIP, the counter, the pulse's sample discarded, HEALTH, EV_TRIP (R161, R177, R185). -/
def tripCopy (h : Half) (t : Nat) (s : State) : State :=
  let key := termKey h t
  let s1 := dropProof h t ((s.put key Reg.TS_STAT_TRIP 1).count (key + Reg.TS_TRIPS) 1)
  let s2 := s1.setSlot h t
    { s1.slot h t with drive := false, riseDue := false, sample := none, telReq := none, prev := 0, fellAt := some s.tref }
  let s3 := bayRecord h (t / 16) Reg.CC_EV_TRIP recTrip
    (bigEndian 2 t ++ bigEndian 3 (s2.reg (key + Reg.TS_TRIPS)).toNat) (refreshHealth h t s2)
  raiseBayEvent h (t / 16) .trip s3

/-! ## TALK (R152 to R158) -/

/-- The four check bits of a TALK frame: CRC-4 over 16 bits, polynomial x^4 + x + 1, initial value 0xF (R154). -/
def crc4 (data : Nat) : Nat := crcBits 4 3 15 (natBits 16 data)

/-- A command frame (R154). -/
def talkFrame (op arg : Nat) : Word :=
  let d := (op % 16) * 4096 + arg % 4096
  BitVec.ofNat 20 (d * 16 + crc4 d)

/-- A reply's check is good (R154). -/
def talkGood (reply : Word) : Bool := decide (crc4 (bits reply 19 4) = bits reply 3 0)

/-- TREF time in units of 10 ms, saturating at 255 (R157, R173). -/
def wait10ms (s : State) (from_ : Nat) : Nat := min 255 ((s.onTref - from_) / 2000000)

/-- The outcome of a SET_RANGE that a command waits for (R617): its status, and the reply frame where it is ST_OK. -/
def noteRange (t st frame : Nat) (s : State) : State :=
  noteResult 0x75 (fun b => decide (fromBytes (b.take 2) = t)) st (if st = St.OK then bigEndian 3 frame else []) s

/-- The end of a TALK request with a status (R156, R173). -/
def endTalk (h : Half) (t st wait tries : Nat) (s0 : State) : State :=
  let key := termKey h t
  let s := if s0.holder (t / 16) = h then noteRange t st (s0.reg (key + Reg.TS_TALK_RSP)).toNat s0 else s0
  let s1 := (((s.put key Reg.TS_TALK_ST_STATUS st).put key Reg.TS_TALK_ST_BUSY 0).put key Reg.TS_TALK_ST_TRIES tries).put
    key Reg.TS_TALK_ST_WAIT wait
  (s1.put key Reg.TS_STAT_TALK_DONE 1).setSlot h t { s.slot h t with talk := none }

/-- A TALK request at a terminal (R153, R156, R160): SET_RANGE is refused but to the envelope command, and any request while
the request slot is occupied; another is accepted. -/
def requestTalk (host env : Bool) (h : Half) (t op arg : Nat) (s : State) : State :=
  let key := termKey h t
  let x := s.slot h t
  if op = 5 ∧ env = false then
    (s.put key Reg.TS_TALK_ST_STATUS St.ENVELOPE_LOCKED).put key Reg.TS_STAT_TALK_DONE 1
  else if x.talk.isSome then (s.put key Reg.TS_TALK_ST_STATUS St.BUSY).put key Reg.TS_STAT_TALK_DONE 1
  else
    ((s.put key Reg.TS_TALK_ST_BUSY 1).put key Reg.TS_TALK_ST_TRIES 0).setSlot h t
      { x with talk := some ⟨op, arg, host, s.onTref, 0, false, 0, false, false, false, none, none⟩ }

/-- A cancel: a request that waits ends with ST_TALK_CANCELLED; one whose exchange runs is marked (R156). -/
def cancelTalk (h : Half) (t : Nat) (s : State) : State :=
  let x := s.slot h t
  match x.talk with
  | none => s
  | some r =>
    if r.running then s.setSlot h t { x with talk := some { r with cancel := true } }
    else endTalk h t St.TALK_CANCELLED (wait10ms s r.accepted) r.tries s

/-- The TREF cycles until the slot's next rise; none where no rise is known: at zero on-time, while TRIP is set, and on a
timebase whose edges no one knows in advance (R153). -/
def State.beforeRise (s : State) (h : Half) (t : Nat) : Option Nat :=
  let x := s.slot h t
  let i := tbOf h t
  if !s.tbOnTref i || s.flag (termKey h t) Reg.TS_STAT_TRIP then none
  else if x.riseDue then some ((s.timebase i).tickAt + x.fineR - s.tref)
  else if x.applied = 0 then none
  else some (s.toNextRise h t)

/-- Another terminal of the bay has a borrowed exchange that starts within 1.0 µs of now, and goes first (R157). -/
def State.borrowNear (s : State) (h : Half) (t : Nat) : Bool :=
  (List.range 16).any (fun k =>
    let u := 16 * (t / 16) + k
    match (s.slot h u).talk with
    | some r =>
      decide (u ≠ t) && !r.running
        && match r.planned with
           | some p => decide (p < s.onTref + 200) && decide (s.onTref < p + 200)
           | none => false
    | none => false)

/-- A request may start its exchange now as far as its own window goes: in a borrowed one at its planned start, in a natural
one outside the reach of another's borrowed start (R157). -/
def State.turnOf (s : State) (h : Half) (t : Nat) : Bool :=
  match (s.slot h t).talk with
  | some r =>
    !r.running
      && match r.planned with
         | some p => decide (p ≤ s.onTref)
         | none => !s.borrowNear h t
  | none => false

/-- A TALK exchange may start now in half h's copy: a request waits, the pin is in REST, 6.0 µs after the fall and
1.0 µs after the bay's previous exchange start, with 54.0 µs to the next rise and no staged timebase change in that
time (R145, R153). -/
def State.talkWindow (s : State) (h : Half) (t : Nat) : Bool :=
  let x := s.slot h t
  let i := tbOf h t
  s.turnOf h t && !x.drive && s.tbRuns i && decide (s.power.mode = .run) && s.trefRuns
    && (match x.fellAt with | some f => decide (f + 1200 ≤ s.tref) | none => true)
    && (match (s.sar (t / 16)).lastTalk with | some f => decide (f + 200 ≤ s.onTref) | none => true)
    && (match s.beforeRise h t with | some c => decide (10800 ≤ c) | none => true)
    && (!s.flag (tbKey i) Reg.TB_STAT_PEND
          || decide (10800 ≤ s.edgesTo i (s.tbModulus i - s.tbCount i)))

/-- The start of an exchange in half h's copy (R155 step 1). -/
def startTalk (h : Half) (t : Nat) (s : State) : State :=
  let x := s.slot h t
  match x.talk with
  | some r =>
    noteFrame h (t / 16) (talkFrame r.op r.arg) (s.setSlot h t
      { x with talkAt := some s.onTref,
               talk := some { r with running := true, started := s.onTref, borrowed := r.planned.isSome,
                                     planned := none, turnaround := none } })
  | none => s

/-- The outcome of an exchange (R155, R156): the turnaround sample in 0.35 V to 0.85 V, the reply's check, its RSTAT. -/
def talkOutcome (turnaround : Option Nat) (reply : Word) : Nat :=
  match turnaround with
  | some c =>
    if 448 ≤ c ∧ c ≤ 1088 then
      if talkGood reply then (if bits reply 19 16 = 0 then St.OK else St.TALK_NAK) else St.TALK_CHECK
    else St.TALK_NOREPLY
  | none => St.TALK_NOREPLY

/-- The outcome is one that is retried (R156). -/
def talkRetried (st : Nat) (reply : Word) : Bool :=
  decide (st = St.TALK_CHECK) || decide (st = St.TALK_NOREPLY)
    || (decide (st = St.TALK_NAK) && decide (bits reply 19 16 = 3))

/-- A probe of the off phase comes 8.0 µs after the end of an exchange at the earliest (R147 step 9). -/
def delayProbe (h : Half) (t : Nat) (s : State) : State :=
  let x := s.slot h t
  s.setSlot h t { x with prbReq := x.prbReq.map (fun (r : Nat × Nat) => (max r.1 (s.tref + 1600), r.2)) }

/-- The exchange of a slot has had its 48.0 µs (R155 step 11). -/
def State.talkOver (s : State) (h : Half) (t : Nat) : Bool :=
  match (s.slot h t).talk with
  | some r => r.running && decide (r.started + 9600 ≤ s.onTref)
  | none => false

/-- The end of a request with its exchange's outcome (R156, R173). -/
def closeTalk (h : Half) (t st : Nat) (r : TalkReq) (s : State) : State :=
  endTalk h t st (min 255 ((r.started - r.accepted) / 2000000)) r.tries s

/-- An outcome that is retried: a retry waits for its window like a new request; past the 1 s mark, where no borrow is possible,
there is none to wait for (R156, R157). -/
def retryTalk (h : Half) (t st : Nat) (r : TalkReq) (s : State) : State :=
  let key := termKey h t
  if r.cancel then endTalk h t St.TALK_CANCELLED (wait10ms s r.accepted) r.tries s
  else if s.get key Reg.TS_CTL_TALK_RETRY ≤ r.tries then closeTalk h t st r s
  else if (r.marked || decide (r.accepted + 200000000 ≤ s.onTref)) && !s.canBorrow h t then
    endTalk h t St.TALK_NOWINDOW (wait10ms s r.accepted) r.tries s
  else
    (s.put key Reg.TS_TALK_ST_TRIES (r.tries + 1)).setSlot h t
      { s.slot h t with talk := some { r with tries := r.tries + 1, running := false } }

/-- The end of an exchange in half h's copy (R156). -/
def finishTalk (h : Half) (t : Nat) (reply : Word) (s0 : State) : State :=
  match (s0.slot h t).talk with
  | none => s0
  | some r =>
    if s0.talkOver h t then
      let s := delayProbe h t s0
      let st := talkOutcome r.turnaround reply
      let s1 := if st = St.TALK_NOREPLY then s else s.setReg (termKey h t + Reg.TS_TALK_RSP) reply
      if talkRetried st reply then retryTalk h t st r s1 else closeTalk h t st r s1
    else s0

/-- The 1 s mark of a request in half h's copy, once 1 s of TREF time has passed since its acceptance (R157). A request whose
exchange runs goes on; its retries are past the mark. -/
def markTalk (h : Half) (t : Nat) (s : State) : State :=
  let x := s.slot h t
  match x.talk with
  | none => s
  | some r =>
    if r.marked || decide (s.onTref < r.accepted + 200000000) then s
    else if r.running || s.canBorrow h t then s.setSlot h t { x with talk := some { r with marked := true } }
    else endTalk h t St.TALK_NOWINDOW (wait10ms s r.accepted) r.tries s

/-! ## The bay SAR (R164, R165, R245) -/

/-- The cycle whose sample instant, 250 ns after its start, is now: cycle c starts 100c TREF edges after TREF locks, and all
bays use this grid (R165). -/
def State.sarCycle (s : State) : Option Nat :=
  if s.trefRuns && decide ((s.onTref - s.lockAt) % 100 = 50) then some ((s.onTref - s.lockAt) / 100) else none

/-- The terminal whose turnaround sample is due: its exchange runs, between 24.25 µs and 25.75 µs after its start, with
none taken yet (R155 step 6). -/
def State.turnaroundDue (s : State) (h : Half) (t : Nat) : Bool :=
  match (s.slot h t).talk with
  | some r =>
    r.running && r.turnaround.isNone && decide (r.started + 4850 ≤ s.onTref) && decide (s.onTref ≤ r.started + 5150)
  | none => false

/-- The deadline of a terminal's telemetry or probe request whose earliest instant has come: deadline, and whether it is
a probe. PROBE and EN count at the sample (R145, R150). -/
def State.sampleDue (s : State) (h : Half) (t : Nat) : Option (Nat × Bool) :=
  let x := s.slot h t
  let key := termKey h t
  let talks : Bool := match x.talk with | some r => r.running | none => false
  let tel := match x.telReq with
    | some (a, d) => if a ≤ s.tref ∧ s.tref ≤ d ∧ x.drive then some (d, false) else none
    | none => none
  let prb := match x.prbReq with
    | some (a, d) =>
      if a ≤ s.tref ∧ s.tref ≤ d ∧ x.drive = false ∧ talks = false ∧ s.flag key Reg.TS_CTL_PROBE ∧ s.flag key Reg.TS_CTL_EN
      then some (d, true) else none
    | none => none
  match tel with
  | some r => some r
  | none => prb

/-- The request with the earliest deadline among a bay's terminals, the lower terminal first: terminal, probe (R165). -/
def State.earliest (s : State) (h : Half) (b : Nat) : Option (Nat × Bool) :=
  ((List.range 16).foldl
    (fun (best : Option (Nat × Nat × Bool)) k =>
      match s.sampleDue h (16 * b + k), best with
      | some (d, p), none => some (d, 16 * b + k, p)
      | some (d, p), some (d', t', p') => if d < d' then some (d, 16 * b + k, p) else some (d', t', p')
      | none, r => r) none).map (fun r => (r.2.1, r.2.2))

/-- A terminal conversion in half h's copy: the turnaround sample of the lowest terminal, else the telemetry or probe
request with the earliest deadline (R165). -/
def terminalCycle (h : Half) (b code : Nat) (s : State) : State :=
  match (List.range 16).find? (fun k => s.turnaroundDue h (16 * b + k)) with
  | some k =>
    let t := 16 * b + k
    let x := s.slot h t
    s.setSlot h t { x with talk := x.talk.map (fun r => { r with turnaround := some code }) }
  | none =>
    match s.earliest h b with
    | some (t, false) =>
      let x := s.slot h t
      s.setSlot h t { x with telReq := none, noPath := false, sample := some (code, x.noPath, s.timeNs) }
    | some (t, true) => probeSample h t code s
    | none => s

/-- A terminal request of orders 1 and 2 is due in a bay's copy (R165). -/
def State.cycleTaken (s : State) (h : Half) (b : Nat) : Bool :=
  (List.range 16).any (fun k => s.turnaroundDue h (16 * b + k)) || (s.earliest h b).isSome

/-- A line sense conversion: the latest code of the sense input in each copy, and its sequence number (R165, R245). -/
def senseCycle (b : Nat) (volts : Bool) (code : Nat) (s : State) : State :=
  let key := if volts then Reg.LN_SNS_V else Reg.LN_SNS_I
  let s1 := s.onCopies (fun h s =>
    let old := s.reg (bayKey h b + key)
    s.setReg (bayKey h b + key) (inField 15 12 (bits old 15 12 + 1) ||| inField 11 0 code))
  let x := s1.sar b
  s1.setSar b (if volts then { x with lsv := some (code, s.timeNs) } else { x with lsi := some (code, s.timeNs) })

/-! ## SLEEP (R125, R126) -/

/-- The ledger at a period start in SLEEP: a repayment goes on; no borrow and no proof begins (R126, R158, R182). -/
def coarseLedger (h : Half) (t cmd maxon : Nat) (s : State) : Nat × State :=
  match (s.slot h t).repay with
  | .borrow d n => if 0 < s.ledger h t then repayBorrow h t d n cmd maxon s else (cmd, s)
  | .proof e n => if s.ledger h t < 0 then repayProof h t e n cmd s else (cmd, s)
  | .none => (cmd, s)

/-- The period start of a coarse slot (R126, R144, R188): the on-time its rules give. -/
def coarseStart (h : Half) (t : Nat) (s : State) : State :=
  let x := loadStaged h t s
  let r := limitOn h t x.on x.prev s
  let l := coarseLedger h t r.1 (s.maxOn h t) (r.2.setSlot h t { x with prev := r.1, cmd := r.1 })
  l.2.setSlot h t { l.2.slot h t with applied := l.1 }

/-- The end of a slot's drive in SLEEP: its sample, taken before, is committed (R161). -/
def dropDrive (h : Half) (t : Nat) (s : State) : State :=
  if (s.slot h t).drive then
    let s1 := closeSample h t s
    s1.setSlot h t { s1.slot h t with drive := false, fellAt := some s1.tref }
  else s

/-- A slot's drive begins in SLEEP, unless the interlock holds it back until the next period start (R126, R190). -/
def raiseDrive (h : Half) (t : Nat) (s : State) : State :=
  let x := s.slot h t
  if x.drive then s
  else if s.interlocked t then
    let s1 := suppress h t s
    s1.setSlot h t { s1.slot h t with applied := 0 }
  else s.setSlot h t { x with drive := true, riseDue := false, roseAt := s.tref }

/-- The place of the count in the slot's period, and whether a period start has passed at the latest LFX edge. -/
def State.coarsePos (s : State) (h : Half) (t : Nat) : Nat :=
  let i := tbOf h t
  let m := s.tbModulus i
  (s.tbCount i + (m - s.tbPhase i (t % 16))) % m

def State.coarseBegins (s : State) (h : Half) (t : Nat) : Bool :=
  s.tbRuns (tbOf h t) && decide (s.coarsePos h t < (s.timebase (tbOf h t)).moved)

/-- The band of a coarse slot at the count reached (R126). -/
def coarseBand (h : Half) (t : Nat) (s : State) : State :=
  let s1 := if s.coarseBegins h t then coarseStart h t s else s
  if s1.coarsePos h t < (s1.slot h t).applied then raiseDrive h t s1 else dropDrive h t s1

/-- The band of a static slot: ON by TB_SLP_LVL where the envelope permits 100 % duty, which else sets SLP_CLAMP. A rise is
made at the entry or at a period start (R126, R190). -/
def staticBand (entry : Bool) (h : Half) (t : Nat) (live : Bool) (s : State) : State :=
  let i := tbOf h t
  let s1 := if s.tbRuns i then s else s.setSlot h t { s.slot h t with prev := 0 }
  if (s1.reg (tbKey i + Reg.TB_SLP_LVL)).getLsbD (t % 16) then
    if s1.envMaxd t ≠ 1000 then dropDrive h t (s1.put (tbKey i) Reg.TB_STAT_SLP_CLAMP 1)
    else if !live then dropDrive h t s1
    else if entry || s1.coarseBegins h t then raiseDrive h t s1
    else s1
  else dropDrive h t s1

/-- The band of a slot at an LFX edge in SLEEP, or at its entry: coarse by its rules at the count, or static. No proof takes
place in SLEEP (R126). -/
def sleepBand (entry : Bool) (h : Half) (t : Nat) (s0 : State) : State :=
  let s := dropProof h t s0
  let i := tbOf h t
  let key := termKey h t
  let live := s.flag key Reg.TS_CTL_EN && !s.flag key Reg.TS_STAT_TRIP
  if (s.reg (tbKey i + Reg.TB_SLP)).getLsbD (t % 16) then
    if live && s.tbRuns i then coarseBand h t s
    else
      let s1 := dropDrive h t s
      s1.setSlot h t { s1.slot h t with prev := 0, applied := 0 }
  else staticBand entry h t live s

/-- TS_ENV of a terminal takes effect at a period start of its slot (R189). -/
def takeEnvelope (t : Nat) (s : State) : State :=
  s.setPad t { s.pad t with env := s.reg (envKey t + Reg.TS_ENV) }

/-- The live path of a terminal becomes that of its bay's seat holder (R68). -/
def switchPath (t : Nat) (s : State) : State :=
  let bit := BitVec.twoPow 1024 t
  let r := s.referee
  let p := if s.holder (t / 16) = .B then r.termPath ||| bit else r.termPath &&& ~~~bit
  { s with referee := { r with termPath := p, pathWaits := r.pathWaits &&& ~~~bit } }

/-- The exchange that a failed old holder was carrying on a terminal is lost: its request stands. -/
def loseExchange (t : Nat) (s : State) : State :=
  s.onCopies (fun h s =>
    match (s.slot h t).talk with
    | some r => s.setSlot h t { s.slot h t with talk := some { r with running := false } }
    | none => s)

/-- At a period start of its slot a terminal takes the path of its bay's seat holder; an exchange on the path of a half that
computes holds the switch off until its end (R68). -/
def takePath (t : Nat) (s : State) : State :=
  let old := s.livePath t
  let talks := match (s.slot old t).talk with | some r => r.running | none => false
  if old = s.holder (t / 16) then s
  else if s.computes old && talks then
    { s with referee := { s.referee with pathWaits := s.referee.pathWaits ||| BitVec.twoPow 1024 t } }
  else switchPath t (if s.computes old then s else loseExchange t s)

/-- The count of a terminal's bay stands at the slot's phase offset, at its tick, in a copy that computes (R68). -/
def State.onPhase (s : State) (t : Nat) : Bool :=
  [Half.A, Half.B].any (fun h => s.computes h && s.atTick (tbOf h t) (s.tbPhase (tbOf h t) (t % 16)) 0)

/-- The bands and pads of every terminal at an LFX edge in SLEEP, or at its entry. -/
def sleepBands (entry : Bool) (s : State) : State :=
  (List.range 1024).foldl (fun s t =>
    let s1 := if (s.computes .A && s.coarseBegins .A t) || (s.computes .B && s.coarseBegins .B t) then
      takePath t (takeEnvelope t s) else s
    syncPad t (s1.onCopies (fun h s => sleepBand entry h t s))) s

/-! ## TD_AGE (R178) -/

/-- The copy and terminal of a TD_AGE register's key. -/
def ageOwner (key : Nat) : Option (Half × Nat) :=
  let a := key % 0x100000
  if 0x10000 ≤ a ∧ a < 0x20000 ∧ Reg.TD_AGE ≤ a % 0x400 ∧ a % 0x400 < Reg.TD_AGE + 16 ∧ key < 0x200000 then
    some (Half.ofBit (decide (0x100000 ≤ key)), 16 * ((a - 0x10000) / 0x400) + (a % 0x400 - Reg.TD_AGE))
  else none

/-- TD_AGE counts 100 ms; an age at its maximum, the reset value, stays there, so only the ages listed can count. -/
def ageTick (s : State) : State :=
  (s.regs.filterMap (fun e => ageOwner e.1)).foldl
    (fun u p =>
      let age := BitVec.ofNat 20 (min 0xFFFFF ((s.reg (ageKey p.1 p.2)).toNat + 1))
      if s.computes p.1 then refreshHealth p.1 p.2 (u.setReg (ageKey p.1 p.2) age) else u) s

/-- A hold that has been released ends at the slot's next period start (R652). -/
def unlatch (t : Nat) (s : State) : State :=
  if s.padHeld 0 then s else s.setPad t { s.pad t with latch := none }

/-! ## Meanings -/

/-- TIMEBASE_ENABLE (R114, R145): the slots of a bay whose timebase stops come to rest. -/
def execTimebaseEnable (m : Master) (u : TbUnit) (en : Bool) (s : State) : Result :=
  .next (onTbWrite m u Reg.TB_CTL (fun i s => restBay i (setEnable i en s)) s)

/-- SLOT_PERIOD_START (R143): the count reaches the slot's phase offset. The envelope's registers take effect (R189), a
hold that has been released ends (R652), and the terminal takes the path of a new seat holder (R68). -/
def execSlotPeriodStart (t : Fin 1024) (s : State) : Result :=
  .next (if s.periodBegins t.val then
      syncPad t.val (takePath t.val ((unlatch t.val (takeEnvelope t.val s)).onSlot t.val (fun h s => periodStart h t.val s)))
    else s)

/-- PULSE_RISE (R143, R190): on one TREF edge the lower-numbered of a pair rises. -/
def execPulseRise (t : Fin 1024) (s : State) : Result :=
  let held := s.interlocked t.val || s.lowerRises t.val
  .next (syncPad t.val (s.onSlot t.val (fun h s => riseCopy held h t.val s)))

/-- TRIP_BLANK_END (R147, R161): 500 ns after the rise the comparator is armed. -/
def execTripBlankEnd (t : Fin 1024) (s : State) : Result :=
  .next (if (s.pad t.val).level = .on ∧ (s.pad t.val).riseAt + 100 ≤ s.tref then
      s.setPad t.val { s.pad t.val with armed := true } else s)

/-- PULSE_FALL (R143). -/
def execPulseFall (t : Fin 1024) (s : State) : Result :=
  .next (syncPad t.val (s.onSlot t.val (fun h s => if s.fallNow h t.val then fallCopy h t.val s else s)))

/-- SAR_CYCLE (R165): at the sample instant of a cycle, cycles with number 0 modulo 8 convert LSV, 4 modulo 8 LSI, the others
a terminal request, if one is due. -/
def execSarCycle (bay : Fin 64) (code : BitVec 12) (s : State) : Result :=
  .next <|
    let b := bay.val
    match s.sarCycle with
    | none => s
    | some c =>
      if (s.sar b).done = some s.onTref then s
      else
        let s1 := if c % 4 = 0 then senseCycle b (decide (c % 8 = 0)) code.toNat s
          else s.onCopies (fun h s => terminalCycle h b code.toNat s)
        s1.setSar b { s1.sar b with done := some s.onTref }

/-- The THR_BAD flag of a threshold converter of a bay: terminals 0 to 15, the line's voltage 16 and current 17. -/
def markThreshold (h : Half) (b which : Nat) (s : State) : State :=
  if which < 16 then s.put (termKey h (16 * b + which)) Reg.TS_STAT_THR_BAD 1
  else setLineStat h b Reg.LN_STAT_THR_BAD s

/-- The code a terminal's threshold converter is set to: THR, or 1.10 V while an exchange decodes its reply (R155). -/
def State.thresholdCode (s : State) (t : Nat) : Nat :=
  match (s.slot (s.livePath t) t).talk with
  | some r =>
    if r.running ∧ r.started + 4800 ≤ s.onTref ∧ s.onTref < r.started + 9200 then 88
    else s.get (thrKey t) Reg.TS_THR_THR
  | none => s.get (thrKey t) Reg.TS_THR_THR

/-- A threshold readback of a bay: the code, and THR_BAD where it is more than 32 from 16 × the threshold (R164,
R208). -/
def readThreshold (b which code : Nat) (s : State) : State :=
  let thr :=
    if which < 16 then s.thresholdCode (16 * b + which)
    else if which = 16 then s.get (padKey b) Reg.LN_LIM_VTHR
    else s.get (padKey b) Reg.LN_LIM_ITHR
  let bad := decide (code + 32 < 16 * thr) || decide (16 * thr + 32 < code)
  let s1 :=
    if which < 16 then s.put (thrKey (16 * b + which)) Reg.TS_THR_RB code
    else s.onCopies (fun h s => s.put (bayKey h b) (if which = 16 then Reg.LN_RB_V_RB else Reg.LN_RB_I_RB) code)
  if bad then s1.onCopies (fun h s => markThreshold h b which s) else s1

/-- The start of the 10 ms interval of TREF time, counted from the lock, that is running (R164). -/
def State.readbackFrom (s : State) : Nat := s.lockAt + 2000000 * ((s.onTref - s.lockAt) / 2000000)

/-- The readback of a converter is due: 10 ms have passed since the lock, and none has been taken since (R164). -/
def State.readbackDue (s : State) (b which : Nat) : Bool :=
  decide (s.lockAt + 2000000 ≤ s.onTref)
    && match tblFind (s.sar b).readAt which with
       | some a => decide (a < s.readbackFrom)
       | none => true

/-- THRESHOLD_READBACK (R164, R165, R208): every 10 ms of TREF time, for each converter of a bay, in a cycle that is not
reserved and that no other request takes. -/
def execThresholdReadback (bay : Fin 64) (which : Fin 18) (code : BitVec 12) (s : State) : Result :=
  .next <|
    let b := bay.val
    match s.sarCycle with
    | none => s
    | some c =>
      if c % 4 ≠ 0 ∧ (s.sar b).done ≠ some s.onTref ∧ s.readbackDue b which.val = true
          ∧ (s.computes .A && s.cycleTaken .A b || s.computes .B && s.cycleTaken .B b) = false then
        let s1 := readThreshold b which.val code.toNat s
        s1.setSar b { s1.sar b with done := some s.onTref, readAt := tblPut (s1.sar b).readAt which.val s.onTref }
      else s

/-- No readback of a converter for 100 ms of TREF time, counted from the latest one, or from the lock before the first
(R164). -/
def State.readbackStale (s : State) (b which : Nat) : Bool :=
  s.trefRuns && decide ((tblFind (s.sar b).readAt which).getD s.lockAt + 20000000 ≤ s.onTref)

/-- THRESHOLD_STALE (R164, R208). -/
def execThresholdStale (bay : Fin 64) (which : Fin 18) (s : State) : Result :=
  .next (if s.readbackStale bay.val which.val then s.onCopies (fun h s => markThreshold h bay.val which.val s) else s)

/-- COMPLIANCE_LOSS (R142). -/
def execComplianceLoss (t : Fin 1024) (s : State) : Result :=
  .next (s.onCopies (fun h s =>
    (s.put (termKey h t.val) Reg.TS_STAT_COMP 1).setSlot h t.val { s.slot h t.val with noPath := true }))

/-- A comparator cuts the pad's current, whichever path is live, until the trip is cleared (R48, R161). -/
def cutPad (t : Nat) (s : State) : State :=
  let s1 := s.onSlot t (fun h s => tripCopy h t s)
  let p := s1.pad t
  s1.setPad t
    { p with level := (if p.level = .off then .off else .rest), armed := false, cut := true,
             lastFall := if p.level = .on then some s.tref else p.lastFall }

/-- TRIP (R161): an armed comparator cuts the pad's I_ON. -/
def execTrip (t : Fin 1024) (s : State) : Result :=
  .next (if (s.pad t.val).armed && decide ((s.pad t.val).level = .on) then cutPad t.val s else s)

/-- TS_STAT.TRIP written with 1 (R162): the pad is released, and the slot runs again from its next period start. -/
def clearTrip (h : Half) (t : Nat) (s : State) : State :=
  let s1 := refreshHealth h t (s.put (termKey h t) Reg.TS_STAT_TRIP 0)
  s1.setPad t { s1.pad t with cut := false }

/-- TRIP_CLEAR (R162): a write of 1 to TS_STAT.TRIP. -/
def execTripClear (m : Master) (t : Fin 1024) (s : State) : Result :=
  .next (s.bayWrite m (t.val / 16) (0x10000 + 0x400 * (t.val / 16) + 0x80 + 16 * (t.val % 16) + Reg.TS_STAT)
    (fun h s => clearTrip h t.val s))

/-- TD_AGE_TICK (R178). -/
def execTdAgeTick (s : State) : Result := .next (ageTick s)

/-- A write of TS_TALK_CMD that places a request: SET_RANGE is refused, and a steward's is counted under R36 (R160). -/
def writeTalk (m : Master) (t op arg : Nat) (s : State) : State :=
  let addr := 0x10000 + 0x400 * (t / 16) + 0x80 + 16 * (t % 16) + Reg.TS_TALK_CMD
  let s1 := s.bayWrite m (t / 16) addr (fun h s => requestTalk (isHost m) false h t op arg s)
  if op = 5 ∧ isHost m = false ∧ s.bayWriteOk m (t / 16) then s1.refuseWrite (s.masterHalf m) addr else s1

/-- TALK_REQUEST (R153). -/
def execTalkRequest (m : Master) (t : Fin 1024) (op : BitVec 4) (arg : BitVec 12) (s : State) : Result :=
  .next (writeTalk m t.val op.toNat arg.toNat s)

/-- TALK_CANCEL (R156). -/
def execTalkCancel (m : Master) (t : Fin 1024) (s : State) : Result :=
  .next (s.bayWrite m (t.val / 16) (0x10000 + 0x400 * (t.val / 16) + 0x80 + 16 * (t.val % 16) + Reg.TS_TALK_CMD)
    (fun h s => cancelTalk h t.val s))

/-- TALK_EXCHANGE_START (R155). -/
def execTalkExchangeStart (t : Fin 1024) (s : State) : Result :=
  .next <|
    let h := s.livePath t.val
    if s.talkWindow h t.val then
      match (s.slot h t.val).talk with
      | some r =>
        let s1 := s.onSlot t.val (fun h s => if s.talkWindow h t.val then startTalk h t.val s else s)
        let s2 := s1.setSar (t.val / 16) { s1.sar (t.val / 16) with lastTalk := some s.onTref }
        let s3 := s2.setPad t.val { s2.pad t.val with frame := talkFrame r.op r.arg }
        syncPad t.val s3
      | none => s
    else s

/-- TALK_EXCHANGE_END (R155, R156), with the reply frame the pin carried: 48.0 µs after the start. A path switch that waited for
it is made (R68). -/
def execTalkExchangeEnd (t : Fin 1024) (reply : Word) (s : State) : Result :=
  .next <|
    let ended := s.talkOver (s.livePath t.val) t.val
    let s1 := s.onSlot t.val (fun h s => finishTalk h t.val reply s)
    syncPad t.val (if ended && s1.referee.pathWaits.getLsbD t.val then switchPath t.val s1 else s1)

/-- TALK_ONE_SECOND_MARK (R157). -/
def execTalkOneSecondMark (t : Fin 1024) (s : State) : Result :=
  .next (s.onCopies (fun h s => markTalk h t.val s))

/-- The timebases and bands at an LFX edge in SLEEP (R125, R126, R132). -/
def coarseEdge (s : State) : State :=
  let s1 := if s.computes .A then coarseChain s 0 0 64 else s
  let s2 := if s1.computes .B then coarseChain s1 64 0 64 else s1
  sleepBands false (coarseChain s2 128 0 8)

end Sys2Proof.Machine
end

