-- ==== Sys2Proof/Machine/Lines.lean ====
section
/-! DEFINITION. Line channels (R201 to R247): the transmit entries and the outcomes of their attempts, the receive FIFO,
the line envelope's trips, and the carrier synthesisers. -/

namespace Sys2Proof.Machine

/-! ## Structures by number -/

def State.line (s : State) (h : Half) (b : Nat) : Line := tblGet s.lines Line.reset (bayIx h b)

def State.setLine (s : State) (h : Half) (b : Nat) (x : Line) : State :=
  { s with lines := tblSet s.lines Line.reset (bayIx h b) x }

def State.engine (s : State) (h : Half) (b : Nat) : Engine := tblGet s.engines Engine.reset (bayIx h b)

def State.setEngine (s : State) (h : Half) (b : Nat) (x : Engine) : State :=
  { s with engines := tblSet s.engines Engine.reset (bayIx h b) x }

def State.synth (s : State) (j : Nat) : Synth := tblGet s.synths Synth.reset j

def State.setSynth (s : State) (j : Nat) (x : Synth) : State := { s with synths := tblSet s.synths Synth.reset j x }

def Line.entry (l : Line) (e : Nat) : TxEntry := tblGet l.entries TxEntry.reset e

def Line.setEntry (l : Line) (e : Nat) (x : TxEntry) : Line :=
  { l with entries := tblSet l.entries TxEntry.reset e x }

/-- The number of entry P (R229). -/
abbrev entryP : Nat := 8

/-- Byte i of an entry's buffer. -/
def Line.byte (l : Line) (e i : Nat) : Byte := tblGet l.buf 0 (64 * e + i)

/-- The counters of R244, by offset from the first. -/
abbrev cntTxOk : Nat := 0
abbrev cntRxOk : Nat := 1
abbrev cntRxCrc : Nat := 2
abbrev cntRxFmt : Nat := 3
abbrev cntNoAck : Nat := 4
abbrev cntArbl : Nat := 5
abbrev cntColl : Nat := 6
abbrev cntRxDrop : Nat := 7

/-- A line counter counts one (R244). -/
def countLine (h : Half) (b k : Nat) (s : State) : State := s.count (bayKey h b + Reg.LN_CNT + k) 1

/-! ## What holds a line (R203, R212, R249) -/

/-- A line trip is latched (R206). -/
def State.lineTripped (s : State) (h : Half) (b : Nat) : Bool :=
  s.flag (bayKey h b) Reg.LN_STAT_VTRIP || s.flag (bayKey h b) Reg.LN_STAT_ITRIP

/-- The line runs in carrier mode (R249). -/
def State.carrier (s : State) (h : Half) (b : Nat) : Bool := !s.flag (bayKey h b) Reg.LE_CFG_FE

/-- The octet's synthesiser does not hold the line: it is locked, or the line is in baseband mode (R203, R249). -/
def State.lockOk (s : State) (h : Half) (b : Nat) : Bool :=
  !s.carrier h b || decide ((s.synth (b / 8)).mode = .locked)

/-- A gated item of the octet waits (R211). -/
def Synth.gated (x : Synth) : Bool := x.pendFreq.isSome || x.pendCal

/-- The transmitter is held recessive whatever the engine sends (R203, R274). -/
def State.lineHeld (s : State) (h : Half) (b : Nat) : Bool :=
  !s.flag (bayKey h b) Reg.LN_CFG_EN || s.lineTripped h b || s.orphaned b || decide (s.power.mode ≠ .run)
    || !s.power.xref || s.padHeld 1 || !s.lockOk h b || s.flag (bayKey h b) Reg.LE_CFG_LOOP

/-- What an engine drives: nothing of a frame that was aborted from outside (R69, R206, R213). -/
def Engine.drives (x : Engine) : Option Bool := if x.mute then none else x.sym

/-- The symbol on a line's pins: the engine's, or none while the transmitter is held (R203, R248). -/
def State.lineOut (s : State) (b : Nat) : Option Bool :=
  let h := Half.ofBit (s.referee.linePath.getLsbD b)
  if s.lineHeld h b then none else (s.engine h b).drives

/-- The carrier detector's threshold in force, in dB below 2.0 Vpp (R203, R240). -/
def State.carrierThreshold (s : State) (h : Half) (b : Nat) : Nat := max 40 (min 75 (s.get (bayKey h b) Reg.LN_TX_CDTHR))

/-- The line cannot send an acknowledge (R212). -/
def State.cannotAck (s : State) (h : Half) (b : Nat) : Bool :=
  !s.lockOk h b || s.lineTripped h b || s.orphaned b || decide (s.get (padKey b) Reg.LN_ENV_TXMAX = 0)

/-- The line is transmitting: from the start of its SOF to the end of its acknowledge slot, or sending an acknowledge
(R211). -/
def State.transmitting (s : State) (h : Half) (b : Nat) : Bool :=
  let l := s.line h b
  (l.attempt.isSome && l.sof) || (s.engine h b).drives.isSome

/-- No line of the octet is transmitting. -/
def State.octetQuiet (s : State) (j : Nat) : Bool :=
  (List.range 8).all (fun k => !s.transmitting (s.viewOf (8 * j + k)) (8 * j + k))

/-- The amplitude the next SOF or acknowledge takes: min(AMP, TXMAX) of 255 (R204). -/
def State.amplitude (s : State) (h : Half) (b : Nat) : Nat :=
  min (s.get (bayKey h b) Reg.LN_TX_AMP) (s.get (padKey b) Reg.LN_ENV_TXMAX)

/-- The transmit path follows the seat at once, but for a frame of a holder that computes, which completes on the old
path (R69). -/
def syncLinePath (b : Nat) (s : State) : State :=
  let old := Half.ofBit (s.referee.linePath.getLsbD b)
  if old = s.holder b ∨ (s.computes old ∧ s.transmitting old b) then s
  else
    let bit := BitVec.twoPow 64 b
    let p := if s.holder b = .B then s.referee.linePath ||| bit else s.referee.linePath &&& ~~~bit
    { s with referee := { s.referee with linePath := p } }

/-! ## Ends of entries and attempts (R231, R232) -/

/-- An entry ends: DONE, not BUSY, its status, TXDONE and EV_LINE_TX (R231). -/
def endEntry (h : Half) (b e st : Nat) (s : State) : State :=
  let l := s.line h b
  let l1 := l.setEntry e { l.entry e with busy := false, done := true, status := st }
  let l2 := { l1 with attempt := if l.attempt = some e then none else l.attempt,
                      pEnd := if e = entryP then some st else l.pEnd }
  let s1 := (s.setLine h b l2).put (bayKey h b) Reg.LN_STAT_TXDONE 1
  let s2 := if st = St.OK then countLine h b cntTxOk s1 else s1
  let s3 := if st = St.LINE_NOLOCK then setLineStat h b Reg.LN_STAT_NOLOCK s2 else s2
  raiseBayEvent h b .lineTx s3

/-- A failed attempt: a retry, or the entry's end with the code; with a cancel pending there is no retry (R231, R232). -/
def failAttempt (h : Half) (b st : Nat) (s : State) : State :=
  let l := s.line h b
  match l.attempt with
  | none => s
  | some e =>
    let x := l.entry e
    let s1 :=
      if st = St.LINE_NOACK then countLine h b cntNoAck s
      else if st = St.LINE_COLLISION then countLine h b cntColl s
      else s
    if x.cpend then endEntry h b e (if l.decided then St.SENT_CANCEL_LATE else st) s1
    else if x.tries < x.retry then
      s1.setLine h b
        { l.setEntry e { x with tries := x.tries + 1, settle := 0, cal := 0 } with attempt := none }
    else endEntry h b e st s1

/-- The attempt succeeds (R231, R232, R259). -/
def succeedAttempt (h : Half) (b : Nat) (ack : Bool) (s : State) : State :=
  let l := s.line h b
  match l.attempt with
  | none => s
  | some e =>
    let x := l.entry e
    let s1 := s.setLine h b (l.setEntry e { x with acked := ack })
    endEntry h b e (if x.cpend then St.SENT_CANCEL_LATE else St.OK) s1

/-- The attempt loses arbitration (R231, R232). -/
def loseArbitration (h : Half) (b : Nat) (s : State) : State :=
  let l := s.line h b
  match l.attempt with
  | none => s
  | some e =>
    let x := l.entry e
    let m := s.get (bayKey h b) Reg.LN_CFG_ARB_MAX
    let s1 := countLine h b cntArbl
      (s.setLine h b
        { l.setEntry e { x with arbl := x.arbl + 1, settle := 0, cal := 0 } with attempt := none })
    if x.cpend then endEntry h b e St.LINE_CANCELLED s1
    else if m ≠ 0 ∧ m < x.arbl + 1 then endEntry h b e St.LINE_ARB_LOST s1
    else s1

/-- The entry whose attempt is open ends at once, without retry (R206, R231). -/
def endAttempt (h : Half) (b st : Nat) (s : State) : State :=
  match (s.line h b).attempt with
  | some e => endEntry h b e st s
  | none => s

/-- A change of the output, dated (R274): the carrier's presence, or the baseband level. -/
def setOutput (h : Half) (b : Nat) (sym : Option Bool) (mod : Nat) (raw : Bool) (s : State) : State :=
  let x := s.engine h b
  let level := match sym with
    | some v => decide (mod = 1) || v
    | none => false
  s.setEngine h b { x with sym := sym, mod := mod, raw := raw, hist := ((s.onTref, level) :: x.hist).take 24 }

/-- What an engine is sending is aborted from outside its program: the line is recessive, and stays so until the program has
done with what it was sending (R69, R206, R213). -/
def muteEngine (h : Half) (b : Nat) (s : State) : State :=
  let x := s.engine h b
  if x.attempt || x.sym.isSome then
    let s1 := setOutput h b none 0 false s
    s1.setEngine h b { s1.engine h b with mute := true }
  else s

/-- Every busy entry ends (R231). -/
def endAllEntries (h : Half) (b st : Nat) (s : State) : State :=
  (List.range 9).foldl (fun s e => if ((s.line h b).entry e).busy then endEntry h b e st s else s) s

/-- An assembly is discarded and counted in LN_CNT_RXFMT (R212, R257). -/
def loseAssembly (h : Half) (b : Nat) (s : State) : State :=
  let x := s.engine h b
  match x.assembly with
  | some a =>
    if a.lost then s
    else countLine h b cntRxFmt (s.setEngine h b { x with assembly := some { a with lost := true } })
  | none => s

/-- A frame being received is lost at a change of frequency, and counted (R212): the one in assembly, or one of which no
assembly is open yet. -/
def loseFrame (h : Half) (b : Nat) (s : State) : State :=
  let x := s.engine h b
  let s1 := if x.assembly.isSome then loseAssembly h b s
    else if x.hears = some false then countLine h b cntRxFmt s else s
  if x.hears = some false then s1.setEngine h b { s1.engine h b with hears := some true } else s1

/-! ## The queue (R229, R230, R213) -/

/-- The rate of an entry is 31.25 kbit/s: its RATE, else the line's, else the profile default (R98, R238, R240). -/
def State.robust (s : State) (h : Half) (b rate : Nat) : Bool :=
  match rate with
  | 1 => false
  | 2 => true
  | _ =>
    match s.get (bayKey h b) Reg.LN_CFG_RATE with
    | 1 => false
    | 2 => true
    | _ => decide ((s.half h).defaults.lineRate = .night)

/-- The entry to start next: the busy entry with the lowest identifier, of equal ones the earlier submission (R230). -/
def Line.selected (l : Line) : Option Nat :=
  (List.range 9).foldl
    (fun best e =>
      if (l.entry e).busy then
        match best with
        | none => some e
        | some f =>
          if (l.entry e).id < (l.entry f).id
              ∨ ((l.entry e).id = (l.entry f).id ∧ (l.entry e).order < (l.entry f).order) then some e
          else some f
      else best) none

/-- The checks of a submission's parameters (R229, R260). -/
def State.submitBad (s : State) (h : Half) (b id : Nat) : Bool :=
  let key := bayKey h b
  let len := s.get key Reg.LN_TXC_LEN
  let rate := s.get key Reg.LN_TXC_RATE
  decide (64 < len) || decide (rate = 3) ||
    match s.get key Reg.LE_CFG_PROTO with
    | 0 => decide (id / 16 % 2 = 1) || (decide (id % 32 = 15) && s.flag key Reg.LN_TXC_AR)
    | 1 => decide (id % 4096 ≠ 0) || decide (4 < id / 4096) || decide (len < 2) || decide (4 < len) || decide (rate ≠ 0)
    | 2 => decide (id % 4096 ≠ 0) || decide (len = 0) || decide (rate ≠ 0)
    | _ => false

/-- The outcome of a submission, the conditions in the order of R229. -/
def State.submitStatus (s : State) (h : Half) (b id : Nat) : Nat :=
  let key := bayKey h b
  if ((s.line h b).entry (s.get key Reg.LN_TXC_ENTRY)).busy then St.BUSY
  else if s.submitBad h b id then St.BAD_PARAM
  else if !s.flag key Reg.LN_CFG_EN || decide (s.get (padKey b) Reg.LN_ENV_TXMAX = 0) then St.LINE_DISABLED
  else if s.lineTripped h b then St.LINE_TRIPPED
  else St.OK

/-- A submission (R229): the entry becomes busy, or stays as it is; SUB_ST reads the outcome. -/
def submit (h : Half) (b id : Nat) (s : State) : State :=
  let key := bayKey h b
  let st := s.submitStatus h b id
  let s1 := s.put key Reg.LN_QSTAT_SUB_ST st
  if st = St.OK then
    let l := s.line h b
    let x : TxEntry :=
      { TxEntry.reset with id := id, ar := s.flag key Reg.LN_TXC_AR, len := s.get key Reg.LN_TXC_LEN,
                           rate := s.get key Reg.LN_TXC_RATE, retry := s.get key Reg.LN_TXC_RETRY, busy := true,
                           order := l.order }
    s1.setLine h b { l.setEntry (s.get key Reg.LN_TXC_ENTRY) x with order := l.order + 1 }
  else s1

/-- A cancel of an entry (R232). -/
def cancelEntry (h : Half) (b e : Nat) (s : State) : State :=
  let l := s.line h b
  let x := l.entry e
  if x.busy then
    if l.attempt = some e ∧ l.sof then s.setLine h b (l.setEntry e { x with cpend := true })
    else endEntry h b e St.LINE_CANCELLED s
  else s

/-- A write of LN_CANCEL (R232). -/
def cancelMask (h : Half) (b mask : Nat) (s : State) : State :=
  (List.range 8).foldl (fun s e => if mask.testBit e then cancelEntry h b e s else s) s

/-- A write of LN_TXD: two bytes of the addressed entry's buffer, and LN_TXA advances; a busy entry's buffer is left and
sets BAD (R229, R240). -/
def writeTxData (h : Half) (b : Nat) (w : Word) (s : State) : State :=
  let key := bayKey h b
  let a := s.get key Reg.LN_TXA_ADDR
  let l := s.line h b
  let s1 :=
    if (l.entry (a / 32)).busy then s.put key Reg.LN_STAT_BAD 1
    else
      let t := tblSet l.buf 0 (64 * (a / 32) + 2 * (a % 32)) (BitVec.ofNat 8 (bits w 15 8))
      s.setLine h b { l with buf := tblSet t 0 (64 * (a / 32) + 2 * (a % 32) + 1) (BitVec.ofNat 8 (bits w 7 0)) }
  s1.put key Reg.LN_TXA_ADDR ((a + 1) % 256)

/-- The word LN_RXD reads: payload bytes of the head, 0 where there is none (R243). -/
def State.rxWord (s : State) (h : Half) (b : Nat) : Word :=
  match (s.line h b).fifo with
  | f :: _ =>
    let a := s.get (bayKey h b) Reg.LN_RXA_ADDR
    let at_ (i : Nat) : Nat := ((f.payload[i]?).getD 0).toNat
    BitVec.ofNat 20 (256 * at_ (2 * a) + at_ (2 * a + 1))
  | [] => 0

/-- LN_RXA advances after a read of LN_RXD (R243). -/
def advanceRx (h : Half) (b : Nat) (s : State) : State :=
  s.put (bayKey h b) Reg.LN_RXA_ADDR ((s.get (bayKey h b) Reg.LN_RXA_ADDR + 1) % 32)

/-- The head of the receive FIFO is removed (R235). -/
def popRx (h : Half) (b : Nat) (s : State) : State :=
  s.setLine h b { s.line h b with fifo := (s.line h b).fifo.drop 1 }

/-- A frame enters the receive FIFO, or finds it full (R235). -/
def pushRx (h : Half) (b : Nat) (f : RxFrame) (s : State) : State :=
  let l := s.line h b
  if l.fifo.length < 8 then
    raiseBayEvent h b .lineRx
      ((countLine h b cntRxOk (s.setLine h b { l with fifo := l.fifo ++ [f] })).put (bayKey h b) Reg.LN_STAT_RXNEW 1)
  else setLineStat h b Reg.LN_STAT_RXOVF (countLine h b cntRxDrop s)

/-! ## Trips of the line envelope (R205, R206) -/

/-- A line trip in half h's copy. -/
def lineTripCopy (h : Half) (volts : Bool) (b : Nat) (s : State) : State :=
  let f := if volts then Reg.LN_STAT_VTRIP else Reg.LN_STAT_ITRIP
  raiseBayEvent h b .lineTrip (endAttempt h b St.LINE_TRIPPED (muteEngine h b (setLineStat h b f s)))

/-- A comparator trips the line, and cuts the power slot where the envelope says so (R206). -/
def lineTrip (volts : Bool) (b : Nat) (s : State) : State :=
  let s1 := if s.flag (padKey b) Reg.LN_ENV_PWR_EN then cutPad (s.powerSlot b) s else s
  syncLinePath b (s1.onCopies (fun h s => lineTripCopy h volts b s))

/-! ## Carrier synthesisers (R209 to R213) -/

/-- A line of the octet is enabled (R209). -/
def State.octetEnabled (s : State) (j : Nat) : Bool :=
  (List.range 8).any (fun k => s.flag (bayKey (s.viewOf (8 * j + k)) (8 * j + k)) Reg.LN_CFG_EN)

/-- An action on the octet's registers, which lie in bay 8j (R209). -/
def octetRegs (j : Nat) (f : Nat → State → State) (s : State) : State :=
  s.onCopies (fun h s => f (bayKey h (8 * j)) s)

/-- The temperature differs by 10 °C or more from that of the latest calibration (R210). -/
def State.drifted (s : State) (j : Nat) : Bool :=
  let key := bayKey (s.viewOf (8 * j)) (8 * j)
  let n := s.get key Reg.LS_TEMP_NOW
  let c := s.get key Reg.LS_TEMP_CAL
  decide (c + 10 ≤ n) || decide (n + 10 ≤ c)

/-- Frames being received on the octet's carrier lines are lost at a frequency change (R212). -/
def loseReceptions (j : Nat) (s : State) : State :=
  (List.range 8).foldl
    (fun s k => s.onCopies (fun h s => if s.carrier h (8 * j + k) then loseFrame h (8 * j + k) s else s)) s

/-- A frequency takes effect: where it is a new one, what is being received is lost, and decoding resumes on LOCKED (R211,
R212). -/
def tune (j f : Nat) (s : State) : State :=
  if (s.synth j).freq = f then s
  else
    let s1 := loseReceptions j s
    s1.setSynth j { s1.synth j with freq := f, deaf := true }

/-- The frequency staged or pending, if one is, takes effect (R211). -/
def tuneStaged (j : Nat) (s : State) : State :=
  let x := s.synth j
  let s1 := tune j (x.staged.getD (x.pendFreq.getD x.freq)) s
  s1.setSynth j { s1.synth j with staged := none, pendFreq := none }

/-- LOCKED (R210, R212). A temperature that has drifted by 10 °C since the latest calibration gates another (R211). -/
def synthLock (j : Nat) (s : State) : State :=
  s.setSynth j { s.synth j with mode := .locked, deaf := false, pendCal := (s.synth j).pendCal || s.drifted j }

/-- A synthesiser in STOPPED with an enabled line leaves for CAL or SETTLE; with none it stops (R210, R211). -/
def synthRun (j : Nat) (s : State) : State :=
  let x := s.synth j
  if s.octetEnabled j then
    if x.mode = .stopped ∧ x.failed = false then
      if x.calibrated = false ∨ x.heldCal ∨ s.drifted j then s.setSynth j { x with mode := .cal, heldCal := false }
      else s.setSynth j { x with mode := .settle }
    else s
  else
    let s1 := tuneStaged j s
    s1.setSynth j
      { s1.synth j with mode := .stopped, failed := false, heldCal := x.heldCal || x.pendCal, pendCal := false }

/-- A write of LS_SYN.FREQ (R211). -/
def synthFreq (j f : Nat) (s : State) : State :=
  let x := s.synth j
  if f < 95 ∨ 480 < f then octetRegs j (fun key s => s.put key Reg.LS_STAT_BAD 1) s
  else
    let s1 := octetRegs j (fun key s => s.put key Reg.LS_SYN_FREQ f) s
    if f = x.freq then s1.setSynth j { x with pendFreq := none, staged := none }
    else
      match x.mode with
      | .locked => s1.setSynth j { x with pendFreq := some f }
      | .stopped => tune j f s1
      | _ => s1.setSynth j { x with staged := some f }

/-- A write of 1 to LS_SYN.CAL (R211). -/
def synthCal (j : Nat) (s : State) : State :=
  let x := s.synth j
  match x.mode with
  | .locked => s.setSynth j { x with pendCal := true }
  | .cal => s
  | _ => s.setSynth j { x with heldCal := true }

/-- Pending items take effect: CAL, at the new frequency where one waits, or SETTLE (R211). -/
def synthApply (j : Nat) (s : State) : State :=
  let x := s.synth j
  if x.mode = .locked ∧ x.gated then
    let s1 := tuneStaged j s
    s1.setSynth j { s1.synth j with mode := (if x.pendCal then .cal else .settle), pendCal := false }
  else s

/-- A calibration ends (R210, R211). -/
def synthCalDone (j : Nat) (ok : Bool) (s : State) : State :=
  let x := s.synth j
  if x.mode = .cal then
    if ok then
      let s1 := octetRegs j (fun key s =>
        ((s.put key Reg.LS_TEMP_CAL (s.get key Reg.LS_TEMP_NOW)).put key Reg.LS_STAT_CAL_DONE 1).count
          (key + Reg.LS_CALS) 1) s
      let s2 := tuneStaged j (s1.setSynth j { x with calibrated := true })
      if x.staged.isSome then s2.setSynth j { s2.synth j with mode := .settle } else synthLock j s2
    else
      let s1 := tuneStaged j (octetRegs j (fun key s => s.put key Reg.LS_STAT_CAL_FAIL 1) s)
      s1.setSynth j { s1.synth j with mode := .stopped, failed := true }
  else s

/-- Settling ends: LOCKED, or what was held or staged begins (R210, R211). -/
def synthSettleDone (j : Nat) (s : State) : State :=
  let x := s.synth j
  if x.mode = .settle then
    let s1 := tuneStaged j s
    if x.heldCal then s1.setSynth j { s1.synth j with mode := .cal, heldCal := false }
    else if x.staged.isSome then s1
    else synthLock j s1
  else s

/-- Loss of lock: UNLOCK in the octet and its lines, what they send aborted, CAL at once (R210, R213). -/
def synthUnlock (j : Nat) (s : State) : State :=
  let x := s.synth j
  if x.mode = .locked then
    let s1 := octetRegs j (fun key s => s.put key Reg.LS_STAT_UNLOCK 1) s
    let s2 := (List.range 8).foldl
      (fun s k => s.onCopies (fun h s =>
        let b := 8 * j + k
        let s' := setLineStat h b Reg.LN_STAT_UNLOCK s
        if s.carrier h b then failAttempt h b St.LINE_ABORTED (muteEngine h b s') else s')) s1
    let s3 := tuneStaged j s2
    s3.setSynth j { s3.synth j with mode := .cal, pendCal := false }
  else s

/-- 100 ms after a failed calibration (R210). -/
def synthRetry (j : Nat) (s : State) : State :=
  let x := s.synth j
  if x.mode = .stopped ∧ x.failed ∧ s.octetEnabled j then
    s.setSynth j { x with mode := .cal, failed := false, heldCal := false }
  else s

/-- The octet's temperature is updated; a drift of 10 °C while LOCKED gates a calibration (R210, R211). -/
def synthTemp (j now : Nat) (s : State) : State :=
  let s1 := octetRegs j (fun key s => s.put key Reg.LS_TEMP_NOW now) s
  let x := s1.synth j
  if x.mode = .locked ∧ s1.drifted j then s1.setSynth j { x with pendCal := true } else s1

end Sys2Proof.Machine
end

