-- ==== Sys2Proof/Machine/Sampling.lean ====
section
/-! DEFINITION. Polling, time stamps, filters and recognisers (R282 to R321). Each half computes its own copy of a bay's
pipeline; what leaves the pipeline leaves from the seat holder's copy (R23, R307). -/

namespace Sys2Proof.Machine

def State.entryOf (s : State) (h : Half) (b e : Nat) : PollEntry := tblGet s.pollEntries PollEntry.reset (256 * bayIx h b + e)

def State.setEntryOf (s : State) (h : Half) (b e : Nat) (x : PollEntry) : State :=
  { s with pollEntries := tblSet s.pollEntries PollEntry.reset (256 * bayIx h b + e) x }

def State.pipe (s : State) (h : Half) (b : Nat) : BayPipe := tblGet s.pipes BayPipe.reset (bayIx h b)

def State.setPipe (s : State) (h : Half) (b : Nat) (x : BayPipe) : State :=
  { s with pipes := tblSet s.pipes BayPipe.reset (bayIx h b) x }

def State.recog (s : State) (h : Half) (b i : Nat) : Recog := tblGet s.recogs Recog.reset (64 * bayIx h b + i)

def State.setRecog (s : State) (h : Half) (b i : Nat) (x : Recog) : State :=
  { s with recogs := tblSet s.recogs Recog.reset (64 * bayIx h b + i) x }

/-! ## Fields of an entry (R315) -/

def PollEntry.kind (x : PollEntry) : Nat := bits x.w0 19 17
def PollEntry.src (x : PollEntry) : Nat := bits x.w0 16 10
def PollEntry.ch (x : PollEntry) : Nat := bits x.w0 9 2
def PollEntry.sgn (x : PollEntry) : Bool := decide (bits x.w0 1 1 = 1)
def PollEntry.preset (x : PollEntry) : Nat := bits x.w1 15 12
def PollEntry.prio (x : PollEntry) : Nat := bits x.w1 9 6

/-- The period of a PER code in ms (R283). -/
def periodMs (c : Nat) : Nat :=
  [1, 2, 5, 10, 20, 50, 100, 200, 500, 1000, 2000, 5000, 10000, 30000, 60000, 300000].getD c 1

/-- P and the phase in ns (R283). -/
def PollEntry.period (x : PollEntry) : Nat := 1000000 * periodMs (bits x.w1 19 16)
def PollEntry.phase (x : PollEntry) : Nat := 1000000 * x.w2.toNat

/-- The missing inputs that HOLD bridges (R297). -/
def PollEntry.holdLimit (x : PollEntry) : Nat := [0, 1, 2, 4].getD (bits x.w1 11 10) 0

/-- The first instant after a time, and the number of an instant (R283). -/
def PollEntry.instantAfter (x : PollEntry) (t : Nat) : Nat :=
  if t < x.phase then x.phase else x.phase + ((t - x.phase) / x.period + 1) * x.period
def PollEntry.instantNo (x : PollEntry) (t : Nat) : Nat := (t - x.phase) / x.period

/-- The entry as the inputs that have been taken so far have it (R284). -/
def PollEntry.path (x : PollEntry) : PollEntry := { x with w0 := x.v0, w1 := x.v1 }

/-- The entry's next instant: after a time, and after the last one at which it took an input (R284, R293). -/
def PollEntry.nextDue (x : PollEntry) (t : Nat) : Nat :=
  max (x.instantAfter t) (match x.took with | some u => x.instantAfter u | none => 0)

/-- A counter of the pipeline counts, by offset from PL_CNT_POLL (R316). -/
def countPl (h : Half) (b k n : Nat) (s : State) : State := s.count (bayKey h b + Reg.PL_CNT + k) n

/-- A bit of PL_STAT is set. -/
def plMark (h : Half) (b : Nat) (f : Fld) (s : State) : State := s.put (bayKey h b) f 1

/-- The pipeline is enabled (R285). -/
def State.plRuns (s : State) (h : Half) (b : Nat) : Bool := s.flag (bayKey h b) Reg.PL_CFG_EN

/-- The pipeline takes inputs: it is enabled, and TREF runs (R285, R293, R313). -/
def State.plTakes (s : State) (h : Half) (b : Nat) : Bool :=
  s.plRuns h b && s.trefRuns && decide (s.power.mode = .run)

/-! ## Chains (R294 to R300) -/

/-- What an entry's PRESET selects: set, K, log2 D and coefficients (R295, R98). -/
structure Chosen where
  set : Nat
  k : Nat
  logD : Nat
  coef : List Int

/-- The coefficients of a custom set. -/
def FirSet.coefs (x : FirSet) : List Int := (List.range 32).map (fun i => (tblGet x.coef 0 i).toInt)

def chosenFir (j k logD : Nat) : Chosen := ⟨j, k, logD, (List.range 32).map (Config.fir j)⟩

def chosenSet (j : Nat) (x : FirSet) : Chosen := ⟨j, x.k, x.logD, x.coefs⟩

def State.chosen (s : State) (h : Half) (b preset : Nat) : Chosen :=
  let p := if preset = 0 then (match (s.half h).defaults.preset with | .noon => 2 | .dusk => 3 | .night => 4) else preset
  match p with
  | 1 => chosenFir 0 3 1
  | 2 => chosenFir 1 3 2
  | 3 => chosenFir 2 4 3
  | 4 => chosenFir 3 5 4
  | 5 => chosenFir 4 5 5
  | 8 => chosenSet 5 (s.pipe h b).set0.now
  | 9 => chosenSet 6 (s.pipe h b).set1.now
  | _ => ⟨7, 0, 0, []⟩

/-- A chain right after a reset (R297). -/
def Chosen.fresh (c : Chosen) : FilterChain := { FilterChain.reset with set := c.set, k := c.k, logD := c.logD, coef := c.coef }

/-- The same chain right after a reset. -/
def FilterChain.restart (x : FilterChain) : FilterChain :=
  { FilterChain.reset with set := x.set, k := x.k, logD := x.logD, coef := x.coef }

/-- The number of inputs an output depends on (R294). -/
def FilterChain.support (x : FilterChain) : Nat :=
  if x.set = 7 then 1 else x.k * (2 ^ x.logD - 1) + 31 * 2 ^ x.logD + 1

/-- A change of what an entry's chain is to be (R298, R299). -/
def PollEntry.retune (x : PollEntry) (c : Chosen) : PollEntry :=
  if c.k = x.chain.k ∧ c.logD = x.chain.logD then
    if c.coef = x.chain.coef then
      { x with next := none, after := none, chain := { x.chain with set := c.set } }
    else if x.fade.isSome then { x with next := none, after := some (c.set, c.coef) }
    else { x with next := none, fade := some (x.chain.coef, 0), chain := { x.chain with set := c.set, coef := c.coef } }
  else
    match x.next with
    | some n =>
      if c.k = n.k ∧ c.logD = n.logD then { x with next := some { n with set := c.set, coef := c.coef } }
      else { x with next := some c.fresh }
    | none => { x with next := some c.fresh }

/-- A reset of an entry's chains (R297, R298, R299): a fade ends, and a change that waits behind it is applied. -/
def PollEntry.resetChains (x : PollEntry) : PollEntry :=
  let c := match x.after with
    | some (i, l) => { x.chain with set := i, coef := l }
    | none => x.chain
  { x with chain := c.restart, next := x.next.map FilterChain.restart, fade := none, after := none, run := 0 }

/-- An entry's coefficients replaced without a fade (R299). -/
def PollEntry.recoef (x : PollEntry) (c : Chosen) : PollEntry :=
  if c.k = x.chain.k ∧ c.logD = x.chain.logD then
    { x with next := none, fade := none, after := none, chain := { x.chain with set := c.set, coef := c.coef } }
  else x.retune c

/-- A change of what the chain is to be while the pipeline is stopped: no stream runs that a chain in force could go on with;
a chain that waited when the pipeline stopped waits on (R298). -/
def PollEntry.rechoose (x : PollEntry) (c : Chosen) : PollEntry :=
  let waits := match x.next with | some n => decide (c.k = n.k ∧ c.logD = n.logD) | none => false
  if (c.k = x.chain.k ∧ c.logD = x.chain.logD) ∨ waits = true then x.recoef c
  else { x with chain := c.fresh, next := none, fade := none, after := none, chg := true }

/-- A commit takes effect on the chains: one that changes KIND, SRC, CH, SGN or PER resets them (R284, R298). -/
def PollEntry.adopt (x : PollEntry) (runs : Bool) (w0 w1 : Word) (c : Chosen) : PollEntry :=
  let y := { x with v0 := w0, v1 := w1 }
  let reset := decide (bits x.v0 19 1 ≠ bits w0 19 1) || decide (bits x.v1 19 16 ≠ bits w1 19 16)
  if bits x.v0 19 17 = 0 then { y with chain := c.fresh, next := none, fade := none, after := none, run := 0, chg := true }
  else
    let z := if runs then y.retune c else y.rechoose c
    if reset then { z.resetChains with chg := true } else z

/-- The integrators take an input (R294). -/
def integrate : List Int → Int → List Int
  | [], _ => []
  | a :: t, v => (a + v) :: integrate t (a + v)

/-- The combs at a decimation instant: the value that comes out, and their contents (R294). -/
def combs : List Int → Int → Int × List Int
  | [], v => (v, [])
  | c :: t, v =>
    let r := combs t (v - c)
    (r.1, v :: r.2)

def firSum (coef hist : List Int) : Int := ((List.zipWith (fun c x => c * x) coef hist).sum + 131072) / 262144

/-- The decimated value of the CIC part at a decimation instant, rounded (R294). -/
def FilterChain.cic (x : FilterChain) (base : Int) : Int × List Int :=
  let r := combs x.comb (x.integ.getLastD 0)
  let n := x.k * x.logD
  ((r.1 + base * 2 ^ n + (if n = 0 then 0 else 2 ^ (n - 1))) / 2 ^ n, r.2)

/-- An input enters a chain: the first after a reset sets the level of the past (R297). -/
def FilterChain.enter (x : FilterChain) (v : Int) (sat subst : Bool) : FilterChain :=
  let y := match x.base with
    | some _ => x
    | none =>
      { x with base := some v, integ := List.replicate x.k 0, comb := List.replicate x.k 0, hist := List.replicate 32 v,
               outs := 0, sat := none, subst := none }
  { y with
    integ := integrate y.integ (v - y.base.getD 0),
    sat := if sat then some 0 else y.sat.map (· + 1),
    subst := if subst then some 0 else y.subst.map (· + 1) }

/-- An output: value before clamping, its flags but for the clamp's. -/
structure ChainOut where
  y : Int
  sat : Bool
  subst : Bool
  settle : Bool

def within (n : Option Nat) (l : Nat) : Bool := match n with | some k => decide (k < l) | none => false

/-- The output of a chain at a decimation instant, and the chain after it. Under NONE the input is the output. -/
def FilterChain.output (x : FilterChain) (v : Int) (old : Option (List Int × Nat)) : ChainOut × FilterChain :=
  let sat := within x.sat x.support
  let sub := within x.subst x.support
  if x.set = 7 then (⟨v, sat, sub, false⟩, { x with outs := x.outs + 1 })
  else
    let c := x.cic (x.base.getD 0)
    let hist := (c.1 :: x.hist).take 32
    let y := firSum x.coef hist
    let z := match old with
      | some (l, j) => let w := firSum l hist; w + ((y - w) * ((j : Int) + 1)) / 64
      | none => y
    (⟨z, sat, sub, decide (x.outs < 32)⟩, { x with comb := c.2, hist := hist, outs := x.outs + 1 })

/-- The instant is a decimation instant of the chain (R294). -/
def FilterChain.due (x : FilterChain) (kn : Nat) : Bool := decide (kn % 2 ^ x.logD = 2 ^ x.logD - 1)

def clampTo (sgn : Bool) (v : Int) : Int :=
  if sgn then max (-524288) (min 524287 v) else max 0 (min 1048575 v)

/-! ## Recognisers (R301 to R307) -/

def Recog.kind (r : Recog) : Nat := bits r.cfg 18 16
def Recog.span (r : Recog) : Nat := max 1 (bits r.pc 3 0)

/-- A recogniser returned to idle (R304). -/
def Recog.idle (r : Recog) : Recog := { r with active := false, n := 0, hist := [], ref := none }

/-- The condition of a type other than CHANGE and MISSING on a present sample (R302). -/
def Recog.cond (r : Recog) (sgn : Bool) (x : Int) : Bool :=
  let v := fun (w : Word) => if sgn then w.toInt else (w.toNat : Int)
  let a := v r.a
  let b := v r.b
  let back := r.hist.getD (r.span - 1) 0
  match r.kind with
  | 0 => if r.active then decide (a - b < x) else decide (a ≤ x)
  | 1 => if r.active then decide (x < a + b) else decide (x ≤ a)
  | 2 => decide (a ≤ x) && decide (x ≤ b)
  | 3 => decide (x < a) || decide (b < x)
  | 4 => decide ((r.a.toNat : Int) ≤ x - back)
  | _ => decide ((r.a.toNat : Int) ≤ back - x)

/-- The counting of R303; a hit is true and a release is false. -/
def Recog.advance (r : Recog) (c : Bool) : Recog × Option Bool :=
  if r.active then
    let n := if c then 0 else r.n + 1
    if max 1 (bits r.pc 11 4) ≤ n then ({ r with active := false, n := 0 }, some false) else ({ r with n := n }, none)
  else
    let n := if c then r.n + 1 else 0
    if max 1 (bits r.pc 19 12) ≤ n then ({ r with active := true, n := 0 }, some true) else ({ r with n := n }, none)

/-- One evaluation (R303, R304). -/
def Recog.evaluate (r : Recog) (sgn : Bool) (x : Option Int) : Recog × Option Bool :=
  match x with
  | none =>
    let r1 := { r with hist := [] }
    if r.kind = 7 then r1.advance true else (r1, none)
  | some v =>
    let seen := fun (q : Recog) => { q with hist := (v :: q.hist).take 15 }
    if r.kind = 7 then
      let o := r.advance false
      (seen o.1, o.2)
    else if r.kind = 6 then
      let a := if sgn then r.a.toInt else (r.a.toNat : Int)
      if a ≤ (v - r.ref.getD v).natAbs then (seen { r with ref := some v }, some true)
      else (seen { r with ref := some (r.ref.getD v) }, none)
    else if (r.kind = 4 ∨ r.kind = 5) ∧ r.hist.length < r.span then (seen r, none)
    else
      let o := r.advance (r.cond sgn v)
      (seen o.1, o.2)

/-- The local endpoint number of an entry's endpoint (R306). -/
def State.endpoint (s : State) (h : Half) (b e : Nat) : Nat :=
  let x := (s.entryOf h b e).path
  match x.kind with
  | 1 => b * 128 + x.src
  | 2 => 8192 + b * 16 + x.src
  | 3 => 8192 + b * 16 + x.src
  | _ => 8192 + b * 16 + s.get (padKey b) Reg.LN_ENV_PWR_SLOT

/-- What a recogniser's sample carries: value, SAT, SUBST, SETTLE, TSYNC, time stamp. -/
structure Sample where
  w : Word
  sat : Bool
  subst : Bool
  settle : Bool
  tsync : Bool
  ts : Nat

def bit (c : Bool) (n : Nat) : Nat := if c then 2 ^ n else 0

/-- The payload of the RECOG record (R337). -/
def recogRecord (g kind e src : Nat) (x : Sample) : List Byte :=
  bigEndian 2 g ++ bigEndian 1 kind ++ bigEndian 1 e
    ++ bigEndian 1 (bit x.tsync 7 + src * 64 + bit x.sat 5 + bit x.subst 4 + bit x.settle 3)
    ++ bigEndian 3 x.w.toNat ++ bigEndian 8 (x.ts % 2 ^ 60)

/-- The payload of the alarm (R306, R444). -/
def alarmBytes (subject kind g : Nat) (x : Sample) : List Byte :=
  bigEndian 4 subject ++ bigEndian 1 kind ++ bigEndian 1 (bit x.tsync 7) ++ bigEndian 2 g ++ bigEndian 3 x.w.toNat ++ [0]
    ++ bigEndian 4 x.ts ++ bigEndian 4 (x.ts / 2 ^ 32 % 2 ^ 28)

/-- An alarm handed to the router, or dropped (R306). -/
def handAlarm (h : Half) (b e kind g : Nat) (x : Sample) (s : State) : State :=
  let subject := (match s.ownAddr with | some a => a * 16384 | none => 0) + s.endpoint h b e
  match injectAlarm (alarmBytes subject kind g x) s with
  | some t => t
  | none => s.onCopies (fun g s => plMark g b Reg.PL_STAT_ALMDROP (countPl g b 6 1 s))

/-- A hit or a reported release (R305, R306, R307). -/
def recogAct (h : Half) (b i : Nat) (hit : Bool) (x : Sample) (s : State) : State :=
  if s.orphaned b then s
  else
    let r := s.recog h b i
    let kind := r.kind + (if hit then 0 else 8)
    let e := bits r.cfg 7 0
    let src := bits r.cfg 15 15
    let s1 := s.setRecog h b i
      { r with pend := true, hits := min 0xFFFFF (r.hits + 1), lastV := x.w, lastT := x.ts % 2 ^ 60 }
    let s2 := raiseBayEvent h b .recog s1
    let s3 :=
      if bits r.cfg 13 13 = 1 ∧ s.codedBy (16384 + b) = some h then
        pushRecord h (16384 + b) recRecog (recogRecord (64 * b + i) kind e src x) s2 else s2
    if bits r.cfg 12 12 = 1 ∧ s.holder b = h then handAlarm h b e kind (64 * b + i) x s3 else s3

/-- One recogniser evaluates a sample (R303, R305). The sample of a MISSING-type action is the latest missing one: it has no
value and no flags, and its time is its grid instant. -/
def recogStep (h : Half) (b i : Nat) (sgn : Bool) (v : Option Int) (x : Sample) (s : State) : State :=
  let r0 := s.recog h b i
  let r := if v.isNone then { r0 with missAt := x.ts } else r0
  let o := r.evaluate sgn v
  let s1 := s.setRecog h b i o.1
  let y : Sample := if r.kind = 7 then ⟨0, false, false, false, x.tsync, r.missAt⟩ else x
  match o.2 with
  | some true => recogAct h b i true y s1
  | some false => if bits r.cfg 11 11 = 1 then recogAct h b i false y s1 else s1
  | none => s1

/-- The recogniser watches an entry's raw inputs (0) or filter outputs (1). -/
def Recog.watches (r : Recog) (e src : Nat) : Bool :=
  decide (bits r.cfg 19 19 = 1) && decide (bits r.cfg 7 0 = e) && decide (bits r.cfg 15 15 = src)

/-- Every recogniser of the bay that watches the entry evaluates a sample, in recogniser order (R308). -/
def recogAll (h : Half) (b e src : Nat) (sgn : Bool) (v : Option Int) (x : Sample) (s : State) : State :=
  (List.range 64).foldl (fun s i => if (s.recog h b i).watches e src then recogStep h b i sgn v x s else s) s

/-- n missing samples in a row, at a spacing in ns from the time stamp on (R304). -/
def recogMissing (h : Half) (b e src : Nat) (tsync : Bool) (ts step : Nat) : Nat → State → State
  | 0, s => s
  | n + 1, s =>
    recogMissing h b e src tsync (ts + step) step n
      (recogAll h b e src false none ⟨0, false, false, false, tsync, ts⟩ s)

/-! ## Handoff to the compression engine (R294, R324) -/

/-- The coding settings of an entry's channel (R331 to R334, R345). -/
def State.codeSetOf (s : State) (h : Half) (c : Nat) (x : PollEntry) : CodeSet :=
  let k := s.chanCfg h c
  let ex := decide (x.chain.set = 7)
  { e := s.tolerance h c, order := bits k.w0 18 17, thin := decide (bits k.w0 16 16 = 1) && !ex, b := bits k.w1 11 0,
    sgn := x.sgn, step := if ex then x.period else x.period * 2 ^ x.chain.logD, explicit := ex }

/-- An item enters the engine of the half that codes the channel (R323, R307). -/
def deliverItem (h : Half) (b e : Nat) (v : Option Word) (miss n fl ts : Nat) (s : State) : State :=
  let c := 256 * b + e
  let x := s.entryOf h b e
  let s1 :=
    if s.codedBy c = some h then pushItem h ⟨c, v, miss, n, fl, ts, s.codeSetOf h c x.path, x.chg, false, 0⟩ s else s
  s1.setEntryOf h b e { s1.entryOf h b e with chg := x.chg && (s.codedBy c).isNone }

/-! ## An input through the chain (R294, R297 to R299) -/

/-- What happens after an output of the chain in force: a fade goes on, ends, or is followed by the change that waits. -/
def PollEntry.afterOutput (x : PollEntry) : PollEntry :=
  match x.fade with
  | some (l, j) =>
    if j + 1 < 64 then { x with fade := some (l, j + 1) }
    else
      match x.after with
      | some (i, c) => { x with fade := some (x.chain.coef, 0), after := none, chain := { x.chain with set := i, coef := c } }
      | none => { x with fade := none }
  | none => x

/-- The entry's chains take an input; the output that is delivered, if one is. -/
def PollEntry.feed (x : PollEntry) (kn : Nat) (v : Int) (sat subst : Bool) : PollEntry × Option ChainOut :=
  let c := x.chain.enter v sat subst
  let o := if c.due kn then some (c.output v x.fade) else none
  let c1 := match o with | some r => r.2 | none => c
  let x1 := { x with chain := c1 }
  let x2 := if o.isSome then x1.afterOutput else x1
  match x.next with
  | none => (x2, o.map Prod.fst)
  | some nx =>
    let m := nx.enter v sat subst
    if m.due kn then
      let p := m.output v none
      if p.1.settle then ({ x2 with next := some p.2 }, o.map Prod.fst)
      else ({ x2 with chain := p.2, next := none, fade := none, after := none, chg := true }, some p.1)
    else ({ x2 with next := some m }, o.map Prod.fst)

/-- A filter output: the entry's latest output and flags, its item and its recognisers. -/
def deliverOutput (h : Half) (b : Nat) (i : PInput) (o : ChainOut) (s : State) : State :=
  let x := s.entryOf h b i.e
  let sgn := x.path.sgn
  let y := clampTo sgn o.y
  let sat := o.sat || decide (y ≠ o.y)
  let w : Word := BitVec.ofInt 20 y
  let ts := if x.chain.set = 7 then i.ts else i.at_
  let s1 := s.setEntryOf h b i.e { x with filt := w, sat := sat, subst := o.subst, settle := o.settle }
  let s2 := deliverItem h b i.e (some w) 0 1 (bit sat 3 + bit o.subst 2 + bit o.settle 1 + bit i.tsync 0) ts s1
  recogAll h b i.e 1 sgn (some y) ⟨w, sat, o.subst, o.settle, i.tsync, ts⟩ s2

/-- An input that is fed to the chains. -/
def feedInput (h : Half) (b : Nat) (i : PInput) (v : Int) (subst : Bool) (s : State) : State :=
  let r := (s.entryOf h b i.e).feed i.kn v i.sat subst
  let s1 := s.setEntryOf h b i.e r.1
  match r.2 with
  | some o => deliverOutput h b i o s1
  | none => s1

/-- How many output instants lie among n instants from number kn on, and the offset of the first (R294). -/
def outputsIn (d kn n : Nat) : Nat × Nat :=
  let first := (d - 1 + d - kn % d) % d
  (if first < n then (n - 1 - first) / d + 1 else 0, first)

/-- Missing outputs of a chain that is reset: one run over the output instants among the missing ones (R297, R293). -/
def missOutputs (h : Half) (b : Nat) (i : PInput) (s : State) : State :=
  let x := s.entryOf h b i.e
  let d := 2 ^ x.chain.logD
  let p := outputsIn d i.kn i.n
  if p.1 = 0 then s
  else
    let t := i.at_ + p.2 * x.path.period
    recogMissing h b i.e 1 i.tsync t (d * x.path.period) p.1
      (deliverItem h b i.e none i.miss p.1 (bit i.tsync 0) t s)

/-- An entry's latest input as its flags word shows it (R315). -/
def PollEntry.noteInput (x : PollEntry) (i : PInput) : PollEntry :=
  match i.value with
  | some w => { x with raw := w, miss := 0, tsync := i.tsync, seq := (x.seq + 1) % 16, run := 0,
                       last := if x.path.sgn then w.toInt else w.toNat }
  | none => { x with miss := i.miss, tsync := i.tsync, seq := (x.seq + 1) % 16, run := x.run + i.n,
                     missed := min 0xFFFFF (x.missed + i.n) }

/-! ## Custom sets in force (R298, R299, R300) -/

/-- Custom set i of a bay's copy. -/
def BayPipe.custom (x : BayPipe) (i : Nat) : CustomSet := if i = 0 then x.set0 else x.set1
def BayPipe.setCustom (x : BayPipe) (i : Nat) (c : CustomSet) : BayPipe :=
  if i = 0 then { x with set0 := c } else { x with set1 := c }

/-- A fade of a custom set is running (R299, R318). -/
def State.setFading (s : State) (h : Half) (b i : Nat) : Bool :=
  (List.range 256).any (fun e =>
    let x := s.entryOf h b e
    decide (x.path.kind ≠ 0) && x.fade.isSome && decide (x.chain.set = 5 + i))

/-- A custom set takes its new values, and every entry that uses it follows (R298, R299), those of a list without a fade. -/
def applySet (h : Half) (b i : Nat) (f : FirSet) (plain : List Nat) (s : State) : State :=
  let x := s.pipe h b
  let s1 := s.setPipe h b (x.setCustom i { x.custom i with now := f, held := none })
  (List.range 256).foldl (fun s e =>
    let y := s.entryOf h b e
    if y.path.kind ≠ 0 ∧ y.path.preset = 8 + i then
      let c := s.chosen h b (8 + i)
      s.setEntryOf h b e (if plain.contains e then y.recoef c else if s.plRuns h b then y.retune c else y.rechoose c)
    else s) s1

/-- A held commit is applied once the fade has ended (R299): to entries of which a reset ended the fade, without a fade. -/
def releaseHeld (h : Half) (b : Nat) (plain : List Nat) (s : State) : State :=
  [0, 1].foldl (fun s i =>
    match ((s.pipe h b).custom i).held with
    | some f => if s.setFading h b i then s else applySet h b i f plain s
    | none => s) s

/-- A reset of one entry's chains (R297, R299). -/
def resetEntry (h : Half) (b e : Nat) (s : State) : State :=
  let x := s.entryOf h b e
  releaseHeld h b (if x.fade.isSome then [e] else []) (s.setEntryOf h b e x.resetChains)

/-! ## The input queue (R284, R289, R293, R310) -/

/-- PIPE has no grain for an input of the bay's (R309, R310). -/
def State.pipeStarved (s : State) (b : Nat) : Bool := (s.access (s.viewOf b) actPipe 0).isNone

/-- Inputs lost at a full queue are recorded as room comes (R310). -/
def BayPipe.refill (x : BayPipe) (starved : Bool) : BayPipe :=
  let room := if starved then 64 - x.queue.length else x.lost.length
  { x with queue := x.queue ++ x.lost.take room, lost := x.lost.drop room }

/-- An input comes to the queue. It holds 64 that wait for a grain of PIPE: one more is lost (R310), but for a run of GAP,
which waits outside (R293). -/
def queueInput (h : Half) (b : Nat) (i : PInput) (s : State) : State :=
  let starved := s.pipeStarved b
  let x := (s.pipe h b).refill starved
  if starved = false ∨ x.queue.length < 64 then s.setPipe h b { x with queue := x.queue ++ [i] }
  else if i.miss = 7 then s.setPipe h b { x with held := x.held ++ [i] }
  else
    plMark h b Reg.PL_STAT_OVERRUN
      (countPl h b 5 i.n (s.setPipe h b { x with lost := x.lost ++ [{ i with value := none, miss := 6, sat := false, ts := i.at_ }] }))

/-- A POLL of an earlier instant of an entry has not ended, or an input of it waits (R289). -/
def BayPipe.waitsFor (x : BayPipe) (i : PInput) : Bool :=
  x.polls.any (fun p => !p.ident && decide (p.at_ < i.at_) && p.parts.any (fun q => decide (q.1 = i.e)))
    || x.held.any (fun j => decide (j.e = i.e))

/-- An input reaches the bay's pipeline, in the order of its entry's instants (R289). -/
def pushInput (h : Half) (b : Nat) (i : PInput) (s : State) : State :=
  let x := s.pipe h b
  if x.waitsFor i then s.setPipe h b { x with held := x.held ++ [i] } else queueInput h b i s

/-- The inputs that waited go on where they may (R289, R293). -/
def freeHeld (h : Half) (b : Nat) (s : State) : State :=
  let x := s.pipe h b
  x.held.foldl (fun s i => pushInput h b i s) (s.setPipe h b { x with held := [] })

/-- An input of an instant of the entry before a time is still to be taken (R284). -/
def State.inFlight (s : State) (h : Half) (b e t : Nat) : Bool :=
  let x := s.pipe h b
  (x.queue ++ x.lost ++ x.held).any (fun i => decide (i.e = e) && decide (i.at_ < t))
    || x.polls.any (fun p => !p.ident && decide (p.at_ < t) && p.parts.any (fun q => decide (q.1 = e)))

/-- Recognisers that watch an entry return to idle (R284, R304). -/
def idleWatchers (h : Half) (b e : Nat) (s : State) : State :=
  (List.range 64).foldl (fun s i =>
    let r := s.recog h b i
    if bits r.cfg 7 0 = e then s.setRecog h b i r.idle else s) s

/-- The first commit that no input has been taken under takes effect on the chains and the recognisers (R284). -/
def adoptCommit (h : Half) (b e : Nat) (s : State) : State :=
  let x := s.entryOf h b e
  match x.newer with
  | [] => s
  | (w0, w1, _) :: rest =>
    let y := { x.adopt (s.plRuns h b) w0 w1 (s.chosen h b (bits w1 15 12)) with newer := rest }
    let s1 := releaseHeld h b (if x.fade.isSome && y.fade.isNone then [e] else []) (s.setEntryOf h b e y)
    if bits x.v0 19 1 ≠ bits w0 19 1 then idleWatchers h b e s1 else s1

/-- The commits of an entry take effect once every input of before them has been taken (R284). -/
def settleCommits (h : Half) (b e : Nat) (s : State) : State :=
  (s.entryOf h b e).newer.foldl (fun s c =>
    if (s.entryOf h b e).newer.head? = some c ∧ s.inFlight h b e c.2.2 = false then adoptCommit h b e s else s) s

/-- An input leaves the queue (R290, R294, R297). -/
def takeInput (h : Half) (b : Nat) (i : PInput) (s : State) : State :=
  let x := (s.entryOf h b i.e).noteInput i
  let s1 := s.setEntryOf h b i.e x
  let s2 := match i.value with
    | some w =>
      feedInput h b i x.last false
        (recogAll h b i.e 0 x.path.sgn (some x.last) ⟨w, i.sat, false, false, i.tsync, i.ts⟩ s1)
    | none =>
      let s2 := plMark h b Reg.PL_STAT_MISS (recogMissing h b i.e 0 i.tsync i.at_ x.path.period i.n s1)
      let y := s2.entryOf h b i.e
      if i.miss ≠ 7 ∧ x.run ≤ x.path.holdLimit ∧ y.chain.base.isSome = true then feedInput h b { i with ts := i.at_ } y.last true s2
      else
        let s3 := resetEntry h b i.e s2
        missOutputs h b i (s3.setEntryOf h b i.e { s3.entryOf h b i.e with run := y.run })
  settleCommits h b i.e (freeHeld h b s2)

/-! ## Instants (R283, R286, R289, R291) -/

/-- A missing input of one instant. -/
def State.missing (s : State) (e kn t cause : Nat) : PInput :=
  ⟨e, kn, t, none, cause, 1, false, t, s.flag oneKey Reg.FAB_STAT_TSYNC⟩

/-- The parts of a POLL that has ended each end missing with a cause (R290). -/
def missParts (h : Half) (b : Nat) (p : Poll) (cause : Nat) (s : State) : State :=
  freeHeld h b (p.parts.foldl (fun s q => pushInput h b (s.missing q.1 q.2.2 p.at_ cause) s) s)

/-- A POLL is abandoned (R289). -/
def abandonPoll (h : Half) (b : Nat) (p : Poll) (s : State) : State :=
  plMark h b Reg.PL_STAT_LATE (countPl h b 3 1 (missParts h b p 4 s))

/-- The POLL in entry P has not started its attempt (R289). -/
def State.pUnstarted (s : State) (h : Half) (b : Nat) : Bool :=
  let l := s.line h b
  let x := l.entry entryP
  !(decide (l.attempt = some entryP) && l.sof) && decide (x.tries = 0) && decide (x.arbl = 0)

/-- POLLs of an earlier instant of an entry that have not started are abandoned (R289). -/
def abandonPolls (h : Half) (b e : Nat) (s : State) : State :=
  let drop := fun (p : Poll) =>
    !p.ident && p.parts.any (fun q => decide (q.1 = e))
      && (decide (p.phase = .waiting) || (decide (p.phase = .released) && s.pUnstarted h b))
  let x := s.pipe h b
  let gone := x.polls.filter drop
  let s1 := s.setPipe h b { x with polls := x.polls.filter (fun p => !drop p) }
  gone.foldl (fun s p =>
    let s2 := if p.phase = .released then
        let t := cancelEntry h b entryP s
        t.setLine h b { t.line h b with pEnd := none }
      else s
    abandonPoll h b p s2) s1

/-- The latest sample of an entry's source: code and fabric time (R291). -/
def State.sourceOf (s : State) (h : Half) (b : Nat) (x : PollEntry) : Option (Nat × Nat) :=
  match x.kind with
  | 2 => (s.slot h (16 * b + x.src)).lawSample
  | 3 => (s.slot h (16 * b + x.src)).prbSample
  | 4 => (s.sar b).lsv
  | 5 => (s.sar b).lsi
  | _ => none

/-- An entry of kind 2 to 5 takes its input (R291). -/
def takeSample (h : Half) (b e kn t : Nat) (s : State) : State :=
  let x := s.entryOf h b e
  let fresh := match s.sourceOf h b x with
    | some (c, at_) => if (match x.srcAt with | some u => decide (u < at_) | none => true) then some (c, at_) else none
    | none => none
  match fresh with
  | some (c, at_) =>
    pushInput h b ⟨e, kn, t, some (BitVec.ofNat 20 c), 0, 1, false, at_, s.flag oneKey Reg.FAB_STAT_TSYNC⟩
      (s.setEntryOf h b e { x with srcAt := some at_ })
  | none => pushInput h b (s.missing e kn t 5) s

/-- A due node channel joins the POLL of its instant, node and PRIO, or begins a new one (R286). -/
def joinPoll (t node prio : Nat) (part : Nat × Nat × Nat) : List Poll → List Poll
  | [] => [⟨false, t, node, prio, [part], 0, .waiting, 0⟩]
  | p :: rest =>
    if p.ident = false ∧ p.at_ = t ∧ p.node = node ∧ p.prio = prio ∧ p.phase = .waiting ∧ p.tries = 0 ∧ p.parts.length < 8 then
      { p with parts := p.parts ++ [part] } :: rest
    else p :: joinPoll t node prio part rest

/-- The instant of one entry, if it has come (R283). -/
def entryInstant (h : Half) (b e : Nat) (s : State) : State :=
  let x := s.entryOf h b e
  if x.kind = 0 ∨ s.timeNs < x.due then s
  else
    let t := x.due
    let kn := x.instantNo t
    let s1 := abandonPolls h b e (s.setEntryOf h b e { x with due := t + x.period, took := some t })
    if x.kind = 1 then
      let p := s1.pipe h b
      s1.setPipe h b { p with polls := joinPoll t x.src x.prio (e, x.ch, kn) p.polls }
    else takeSample h b e kn t s1

/-- POLL_INSTANT (R283): every entry of the bay whose instant has come. -/
def execPollInstant (b : Fin 64) (s : State) : Result :=
  .next (s.onCopies (fun h s =>
    if s.plTakes h b then (List.range 256).foldl (fun s e => entryInstant h b e s) s else s))

/-- The instants of an entry that were skipped, as one missing run; after a step back of fabric time it takes no input until
time passes the last instant it took (R293). -/
def gapEntry (h : Half) (b e : Nat) (s : State) : State :=
  let x := s.entryOf h b e
  if x.kind = 0 then s
  else if s.timeNs ≤ x.due then s.setEntryOf h b e { x with due := if s.timeNs = x.due then x.due else x.nextDue s.timeNs }
  else
    let n := (s.timeNs - 1 - x.due) / x.period + 1
    let s1 := abandonPolls h b e
      (s.setEntryOf h b e { x with due := x.due + n * x.period, took := some (x.due + (n - 1) * x.period) })
    pushInput h b ⟨e, x.instantNo x.due, x.due, none, 7, n, false, x.due, s.flag oneKey Reg.FAB_STAT_TSYNC⟩ s1

/-- The instants skipped in every running pipeline (R293). -/
def gapRuns (s : State) : State :=
  (List.range 64).foldl (fun s b => s.onCopies (fun h s =>
    if s.plRuns h b then (List.range 256).foldl (fun s e => gapEntry h b e s) s else s)) s

/-! ## Polling (R287, R288, R311) -/

def Poll.id (p : Poll) : Nat := if p.ident then 0x7003 + p.node * 0x20 else p.prio * 0x1000 + p.node * 0x20 + 1

def Poll.firstEntry (p : Poll) : Nat := match p.parts with | q :: _ => q.1 | [] => 0

/-- One POLL goes before another (R287). -/
def Poll.before (p q : Poll) : Bool :=
  if p.at_ ≠ q.at_ then decide (p.at_ < q.at_)
  else if p.id ≠ q.id then decide (p.id < q.id)
  else decide (p.firstEntry < q.firstEntry)

/-- The POLL to release next (R287). -/
def State.nextPoll (s : State) (h : Half) (b : Nat) : Option Poll :=
  let l := (s.pipe h b).polls
  let await := l.filter (fun p => decide (p.phase = .awaiting))
  if (s.line h b).entry entryP |>.busy then none
  else if l.any (fun p => decide (p.phase = .released)) then none
  else if s.get (bayKey h b) Reg.PL_CFG_OUT + 1 ≤ await.length then none
  else
    (l.filter (fun p => decide (p.phase = .waiting) && await.all (fun q => decide (q.node ≠ p.node)))).foldl
      (fun best p =>
        match best with
        | none => some p
        | some q => if p.before q then some p else some q) none

/-- An IDENT request ends (R311). -/
def endIdent (h : Half) (b st : Nat) (s : State) : State :=
  plMark h b Reg.PL_STAT_IDDONE
    (((s.put (bayKey h b) Reg.PL_IDST_STATUS st).put (bayKey h b) Reg.PL_IDST_DONE 1).put (bayKey h b) Reg.PL_IDST_BUSY 0)

/-- The outcome of entry P reaches the scheduler (R287, R290, R311). -/
def settleP (h : Half) (b : Nat) (s : State) : State :=
  let l := s.line h b
  match l.pEnd with
  | none => s
  | some st =>
    let s1 := s.setLine h b { l with pEnd := none }
    let x := s1.pipe h b
    match x.polls.find? (fun p => decide (p.phase = .released)) with
    | none => s1
    | some p =>
      if st = St.OK then
        s1.setPipe h b { x with polls := x.polls.map (fun q => if q = p then { q with phase := .awaiting, ackEnd := s.onTref } else q) }
      else
        let s2 := s1.setPipe h b { x with polls := listDrop x.polls p }
        if p.ident then endIdent h b st s2 else countPl h b 2 1 (missParts h b p 2 s2)

/-- Entry P is loaded with a POLL or an IDENT (R286, R311); where the line takes no transmission it ends at once. -/
def loadP (h : Half) (b : Nat) (p : Poll) (s : State) : State :=
  let l := s.line h b
  let x : TxEntry :=
    { TxEntry.reset with id := p.id, ar := true, len := p.parts.length, retry := 3, busy := true, order := l.order }
  let buf := p.parts.zipIdx.foldl (fun t e => tblSet t 0 (64 * entryP + e.2) (BitVec.ofNat 8 e.1.2.1)) l.buf
  let s1 := s.setLine h b { l.setEntry entryP x with order := l.order + 1, buf := buf }
  if !s.flag (bayKey h b) Reg.LN_CFG_EN || decide (s.get (padKey b) Reg.LN_ENV_TXMAX = 0) then
    endEntry h b entryP St.LINE_DISABLED s1
  else if s.lineTripped h b then endEntry h b entryP St.LINE_TRIPPED s1
  else s1

/-- POLL_RELEASE (R287). -/
def execPollRelease (b : Fin 64) (s : State) : Result :=
  .next (s.onCopies (fun h s =>
    match s.nextPoll h b with
    | some p =>
      if p.ident || s.plRuns h b then
        let x := s.pipe h b
        let s1 := s.setPipe h b { x with polls := x.polls.map (fun q => if q = p then { q with phase := .released } else q) }
        let s2 := if p.ident then s1 else countPl h b 0 1 s1
        settleP h b (loadP h b p s2)
      else s
    | none => s))

/-- The last TREF edge at which the SOF of a reply is in time (R288). -/
def State.replyBy (s : State) (h : Half) (b : Nat) (p : Poll) : Nat :=
  p.ackEnd + 200000 * max 1 (s.get (bayKey h b) Reg.LN_CFG_RWAIT)

/-- A frame whose SOF was in time is still being received (R288). -/
def State.replyComing (s : State) (h : Half) (b : Nat) (p : Poll) : Bool :=
  match (s.engine h b).assembly with
  | some a => !a.lost && decide (a.edge ≤ s.replyBy h b p)
  | none => false

/-- A POLL gets no valid REPLY: it is sent again, unless the next instant of an entry has come, or its entries end with NOREPLY
(R288, R289, R290, R311, R316). -/
def noReply (h : Half) (b : Nat) (p : Poll) (s : State) : State :=
  let x := s.pipe h b
  if p.ident then endIdent h b St.POLL_NOREPLY (s.setPipe h b { x with polls := listDrop x.polls p })
  else if p.tries < s.get (bayKey h b) Reg.PL_CFG_REPOLL then
    if p.parts.any (fun q => decide ((s.entryOf h b q.1).instantAfter p.at_ ≤ s.timeNs)) then
      abandonPoll h b p (s.setPipe h b { x with polls := listDrop x.polls p })
    else
      s.setPipe h b { x with polls := x.polls.map (fun q => if q = p then { q with phase := .waiting, tries := q.tries + 1 } else q) }
  else countPl h b 1 p.parts.length (missParts h b p 1 (s.setPipe h b { x with polls := listDrop x.polls p }))

/-- REPLY_WAIT_EXPIRY (R288): POLLs of the bay whose reply's SOF has not come in time. -/
def execReplyWaitExpiry (b : Fin 64) (s : State) : Result :=
  .next (s.onCopies (fun h s =>
    ((s.pipe h b).polls.filter (fun p =>
      decide (p.phase = .awaiting) && decide (s.replyBy h b p < s.onTref) && !s.replyComing h b p)).foldl
      (fun s p => noReply h b p s) s))

/-- The values of a REPLY, three bytes a channel (R222, R288, R290). -/
def replyParts (h : Half) (b : Nat) (p : Poll) (f : RxFrame) (s : State) : State :=
  freeHeld h b <| p.parts.zipIdx.foldl (fun s q =>
    let v := payloadField f.payload (3 * q.2) 3
    let e := q.1.1
    if v / 0x800000 % 2 = 0 then pushInput h b (s.missing e q.1.2.2 p.at_ 3) s
    else
      pushInput h b
        ⟨e, q.1.2.2, p.at_, some (BitVec.ofNat 20 v), 0, 1, decide (v / 0x400000 % 2 = 1), f.ts,
          s.flag oneKey Reg.FAB_STAT_TSYNC⟩ s) s

/-- The POLL or IDENT a received frame answers, with the TREF edge of the frame's SOF (R288, R311). -/
def State.answers (s : State) (h : Half) (b : Nat) (f : RxFrame) (edge : Nat) : Option Poll :=
  let ty := f.id % 32
  let node := f.id / 32 % 128
  (s.pipe h b).polls.find? (fun p =>
    decide (p.phase = .awaiting) && decide (p.node = node) && decide (edge ≤ s.replyBy h b p)
      && (if p.ident then decide (ty = 0x13) else decide (ty = 0x11)))

/-- A frame that answers a POLL is taken by the pipeline; none where it goes to the receive FIFO (R288, R311). -/
def takeReply (h : Half) (b : Nat) (f : RxFrame) (edge : Nat) (s : State) : Option State :=
  (s.answers h b f edge).map (fun p =>
    let want := if p.ident then 16 else 3 * p.parts.length
    if f.payload.length ≠ want then plMark h b Reg.PL_STAT_BADREPLY (countPl h b 4 1 s)
    else
      let x := s.pipe h b
      let s1 := s.setPipe h b { x with polls := listDrop x.polls p }
      if p.ident then
        endIdent h b St.OK
          (s1.setRegs ((List.range 8).map (fun i => (bayKey h b + Reg.PL_IDD + i, BitVec.ofNat 20 (payloadField f.payload (2 * i) 2)))))
      else replyParts h b p f s1)

/-! ## Commits (R284, R285, R298, R300, R304) -/

/-- An entry's words 0 to 2 as they would be after a commit, from the staged ones, read-only bits clear. -/
def PollEntry.staged (x : PollEntry) (st0 st1 : Option Word) (w2 : Word) : PollEntry :=
  { x with w0 := setBits (st0.getD x.w0) 0 0 0, w1 := setBits (st1.getD x.w1) 5 0 0, w2 := w2 }

/-- A commit is refused (R284). -/
def PollEntry.refused (y : PollEntry) : Bool :=
  decide (6 ≤ y.kind)
    || (decide (y.kind = 2 ∨ y.kind = 3) && decide (16 ≤ y.src))
    || (decide (y.kind = 4 ∨ y.kind = 5) && decide (y.src ≠ 0))
    || decide (y.preset = 7) || decide (10 ≤ y.preset)
    || decide (y.period ≤ y.phase)

/-- A write of word 2 commits an entry, or is refused (R284). It takes effect from the next instant under the new grid: the
inputs of earlier instants are still taken as the entry was. -/
def commitEntry (h : Half) (b e : Nat) (st0 st1 : Option Word) (w2 : Word) (s : State) : State :=
  let x := s.entryOf h b e
  let y := x.staged st0 st1 w2
  if y.refused then plMark h b Reg.PL_STAT_BAD s
  else
    let t := y.nextDue s.timeNs
    let src := decide (bits x.w0 19 1 ≠ bits y.w0 19 1)
    settleCommits h b e (s.setEntryOf h b e
      { y with due := t, srcAt := if src then none else x.srcAt, newer := x.newer ++ [(y.w0, y.w1, t)] })

/-- PL_TA advances (R314). -/
def advanceTa (h : Half) (b : Nat) (s : State) : State :=
  let a := s.get (bayKey h b) Reg.PL_TA_ENTRY * 8 + s.get (bayKey h b) Reg.PL_TA_WORD + 1
  (s.put (bayKey h b) Reg.PL_TA_ENTRY (a / 8)).put (bayKey h b) Reg.PL_TA_WORD a

/-- The staged word 0 or 1 of an entry of a bay, as a master left it (R13, R284). -/
def State.stagedTd (s : State) (m : Master) (b e i : Nat) : Option Word := tblFind s.staging (tableKey m ((256 * b + e) * 2 + i))

/-- A write of PL_TD in one copy, with what the master has staged of the entry (R284, R315). -/
def writePlTd (h : Half) (b : Nat) (st : Nat → Nat → Option Word) (w : Word) (s : State) : State :=
  let e := s.get (bayKey h b) Reg.PL_TA_ENTRY
  advanceTa h b (match s.get (bayKey h b) Reg.PL_TA_WORD with
    | 2 => commitEntry h b e (st e 0) (st e 1) w s
    | 7 => s.setEntryOf h b e { s.entryOf h b e with missed := w.toNat }
    | _ => s)

/-- What a write of PL_TD does to the master's staging: words 0 and 1 enter it, and a commit that is not refused takes them
out (R13, R284). -/
def stageTd (m : Master) (b e i : Nat) (w : Word) (x : PollEntry) (s : State) : State :=
  let k := tableKey m ((256 * b + e) * 2)
  if i < 2 then { s with staging := tblPut s.staging (k + i) w }
  else if i = 2 ∧ (x.staged (s.stagedTd m b e 0) (s.stagedTd m b e 1) w).refused = false then
    { s with staging := tblDel (tblDel s.staging k) (k + 1) }
  else s

/-- A write of PL_TD by a master (R13, R24, R284). -/
def plTdWrite (m : Master) (b : Nat) (w : Word) (s : State) : State :=
  let a := 0x10000 + 0x400 * b + Reg.PL_TD
  let h := s.viewOf b
  let e := s.get (bayKey h b) Reg.PL_TA_ENTRY
  let st := fun e i => s.stagedTd m b e i
  let t := s.bayWrite m b a (fun h s => writePlTd h b st w s)
  if s.bayWriteOk m b then stageTd m b e (s.get (bayKey h b) Reg.PL_TA_WORD) w (s.entryOf h b e) t else t

/-- A word of an entry as PL_TD reads it (R315). -/
def PollEntry.word (x : PollEntry) (i : Nat) : Word :=
  match i with
  | 0 => x.w0
  | 1 => x.w1
  | 2 => x.w2
  | 4 => x.raw
  | 5 => x.filt
  | 6 => BitVec.ofNat 20 (x.miss * 0x2000 + bit x.sat 12 + bit x.subst 11 + bit x.settle 10
      + bit (x.fade.isSome || x.next.isSome) 9 + bit x.tsync 8 + x.seq)
  | 7 => BitVec.ofNat 20 x.missed
  | _ => 0

/-- POLL_ENTRY_COMMIT (R284): a write of PL_TD while PL_TA addresses word 2. -/
def execPollEntryCommit (m : Master) (b : Fin 64) (value : Word) (s : State) : Result :=
  .next (if s.get (bayKey (s.viewOf b) b) Reg.PL_TA_WORD = 2 then plTdWrite m b value s else s)

/-- Every chain of a bay is reset and every entry starts at its next instant (R285, R297, R298). -/
def startPipe (h : Half) (b : Nat) (s : State) : State :=
  let faded := (List.range 256).filter (fun e => (s.entryOf h b e).fade.isSome)
  releaseHeld h b faded ((List.range 256).foldl (fun s e =>
    let x := s.entryOf h b e
    if x.kind = 0 then s else s.setEntryOf h b e { x.resetChains with due := x.nextDue s.timeNs }) s)

/-- EN is cleared (R285). -/
def stopPipe (h : Half) (b : Nat) (s : State) : State :=
  let x := s.pipe h b
  let s1 := if x.polls.any (fun p => decide (p.phase = .released) && !p.ident) then
      let t := cancelEntry h b entryP s
      t.setLine h b { t.line h b with pEnd := none }
    else s
  let s2 := s1.setPipe h b { x with queue := [], lost := [], held := [], polls := x.polls.filter Poll.ident }
  (List.range 256).foldl (fun s e => settleCommits h b e s) s2

/-- A write of PL_CFG (R285, R312). -/
def writePlCfg (h : Half) (b : Nat) (w : Word) (s : State) : State :=
  let was := s.plRuns h b
  let s1 := s.plainWrite (bayKey h b + Reg.PL_CFG) w
  let now := s1.plRuns h b
  if now && !was then startPipe h b s1
  else if was && !now then stopPipe h b s1
  else s1

/-- PL_CFG of half h's copy with EN at a value. -/
def State.plCfgWith (s : State) (h : Half) (b : Nat) (en : Nat) : Word :=
  setBits (s.reg (bayKey h b + Reg.PL_CFG)) 0 0 en

/-- PIPELINE_ENABLE (R285). -/
def execPipelineEnable (m : Master) (b : Fin 64) (s : State) : Result :=
  .next (s.bayWrite m b (0x10000 + 0x400 * b + Reg.PL_CFG) (fun h s => writePlCfg h b (s.plCfgWith h b 1) s))

/-- PIPELINE_DISABLE (R285). -/
def execPipelineDisable (m : Master) (b : Fin 64) (s : State) : Result :=
  .next (s.bayWrite m b (0x10000 + 0x400 * b + Reg.PL_CFG) (fun h s => writePlCfg h b (s.plCfgWith h b 0) s))

/-- A write of PL_IDENT (R311). -/
def writeIdent (h : Half) (b node : Nat) (s : State) : State :=
  let key := bayKey h b
  if s.flag key Reg.PL_IDST_BUSY then s.put key Reg.PL_IDST_STATUS St.BUSY
  else
    let x := s.pipe h b
    let s1 := s.setPipe h b { x with polls := x.polls ++ [⟨true, s.timeNs, node, 7, [], 0, .waiting, 0⟩] }
    ((s1.put key Reg.PL_IDST_NODE node).put key Reg.PL_IDST_DONE 0).put key Reg.PL_IDST_BUSY 1

/-- IDENT_REQUEST (R311). -/
def execIdentRequest (m : Master) (b : Fin 64) (node : BitVec 7) (s : State) : Result :=
  .next (s.bayWrite m b (0x10000 + 0x400 * b + Reg.PL_IDENT) (fun h s => writeIdent h b node.toNat s))

/-- The values a master's commit of a custom set takes: what it has staged, else what is in force (R13, R300). -/
def State.stagedSet (s : State) (m : Master) (b i : Nat) (now : FirSet) : FirSet :=
  let at_ := fun a => tblFind s.staging (tableKey m (0x10000 + (2 * b + i) * 64 + a))
  let head := (at_ 32).getD (BitVec.ofNat 20 (now.logD * 16 + now.k))
  ⟨bits head 3 0, bits head 7 4,
    (List.range 32).foldl (fun t a => tblSet t 0 a ((at_ a).getD (tblGet now.coef 0 a))) []⟩

/-- K or log2 D of a custom set is out of range (R300). -/
def FirSet.bad (f : FirSet) : Bool := decide (f.k < 3 ∨ 5 < f.k ∨ f.logD < 1 ∨ 5 < f.logD)

/-- A commit of a custom set (R300): refused, held during a fade of that set, or applied. -/
def commitSet (h : Half) (b i : Nat) (f : FirSet) (s : State) : State :=
  let x := s.pipe h b
  if f.bad then s.put (bayKey h b) Reg.PL_CSTAT_BAD 1
  else if s.setFading h b i then s.setPipe h b (x.setCustom i { x.custom i with held := some f })
  else applySet h b i f [] s

/-- The input at the head of the queue of a copy goes through the chain; a held commit is applied at the end of a fade (R294,
R299). -/
def takeHead (h : Half) (b : Nat) (s : State) : State :=
  let x := s.pipe h b
  match x.queue with
  | i :: rest =>
    releaseHeld h b [] (takeInput h b i (s.setPipe h b ({ x with queue := rest }.refill (s.pipeStarved b))))
  | [] => s

/-- PIPELINE_INPUT (R294, R309): in each copy, the input at the head of the bay's queue, once the seat holder's governor has a
grain of PIPE for it. -/
def execPipelineInput (b : Fin 64) (s : State) : Result :=
  let h := s.viewOf b
  .next (if (s.pipe h b).queue ≠ [] ∧ s.plTakes h b = true then
    withAccess h actPipe 0 (fun s => s.onCopies (fun h s => takeHead h b s)) s
  else s)

/-- A write of PL_CCMT in one copy, with the sets as the master has staged them (R300, R318). -/
def writeCcmt (h : Half) (b : Nat) (st : Nat → FirSet → FirSet) (w : Word) (s : State) : State :=
  let put := fun i (s : State) => commitSet h b i (st i ((s.pipe h b).custom i).now) s
  let s1 := if bits w 0 0 = 1 then put 0 s else s
  if bits w 1 1 = 1 then put 1 s1 else s1

/-- What a commit of a custom set leaves of the master's staging: it goes out of it unless the commit is refused (R13, R300). -/
def unstageSet (m : Master) (b i : Nat) (now : FirSet) (s : State) : State :=
  if (s.stagedSet m b i now).bad then s
  else { s with staging := (List.range 33).foldl (fun t a => tblDel t (tableKey m (0x10000 + (2 * b + i) * 64 + a))) s.staging }

/-- A write of PL_CCMT by a master (R13, R24, R300). -/
def ccmtWrite (m : Master) (b : Nat) (w : Word) (s : State) : State :=
  let x := s.pipe (s.viewOf b) b
  let st := fun i now => s.stagedSet m b i now
  let t := s.bayWrite m b (0x10000 + 0x400 * b + Reg.PL_CCMT) (fun h s => writeCcmt h b st w s)
  if s.bayWriteOk m b then
    let t1 := if bits w 0 0 = 1 then unstageSet m b 0 (x.custom 0).now t else t
    if bits w 1 1 = 1 then unstageSet m b 1 (x.custom 1).now t1 else t1
  else t

/-- CUSTOM_SET_COMMIT (R300). -/
def execCustomSetCommit (m : Master) (b : Fin 64) (value : Word) (s : State) : Result := .next (ccmtWrite m b value s)

/-- PL_CA advances, modulo 64 (R318). -/
def advanceCa (h : Half) (b : Nat) (s : State) : State :=
  s.put (bayKey h b) Reg.PL_CA_ADDR (s.get (bayKey h b) Reg.PL_CA_ADDR + 1)

/-- A write of PL_CD by a master is staged in a custom set; elsewhere it is ignored (R13, R24, R300, R318). -/
def plCdWrite (m : Master) (b : Nat) (w : Word) (s : State) : State :=
  let h := s.viewOf b
  let set := s.get (bayKey h b) Reg.PL_CA_SET
  let a := s.get (bayKey h b) Reg.PL_CA_ADDR
  let t := s.bayWrite m b (0x10000 + 0x400 * b + Reg.PL_CD) (fun h s => advanceCa h b s)
  if s.bayWriteOk m b ∧ (set = 5 ∨ set = 6) ∧ a ≤ 32 then
    let kept := if a = 32 then setBits w 19 8 0 else w
    { t with staging := tblPut t.staging (tableKey m (0x10000 + (2 * b + (set - 5)) * 64 + a)) kept }
  else t

/-- What PL_CD reads (R318). -/
def State.plCd (s : State) (h : Half) (b : Nat) : Word :=
  let set := s.get (bayKey h b) Reg.PL_CA_SET
  let a := s.get (bayKey h b) Reg.PL_CA_ADDR
  let c := if set < 5 then s.chosen h b (set + 1) else s.chosen h b (set + 3)
  if set = 7 ∨ 32 < a then 0
  else if a = 32 then BitVec.ofNat 20 (c.logD * 16 + c.k)
  else BitVec.ofInt 20 (c.coef.getD a 0)

/-- A change of the profile's preset reaches every entry that follows it (R98, R298). -/
def retunePresets (h : Half) (s : State) : State :=
  (s.pollEntries.map Prod.fst).foldl (fun s k =>
    let b := k / 256 % 64
    let e := k % 256
    let x := s.entryOf h b e
    if k / 16384 = h.num ∧ x.path.kind ≠ 0 ∧ x.path.preset = 0 then
      let c := s.chosen h b 0
      s.setEntryOf h b e (if s.plRuns h b then x.retune c else x.rechoose c)
    else s) s

/-- A write of RG_CFG (R304): a change of TYPE, SRC or ENTRY, or a clear of EN, returns the recogniser to idle. -/
def writeRgCfg (h : Half) (b i : Nat) (w : Word) (s : State) : State :=
  let r := s.recog h b i
  let w1 := setBits w 10 8 0
  let changed := decide (bits r.cfg 18 15 ≠ bits w1 18 15) || decide (bits r.cfg 7 0 ≠ bits w1 7 0)
    || (decide (bits r.cfg 19 19 = 1) && decide (bits w1 19 19 = 0))
  s.setRecog h b i { (if changed then r.idle else r) with cfg := w1 }

/-- RECOGNISER_CONFIG_WRITE (R304): of the recogniser that RG_SEL selects. -/
def execRecogniserConfigWrite (m : Master) (b : Fin 64) (value : Word) (s : State) : Result :=
  .next (s.bayWrite m b (0x10000 + 0x400 * b + Reg.RG_CFG)
    (fun h s => writeRgCfg h b (s.get (bayKey h b) Reg.RG_SEL_SEL) value s))

/-- A write of RG_ACK (R319). -/
def writeRgAck (h : Half) (b : Nat) (w : Word) (s : State) : State :=
  let l := if bits w 6 6 = 1 then List.range 64 else [bits w 5 0]
  l.foldl (fun s i => s.setRecog h b i { s.recog h b i with pend := false }) s

/-- RECOGNISER_ACK (R319, R321). -/
def execRecogniserAck (m : Master) (b : Fin 64) (value : Word) (s : State) : Result :=
  .next (s.bayWrite m b (0x10000 + 0x400 * b + Reg.RG_ACK) (fun h s => writeRgAck h b value s))

end Sys2Proof.Machine
end

