-- ==== Sys2Proof/Machine/Engines.lean ====
section
/-! DEFINITION. The line engines (R248 to R281), and the commands of the lines and their synthesisers. A microinstruction
command executes the instruction at the engine's PC where it is of the command's kind; where the engine is not at such an
instruction the command changes nothing. -/

namespace Sys2Proof.Machine

/-! ## The program (R248, R254, R261) -/

def progIx (h : Half) (b bank a : Nat) : Nat := (bayIx h b * 2 + bank) * 256 + a % 256

def State.progWord (s : State) (h : Half) (b bank a : Nat) : BitVec 32 := tblGet s.progs 0 (progIx h b bank a)

/-- Bits [hi:lo] of an instruction. -/
def wbits (w : BitVec 32) (hi lo : Nat) : Nat := (w.toNat >>> lo) % 2 ^ (hi + 1 - lo)

/-- The instruction at the engine's PC. -/
def State.leWord (s : State) (h : Half) (b : Nat) : BitVec 32 :=
  s.progWord h b (s.engine h b).bank (s.engine h b).pc

/-- A staged register's value in force, by bay offset (R261). -/
def State.leReg (s : State) (h : Half) (b off : Nat) : Word :=
  (tblFind (s.engine h b).live off).getD (s.reg (bayKey h b + off))

/-- A field of a staged register in force. -/
def State.leGet (s : State) (h : Half) (b : Nat) (f : Fld) : Nat := bits (s.leReg h b f.addr) f.hi f.lo

/-- A staged two-word value in force (R12, R279). -/
def State.leWide (s : State) (h : Half) (b off : Nat) : BitVec 32 :=
  BitVec.ofNat 32 ((s.leReg h b off).toNat + 0x100000 * (s.leReg h b (off + 1)).toNat)

/-- Period register i in force: values below 200 act as 200 (R279). -/
def State.lePer (s : State) (h : Half) (b i : Nat) : Nat := max 200 (s.leReg h b (Reg.LE_PER + i)).toNat

/-- The CRC width: 33 to 63 act as 32 (R279). -/
def State.leW (s : State) (h : Half) (b : Nat) : Nat := min 32 (s.leGet h b Reg.LE_CRC_CFG_W)

/-- What a CRC register of the width in force holds of a value (R248). -/
def State.leCrcFit (s : State) (h : Half) (b : Nat) (v : BitVec 32) : BitVec 32 :=
  BitVec.ofNat 32 (v.toNat % 2 ^ s.leW h b)

/-- The staged writes take effect (R261). -/
def applyLe (h : Half) (b : Nat) (s : State) : State :=
  let s1 := s.setEngine h b { s.engine h b with live := [], dirty := false }
  s1.setEngine h b { s1.engine h b with crc := s1.leCrcFit h b (s1.engine h b).crc }

/-- A write of a staged register: it takes effect at once while the engine is stopped, and while it waits in IDLE, of which
every instant is a shift boundary (R250, R261). -/
def writeLeStaged (h : Half) (b off : Nat) (w : Word) (s : State) : State :=
  let x := s.engine h b
  let key := bayKey h b + off
  let s1 := s.plainWrite key w
  if x.mode = .stopped ∨ x.mode = .idle then applyLe h b s1
  else
    match tblFind x.live off with
    | some _ => s1.setEngine h b { x with dirty := true }
    | none => s1.setEngine h b { x with live := tblPut x.live off (s.reg key), dirty := true }

/-! ## Conditions and times -/

/-- BT: TREF cycles since the current bit start, saturating (R248); it reads 0 while no bit runs. -/
def State.leBt (s : State) (h : Half) (b : Nat) : Nat :=
  match (s.engine h b).bit with
  | some (t, _) => min 0xFFFFF (s.onTref - t)
  | none => 0

/-- BT has reached the running bit's period, or no bit runs. -/
def State.leBoundary (s : State) (h : Half) (b : Nat) : Bool :=
  match (s.engine h b).bit with
  | some (t, p) => decide (t + p ≤ s.onTref)
  | none => true

/-- The current entry (R254). -/
def State.leEntry (s : State) (h : Half) (b : Nat) : Option TxEntry :=
  ((s.line h b).attempt).map (s.line h b).entry

/-- The level that follows the selected edge (R254): with both edges, any level. -/
def liveLevel (pol : Nat) (level : Bool) : Bool :=
  match pol with
  | 1 => level
  | 2 => !level
  | 3 => true
  | _ => false

/-- The conditions of BR and WAIT (R254). -/
def State.leCond (s : State) (h : Half) (b c : Nat) : Bool :=
  let x := s.engine h b
  match c with
  | 0 => true
  | 1 => x.z
  | 2 => x.c
  | 3 => x.rxv
  | 4 => x.mis
  | 5 => x.stf
  | 6 => x.ste
  | 7 => decide (x.run = s.leGet h b Reg.LE_STUFF_RUN)
  | 8 => x.crcok
  | 9 => x.tmo
  | 10 => liveLevel (s.leGet h b Reg.LE_EDGE_POL) x.level
  | 11 => x.edgeF
  | 12 => x.txg
  | 13 => x.rxe
  | 14 => match s.leEntry h b with | some e => e.ar | none => false
  | 15 => x.acc
  | 16 => match s.leEntry h b with | some e => e.cpend | none => false
  | 17 => match s.leEntry h b with | some e => s.robust h b e.rate | none => false
  | _ => x.ovf

/-- COND ≠ NEG. -/
def State.leTest (s : State) (h : Half) (b : Nat) (w : BitVec 32) : Bool :=
  s.leCond h b (wbits w 27 23) != decide (wbits w 22 22 = 1)

/-! ## Faults (R257, R278) -/

/-- The encoding of an instruction is one R254 lists. -/
def leEncodingOk (w : BitVec 32) : Bool :=
  let f := wbits w
  match f 31 28 with
  | 0 => decide (f 21 8 = 0) && decide (f 27 23 ≤ 18)
  | 1 => decide (f 26 8 = 0)
  | 2 => decide (f 16 0 = 0) && decide (f 25 23 ≤ 4) && decide (f 22 21 ≤ 2)
      && (decide (f 17 17 = 0) || decide (3 ≤ f 25 23))
  | 3 => decide (f 20 16 = 0) && decide (f 27 26 ≤ 2)
  | 4 => decide (f 19 16 = 0) && decide (f 27 23 ≤ 18) && decide (f 21 20 ≤ 2)
  | 5 => decide (f 23 16 = 0) && decide (f 27 26 ≤ 2)
  | 6 => decide (f 24 16 = 0)
  | 7 => decide (f 17 16 = 0)
  | 8 => decide (f 24 8 = 0)
  | 9 => decide (f 18 0 = 0) && decide (f 23 20 ≤ 14)
  | 10 => decide (f 20 0 = 0)
  | 11 => decide (f 27 25 = 0) && decide (f 21 0 = 0)
  | 12 => decide (f 25 0 = 0) && decide (f 27 26 ≤ 2)
  | 13 => decide (f 21 16 = 0)
  | 14 => decide (f 22 0 = 0) && (decide (f 27 24 ≤ 5) || (decide (8 ≤ f 27 24) && decide (f 27 24 ≤ 11)))
  | _ => decide (f 26 7 = 0)

/-- The fault an instruction causes now (R257, R278). -/
def State.leFaultCode (s : State) (h : Half) (b : Nat) (w : BitVec 32) : Option Nat :=
  let x := s.engine h b
  let f := wbits w
  if !leEncodingOk w then some 1
  else
    match f 31 28 with
    | 1 =>
      if f 27 27 = 1 then (if x.links = [] then some 3 else none)
      else if 2 ≤ x.links.length then some 2 else none
    | 2 => if decide (f 22 21 = 2) = s.flag (bayKey h b) Reg.LE_CFG_FE then none else some 6
    | 9 => if f 27 27 = 1 ∧ (3 ≤ f 23 20 ∧ f 23 20 ≠ 7 ∧ f 23 20 ≠ 8) then some 7 else none
    | 10 => if 64 < (tblGet x.cells 0 (f 27 25)).toNat + f 24 23 + 1 then some 4 else none
    | 14 =>
      if f 27 24 ≤ 5 then (if x.attempt then none else some 5)
      else if f 27 24 = 8 then none
      else if x.assembly.isSome then none else some 5
    | 15 => if f 27 27 = 0 then some (0x80 + f 6 0) else none
    | _ => none

/-- The breakpoint stands at the PC and is tested (R262, R278). -/
def State.leBreaks (s : State) (h : Half) (b : Nat) : Bool :=
  let x := s.engine h b
  decide (x.mode = .active) && !x.skipBreak && s.flag (bayKey h b) Reg.LE_DBG_BRK_EN
    && decide (s.get (bayKey h b) Reg.LE_DBG_ADDR = x.pc)

/-- The engine executes the instruction at its PC now: it is running, or stepping from HALT, and not waiting. -/
def State.leExecutes (s : State) (h : Half) (b : Nat) : Bool :=
  let x := s.engine h b
  (decide (x.mode = .active) || (decide (x.mode = .halted) && x.stepping)) && x.waiting.isNone && !s.leBreaks h b
    && decide (s.power.mode = .run)

/-- The instruction at the PC has an opcode, and is executed without a fault. -/
def State.leAt (s : State) (h : Half) (b op : Nat) : Bool :=
  s.leExecutes h b && decide (wbits (s.leWord h b) 31 28 = op) && (s.leFaultCode h b (s.leWord h b)).isNone

/-! ## Ends and starts (R248, R257, R258, R263, R265) -/

/-- The engine goes on at an address (R254). A step from HALT ends with its one instruction (R262). -/
def leGo (h : Half) (b pc : Nat) (s : State) : State :=
  let x := s.engine h b
  s.setEngine h b
    { x with pc := pc % 256, skipBreak := false, stepping := false, waiting := none,
             mode := if x.mode = .halted then .halted else .active }

/-- The engine goes on at the next address. -/
def leNext (h : Half) (b : Nat) (s : State) : State := leGo h b ((s.engine h b).pc + 1) s

/-- The level of the output at a time (R274). -/
def Engine.levelAt (x : Engine) (t : Nat) : Bool :=
  match x.hist.find? (fun e => decide (e.1 ≤ t)) with
  | some e => e.2
  | none => false

/-- What a receive input shows: the sampled front end, or the engine's own symbols in loopback (R252, R274): a carrier only
in carrier mode, a level only in baseband mode. -/
def State.leInput (s : State) (h : Half) (b inp : Nat) (v : Bool) : Bool :=
  if s.flag (bayKey h b) Reg.LE_CFG_LOOP then
    let x := s.engine h b
    let fe := s.flag (bayKey h b) Reg.LE_CFG_FE
    match inp with
    | 0 => !fe && decide (2800 ≤ s.onTref) && x.levelAt (s.onTref - 2800)
    | 1 => decide (x.mod = 1) && decide (x.sym = some true)
    | _ => fe && decide (200 ≤ s.onTref) && x.levelAt (s.onTref - 200)
  else v

/-- The open attempt of the program fails (R231, R257, R258). -/
def leFailAttempt (h : Half) (b st : Nat) (s : State) : State :=
  let x := s.engine h b
  if x.attempt then
    let s1 := s.setEngine h b { x with attempt := false }
    settleP h b (failAttempt h b st s1)
  else s

/-- An open assembly is discarded and counted (R257, R258, R265). -/
def leDropAssembly (h : Half) (b : Nat) (s : State) : State :=
  let s1 := loseAssembly h b s
  s1.setEngine h b { s1.engine h b with assembly := none }

/-- The state of R248 at start and after an abort, at address 0 of the active bank. -/
def leClear (h : Half) (b : Nat) (s : State) : State :=
  let x := s.engine h b
  s.setEngine h b
    { Engine.reset with
      bank := x.bank, live := x.live, dirty := x.dirty, swap := x.swap, swapLate := x.swapLate, stalled := x.stalled,
      level := x.level, since := x.since, hist := x.hist, crc := s.leCrcFit h b (s.leWide h b Reg.LE_CRC_INIT),
      mode := .active }

/-- A swap takes effect: the other bank is active (R261, R263). -/
def leSwapBank (h : Half) (b : Nat) (s : State) : State :=
  let x := s.engine h b
  ((s.setEngine h b { x with bank := 1 - x.bank, swap := none, swapLate := false, stalled := 0 }).put (bayKey h b) Reg.LE_STAT_SWAPPED 1).count
    (bayKey h b + Reg.LE_CNT_SWAP) 1

/-- A pending swap takes effect now. -/
def leTakeSwap (h : Half) (b : Nat) (s : State) : State :=
  if (s.engine h b).swap.isSome then leSwapBank h b s else s

/-- The engine starts while EN and RUN are both 1 (R248). -/
def leTryStart (h : Half) (b : Nat) (s : State) : State :=
  if (s.engine h b).mode = .stopped ∧ s.flag (bayKey h b) Reg.LN_CFG_EN ∧ s.flag (bayKey h b) Reg.LE_CTL_RUN then
    leClear h b (applyLe h b s)
  else s

/-- Steps 2 and 3 of an abort (R265). -/
def leAbortCore (h : Half) (b : Nat) (s : State) : State :=
  let s1 := setOutput h b none 0 false s
  let s2 := leDropAssembly h b (leFailAttempt h b St.LINE_ABORTED s1)
  leClear h b (applyLe h b (leTakeSwap h b s2))

/-- An abort (R265). -/
def leAbort (h : Half) (b : Nat) (s : State) : State :=
  if (s.engine h b).mode = .stopped then s
  else
    raiseBayEvent h b .lineEngine
      (((leAbortCore h b s).put (bayKey h b) Reg.LE_STAT_ABORTED 1).count (bayKey h b + Reg.LE_CNT_ABORT) 1)

/-- The engine stops: the transmitter is recessive (R248). -/
def leHaltAll (h : Half) (b : Nat) (s : State) : State :=
  let s1 := setOutput h b none 0 false s
  s1.setEngine h b { s1.engine h b with mode := .stopped, bit := none, late := 0, waiting := none, stepping := false }

/-- A write of 0 to RUN: an abort, and then the engine stops (R265). -/
def leStop (h : Half) (b : Nat) (s : State) : State :=
  if (s.engine h b).mode = .stopped then s else leHaltAll h b (leAbort h b s)

/-- EN cleared: a pending swap takes effect and the engine stops (R248, R266). -/
def leDisable (h : Half) (b : Nat) (s : State) : State :=
  if (s.engine h b).mode = .stopped then s
  else
    let s1 := leDropAssembly h b (leTakeSwap h b s)
    leHaltAll h b (s1.setEngine h b { s1.engine h b with attempt := false })

/-- The engine enters FAULT (R257). A pending swap then takes effect at once (R263). -/
def leEnterFault (h : Half) (b code : Nat) (s : State) : State :=
  let pc := (s.engine h b).pc
  let s1 := leDropAssembly h b (leFailAttempt h b St.LINE_ABORTED (setOutput h b none 0 false s))
  let s2 := s1.setEngine h b { s1.engine h b with mode := .fault, waiting := none, stepping := false, bit := none, late := 0 }
  let s3 := ((s2.put (bayKey h b) Reg.LE_FAULT_CODE code).put (bayKey h b) Reg.LE_FAULT_ADDR pc).put (bayKey h b)
    Reg.LE_STAT_FAULTED 1
  raiseBayEvent h b .lineEngine (leTakeSwap h b s3)

/-! ## The microinstructions, in one copy (R254 to R259) -/

/-- A change of the engine. -/
def leUp (h : Half) (b : Nat) (f : Engine → Engine) (s : State) : State := s.setEngine h b (f (s.engine h b))

def Engine.cell (x : Engine) (i : Nat) : BitVec 16 := tblGet x.cells 0 i
def Engine.setCell (x : Engine) (i : Nat) (v : BitVec 16) : Engine := { x with cells := tblSet x.cells 0 i v }

def leBr (h : Half) (b : Nat) (s : State) : State :=
  let w := s.leWord h b
  if s.leTest h b w then leGo h b (wbits w 7 0) s else leNext h b s

def leCall (h : Half) (b : Nat) (s : State) : State :=
  let w := s.leWord h b
  let x := s.engine h b
  if wbits w 27 27 = 1 then
    match x.links with
    | a :: t => leGo h b a (s.setEngine h b { x with links := t })
    | [] => s
  else leGo h b (wbits w 7 0) (s.setEngine h b { x with links := (x.pc + 1) % 256 :: x.links })

/-- A CRC register fed with a bit (R255). -/
def State.leCrcFeed (s : State) (h : Half) (b : Nat) (crc : BitVec 32) (d : Bool) : BitVec 32 :=
  let w := s.leW h b
  let poly := s.leWide h b Reg.LE_CRC_POLY
  if w = 0 then crc
  else if s.leGet h b Reg.LE_CRC_CFG_DIR = 0 then
    let fb := crc.getLsbD (w - 1) != d
    let c := BitVec.ofNat 32 (2 * crc.toNat % 2 ^ w)
    s.leCrcFit h b (if fb then c ^^^ poly else c)
  else
    let fb := crc.getLsbD 0 != d
    let c := crc >>> 1
    s.leCrcFit h b (if fb then c ^^^ poly else c)

/-- The stuff run after a bit: a counter of 4 bits (R11, R248, R255). -/
def State.leRun (s : State) (h : Half) (b : Nat) (d : Bool) (run : Nat) : Nat :=
  if d = decide (s.leGet h b Reg.LE_STUFF_VAL = 1) then min 15 (run + 1) else 0

/-- A stuff bit is due: the run has reached its length; a length of 0 means no stuffing (R255, R279). -/
def State.leStuffDue (s : State) (h : Half) (b : Nat) (run : Nat) : Bool :=
  decide (s.leGet h b Reg.LE_STUFF_RUN ≠ 0) && decide (run = s.leGet h b Reg.LE_STUFF_RUN)

/-- The first SYM of an attempt counts as its SOF: the amplitude is taken, and a deferral is recorded (R204, R213,
R259). -/
def leSof (h : Half) (b : Nat) (on : Bool) (s : State) : State :=
  let l := s.line h b
  let s0 := if on && (s.engine h b).sym.isNone && !(s.engine h b).attempt then
      s.setLine h b { l with amp := s.amplitude h b } else s
  match (s.engine h b).attempt, l.attempt with
  | true, some e =>
    if l.sof then s
    else
      let x := l.entry e
      let us := (x.settle + x.cal) / 200
      let s1 := s.setLine h b { l with sof := true, amp := s.amplitude h b }
      if x.settle + x.cal = 0 then s1
      else
        let s2 := (s1.put (bayKey h b) Reg.LN_STAT_DEFERRED 1).setLine h b
          ((s1.line h b).setEntry e { x with deferred := true })
        ((s2.put (bayKey h b) Reg.LN_DEFER_ENTRY (if e = entryP then 0 else e)).put (bayKey h b) Reg.LN_DEFER_P
          (if e = entryP then 1 else 0)).put (bayKey h b) Reg.LN_DEFER_US (min 4095 us)
  | _, _ => s0

/-- The symbol that goes out for a raw one: a DBPSK symbol that follows OFF or an on-off 0 is the phase reference, no
reversal (R255). -/
def Engine.sends (x : Engine) (mod : Nat) (raw : Bool) : Bool :=
  raw && !(decide (mod = 1) && (x.sym.isNone || (decide (x.mod = 0) && decide (x.sym = some false))))

/-- SYM, at the shift boundary (R250, R251, R255). A bit it transmits goes into the mirror signature (R51). -/
def leSym (h : Half) (b : Nat) (s0 : State) : State :=
  if !s0.leBoundary h b then s0
  else
    let s := applyLe h b s0
    let w := s.leWord h b
    let f := wbits w
    let x := s.engine h b
    let src := f 25 23
    let stuffed := decide (f 17 17 = 1) && s.leStuffDue h b x.run
    let lsb := decide (f 19 19 = 1)
    let d := if stuffed then !decide (s.leGet h b Reg.LE_STUFF_VAL = 1)
      else if src = 1 ∨ src = 0 then false
      else if src = 2 then true
      else if lsb then x.tsr.getLsbD 0 else x.tsr.getLsbD 31
    let tsr := if !stuffed && decide (f 20 20 = 1) then (if lsb then x.tsr >>> 1 else x.tsr <<< 1) else x.tsr
    let crc := if !stuffed && decide (f 18 18 = 1) then s.leCrcFeed h b x.crc d else x.crc
    let run := if stuffed then 0 else if f 17 17 = 1 then s.leRun h b d x.run else x.run
    let raw := if src = 0 then false else if src = 4 then !d else d
    let per := s.lePer h b (f 27 26)
    let start := match x.bit with
      | some (t, p) => if x.late = 0 then t + p else s.onTref + 1
      | none => s.onTref + 1
    let s0 := if src = 0 then s else noteBit h b raw s
    let s1 := leSof h b (decide (src ≠ 0)) s0
    let s2 := leUp h b (fun x =>
      { x with tsr := tsr, crc := crc, run := run, stf := stuffed, bit := some (start, per), lastPer := per, late := 0 }) s1
    leNext h b (setOutput h b (if src = 0 then none else some (x.sends (f 22 21) raw)) (f 22 21) raw s2)

/-- SMP, at its instant (R252, R255). -/
def leSmp (h : Half) (b : Nat) (v : Bool) (s : State) : State :=
  let w := s.leWord h b
  let f := wbits w
  let x := s.engine h b
  if s.leBt h b < f 15 0 then s
  else
    let r := s.leInput h b (f 27 26) v
    let d := r != decide (f 25 25 = 1)
    let stuffed := decide (f 21 21 = 1) && s.leStuffDue h b x.run
    let lsb := decide (f 23 23 = 1)
    let rsr := if !stuffed && decide (f 24 24 = 1) then
        (if lsb then (x.rsr >>> 1) ||| (if d then 0x80000000#32 else 0) else (x.rsr <<< 1) ||| (if d then 1#32 else 0))
      else x.rsr
    let crc := if !stuffed && decide (f 22 22 = 1) then s.leCrcFeed h b x.crc d else x.crc
    let run := if stuffed then 0 else if f 21 21 = 1 then s.leRun h b d x.run else x.run
    leNext h b (leUp h b (fun x =>
      { x with rsr := rsr, crc := crc, run := run, stf := stuffed, rxv := d, mis := r != x.raw,
               ste := stuffed && decide (d = decide (s.leGet h b Reg.LE_STUFF_VAL = 1)) }) s)

/-- WAIT begins (R254). -/
def leWait (h : Half) (b : Nat) (s : State) : State := leUp h b (fun x => { x with waiting := some s.onTref }) s

/-- The WAIT at the PC has begun. -/
def State.leWaits (s : State) (h : Half) (b op : Nat) : Bool :=
  (s.engine h b).waiting.isSome && decide (wbits (s.leWord h b) 31 28 = op)

/-- WAIT ends on its condition, or on its time (R254). -/
def leWaitEnd (h : Half) (b : Nat) (s : State) : State :=
  let w := s.leWord h b
  let f := wbits w
  let x := s.engine h b
  let t := f 15 0
  let timed :=
    match f 21 20 with
    | 1 => x.bit.isSome && decide (t ≤ s.leBt h b)
    | 2 => decide (x.waiting.getD s.onTref + 200 * t ≤ s.onTref)
    | _ => false
  if s.leTest h b w then leNext h b (leUp h b (fun x => { x with tmo := false }) s)
  else if timed then leNext h b (leUp h b (fun x => { x with tmo := true }) s)
  else s

/-- ALIGN STOP (R254). -/
def leAlignStop (h : Half) (b : Nat) (s : State) : State :=
  if s.leBoundary h b then
    leNext h b (leUp h b (fun x => { x with bit := none, late := 0, edgeF := false }) (setOutput h b none 0 false s))
  else s

/-- The instant of the latest edge less LE_TSADJ (R254). -/
def State.leEdgeStart (s : State) (h : Half) (b : Nat) : Option Nat :=
  (s.engine h b).edge.map (fun e => e.1 - s.leGet h b Reg.LE_TSADJ_CYCLES)

/-- ALIGN EDGE (R254). Where there has been no edge the bit start is a free value, within the time that has passed. -/
def leAlignEdge (h : Half) (b : Nat) (s : State) : State :=
  let start := (s.leEdgeStart h b).getD (Config.noEdge s.freeCount % (s.onTref + 1))
  let per := s.lePer h b (wbits (s.leWord h b) 25 24)
  leNext h b (leUp h b (fun x => { x with bit := some (start, per), lastPer := per, late := 0, edgeF := false }) s)

/-- ALIGN SOFT (R254). -/
def leAlignSoft (h : Half) (b : Nat) (s : State) : State :=
  let m := wbits (s.leWord h b) 15 0
  leNext h b (leUp h b (fun x =>
    match x.bit, s.leEdgeStart h b with
    | some (t, p), some e =>
      { x with edgeF := false, bit := some (if e ≤ t + m ∧ t ≤ e + m then e else t, p) }
    | _, _ => { x with edgeF := false }) s)

def leLdi (h : Half) (b : Nat) (s : State) : State :=
  let w := s.leWord h b
  leNext h b (leUp h b (fun x => x.setCell (wbits w 27 25) (BitVec.ofNat 16 (wbits w 15 0))) s)

/-- ALU (R254): Z from the result, C from an add or a subtract. -/
def leAlu (h : Half) (b : Nat) (s : State) : State :=
  let f := wbits (s.leWord h b)
  leNext h b (leUp h b (fun x =>
    let a := x.cell (f 27 25)
    let y := if f 18 18 = 1 then BitVec.ofNat 16 (f 15 0) else x.cell (f 24 22)
    let r := match f 21 19 with
      | 0 => a + y
      | 1 => a - y
      | 2 => a &&& y
      | 3 => a ||| y
      | 4 => a ^^^ y
      | 5 => a <<< (y.toNat % 16)
      | 6 => a >>> (y.toNat % 16)
      | _ => y
    let c := match f 21 19 with
      | 0 => decide (0x10000 ≤ a.toNat + y.toNat)
      | 1 => decide (a.toNat < y.toNat)
      | _ => x.c
    { x.setCell (f 27 25) r with z := decide (r = 0), c := c }) s)

def leDjnz (h : Half) (b : Nat) (s : State) : State :=
  let f := wbits (s.leWord h b)
  let v := (s.engine h b).cell (f 27 25) - 1
  let s1 := leUp h b (fun x => { x.setCell (f 27 25) v with z := decide (v = 0) }) s
  if v = 0 then leNext h b s1 else leGo h b (f 7 0) s1

/-- Half of a 32-bit special. -/
def halfOf (hi : Bool) (v : BitVec 32) : BitVec 16 := if hi then BitVec.ofNat 16 (v.toNat / 65536) else BitVec.ofNat 16 v.toNat

def withHalf (hi : Bool) (v : BitVec 32) (x : BitVec 16) : BitVec 32 :=
  if hi then BitVec.ofNat 32 (x.toNat * 65536 + v.toNat % 65536)
  else BitVec.ofNat 32 (v.toNat / 65536 * 65536 + x.toNat)

/-- A special as MOV reads it (R256); the write-only ones read 0. -/
def State.leSpecial (s : State) (h : Half) (b i : Nat) (hi : Bool) : BitVec 16 :=
  let x := s.engine h b
  let part := fun (v : Nat) => if hi then BitVec.ofNat 16 (v / 65536) else BitVec.ofNat 16 v
  match i with
  | 0 => halfOf hi x.tsr
  | 1 => halfOf hi x.rsr
  | 2 => halfOf hi x.crc
  | 3 => part (s.leBt h b)
  | 4 => match x.edge with
    | some (t, _) => BitVec.ofNat 16 (min 0xFFFF (s.onTref - t))
    | none => 0xFFFF
  | 5 => match s.leEntry h b with
    | some e => BitVec.ofNat 16 e.id
    | none => 0
  | 6 => match s.leEntry h b with
    | some e => BitVec.ofNat 16 (bit e.ar 15 + bit (s.robust h b e.rate) 14 + e.len)
    | none => 0
  | 7 => 0
  | 8 => 0
  | 13 => BitVec.ofNat 16 (s.onTref / 200 + Config.usOrigin)
  | 14 => Config.random16 s.freeCount
  | _ => part (s.reg (bayKey h b + Reg.LE_ARG + (i - 9))).toNat

def leMov (h : Half) (b : Nat) (s : State) : State :=
  let f := wbits (s.leWord h b)
  let hi := decide (f 19 19 = 1)
  leNext h b (leUp h b (fun x =>
    let v := x.cell (f 26 24)
    if f 27 27 = 0 then x.setCell (f 26 24) (s.leSpecial h b (f 23 20) hi)
    else
      match f 23 20 with
      | 0 => { x with tsr := withHalf hi x.tsr v }
      | 1 => { x with rsr := withHalf hi x.rsr v }
      | 2 => { x with crc := s.leCrcFit h b (withHalf hi x.crc v) }
      | 7 => { x with assembly := x.assembly.map (fun a => { a with id := v.toNat }) }
      | _ => { x with assembly := x.assembly.map (fun a => { a with flags := v.toNat }) }) s)

/-- Byte i of the current entry's buffer; from LEN on it reads 0 (R254). -/
def State.leByte (s : State) (h : Half) (b i : Nat) : Nat :=
  match (s.line h b).attempt with
  | some e => if i < ((s.line h b).entry e).len then ((s.line h b).byte e i).toNat else 0
  | none => 0

/-- A byte access of the engine is charged to LINE on the seat holder's memory ports (R273). -/
def chargeLine (h : Half) (b : Nat) (s : State) : State :=
  if s.holder b = h then chargeAccess h (4 * actLine) s else s

def leGet (h : Half) (b : Nat) (s0 : State) : State :=
  let s := chargeLine h b s0
  let f := wbits (s.leWord h b)
  let n := f 24 23 + 1
  leNext h b (leUp h b (fun x =>
    let i := (x.cell (f 27 25)).toNat
    let v := ((List.range n).map (fun j => s.leByte h b (i + j) * 256 ^ (if f 22 22 = 1 then j else 3 - j))).sum
    let y := { x with tsr := BitVec.ofNat 32 v }
    if f 21 21 = 1 then y.setCell (f 27 25) (BitVec.ofNat 16 (i + n)) else y) s)

/-- The n oldest bytes of RSR (R254). -/
def rsrBytes (lsb : Bool) (n : Nat) (r : BitVec 32) : List Byte :=
  (List.range n).map (fun j =>
    BitVec.ofNat 8 (r.toNat / 256 ^ (if lsb then 4 - n + j else n - 1 - j)))

def lePut (h : Half) (b : Nat) (s0 : State) : State :=
  let s := chargeLine h b s0
  let f := wbits (s.leWord h b)
  leNext h b (leUp h b (fun x =>
    match x.assembly with
    | some a =>
      let l := a.bytes ++ rsrBytes (decide (f 22 22 = 1)) (f 24 23 + 1) x.rsr
      { x with assembly := some { a with bytes := l.take 64 }, ovf := x.ovf || decide (64 < l.length) }
    | none => x) s)

def leCrcInit (h : Half) (b : Nat) (s : State) : State :=
  leNext h b (leUp h b (fun x => { x with crc := s.leCrcFit h b (s.leWide h b Reg.LE_CRC_INIT) }) s)

def leCrcCheck (h : Half) (b : Nat) (s : State) : State :=
  leNext h b (leUp h b (fun x => { x with crcok := decide (x.crc = 0) }) s)

def leCrcLoad (h : Half) (b : Nat) (s : State) : State :=
  leNext h b (leUp h b (fun x =>
    { x with tsr := if s.leGet h b Reg.LE_CRC_CFG_DIR = 0 then x.crc <<< (32 - s.leW h b) else x.crc }) s)

/-- IDLE begins: what the program left open is closed, EDGE is cleared, and staged writes take effect (R250, R258,
R261). -/
def leIdle (h : Half) (b : Nat) (s : State) : State :=
  let x := s.engine h b
  let s1 := leDropAssembly h b (leFailAttempt h b St.LINE_ABORTED s)
  let s2 := if x.attempt || x.assembly.isSome then s1.put (bayKey h b) Reg.LE_STAT_NOFIN 1 else s1
  applyLe h b (leUp h b (fun x =>
    { x with edgeF := false, mute := false, hears := none, waiting := some s.onTref, mode := if x.mode = .halted then .halted else .idle }) s2)

/-- The edge detector's input has been at its idle level for the quiet time (R258). -/
def State.leQuiet (s : State) (h : Half) (b : Nat) : Bool :=
  let f := wbits (s.leWord h b)
  let x := s.engine h b
  let us := if f 25 25 = 1 then (x.cell (f 24 22)).toNat else f 15 0
  let atIdle := match s.leGet h b Reg.LE_EDGE_POL with
    | 1 => !x.level
    | 2 => x.level
    | _ => true
  atIdle && decide (x.since + 200 * us ≤ s.onTref)

/-- The entry whose turn it is: the one R230 selects, on a line that is idle as IDLE's program asks (R213). -/
def State.leTurn (s : State) (h : Half) (b : Nat) : Option Nat :=
  if s.leWaits h b 13 && decide (wbits (s.leWord h b) 27 27 = 1) && s.leQuiet h b && s.flag (bayKey h b) Reg.LN_CFG_EN
    && !s.orphaned b && decide (s.power.mode = .run) && s.power.entering.isNone
  then (s.line h b).selected else none

/-- IDLE resumes (R258); a frame that comes to its turn on a tripped line ends (R206). -/
def leIdleReturn (h : Half) (b : Nat) (s : State) : State :=
  let x := s.engine h b
  let f := wbits (s.leWord h b)
  if x.edgeF && decide (f 26 26 = 1) then leNext h b (leUp h b (fun x => { x with rxe := true, txg := false, hears := some false }) s)
  else
    match s.leTurn h b with
    | some e =>
      if s.lineTripped h b then settleP h b (endEntry h b e St.LINE_TRIPPED s)
      else if s.lockOk h b && !(s.carrier h b && (s.synth (b / 8)).gated) then
        let s1 := s.setLine h b { s.line h b with attempt := some e, sof := false, decided := false }
        leNext h b (leUp h b (fun x => { x with txg := true, rxe := false, attempt := true }) s1)
      else s
    | none => s

/-- The attempt is closed by the program; what becomes of the entry is an action of the line (R259). -/
def leCloseAttempt (h : Half) (b : Nat) (f : State → State) (s : State) : State :=
  leNext h b (settleP h b (f (leUp h b (fun x => { x with attempt := false, mute := false }) s)))

/-- FIN ARBLOST (R225, R259): the frame of the winner is received as any other. -/
def finArblost (h : Half) (b : Nat) (s : State) : State :=
  leUp h b (fun x => { x with hears := some false }) (leCloseAttempt h b (loseArbitration h b) s)

def finTxok (h : Half) (b : Nat) (s : State) : State :=
  leCloseAttempt h b (succeedAttempt h b (decide (wbits (s.leWord h b) 23 23 = 1))) s

def finDecide (h : Half) (b : Nat) (s : State) : State :=
  leNext h b (s.setLine h b { s.line h b with decided := true })

/-- The line decodes nothing: in carrier mode, from a change of frequency to LOCKED (R212). -/
def State.deaf (s : State) (h : Half) (b : Nat) : Bool :=
  s.carrier h b && (s.synth (b / 8)).deaf && !s.flag (bayKey h b) Reg.LE_CFG_LOOP

/-- FIN OPEN (R259). Of a frame that began, or was lost, while nothing is decoded the assembly is lost (R212). -/
def finOpen (h : Half) (b : Nat) (s : State) : State :=
  let lost := s.deaf h b || decide ((s.engine h b).hears = some true)
  let adj := s.leGet h b Reg.LE_TSADJ_CYCLES
  let at_ := match (s.engine h b).edge with | some e => e | none => (s.onTref, s.timeNs)
  leNext h b (leUp h b (fun x =>
    { x with ovf := false, assembly := some ⟨0, 0, [], at_.2 - 5 * adj, at_.1, lost⟩ }) s)

/-- FIN DELIVER (R212, R234, R235, R259). -/
def finDeliver (h : Half) (b : Nat) (s0 : State) : State :=
  let s := chargeLine h b s0
  match (s.engine h b).assembly with
  | none => s
  | some a =>
    let ar := decide (a.flags / 128 % 2 = 1)
    let key := bayKey h b
    let acks := ar && s.flag key Reg.LN_CFG_ACK_EN
    let s1 := leUp h b (fun x => { x with assembly := none, acc := false, hears := none }) s
    let f : RxFrame := ⟨a.id, ar, decide (a.flags / 512 % 2 = 1), acks, a.bytes, a.ts⟩
    if a.lost then leNext h b s1
    else if ar && s.cannotAck h b then leNext h b (countLine h b cntRxDrop s1)
    else
      match (if s.flag key Reg.LE_CFG_LOOP then none else takeReply h b f a.edge s1) with
      | some t => leNext h b (leUp h b (fun x => { x with acc := acks }) (countLine h b cntRxOk t))
      | none =>
        let room := decide ((s1.line h b).fifo.length < 8)
        leNext h b (leUp h b (fun x => { x with acc := acks && room }) (pushRx h b f s1))

/-- FIN BADCRC and BADFMT (R226, R259). -/
def finBad (h : Half) (b cnt : Nat) (s : State) : State :=
  let lost := match (s.engine h b).assembly with | some a => a.lost | none => false
  let s1 := leUp h b (fun x => { x with assembly := none, hears := none }) s
  leNext h b (if lost then s1 else (countLine h b cnt s1).put (bayKey h b) Reg.LN_STAT_RXERR 1)

/-- HALT with BRK, or a breakpoint reached (R262). -/
def leHaltBreak (h : Half) (b : Nat) (s : State) : State :=
  let x := s.engine h b
  if s.leBreaks h b then s.setEngine h b { x with mode := .halted }
  else
    leUp h b (fun x => { x with mode := .halted }) (leNext h b s)

/-- The instruction at the PC executed, with the sampled input it may need (R262). -/
def leAny (h : Half) (b : Nat) (v : Bool) (s : State) : State :=
  let w := s.leWord h b
  let f := wbits w
  if !s.leExecutes h b then s
  else
    match s.leFaultCode h b w with
    | some c => leEnterFault h b c s
    | none =>
      match f 31 28 with
      | 0 => leBr h b s
      | 1 => leCall h b s
      | 2 => leSym h b s
      | 3 => leSmp h b v s
      | 4 => leWait h b s
      | 5 => if f 27 26 = 0 then leAlignStop h b s else if f 27 26 = 1 then leAlignEdge h b s else leAlignSoft h b s
      | 6 => leLdi h b s
      | 7 => leAlu h b s
      | 8 => leDjnz h b s
      | 9 => leMov h b s
      | 10 => leGet h b s
      | 11 => lePut h b s
      | 12 => if f 27 26 = 0 then leCrcInit h b s else if f 27 26 = 1 then leCrcCheck h b s else leCrcLoad h b s
      | 13 => leIdle h b s
      | 14 =>
        match f 27 24 with
        | 0 => finTxok h b s
        | 1 => leCloseAttempt h b (failAttempt h b St.LINE_NOACK) s
        | 2 => finArblost h b s
        | 3 => leCloseAttempt h b (failAttempt h b St.LINE_COLLISION) s
        | 4 => leCloseAttempt h b (failAttempt h b St.LINE_ABORTED) s
        | 5 => finDecide h b s
        | 8 => finOpen h b s
        | 9 => finDeliver h b s
        | 10 => finBad h b cntRxCrc s
        | _ => finBad h b cntRxFmt s
      | _ => leHaltBreak h b s

/-! ## Commands of the engine -/

/-- An event of a bay's engine in each copy. The transmit path follows the seat when a frame has ended (R69). -/
def leEvent (b : Nat) (f : Half → State → State) (s : State) : State :=
  let t := s.onCopies f
  syncLinePath b { t with freeCount := t.freeCount + 1 }

/-- A microinstruction of an opcode, and of a test on its word, in each copy. -/
def leInstr (b op : Nat) (p : BitVec 32 → Bool) (f : Half → State → State) (s : State) : Result :=
  .next (leEvent b (fun h s => if s.leAt h b op && p (s.leWord h b) then f h s else s) s)

/-- A field of a word has a value. -/
def isField (hi lo v : Nat) (w : BitVec 32) : Bool := decide (wbits w hi lo = v)

def anyWord (_ : BitVec 32) : Bool := true

/-- LE_BR (R254). -/
def execLeBr (b : Fin 64) (s : State) : Result := leInstr b 0 anyWord (fun h => leBr h b) s

/-- LE_CALL (R254). -/
def execLeCall (b : Fin 64) (s : State) : Result := leInstr b 1 anyWord (fun h => leCall h b) s

/-- LE_SYM (R255). -/
def execLeSym (b : Fin 64) (s : State) : Result := leInstr b 2 anyWord (fun h => leSym h b) s

/-- LE_SMP (R255): the front end's decision at the sample instant comes with the command. -/
def execLeSmp (b : Fin 64) (input : Bool) (s : State) : Result := leInstr b 3 anyWord (fun h => leSmp h b input) s

/-- LE_WAIT (R254). -/
def execLeWait (b : Fin 64) (s : State) : Result := leInstr b 4 anyWord (fun h => leWait h b) s

/-- LE_WAIT_END (R254). -/
def execLeWaitEnd (b : Fin 64) (s : State) : Result :=
  .next (leEvent b (fun h s => if s.leWaits h b 4 then leWaitEnd h b s else s) s)

/-- LE_ALIGN_STOP (R254). -/
def execLeAlignStop (b : Fin 64) (s : State) : Result := leInstr b 5 (isField 27 26 0) (fun h => leAlignStop h b) s

/-- LE_ALIGN_EDGE (R254). -/
def execLeAlignEdge (b : Fin 64) (s : State) : Result := leInstr b 5 (isField 27 26 1) (fun h => leAlignEdge h b) s

/-- LE_ALIGN_SOFT (R254). -/
def execLeAlignSoft (b : Fin 64) (s : State) : Result := leInstr b 5 (isField 27 26 2) (fun h => leAlignSoft h b) s

/-- LE_LDI (R254). -/
def execLeLdi (b : Fin 64) (s : State) : Result := leInstr b 6 anyWord (fun h => leLdi h b) s

/-- LE_ALU (R254). -/
def execLeAlu (b : Fin 64) (s : State) : Result := leInstr b 7 anyWord (fun h => leAlu h b) s

/-- LE_DJNZ (R254). -/
def execLeDjnz (b : Fin 64) (s : State) : Result := leInstr b 8 anyWord (fun h => leDjnz h b) s

/-- LE_MOV (R256). -/
def execLeMov (b : Fin 64) (s : State) : Result := leInstr b 9 anyWord (fun h => leMov h b) s

/-- LE_GET (R254). -/
def execLeGet (b : Fin 64) (s : State) : Result := leInstr b 10 anyWord (fun h => leGet h b) s

/-- LE_PUT (R254). -/
def execLePut (b : Fin 64) (s : State) : Result := leInstr b 11 anyWord (fun h => lePut h b) s

/-- LE_CRC_INIT (R254). -/
def execLeCrcInit (b : Fin 64) (s : State) : Result := leInstr b 12 (isField 27 26 0) (fun h => leCrcInit h b) s

/-- LE_CRC_CHECK (R254). -/
def execLeCrcCheck (b : Fin 64) (s : State) : Result := leInstr b 12 (isField 27 26 1) (fun h => leCrcCheck h b) s

/-- LE_CRC_LOAD (R254). -/
def execLeCrcLoad (b : Fin 64) (s : State) : Result := leInstr b 12 (isField 27 26 2) (fun h => leCrcLoad h b) s

/-- LE_IDLE (R258). -/
def execLeIdle (b : Fin 64) (s : State) : Result := leInstr b 13 anyWord (fun h => leIdle h b) s

/-- LE_IDLE_RETURN (R258). -/
def execLeIdleReturn (b : Fin 64) (s : State) : Result :=
  .next (leEvent b (fun h s => if s.leWaits h b 13 then leIdleReturn h b s else s) s)

/-- FIN_TXOK (R259). -/
def execFinTxok (b : Fin 64) (s : State) : Result := leInstr b 14 (isField 27 24 0) (fun h => finTxok h b) s

/-- FIN_NOACK (R259). -/
def execFinNoack (b : Fin 64) (s : State) : Result :=
  leInstr b 14 (isField 27 24 1) (fun h => leCloseAttempt h b (failAttempt h b St.LINE_NOACK)) s

/-- FIN_ARBLOST (R259). -/
def execFinArblost (b : Fin 64) (s : State) : Result :=
  leInstr b 14 (isField 27 24 2) (fun h => finArblost h b) s

/-- FIN_COLL (R259). -/
def execFinColl (b : Fin 64) (s : State) : Result :=
  leInstr b 14 (isField 27 24 3) (fun h => leCloseAttempt h b (failAttempt h b St.LINE_COLLISION)) s

/-- FIN_TXABORT (R259). -/
def execFinTxabort (b : Fin 64) (s : State) : Result :=
  leInstr b 14 (isField 27 24 4) (fun h => leCloseAttempt h b (failAttempt h b St.LINE_ABORTED)) s

/-- FIN_DECIDE (R232). -/
def execFinDecide (b : Fin 64) (s : State) : Result := leInstr b 14 (isField 27 24 5) (fun h => finDecide h b) s

/-- FIN_OPEN (R259). -/
def execFinOpen (b : Fin 64) (s : State) : Result := leInstr b 14 (isField 27 24 8) (fun h => finOpen h b) s

/-- FIN_DELIVER (R234). -/
def execFinDeliver (b : Fin 64) (s : State) : Result := leInstr b 14 (isField 27 24 9) (fun h => finDeliver h b) s

/-- FIN_BADCRC (R259). -/
def execFinBadcrc (b : Fin 64) (s : State) : Result := leInstr b 14 (isField 27 24 10) (fun h => finBad h b cntRxCrc) s

/-- FIN_BADFMT (R259). -/
def execFinBadfmt (b : Fin 64) (s : State) : Result := leInstr b 14 (isField 27 24 11) (fun h => finBad h b cntRxFmt) s

/-- LE_HALT_BREAK (R262): HALT with BRK, or the breakpoint at the PC. -/
def execLeHaltBreak (b : Fin 64) (s : State) : Result :=
  .next (leEvent b (fun h s =>
    if s.leBreaks h b || (s.leAt h b 15 && isField 27 27 1 (s.leWord h b)) then leHaltBreak h b s else s) s)

/-- LE_FAULT (R257): the instruction at the PC causes a fault. -/
def execLeFault (b : Fin 64) (s : State) : Result :=
  .next (leEvent b (fun h s =>
    if s.leExecutes h b then
      match s.leFaultCode h b (s.leWord h b) with
      | some c => leEnterFault h b c s
      | none => s
    else s) s)

/-- The engine is late (R251): the output holds for one period, then goes OFF. A SYM or an ALIGN STOP that waits for this very
edge is in time. -/
def leLate (h : Half) (b : Nat) (s : State) : State :=
  let x := s.engine h b
  match x.bit with
  | some (t, p) =>
    let asked := s.leAt h b 2 || (s.leAt h b 5 && decide (wbits (s.leWord h b) 27 26 = 0))
    if x.late = 0 ∧ t + p ≤ s.onTref ∧ (asked = false ∨ t + p < s.onTref) then
      (s.setEngine h b { x with late := 1 }).count (bayKey h b + Reg.LE_CNT_LATE) 1
    else if x.late = 1 ∧ t + 2 * p ≤ s.onTref then
      leUp h b (fun x => { x with late := 2 }) (setOutput h b none 0 false s)
    else s
  | none => s

/-- LE_LATE (R251). -/
def execLeLate (b : Fin 64) (s : State) : Result := .next (leEvent b (fun h s => leLate h b s) s)

/-- A write of a bay register by a master, with its effect in each copy, and the transmit path after it. -/
def lineWrite (m : Master) (b : Nat) (off : Nat) (f : Half → State → State) (s : State) : State :=
  let t := s.bayWrite m b (0x10000 + 0x400 * b + off) f
  syncLinePath b { t with freeCount := t.freeCount + 1 }

/-- LE_START (R248): a write of 1 to RUN. -/
def execLeStart (m : Master) (b : Fin 64) (s : State) : Result :=
  .next (lineWrite m b Reg.LE_CTL (fun h s => leTryStart h b (s.put (bayKey h b) Reg.LE_CTL_RUN 1)) s)

/-- LE_STOP (R265): a write of 0 to RUN. -/
def execLeStop (m : Master) (b : Fin 64) (s : State) : Result :=
  .next (lineWrite m b Reg.LE_CTL (fun h s => leStop h b (s.put (bayKey h b) Reg.LE_CTL_RUN 0)) s)

/-- LE_ABORT (R265). -/
def execLeAbort (m : Master) (b : Fin 64) (s : State) : Result :=
  .next (lineWrite m b Reg.LE_CTL (fun h s => leAbort h b s) s)

/-- One instruction from HALT (R262). -/
def leStep (h : Half) (b : Nat) (v : Bool) (s : State) : State :=
  let x := s.engine h b
  if x.mode = .halted ∧ x.waiting.isNone = true then leAny h b v (s.setEngine h b { x with stepping := true }) else s

/-- LE_STEP (R262): a sample the instruction may take comes with the command. -/
def execLeStep (m : Master) (b : Fin 64) (input : Bool) (s : State) : Result :=
  .next (lineWrite m b Reg.LE_CTL (fun h s => leStep h b input s) s)

/-- HALT is left (R262). -/
def leResume (h : Half) (b : Nat) (s : State) : State :=
  let x := s.engine h b
  if x.mode = .halted then
    s.setEngine h b
      { x with mode := if x.waiting.isSome ∧ wbits (s.leWord h b) 31 28 = 13 then .idle else .active,
               skipBreak := true, stepping := false }
  else s

/-- LE_RESUME (R262). -/
def execLeResume (m : Master) (b : Fin 64) (s : State) : Result :=
  .next (lineWrite m b Reg.LE_CTL (fun h s => leResume h b s) s)

/-- A request for a swap (R263, R264). -/
def leAskSwap (h : Half) (b : Nat) (restart force : Bool) (s : State) : State :=
  let x := s.engine h b
  let key := bayKey h b
  match x.swap with
  | some (r, f) => (s.setEngine h b { x with swap := some (r, f || force) }).put key Reg.LE_SWST_STATUS St.BUSY
  | none =>
    let s1 := (s.setEngine h b { x with swap := some (restart, force), swapLate := false, stalled := 0 }).put key Reg.LE_SWST_STATUS St.OK
    match x.mode with
    | .stopped => leSwapBank h b s1
    | .fault => leSwapBank h b s1
    | _ => s1

/-- LE_SWAP (R263). -/
def execLeSwap (m : Master) (b : Fin 64) (restart force : Bool) (s : State) : Result :=
  .next (lineWrite m b Reg.LE_SWAP (fun h s => leAskSwap h b restart force s) s)

/-- The instant is a shift boundary (R250). -/
def State.leShift (s : State) (h : Half) (b : Nat) : Bool :=
  let x := s.engine h b
  decide (x.mode = .idle) || (match x.bit with | some (t, _) => decide (t = s.onTref) || decide (t = s.onTref + 1) | none => false)

/-- A swap that keeps all state takes effect: in IDLE the engine goes on waiting where the other bank's word is an IDLE too,
else it executes that word (R263). -/
def leSwapKeep (h : Half) (b : Nat) (s : State) : State :=
  let s1 := leSwapBank h b s
  let x := s1.engine h b
  if x.waiting.isSome ∧ wbits (s1.leWord h b) 31 28 ≠ wbits (s.leWord h b) 31 28 then
    s1.setEngine h b { x with waiting := none, mode := if x.mode = .idle then .active else x.mode }
  else s1

/-- A pending swap takes effect (R263). -/
def leSwapNow (h : Half) (b : Nat) (s : State) : State :=
  let x := s.engine h b
  match x.swap with
  | some (true, _) =>
    if x.mode = .idle ∧ x.attempt = false ∧ x.assembly.isNone = true then
      leClear h b (applyLe h b (leSwapBank h b s))
    else s
  | some (false, _) => if s.leShift h b then leSwapKeep h b s else s
  | none => s

/-- LE_SWAP_TAKE_EFFECT (R263). -/
def execLeSwapTakeEffect (b : Fin 64) (s : State) : Result := .next (leEvent b (fun h s => leSwapNow h b s) s)

/-- The unit of the stall count: the period of the bit running or last run, else LE_PER0 (R264). -/
def State.leUnit (s : State) (h : Half) (b : Nat) : Nat :=
  let x := s.engine h b
  if x.lastPer = 0 then s.lePer h b 0 else x.lastPer

/-- A pending swap has been stalled for 4 bit-times (R264); at a shift boundary a swap that keeps the state takes effect
(R266). -/
def leSwapLate (h : Half) (b : Nat) (s : State) : State :=
  let x := s.engine h b
  match x.swap with
  | some (r, f) =>
    if 4 * s.leUnit h b ≤ x.stalled then
      if r = false ∧ s.leShift h b = true then leSwapKeep h b s
      else
      let s1 := if x.swapLate then s
        else
          let s0 := s.setEngine h b { x with swapLate := true }
          raiseBayEvent h b .lineEngine (s0.put (bayKey h b) Reg.LE_STAT_SWAP_LATE 1)
      if f then leAbort h b (s1.put (bayKey h b) Reg.LE_STAT_FORCED 1) else s1
    else s
  | none => s

/-- LE_SWAP_LATE (R264). -/
def execLeSwapLate (b : Fin 64) (s : State) : Result := .next (leEvent b (fun h s => leSwapLate h b s) s)

/-- STALL (R262): 0 NONE, 1 COND, 2 LATE, 3 HALT. -/
def State.leStall (s : State) (h : Half) (b : Nat) : Nat :=
  let x := s.engine h b
  let w := s.leWord h b
  if x.mode = .halted then 3
  else if x.late ≠ 0 then 2
  else if s.leWaits h b 4 && decide (wbits w 21 20 = 0)
      && (match x.bit with | some (t, p) => decide (t + p < s.onTref) | none => false) then 1
  else 0

/-- The commit of an instruction word (R261, R280): not in the active bank, nor in the one a pending swap will make
active. -/
def leCommitWord (h : Half) (b : Nat) (low : Option Word) (hi : Word) (s : State) : State :=
  let x := s.engine h b
  let key := bayKey h b
  let bank := s.get key Reg.LE_PA_BANK
  let a := s.get key Reg.LE_PA_ADDR
  let lo := low.getD (BitVec.ofNat 20 (s.progWord h b bank a).toNat)
  let shut := (decide (x.mode ≠ .stopped) || decide (bank = x.bank)) && (decide (bank = x.bank) || x.swap.isSome)
  if shut then s.put key Reg.LE_STAT_BAD 1
  else
    ({ s with progs := tblSet s.progs 0 (progIx h b bank a) (BitVec.ofNat 32 (lo.toNat + 0x100000 * hi.toNat)) }).put key
      Reg.LE_PA_ADDR ((a + 1) % 256)

/-- PROGRAM_WORD_WRITE (R280): the high word of LE_PD, with the low word the master wrote before it. -/
def execProgramWordWrite (m : Master) (b : Fin 64) (hi : Word) (s : State) : Result :=
  let lo := tblFind s.staging (stageKey m (0x10000 + 0x400 * b + Reg.LE_PD_LO))
  .next (lineWrite m b Reg.LE_PD_HI (fun h s => leCommitWord h b lo hi s) (s.unstage m (0x10000 + 0x400 * b + Reg.LE_PD_LO)))

/-- A level change at the edge detector's input (R248, R252, R274). -/
def leEdge (h : Half) (b : Nat) (rise : Bool) (s : State) : State :=
  let x := s.engine h b
  let v := s.leInput h b (if s.leGet h b Reg.LE_EDGE_SRC = 0 then 0 else 2) rise
  if v = x.level then s
  else
    let y := { x with level := v, since := s.onTref }
    if edgeSelected (s.leGet h b Reg.LE_EDGE_POL) v then
      s.setEngine h b { y with edge := some (s.onTref, s.timeNs), edgeF := true }
    else s.setEngine h b y

/-- LINE_EDGE (R248). -/
def execLineEdge (b : Fin 64) (rise : Bool) (s : State) : Result := .next (s.onCopies (fun h s => leEdge h b rise s))

/-! ## Commands of the lines (R205 to R213, R229 to R243) -/

/-- LN_BLANK.BLANK times 100 µs have passed since the power slot's rise (R205). -/
def State.blankOver (s : State) (b : Nat) : Bool :=
  decide ((s.pad (s.powerSlot b)).riseAt + 20000 * s.get (padKey b) Reg.LN_BLANK_BLANK ≤ s.tref)

/-- LINE_TRIP (R206): a comparator that is not blanked. -/
def execLineTrip (b : Fin 64) (volts : Bool) (s : State) : Result :=
  .next (if volts || !s.lineBlanked.getLsbD b || s.blankOver b then
    let t := lineTrip volts b s
    t.onCopies (fun h s => settleP h b s)
  else s)

/-- LINE_BLANK_END (R205): a current still above the threshold trips. -/
def execLineBlankEnd (b : Fin 64) (above : Bool) (s : State) : Result :=
  .next (if s.lineBlanked.getLsbD b && s.blankOver b then
    let s1 := { s with lineBlanked := s.lineBlanked &&& ~~~(BitVec.twoPow 64 b) }
    if above then (lineTrip false b s1).onCopies (fun h s => settleP h b s) else s1
  else s)

/-- LINE_TRIP_CLEAR (R206): 1 written to VTRIP or ITRIP. -/
def execLineTripClear (m : Master) (b : Fin 64) (volts amps : Bool) (s : State) : Result :=
  .next (lineWrite m b Reg.LN_STAT (fun h s =>
    s.plainWrite (bayKey h b + Reg.LN_STAT) (BitVec.ofNat 20 (bit volts 1 + bit amps 2))) s)

/-- SYNTH_FREQ_WRITE (R211). -/
def execSynthFreqWrite (m : Master) (j : Fin 8) (freq : BitVec 9) (s : State) : Result :=
  .next (if s.bayWriteOk m (8 * j) then synthFreq j freq.toNat s
    else s.refuseWrite (s.masterHalf m) (0x10000 + 0x400 * (8 * j) + Reg.LS_SYN))

/-- SYNTH_CAL_REQUEST (R211). -/
def execSynthCalRequest (m : Master) (j : Fin 8) (s : State) : Result :=
  .next (if s.bayWriteOk m (8 * j) then synthCal j s
    else s.refuseWrite (s.masterHalf m) (0x10000 + 0x400 * (8 * j) + Reg.LS_SYN))

/-- SYNTH_GATE_APPLY (R211). -/
def execSynthGateApply (j : Fin 8) (s : State) : Result := .next (if s.octetQuiet j then synthApply j s else s)

/-- SYNTH_CAL_DONE (R210). -/
def execSynthCalDone (j : Fin 8) (ok : Bool) (s : State) : Result := .next (synthCalDone j ok s)

/-- SYNTH_SETTLE_DONE (R210). -/
def execSynthSettleDone (j : Fin 8) (s : State) : Result := .next (synthSettleDone j s)

/-- What entries P of an octet's lines ended with reaches the pipelines. -/
def settleOctet (j : Nat) (s : State) : State :=
  (List.range 8).foldl (fun s k => s.onCopies (fun h s => settleP h (8 * j + k) s)) s

/-- SYNTH_UNLOCK (R210). -/
def execSynthUnlock (j : Fin 8) (s : State) : Result := .next (settleOctet j (synthUnlock j s))

/-- SYNTH_RETRY (R210). -/
def execSynthRetry (j : Fin 8) (s : State) : Result := .next (synthRetry j s)

/-- LS_TEMP_UPDATE (R210). -/
def execLsTempUpdate (j : Fin 8) (now : BitVec 8) (s : State) : Result := .next (synthTemp j now.toNat s)

/-- LINE_DEFER_EXPIRY (R213): the frame at its turn has been deferred beyond a bound. -/
def execLineDeferExpiry (b : Fin 64) (s : State) : Result :=
  .next (s.onCopies (fun h s =>
    match s.leTurn h b with
    | some e =>
      let x := (s.line h b).entry e
      if 40000 < x.settle ∨ 500000 < x.cal then settleP h b (endEntry h b e St.LINE_NOLOCK s) else s
    | none => s))

/-- TRANSMIT_BUFFER_WRITE (R240). -/
def execTransmitBufferWrite (m : Master) (b : Fin 64) (value : Word) (s : State) : Result :=
  .next (lineWrite m b Reg.LN_TXD (fun h s => writeTxData h b value s) s)

/-- LINE_SUBMIT (R229). -/
def execLineSubmit (m : Master) (b : Fin 64) (id : BitVec 16) (s : State) : Result :=
  .next (lineWrite m b Reg.LN_TXID (fun h s => submit h b id.toNat s) s)

/-- LINE_CANCEL (R232). -/
def execLineCancel (m : Master) (b : Fin 64) (mask : BitVec 8) (s : State) : Result :=
  .next (lineWrite m b Reg.LN_CANCEL (fun h s => cancelMask h b mask.toNat s) s)

/-- A write of LN_CFG in one copy (R231, R238, R248). -/
def writeLnCfg (h : Half) (b : Nat) (w : Word) (s : State) : State :=
  let key := bayKey h b
  let was := s.flag key Reg.LN_CFG_EN
  let s1 := s.plainWrite (key + Reg.LN_CFG) w
  let s2 := if bits w 2 1 = 3 then s1.put key Reg.LN_STAT_BAD 1 else s1
  let now := s2.flag key Reg.LN_CFG_EN
  if now && !was then leTryStart h b s2
  else if was && !now then settleP h b (leDisable h b (endAllEntries h b St.LINE_DISABLED s2))
  else s2

/-- A write of LN_CFG by a master; the octet's synthesiser follows its lines (R209). -/
def lnCfgWrite (m : Master) (b : Nat) (w : Half → State → Word) (s : State) : State :=
  synthRun (b / 8) (lineWrite m b Reg.LN_CFG (fun h s => writeLnCfg h b (w h s) s) s)

/-- LINE_DISABLE (R231): EN is cleared. -/
def execLineDisable (m : Master) (b : Fin 64) (s : State) : Result :=
  .next (lnCfgWrite m b (fun h s => setBits (s.reg (bayKey h b + Reg.LN_CFG)) 0 0 0) s)

/-- RECEIVE_POP (R235). -/
def execReceivePop (m : Master) (b : Fin 64) (s : State) : Result :=
  .next (lineWrite m b Reg.LN_RXPOP (fun h s => popRx h b s) s)

/-- A read that advances an address register counts where its master's half holds the seat, and then in both copies
(DEDUCED, R24). -/
def State.bayRead (s : State) (m : Master) (b : Nat) (f : Half → State → State) : State :=
  if s.bayWriteOk m b then s.onCopies f else s

/-- RECEIVE_DATA_READ (R243). -/
def execReceiveDataRead (m : Master) (b : Fin 64) (s : State) : Result := .next (s.bayRead m b (fun h s => advanceRx h b s))

/-! ## The clock (R213, R264) -/

/-- A TREF cycle of a frame deferred at its turn, and of a stalled engine whose swap waits. -/
def lineTick (h : Half) (b : Nat) (s : State) : State :=
  let x := s.engine h b
  let s1 := if x.swap.isSome && decide (s.leStall h b ≠ 0) then s.setEngine h b { x with stalled := x.stalled + 1 } else s
  match s1.leTurn h b with
  | some e =>
    let l := s1.line h b
    let t := l.entry e
    if !s1.carrier h b then s1
    else
      match (s1.synth (b / 8)).mode with
      | .locked => s1
      | .settle => s1.setLine h b (l.setEntry e { t with settle := t.settle + 1 })
      | .cal => s1.setLine h b (l.setEntry e { t with cal := t.cal + 1 })
      | .stopped => if (s1.synth (b / 8)).failed then s1.setLine h b (l.setEntry e { t with cal := t.cal + 1 }) else s1
  | none => s1

end Sys2Proof.Machine
end

