-- ==== Sys2Proof/Machine/Crypto.lean ====
section
/-! DEFINITION. SHA-256 and ECDSA over P-256, which R499 names by their standards FIPS 180-4 and FIPS 186-4. -/

namespace Sys2Proof.Machine

/-! ## SHA-256 -/

abbrev W32 := BitVec 32

/-- The round constants of FIPS 180-4, the first 32 bits of the fractions of the cube roots of the first 64 primes: eight to
a row, the first one in its highest bits. -/
def shaRows : List Nat :=
  [0x428a2f9871374491b5c0fbcfe9b5dba53956c25b59f111f1923f82a4ab1c5ed5,
   0xd807aa9812835b01243185be550c7dc372be5d7480deb1fe9bdc06a7c19bf174,
   0xe49b69c1efbe47860fc19dc6240ca1cc2de92c6f4a7484aa5cb0a9dc76f988da,
   0x983e5152a831c66db00327c8bf597fc7c6e00bf3d5a7914706ca635114292967,
   0x27b70a852e1b21384d2c6dfc53380d13650a7354766a0abb81c2c92e92722c85,
   0xa2bfe8a1a81a664bc24b8b70c76c51a3d192e819d6990624f40e3585106aa070,
   0x19a4c1161e376c082748774c34b0bcb5391c0cb34ed8aa4a5b9cca4f682e6ff3,
   0x748f82ee78a5636f84c878148cc7020890befffaa4506cebbef9a3f7c67178f2]

/-- The 32-bit words of a 256-bit number, the highest first. -/
def octWords (row : Nat) : List W32 := (List.range 8).map (fun i => BitVec.ofNat 32 (row >>> (224 - 32 * i)))

def shaK : List W32 := shaRows.flatMap octWords

/-- The eight words of the hash. -/
structure ShaState where
  a : W32
  b : W32
  c : W32
  d : W32
  e : W32
  f : W32
  g : W32
  h : W32
  deriving DecidableEq, Repr

/-- The eight words of a state in a 256-bit number, a in its highest bits. -/
def ShaState.ofNat (n : Nat) : ShaState :=
  let w (i : Nat) : W32 := BitVec.ofNat 32 (n >>> (224 - 32 * i))
  ⟨w 0, w 1, w 2, w 3, w 4, w 5, w 6, w 7⟩

/-- The initial state of FIPS 180-4. -/
def shaInit : ShaState := ShaState.ofNat 0x6a09e667bb67ae853c6ef372a54ff53a510e527f9b05688c1f83d9ab5be0cd19

/-- Two rotations of a word and a third word, summed bit by bit. -/
def stir (i j : Nat) (last x : W32) : W32 := x.rotateRight i ^^^ (x.rotateRight j ^^^ last)

/-- The message schedule: sixteen words, the latest first, are extended to sixty-four. -/
def shaExtend : Nat → List W32 → List W32
  | 0, w => w
  | n + 1, w =>
    let back (i : Nat) : W32 := w.getD (i - 1) 0
    shaExtend n ((stir 17 19 (back 2 >>> 10) (back 2) + back 7 + stir 7 18 (back 15 >>> 3) (back 15) + back 16) :: w)

def shaRound (q : ShaState) (kw : W32 × W32) : ShaState :=
  let chosen := q.g ^^^ (q.e &&& (q.f ^^^ q.g))
  let most := (q.a &&& (q.b ||| q.c)) ||| (q.b &&& q.c)
  let fed := q.h + kw.1 + kw.2 + chosen + stir 6 11 (q.e.rotateRight 25) q.e
  ⟨fed + most + stir 2 13 (q.a.rotateRight 22) q.a, q.a, q.b, q.c, q.d + fed, q.e, q.f, q.g⟩

def shaBlock (q : ShaState) (w16 : List W32) : ShaState :=
  let w := (shaExtend 48 w16.reverse).reverse
  let r := (shaK.zip w).foldl shaRound q
  ⟨q.a + r.a, q.b + r.b, q.c + r.c, q.d + r.d, q.e + r.e, q.f + r.f, q.g + r.g, q.h + r.h⟩

/-- The 32-bit words of bytes. -/
def shaWords : List Byte → List W32
  | a :: b :: c :: d :: t => BitVec.ofNat 32 (fromBytes [a, b, c, d]) :: shaWords t
  | _ => []

/-- Blocks of sixteen words; the first argument bounds how many there are. -/
def shaBlocks : Nat → ShaState → List W32 → ShaState
  | 0, q, _ => q
  | n + 1, q, w => if w = [] then q else shaBlocks n (shaBlock q (w.take 16)) (w.drop 16)

def sha256 (m : List Byte) : List Byte :=
  let pad := List.replicate ((119 - m.length % 64) % 64) (0 : Byte)
  let padded := m ++ [0x80] ++ pad ++ bigEndian 8 (8 * m.length)
  let q := shaBlocks (padded.length / 64) shaInit (shaWords padded)
  [q.a, q.b, q.c, q.d, q.e, q.f, q.g, q.h].flatMap (fun x => bigEndian 4 x.toNat)

/-! ## ECDSA over P-256 -/

def p256p : Nat := 0xffffffff00000001000000000000000000000000ffffffffffffffffffffffff
def p256n : Nat := 0xffffffff00000000ffffffffffffffffbce6faada7179e84f3b9cac2fc632551
def p256b : Nat := 0x5ac635d8aa3a93e7b3ebbd55769886bc651d06b0cc53b0f63bce3c3e27d2604b
def p256gx : Nat := 0x6b17d1f2e12c4247f8bce6e563a440f277037d812deb33a0f4a13945d898c296
def p256gy : Nat := 0x4fe342e2fe1a7f9b8ee7eb4a7c0f9e162bce33576b315ececbb6406837bf51f5

/-- x to the e modulo m, over the low n bits of e. -/
def powMod (m : Nat) : Nat → Nat → Nat → Nat
  | 0, _, _ => 1 % m
  | n + 1, x, e =>
    let r := powMod m n (x * x % m) (e / 2)
    if e % 2 = 1 then x * r % m else r

/-- The inverse modulo a prime. -/
def invMod (m x : Nat) : Nat := powMod m 256 (x % m) (m - 2)

/-- a − b modulo m, for a and b below m. -/
def subMod (m a b : Nat) : Nat := (a + (m - b % m)) % m

/-- Addition of points; none is the point at infinity. -/
def ecAdd (u v : Option (Nat × Nat)) : Option (Nat × Nat) :=
  match u, v with
  | none, v => v
  | u, none => u
  | some (x1, y1), some (x2, y2) =>
    if x1 = x2 ∧ (y1 + y2) % p256p = 0 then none
    else
      let l :=
        if x1 = x2 then subMod p256p (3 * x1 * x1 % p256p) 3 * invMod p256p (2 * y1) % p256p
        else subMod p256p y2 y1 * invMod p256p (subMod p256p x2 x1) % p256p
      let x3 := subMod p256p (subMod p256p (l * l % p256p) x1) x2
      some (x3, subMod p256p (l * subMod p256p x1 x3 % p256p) y1)

/-- A multiple of a point, over the low n bits of the factor. -/
def ecMul : Nat → Nat → Option (Nat × Nat) → Option (Nat × Nat)
  | 0, _, _ => none
  | n + 1, k, q =>
    let r := ecMul n (k / 2) (ecAdd q q)
    if k % 2 = 1 then ecAdd q r else r

/-- The point lies on the curve. -/
def onCurve (x y : Nat) : Bool :=
  decide (x < p256p) && decide (y < p256p)
    && decide (y * y % p256p = subMod p256p ((x * x * x + p256b) % p256p) (3 * x % p256p))

/-- A signature of a message under a public key verifies. -/
def ecdsaValid (key sig msg : List Byte) : Bool :=
  let qx := fromBytes (key.take 32)
  let qy := fromBytes (key.drop 32)
  let r := fromBytes (sig.take 32)
  let t := fromBytes (sig.drop 32)
  if onCurve qx qy && decide (0 < r) && decide (r < p256n) && decide (0 < t) && decide (t < p256n) then
    let w := invMod p256n t
    let u1 := fromBytes (sha256 msg) * w % p256n
    let u2 := r * w % p256n
    match ecAdd (ecMul 256 u1 (some (p256gx, p256gy))) (ecMul 256 u2 (some (qx, qy))) with
    | some (x, _) => decide (x % p256n = r)
    | none => false
  else false

end Sys2Proof.Machine
end

