-- ==== Sys2Proof/Machine/Archive.lean ====
section
/-! DEFINITION. The archive controller: the ring, landing, programming, recovery, reading and replication
(R392 to R418, R706). What the NAND answers (parameter pages, passes and failures, corrections) comes with the commands. -/

namespace Sys2Proof.Machine

def State.setArchive (s : State) (a : Archive) : State := { s with archive := a }

/-- A slot is one erase block; C is the user capacity (R395). -/
def Archive.slotBytes (a : Archive) : Nat := a.pages * a.page
def Archive.cap (a : Archive) : Nat := a.map.length * a.slotBytes

/-- The slot of a position, and the start of the slot after it. -/
def Archive.slotAt (a : Archive) (p : Nat) : Nat := p % a.cap / a.slotBytes
def Archive.nextSlot (a : Archive) (p : Nat) : Nat := (p / a.slotBytes + 1) * a.slotBytes

/-- A position past the dead slots it lies in (R396, R399). -/
def Archive.passDead (a : Archive) (p : Nat) : Nat → Nat
  | 0 => p
  | n + 1 => if a.slotAt p ∈ a.dead then a.passDead (a.nextSlot p) n else p

def Archive.skip (a : Archive) (p : Nat) : Nat := a.passDead p a.map.length

/-- The controller counts one in AR_CNT, by offset from AR_CNT_BAD (R418). -/
def countArc (k n : Nat) (s : State) : State := s.count (oneKey + Reg.AR_CNT + k) n

def arcMark (f : Fld) (v : Nat) (s : State) : State := s.put oneKey f v

/-- The controller is enabled; it has reached step 3, step 5 of R404. -/
def State.arcEn (s : State) : Bool := s.flag oneKey Reg.AR_CTL_EN
def State.arcReady (s : State) : Bool := s.arcEn && s.flag oneKey Reg.AR_STAT_READY
def State.arcCommits (s : State) : Bool := s.arcEn && (s.flag oneKey Reg.AR_STAT_READY || s.flag oneKey Reg.AR_STAT_RECOVER)

/-! ## Commit (R399) -/

/-- The position a bushel of a length takes: HEAD, or the start of the next page where it does not fit (R399). -/
def Archive.place (a : Archive) (len : Nat) : Nat :=
  let h := a.skip a.head
  a.skip (if a.page < h % a.page + len then (h / a.page + 1) * a.page else h)

/-- The bushel fits: its slot is erased and the landing ring has room (R398, R399, R401). -/
def Archive.fits (a : Archive) (len : Nat) : Bool :=
  let p := a.place len
  decide (0 < a.page) && decide (p + len ≤ a.erased) && decide (p + len ≤ a.safe + 0x200000)

/-- A bushel takes its place in the ring (R399). -/
def land (half : Option Half) (bytes : List Byte) (s : State) : State :=
  let a := s.archive
  let p := a.place bytes.length
  s.setArchive { a with head := p + bytes.length, landed := a.landed ++ [⟨p, half, s.timeNs, bytes⟩] }

/-- Commits stop at a slot that holds data of an earlier lap while OVERWRITE = 0 (R401). -/
def Archive.blocked (a : Archive) (len : Nat) : Bool := decide (a.erased < a.place len + len)

/-- BUSHEL_COMMIT (R399): the oldest bushel of a half's seal queue. Where the channel lost a bushel, LOST stands first
in the first bushel after it (R338). -/
def execBushelCommit (h : Half) (s : State) : Result :=
  .next (match (s.codeHalf h).out with
    | x :: rest =>
      let k := s.chan x.chan
      let lost := if x.tko then k.lost.map (fun q => (q, k.reached)) else none
      let b := x.bytes lost
      let n := (s.archive.landed.filter (fun l => decide (l.half = some h) && decide (s.archive.prog ≤ l.pos))).length
      if s.arcCommits && decide (s.power.mode = .run) && decide (n < 128) then
        if s.archive.fits b.length then
          let s1 := s.setCodeHalf h { s.codeHalf h with out := rest }
          let s2 := s1.setChan x.chan { k with reached := x.last, lost := if x.tko then none else k.lost }
          land (some h) b s2
        else if s.archive.blocked b.length && !s.flag oneKey Reg.AR_CTL_OVERWRITE then arcMark Reg.AR_STAT_FULL 1 s
        else s
      else s
    | [] => s)

/-! ## Programming and erasing (R400, R401, R396) -/

/-- RPTR is not left behind TAIL (R408). -/
def followTail (s : State) : State :=
  let a := s.archive
  if a.rptr < a.tail then
    let s1 := s.setArchive
      { a with rptr := a.tail, sent := a.sent.filter (fun e => decide (a.tail ≤ e.1)), acked := a.acked.filter (a.tail ≤ ·) }
    if s.flag oneKey Reg.AR_REPL_EN then
      arcMark Reg.AR_STAT_REPL_LOST 1 (countArc 4 ((a.tail - a.rptr + 1023) / 1024) s1)
    else s1
  else s

/-- A slot becomes dead: its bushels are lost and every pointer passes over it (R396). -/
def killSlot (slot : Nat) (s : State) : State :=
  let a := s.archive
  let a1 := { a with
    dead := listMark a.dead slot, landed := a.landed.filter (fun l => decide (a.slotAt l.pos ≠ slot)) }
  let a2 := { a1 with head := a1.skip a1.head, prog := a1.skip a1.prog, safe := a1.skip a1.safe, erased := a1.skip a1.erased }
  arcMark Reg.AR_STAT_NOSPARE 1 (s.setArchive a2)

/-- The slot's block is retired and a spare takes the slot, or the slot becomes dead (R396). -/
def retireSlot (slot : Nat) (s : State) : State :=
  let s1 := countArc 0 1 s
  match s1.archive.spares with
  | b :: rest => s1.setArchive { s1.archive with map := listSet s1.archive.map slot b, spares := rest }
  | [] => killSlot slot s1

/-- The ONFI port is driven: the device is in RUN and the port's hold is released (R644, R652). -/
def State.nandFree (s : State) : Bool := decide (s.power.mode = .run) && !s.padHeld 3

/-- PAGE_PROGRAM (R400): the page at PROG, once HEAD has left it; not while PFAIL_N is asserted (R403). It waits for an ARCH_W
grain of the NAND bus (R402). -/
def execPageProgram (s : State) : Result :=
  let a := s.archive
  let p := a.skip a.prog
  .next (if s.arcReady && !s.power.pfail && s.nandFree && a.programming.isNone && decide (0 < a.page) && decide (p + a.page ≤ a.head) then
    withAccess (s.runner blkArchive) actArchW 2
      (fun s => s.setArchive { s.archive with prog := p, programming := some p }) s
  else s)

/-- SAFE once PROG has advanced: pages paired with a page must have passed too, or the slot's last page (R400). -/
def State.safePoint (s : State) (prog : Nat) : Nat :=
  let a := s.archive
  if s.flag oneKey Reg.AR_PAIR_MODE then
    if prog % a.slotBytes = 0 then prog
    else max (prog / a.slotBytes * a.slotBytes) (prog - max 1 (s.get oneKey Reg.AR_PAIR_DIST) * a.page)
  else prog

/-- PAGE_PROGRAM_DONE (R400, R396). -/
def execPageProgramDone (pass : Bool) (s : State) : Result :=
  let a := s.archive
  .next (match a.programming with
    | some p =>
      if pass then
        s.setArchive { a with programming := none, prog := p + a.page, safe := max a.safe (s.safePoint (p + a.page)) }
      else retireSlot (a.slotAt p) (s.setArchive { a with programming := none })
    | none => s)

/-- The slot at a position holds data of an earlier lap (R401). -/
def Archive.holdsOld (a : Archive) (p : Nat) : Bool :=
  a.landed.any (fun l => decide (p - a.cap ≤ l.pos) && decide (l.pos < p - a.cap + a.slotBytes) && decide (a.cap ≤ p))

/-- SLOT_ERASE (R401): the slot after HEAD's; TAIL moves past the data of the previous lap. -/
def execSlotErase (s : State) : Result :=
  let a := s.archive
  let p := a.skip a.erased
  .next (if s.arcReady && !s.power.pfail && s.nandFree && a.erasing.isNone && decide (0 < a.cap)
      && decide (p < a.head / a.slotBytes * a.slotBytes + 2 * a.slotBytes)
      && (s.flag oneKey Reg.AR_CTL_OVERWRITE || !a.holdsOld p) then
    let tail := max a.tail (p + a.slotBytes - a.cap)
    followTail (s.setArchive
      { a with erased := p, erasing := some p, tail := tail, landed := a.landed.filter (fun l => decide (tail ≤ l.pos)) })
  else s)

/-- SLOT_ERASE_DONE (R396, R401). -/
def execSlotEraseDone (pass : Bool) (s : State) : Result :=
  let a := s.archive
  .next (match a.erasing with
    | some p =>
      let s1 := s.setArchive { a with erasing := none }
      let s2 := if pass then s1 else retireSlot (a.slotAt p) s1
      s2.setArchive { s2.archive with erased := max s2.archive.erased (p + a.slotBytes) }
    | none => s)

/-- SLOT_REFRESH (R396): the copy of a queued slot to a spare begins; with no spare left the slot becomes dead. -/
def execSlotRefresh (s : State) : Result :=
  let a := s.archive
  .next (match a.refresh with
    | (slot, failed) :: rest =>
      if s.arcReady && !s.power.pfail && s.nandFree && a.copying.isNone then
        match a.spares with
        | b :: sp => s.setArchive { a with refresh := rest, spares := sp, copying := some (slot, failed, b) }
        | [] => killSlot slot (s.setArchive { a with refresh := rest })
      else s
    | [] => s)

/-- REFRESH_SWITCH (R396): the spare takes the slot; the old block is erased and returns to the spares, or is retired where
a codeword of it needed more than 72 corrections. -/
def execRefreshSwitch (s : State) : Result :=
  let a := s.archive
  .next (match a.copying with
    | some (slot, failed, b) =>
      let s1 := countArc 2 1 (s.setArchive
        { a with copying := none, map := listSet a.map slot b
                 spares := if failed then a.spares else a.spares ++ [a.map.getD slot 0] })
      if failed then countArc 0 1 s1 else s1
    | none => s)

/-! ## Enable, recovery, format (R393, R397, R404, R706, R412) -/

/-- The NAND is accepted (R393). -/
def nandOk (l : List NandChip) : Bool :=
  match l with
  | [] => false
  | c :: t =>
    decide (l.length ≤ 4)
      && t.all (fun d => decide (d.page = c.page) && decide (d.spare = c.spare) && decide (d.pages = c.pages) && decide (d.blocks = c.blocks))
      && (decide (c.page = 8192) || decide (c.page = 16384)) && decide (c.page / 8 ≤ c.spare)
      && decide (0 < c.pages) && decide (c.pages ≤ 4096) && decide (l.length * c.blocks ≤ 262144)

/-- The geometry in AR_GEOM (R415). -/
def showGeom (l : List NandChip) (s : State) : State :=
  match l with
  | c :: _ =>
    s.setReg (oneKey + Reg.AR_GEOM)
      (BitVec.ofNat 20 ((l.length - 1) * 0x40000 + (if c.page = 16384 then 0x20000 else 0) + (c.pages - 1)))
  | [] => s

/-- The ring's size in AR_SLOTS and AR_CAP (R415). -/
def showRing (s : State) : State :=
  (s.setReg (oneKey + Reg.AR_SLOTS) (BitVec.ofNat 20 s.archive.map.length)).setWide (oneKey + Reg.AR_CAP) 2 s.archive.cap

/-- Steps 1 to 3 of R404, or NOFMT (R706); entries without a commit word are counted. -/
def startRecovery (chips : List NandChip) (torn : Nat) (s : State) : State :=
  if nandOk chips then
    let s1 := showGeom chips (arcMark Reg.AR_STAT_GEOM_BAD 0 s)
    if s.archive.formatted then arcMark Reg.AR_STAT_RECOVER 1 (showRing (countArc 3 torn s1))
    else arcMark Reg.AR_STAT_NOFMT 1 s1
  else arcMark Reg.AR_STAT_GEOM_BAD 1 s

/-- A request ends: its outcome goes to the one that asked (R407, R417). A steward's bytes go to the runner's data memory,
two to a word; an offset found goes to ARG; a peer is answered with ADATA. -/
def answerRequest (r : ArcReq) (st : Nat) (bytes : List Byte) (found : Nat) (s : State) : State :=
  match r.src with
  | .steward _ =>
    let s1 :=
      if st ≠ St.OK then s
      else if r.op = 0 then s.setBankRun (s.runner blkArchive) r.dst (packBytes bytes)
      else s.setWide (oneKey + Reg.AR_REQ_ARG) 2 found
    ((s1.put oneKey Reg.AR_REQ_ST_STATUS st).put oneKey Reg.AR_REQ_ST_DONE 1).put oneKey Reg.AR_REQ_ST_BUSY 0
  | .port p =>
    s.setPort p
      { s.port p with
        result := some (st, if st ≠ St.OK then [] else if r.op = 0 then bytes else bigEndian 5 found) }
  | .peer addr rid =>
    sendTo 9 3 addr rid
      (bigEndian 1 st ++ (if st ≠ St.OK then [] else if r.op = 0 then bytes else bigEndian 8 found)) s

/-- Every request that waits ends with a status. -/
def dropRequests (keep : ArcReq → Bool) (st : Nat) (s : State) : State :=
  let rs := s.archive.requests
  let s1 := s.setArchive { s.archive with requests := rs.filter keep }
  (rs.filter (fun r => !keep r)).foldl (fun s r => answerRequest r st [] 0 s) s1

/-- Clearing EN (R412). -/
def stopArchive (s : State) : State :=
  let s1 := dropRequests (fun _ => false) St.ARC_NOTREADY s
  let s2 := arcMark Reg.AR_STAT_READY 0 (arcMark Reg.AR_STAT_RECOVER 0 (arcMark Reg.AR_STAT_NOFMT 0 (arcMark Reg.AR_STAT_FULL 0 s1)))
  s2.setArchive { s2.archive with sent := [], acked := [] }

/-- A write of AR_CTL (R412): MAXMODE and OVERWRITE change only while EN = 0. -/
def writeArcCtl (w : Word) (s : State) : State :=
  let old := s.reg (oneKey + Reg.AR_CTL)
  let en := s.arcEn
  let differs := decide (bits w 5 1 ≠ bits old 5 1)
  let w1 := if en then setBits w 5 1 (bits old 5 1) else w
  let s1 := s.plainWrite (oneKey + Reg.AR_CTL) w1
  let s2 := if en && differs then arcMark Reg.AR_STAT_BAD 1 s1 else s1
  if en && !s2.arcEn then stopArchive s2 else s2

/-- A write of AR_PAIR (R400): a setting with (D + 1) × P above 1 MiB is refused. -/
def writeArcPair (w : Word) (s : State) : State :=
  let d := max 1 (bits w 7 0)
  if bits w 8 8 = 1 ∧ 0x100000 < (d + 1) * s.archive.page then arcMark Reg.AR_STAT_BAD 1 s
  else s.plainWrite (oneKey + Reg.AR_PAIR) w

/-- ARCHIVE_ENABLE (R404, R706): EN is set, and the parameter pages are read. -/
def execArchiveEnable (m : Master) (chips : List NandChip) (torn : Nat) (s : State) : Result :=
  .next (s.blockWrite m blkArchive Reg.AR_CTL (fun s =>
    let s1 := s.put oneKey Reg.AR_CTL_EN 1
    if s1.flag oneKey Reg.AR_STAT_READY || s1.flag oneKey Reg.AR_STAT_RECOVER || s1.flag oneKey Reg.AR_STAT_NOFMT then s1
    else startRecovery chips torn s1))

/-- ARCHIVE_RECOVERY_DONE (R404 steps 4 and 5): the pages from SAFE to the last one recorded are read back; the first
page that is not good, if there is one, is counted from SAFE. -/
def execArchiveRecoveryDone (firstBad : Option Nat) (s : State) : Result :=
  let a := s.archive
  .next (if s.arcEn && s.flag oneKey Reg.AR_STAT_RECOVER then
    let last := match a.programming with | some p => p + a.page | none => a.prog
    let s1 := match firstBad with
      | some n =>
        let p := a.safe + n * a.page
        if p < last then retireSlot (a.slotAt p) (s.setArchive { a with programming := none, prog := p })
        else s.setArchive { a with programming := none, prog := last }
      | none => s.setArchive { a with programming := none, prog := last }
    arcMark Reg.AR_STAT_READY 1 (arcMark Reg.AR_STAT_RECOVER 0 s1)
  else s)

/-- ARCHIVE_DISABLE (R412). -/
def execArchiveDisable (m : Master) (s : State) : Result :=
  .next (s.blockWrite m blkArchive Reg.AR_CTL (fun s => if s.arcEn then stopArchive (s.put oneKey Reg.AR_CTL_EN 0) else s))

/-- A write of AR_FMT (R397): the key starts a format while EN = 0; any other write is ignored. -/
def writeArcFmt (w : Word) (s : State) : State :=
  if w = 0x0A4C5#20 ∧ s.arcEn = false then arcMark Reg.AR_STAT_FORMAT 1 s else s

/-- ARCHIVE_FORMAT (R397). -/
def execArchiveFormat (m : Master) (key : Word) (s : State) : Result :=
  .next (s.blockWrite m blkArchive Reg.AR_FMT (writeArcFmt key))

/-- The good blocks in ring order: block 0 of each chip enable in turn, then block 1, and so on (R395). A block is
numbered chip enable × 2^18 + block. -/
def goodBlocks (l : List NandChip) : List Nat :=
  let n := match l with | c :: _ => c.blocks | [] => 0
  (List.range n).flatMap (fun b => l.zipIdx.filterMap (fun e => if b ∈ e.1.bad then none else some (e.2 * 0x40000 + b)))

/-- The ring a format builds (R395, R397). -/
def Archive.build (l : List NandChip) (spares : Nat) : Archive :=
  let good := goodBlocks l
  let page := match l with | c :: _ => c.page | [] => 0
  let pages := match l with | c :: _ => c.pages | [] => 0
  let n := min (good.length - spares) (2 ^ 40 / (pages * page))
  { Archive.reset with
    formatted := true, ces := l.length, page := page, pages := pages, map := good.take n, spares := good.drop n,
    erased := n * (pages * page) }

/-- ARCHIVE_FORMAT_DONE (R397). -/
def execArchiveFormatDone (chips : List NandChip) (s : State) : Result :=
  .next (if s.flag oneKey Reg.AR_STAT_FORMAT then
    let s1 := arcMark Reg.AR_STAT_FORMAT 0 s
    if nandOk chips then
      let a := Archive.build chips (s.get oneKey Reg.AR_CFG0_SPARES)
      showRing (showGeom chips (countArc 0 (chips.map (fun c => c.bad.length)).sum
        (arcMark Reg.AR_STAT_GEOM_BAD 0 (s1.setArchive a))))
    else arcMark Reg.AR_STAT_GEOM_BAD 1 s1
  else s)

/-! ## Reading (R406, R407) -/

/-- The position of a ring offset in the readable range (R406). -/
def Archive.posOf (a : Archive) (off : Nat) : Option Nat :=
  if off < a.cap then
    let p := a.tail + (off + a.cap - a.tail % a.cap) % a.cap
    if p < a.head ∧ a.slotAt p ∉ a.dead then some p else none
  else none

/-- The byte at a position: of the bushel that covers it, or 0x00 where bytes were skipped (R399). -/
def Archive.byteAt (a : Archive) (p : Nat) : Byte :=
  match a.landed.find? (fun l => decide (l.pos ≤ p) && decide (p < l.pos + l.bytes.length)) with
  | some l => l.bytes.getD (p - l.pos) 0
  | none => 0

/-- The bytes from a ring offset on, where all lie in the readable range (R407). -/
def Archive.read (a : Archive) (off len : Nat) : Option (Nat × List Byte) :=
  match a.posOf off with
  | some p =>
    if p + len ≤ a.head ∧ off + len ≤ a.cap ∧ a.slotAt (p + len - 1) ∉ a.dead then
      some (p, (List.range len).map (fun i => a.byteAt (p + i)))
    else none
  | none => none

/-- CHAN, UID and T0 of a bushel (R327). -/
def bushelChan (b : List Byte) : Nat := payloadField b 6 2
def bushelUid (b : List Byte) : Nat := payloadField b 8 8
def bushelT0 (b : List Byte) : Nat := payloadField b 20 8 % 2 ^ 60

/-- The UID of an origin index: 0 is this device (R410). -/
def Archive.originUid (a : Archive) (i : Nat) : Option Nat :=
  if i = 0 then some ownUid else (tblFind a.origins i).map Origin.uid

/-- The first bushel in a page at or after a position, for each page with one: the page records (R394). -/
def Archive.firstPage (a : Archive) (t : Nat) : Option Nat :=
  ((a.landed.filter (fun l =>
      !a.landed.any (fun m => decide (m.pos / a.page = l.pos / a.page) && decide (m.pos < l.pos)))).find?
    (fun l => decide (t ≤ l.ts))).map (fun l => l.pos / a.page)

/-- FIND (R407). -/
def State.arcFind (s : State) (chan origin t : Nat) : Option Nat :=
  let a := s.archive
  let from_ := t - s.get oneKey Reg.AR_CFG1_BACK * 1000000000
  match a.originUid origin, a.firstPage from_ with
  | some u, some pg =>
    (a.landed.find? (fun l =>
      decide (pg ≤ l.pos / a.page) && decide (l.pos / a.page < pg + max 1 (s.get oneKey Reg.AR_CFG1_SCAN))
        && decide (bushelChan l.bytes = chan) && decide (bushelUid l.bytes = u) && decide (from_ ≤ bushelT0 l.bytes))).map
      (fun l => l.pos % a.cap)
  | _, _ => none

/-- MAGIC, VER, LEN and SEAL of a bushel are as stated (R327, R328). -/
def bushelOk (b : List Byte) : Bool :=
  decide (payloadField b 0 2 = 0xB54C) && decide (payloadField b 2 1 = 1) && decide (payloadField b 4 2 = b.length)
    && decide (48 ≤ b.length) && decide (b.length ≤ 4096)
    && decide (payloadField b (b.length - 4) 4 = crc32 (b.take (b.length - 4)))

/-- NEXT, from the position of a bushel (R407). -/
def State.arcNext (s : State) (p origin : Nat) : Option Nat :=
  let a := s.archive
  match a.originUid origin, a.landed.find? (fun l => decide (l.pos = p) && bushelOk l.bytes) with
  | some _, some x =>
    (a.landed.find? (fun l =>
      decide (p < l.pos) && decide (l.pos / a.page < p / a.page + max 1 (s.get oneKey Reg.AR_CFG1_SCAN))
        && decide (bushelChan l.bytes = bushelChan x.bytes) && decide (bushelUid l.bytes = bushelUid x.bytes))).map
      (fun l => l.pos % a.cap)
  | _, _ => none

/-- A read of the NAND met a codeword with this many corrections (R394). -/
def meetCodeword (slot corr : Nat) (s : State) : State :=
  let s1 := if 72 < corr then arcMark Reg.AR_STAT_ECC 1 (countArc 1 1 s) else s
  if s.get oneKey Reg.AR_CFG0_REFRESH < corr then
    s1.setArchive { s1.archive with refresh := listMark s1.archive.refresh (slot, decide (72 < corr)) }
  else s1

/-- An operation reads the NAND: a READ or a NEXT at bytes that have left the landing ring, a FIND once any have (R407). -/
def State.usesNand (s : State) (op arg : Nat) : Bool :=
  let a := s.archive
  if op = 1 then decide (a.tail < a.safe)
  else match a.posOf arg with
    | some p => decide (p < a.safe)
    | none => false

/-- The outcome of an operation: status, bytes, offset found, and the state after what the read met. The corrections
count only where bytes come from NAND. -/
def serveArchive (op arg parm origin corr : Nat) (s : State) : Nat × List Byte × Nat × State :=
  let a := s.archive
  if !s.arcEn then (St.ARC_NOTREADY, [], 0, s)
  else if op = 0 then
    match a.read arg (parm + 1) with
    | none => (if s.arcReady then St.ARC_RANGE else St.ARC_NOTREADY, [], 0, s)
    | some (p, b) =>
      if a.safe ≤ p then (St.OK, b, 0, s)
      else if !s.arcReady then (St.ARC_NOTREADY, [], 0, s)
      else
        let s1 := meetCodeword (a.slotAt p) corr s
        if 72 < corr then (St.ARC_ECC, [], 0, s1) else (St.OK, b, 0, s1)
  else if !s.arcReady then (St.ARC_NOTREADY, [], 0, s)
  else if op = 1 then
    let pg := (a.firstPage (arg - s.get oneKey Reg.AR_CFG1_BACK * 1000000000)).getD (a.tail / max 1 a.page)
    let s1 := if s.usesNand op arg then meetCodeword (a.slotAt (pg * a.page)) corr s else s
    if 72 < corr ∧ s.usesNand op arg then (St.ARC_ECC, [], 0, s1)
    else
      match s.arcFind parm origin arg with
      | some o => (St.OK, [], o, s1)
      | none => (St.ARC_NOTFOUND, [], 0, s1)
  else
    match a.posOf arg with
    | none => (St.ARC_RANGE, [], 0, s)
    | some p =>
      let s1 := if s.usesNand op arg then meetCodeword (a.slotAt p) corr s else s
      if 72 < corr ∧ s.usesNand op arg then (St.ARC_ECC, [], 0, s1)
      else
        match s.arcNext p origin with
        | some o => (St.OK, [], o, s1)
        | none => (St.ARC_NOTFOUND, [], 0, s1)

/-- A steward's request is refused, or ends at once, with a status (R417). -/
def refuseRequest (st : Nat) (s : State) : State :=
  (s.put oneKey Reg.AR_REQ_ST_STATUS st).put oneKey Reg.AR_REQ_ST_DONE 1

/-- A write of 0x4_0023 (R417). -/
def writeArcOp (h : Half) (w : Word) (s : State) : State :=
  let op := bits w 19 18
  let parm := bits w 14 0
  let origin := (s.reg (oneKey + Reg.AR_REQ_ORIGIN)).toNat
  let lo := s.wide (oneKey + Reg.AR_REQ_ARG) 2
  let hi := (s.reg (oneKey + Reg.AR_REQ_TIME)).toNat
  if s.flag oneKey Reg.AR_REQ_ST_BUSY then s.put oneKey Reg.AR_REQ_ST_STATUS St.BUSY
  else if op = 3 ∨ (op = 0 ∧ 4095 < parm) ∨ (op ≠ 0 ∧ 4 < origin) then refuseRequest St.BAD_PARAM s
  else if !s.arcCommits then refuseRequest St.ARC_NOTREADY s
  else
    let r : ArcReq :=
      ⟨.steward h, op, if op = 1 then (lo + 2 ^ 40 * hi) % 2 ^ 60 else lo, parm, origin,
        (s.reg (oneKey + Reg.AR_REQ_DST)).toNat⟩
    ((s.setArchive { s.archive with requests := s.archive.requests ++ [r] }).put oneKey Reg.AR_REQ_ST_BUSY 1).put oneKey
      Reg.AR_REQ_ST_DONE 0

/-- A request of a master's half (R407, R417). -/
def askArchive (m : Master) (w : Word) (s : State) : State :=
  s.blockWrite m blkArchive Reg.AR_REQ_OP (writeArcOp (s.masterHalf m) w) 

/-- ARCHIVE_READ (R407). -/
def execArchiveRead (m : Master) (parm : BitVec 15) (s : State) : Result :=
  .next (askArchive m (BitVec.ofNat 20 parm.toNat) s)

/-- ARCHIVE_FIND (R407). -/
def execArchiveFind (m : Master) (parm : BitVec 15) (s : State) : Result :=
  .next (askArchive m (BitVec.ofNat 20 (0x40000 + parm.toNat)) s)

/-- ARCHIVE_NEXT (R407). -/
def execArchiveNext (m : Master) (s : State) : Result := .next (askArchive m 0x80000 s)

/-- The request being served ends. -/
def serveRequest (r : ArcReq) (rest : List ArcReq) (corr : Nat) (s : State) : State :=
  let o := serveArchive r.op r.arg r.parm r.origin corr (s.setArchive { s.archive with requests := rest })
  answerRequest r o.1 o.2.1 o.2.2.1 o.2.2.2

/-- ARCHIVE_REQUEST_DONE (R407, R417): the request being served ends; the most corrections a codeword read for it needed
come with the command. It is charged to ARCH_R of the runner: on the NAND bus where it reads the NAND, else on the memory (R402,
R407). -/
def execArchiveRequestDone (corr : Nat) (s : State) : Result :=
  .next (match s.archive.requests with
    | r :: rest =>
      let nand := s.usesNand r.op r.arg
      if decide (s.power.mode = .run) && (s.nandFree || !nand) then
        withAccess (s.runner blkArchive) actArchR (if nand then 2 else 0) (serveRequest r rest corr) s
      else s
    | [] => s)

/-- A move of the controller's run-owner latch ends the old runner's stewards' requests (R411). -/
def archiveMoved (old : Half) (s : State) : State :=
  dropRequests (fun r => decide (r.src ≠ .steward old)) St.TAKEOVER s

/-! ## Replicas (R408 to R410) -/

/-- A replica packet: LAP and offset, 8 bytes each, before the bushel; the TAG is the position's low 32 bits
(DESIGN CHOICE: the spec gives REPL no layout). -/
def sendReplica (x : Landed) (s : State) : State :=
  let a := s.archive
  let dst := s.get oneKey Reg.AR_REPL_ADDR
  match s.nextHop dst with
  | some l =>
    if s.ownAddr.isSome then
      egress l ⟨10, 64, 3, BitVec.ofNat 12 dst, s.srcAddr, BitVec.ofNat 32 x.pos,
        bigEndian 8 (x.pos / a.cap) ++ bigEndian 8 (x.pos % a.cap) ++ x.bytes⟩ s
    else s
  | none => s

/-- Replication runs (R408, R409). -/
def State.replicates (s : State) : Bool := s.arcReady && s.flag oneKey Reg.AR_REPL_EN && !s.archive.stalled

/-- A bushel is sent to the partner, with a FAB_TX grain (R408). -/
def sendCharged (x : Landed) (sent : List (Nat × Nat)) (s : State) : State :=
  withAccess (s.runner blkFabric) actFabTx 3
    (fun s => sendReplica x (s.setArchive { s.archive with sent := sent })) s

/-- REPLICA_SEND (R408): the first bushel from RPTR on that has not been sent. -/
def execReplicaSend (s : State) : Result :=
  let a := s.archive
  .next (match a.landed.find? (fun l =>
      decide (a.rptr ≤ l.pos) && a.sent.all (fun e => decide (e.1 < l.pos)) && a.acked.all (fun p => decide (p < l.pos))) with
    | some x =>
      if s.replicates && decide (a.sent.length < 16) then sendCharged x (a.sent ++ [(x.pos, s.tref)]) s else s
    | none => s)

/-- REPLICA_RESEND (R408): the first bushel whose latest sending is 50 ms old. -/
def execReplicaResend (s : State) : Result :=
  let a := s.archive
  .next (match a.sent.find? (fun e => decide (e.2 + 10000000 ≤ s.tref)) with
    | some (p, _) =>
      match a.landed.find? (fun l => decide (l.pos = p)) with
      | some x =>
        if s.replicates then sendCharged x (a.sent.map (fun e => if e.1 = p then (p, s.tref) else e)) s else s
      | none => s
    | none => s)

/-- RPTR once replicas have been acknowledged: the first bushel from it on that has not (R408). -/
def Archive.firstUnacked (a : Archive) (acked : List Nat) : Nat :=
  ((a.landed.find? (fun l => decide (a.rptr ≤ l.pos) && !acked.contains l.pos)).map Landed.pos).getD a.head

/-- RACK_RECEIVED (R408, R409). -/
def execRackReceived (l : Fin 8) (lap off : Nat) (ok : Bool) (s : State) : Result :=
  let a := s.archive
  let p := lap * a.cap + off
  .next (if (s.link l).mode = .up then
    if ok then
      if a.sent.any (fun e => decide (e.1 = p)) then
        let acked := a.acked ++ [p]
        let next := a.firstUnacked acked
        s.setArchive
          { a with sent := a.sent.filter (fun e => decide (e.1 ≠ p)), rptr := next, acked := acked.filter (fun q => decide (next ≤ q)) }
      else s
    else arcMark Reg.AR_STAT_REPL_STALL 1 (s.setArchive { a with stalled := true, sent := [], acked := [] })
  else s)

/-- The origin index of a UID, or the lowest free one (R410). -/
def Archive.originIx (a : Archive) (uid : Nat) : Option Nat :=
  match a.origins.find? (fun e => decide (e.2.uid = uid)) with
  | some e => some e.1
  | none => [1, 2, 3, 4].find? (fun i => decide ((tblFind a.origins i).isNone))

/-- A replica acknowledgement (R409); its layout is the model's (DESIGN CHOICE). -/
def sendRack (dst st lap off : Nat) (s : State) : State :=
  sendTo 11 2 dst 0 (bigEndian 1 st ++ bigEndian 8 lap ++ bigEndian 8 off) s

/-- REPL_RECEIVED (R409, R410): the position the replica has at its origin comes with it. -/
def execReplReceived (l : Fin 8) (p : Packet) (lap off : Nat) (s : State) : Result :=
  if p.wf && decide (p.kind = 10) && decide (60 ≤ p.payload.length) then
    .next (received l p (fun s =>
      if s.isFor p then
        let b := p.payload.drop 16
        let uid := bushelUid b
        let a := s.archive
        match s.flag oneKey Reg.AR_REPL_ACCEPT, a.originIx uid with
        | true, some i =>
          let old := match tblFind a.origins i with
            | some o => decide (o.uid = uid) && (decide (lap < o.lap) || (decide (lap = o.lap) && decide (off ≤ o.off)))
            | none => false
          if old then sendRack p.src.toNat St.OK lap off s
          else if s.arcCommits && a.fits b.length then
            let s1 := land none b (chargeAccess (s.runner blkArchive) (4 * actArchW) s)
            sendRack p.src.toNat St.OK lap off
              (s1.setArchive { s1.archive with origins := tblPut s1.archive.origins i ⟨uid, p.src.toNat, lap, off⟩ })
          else s
        | _, _ => sendRack p.src.toNat St.ARC_REPL_REFUSED lap off s
      else forward p s) s)
  else .fault .illFormed

/-- A write of AR_ORIG_FREE (R410). -/
def writeOrigFree (w : Word) (s : State) : State :=
  let i := bits w 2 0
  if 1 ≤ i ∧ i ≤ 4 then s.setArchive { s.archive with origins := tblDel s.archive.origins i } else s

/-- ORIGIN_FREE (R410). -/
def execOriginFree (m : Master) (value : Word) (s : State) : Result :=
  .next (s.blockWrite m blkArchive Reg.AR_ORIG_FREE (writeOrigFree value))

/-- A write of AR_REPL (R416): replication set going again is no longer stalled (DEDUCED, R409). -/
def writeArcRepl (w : Word) (s : State) : State :=
  let s1 := s.plainWrite (oneKey + Reg.AR_REPL) w
  if s.flag oneKey Reg.AR_REPL_EN then s1
  else s1.setArchive { s1.archive with stalled := false }

end Sys2Proof.Machine
end

