-- ==== Sys2Proof/Machine/Routed.lean ====
section
/-! DEFINITION. Commands and archive requests that cross the fabric (R447, R448, R600), and the replies they get. -/

namespace Sys2Proof.Machine

/-- A command packet read from its bytes (R586). -/
def parseCmd (origin : Option (Nat × Nat)) (b : List Byte) : Option Cmd :=
  let len := payloadField b 2 2
  let n := len % 4096
  if 6 ≤ b.length ∧ b.length = 6 + n ∧ len / 4096 % 8 = 0 ∧ n ≤ 4090 then
    some ⟨payloadField b 0 1, payloadField b 1 1, decide (0x8000 ≤ len), (b.drop 4).take n, origin⟩
  else none

/-- Bytes with the CRC of R587 after them. -/
def withCrc16 (b : List Byte) : List Byte := b ++ bigEndian 2 (crc16 b)

/-- A packet of the layout of R586. -/
def packetOf (op tag : Nat) (routed : Bool) (params : List Byte) : List Byte :=
  withCrc16 (bigEndian 1 op ++ bigEndian 1 tag
    ++ bigEndian 2 (params.length + (if routed then 0x8000 else 0)) ++ params)

/-- The bytes of a command as taken. -/
def cmdBytes (c : Cmd) : List Byte := packetOf c.op c.tag c.routed c.params

/-- The reply to a command: the target's address where it was routed, the status, the results (R592, R600). -/
def replyBytes (c : Cmd) (st : Nat) (res : List Byte) : List Byte :=
  packetOf c.op c.tag c.routed ((if c.routed then c.params.take 2 else []) ++ bigEndian 1 st ++ res)

/-- A reply placed in a port's reply queue. -/
def putReply (p : Nat) (b : List Byte) (s : State) : State :=
  s.setPort p { s.port p with replies := (s.port p).replies ++ [b] }

/-- A command is answered: in its port's reply queue, or with a REPLY to its origin (R447, R594). -/
def answerCmd (p : Nat) (c : Cmd) (st : Nat) (res : List Byte) (s : State) : State :=
  match c.origin with
  | some (a, t) => sendTo 7 2 a t (replyBytes c st res) s
  | none => putReply p (replyBytes c st res) s

/-- The opcodes of the envelope commands (R610, R617). -/
def isEnvelopeOp (op : Nat) : Bool := decide (0x70 ≤ op) && decide (op ≤ 0x7A)

/-- A routed command at its target (R447, R600): answered at once where it is not taken, else queued. -/
def takeRouted (c : Cmd) (s : State) : State :=
  let q := s.port 2
  let a := payloadField c.params 0 2 % 4096
  if !s.flag oneKey Reg.FAB_CTL_RCMD then answerCmd 2 c St.FAB_REFUSED [] s
  else if s.ownAddr ≠ some a then answerCmd 2 c St.FAB_UNREACHABLE [] s
  else if 16 ≤ q.queue.length then answerCmd 2 c St.QUEUE_FULL [] s
  else s.setPort 2 { q with queue := q.queue ++ [c] }

/-- A unicast packet that an UP link has received: taken by its destination, else forwarded (R426). -/
def atTarget (l : Nat) (p : Packet) (f : State → State) (s : State) : State :=
  received l p (fun s => if s.isFor p then f s else forward p s) s

/-- CMD_RECEIVED (R447, R600). -/
def execCmdReceived (l : Fin 8) (p : Packet) (s : State) : Result :=
  if p.wf && decide (p.kind = 6) then
    .next (atTarget l p (fun s =>
      match parseCmd (some (p.src.toNat, p.tag.toNat)) p.payload with
      | some c => if c.routed && decide (2 ≤ c.params.length) then takeRouted c s else s
      | none => s) s)
  else .fault .illFormed

/-- The routed command of a port whose packet has a TAG. -/
def Port.outstanding (x : Port) (tag : Nat) : Option (Cmd × Nat × Nat) :=
  x.routed.find? (fun e => decide (e.2.1 = tag))

/-- A port's routed command is answered with these bytes (R447). -/
def endRouted (p tag : Nat) (b : List Byte) (s : State) : State :=
  let x := s.port p
  putReply p b (s.setPort p { x with routed := x.routed.filter (fun e => decide (e.2.1 ≠ tag)) })

/-- REPLY_RECEIVED (R447): placed as it came; one that comes late is discarded and counted. -/
def execReplyReceived (l : Fin 8) (p : Packet) (s : State) : Result :=
  if p.wf && decide (p.kind = 7) then
    .next (atTarget l p (fun s =>
      if ((s.port 0).outstanding p.tag.toNat).isSome then endRouted 0 p.tag.toNat p.payload s
      else if ((s.port 1).outstanding p.tag.toNat).isSome then endRouted 1 p.tag.toNat p.payload s
      else countFab 5 s) s)
  else .fault .illFormed

/-- A port's routed command ends at its origin with a status (R447, R600). -/
def failRouted (p tag st : Nat) (s : State) : State :=
  match (s.port p).outstanding tag with
  | some (c, _, _) => endRouted p tag (replyBytes c st []) s
  | none => s

/-- AREQ_RECEIVED (R407, R448): a peer's READ, FIND or NEXT, with the parameters of R417. -/
def execAreqReceived (l : Fin 8) (p : Packet) (op : Fin 3) (arg : BitVec 60) (parm : BitVec 15) (origin : BitVec 20)
    (s : State) : Result :=
  if p.wf && decide (p.kind = 8) then
    .next (atTarget l p (fun s =>
      let r : ArcReq := ⟨.peer p.src.toNat p.tag.toNat, op.val, arg.toNat, parm.toNat, origin.toNat, 0⟩
      if (op.val = 0 ∧ 4095 < parm.toNat) ∨ (op.val ≠ 0 ∧ 4 < origin.toNat) then answerRequest r St.BAD_PARAM [] 0 s
      else if !s.arcCommits then answerRequest r St.ARC_NOTREADY [] 0 s
      else s.setArchive { s.archive with requests := s.archive.requests ++ [r] }) s)
  else .fault .illFormed

/-- ADATA_RECEIVED (R448). No requester of this device sends an AREQ: the spec gives a steward and the host this device's
archive only (R407), so the result is consumed at its destination. -/
def execAdataReceived (l : Fin 8) (p : Packet) (s : State) : Result :=
  if p.wf && decide (p.kind = 9) then
    .next (atTarget l p (fun s => s) s)
  else .fault .illFormed

/-- UNREACH_RECEIVED (R408, R447, R448): a CMD's ends the routed command; a REPL's counts as a missed acknowledgement,
which R408 resends. -/
def execUnreachReceived (l : Fin 8) (p : Packet) (s : State) : Result :=
  if p.wf && decide (p.kind = 12) && decide (p.payload.length = 8) then
    .next (atTarget l p (fun s =>
      let f := payloadField p.payload
      if f 0 1 = 6 then failRouted 1 (f 4 4) (f 1 1) (failRouted 0 (f 4 4) (f 1 1) s) else s) s)
  else .fault .illFormed

/-- ROUTED_COMMAND_TIMEOUT (R447, R453). -/
def execRoutedCommandTimeout (p : Fin 2) (tag : BitVec 32) (s : State) : Result :=
  .next (match (s.port p).outstanding tag.toNat with
    | some (_, _, t) =>
      if t + 200000 * max 1 (s.get oneKey Reg.FAB_CMD_TMO_MS) ≤ s.tref then failRouted p tag.toNat St.FAB_TIMEOUT s else s
    | none => s)

end Sys2Proof.Machine
end

