-- ==== Sys2Proof/Machine/Memory.lean ====
section
/-! DEFINITION. Memory banks, instruction memory and Vigil memory: reads with error correction, writes, the cross-half
port, the background test (R560 to R577). -/

namespace Sys2Proof.Machine

/-! ## The banks of a half -/

/-- A word in error is found by a read (R564, R565): space 0 data, 1 instruction, 2 Vigil. -/
def logUncorrectable (h : Half) (a space port : Nat) (s : State) : State :=
  let s1 := (s.count (halfKey h + Reg.MC_CNT + 1) 1).put (halfKey h) Reg.MC_STAT_UNCORR 1
  (s1.setReg (halfKey h + Reg.MC_ELOG) (BitVec.ofNat 20 a)).setReg (halfKey h + Reg.MC_ELOG_SRC)
    (BitVec.ofNat 20 (16 * space + port))

/-- A corrected word is counted (R564). -/
def logCorrected (h : Half) (s : State) : State :=
  (s.count (halfKey h + Reg.MC_CNT) 1).put (halfKey h) Reg.MC_STAT_CORR 1

/-- A read of a bank word over a port: the word, or none where it is uncorrectable (R564). A single error is written
back corrected. -/
def readBank (h : Half) (a port : Nat) (s : State) : Option Word × State :=
  let ix := bankIx h a
  match tblGet s.bankMarks 0 ix with
  | 0 => (some (s.bank h a), s)
  | 1 => (some (s.bank h a), logCorrected h { s with bankMarks := tblSet s.bankMarks 0 ix 0 })
  | _ => (none, logUncorrectable h (a % 0x80000) 0 port s)

/-- A read by a port other than a steward's: an uncorrectable word is delivered as 0 (R565). -/
def readBankPort (h : Half) (a port : Nat) (s : State) : Word × State :=
  let o := readBank h a port s
  (o.1.getD 0, o.2)

/-- The words from a data address on, as a block of the half reads them. -/
def readBankRun (h : Half) (a port : Nat) : Nat → State → List Word × State
  | 0, s => ([], s)
  | n + 1, s =>
    let o := readBankPort h a port s
    let r := readBankRun h (a + 1) port n o.2
    (o.1 :: r.1, r.2)

/-- A half's memories answer the other half: it is not in half reset and its supply holds (R566). -/
def State.memoryUp (s : State) (h : Half) : Bool := s.computes h && (s.half h).supplyOk

/-! ## Steward data accesses (R462, R565, R566, R571) -/

/-- How a steward's data access ends: with a word, with an uncorrectable word, or outside the VC's map. -/
inductive DataRead where
  | word (w : Word)
  | decc
  | daddr
  deriving DecidableEq, Repr

/-- The half and the bank address of a data address of steward k. -/
def stewPlace (k a : Nat) : Half × Nat :=
  (if a % 0x100000 < 0x80000 then stewHalf k else (stewHalf k).other, a % 0x80000)

/-- VC_SPLIT (R571). -/
def State.vcSplit (s : State) : Nat := s.get oneKey Reg.VC_SPLIT_SPLIT

/-- A data read of steward k (R462, R571). -/
def dataRead (k a : Nat) (s : State) : DataRead × State :=
  if k = 8 then
    if a < 0x4000 then
      match tblGet s.vmemMarks 0 a with
      | 0 => (.word (tblGet s.vmem 0 a), s)
      | 1 => (.word (tblGet s.vmem 0 a), { s with vmemMarks := tblSet s.vmemMarks 0 a 0 })
      | _ => (.decc, s)
    else (.daddr, s)
  else
    let p := stewPlace k a
    let h := stewHalf k
    if p.1 = h then
      let o := readBank h p.2 (k % 4) s
      (match o.1 with | some w => .word w | none => .decc, o.2)
    else if s.memoryUp p.1 then
      let o := readBank p.1 p.2 4 s
      (match o.1 with | some w => .word w | none => .decc, o.2)
    else (.word 0, s.put (halfKey h) Reg.MC_STAT_REMOTE_DOWN 1)

/-- A write of a Vigil word; a reservation of it is cleared (R479, R571). -/
def State.setVigil (s : State) (a : Nat) (w : Word) : State :=
  let v := s.steward 8
  let s1 := { s with vmem := tblSet s.vmem 0 a w, vmemMarks := tblSet s.vmemMarks 0 a 0 }
  match v.rsv with
  | some r => if r.toNat = a then s1.setSteward 8 { v with rsv := none } else s1
  | none => s1

/-- A data write of steward k: none where it lies outside the VC's map (R571). -/
def dataWrite (k a : Nat) (w : Word) (s : State) : Option State :=
  if k = 8 then
    (if a < 0x4000 ∧ s.vcSplit ≤ a then some (s.setVigil a w) else none)
  else
    let p := stewPlace k a
    let h := stewHalf k
    some (if p.1 = h ∨ s.memoryUp p.1 = true then s.setBank p.1 p.2 w else s.put (halfKey h) Reg.MC_STAT_REMOTE_DOWN 1)

/-- A steward's write is superseded by that of a lower-numbered port to the same word in the same handshake stage
(R563). -/
def supersede (k a : Nat) (s : State) : State :=
  let p := stewPlace k a
  let port := if p.1 = stewHalf k then k % 4 else 4
  ((s.count (halfKey p.1 + Reg.MC_SUPER + port) 1).setReg (halfKey p.1 + Reg.MC_SUPLAST) (BitVec.ofNat 20 p.2)).put
    (halfKey p.1) Reg.MC_STAT_SUPER 1

/-! ## Instruction memory (R495, R567) -/

def imemIx (h : Half) (a : Nat) : Nat := h.num * 0x40000 + a % 0x40000

/-- A word of instruction memory. -/
def State.imemWord (s : State) (h : Half) (a : Nat) : Word := tblGet s.imem 0 (imemIx h a)

/-- A word written to instruction memory, with fresh check bits. -/
def State.setImem (s : State) (h : Half) (a : Nat) (w : Word) : State :=
  { s with imem := tblSet s.imem 0 (imemIx h a) w, imemMarks := tblSet s.imemMarks 0 (imemIx h a) 0 }

/-- A read of instruction memory: the word, or none where it is uncorrectable (R564, R567). -/
def readImem (h : Half) (a port : Nat) (s : State) : Option Word × State :=
  match tblGet s.imemMarks 0 (imemIx h a) with
  | 0 => (some (s.imemWord h a), s)
  | 1 => (some (s.imemWord h a), logCorrected h { s with imemMarks := tblSet s.imemMarks 0 (imemIx h a) 0 })
  | _ => (none, logUncorrectable h (a % 0x40000) 1 port s)

/-- A write of IM_D (R567, R577). -/
def writeImD (h : Half) (w : Word) (s : State) : State :=
  let a := s.get (halfKey h) Reg.IM_A_ADDR
  (s.setImem h a w).put (halfKey h) Reg.IM_A_ADDR (a + 1)

/-- A read of IM_D: an uncorrectable word reads as 0 and is logged (R567). -/
def readImD (h : Half) (port : Nat) (s : State) : Word × State :=
  let a := s.get (halfKey h) Reg.IM_A_ADDR
  let o := readImem h a port s
  (o.1.getD 0, o.2.put (halfKey h) Reg.IM_A_ADDR (a + 1))

/-- INSTRUCTION_MEMORY_WRITE (R567). -/
def execInstructionMemoryWrite (h : Half) (w : Word) (s : State) : Result :=
  .next (if s.computes h then writeImD h w s else s)

/-! ## Vigil memory (R571, R572) -/

/-- A write of VM_D by a half (R572). -/
def writeVmD (h : Half) (w : Word) (s : State) : State :=
  let a := s.get oneKey Reg.VM_A_ADDR
  let s1 :=
    if s.flag oneKey Reg.VC_STAT_LOADED && decide (a < s.vcSplit) then s.refuseWrite h Reg.VM_D else s.setVigil a w
  s1.put oneKey Reg.VM_A_ADDR (a + 1)

/-- A read of VM_D by a half (R572). -/
def readVmD (h : Half) (port : Nat) (s : State) : Word × State :=
  let a := s.get oneKey Reg.VM_A_ADDR
  let s1 := s.put oneKey Reg.VM_A_ADDR (a + 1)
  match tblGet s.vmemMarks 0 a with
  | 0 => (tblGet s.vmem 0 a, s1)
  | 1 => (tblGet s.vmem 0 a, { s1 with vmemMarks := tblSet s.vmemMarks 0 a 0 })
  | _ => (0, logUncorrectable h a 2 port s1)

/-- VIGIL_MEMORY_WRITE (R572). -/
def execVigilMemoryWrite (m : Master) (w : Word) (s : State) : Result :=
  .next (writeVmD (s.masterHalf m) w s)

/-! ## The background test (R568, R569) -/

/-- The words of test window i: 16 rows of one bank. -/
def windowWords (i : Nat) : List Nat := (List.range 16).map (fun r => (16 * (i / 8) + r) * 8 + i % 8)

/-- The copy of a window corrects a single error of each word (R564, R568). -/
def copyWindow (h : Half) (l : List Nat) (s : State) : State :=
  l.foldl (fun s a =>
    if tblGet s.bankMarks 0 (bankIx h a) = 1 then
      logCorrected h { s with bankMarks := tblSet s.bankMarks 0 (bankIx h a) 0 }
    else s) s

/-- TEST_WINDOW (R568): the window is charged to TEST, and waits for a TEST grain before step 1. While it is under test every
other port is served from the save buffer, which holds what the words hold: the model's words stand for it. -/
def execTestWindow (h : Half) (s : State) : Result :=
  .next (if s.computes h && s.trefRuns && s.flag (halfKey h) Reg.MC_CTL_TST_EN && !s.flag (halfKey h) Reg.MC_STAT_TST_BUSY then
    withAccess h actTest 0 (fun t =>
      (copyWindow h (windowWords (t.get (halfKey h) Reg.MC_TPOS_WIN)) t).put (halfKey h) Reg.MC_STAT_TST_BUSY 1) s
  else s)

/-- Step 4 writes every word of the window back with fresh check bits (R568), which cures an uncorrectable one (R565); what its
data bits then hold is a free value. -/
def restoreWindow (h : Half) (l : List Nat) (s : State) : State :=
  l.foldl (fun s a =>
    if tblGet s.bankMarks 0 (bankIx h a) = 2 then
      { s with
        freeCount := s.freeCount + 1, bankMarks := tblSet s.bankMarks 0 (bankIx h a) 0,
        banks := tblSet s.banks 0 (bankIx h a) (Config.lostWord s.freeCount) }
    else s) s

/-- TEST_WINDOW_DONE (R568, R569): the failing cell, if a cell read wrongly, comes with the command. -/
def execTestWindowDone (h : Half) (fail : Option (Fin 26)) (s : State) : Result :=
  let key := halfKey h
  let i := s.get key Reg.MC_TPOS_WIN
  .next (if s.flag key Reg.MC_STAT_TST_BUSY then
    let s1 := match fail with
      | some b =>
        ((((s.put key Reg.MC_STAT_TST_FAIL 1).count (key + Reg.MC_CNT + 3) 1).setReg (key + Reg.MC_TFAIL)
          (BitVec.ofNat 20 ((windowWords i).headD 0))).setReg (key + Reg.MC_TFAIL_BIT) (BitVec.ofNat 20 b.val))
      | none => s
    let s2 := ((restoreWindow h (windowWords i) s1).put key Reg.MC_STAT_TST_BUSY 0).put key Reg.MC_TPOS_WIN ((i + 1) % 0x8000)
    if i = 0x7FFF then s2.count (key + Reg.MC_CNT + 2) 1 else s2
  else s)

end Sys2Proof.Machine
end

