-- ==== Sys2Proof/Machine/Operands.lean ====
section
/-! DEFINITION. The instruction words of the stewards: their fields, their operand forms, and the instruction that a base
word stands for (R465 to R468, R472 to R480). -/

namespace Sys2Proof.Machine

/-- The instructions of the stewards, one for each row of the opcode table that is an instruction. -/
inductive StewOp where
  | add | sub | and | or | xor | slt | sltu | andn
  | sll | srl | sra | adds | subs | addus | subus
  | addi | movi | slli | srli | srai
  | addiLong | andi | ori | xori | slti | sltiu | addsi
  | ld | ldx | st | stx | in | inx | out | outx
  | bz | br | j | call | jr | callr | ret | reti
  | loop | lpop | nop | wait | brk | fence | trap | mfc | mtc | ei | di
  | mul | mulh | mulhu | mac | macu | msu | macs
  | rdacc | mfa | mta
  | lr | sc | tas
  | blkmov | blkfill | blkcrc
  deriving DecidableEq, Repr

/-! ## Fields of a base word (R465, R466) -/

/-- The length bit: the word starts a long instruction. -/
def isLong (w : Word) : Bool := w.getLsbD 19

def fMajor (w : Word) : Nat := bits w 18 15

/-- Bits [14:11]: rd, or rt of a store, or MODE of BLKCRC. -/
def fD (w : Word) : Nat := bits w 14 11

/-- Bits [10:7]: rs. -/
def fS (w : Word) : Nat := bits w 10 7

/-- Bits [6:3]: rt. -/
def fT (w : Word) : Nat := bits w 6 3

def fFn (w : Word) : Nat := bits w 2 0

/-- Bits [4:0]: N of ACC and SHI. -/
def fN (w : Word) : Nat := bits w 4 0

/-- Bits [6:5]: SUB of ACC, FN of SHI. -/
def fSub (w : Word) : Nat := bits w 6 5

/-- The register field of SYS. -/
def fSysReg (w : Word) : Nat := bits w 9 6

def fAux (w : Word) : Nat := bits w 5 0

/-- COND, rs and rt of the branches. -/
def fCond (w : Word) : Nat := bits w 14 12
def fBrS (w : Word) : Nat := bits w 11 8
def fBrT (w : Word) : Nat := bits w 7 4

/-- An n-bit field sign-extended to 20 bits. -/
def sext (n v : Nat) : Word := BitVec.ofInt 20 (signed n v)

def fImm7 (w : Word) : Word := sext 7 (bits w 6 0)
def fImm11 (w : Word) : Word := sext 11 (bits w 10 0)
def fOff8 (w : Word) : Word := sext 8 (bits w 7 0)

/-! ## Decoding -/

/-- An instruction whose reserved field is 0, else none. -/
def whenZero (v : Nat) (o : StewOp) : Option StewOp := if v = 0 then some o else none

/-- SYS (R475): unused fields must be 0. -/
def decodeSys (w : Word) : Option StewOp :=
  let r := fSysReg w
  let a := fAux w
  match bits w 14 10 with
  | 0x00 => whenZero (r + a) .nop
  | 0x01 => whenZero (r + a) .ret
  | 0x02 => whenZero (r + a) .reti
  | 0x03 => whenZero (r + a) .wait
  | 0x04 => whenZero (r + a) .brk
  | 0x05 => whenZero (r + a) .lpop
  | 0x06 => whenZero (r + a) .fence
  | 0x07 => whenZero r .trap
  | 0x08 => whenZero a .jr
  | 0x09 => whenZero a .callr
  | 0x0A => whenZero (a / 32) .mfc
  | 0x0B => whenZero (a / 32) .mtc
  | 0x0C => whenZero (r + a) .ei
  | 0x0D => whenZero (r + a) .di
  | _ => none

/-- The short instructions (R465, R467, R468, R477 to R480). -/
def decodeShort (w : Word) : Option StewOp :=
  match fMajor w with
  | 0x0 => decodeSys w
  | 0x1 =>
    (match fFn w with
     | 0 => some .add | 1 => some .sub | 2 => some .and | 3 => some .or
     | 4 => some .xor | 5 => some .slt | 6 => some .sltu | _ => some .andn)
  | 0x2 =>
    (match fFn w with
     | 0 => some .sll | 1 => some .srl | 2 => some .sra | 3 => some .adds
     | 4 => some .subs | 5 => some .addus | 6 => some .subus | _ => none)
  | 0x3 =>
    (match fFn w with
     | 0 => some .mul | 1 => some .mulh | 2 => some .mulhu
     | 3 => whenZero (fD w) .mac | 4 => whenZero (fD w) .macu | 5 => whenZero (fD w) .msu | 6 => whenZero (fD w) .macs
     | _ => none)
  | 0x4 =>
    (match fSub w with
     | 0 => some .rdacc
     | 1 => if fN w < 3 then some .mfa else none
     | 2 => if fN w < 4 then whenZero (fD w) .mta else none
     | _ => none)
  | 0x5 => some .addi
  | 0x6 =>
    (match fSub w with
     | 0 => some .slli | 1 => some .srli | 2 => some .srai | _ => none)
  | 0x7 => some .ld
  | 0x8 => some .st
  | 0x9 => some .in
  | 0xA => some .out
  | 0xB => if fCond w < 6 then some .bz else none
  | 0xC =>
    (match fFn w with
     | 0 => whenZero (fT w) .lr | 1 => some .sc | 2 => whenZero (fT w) .tas | _ => none)
  | 0xD =>
    (match fFn w with
     | 0 => some .blkmov | 1 => some .blkfill | 2 => if fD w < 3 then some .blkcrc else none | _ => none)
  | 0xE => some .movi
  | _ => none

/-- The long instructions (R466, R468, R472 to R474). -/
def decodeLong (w : Word) : Option StewOp :=
  match fMajor w with
  | 0x0 =>
    if bits w 3 0 = 0 then
      (match bits w 6 4 with
       | 0 => some .addiLong | 1 => some .andi | 2 => some .ori | 3 => some .xori
       | 4 => some .slti | 5 => some .sltiu | 6 => some .addsi | _ => none)
    else none
  | 0x1 => whenZero (bits w 6 0) .ldx
  | 0x2 => whenZero (bits w 6 0) .stx
  | 0x3 => whenZero (bits w 6 0) .inx
  | 0x4 => whenZero (bits w 6 0) .outx
  | 0x5 => if fCond w < 6 then whenZero (bits w 3 0) .br else none
  | 0x6 =>
    (match bits w 14 13 with
     | 0 => whenZero (bits w 12 0) .j | 1 => whenZero (bits w 12 0) .call | _ => none)
  | 0x7 => some .loop
  | _ => none

/-- The instruction of a base word; none where its encoding is reserved (R486). -/
def decodeStew (w : Word) : Option StewOp := if isLong w then decodeLong w else decodeShort w

/-- The load instructions (R470). -/
def StewOp.loads : StewOp → Bool
  | .ld | .ldx | .in | .inx | .lr | .sc | .tas => true
  | _ => false

/-- The block instructions (R480). -/
def StewOp.isBlock : StewOp → Bool
  | .blkmov | .blkfill | .blkcrc => true
  | _ => false

/-! ## Arithmetic (R467, R468, R472, R477, R478) -/

/-- sat_s20 of R467. -/
def satS20 (v : Int) : Word := BitVec.ofInt 20 (max (-0x80000) (min 0x7FFFF v))

/-- sat_s48 of R477. -/
def satS48 (v : Int) : BitVec 48 := BitVec.ofInt 48 (max (-0x800000000000) (min 0x7FFFFFFFFFFF v))

def oneIf (b : Bool) : Word := if b then 1 else 0

def aluSlt (a b : Word) : Word := oneIf (decide (a.toInt < b.toInt))
def aluSltu (a b : Word) : Word := oneIf (decide (a.toNat < b.toNat))
def aluAddUs (a b : Word) : Word := BitVec.ofNat 20 (min (a.toNat + b.toNat) 0xFFFFF)
def aluSubUs (a b : Word) : Word := BitVec.ofNat 20 (a.toNat - b.toNat)
def aluAdds (a b : Word) : Word := satS20 (a.toInt + b.toInt)
def aluSubs (a b : Word) : Word := satS20 (a.toInt - b.toInt)

/-- The shift amount of a register (R467). -/
def shiftBy (b : Word) : Nat := b.toNat % 32

def aluSll (a : Word) (n : Nat) : Word := a <<< n
def aluSrl (a : Word) (n : Nat) : Word := a >>> n
def aluSra (a : Word) (n : Nat) : Word := a.sshiftRight n

/-- The condition of BZ (R472). -/
def bzTaken (c : Nat) (a : Word) : Bool :=
  match c with
  | 0 => decide (a = 0)
  | 1 => decide (a ≠ 0)
  | 2 => decide (a.toInt < 0)
  | 3 => decide (0 ≤ a.toInt)
  | 4 => decide (a.toInt ≤ 0)
  | _ => decide (0 < a.toInt)

/-- The condition of BR (R472). -/
def brTaken (c : Nat) (a b : Word) : Bool :=
  match c with
  | 0 => decide (a = b)
  | 1 => decide (a ≠ b)
  | 2 => decide (a.toInt < b.toInt)
  | 3 => decide (b.toInt ≤ a.toInt)
  | 4 => decide (a.toNat < b.toNat)
  | _ => decide (b.toNat ≤ a.toNat)

/-- RDACC (R478). -/
def readAcc (acc : BitVec 48) (n : Nat) : Word :=
  satS20 ((acc.toInt + (if n = 0 then 0 else 2 ^ (n - 1))) / 2 ^ n)

/-- MFA (R478). -/
def moveFromAcc (acc : BitVec 48) (n : Nat) : Word :=
  match n with
  | 0 => BitVec.ofNat 20 acc.toNat
  | 1 => BitVec.ofNat 20 (acc.toNat / 2 ^ 20)
  | _ => sext 8 (acc.toNat / 2 ^ 40)

/-- MTA (R478). -/
def moveToAcc (acc : BitVec 48) (n : Nat) (v : Word) : BitVec 48 :=
  let a := acc.toNat
  match n with
  | 0 => BitVec.ofInt 48 v.toInt
  | 1 => BitVec.ofNat 48 (a - a % 2 ^ 20 + v.toNat)
  | 2 => BitVec.ofNat 48 (a % 2 ^ 20 + 2 ^ 20 * v.toNat + 2 ^ 40 * (a / 2 ^ 40))
  | _ => BitVec.ofNat 48 (a % 2 ^ 40 + 2 ^ 40 * (v.toNat % 256))

/-- One word into the running register of BLKCRC (R480). -/
def blkCrcWord (mode : Nat) (acc : BitVec 48) (v : Word) : BitVec 48 :=
  BitVec.ofNat 48 (match mode with
    | 0 => crcBits 32 0x04C11DB7 (acc.toNat % 2 ^ 32) (natBits 16 v.toNat)
    | 1 => crcBits 16 0x1021 (acc.toNat % 2 ^ 16) (natBits 16 v.toNat)
    | _ => crcBits 20 0x8359D (acc.toNat % 2 ^ 20) (natBits 20 v.toNat))

end Sys2Proof.Machine
end

