-- ==== Sys2Proof/Machine/StewardCore.lean ====
section
/-! DEFINITION. The steward cores apart from the meanings of their instructions: registers, fetching, the load delay, loop
levels, traps and entry to a vector, debug halt, starting and stopping (R458 to R494). -/

namespace Sys2Proof.Machine

/-! ## Registers (R458 to R461) -/

/-- The register block of steward k: S0 to S7, or the VC as 8. Its fields stand at the addresses of steward 0's. -/
def stewKey (k : Nat) : Nat :=
  if k < 8 then halfKey (stewHalf k) + 0x20 * (k % 4) else oneKey + (Reg.VC_STW_CTL - Reg.STW_CTL)

/-- A word register; w0 reads 0 (R458). -/
def wreg (x : Steward) (r : Nat) : Word := if r = 0 then 0 else tblGet x.w 0 r

/-- A word register written; a write of w0 is discarded (R459). -/
def setWreg (x : Steward) (r : Nat) (v : Word) : Steward :=
  if r = 0 then x else { x with w := tblSet x.w 0 r v }

/-- The control register that a number's storage holds. -/
def creg (x : Steward) (n : Nat) : Word := tblGet x.cr 0 n

def setCreg (x : Steward) (n : Nat) (v : Word) : Steward := { x with cr := tblSet x.cr 0 n v }

/-- The control registers by number (R461). -/
abbrev crSR : Nat := 0
abbrev crVBASE : Nat := 1
abbrev crTCAUSE : Nat := 2
abbrev crTVAL : Nat := 3
abbrev crTEXT : Nat := 4
abbrev crTADDR : Nat := 5
abbrev crLDOLD : Nat := 6
abbrev crLS (l : Nat) : Nat := 8 + 3 * l
abbrev crLE (l : Nat) : Nat := 9 + 3 * l
abbrev crLC (l : Nat) : Nat := 10 + 3 * l
abbrev crRSVA : Nat := 20

/-- SR as it reads: RSV says whether a reservation is held (R460). -/
def srWord (x : Steward) : Word := setBits (creg x crSR) 7 7 (if x.rsv.isSome then 1 else 0)

/-- SR written: its TH, LD and IE (R460). -/
def setSr (x : Steward) (v : Word) : Steward := setCreg x crSR (v &&& 0x0000F)

def srIE (x : Steward) : Bool := (creg x crSR).getLsbD 0
def srTH (x : Steward) : Bool := (creg x crSR).getLsbD 3
def srLD (x : Steward) : Nat := bits (creg x crSR) 2 1
def setLD (x : Steward) (l : Nat) : Steward := setCreg x crSR (setBits (creg x crSR) 2 1 l)
def setIE (x : Steward) (b : Bool) : Steward := setCreg x crSR (setBits (creg x crSR) 0 0 (if b then 1 else 0))

/-- A control register read; none where the number is reserved (R461). -/
def readCreg (x : Steward) (n : Nat) : Option Word :=
  if n = 0 then some (srWord x)
  else if n = 17 then some (moveFromAcc x.acc 0)
  else if n = 18 then some (moveFromAcc x.acc 1)
  else if n = 19 then some (moveFromAcc x.acc 2)
  else if n = 7 ∨ 20 < n then none
  else some (creg x n)

/-- A control register written; a read-only one keeps its value, and none where the number is reserved (R461). -/
def writeCreg (x : Steward) (n : Nat) (v : Word) : Option Steward :=
  if n = 0 then some (setSr x v)
  else if n = 1 then some (setCreg x crVBASE (v &&& 0xFFF80))
  else if n = 17 then some { x with acc := moveToAcc x.acc 1 v }
  else if n = 18 then some { x with acc := moveToAcc x.acc 2 v }
  else if n = 19 then some { x with acc := moveToAcc x.acc 3 v }
  else if n = 7 ∨ 20 < n then none
  else if 8 ≤ n ∧ n < 17 then some (setCreg x n v)
  else some x

/-! ## Fetching (R462, R464, R495, R571) -/

/-- How the fetch of one word ends: with the word, at an address that holds nothing, or with an uncorrectable word. -/
inductive FetchWord where
  | word (w : Word)
  | nothing
  | bad
  deriving DecidableEq, Repr

/-- A fetch of one word by steward k. -/
def fetchWord (k : Nat) (a : Nat) (s : State) : FetchWord × State :=
  if k < 8 then
    let h := stewHalf k
    if a < 0x40000 then
      let o := readImem h a (k % 4) s
      (match o.1 with | some w => .word w | none => .bad, o.2)
    else if 0xF0000 ≤ a ∧ a < 0xF4000 then (.word (Config.bootRom h.num (a - 0xF0000)), s)
    else (.nothing, s)
  else if a < s.vcSplit ∧ a < 0x4000 then
    match tblGet s.vmemMarks 0 a with
    | 0 => (.word (tblGet s.vmem 0 a), s)
    | 1 => (.word (tblGet s.vmem 0 a), { s with vmemMarks := tblSet s.vmemMarks 0 a 0 })
    | _ => (.bad, s)
  else (.nothing, s)

/-- A fetched instruction: the address of its base word, the base word, the extension word or 0, its length bit. -/
structure Fetched where
  addr : Word
  w : Word
  ext : Word
  long : Bool
  deriving DecidableEq, Repr

/-- The trap codes of R483. -/
abbrev trapReserved : Nat := 0x01
abbrev trapSoft : Nat := 0x02
abbrev trapBreak : Nat := 0x03
abbrev trapLoopOvf : Nat := 0x04
abbrev trapLoopUnf : Nat := 0x05
abbrev trapFetch : Nat := 0x06
abbrev trapIecc : Nat := 0x07
abbrev trapDecc : Nat := 0x08
abbrev trapDaddr : Nat := 0x09

/-- How the fetch of an instruction ends: with it, or with a trap whose words are those that could be fetched. -/
inductive FetchEnd where
  | got (f : Fetched)
  | fails (code : Nat) (f : Fetched)
  deriving DecidableEq, Repr

/-- The fetch of the instruction at an address by steward k. A word that could not be fetched is a free value. -/
def fetchAt (k : Nat) (pc : Word) (s : State) : FetchEnd × State :=
  let o := fetchWord k pc.toNat s
  let lost := Config.lostWord s.freeCount
  let s1 := { s with freeCount := s.freeCount + 1 }
  match o.1 with
  | .nothing => (.fails trapFetch ⟨pc, lost, 0, false⟩, s1)
  | .bad => (.fails trapIecc ⟨pc, lost, 0, false⟩, { o.2 with freeCount := s.freeCount + 1 })
  | .word w =>
    if isLong w then
      let e := fetchWord k (pc + 1).toNat o.2
      match e.1 with
      | .word x => (.got ⟨pc, w, x, true⟩, e.2)
      | .nothing => (.fails trapFetch ⟨pc, w, lost, true⟩, { o.2 with freeCount := s.freeCount + 1 })
      | .bad => (.fails trapIecc ⟨pc, w, lost, true⟩, { e.2 with freeCount := s.freeCount + 1 })
    else (.got ⟨pc, w, 0, false⟩, o.2)

/-- The address of the next instruction, and of the last word of this one. -/
def nextAddr (f : Fetched) : Word := f.addr + (if f.long then 2 else 1)
def lastAddr (f : Fetched) : Word := f.addr + (if f.long then 1 else 0)

/-! ## The load delay and the loop levels (R470, R474) -/

/-- The value of a load whose delay instruction ends goes into its register, unless a load in the delay position writes
the same register (R470). -/
def settleLoad (x : Steward) (dest : Option Nat) : Steward :=
  match x.load with
  | none => x
  | some (r, v) => if dest = some r then { x with load := none } else { setWreg x r v with load := none }

/-- The loop end check from level n down, after an instruction whose last word stands at `last` (R474). -/
def loopCheck : Nat → Word → Steward → Steward
  | 0, _, x => x
  | l + 1, last, x =>
    if creg x (crLE l) = last then
      if 1 < (creg x (crLC l)).toNat then
        { setCreg x (crLC l) (creg x (crLC l) - 1) with pc := creg x (crLS l) }
      else loopCheck l last (setLD (setCreg x (crLC l) 0) l)
    else x

/-- The program counter after an instruction that transfers no control. -/
def advancePc (f : Fetched) (x : Steward) : Steward := loopCheck (srLD x) (lastAddr f) { x with pc := nextAddr f }

/-! ## Stopping, halting and starting (R485, R487, R491, R535) -/

/-- Every entry of a steward's interrupt stack ends as if by EOI (R535). -/
def endStack (k : Nat) (s : State) : State :=
  let x := s.steward k
  let ended := x.stack.map Prod.snd
  let s1 :=
    if k < 8 then
      let hs := s.half (stewHalf k)
      s.setHalf (stewHalf k) { hs with active := hs.active.filter (fun c => !ended.contains c) }
    else s
  s1.setSteward k { x with stack := [], runPri := 16 }

/-- The steward stops (R491). -/
def stopNow (k : Nat) (s : State) : State :=
  let s1 := endStack k s
  s1.setSteward k { s1.steward k with mode := .stopped, load := none, stopDue := false, haltDue := none, stepping := false }

/-- The steward enters debug halt with a cause (R487, R492). -/
def haltNow (k c : Nat) (s : State) : State :=
  (s.setSteward k { s.steward k with mode := .halted, rsv := none, haltDue := none, stepping := false }).put (stewKey k)
    Reg.STW_STAT_HCAUSE c

/-- A boundary: a stop or a halt that is due takes place at the first one that no load unit covers (R471, R487). -/
def boundary (k : Nat) (s : State) : State :=
  let x := s.steward k
  if x.load.isSome then s
  else if x.stopDue then stopNow k s
  else
    match x.haltDue with
    | some c => haltNow k c s
    | none => if x.stepping then haltNow k 5 s else s

def StewMode.runs : StewMode → Bool
  | .running => true
  | .waiting => true
  | _ => false

/-- A halt is asked for (R487): 1 by STW_CTL.HALT or the debug path. -/
def haltRequest (k : Nat) (s : State) : State :=
  let x := s.steward k
  if x.mode.runs then
    let s1 := s.setSteward k { x with haltDue := some 1 }
    boundary k s1
  else s

/-- STW_CTL.RUN has changed from 1 to 0 (R491). A steward in LOCKUP stays there (R485). -/
def stopRequest (k : Nat) (s : State) : State :=
  let x := s.steward k
  match x.mode with
  | .running => boundary k (s.setSteward k { x with stopDue := true })
  | .waiting => stopNow k s
  | .halted => stopNow k s
  | _ => s

/-- STW_CTL.RUN has changed from 0 to 1 (R485, R491). -/
def startRequest (k : Nat) (s : State) : State :=
  let s1 := if (s.steward k).stopDue then stopNow k s else s
  s1.setSteward k
    { s1.steward k with
      mode := .running, pc := s1.reg (stewKey k + Reg.STW_START), load := none, haltDue := none, skipBreak := false }

/-- STW_CTL.RESUME (R487). -/
def resumeRequest (k : Nat) (s : State) : State :=
  let x := s.steward k
  if x.mode = .halted then s.setSteward k { x with mode := .running, skipBreak := true } else s

/-- STW_CTL.STEP (R487). -/
def stepRequest (k : Nat) (s : State) : State :=
  let x := s.steward k
  if x.mode = .halted then s.setSteward k { x with mode := .running, skipBreak := true, stepping := true } else s

/-- A write of STW_CTL: its RUN first, then RESUME, STEP and HALT (R491). -/
def writeStwCtl (k : Nat) (w : Word) (s : State) : State :=
  let was := s.flag (stewKey k) Reg.STW_CTL_RUN
  let now := w.getLsbD 0
  let s1 := s.setReg (stewKey k + Reg.STW_CTL) (w &&& 0x00071)
  let s2 := if now && !was then startRequest k s1 else if was && !now then stopRequest k s1 else s1
  let s3 := if w.getLsbD 2 then resumeRequest k s2 else s2
  let s4 := if w.getLsbD 3 then stepRequest k s3 else s3
  if w.getLsbD 1 then haltRequest k s4 else s4

/-- STW_STAT.STATE (R492). -/
def stewState (x : Steward) : Nat :=
  match x.mode with
  | .stopped => 0
  | .running => 1
  | .waiting => 2
  | .halted => 3
  | .lockup => 4

/-- STW_PC (R493): the next instruction, or, of a steward that runs, the one it executed last. -/
def stewPc (x : Steward) : Word := if x.mode.runs then x.last else x.pc

/-- STW_RDAT as it reads (R493). -/
def readRdat (k : Nat) (s : State) : Word :=
  let x := s.steward k
  let n := s.get (stewKey k) Reg.STW_RSEL_NUM
  if s.flag (stewKey k) Reg.STW_RSEL_CR then (readCreg x n).getD 0 else wreg x (n % 16)

/-- A write of STW_RDAT (R493): by the rules of R459 and R461, or ignored with BAD. -/
def writeRdat (k : Nat) (v : Word) (s : State) : State :=
  let x := s.steward k
  let n := s.get (stewKey k) Reg.STW_RSEL_NUM
  if x.mode.runs then s.put (stewKey k) Reg.STW_STAT_BAD 1
  else if s.flag (stewKey k) Reg.STW_RSEL_CR then s.setSteward k ((writeCreg x n v).getD x)
  else s.setSteward k (setWreg x (n % 16) v)

/-! ## Entry to a vector and traps (R482 to R486) -/

/-- A push of one word, where the steward's data map takes it (R473, R484). -/
def pushWord (k : Nat) (a v : Word) (s : State) : State := (dataWrite k a.toNat v s).getD s

/-- Entry to vector n with return address r (R484). -/
def entry (k n : Nat) (r : Word) (s : State) : State :=
  let x := s.steward k
  let sp := wreg x 15 - 2
  let s1 := pushWord k sp r (pushWord k (sp + 1) (srWord x) s)
  let y := setWreg (s1.steward k) 15 sp
  let y1 := setCreg y crSR (setBits (setBits (creg y crSR) 0 0 0) 3 3 (if n = 0 then 1 else (if srTH y then 1 else 0)))
  s1.setSteward k
    { y1 with rsv := none, pc := creg y1 crVBASE + BitVec.ofNat 20 (4 * n), mode := .running, skipBreak := false }

/-- A trap of an instruction (R482 to R485). The load before a trapping delay instruction is complete (R471). A trap while
SR.TH is set locks the steward up. -/
def enterTrap (k code : Nat) (f : Fetched) (taddr : Option Word) (s : State) : State :=
  let x := s.steward k
  let x1 := settleLoad x none
  if srTH x1 then
    let s1 := endStack k ((s.setSteward k { x1 with stopDue := false, haltDue := none, stepping := false }).put (stewKey k)
      Reg.STW_STAT_LOCKED 1)
    raiseEvent evStewLock (s1.setSteward k { s1.steward k with mode := .lockup, pc := f.addr, last := f.addr })
  else
    let slot := match x.load with
      | some (r, _) => 0x200 + 0x400 * r
      | none => 0
    let cause : Word := BitVec.ofNat 20 (code + (if f.long then 0x100 else 0) + slot)
    let x2 := setCreg (setCreg (setCreg x1 crTCAUSE cause) crTVAL f.w) crTEXT f.ext
    let x3 := match taddr with | some a => setCreg x2 crTADDR a | none => x2
    let x4 := match x.load with | some (r, _) => setCreg x3 crLDOLD (wreg x r) | none => x3
    let s1 := ((s.setSteward k { x4 with last := f.addr }).count (stewKey k + Reg.STW_TRAPS) 1).setReg
      (stewKey k + Reg.STW_TLAST) cause
    boundary k (entry k 0 (if code = trapSoft then f.addr + 1 else f.addr) s1)

/-! ## Completion of an instruction -/

/-- STW_RET counts a completed instruction, 40 bits, and stays at its maximum (R494, R11). -/
def countRet (k : Nat) (s : State) : State :=
  let key := stewKey k + Reg.STW_RET
  s.setWide key 2 (min 0xFFFFFFFFFF (s.wide key 2 + 1))

/-- An instruction retires: the registers it writes, in order; the load it leaves in flight; a change of other steward
state; where it transfers control to, if it does (R470, R474). -/
def retire (k : Nat) (f : Fetched) (wr : List (Nat × Word)) (ld : Option (Nat × Word)) (jump : Option Word)
    (upd : Steward → Steward) (s : State) : State :=
  let x1 := upd (settleLoad (s.steward k) (ld.map Prod.fst))
  let x2 := wr.foldl (fun x (e : Nat × Word) => setWreg x e.1 e.2) x1
  let x3 := { x2 with load := ld, last := f.addr, skipBreak := false }
  let x4 := match jump with
    | some p => { x3 with pc := p }
    | none => advancePc f x3
  countRet k (s.setSteward k x4)

/-- An instruction completes: it retires, and what is due at the boundary after it takes place. -/
def complete (k : Nat) (f : Fetched) (wr : List (Nat × Word)) (ld : Option (Nat × Word)) (jump : Option Word)
    (upd : Steward → Steward) (s : State) : State := boundary k (retire k f wr ld jump upd s)

/-! ## Breakpoints (R487) -/

/-- The cause of a breakpoint at an address, 3 or 4, if an enabled one matches. -/
def breakHit (k : Nat) (a : Word) (s : State) : Option Nat :=
  if s.flag (stewKey k) Reg.STW_CTL_BKP0_EN && decide (s.reg (stewKey k + Reg.STW_BKP0) = a) then some 3
  else if s.flag (stewKey k) Reg.STW_CTL_BKP1_EN && decide (s.reg (stewKey k + Reg.STW_BKP1) = a) then some 4
  else none

/-- A breakpoint at an instruction of the unit that starts at the steward's next instruction: a chain of loads and the
delay instruction of the last (R471). -/
def unitBreak (k : Nat) : Nat → Steward → State → Option Nat
  | 0, _, _ => none
  | n + 1, x, s =>
    match breakHit k x.pc s with
    | some c => some c
    | none =>
      match (fetchAt k x.pc s).1 with
      | .got f => if (decodeStew f.w).any StewOp.loads then unitBreak k n (advancePc f x) s else none
      | .fails _ _ => none

/-- The breakpoint that halts the steward before its next instruction. A unit is a chain of loads, which the whole
instruction space bounds. -/
def breakAt (k : Nat) (s : State) : Option Nat :=
  let x := s.steward k
  if x.load.isSome || x.skipBreak then none
  else if s.flag (stewKey k) Reg.STW_CTL_BKP0_EN || s.flag (stewKey k) Reg.STW_CTL_BKP1_EN then unitBreak k 0x100000 x s
  else none

/-! ## Issue -/

/-- A steward executes (R484, R487, R642, R650): it is RUNNING, and its half is powered and clocked. -/
def State.stewardRuns (s : State) (k : Nat) : Bool :=
  decide ((s.steward k).mode = .running) &&
    (if k < 8 then s.computes (stewHalf k) && decide (s.power.mode = .run) else decide (s.power.mode ≠ .off))

/-- Steward k executes its next instruction if it is an instruction of the row: the body has the fetched words. -/
def issue (k : Nat) (op : StewOp) (body : Fetched → State → State) (s : State) : State :=
  if s.stewardRuns k && (breakAt k s).isNone then
    let o := fetchAt k (s.steward k).pc s
    match o.1 with
    | .got f => if decodeStew f.w = some op then body f o.2 else s
    | .fails _ _ => s
  else s

end Sys2Proof.Machine
end

