-- ==== Sys2Proof/Machine/Takeover.lean ====
section
/-! DEFINITION. Moves of seats and run-owner latches, yields and resets of a half (R46 to R73). -/

namespace Sys2Proof.Machine

/-! ## Blocks by address (R26, R32) -/

/-- The shared block that an I/O address belongs to. -/
def addrBlk (a : Nat) : Option Nat :=
  if a < 0x30000 then none
  else if a < 0x40000 then some blkFabric
  else if a < 0x50000 then some blkArchive
  else if a < 0x60000 then some blkMet
  else if a < 0x60100 then some (blkTw (a / 0x20 % 8))
  else if a < 0x70000 then some (blkTw 7)
  else if a < 0x70080 then some (blkPort (a / 0x40 % 2))
  else if 0x71000 ≤ a ∧ a < 0x71100 then some (blkGt (a / 0x20 % 8))
  else if 0x72000 ≤ a ∧ a < 0x72020 then some (blkGp (a % 0x20))
  else if 0x72020 ≤ a ∧ a < 0x72026 then some (blkGp (16 * (a % 2)))
  else none

/-- The bay that an I/O address belongs to. -/
def addrBay (a : Nat) : Option Nat := if 0x10000 ≤ a ∧ a < 0x20000 then some (a / 0x400 % 64) else none

/-- The half that executes a command of port p: the runner of the block or the holder of the seat it concerns, else the
half that runs the port (R26, R609, R612, R616). -/
def State.cmdHalf (s : State) (p : Nat) (c : Cmd) : Half :=
  let b := cmdParams c
  let own := if p < 2 then s.runner (blkPort p) else s.runner blkFabric
  if c.op = 0x12 ∨ c.op = 0x13 then
    if payloadField b 0 1 = 1 then .A
    else if payloadField b 0 1 = 2 then .B
    else
      let a := payloadField b 1 3
      match addrBay a, addrBlk a with
      | some n, _ => s.holder n
      | none, some k => s.runner k
      | none, none => own
  else if c.op = 0x14 ∨ c.op = 0x15 then (if payloadField b 0 1 = 0 then .A else .B)
  else if c.op = 0x23 then s.runner (blkTw 7)
  else if c.op = 0x30 ∨ c.op = 0x73 ∨ c.op = 0x75 then s.holder (payloadField b 0 2 / 16 % 64)
  else if c.op = 0x31 then (if payloadField b 0 1 < 2 then s.chanHome (payloadField b 1 2) else own)
  else if 0x40 ≤ c.op ∧ c.op ≤ 0x43 then s.runner blkArchive
  else if c.op = 0x50 then s.runner blkFabric
  else if c.op = 0x58 ∨ c.op = 0x59 then s.runner blkMet
  else if c.op = 0x60 then
    let x := if payloadField b 0 1 < 128 then Half.A else Half.B
    if (s.half x).held || (s.half x).romWait then x.other else x
  else if c.op = 0x74 then s.holder (payloadField b 0 1 % 64)
  else own

/-- The command being executed by a port ends with a reply (R592). -/
def endCmd (p st : Nat) (res : List Byte) (s : State) : State :=
  match (s.port p).exec with
  | some c => answerCmd p c st res (s.setPort p { s.port p with exec := none, begun := false, result := none })
  | none => s

/-- Every command of an opcode that has begun and waits for its end is answered. -/
def endCmds (op st : Nat) (s : State) : State :=
  [0, 1, 2].foldl (fun s p =>
    match (s.port p).exec with
    | some c => if c.op = op ∧ (s.port p).begun = true then endCmd p st [] s else s
    | none => s) s

/-- What a port's command had asked of a block completes there, and its result is discarded. -/
def orphanRequests (p : Nat) (s : State) : State :=
  { s with
    archive := { s.archive with requests := s.archive.requests.filter (fun r => !decide (r.src = ArcSource.port p)) },
    flashOps := s.flashOps.map (fun (e : Nat × List FlashOp) =>
      (e.1, e.2.map (fun o => if o.src = FlashSource.port p then { o with src := FlashSource.gone } else o))) }

/-- Commands that a half was executing when it yields are answered with ST_TAKEOVER (R71, R602). -/
def endExecuting (h : Half) (s : State) : State :=
  [0, 1, 2].foldl (fun s p =>
    match (s.port p).exec with
    | some c => if s.cmdHalf p c = h then orphanRequests p (endCmd p St.TAKEOVER [] s) else s
    | none => s) s

/-! ## Orphans and pads (R46, R47) -/

/-- The terminals of a bay. -/
def bayTerminals (b : Nat) : List Nat := (List.range 16).map (fun i => 16 * b + i)

def syncBayPads (b : Nat) (s : State) : State := (bayTerminals b).foldl (fun s t => syncPad t s) s

/-- A line frame being sent in a bay ends as a failed attempt in every copy, and the line is recessive until an engine next
transmits (R46, R69). -/
def abortLine (b : Nat) (s : State) : State :=
  s.onCopies (fun h s =>
    let s1 := muteEngine h b s
    if (s1.line h b).sof then settleP h b (failAttempt h b St.LINE_ABORTED s1) else s1)

def State.orphansNow (s : State) : BitVec 64 :=
  BitVec.ofNat 64 ((List.range 64).foldl (fun n b => n + (if s.orphaned b then 2 ^ b else 0)) 0)

/-- The bays that have become orphaned, and those that no longer are, after a change of a half's health or of a seat. The
coding of an orphaned bay's channels is interrupted (R307). -/
def refreshOrphans (s : State) : State :=
  let was := s.orphans
  let now := s.orphansNow
  if was = now then s
  else
    let s1 := { s with orphans := now }
    let fresh := (List.range 64).filter (fun b => now.getLsbD b && !was.getLsbD b)
    let freed := (List.range 64).filter (fun b => was.getLsbD b && !now.getLsbD b)
    let s2 := if fresh = [] then s1 else s1.put oneKey Reg.REF_STAT_ORPHAN 1
    let s3 := fresh.foldl (fun s b => syncBayPads b (abortLine b (noteGap b s))) s2
    freed.foldl (fun s b => syncBayPads b (syncLinePath b s)) s3

/-! ## Moves (R61, R64, R68 to R70, R81, R82) -/

/-- One seat; with it the coding of the bay's channels moves (R338). -/
def setSeat (b : Nat) (h : Half) (s : State) : State :=
  let bit := BitVec.twoPow 64 b
  if s.holder b = h then s
  else { noteGap b s with seats := if h = .B then s.seats ||| bit else s.seats &&& ~~~bit }

/-- Seats of bays move to a half: counted, with the cause recorded; lines follow at once or at the end of a frame (R69). -/
def moveSeats (bs : List Nat) (h : Half) (cause : Nat) (bay : Nat) (s : State) : State :=
  if bs = [] then s
  else
    let s1 := bs.foldl (fun s b => setSeat b h s) s
    let s2 := s1.count (oneKey + Reg.REF_MOVES) bs.length
    let s3 := s2.setReg (oneKey + Reg.REF_CAUSE) (BitVec.ofNat 20 (256 * bay + 16 * h.other.num + cause))
    bs.foldl (fun s b => syncLinePath b s) s3

/-- Staging words that the stewards of a half wrote to a block's registers and did not commit are discarded (R70). -/
def dropStaging (h : Half) (blk : Nat) (s : State) : State :=
  { s with staging := s.staging.filter (fun e =>
      !(decide (e.1 / 0x100000 < 8) && decide (stewHalf (e.1 / 0x100000) = h)
        && decide (addrBlk (e.1 % 0x100000) = some blk))) }

/-- PRF_STAT shows the same in both halves (R109). -/
def setPrf (f : Fld) (v : Nat) (s : State) : State := (s.put (halfKey .A) f v).put (halfKey .B) f v

/-- The command bytes of the PMBus sequencer: one group command to both regulators (R629, R630). -/
def vout (mv n : Nat) : Nat :=
  let e := signed 5 n
  let p := 2 ^ e.natAbs
  if e ≤ 0 then (2 * mv * p + 1000) / 2000 else (2 * mv + 1000 * p) / (2000 * p)

def pmbPart (s : State) (addr n mv : Nat) : List Byte :=
  let v := vout mv n
  let b := [BitVec.ofNat 8 (2 * addr), 0x21, BitVec.ofNat 8 v, BitVec.ofNat 8 (v / 256)]
  if s.flag oneKey Reg.TW7_PMB_PEC then b ++ [BitVec.ofNat 8 (crcBits 8 0x07 0 (bytesBits b))] else b

/-- VOUT_MODE is read from each regulator when EN is set: of the set EN that a reset leaves, before the first group
command; only linear mode is accepted (R629). -/
def readModes (s : State) : State :=
  let a := (Config.voutMode 0).toNat
  let b := (Config.voutMode 1).toNat
  let s1 := (s.put oneKey Reg.TW7_PMB_EXP_N_A (a % 32)).put oneKey Reg.TW7_PMB_EXP_N_B (b % 32)
  let s2 := s1.put oneKey Reg.TW7_PMB_BADMODE (if a / 32 = 0 ∧ b / 32 = 0 then 0 else 1)
  { s2 with pmbus := { s2.pmbus with modesRead := true } }

/-- The modes are read before the sequencer needs them. -/
def knowModes (s : State) : State := if s.pmbus.modesRead then s else readModes s

/-- VOUT_COMMAND is sent to both core regulators (R96, R629); whether both acknowledged comes from the bus. -/
def sendVout (mv : Nat) (acked : Bool) (s0 : State) : State :=
  let s := knowModes s0
  { s with pmbus :=
      { s.pmbus with
        sent := pmbPart s (s.get oneKey Reg.TW7_PMB_ADDR_A) (s.get oneKey Reg.TW7_PMB_EXP_N_A) mv
          ++ pmbPart s (s.get oneKey Reg.TW7_PMB_ADDR_B) (s.get oneKey Reg.TW7_PMB_EXP_N_B) mv,
        acked := acked } }

/-- The core voltage of a profile in mV (R95). -/
def profileMv : Profile → Nat
  | .noon => 900
  | .dusk => 750
  | .night => 620

/-- A profile request ends with a status; its source pulses in the runner of TW7 (R96, R526). -/
def endProfile (st : Nat) (s : State) : State :=
  (noteResult 0x23 (fun _ => true) st []
    { setPrf Reg.PRF_STAT_STATUS st (setPrf Reg.PRF_STAT_BUSY 0 s) with profileTarget := none }).pulseIrq
    (s.runner (blkTw 7)) 387

/-- A run-owner latch moves to a half (R70): what its block does at a move. -/
def setOwner (blk : Nat) (h : Half) (s : State) : State :=
  let old := s.runner blk
  if old = h then s
  else
    let bit : Word := BitVec.twoPow 20 blk
    let s1 := dropStaging old blk { s with owners := if h = .B then s.owners ||| bit else s.owners &&& ~~~bit }
    if blk = blkArchive then archiveMoved old s1
    else if blk = blkMet then noteGap 64 s1
    else if blk = blkTw 7 ∧ s.profileTarget.isSome then sendVout (profileMv s.profile) true (endProfile St.TAKEOVER s1)
    else s1

/-- Consumers owned by a half pass to the other (R548). Those that no one has configured keep their reset owner until a
move, which lists them. -/
def moveConsumers (h : Half) (mark : Bool) (s : State) : State :=
  (List.range 144).foldl (fun s c =>
    let k := s.consumer c
    if k.owner = h.num then s.setConsumer c { k with owner := h.other.num, moved := mark || k.moved } else s) s

/-- An entry to a power state in progress is abandoned (R646, R660): the first refuser. -/
def abandonEntry (block : Nat) (s : State) : State :=
  if s.power.entering.isSome then
    let s1 := ((s.put oneKey Reg.PWR_ST_STATUS St.PWR_REFUSED).put oneKey Reg.PWR_ST_BLOCK block).put oneKey Reg.PWR_ST_BUSY 0
    let s2 := match s.power.requester with
      | some h => s1.put (halfKey h) Reg.HP_STAT_REFUSED 1
      | none => s1
    { s2 with power := { s2.power with entering := none, requester := none } }
  else s

/-- The envelope session of a path ends (R515): paths CPA, CPB, fabric as 0 to 2. -/
def endSession (path : Nat) (s : State) : State :=
  if s.flag oneKey Reg.ENV_STAT_OPEN && decide (s.get oneKey Reg.ENV_STAT_PATH = path) then
    s.put oneKey Reg.ENV_STAT_OPEN 0
  else s

/-! ## Yields (R59 to R61) -/

def yieldFlag : Half → Fld
  | .A => Reg.REF_STAT_YIELD_A
  | .B => Reg.REF_STAT_YIELD_B

def takeFlag : Half → Fld
  | .A => Reg.REF_STAT_TAKEOVER_A
  | .B => Reg.REF_STAT_TAKEOVER_B

/-- The stewards of a half. -/
def halfStewards (h : Half) : List Nat := (List.range 4).map (fun i => 4 * h.num + i)

def stopStewards (h : Half) (s : State) : State :=
  (halfStewards h).foldl (fun s k => stopNow k (s.put (stewKey k) Reg.STW_CTL_RUN 0)) s

/-- The bays whose seats a half holds. -/
def State.baysOf (s : State) (h : Half) : List Nat := (List.range 64).filter (fun b => decide (s.holder b = h))

/-- What a yield does apart from the moves (R61, R602, R660). -/
def yieldMarks (h : Half) (s : State) : State :=
  let s1 := endExecuting h (stopStewards h (abandonEntry 1 s))
  let s3 := s1.put oneKey Reg.ENV_STAT_OPEN 0
  (s3.setHalf h { s3.half h with yielded := true, cold := false }).put oneKey (yieldFlag h) 1

/-- A half yields (R61): cause, and the bay of cause 3. A yield of a half that holds no seat is recorded all the same, with bay
0 (DESIGN CHOICE, log entry 113). -/
def yieldHalf (h : Half) (cause : Nat) (bay : Option Nat) (s : State) : State :=
  if (s.half h).yielded then s
  else
    let bs := s.baysOf h
    let o := h.other
    let s1 := yieldMarks h s
    let s2 := moveSeats bs o cause (bay.getD (bs.headD 0)) s1
    let s3 := if bs = [] then
        s2.setReg (oneKey + Reg.REF_CAUSE) (BitVec.ofNat 20 (256 * bay.getD 0 + 16 * h.num + cause)) else s2
    let s4 := (List.range 17).foldl (fun s k => setOwner k o s) s3
    let s5 := moveConsumers h false (s4.put oneKey (takeFlag o) 1)
    let s6 := if s5.healthy o then s5 else s5.put oneKey Reg.REF_STAT_DUAL_FAULT 1
    raiseEvent evTakeover (refreshOrphans s6)

/-- Both halves yield in one stage (R65): both yields are recorded and no seat changes. -/
def yieldBoth (s : State) : State :=
  refreshOrphans ((yieldMarks .B (yieldMarks .A s)).put oneKey Reg.REF_STAT_DUAL_FAULT 1)

/-! ## Half reset (R61, R63, R641) -/

/-- A table without the entries in a range of numbers. -/
def tblCut {α : Type} (t : Tbl α) (start n : Nat) : Tbl α :=
  t.filter (fun e => decide (e.1 < start) || decide (start + n ≤ e.1))

/-- A boot flash operation of a half that is reset completes, and its result is discarded (R513). -/
def discardFlash (h : Half) (o : FlashOp) : FlashOp :=
  if o.src = FlashSource.own h ∨ o.src = FlashSource.cross h then { o with src := FlashSource.gone } else o

/-- Whether the place of a snapshot or of a staged word belongs to a register of a half's domain (R12): its own system space, its
copies of the bays and its memory control; poll entries and channels as their snapshots are placed. -/
def ofDomain (h : Half) (key : Nat) : Bool :=
  if 0x8000000 ≤ key then decide ((key - 0x8000000) / 0x10000 % 2 = h.num)
  else if 0x1000000 ≤ key then decide ((key - 0x1000000) / 0x10000 % 2 = h.num)
  else
    let a := key % 0x100000
    let x := if h = .A then a else a - 0x80000
    (decide (h = .A) || decide (0x80000 ≤ a)) && (decide (x < 0x1000) || (decide (0x10000 ≤ x) && decide (x < 0x30000)))

/-- The staged words that a half's reset takes: those of its own stewards, and those of its registers. -/
def stagingOf (h : Half) (key : Nat) : Bool :=
  if 0x1000000 ≤ key then decide ((key - 0x1000000) / 0x100000 / 4 = h.num)
  else decide (key / 0x100000 / 4 = h.num) || ofDomain h key

/-- PRF_STAT of a half whose registers have been reset still shows the change in progress (R109). -/
def keepProfile (h : Half) (s : State) : State :=
  match s.profileTarget with
  | some p =>
    (s.put (halfKey h) Reg.PRF_STAT_BUSY 1).put (halfKey h) Reg.PRF_STAT_TARGET
      (match p with | .noon => 0 | .dusk => 1 | .night => 2)
  | none => s

/-- A half enters half reset: its stewards, its interrupt controller and its registers are reset, its copies of the bays
among them (R641, R67); what its engines hold is sealed or lost (R72), and a frame it was sending is a failed attempt of the
new holder's copy (R69). The profile in force gives its defaults (R98). -/
def resetHalf (h : Half) (cause : Nat) (s : State) : State :=
  let s0 := abandonCoding h s
  let n := h.num
  let cutOps := s0.flashOps.map (fun (e : Nat × List FlashOp) => (e.1, e.2.map (discardFlash h)))
  let s1 : State := { s0 with
    regs := tblCut s0.regs (halfKey h) 0x100000
    staging := s0.staging.filter (fun e => !stagingOf h e.1)
    snaps := s0.snaps.filter (fun e => !ofDomain h e.1)
    timebases := tblCut s0.timebases (64 * n) 64
    slots := tblCut s0.slots (1024 * n) 1024
    lines := tblCut s0.lines (64 * n) 64
    engines := tblCut s0.engines (64 * n) 64
    mirrors := tblCut s0.mirrors (64 * n) 64
    progs := tblCut s0.progs (64 * n * 512) (64 * 512)
    pollEntries := tblCut s0.pollEntries (64 * n * 256) (64 * 256)
    pipes := tblCut s0.pipes (64 * n) 64
    recogs := tblCut s0.recogs (64 * n * 64) (64 * 64)
    chanCfgs := tblCut s0.chanCfgs (0x10000 * n) 0x10000
    stewards := tblCut s0.stewards (4 * n) 4
    flashOps := cutOps }
  let p := s.profile
  let s2 := s1.setHalf h
    { HalfState.reset with supplyOk := (s.half h).supplyOk, held := (s.half h).held, cold := (s.half h).cold, bootCause := cause,
                           defaults := ⟨p, p, p, p⟩ }
  let s3 := keepProfile h s2
  let lost := (List.range 64).filter (fun b =>
    decide (Half.ofBit (s.referee.linePath.getLsbD b) = h) && s.transmitting h b)
  let s4 := (List.range 64).foldl (fun s b => syncLinePath b (if lost.contains b then abortLine b s else s)) s3
  (List.range 1024).foldl (fun s t => if s.livePath t = h then syncPad t s else s) (refreshOrphans s4)

end Sys2Proof.Machine
end

