-- ==== Sys2Proof/Machine/Halves.lean ====
section
/-! DEFINITION. The watch, the budget governor, health, seat requests, mirror synchronisation and profiles: the commands of
the two halves (R46 to R110). -/

namespace Sys2Proof.Machine

/-- TRANSFER_REQUEST (R89): the resource is held for the activity for a number of TREF counts. -/
def execTransferRequest (h : Half) (a : Fin 16) (r : Fin 4) (hold : Nat) (s : State) : Result :=
  if decide (0 < hold) then
    let place := 4 * a.val + r.val
    .next (if s.computes h then
      (if (s.withheld h place).isSome then withhold h place hold s
      else
        match admitTransfer h place s with
        | some s1 => chargeTransfer h place hold s1
        | none => withhold h place hold s)
    else s)
  else .fault .illFormed

/-- STALLED_REQUEST_ACK (R89): the oldest request withheld at a place, once a grain is there for it. -/
def execStalledRequestAck (h : Half) (a : Fin 16) (r : Fin 4) (s : State) : Result :=
  let place := 4 * a.val + r.val
  .next (match s.withheld h place with
    | some w =>
      (match admitTransfer h place s with
       | some s1 => drainInject (chargeTransfer h place w.2.1 (release h w s1))
       | none => s)
    | none => s)

/-- The grains an activity lends at the release point (R90). -/
def State.lendable (s : State) (h : Half) (place : Nat) : Nat :=
  if s.flag (halfKey h + place / 4) Reg.BG_BOR_LEND then
    let n := (s.unspent h place).toNat / 200 - tblGet (s.budget h).borrowed 0 place
    if isFloored (place / 4) then min n (s.grantAt h place - s.floorAt h place) else n
  else 0

/-- LEND_RELEASE (R90). -/
def execLendRelease (h : Half) (s : State) : Result :=
  .next (if s.computes h && s.trefRuns && decide (s.get (halfKey h) Reg.BG_CTL_LATE ≠ 0) then
    (List.range 48).foldl (fun s p =>
      let n := s.lendable h p
      let b := s.budget h
      s.setBudget h
        { b with
          lent := tblSet b.lent 0 p (tblGet b.lent 0 p + n),
          pool := tblSet b.pool 0 (p % 4) (tblGet b.pool 0 (p % 4) + n) }) s
  else s)

/-- A write of BG_COMMIT (R88, R102). -/
def writeBgCommit (h : Half) (w : Word) (s : State) : State :=
  if w.getLsbD 0 then s.put (halfKey h) Reg.BG_STAT_PENDING 1 else s

/-- BUDGET_COMMIT (R88). -/
def execBudgetCommit (h : Half) (s : State) : Result := .next (if s.computes h then writeBgCommit h 1 s else s)

/-- A write of BG_GRANT is staged (R88, R104). -/
def writeBgGrant (h : Half) (place : Nat) (w : Word) (s : State) : State :=
  s.setBudget h { s.budget h with staged := tblPut (s.budget h).staged place w.toNat }

/-- A write of BG_LEN, carried to both halves (R93); one in half reset takes it from the other when it leaves. -/
def writeBgLen (h : Half) (w : Word) (s : State) : State :=
  let us := bits w 13 0
  let put (g : Half) (s : State) : State := s.setBudget g { s.budget g with nextLen := some us }
  if 250 ≤ us ∧ us ≤ 10000 then put .B (put .A s)
  else s.put (halfKey h) Reg.BG_STAT_LEN_BAD 1

/-- WATCH_LENGTH_WRITE (R93). -/
def execWatchLengthWrite (h : Half) (us : Word) (s : State) : Result :=
  .next (if s.computes h then writeBgLen h us s else s)

/-! ## The watch boundary (R52, R54, R66, R86, R88, R91, R92, R96, R98) -/

/-- Grants follow the profile's defaults (R94, R98). A change of FOLLOW alone brings them at the next change of W or of the
profile (DESIGN CHOICE, log entry 113). -/
def State.grantsFollow (s : State) (h : Half) : Bool :=
  s.flag (halfKey h) Reg.BG_CTL_FOLLOW && !s.flag (halfKey h) Reg.PRF_OVR_GRANTS

/-- The default grants of the profile in force for the watch length in force (R94, R98), where R98 gives one. -/
def defaultGrants (h : Half) (s : State) : State :=
  (List.range 48).foldl (fun s p =>
    let g := profileGrant s.profile (p / 4) (p % 4)
    if g = 0 then s else s.setReg (halfKey h + Reg.BG_GRANT + p) (BitVec.ofNat 20 (g * s.watchUs h / 1000))) s

/-- The floors of a watch (R86). -/
def updateFloors (h : Half) (s : State) : State :=
  let n := (s.baysOf h).length
  let w := s.watchUs h
  let floor (rate : Nat) : Word := BitVec.ofNat 20 ((rate * w + 999) / 1000)
  ((s.setReg (halfKey h + Reg.BG_FLOOR) (floor (4 * n))).setReg (halfKey h + Reg.BG_FLOOR + 1) (floor (6 * n))).setReg
    (halfKey h + Reg.BG_FLOOR + 2) (floor 250)

/-- Step 5 of R96: the defaults of the classes that are not overridden. A cleared PRF_OVR bit alone brings its default at the
next profile change (DESIGN CHOICE, log entry 113). -/
def applyDefaults (h : Half) (s : State) : State :=
  let x := s.half h
  let d := x.defaults
  let pick (f : Fld) (old : Profile) : Profile := if s.flag (halfKey h) f then old else s.profile
  let d1 : Defaults :=
    ⟨pick Reg.PRF_OVR_PRESET d.preset, pick Reg.PRF_OVR_TOL d.tol, pick Reg.PRF_OVR_LINE_RATE d.lineRate,
      pick Reg.PRF_OVR_SEAL d.sealing⟩
  let s1 := s.setHalf h { x with defaults := d1, defaultsDue := false }
  let s2 := if d1.preset = d.preset then s1 else retunePresets h s1
  if s2.grantsFollow h then defaultGrants h s2 else s2

/-- A new watch length takes effect, and the floors and default grants are computed for it (R86, R93, R94). -/
def applyLength (h : Half) (s : State) : State :=
  match (s.budget h).nextLen with
  | some us =>
    let was := s.watchUs h
    let s1 := (s.setReg (halfKey h + Reg.BG_LEN) (BitVec.ofNat 20 us)).setBudget h { s.budget h with nextLen := none }
    if us = was then s1
    else
      let s2 := updateFloors h s1
      if s2.grantsFollow h then defaultGrants h s2 else s2
  | none => s

/-- Step 1 of R91: the spending of the watch just ended, and the debt it leaves (R89). -/
def recordSpending (h : Half) (s : State) : State :=
  (List.range 48).foldl (fun s p =>
    s.setReg (halfKey h + Reg.BG_USED + p) (BitVec.ofNat 20 (min 0xFFFFF (grains (tblGet (s.budget h).spent 0 p))))) s

def State.nextDebt (s : State) (h : Half) : Tbl Nat :=
  (List.range 48).foldl (fun t p => tblSet t 0 p (grains (-(s.unspent h p)).toNat)) []

/-- The grants with the staged ones in place of those in force (R88). -/
def State.stagedGrant (s : State) (h : Half) (p : Nat) : Nat := (tblFind (s.budget h).staged p).getD (s.grantAt h p)

/-- The commit check of R88. -/
def State.commitFits (s : State) (h : Half) : Bool :=
  [0, 1, 2, 3].all (fun r =>
    decide (((placesOf r).map (fun p => max (s.stagedGrant h p) (s.floorAt h p))).sum ≤ capacity r (s.watchUs h)))

/-- Where the watch length was shortened and no commit waits, the check of R88 is repeated on the grants in force (R94). -/
def recheckGrants (h : Half) (was : Nat) (s : State) : State :=
  let key := halfKey h
  if s.watchUs h < was ∧ s.flag key Reg.BG_STAT_PENDING = false then
    if [0, 1, 2, 3].all (fun r =>
        decide (((placesOf r).map (fun p => s.effective h p)).sum ≤ capacity r (s.watchUs h))) then
      s.put key Reg.BG_STAT_COMMIT_ST St.OK
    else (s.put key Reg.BG_STAT_COMMIT_BAD 1).put key Reg.BG_STAT_COMMIT_ST St.BUDGET_OVER
  else s

/-- A commit asked for is checked and applied, or refused with the staging kept (R88). -/
def applyCommit (h : Half) (s : State) : State :=
  let key := halfKey h
  if s.flag key Reg.BG_STAT_PENDING then
    let s1 := s.put key Reg.BG_STAT_PENDING 0
    if s.commitFits h then
      let s2 := (s.budget h).staged.foldl (fun s (e : Nat × Nat) => s.setReg (key + Reg.BG_GRANT + e.1) (BitVec.ofNat 20 e.2)) s1
      (s2.setBudget h { s2.budget h with staged := [] }).put key Reg.BG_STAT_COMMIT_ST St.OK
    else (s1.put key Reg.BG_STAT_COMMIT_BAD 1).put key Reg.BG_STAT_COMMIT_ST St.BUDGET_OVER
  else s

/-- A grant that is not a floor: that of an activity without a floor, or one that exceeds its activity's floor (R87, R92). -/
def State.aboveFloor (s : State) (h : Half) (p : Nat) : Bool := !isFloored (p / 4) || decide (s.floorAt h p < s.grantAt h p)

/-- The squeeze of one resource (R92): F is the sum of the floors, G that of the grants that are no floors. -/
def squeeze (h : Half) (r : Nat) (s : State) : State :=
  let c := capacity r (s.watchUs h)
  let f := ((placesOf r).map (fun p => s.floorAt h p)).sum
  let loose := (placesOf r).filter (fun p => s.aboveFloor h p)
  let g := (loose.map (fun p => s.grantAt h p)).sum
  if c < ((placesOf r).map (fun p => s.effective h p)).sum ∧ 0 < g then
    let s1 := loose.foldl (fun s p =>
      s.setReg (halfKey h + Reg.BG_GRANT + p) (BitVec.ofNat 20 (s.grantAt h p * (c - f) / g))) s
    let b := s1.budget h
    let s2 := s1.setBudget h { b with staged := b.staged.filter (fun e => !loose.contains e.1) }
    raiseEvent evBudgetSqueeze (s2.put (halfKey h) Reg.BG_STAT_SQUEEZED 1)
  else s

/-- A watch without a valid heartbeat counts as missed, once REF_BOOTWAIT has elapsed (R54, R57). -/
def countBeat (h : Half) (s : State) : State :=
  let key := halfKey h
  let s1 :=
    if s.flag key Reg.HLT_STAT_BEAT_OK then s.put key Reg.HLT_STAT_MISSED 0
    else if (s.half h).bootWait then s
    else s.put key Reg.HLT_STAT_MISSED (min 3 (s.get key Reg.HLT_STAT_MISSED + 1))
  s1.put key Reg.HLT_STAT_BEAT_OK 0

/-- What the boundary does in one half (R91): after step 1 a new W comes first, then the profile's due defaults, then the
commit (DESIGN CHOICE, log entry 113). -/
def halfBoundary (h : Half) (s : State) : State :=
  if s.computes h then
    let s1 := recordSpending h s
    let debt := s1.nextDebt h
    let s2 := applyXcfg h (applyLength h s1)
    let s3 := if (s2.half h).defaultsDue then applyDefaults h s2 else s2
    let s4 := updateFloors h (applyCommit h (recheckGrants h (s1.watchUs h) s3))
    let s5 := newWatch h debt ([0, 1, 2, 3].foldl (fun s r => squeeze h r s) s4)
    let s6 := s5.put (halfKey h) Reg.HLT_WATCH_SEQ (s5.get (halfKey h) Reg.HLT_WATCH_SEQ + 1)
    (ratioWatch h (countBeat h s6)).pulseIrq h 384
  else s

/-- What a half's copy of a bay has done in the watch, as numbers with their widths, in the order of R51: each slot's pad
command bands and their edges, the TALK frames, the line engine's bits and its state, the trip latches. -/
def State.mirrorParts (s : State) (h : Half) (b : Nat) : List (Nat × Nat) :=
  let m := s.mirror h b
  let x := s.engine h b
  let edges := m.edges.reverse
  (List.range 16).flatMap (fun k =>
      (edges.filter (fun e => decide (e.1 = k))).flatMap (fun e => [(2, e.2.1), (32, e.2.2)]))
    ++ m.frames.reverse.map (fun w => (20, w.toNat))
    ++ m.bits.reverse.map (fun v => (1, v.toNat))
    ++ [(1, x.bank), (9, x.pc), (32, x.tsr.toNat), (32, x.rsr.toNat), (32, x.crc.toNat), (4, x.run)]
    ++ (List.range 16).map (fun k => (1, s.get (termKey h (16 * b + k)) Reg.TS_STAT_TRIP))

/-- The mirror signature of a bay's copy (R51): the CRC-20 of its parts. -/
def State.signature (s : State) (h : Half) (b : Nat) : Nat :=
  crcBits 20 0x8359D 0xFFFFF ((s.mirrorParts h b).flatMap (fun p => natBits p.1 p.2))

/-- The signatures of a bay that the halves exchange differ (R52). -/
def State.signaturesDiffer (s : State) (b : Nat) : Bool :=
  decide (s.mirrorParts .A b ≠ s.mirrorParts .B b) && decide (s.signature .A b ≠ s.signature .B b)

/-- The mirror comparison (R51, R52): bays whose signatures differ, and those that the command names, in which one half's
hardware does not do what its state says (R58). A bay that one of the halves is still synchronising does not count (R67). A new
watch's signatures begin. -/
def compareMirrors (bs : List Nat) (s : State) : State :=
  let both := s.computes .A && s.computes .B
  let counted := (List.range 64).filter (fun b =>
    both && (s.half .A).synced.getLsbD b && (s.half .B).synced.getLsbD b && (bs.contains b || s.signaturesDiffer b))
  let again := counted.filter (fun b => s.referee.disagreed.getLsbD b)
  let mask : BitVec 64 := BitVec.ofNat 64 (counted.foldl (fun n b => n + 2 ^ b) 0)
  let s1 := s.count (oneKey + Reg.REF_MIS) counted.length
  let s2 := { s1 with mirrors := [], referee := { s1.referee with disagreed := mask } }
  if again = [] then s2
  else
    let q := s2.referee.question
    let s3 := { s2 with referee := { s2.referee with question := q ++ again.filter (fun b => !q.contains b) } }
    (s3.put (halfKey .A) Reg.HLT_STAT_SELF_BUSY 1).put (halfKey .B) Reg.HLT_STAT_SELF_BUSY 1

/-- A half that missed its third watch yields (R59). -/
def missedOut (s : State) (h : Half) : Bool :=
  s.computes h && !(s.half h).yielded && decide (s.get (halfKey h) Reg.HLT_STAT_MISSED = 3)

def yieldMissed (s : State) : State :=
  if missedOut s .A && missedOut s .B then yieldBoth s
  else if missedOut s .A then yieldHalf .A 2 none s
  else if missedOut s .B then yieldHalf .B 2 none s
  else s

/-- A healthy half takes orphaned bays, but for those of a half that has not had its time to boot (R66). -/
def takeOrphans (h : Half) (s : State) : State :=
  if s.healthy h && !s.healthy h.other && !(s.half h.other).cold then
    let bs := s.baysOf h.other
    refreshOrphans (moveSeats bs h 7 (bs.headD 0) s)
  else s

/-- The referee confirms the boot slot of a half at its first boundary healthy and synchronised (R502). -/
def confirmBoot (h : Half) (s : State) : State :=
  let key := oneKey + h.num
  if s.healthy h && (s.half h).confirmDue then
    ((s.setHalf h { s.half h with confirmDue := false }).put key Reg.BOOT_SEL_CONFIRMED 1).put key Reg.BOOT_SEL_TRIES 0
  else s

/-- WATCH_BOUNDARY (R91): with the bays in which a half's hardware fails, so that their signatures disagree though the copies
agree. No boundary occurs while TREF is stopped. Packets that waited for a grain are injected from the new watch's (R89). -/
def execWatchBoundary (disagree : List (Fin 64)) (s : State) : Result :=
  if disagree.Nodup then
    .next (if s.trefRuns then
      let s1 := halfBoundary .B (halfBoundary .A s)
      let s2 := compareMirrors (disagree.map (fun b => b.val)) (raiseEvent evWatch s1)
      let s3 := refreshOrphans (yieldMissed s2)
      drainInject (confirmBoot .B (confirmBoot .A (takeOrphans .B (takeOrphans .A s3))))
    else s)
  else .fault .illFormed

/-! ## Health (R54 to R63) -/

/-- A write of HLT_BEAT (R54, R75); one given once mirror synchronisation is complete ends orphaning (R47). -/
def writeBeat (h : Half) (w : Word) (s : State) : State :=
  if bits w 7 0 = s.get (halfKey h) Reg.HLT_WATCH_SEQ then
    let s1 := s.put (halfKey h) Reg.HLT_STAT_BEAT_OK 1
    let x := s1.half h
    refreshOrphans (s1.setHalf h
      { x with beatSeen := true, beatSynced := x.beatSynced || s1.flag (halfKey h) Reg.HLT_STAT_SYNCED })
  else s

/-- HEARTBEAT (R54). -/
def execHeartbeat (h : Half) (seq : BitVec 8) (s : State) : Result :=
  .next (if s.computes h then writeBeat h (seq.zeroExtend 20) s else s)

/-- A write of HLT_YIELD (R59, R76). -/
def writeYield (h : Half) (w : Word) (s : State) : State :=
  if w = 0x0FA17 then yieldHalf h 1 none s else s

/-- A half that can yield: it computes, and has not yielded. -/
def State.mayYield (s : State) (h : Half) : Bool := s.computes h && !(s.half h).yielded

/-- DECLARE_FAULT (R59): a steward declares its half, or stewards of both halves theirs in one handshake stage (R65). -/
def execDeclareFault (h : Halves) (key : Word) (s : State) : Result :=
  .next (match h with
    | .one h => if s.computes h then writeYield h key s else s
    | .both =>
      if decide (key = 0x0FA17) && s.mayYield .A && s.mayYield .B then yieldBoth s
      else s.onCopies (fun h s => writeYield h key s))

/-- The result of a half's self-check (R58, R60). -/
def setSelf (h : Half) (pass : Bool) (s : State) : State :=
  if s.computes h then
    (s.put (halfKey h) Reg.HLT_STAT_SELF_BUSY 0).put (halfKey h) Reg.HLT_STAT_SELF_FAIL
      (if pass && !(s.half h).selfStuck then 0 else 1)
  else s

/-- The outcome of the self-checks for a bay that disagreed in two consecutive watches, whose holder was h (R60). -/
def settleBay (passA passB : Bool) (h : Half) (b : Nat) (s : State) : State :=
  let hold := if h = .A then passA else passB
  let shade := if h = .A then passB else passA
  if !hold && shade then yieldHalf h 3 (some b) s
  else if hold && !shade then s.setHalf h.other { s.half h.other with selfStuck := true }
  else if hold && shade then s.put oneKey Reg.REF_STAT_MIRROR_SPLIT 1
  else s.put oneKey Reg.REF_STAT_DUAL_FAULT 1

/-- SELF_CHECK_DONE (R60): each bay in question is settled, by its holder when both checks completed. -/
def execSelfCheckDone (passA passB : Bool) (s : State) : Result :=
  .next (if s.referee.question = [] then s
    else
      let s0 := { s with referee := { s.referee with question := [] } }
      let s1 := setSelf .B passB (setSelf .A passA s0)
      refreshOrphans (s.referee.question.foldl (fun u b => settleBay passA passB (s.holder b) b u) s1))

def supplyFlag : Half → Fld
  | .A => Reg.REF_STAT_SUPPLY_A
  | .B => Reg.REF_STAT_SUPPLY_B

/-- The core supply of a half has failed, and is shown to have (R63). -/
def loseSupply (h : Half) (s : State) : State :=
  (s.setHalf h { s.half h with supplyOk := false }).put oneKey (supplyFlag h) 1

/-- A half whose supply fails yields, one in half reset too, and enters half reset (R62, R63). -/
def failSupply (h : Half) (s : State) : State :=
  if (s.half h).supplyOk then resetHalf h 4 (yieldHalf h 4 none (loseSupply h s)) else s

/-- SUPPLY_FAIL (R62, R63): of one half, or of both in one handshake stage, where neither yields to the other (R65); the
monitors are disarmed in DEEP. -/
def execSupplyFail (h : Halves) (s : State) : Result :=
  .next (if decide (s.power.mode = .deep) || decide (s.power.mode = .off) then s
    else
      match h with
      | .one h => failSupply h s
      | .both =>
        if s.halfA.supplyOk && s.halfB.supplyOk && !s.halfA.yielded && !s.halfB.yielded then
          resetHalf .B 4 (resetHalf .A 4 (yieldBoth (loseSupply .B (loseSupply .A s))))
        else failSupply .B (failSupply .A s))

/-- What keeps a half in half reset (R63, R511, R642, R643). -/
def State.mayLeaveReset (s : State) (h : Half) : Bool :=
  (s.half h).inReset && (s.half h).supplyOk && !(s.half h).held && s.trefRuns && s.power.vaon && !s.power.resetLow
    && decide (s.power.mode = .run) && s.power.testN

/-- A half that leaves half reset takes the watch length and CE_XCFG in force, and those that wait, from the other half (R93,
R349; that it does is a DESIGN CHOICE, log entry 113), and the default grants of the profile for it (R94, R98). -/
def takeLength (h : Half) (s : State) : State :=
  let o := h.other
  let s1 := if s.computes o then
      let t := s.setRegs [(halfKey h + Reg.BG_LEN, s.reg (halfKey o + Reg.BG_LEN)),
        (halfKey h + Reg.CE_XCFG, s.reg (halfKey o + Reg.CE_XCFG))]
      t.setHalf h { t.half h with nextXcfg := (t.half o).nextXcfg, budget := { t.budget h with nextLen := (t.budget o).nextLen } }
    else s
  if s1.grantsFollow h then defaultGrants h s1 else s1

/-- A half leaves half reset: its first steward runs the boot ROM (R57, R63, R495). -/
def leaveReset (h : Half) (s : State) : State :=
  let p := s.profile
  let s1 := s.setHalf h { s.half h with inReset := false, booting := true, bootWait := true, defaults := ⟨p, p, p, p⟩ }
  newWatch h [] (startRequest (4 * h.num) (takeLength h s1))

/-- SUPPLY_RECOVERY (R62, R63). -/
def execSupplyRecovery (h : Half) (s : State) : Result :=
  let s1 := s.setHalf h { s.half h with supplyOk := true }
  .next (if s1.mayLeaveReset h then leaveReset h s1 else s1)

/-- HALF_RESET_ENTRY (R61, R72): a yielded half enters half reset. -/
def execHalfResetEntry (h : Half) (s : State) : Result :=
  .next (if (s.half h).yielded && !(s.half h).inReset then resetHalf h 2 s else s)

def bootLateFlag : Half → Fld
  | .A => Reg.REF_STAT_BOOT_LATE_A
  | .B => Reg.REF_STAT_BOOT_LATE_B

/-- BOOTWAIT_EXPIRY (R57, R66). -/
def execBootwaitExpiry (h : Half) (s : State) : Result :=
  .next (if s.computes h && (s.half h).bootWait then
    let s1 := s.setHalf h { s.half h with bootWait := false, cold := false }
    if (s.half h).beatSeen then s1 else s1.put oneKey (bootLateFlag h) 1
  else s)

/-! ## Seat requests (R64) -/

/-- The block of a half's SEAT_RES, which lies in the Vigil domain (R79). -/
def resKey (h : Half) : Nat := 0x400000 + h.num * 0x100000

/-- Where the outcome of a master's requests is reported (R79): in the SEAT_RES of its half. The VC's refused requests are
reported in a SEAT_RES of its own (DESIGN CHOICE, log entry 113). -/
def resultKey (s : State) (m : Master) : Nat :=
  if isVc m then oneKey else resKey (s.masterHalf m)

/-- The outcome of a request: its bay, its status, and whether a move was accepted (R79). -/
def reportSeat (m : Master) (bay st : Nat) (moved : Bool) (s : State) : State :=
  let key := resultKey s m
  ((s.put key Reg.SEAT_RES_BAY bay).put key Reg.SEAT_RES_STATUS st).put key Reg.SEAT_RES_PEND (if moved then 1 else 0)

/-- A yielded half's stewards are stopped, so that a request of theirs coincides with the yield, which is applied first: a give
has its effect, a claim has not (R65). -/
def State.coincides (s : State) (m : Master) : Bool := !isHost m && (s.half (s.masterHalf m)).yielded

/-- A give of bays that a half holds (R64), with the cause that REF_CAUSE records (R81). -/
def giveSeats (h : Half) (bs : List Nat) (cause : Nat) (s : State) : Nat × State :=
  if bs = [] then (St.OK, s)
  else if s.healthy h.other then (St.OK, refreshOrphans (moveSeats bs h.other cause (bs.headD 0) s))
  else (St.PARTNER_NOT_READY, s)

/-- A give asked for by a master: of one bay, or of every bay its half holds. A command port's request acts for the half that
runs the port (DESIGN CHOICE, log entry 113). -/
def seatGive (m : Master) (all : Bool) (bay : Nat) (s : State) : State :=
  let h := s.masterHalf m
  if isVc m then reportSeat m bay St.NOT_HOLDER false s
  else if s.coincides m then reportSeat m (if all then 0 else bay) St.OK true s
  else if all then
    let bs := s.baysOf h
    let o := giveSeats h bs 6 s
    reportSeat m (bs.headD 0) o.1 (decide (o.1 = St.OK) && !bs.isEmpty) o.2
  else if s.holder bay = h then
    let o := giveSeats h [bay] 6 s
    reportSeat m bay o.1 (decide (o.1 = St.OK)) o.2
  else reportSeat m bay St.NOT_HOLDER false s

/-- A claim asked for by a master: of one bay, or of every bay its half does not hold. Refusals of several bays raise
EV_DUAL_CLAIM once (DESIGN CHOICE, log entry 113). -/
def seatClaim (m : Master) (all : Bool) (bay : Nat) (s : State) : State :=
  let h := s.masterHalf m
  if isVc m then reportSeat m bay St.NOT_HOLDER false s
  else if s.coincides m then reportSeat m (if all then 0 else bay) St.PARTNER_NOT_READY false s
  else
    let bs := if all then s.baysOf h.other else if s.holder bay = h then [] else [bay]
    let won := bs.filter (fun b => s.orphaned b && s.healthy h)
    let s1 := refreshOrphans (moveSeats won h 6 (won.headD 0) s)
    let named := if all then bs.headD 0 else bay
    if won.length = bs.length then reportSeat m named St.OK (!won.isEmpty) s1
    else raiseEvent evDualClaim (reportSeat m named St.DUAL_CLAIM (!won.isEmpty) (s1.put oneKey Reg.REF_STAT_DUAL_CLAIM 1))

/-- A write of SEAT_REQ (R64, R78). -/
def writeSeatReq (m : Master) (w : Word) (s : State) : State :=
  if bits w 19 18 = 1 then seatGive m (w.getLsbD 6) (bits w 5 0) s
  else if bits w 19 18 = 2 then seatClaim m (w.getLsbD 6) (bits w 5 0) s
  else s

/-- SEAT_GIVE (R64). -/
def execSeatGive (m : Master) (all : Bool) (bay : Fin 64) (s : State) : Result := .next (seatGive m all bay.val s)

/-- SEAT_CLAIM (R64). -/
def execSeatClaim (m : Master) (all : Bool) (bay : Fin 64) (s : State) : Result := .next (seatClaim m all bay.val s)

/-! ## Mirror synchronisation (R67) -/

/-- A table with the entries of one range copied over another. -/
def tblCopy {α : Type} (t : Tbl α) (src dst n : Nat) : Tbl α :=
  (t.filter (fun e => decide (src ≤ e.1) && decide (e.1 < src + n))).foldl
    (fun u (e : Nat × α) => tblPut u (e.1 - src + dst) e.2) (tblCut t dst n)

/-- A half's copy of a bay becomes that of the other half. -/
def copyBay (h : Half) (b : Nat) (s : State) : State :=
  let o := h.other
  let x := bayIx h b
  let y := bayIx o b
  { s with
    regs := tblCopy s.regs (bayKey o b) (bayKey h b) 0x400
    timebases := tblCopy s.timebases y x 1
    slots := tblCopy s.slots (slotIx o (16 * b)) (slotIx h (16 * b)) 16
    lines := tblCopy s.lines y x 1
    engines := tblCopy s.engines y x 1
    progs := tblCopy s.progs (512 * y) (512 * x) 512
    pollEntries := tblCopy s.pollEntries (256 * y) (256 * x) 256
    pipes := tblCopy s.pipes y x 1
    recogs := tblCopy s.recogs (64 * y) (64 * x) 64
    mirrors := tblCopy s.mirrors y x 1
    chanCfgs := tblCopy (tblCopy s.chanCfgs (bushelIx o (256 * b)) (bushelIx h (256 * b)) 256)
      (bushelIx o (16384 + b)) (bushelIx h (16384 + b)) 1 }

/-- A bay counts as synchronised; after all 64 the half is (R67). -/
def markSynced (h : Half) (b : Nat) (s : State) : State :=
  let v := (s.half h).synced ||| BitVec.twoPow 64 b
  let s1 := s.setHalf h { s.half h with synced := v }
  if v = BitVec.allOnes 64 then refreshOrphans (s1.put (halfKey h) Reg.HLT_STAT_SYNCED 1) else s1

/-- MIRROR_SYNC_BAY (R67): whether the copied bay's signature then matches for one watch comes with the command: the copies
agree, and the half's hardware may fail. -/
def execMirrorSyncBay (h : Half) (bay : Fin 64) (agree : Bool) (s : State) : Result :=
  .next (if s.computes h && !(s.half h).yielded && !(s.half h).synced.getLsbD bay then
    if s.healthy h.other then
      let s1 := copyBay h bay s
      if agree then markSynced h bay s1 else s1
    else markSynced h bay s
  else s)

/-! ## Terminal paths (R68) -/

/-- TERMINAL_PATH_SWITCH (R68): at a period start of the slot, or once the exchange that held the switch off has ended. -/
def execTerminalPathSwitch (t : Fin 1024) (s : State) : Result :=
  .next (if s.onPhase t.val || s.referee.pathWaits.getLsbD t.val then syncPad t.val (takePath t.val s) else s)

/-! ## Profiles (R96) -/

def profileOf (n : Nat) : Profile := if n = 0 then .noon else if n = 1 then .dusk else .night

/-- A profile request by the runner of TW7 or a host (R96); whether both regulators acknowledge the group command comes with
it. -/
def requestProfile (target : Nat) (acked : Bool) (s0 : State) : State :=
  let s := if s0.flag oneKey Reg.TW7_PMB_EN then knowModes s0 else s0
  let busy := s.flag (halfKey (s.runner (blkTw 7))) Reg.PRF_STAT_BUSY
  if busy then setPrf Reg.PRF_STAT_STATUS St.BUSY (setPrf Reg.PRF_STAT_TARGET target s)
  else if target = 3 then setPrf Reg.PRF_STAT_STATUS St.BAD_PARAM (setPrf Reg.PRF_STAT_TARGET 3 s)
  else
    let p := profileOf target
    let s1 := setPrf Reg.PRF_STAT_TARGET target s
    if p = s.profile then endProfile St.OK s1
    else if s.flag oneKey Reg.TW7_PMB_BADMODE || !s.flag oneKey Reg.TW7_PMB_EN then endProfile St.PROFILE_TIMEOUT s1
    else sendVout (profileMv p) acked { setPrf Reg.PRF_STAT_BUSY 1 s1 with profileTarget := some p }

/-- A write of PRF_REQ: from a half that does not run TW7 it is refused (R96). -/
def writePrfReq (m : Master) (target : Nat) (acked : Bool) (s : State) : State :=
  if s.blockWriteOk m (blkTw 7) then requestProfile target acked s else s.refuseWrite (s.masterHalf m) Reg.PRF_REQ

/-- PROFILE_REQUEST (R96). -/
def execProfileRequest (m : Master) (target : BitVec 2) (acked : Bool) (s : State) : Result :=
  .next (writePrfReq m target.toNat acked s)

/-- A READ_VOUT lies within 2 % of a voltage in mV, under an exponent (R96, R629). -/
def voutNear (raw n mv : Nat) : Bool :=
  let e := signed 5 n
  let p := 2 ^ e.natAbs
  let got : Int := if e ≤ 0 then raw * 1000 else raw * 1000 * p
  let want : Int := if e ≤ 0 then mv * p else mv
  decide (50 * |got - want| ≤ want)

/-- Both regulators' READ_VOUT lie within 2 % of a voltage. -/
def State.voutsNear (s : State) (readA readB : Option (BitVec 16)) (mv : Nat) : Bool :=
  readA.any (fun v => voutNear v.toNat (s.get oneKey Reg.TW7_PMB_EXP_N_A) mv)
    && readB.any (fun v => voutNear v.toNat (s.get oneKey Reg.TW7_PMB_EXP_N_B) mv)

/-- REGULATOR_POLL (R96, R629, R651): what each regulator's READ_VOUT returns, none where its PEC fails or it does not
answer; a group command that was not acknowledged is repeated, and whether it now is comes with the command. In a return
from DEEP the regulators confirm the profile voltage. -/
def execRegulatorPoll (readA readB : Option (BitVec 16)) (acked : Bool) (s : State) : Result :=
  .next (match s.profileTarget with
    | none =>
      if s.power.returning = some 2 ∧ s.voutsNear readA readB (profileMv s.profile) = true then
        { s with power := { s.power with returning := some 3, regConfirmed := true } }
      else s
    | some p =>
      let mv := profileMv p
      let s1 := if s.pmbus.acked then s else sendVout mv acked s
      if s.voutsNear readA readB mv then
        let s2 := endProfile St.OK { s1 with profile := p }
        let s3 := { s2 with halfA := { s2.halfA with defaultsDue := true }, halfB := { s2.halfB with defaultsDue := true } }
        raiseEvent evProfile s3
      else s1)

/-- PROFILE_TIMEOUT (R96). -/
def execProfileTimeout (s : State) : Result :=
  .next (if s.profileTarget.isSome then sendVout (profileMv s.profile) true (endProfile St.PROFILE_TIMEOUT s) else s)

end Sys2Proof.Machine
end

