-- ==== Sys2Proof/Machine/Firmware.lean ====
section
/-! DEFINITION. Boot flash, images, the boot of a half, the Vigil core's firmware and rolling updates (R495 to R513). -/

namespace Sys2Proof.Machine

/-! ## Flash bytes (R496, R497) -/

def flashIx (f a : Nat) : Nat := f * 0x1000000 + a % 0x1000000

def State.flashByte (s : State) (f a : Nat) : Byte := tblGet s.flash 0xFF (flashIx f a)

def State.flashBytes (s : State) (f a n : Nat) : List Byte := (List.range n).map (fun i => s.flashByte f (a + i))

/-- A page program clears bits and sets none. -/
def programFlash (f a : Nat) (l : List Byte) (s : State) : State :=
  l.zipIdx.foldl (fun s (e : Byte × Nat) =>
    { s with flash := tblSet s.flash 0xFF (flashIx f (a + e.2)) (s.flashByte f (a + e.2) &&& e.1) }) s

def eraseFlash (f a : Nat) (s : State) : State := { s with flash := tblCut s.flash (flashIx f a) 4096 }

/-- The area of a slot: the half image, or the VC image (R497). -/
def slotBase (slot : Nat) (vc : Bool) : Nat := slot * 0x100000 + (if vc then 0xE0000 else 0)

/-! ## The OTP store (R506) -/

/-- The hash in a key slot. -/
def State.otpHash (s : State) (i : Nat) : List Byte := (tblFind s.otp.keys i).getD Config.factoryKey

/-- A key slot is programmed and not revoked. -/
def State.usableKey (s : State) (i : Nat) : Bool := s.otp.prog.getLsbD i && !s.otp.revoked.getLsbD i

/-! ## Images (R498 to R500) -/

/-- The fields of an image header. -/
structure Image where
  svn : Nat
  nwords : Nat
  start : Nat
  entry : Nat
  split : Nat
  deriving DecidableEq, Repr

def State.flashField (s : State) (f a n : Nat) : Nat := fromBytes (s.flashBytes f a n)

def State.imageAt (s : State) (f base : Nat) : Image :=
  ⟨s.flashField f (base + 8) 1, s.flashField f (base + 12) 4, s.flashField f (base + 16) 4, s.flashField f (base + 20) 4,
    s.flashField f (base + 24) 4⟩

/-- The bytes of a payload (R499). -/
def Image.bytes (i : Image) : Nat := (i.nwords + 1) / 2 * 5

/-- The first check of R500. -/
def State.imageFormat (s : State) (f base : Nat) (vc : Bool) : Bool :=
  let i := s.imageAt f base
  let zero (a n : Nat) : Bool := decide (s.flashField f (base + a) n = 0)
  decide (s.flashField f base 4 = 0x51534631) && decide (s.flashField f (base + 4) 1 = 1)
    && decide (s.flashField f (base + 5) 1 = (if vc then 2 else 1))
    && zero 6 2 && zero 9 3 && zero 100 28 && decide (i.svn < 64) && decide (0 < i.nwords)
    && (if vc then
        decide (i.nwords ≤ 16384) && decide (i.start = 0) && decide (i.entry < i.split) && decide (i.nwords ≤ i.split)
          && decide (i.split ≤ 16384)
      else
        decide (i.nwords ≤ 262144) && decide (i.start + i.nwords ≤ 0x40000) && decide (i.start ≤ i.entry)
          && decide (i.entry < i.start + i.nwords) && decide (i.split = 0))

/-- The checks of R500 in their order; whether the flash reads complete comes from outside. -/
def State.imageCheck (s : State) (f base : Nat) (vc reads : Bool) : Nat :=
  let i := s.imageAt f base
  let key := s.flashBytes f (base + 36) 64
  if !s.imageFormat f base vc then St.IMG_FORMAT
  else if i.svn < s.otp.minSvn then St.IMG_ROLLBACK
  else if !(List.range 4).any (fun k => s.usableKey k && decide (s.otpHash k = sha256 key)) then St.IMG_KEY
  else if !ecdsaValid key (s.flashBytes f (base + 128 + i.bytes) 64) (s.flashBytes f base (128 + i.bytes)) then
    St.IMG_SIGNATURE
  else if !reads then St.BOOT_FLASH
  else St.OK

/-- Words from the packed pairs of R499. -/
def unpackPairs : List Byte → List Word
  | a :: b :: c :: d :: e :: t =>
    let v := fromBytes [a, b, c, d, e]
    BitVec.ofNat 20 (v / 0x100000) :: BitVec.ofNat 20 v :: unpackPairs t
  | _ => []

def State.imageWords (s : State) (f base : Nat) : List Word :=
  let i := s.imageAt f base
  (unpackPairs (s.flashBytes f (base + 128) i.bytes)).take i.nwords

/-- The VC area of a slot holds no image (R497). -/
def State.noVcImage (s : State) (f slot : Nat) : Bool := decide (s.flashField f (slotBase slot true) 4 ≠ 0x51534631)

/-! ## The Vigil core's firmware (R509, R510) -/

/-- An accepted VC image goes into retained memory, and the VC starts at its ENTRY. -/
def startVc (f slot : Nat) (s : State) : State :=
  let base := slotBase slot true
  let i := s.imageAt f base
  let s1 := { s with vmem := [], vmemMarks := [] }
  let s2 := (s.imageWords f base).zipIdx.foldl (fun s (e : Word × Nat) => { s with vmem := tblSet s.vmem 0 e.2 e.1 }) s1
  let s3 := (s2.put oneKey Reg.VC_SPLIT_SPLIT i.split).put oneKey Reg.VC_STAT_LOADED 1
  let s4 := (s3.put oneKey Reg.VC_STAT_FLASH f).put oneKey Reg.VC_STAT_SLOT slot
  let s5 := (s4.setReg (stewKey 8 + Reg.STW_START) (BitVec.ofNat 20 i.entry)).put (stewKey 8) Reg.STW_CTL_RUN 1
  startRequest 8 { s5 with
    vcEntry := BitVec.ofNat 20 i.entry, stewards := s5.stewards.map (fun e =>
    if e.1 = 8 then (e.1, { e.2 with rsv := none }) else e) }

/-- Retained memory after a rejected image is undefined (R510): free values. -/
def voidVigil (s : State) : State :=
  let n := s.freeCount
  let s1 := { s with freeCount := n + 1, vmem := [], vmemMarks := [] }
  (List.range 16384).foldl (fun s a => { s with vmem := tblSet s.vmem 0 a (Config.voidWord n a) }) s1

/-- A VC image is checked and loaded, or rejected (R509, R510); at a boot the memory of a VC that has no image stays. -/
def loadVc (f slot : Nat) (reads boot : Bool) (s : State) : State :=
  let st := s.imageCheck f (slotBase slot true) true reads
  let s1 := (s.put oneKey Reg.VC_STAT_STATUS st).put oneKey Reg.VC_STAT_BUSY 0
  if st = St.OK then startVc f slot s1
  else if boot && s.noVcImage f slot then s1
  else voidVigil (s1.put oneKey Reg.VC_STAT_LOADED 0)

/-- A load is asked for (R510): while one runs it is refused. -/
def requestVcLoad (f slot : Nat) (s : State) : State :=
  if s.vcLoading.isSome then s.put oneKey Reg.VC_STAT_STATUS St.BUSY
  else
    let s1 := (s.put oneKey Reg.VC_STAT_BUSY 1).put (stewKey 8) Reg.STW_CTL_RUN 0
    stopRequest 8 { s1 with vcLoading := some (f, slot) }

/-- A write of VC_LOAD (R525). -/
def writeVcLoad (w : Word) (s : State) : State :=
  if w.getLsbD 19 then requestVcLoad (bits w 18 18) (bits w 17 17) s else s

/-- VC_LOAD (R510). -/
def execVcLoad (flash slot : Fin 2) (s : State) : Result := .next (requestVcLoad flash.val slot.val s)

/-- VC_LOAD_DONE (R510). -/
def execVcLoadDone (reads : Bool) (s : State) : Result :=
  .next (match s.vcLoading with
    | some (f, slot) =>
      let s1 := loadVc f slot reads false (stopNow 8 { s with vcLoading := none })
      endCmds 0x61 (s1.get oneKey Reg.VC_STAT_STATUS) s1
    | none => s)

/-! ## The boot of a half (R500 to R505) -/

/-- The register block of BOOT_SEL of a half. -/
def bootKey (h : Half) : Nat := oneKey + h.num

/-- Step 3: every bank word 0 with valid check bits, instruction memory 0 (R503, R566). -/
def clearMemories (h : Half) (s : State) : State :=
  { s with
    banks := tblCut s.banks (bankIx h 0) 0x80000, bankMarks := tblCut s.bankMarks (bankIx h 0) 0x80000,
    imem := tblCut s.imem (imemIx h 0) 0x40000, imemMarks := tblCut s.imemMarks (imemIx h 0) 0x40000 }

/-- The payload of a half image goes into instruction memory. -/
def loadImage (h : Half) (slot : Nat) (s : State) : State :=
  let base := slotBase slot false
  let i := s.imageAt h.num base
  (s.imageWords h.num base).zipIdx.foldl (fun s (e : Word × Nat) => s.setImem h (i.start + e.2) e.1) s

/-- BOOT_INFO as the ROM writes it (R521). -/
def bootInfo (cause slot rolled vcload svn stAlt : Nat) : Word :=
  BitVec.ofNat 20 (cause * 0x20000 + slot * 0x10000 + rolled * 0x8000 + vcload * 0x4000 + svn * 0x100 + stAlt)

/-- The ROM leaves the word registers of its steward undefined, but for those it sets (R504): free values. -/
def voidRegs (n : Nat) (x : Steward) : Steward :=
  (List.range' 2 13).foldl (fun x r => setWreg x r (Config.entryWord n r)) x

/-- Step 8: entry (R504). -/
def enterImage (h : Half) (entryAt : Nat) (info : Word) (s : State) : State :=
  let k := 4 * h.num
  let others := [k + 1, k + 2, k + 3]
  let s1 := others.foldl (fun s j =>
    ((stopNow j s).put (stewKey j) Reg.STW_CTL_RUN 0).setReg (stewKey j + Reg.STW_START) (BitVec.ofNat 20 entryAt)) s
  let x := voidRegs s1.freeCount (s1.steward k)
  let x1 := setWreg (setWreg (setCreg (setCreg x crSR 0) crVBASE 0) 15 0x80000) 1 info
  let s2 := { s1 with freeCount := s1.freeCount + 1 }
  (s2.setReg (halfKey h + Reg.BOOT_INFO) info).setSteward k
    { x1 with mode := .running, pc := BitVec.ofNat 20 entryAt, load := none }

/-- BOOT_SEL after a boot of a slot (R501). -/
def updateBootSel (h : Half) (slot : Nat) (rolled : Bool) (s : State) : State :=
  let key := bootKey h
  let s1 :=
    if rolled then
      (((s.put key Reg.BOOT_SEL_PREF slot).put key Reg.BOOT_SEL_CONFIRMED 0).put key Reg.BOOT_SEL_TRIES 0).put key
        Reg.BOOT_SEL_ROLLED 1
    else s
  let s2 :=
    if s1.flag key Reg.BOOT_SEL_CONFIRMED then s1
    else s1.put key Reg.BOOT_SEL_TRIES (min (s1.get key Reg.BOOT_SEL_TRIES + 1) 3)
  s2.put key Reg.BOOT_SEL_LAST slot

/-- The boot ends in an accepted slot: the VC image where it is due, BOOT_SEL, entry. -/
def bootInto (h : Half) (slot : Nat) (rolled readsVc : Bool) (stAlt : Nat) (s : State) : State :=
  let i := s.imageAt h.num (slotBase slot false)
  let s1 := loadImage h slot s
  let s2 := if s1.vcDue then loadVc h.num slot readsVc true { s1 with vcDue := false } else s1
  let vcload := if s1.vcDue && s2.flag oneKey Reg.VC_STAT_LOADED then 1 else 0
  let info := bootInfo (s.half h).bootCause slot (if rolled then 1 else 0) vcload i.svn stAlt
  enterImage h i.entry info (updateBootSel h slot rolled (s2.setHalf h { s2.half h with confirmDue := true }))

/-- Both slots failed (R505): the booting steward waits in the ROM. BOOT_INFO has one status field: the slot tried last in
SLOT, the outcome of the other in ST_ALT. -/
def romFail (h : Half) (slot st : Nat) (s : State) : State :=
  let k := 4 * h.num
  let x := s.steward k
  let s1 := s.setSteward k { setIE x false with mode := .waiting, load := none }
  let s2 := s1.setReg (halfKey h + Reg.BOOT_INFO) (bootInfo (s.half h).bootCause slot 1 0 0 st)
  raiseEvent evBootFail (s2.setHalf h { s2.half h with romWait := true })

/-- HALF_BOOT (R503): whether the flash reads of each slot and of the VC image complete comes with the command. -/
def execHalfBoot (h : Half) (reads0 reads1 readsVc : Bool) (s : State) : Result :=
  let s0 := if s.mayLeaveReset h then leaveReset h s else s
  .next (if (s0.half h).booting then
    let s1 := clearMemories h (s0.setHalf h { s0.half h with booting := false })
    let pref := s1.get (bootKey h) Reg.BOOT_SEL_PREF
    let back := !s1.flag (bootKey h) Reg.BOOT_SEL_CONFIRMED && decide (2 ≤ s1.get (bootKey h) Reg.BOOT_SEL_TRIES)
    let a := if back then 1 - pref else pref
    let reads (n : Nat) : Bool := if n = 0 then reads0 else reads1
    let sta := s1.imageCheck h.num (slotBase a false) false (reads a)
    if sta = St.OK then bootInto h a back readsVc 0 s1
    else
      let b := 1 - a
      let stb := s1.imageCheck h.num (slotBase b false) false (reads b)
      if stb = St.OK then bootInto h b true readsVc sta s1 else romFail h b sta s1
  else s0)

/-- A write of BOOT_SEL (R501, R522): the boot in progress is no longer confirmed, since CONFIRMED is now of the slot
armed. -/
def writeBootSel (h : Half) (w : Word) (s : State) : State :=
  let key := bootKey h
  let s0 := if w.getLsbD 7 then s.put key Reg.BOOT_SEL_ROLLED 0 else s
  let s1 := s0.setHalf h { s0.half h with confirmDue := false }
  ((s1.put key Reg.BOOT_SEL_PREF (bits w 0 0)).put key Reg.BOOT_SEL_CONFIRMED 0).put key Reg.BOOT_SEL_TRIES 0

/-- BOOT_PREF_WRITE (R501). -/
def execBootPrefWrite (h : Half) (pref : Fin 2) (s : State) : Result :=
  .next (writeBootSel h (BitVec.ofNat 20 pref.val) s)

/-! ## Boot flash operations (R507, R508) -/

def State.flashQueue (s : State) (f : Nat) : List FlashOp := tblGet s.flashOps [] f

def State.setFlashQueue (s : State) (f : Nat) (l : List FlashOp) : State := { s with flashOps := tblSet s.flashOps [] f l }

/-- The half whose flash a number names. -/
def flashHalf (f : Nat) : Half := if f = 0 then .A else .B

/-- The other half's block may reach a half's port: the half is held or waits in the ROM (R508). -/
def State.flashOpen (s : State) (h : Half) : Bool := (s.half h).held || (s.half h).romWait

/-- The slot that an address lies in is the one last booted by a half that is running (R507). -/
def State.slotActive (s : State) (f a : Nat) : Bool :=
  let h := flashHalf f
  s.computes h && !(s.half h).booting && !(s.half h).romWait
    && decide (a / 0x100000 = s.get (bootKey h) Reg.BOOT_SEL_LAST)

/-- The refusal of an operation, if it is refused (R507, R508). -/
def State.flashRefusal (s : State) (o : FlashOp) (f : Nat) : Option Nat :=
  let crossed := match o.src with | .cross _ => true | _ => false
  if (s.flashQueue f).any (fun q => decide (q.src = o.src)) then some St.BUSY
  else if crossed && !s.flashOpen (flashHalf f) then some St.HALF_SEATED
  else if o.op = 1 ∧ (256 < o.len ∨ 256 < o.addr % 256 + o.len) then some St.BAD_PARAM
  else if o.op = 2 ∧ o.addr % 4096 ≠ 0 then some St.BAD_PARAM
  else if o.op = 3 ∧ o.addr ≠ 0 ∧ o.addr ≠ 0x100000 then some St.BAD_PARAM
  else if (o.op = 1 ∨ o.op = 2) ∧ s.slotActive f o.addr = true then some St.BOOT_SLOT_ACTIVE
  else none

/-- The register block of a half's BF_ block, or its BFX_ block. -/
def bfKey (h : Half) (cross : Bool) : Nat := halfKey h + (if cross then 0x10 else 0)

/-- A write of BF_OP or BFX_OP (R507, R520). -/
def writeBfOp (h : Half) (cross : Bool) (w : Word) (s : State) : State :=
  let key := bfKey h cross
  let f := (if cross then h.other else h).num
  let o : FlashOp :=
    ⟨if cross then .cross h else .own h, bits w 19 18, s.wide (key + Reg.BF_ADDR) 2 % 0x1000000, s.get key Reg.BF_LEN_LEN + 1,
      s.get key Reg.BF_DST_DST, []⟩
  match s.flashRefusal o f with
  | some st =>
    let s1 := s.put key Reg.BF_ST_STATUS st
    if st = St.BUSY then s1 else s1.put key Reg.BF_ST_DONE 1
  | none => ((s.put key Reg.BF_ST_BUSY 1).put key Reg.BF_ST_DONE 0).setFlashQueue f (s.flashQueue f ++ [o])

/-- A write that starts an operation, by a half that computes. -/
def startFlash (h : Half) (cross : Bool) (op : Nat) (s : State) : Result :=
  .next (if s.computes h then writeBfOp h cross (inField 19 18 op) s else s)

/-- FLASH_READ (R507). -/
def execFlashRead (h : Half) (cross : Bool) (s : State) : Result := startFlash h cross 0 s

/-- FLASH_PROGRAM (R507). -/
def execFlashProgram (h : Half) (cross : Bool) (s : State) : Result := startFlash h cross 1 s

/-- FLASH_ERASE (R507). -/
def execFlashErase (h : Half) (cross : Bool) (s : State) : Result := startFlash h cross 2 s

/-- FLASH_VERIFY (R507). -/
def execFlashVerify (h : Half) (cross : Bool) (s : State) : Result := startFlash h cross 3 s

/-- What VERIFY answers (R507). -/
def State.verifySlot (s : State) (f slot : Nat) (reads : Bool) : Nat :=
  let st := s.imageCheck f (slotBase slot false) false reads
  if st ≠ St.OK then st
  else if s.noVcImage f slot then St.OK
  else s.imageCheck f (slotBase slot true) true reads

/-- The half whose data memory an operation uses. -/
def FlashOp.half : FlashSource → Option Half
  | .own h => some h
  | .cross h => some h
  | _ => none

/-- The bytes that PROGRAM writes: those its command brought, or those in data memory at DST. -/
def flashData (o : FlashOp) (s : State) : List Byte × State :=
  match FlashOp.half o.src with
  | some h =>
    let r := readBankRun h o.dst 12 ((o.len + 1) / 2) s
    ((unpackWords r.1).take o.len, r.2)
  | none => (o.data, s)

/-- The effect of an operation: its status, the bytes it read. -/
def runFlash (f : Nat) (o : FlashOp) (reads : Bool) (s : State) : Nat × List Byte × State :=
  match o.op with
  | 0 => if reads then (St.OK, s.flashBytes f o.addr o.len, s) else (St.BOOT_FLASH, [], s)
  | 1 =>
    let d := flashData o s
    (St.OK, [], programFlash f o.addr d.1 d.2)
  | 2 => (St.OK, [], eraseFlash f o.addr s)
  | _ => (s.verifySlot f (o.addr / 0x100000) reads, [], s)

/-- An operation's end is reported to who asked (R507, R513, R526). -/
def answerFlash (o : FlashOp) (st : Nat) (bytes : List Byte) (s : State) : State :=
  let tell (h : Half) (cross : Bool) : State :=
    let key := bfKey h cross
    let s1 := if o.op = 0 ∧ st = St.OK then s.setBankRun h o.dst (packBytes bytes) else s
    (((s1.put key Reg.BF_ST_STATUS st).put key Reg.BF_ST_DONE 1).put key Reg.BF_ST_BUSY 0).pulseIrq h 415
  match o.src with
  | .own h => tell h false
  | .cross h => tell h true
  | .port p => endCmd p st bytes s
  | .gone => s

/-- FLASH_OPERATION_DONE (R507): whether the flash read completes comes with the command. -/
def execFlashOperationDone (f : Fin 2) (reads : Bool) (s : State) : Result :=
  .next (match s.flashQueue f.val with
    | o :: t =>
      let r := runFlash f.val o reads (s.setFlashQueue f.val t)
      answerFlash o r.1 r.2.1 r.2.2
    | [] => s)

/-! ## Rolling updates (R511 to R513) -/

def heldFlag : Half → Fld
  | .A => Reg.RU_STAT_HELD_A
  | .B => Reg.RU_STAT_HELD_B

def vacFlag : Half → Fld
  | .A => Reg.RU_STAT_VAC_A
  | .B => Reg.RU_STAT_VAC_B

def ruStatus (st : Nat) (s : State) : State := s.put oneKey Reg.RU_STAT_STATUS st

/-- The run-owner latches that name a half. -/
def State.blocksOf (s : State) (h : Half) : List Nat := (List.range 17).filter (fun k => decide (s.runner k = h))

/-- The half holds no seat and runs no block. -/
def State.holdsNothing (s : State) (h : Half) : Bool := decide (s.baysOf h = []) && decide (s.blocksOf h = [])

/-- VACATE (R511). -/
def vacate (x : Half) (s : State) : State :=
  let y := x.other
  if !s.healthy y then ruStatus St.PARTNER_NOT_READY s
  else if s.flag oneKey (vacFlag y) then ruStatus St.BUSY s
  else
    let s1 :=
      if s.flag oneKey Reg.RU_STAT_SNAP then s
      else ((s.setWide (oneKey + Reg.RU_MAP) 4 s.seats.toNat).setReg (oneKey + Reg.RU_LATCHES) s.owners).put oneKey
        Reg.RU_STAT_SNAP 1
    let bs := s.baysOf x
    let s2 := moveSeats bs y 6 (bs.headD 0) s1
    let s3 := moveConsumers x true ((s.blocksOf x).foldl (fun s k => setOwner k y s) s2)
    refreshOrphans (ruStatus St.OK (s3.put oneKey (vacFlag x) 1))

/-- RESTART (R511): the half boots, one that was held too. -/
def restartHalf (x : Half) (s : State) : State :=
  if s.holdsNothing x then
    let t := resetHalf x 3 s
    let s1 := ruStatus St.OK ((t.setHalf x { t.half x with held := false }).put oneKey (heldFlag x) 0)
    if s1.mayLeaveReset x then leaveReset x s1 else s1
  else ruStatus St.HALF_SEATED s

/-- HOLD (R511). -/
def holdHalf (x : Half) (s : State) : State :=
  if s.holdsNothing x then
    let s1 := resetHalf x 3 s
    ruStatus St.OK ((s1.setHalf x { s1.half x with held := true }).put oneKey (heldFlag x) 1)
  else ruStatus St.HALF_SEATED s

/-- RELEASE (R511). -/
def releaseHalf (x : Half) (s : State) : State :=
  if (s.half x).held then
    let s1 := ruStatus St.OK ((s.setHalf x { s.half x with held := false }).put oneKey (heldFlag x) 0)
    if s1.mayLeaveReset x then leaveReset x s1 else s1
  else ruStatus St.BAD_PARAM s

/-- The bays and blocks that the snapshot gives to a half that does not have them. -/
def State.mapBays (s : State) (h : Half) : List Nat :=
  let m : BitVec 64 := BitVec.ofNat 64 (s.wide (oneKey + Reg.RU_MAP) 4)
  (s.baysOf h.other).filter (fun b => decide (Half.ofBit (m.getLsbD b) = h))

def State.mapBlocks (s : State) (h : Half) : List Nat :=
  let m := s.reg (oneKey + Reg.RU_LATCHES)
  (s.blocksOf h.other).filter (fun k => decide (Half.ofBit (m.getLsbD k) = h))

/-- Consumers that VACATE moved return (R548). -/
def restoreConsumers (s : State) : State :=
  { s with consumers := s.consumers.map (fun (e : Nat × Consumer) =>
      if e.2.moved then (e.1, { e.2 with owner := 1 - e.2.owner, moved := false }) else e) }

/-- The snapshot gives a half a seat or a latch (R511). -/
def State.mapGives (s : State) (h : Half) : Bool :=
  let m : BitVec 64 := BitVec.ofNat 64 (s.wide (oneKey + Reg.RU_MAP) 4)
  (List.range 64).any (fun b => decide (Half.ofBit (m.getLsbD b) = h))
    || (List.range 17).any (fun k => decide (Half.ofBit ((s.reg (oneKey + Reg.RU_LATCHES)).getLsbD k) = h))

/-- RESTORE (R511). -/
def restoreHalves (s : State) : State :=
  let ready (h : Half) : Bool := !s.mapGives h || s.healthy h
  if s.flag oneKey Reg.RU_STAT_SNAP && ready .A && ready .B then
    let give (h : Half) (s0 : State) : State :=
      let bs := s.mapBays h
      (s.mapBlocks h).foldl (fun s k => setOwner k h s) (moveSeats bs h 6 (bs.headD 0) s0)
    let s1 := restoreConsumers (give .B (give .A s))
    let s2 := ((s1.put oneKey Reg.RU_STAT_SNAP 0).put oneKey Reg.RU_STAT_VAC_A 0).put oneKey Reg.RU_STAT_VAC_B 0
    refreshOrphans (ruStatus St.OK s2)
  else ruStatus St.PARTNER_NOT_READY s

/-- A write of RU_CTL (R511, R523). -/
def writeRuCtl (w : Word) (s : State) : State :=
  let x := Half.ofBit (w.getLsbD 16)
  match bits w 19 17 with
  | 1 => vacate x s
  | 2 => restartHalf x s
  | 3 => holdHalf x s
  | 4 => releaseHalf x s
  | 5 => restoreHalves s
  | _ => s

/-- VACATE (R511). -/
def execVacate (x : Half) (s : State) : Result := .next (vacate x s)

/-- RESTART (R511). -/
def execRestart (x : Half) (s : State) : Result := .next (restartHalf x s)

/-- HOLD (R511). -/
def execHold (x : Half) (s : State) : Result := .next (holdHalf x s)

/-- RELEASE (R511). -/
def execRelease (x : Half) (s : State) : Result := .next (releaseHalf x s)

/-- RESTORE (R511). -/
def execRestore (s : State) : Result := .next (restoreHalves s)

/-! ## The envelope lock's times (R514 to R516) -/

/-- ENVELOPE_SESSION_EXPIRY (R515): 1,000 ms on TREF without an envelope command. -/
def execEnvelopeSessionExpiry (s : State) : Result :=
  .next (if s.envLock.last + 200000000 ≤ s.tref then s.put oneKey Reg.ENV_STAT_OPEN 0 else s)

/-- NONCE_EXPIRY (R514): of CPA, CPB, or a fabric source, 1 s after it was given. -/
def execNonceExpiry (path : Fin 4098) (s : State) : Result :=
  .next (if tblGet s.envLock.issued 0 path.val + 200000000 ≤ s.tref then
    { s with envLock := { s.envLock with nonces := tblDel s.envLock.nonces path.val } }
  else s)

/-- ENVELOPE_BACKOFF_END (R516): 10 s after the eighth failure. -/
def execEnvelopeBackoffEnd (s : State) : Result :=
  .next (if s.envLock.backoffAt + 2000000000 ≤ s.tref then s.put oneKey Reg.ENV_STAT_BACKOFF 0 else s)

end Sys2Proof.Machine
end

