-- ==== Sys2Proof/Machine/TwoWire.lean ====
section
/-! DEFINITION. The two-wire buses and the PMBus port of TW7 (R622 to R634). -/

namespace Sys2Proof.Machine

def State.tw (s : State) (b : Nat) : TwBus := tblGet s.twBuses TwBus.reset b

def State.setTw (s : State) (b : Nat) (x : TwBus) : State := { s with twBuses := tblSet s.twBuses TwBus.reset b x }

/-- The register block of a bus. -/
def twKey (b : Nat) : Nat := oneKey + 0x20 * b

/-- The PMBus sequencer owns TW7 (R629). -/
def State.pmbOwns (s : State) (b : Nat) : Bool := decide (b = 7) && s.flag oneKey Reg.TW7_PMB_EN

/-! ## Controller transfers (R623) -/

/-- The bytes the controller drives: the address, the bytes written, the address again for a read after them. -/
def State.twBytes (s : State) (b wlen rlen : Nat) : List Byte :=
  let a := s.get (twKey b) Reg.TW_CA_ADDR
  let ten := s.flag (twKey b) Reg.TW_CA_TEN
  let addr (rd : Nat) : Byte := BitVec.ofNat 8 (if ten then 0xF0 + 2 * (a / 256) + rd else 2 * (a % 128) + rd)
  let low : List Byte := if ten then [BitVec.ofNat 8 a] else []
  let out := (List.range wlen).map (fun i => tblGet (s.tw b).buf 0 i)
  (if 0 < wlen ∨ ten = true then addr 0 :: low ++ out else []) ++ (if 0 < rlen then [addr 1] else [])

/-- A transfer takes the bus. -/
def beginTransfer (b : Nat) (s : State) : State :=
  match (s.tw b).run with
  | some (wlen, rlen, _) =>
    (s.put (twKey b) Reg.TW_STAT_BUSBUSY 1).setTw b
      { s.tw b with waits := false, held := false, sent := s.twBytes b wlen rlen }
  | none => s

/-- A write of TW_CCMD (R623, R629). -/
def writeTwCcmd (b : Nat) (w : Word) (s : State) : State :=
  let key := twKey b
  let x := s.tw b
  let wlen := bits w 6 0
  let rlen := bits w 13 7
  if !w.getLsbD 19 then s
  else if x.run.isSome || s.pmbOwns b then s.put key Reg.TW_CST_STATUS St.BUSY
  else if 64 < wlen ∨ 64 < rlen ∨ wlen + rlen = 0 ∨ s.flag key Reg.TW_CFG_CTL_EN = false ∨ s.flag key Reg.TW_CFG_EN = false then
    (s.put key Reg.TW_CST_STATUS St.BAD_PARAM).put key Reg.TW_CST_DONE 1
  else
    let wait := s.flag key Reg.TW_STAT_BUSBUSY && !x.held
    let s1 := ((s.put key Reg.TW_CST_BUSY 1).put key Reg.TW_CST_DONE 0).put key Reg.TW_CST_COUNT 0
    let s2 := s1.setTw b { x with run := some (wlen, rlen, w.getLsbD 18), waits := wait }
    if wait then s2 else beginTransfer b s2

/-- TW_TRANSFER (R623). -/
def execTwTransfer (m : Master) (b : Fin 8) (value : Word) (s : State) : Result :=
  .next (s.blockWrite m (blkTw b) (0x60000 + 0x20 * b + 7) (fun s => writeTwCcmd b value s))

/-- A transfer ends with an outcome and a count (R623). -/
def endTransfer (b st count : Nat) (s : State) : State :=
  let key := twKey b
  let s1 := ((s.put key Reg.TW_CST_STATUS st).put key Reg.TW_CST_DONE 1).put key Reg.TW_CST_BUSY 0
  (s1.put key Reg.TW_CST_COUNT (min count 127)).put key Reg.TW_STAT_CDONE 1

/-- TW_TRANSFER_DONE (R623): the outcome 0 ST_OK, 1 NACK, 2 arbitration lost, 3 lost at a STOP or repeated START; the bytes
acknowledged; the bytes read, 0xFF for those that no target drives (DEDUCED: SDA is released). -/
def execTwTransferDone (b : Fin 8) (outcome : Fin 4) (count : BitVec 7) (data : List Byte) (s : State) : Result :=
  if decide (data.length ≤ 64) then
    let x := s.tw b
    let key := twKey b
    .next (match x.run with
      | some (wlen, rlen, hold) =>
        if x.waits then s
        else
          let got := if outcome.val = 0 then data ++ List.replicate rlen 0xFF else data
        let buf := (got.take rlen).zipIdx.foldl (fun t (e : Byte × Nat) => tblSet t 0 e.2 e.1) x.buf
        let s1 := s.setTw b { x with run := none, buf := buf, held := decide (outcome.val = 0) && hold }
        (match outcome.val with
         | 0 =>
           let s2 := endTransfer b St.OK (wlen + rlen) s1
           if hold then s2 else s2.put key Reg.TW_STAT_BUSBUSY 0
         | 1 => (endTransfer b St.TW_NACK count.toNat s1).put key Reg.TW_STAT_BUSBUSY 0
         | 2 => ((endTransfer b St.TW_ARB_LOST count.toNat s1).put key Reg.TW_STAT_ARB 1).count (key + Reg.TW_CNT_ARB) 1
         | _ => ((endTransfer b St.TW_ARB_SR count.toNat s1).put key Reg.TW_STAT_ARB 1).count (key + Reg.TW_CNT_ARB) 1)
      | none => s)
  else .fault .illFormed

/-! ## Target role (R624 to R626) -/

/-- The index of the address that matches, if one does; address 0x00 never does (R622, R625). -/
def State.twMatch (s : State) (b : Nat) (ten : Bool) (a : Nat) : Option Nat :=
  let key := twKey b
  let same (i : Nat) : Bool :=
    s.flag (key + i) Reg.TW_TADDR_EN && decide (s.flag (key + i) Reg.TW_TADDR_TEN = ten)
  let addr (i : Nat) : Nat := let v := s.get (key + i) Reg.TW_TADDR_ADDR; if ten then v else v % 128
  if !ten && decide (a = 0) then none
  else if s.flag key Reg.TW_TMASK_EN then
    let k := 0x3FF ^^^ s.get key Reg.TW_TMASK_MASK
    if same 0 && decide (addr 0 &&& k = a &&& k) then some 0 else none
  else (List.range 4).find? (fun i => same i && decide (addr i = a))

/-- TW_TARGET_ADDRESS (R624, R625): a START and an address of another controller. -/
def execTwTargetAddress (b : Fin 8) (ten : Bool) (addr : BitVec 10) (read : Bool) (s : State) : Result :=
  let key := twKey b
  let on := s.flag key Reg.TW_CFG_EN && s.flag key Reg.TW_CFG_TGT_EN && !s.pmbOwns b
  let hit := if on then s.twMatch b ten (if ten then addr.toNat else addr.toNat % 128) else none
  .next ((s.put key Reg.TW_STAT_BUSBUSY 1).setTw b { s.tw b with target := hit.map (fun i => (i, read)), first := true })

/-- A byte enters the receive FIFO (R626). -/
def takeTargetByte (b i : Nat) (v : Byte) (s : State) : State :=
  let x := s.tw b
  if x.rx.length < 32 then s.setTw b { x with rx := x.rx ++ [(v, i, x.first)], first := false, stuck := none }
  else s.setTw b { x with stuck := some v }

/-- TW_TARGET_BYTE (R626). While SCL is stretched no byte arrives. -/
def execTwTargetByte (b : Fin 8) (v : Byte) (s : State) : Result :=
  let x := s.tw b
  .next (match x.target with
    | some (i, false) => if x.stuck.isSome then s else takeTargetByte b i v s
    | _ => s)

/-- TW_TARGET_READ_BYTE (R626). -/
def execTwTargetReadByte (b : Fin 8) (s : State) : Result :=
  let x := s.tw b
  .next (match x.target with
    | some (_, true) =>
      (match x.tx with
       | v :: t => s.setTw b { x with tx := t, sent := [v], starved := false }
       | [] => s.setTw b { x with starved := true })
    | _ => s)

/-- The bus is free: a transfer that waits for it starts (R623). -/
def freeBus (b : Nat) (s : State) : State :=
  let s1 := s.put (twKey b) Reg.TW_STAT_BUSBUSY 0
  if (s.tw b).waits then beginTransfer b s1 else s1

/-- TW_TARGET_STOP (R626): a STOP, or a repeated START, ends the transaction addressed to this target. -/
def execTwTargetStop (b : Fin 8) (restart : Bool) (s : State) : Result :=
  let x := s.tw b
  .next (if x.target.isSome then
    let s1 := (s.setTw b { x with target := none, first := false, starved := false }).put (twKey b) Reg.TW_STAT_TSTOP 1
    if restart then s1 else freeBus b s1
  else s)

/-- TW_BUS_STOP (R623): the STOP of another controller's transaction. -/
def execTwBusStop (b : Fin 8) (s : State) : Result :=
  let x := s.tw b
  .next (if x.held || (x.run.isSome && !x.waits) then s else freeBus b s)

/-- A pop of the receive FIFO: a byte held for want of room takes the entry freed (R626, R628). -/
def popTrx (b : Nat) (s : State) : State :=
  let x := s.tw b
  let s1 := s.setTw b { x with rx := x.rx.drop 1 }
  match x.stuck, x.target with
  | some v, some (i, _) => takeTargetByte b i v s1
  | _, _ => s1

/-- TW_RX_POP (R632). -/
def execTwRxPop (m : Master) (b : Fin 8) (s : State) : Result :=
  .next (if s.blockWriteOk m (blkTw b) then popTrx b s else s)

/-- A write of TW_TTX (R626, R632): a byte that a stretched read waits for is sent at once. -/
def pushTtx (b : Nat) (v : Byte) (s : State) : State :=
  let x := s.tw b
  if x.starved then s.setTw b { x with sent := [v], starved := false }
  else if x.tx.length < 32 then s.setTw b { x with tx := x.tx ++ [v] }
  else s

/-- TW_TX_PUSH (R632). -/
def execTwTxPush (m : Master) (b : Fin 8) (v : Byte) (s : State) : Result :=
  .next (s.blockWrite m (blkTw b) (0x60000 + 0x20 * b + 0xC) (fun s => pushTtx b v s))

/-- TW_TIMEOUT (R627): while the block is party to a transaction. -/
def execTwTimeout (b : Fin 8) (s : State) : Result :=
  let x := s.tw b
  let key := twKey b
  let runs := x.run.isSome && !x.waits
  .next (if runs || x.held || x.target.isSome then
    let s1 := if runs then endTransfer b St.TW_TIMEOUT (s.get key Reg.TW_CST_COUNT) s else s
    let s2 := s1.setTw b
      { x with run := if runs then none else x.run, held := false, target := none, first := false, stuck := none, starved := false }
    freeBus b ((s2.put key Reg.TW_STAT_TMO 1).count (key + Reg.TW_CNT_TMO) 1)
  else s)

/-! ## Registers (R631 to R634) -/

/-- A write of TW_CFG: SPEED 3 is not stored and sets BAD (R631). -/
def writeTwCfg (b : Nat) (w : Word) (s : State) : State :=
  let key := twKey b
  if bits w 5 4 = 3 then
    (s.plainWrite (key + Reg.TW_CFG) (setBits w 5 4 (s.get key Reg.TW_CFG_SPEED))).put key Reg.TW_STAT_BAD 1
  else s.plainWrite (key + Reg.TW_CFG) w

/-- The controller buffer at its index, which advances after each access (R632). -/
def readTwCbd (b : Nat) (move : Bool) (s : State) : Word × State :=
  let i := s.get (twKey b) Reg.TW_CBA_INDEX
  (BitVec.ofNat 20 (tblGet (s.tw b).buf 0 i).toNat, if move then s.put (twKey b) Reg.TW_CBA_INDEX (i + 1) else s)

def writeTwCbd (b : Nat) (w : Word) (s : State) : State :=
  let i := s.get (twKey b) Reg.TW_CBA_INDEX
  (s.setTw b { s.tw b with buf := tblSet (s.tw b).buf 0 i (BitVec.ofNat 8 w.toNat) }).put (twKey b) Reg.TW_CBA_INDEX (i + 1)

/-- TW_TRX as it reads (R632). -/
def State.twTrx (s : State) (b : Nat) : Word :=
  match (s.tw b).rx with
  | (v, i, f) :: _ => BitVec.ofNat 20 (0x800 + (if f then 0x400 else 0) + 0x100 * i + v.toNat)
  | [] => 0

/-- TW_STAT as it reads (R633). -/
def State.twStat (s : State) (b : Nat) : Word :=
  let x := s.tw b
  let w := s.reg (twKey b + Reg.TW_STAT)
  setBits (setBits (setBits w 3 3 (if x.starved then 1 else 0)) 2 2 (if x.rx = [] then 0 else 1)) 1 1
    (if x.stuck.isSome then 1 else 0)

/-- A write of TW7_PMB (R629, R634). -/
def writePmb (w : Word) (s : State) : State :=
  let was := s.flag oneKey Reg.TW7_PMB_EN
  let s1 := s.plainWrite (oneKey + Reg.TW7_PMB) w
  if w.getLsbD 19 && !was then readModes s1 else s1

end Sys2Proof.Machine
end

