-- ==== Sys2Proof/Machine/Flags.lean ====
section
/-! DEFINITION. The conditions under which the level sources of the interrupt controllers assert (R121, R175, R197, R238,
R275, R312, R321, R526). -/

namespace Sys2Proof.Machine

/-- One of some flags of the register block at a key is set. -/
def State.anyFlag (s : State) (key : Nat) (fs : List Fld) : Bool := fs.any (fun f => s.flag key f)

/-- A flag among some is set while their enable is. -/
def State.raises (s : State) (key : Nat) (en : Fld) (fs : List Fld) : Bool := s.flag key en && s.anyFlag key fs

/-- A timebase's source (R121, R130). -/
def State.timebaseSource (s : State) (i : Nat) : Bool :=
  s.raises (tbKey i) Reg.TB_CTL_CAP_IE [Reg.TB_STAT_DONE0, Reg.TB_STAT_DONE1]
    || s.raises (tbKey i) Reg.TB_CTL_WRAP_IE [Reg.TB_STAT_WRAP]
    || s.raises (tbKey i) Reg.TB_CTL_CMP_IE [Reg.TB_STAT_CMP]

/-- A terminal has an enabled status bit set: its bit of TRM_SUM (R175). -/
def State.terminalPends (s : State) (h : Half) (t : Nat) : Bool :=
  s.raises (termKey h t) Reg.TS_CTL_CLS_IE [Reg.TS_STAT_TEL_CLS, Reg.TS_STAT_PRB_CLS]
    || s.raises (termKey h t) Reg.TS_CTL_TALK_IE [Reg.TS_STAT_TALK_DONE]
    || s.raises (termKey h t) Reg.TS_CTL_TRIP_IE [Reg.TS_STAT_TRIP]

/-- A terminal's bit of TD_SUM (R197). -/
def State.diagnosisPends (s : State) (h : Half) (t : Nat) : Bool :=
  s.raises (termKey h t) Reg.TD_CFG_H_IE [Reg.TD_STAT_HCHG]

/-- A word of 16 bits, one for each terminal of a bay. -/
def bayMask (b : Nat) (f : Nat → Bool) : Word :=
  BitVec.ofNat 20 ((List.range 16).foldl (fun n k => n + (if f (16 * b + k) then 2 ^ k else 0)) 0)

/-- TRM_SUM and TD_SUM as they read (R175, R197). -/
def State.trmSum (s : State) (h : Half) (b : Nat) : Word := bayMask b (fun t => s.terminalPends h t)
def State.tdSum (s : State) (h : Half) (b : Nat) : Word := bayMask b (fun t => s.diagnosisPends h t)

/-- A line's source: channel flags and engine flags (R238, R275). In SLEEP the comparators alone can raise it (R540). -/
def State.lineSource (s : State) (h : Half) (b : Nat) : Bool :=
  let k := bayKey h b
  s.raises k Reg.LN_CFG_TRIP_IE [Reg.LN_STAT_VTRIP, Reg.LN_STAT_ITRIP]
    || s.raises k Reg.LN_CFG_TX_IE [Reg.LN_STAT_TXDONE]
    || s.raises k Reg.LN_CFG_RX_IE [Reg.LN_STAT_RXNEW]
    || s.raises k Reg.LN_CFG_ERR_IE
        [Reg.LN_STAT_RXERR, Reg.LN_STAT_RXOVF, Reg.LN_STAT_NOLOCK, Reg.LN_STAT_UNLOCK, Reg.LN_STAT_THR_BAD, Reg.LN_STAT_BAD]
    || s.raises k Reg.LE_CFG_SWAP_IE [Reg.LE_STAT_SWAPPED, Reg.LE_STAT_SWAP_LATE]
    || s.raises k Reg.LE_CFG_FLT_IE [Reg.LE_STAT_FAULTED, Reg.LE_STAT_ABORTED, Reg.LE_STAT_NOFIN, Reg.LE_STAT_BAD]
    || (s.flag k Reg.LE_CFG_LATE_IE && decide (s.reg (k + Reg.LE_CNT_LATE) ≠ 0))

/-- A pipeline's source (R312). -/
def State.pipeSource (s : State) (h : Half) (b : Nat) : Bool :=
  let k := bayKey h b
  s.raises k Reg.PL_CFG_ERR_IE
      [Reg.PL_STAT_BAD, Reg.PL_STAT_OVERRUN, Reg.PL_STAT_BADREPLY, Reg.PL_STAT_LATE, Reg.PL_STAT_ALMDROP]
    || s.raises k Reg.PL_CFG_MISS_IE [Reg.PL_STAT_MISS]
    || s.raises k Reg.PL_CFG_ID_IE [Reg.PL_STAT_IDDONE]

/-- A bay's recogniser source (R321). -/
def State.recogSource (s : State) (h : Half) (b : Nat) : Bool :=
  (List.range 64).any (fun i => (s.recog h b i).pend && (s.recog h b i).cfg.getLsbD 14)

/-- The sources of a half's own blocks, 385 to 391. -/
def State.ownSource (s : State) (h : Half) (src : Nat) : Bool :=
  let k := halfKey h
  if src = 385 then decide (bits (s.reg (oneKey + Reg.REF_STAT)) 11 0 ≠ 0)
  else if src = 386 then
    s.anyFlag k [Reg.BG_STAT_SQUEEZED, Reg.BG_STAT_FLOOR_OVER, Reg.BG_STAT_LEN_BAD, Reg.BG_STAT_COMMIT_BAD]
  else if src = 388 then s.anyFlag k [Reg.CE_STAT_DROP, Reg.CE_STAT_RECDROP, Reg.CE_STAT_SQFULL]
  else if src = 389 then (List.range 4).any (fun i => s.flag (stewKey (4 * h.num + i)) Reg.STW_STAT_LOCKED)
  else if src = 390 then
    s.raises k Reg.MC_CTL_TST_IE [Reg.MC_STAT_TST_FAIL] || s.raises k Reg.MC_CTL_ECC_IE [Reg.MC_STAT_UNCORR]
      || s.raises k Reg.MC_CTL_CORR_IE [Reg.MC_STAT_CORR]
      || s.raises k Reg.MC_CTL_SUP_IE [Reg.MC_STAT_SUPER, Reg.MC_STAT_REMOTE_DOWN]
  else if src = 391 then
    s.raises k Reg.HP_CTL_XREF_IE [Reg.HP_STAT_XREF] || s.raises k Reg.HP_CTL_PFAIL_IE [Reg.HP_STAT_PFAIL]
      || s.raises k Reg.HP_CTL_REF_IE [Reg.HP_STAT_REFUSED] || s.raises k Reg.HP_CTL_WOKE_IE [Reg.HP_STAT_WOKE]
  else false

/-- The fabric's, the archive's and the metrology link's sources (R386, R412, R451). -/
def State.fabricSource (s : State) : Bool :=
  s.raises oneKey Reg.FAB_CTL_TIME_IE [Reg.FAB_STAT_TSTEP, Reg.FAB_STAT_ROOT_CHG]
    || s.raises oneKey Reg.FAB_CTL_ROLE_IE [Reg.FAB_STAT_ROLE_COLL]
    || s.raises oneKey Reg.FAB_CTL_ADDR_IE [Reg.FAB_STAT_ADDR_LOST, Reg.FAB_STAT_NOADDR]
    || s.raises oneKey Reg.FAB_CTL_LINK_IE [Reg.FAB_STAT_LINK_CHG]
    || s.raises oneKey Reg.FAB_CTL_ERR_IE [Reg.FAB_STAT_CACHE_OVF, Reg.FAB_STAT_DROP]

def State.archiveSource (s : State) : Bool :=
  s.raises oneKey Reg.AR_CTL_REPL_IE [Reg.AR_STAT_REPL_STALL, Reg.AR_STAT_REPL_LOST]
    || s.raises oneKey Reg.AR_CTL_ERR_IE
        [Reg.AR_STAT_GEOM_BAD, Reg.AR_STAT_NOSPARE, Reg.AR_STAT_ECC, Reg.AR_STAT_FULL, Reg.AR_STAT_BAD]

def State.metLinkSource (s : State) : Bool :=
  s.raises oneKey Reg.MET_CTL_CMD_IE [Reg.MET_STAT_CMDDONE]
    || s.raises oneKey Reg.MET_CTL_ERR_IE [Reg.MET_STAT_CRCERR, Reg.MET_STAT_DROP]
    || s.raises oneKey Reg.MET_CTL_RST_IE [Reg.MET_STAT_RESTART]

/-- A command port's source. -/
def State.portSource (s : State) (p : Nat) : Bool :=
  s.raises (portKey p) Reg.CP_CFG_ERR_IE [Reg.CP_STAT_REFUSED]
    || s.raises (portKey p) Reg.CP_CFG_ALM_IE [Reg.CP_STAT_ALMDROP]
    || s.raises (portKey p) Reg.CP_CFG_OVR_IE [Reg.CP_STAT_OVERRUN]

/-- A two-wire bus's source: IE with CDONE, TFULL apart, TRXNE, TREQ, TSTOP, ARB, TMO or BAD. -/
def State.twSource (s : State) (b : Nat) : Bool :=
  s.flag (twKey b) Reg.TW_CFG_IE && decide (s.twStat b &&& 0x000FD ≠ 0)

/-- A general-pin group's source (R679): 0 low, 1 high. -/
def State.gpSource (s : State) (g : Nat) : Bool :=
  (List.range 16).any (fun i =>
    (s.reg (oneKey + Reg.GP_FLAG + g)).getLsbD i && s.flag (oneKey + 16 * g + i) Reg.GP_CFG_IE)

/-- The sources of shared blocks, 392 to 414, with the run-owner latch of each. -/
def State.sharedSource (s : State) (src : Nat) : Option (Nat × Bool) :=
  if 392 ≤ src ∧ src < 400 then some (blkGt (src - 392), s.timebaseSource (128 + (src - 392)))
  else if src = 400 then some (blkFabric, s.fabricSource)
  else if src = 401 then some (blkArchive, s.archiveSource)
  else if src = 402 then some (blkMet, s.metLinkSource)
  else if src = 403 ∨ src = 404 then some (blkPort (src - 403), s.portSource (src - 403))
  else if 405 ≤ src ∧ src < 413 then some (blkTw (src - 405), s.twSource (src - 405))
  else if src = 413 ∨ src = 414 then some (blkGp (16 * (src - 413)), s.gpSource (src - 413))
  else none

/-- The condition of a bay source (R526): class 0 timebase to 5 recogniser. -/
def State.baySource (s : State) (h : Half) (cls b : Nat) : Bool :=
  match cls with
  | 0 => s.timebaseSource (bayIx h b)
  | 1 => decide (s.trmSum h b ≠ 0)
  | 2 => decide (s.tdSum h b ≠ 0)
  | 3 => s.lineSource h b
  | 4 => s.pipeSource h b
  | _ => s.recogSource h b

/-- A pulse source (R526). -/
def isPulse (src : Nat) : Bool :=
  decide (src = 384) || decide (src = 387) || decide (src = 415) || decide (src = 416)
    || (decide (448 ≤ src) && decide (src < 464))

/-- The half to whose interrupt controller a bay's sources are delivered: they move with the line transmit path (R53). -/
def State.deliversTo (s : State) (b : Nat) (h : Half) : Bool := decide (Half.ofBit (s.referee.linePath.getLsbD b) = h)

/-- A source asserts in a half (R526, R527): a level source while its condition holds in the half that the table names, a
pulse source while its latch is set. -/
def State.sourceAsserted (s : State) (h : Half) (src : Nat) : Bool :=
  if isPulse src then (s.half h).latched.contains src
  else if src < 384 then s.deliversTo (src % 64) h && s.baySource h (src / 64) (src % 64)
  else if src < 392 then s.ownSource h src
  else if 464 ≤ src ∧ src < 496 then
    decide ((s.consumer (104 + (src - 464))).owner = h.num) && (s.consumer (104 + (src - 464))).pend
  else
    match s.sharedSource src with
    | some (blk, v) => decide (s.runner blk = h) && v
    | none => false

/-! ## Watch slots (R539, R540) -/

/-- The sources that can assert in SLEEP (R540): general timers on LFX alone, lines by their comparators alone. -/
def State.sleepSource (s : State) (h : Half) (src : Nat) : Bool :=
  if src < 64 ∨ src = 413 ∨ src = 414 ∨ src = 416 ∨ (448 ≤ src ∧ src < 496) then s.sourceAsserted h src
  else if 192 ≤ src ∧ src < 256 then
    s.deliversTo (src - 192) h
      && s.raises (bayKey h (src - 192)) Reg.LN_CFG_TRIP_IE [Reg.LN_STAT_VTRIP, Reg.LN_STAT_ITRIP]
  else if 392 ≤ src ∧ src < 400 then decide (s.tbSrc (128 + (src - 392)) = 3) && s.sourceAsserted h src
  else false

/-- Watch slot j asks for a wake. -/
def State.watchAsks (s : State) (j : Nat) : Bool :=
  let k := oneKey + j
  s.flag k Reg.VW_SEL_EN && s.sleepSource (Half.ofBit (s.flag k Reg.VW_SEL_HALF)) (s.get k Reg.VW_SEL_SRC)

/-- The watch slots that ask for a wake, as VW_STAT shows them. -/
def State.watchMask (s : State) : Nat :=
  (List.range 16).foldl (fun n j => n + (if s.watchAsks j then 2 ^ j else 0)) 0

end Sys2Proof.Machine
end

