-- ==== Sys2Proof/Machine/Power.lean ====
section
/-! DEFINITION. Power, clocks, reset and power loss (R635 to R669, R691): the handshake that enters a power state, wakes
and the return to RUN, pad holds, brown-out, oscillators, PFAIL_N and the resets. -/

namespace Sys2Proof.Machine

def State.setPower (s : State) (p : Power) : State := { s with power := p }

/-! ## States (R644, R645) -/

/-- A half is idle: none of its stewards is RUNNING or HALTED (R645). -/
def State.halfIdle (s : State) (h : Half) : Bool :=
  (halfStewards h).all (fun k =>
    match (s.steward k).mode with
    | .running => false
    | .halted => false
    | _ => true)

/-- PWR_ST.STATE (R663). -/
def State.powerState (s : State) : Nat :=
  if s.power.entering.isSome then 4
  else if s.power.returning.isSome then 5
  else
    match s.power.mode with
    | .run => if s.halfIdle .A && s.halfIdle .B then 1 else 0
    | .sleep => 2
    | .deep => 3
    | .off => 3

/-! ## The blocks asked (R647) -/

/-- A half's stewards, boot or synchronisation refuse. -/
def State.halfRefuses (s : State) (h : Half) : Bool :=
  let x := s.half h
  s.computes h
    && ((halfStewards h).any (fun k => decide ((s.steward k).mode = .halted)) || x.booting
      || (x.beatSeen && !x.yielded && !s.flag (halfKey h) Reg.HLT_STAT_SYNCED))

/-- A port refuses (R601). A transaction is one command, so that CS_N is high between commands (log entry 1). -/
def State.portRefuses (s : State) (p : Nat) : Bool :=
  let x := s.port p
  !x.queue.isEmpty || x.exec.isSome || !x.routed.isEmpty

/-- A two-wire bus refuses (R628). -/
def State.twRefuses (s : State) (b : Nat) : Bool :=
  let x := s.tw b
  x.run.isSome || x.held || x.stuck.isSome || x.starved

/-- A level wake of WAKE_N or the Vigil alarm is asserted (R648). -/
def State.pinWake (s : State) : Bool :=
  s.flag oneKey Reg.PWR_CFG_WN_EN
    && (if s.flag oneKey Reg.PWR_CFG_WN_EDGE then s.power.edgeLatch else s.power.wakeLow)

def State.alarmWake (s : State) : Bool := s.flag oneKey Reg.PWR_CFG_VA_WAKE && s.flag oneKey Reg.VA_STAT_HIT

/-- A block of R647 refuses the entry. -/
def State.refuses (s : State) (target : PwrMode) (block : Nat) : Bool :=
  match block with
  | 1 => s.halfRefuses .A || s.halfRefuses .B
  | 2 => s.profileTarget.isSome
  | 6 => s.flag oneKey Reg.AR_STAT_FORMAT
  | 8 => s.portRefuses 0 || s.portRefuses 1
  | 9 => (List.range 8).any (fun b => s.twRefuses b)
  | 11 => (!s.power.lfx && (decide (target = .sleep) || decide (target = .deep))) || s.flag oneKey Reg.RU_STAT_SNAP
  | 12 => s.power.pfail
  | 13 => s.pinWake || s.alarmWake
  | _ => false

/-- A block of R647 holds its acknowledge. -/
def State.holds (s : State) (block : Nat) : Bool :=
  match block with
  | 1 => (List.range 8).any (fun k => s.computes (stewHalf k) && decide ((s.steward k).mode = .running))
  | 3 => (List.range 64).any (fun b => s.transmitting (s.viewOf b) b)
  | 5 => s.flag (halfKey .A) Reg.MC_STAT_TST_BUSY || s.flag (halfKey .B) Reg.MC_STAT_TST_BUSY
  | 6 => s.archive.programming.isSome || s.archive.erasing.isSome || s.archive.copying.isSome
  | 10 => !(s.flashQueue 0).isEmpty || !(s.flashQueue 1).isEmpty || s.vcLoading.isSome
  | _ => false

/-- The first block, in the order of R647, of which a test holds. -/
def firstBlock (f : Nat → Bool) : Option Nat := (List.range 15).find? f

/-! ## Requests (R646, R650, R662) -/

/-- The half whose steward a master is. -/
def Master.ownHalf : Master → Option Half
  | .steward k => some (stewHalf k.val)
  | .jtag k => if k.val < 8 then some (stewHalf k.val) else none
  | _ => none

/-- Every open bushel of the halves that compute is sealed with FLUSH (R341). -/
def sealAll (s : State) : State :=
  let f (h : Half) (s : State) : State := if s.computes h then sealWhere h true (fun _ => true) s else s
  f .B (f .A s)

def pwrStatus (st block : Nat) (s : State) : State := (s.put oneKey Reg.PWR_ST_STATUS st).put oneKey Reg.PWR_ST_BLOCK block

/-- An entry starts: every block is asked, and the engines seal (R341, R646). -/
def startEntry (m : Master) (target : PwrMode) (s : State) : State :=
  let s1 := sealAll ((pwrStatus 0 0 s).put oneKey Reg.PWR_ST_BUSY 1)
  s1.setPower { s1.power with entering := some target, enteredAt := s.tref, requester := Master.ownHalf m }

/-- A write of PWR_REQ (R646, R650, R662). -/
def writePwrReq (m : Master) (target key : Nat) (s : State) : State :=
  match s.power.mode with
  | .run =>
    if s.power.entering.isSome then pwrStatus St.BUSY 0 s
    else
      match target with
      | 0 => pwrStatus St.OK 0 s
      | 1 => startEntry m .sleep s
      | 2 => startEntry m .deep s
      | _ => if key = 0x0FF5 then startEntry m .off s else pwrStatus St.BAD_PARAM 0 s
  | .off => s
  | _ =>
    if target = 0 then
      let s1 := pwrStatus St.OK 0 s
      s1.setPower { s1.power with vcWake := true }
    else pwrStatus St.BAD_PARAM 0 s

/-- SLEEP_REQUEST (R646). -/
def execSleepRequest (m : Master) (s : State) : Result := .next (writePwrReq m 1 0 s)

/-- DEEP_REQUEST (R646). -/
def execDeepRequest (m : Master) (s : State) : Result := .next (writePwrReq m 2 0 s)

/-- OFF_REQUEST (R646, R653). -/
def execOffRequest (m : Master) (key : BitVec 16) (s : State) : Result := .next (writePwrReq m 3 key.toNat s)

/-! ## Entry (R646, R649, R652, R653) -/

/-- POWER_ENTRY_REFUSED (R646): the first block that refuses. -/
def execPowerEntryRefused (s : State) : Result :=
  .next (match s.power.entering with
    | some t =>
      match firstBlock (fun k => s.refuses t k) with
      | some k =>
        let s1 := abandonEntry k s
        s1.setPower { s1.power with edgeLatch := false }
      | none => s
    | none => s)

/-- ENTRY_TIMEOUT (R646): 50 ms after the request a block that holds is treated as refusing. -/
def execEntryTimeout (s : State) : Result :=
  .next (match s.power.entering with
    | some t =>
      if s.power.enteredAt + 10000000 ≤ s.tref then
        match firstBlock (fun k => s.refuses t k || s.holds k) with
        | some k => abandonEntry k s
        | none => s
      else s
    | none => s)

/-- Every timebase copy and general timer, by number. -/
def allTimers : List Nat := List.range 136

/-- What the stop of TREF does to a timebase (R125, R132). -/
def sleepTimer (i : Nat) (s : State) : State :=
  if s.tbEn i then
    if i < 128 then
      if s.tbSrc i = 1 then s.put (tbKey i) Reg.TB_STAT_GAP 1
      else if s.tbOnTref i then (s.put (tbKey i) Reg.TB_STAT_COARSE 1).setTimebase i { s.timebase i with frac := 0 }
      else s
    else if s.tbSrc i < 2 then s.put (tbKey i) Reg.TB_STAT_GAP 1
    else s
  else s

/-- The general timers that count stop in OFF (R132). -/
def gapTimers (s : State) : State :=
  (List.range 8).foldl (fun s g => if s.tbEn (128 + g) then s.put (tbKey (128 + g)) Reg.TB_STAT_GAP 1 else s) s

/-- Every timebase whose wrap is due makes it before its clock stops (log entry 2). -/
def settleWraps (s : State) : State := allTimers.foldl (fun s i => wrapTimebase i s) s

/-- A synthesiser stops (R210); gated items wait as in STOPPED (R211). -/
def stopSynth (j : Nat) (s : State) : State :=
  let x := s.synth j
  s.setSynth j
    { x with mode := .stopped, failed := false, deaf := true, freq := x.staged.getD (x.pendFreq.getD x.freq), staged := none,
             pendFreq := none, heldCal := x.heldCal || x.pendCal, pendCal := false }

/-- No TALK exchange runs outside RUN (R126). -/
def dropExchange (x : Slot) : Slot :=
  { x with talk := x.talk.map (fun (r : TalkReq) => { r with running := false }) }

/-- What stops with TREF and the SerDes PLL: links after a HELLO with SLEEP, receptions, exchanges, sessions (R237, R449,
R515, R647). -/
def stopBlocks (s : State) : State :=
  let s1 := (sealAll (settleWraps s)).put oneKey Reg.ENV_STAT_OPEN 0
  let s2 := (List.range 8).foldl (fun s l => sendHello true l s) s1
  let s3 := (List.range 64).foldl (fun s b => s.onCopies (fun h s => loseAssembly h b s)) s2
  let s4 := (List.range 8).foldl (fun s j => stopSynth j s) s3
  { s4 with slots := s4.slots.map (fun (e : Nat × Slot) => (e.1, dropExchange e.2)) }

/-- The static band a terminal latches for DEEP in the copy of its live path (R126, R652). -/
def State.deepOn (s : State) (t : Nat) : Bool :=
  if s.orphaned (t / 16) then s.envFailsafe t
  else
    let h := s.livePath t
    (s.reg (bayKey h (t / 16) + Reg.TB_SLP_LVL)).getLsbD (t % 16) && decide (s.envMaxd t = 1000)
      && s.flag (termKey h t) Reg.TS_CTL_EN && !s.flag (termKey h t) Reg.TS_STAT_TRIP

/-- The interlock of two partners that would both latch ON holds the higher-numbered one (R652). -/
def State.deepHeld (s : State) (t : Nat) : Bool :=
  let p := 16 * (t / 16) + s.get (envKey t) Reg.TS_ILK_PARTNER
  s.flag (envKey t) Reg.TS_ILK_ILK && decide (p < t) && s.deepOn t && s.deepOn p

/-- A terminal pad latches its band for DEEP (R652). Where the interlock takes ON from it, the envelope has acted (R193). -/
def latchPad (s0 : State) (t : Nat) (s : State) : State :=
  let held := s0.deepHeld t
  let s1 := if held then s.onCopies (fun h s => envelopeAction h t [Reg.TD_STAT_ILK_HOLD] 3 s) else s
  let b := t / 16
  let clamped (h : Half) : Bool :=
    (s0.reg (bayKey h b + Reg.TB_SLP_LVL)).getLsbD (t % 16) && decide (s0.envMaxd t ≠ 1000)
  let s2 := s1.onCopies (fun h s => if clamped h then s.put (bayKey h b) Reg.TB_STAT_SLP_CLAMP 1 else s)
  syncPad t (s2.setPad t { s2.pad t with latch := some (if s0.deepOn t && !held then .on else .rest) })

/-- The direction and the output level of a general pin (R679): bit 0 of its cell group in GP_OUT, or the event output. -/
def State.gpDir (s : State) (p : Nat) : Bool := s.flag (oneKey + p) Reg.GP_CFG_DIR

def State.gpLevel (s : State) (p : Nat) : Bool :=
  if s.get (oneKey + p) Reg.GP_CFG_SRC = 1 then (s.consumer (72 + p)).out
  else (s.reg (oneKey + Reg.GP_OUT + p / 16)).getLsbD (p % 16)

def pinMask (f : Nat → Bool) : BitVec 32 :=
  BitVec.ofNat 32 ((List.range 32).foldl (fun n p => n + (if f p then 2 ^ p else 0)) 0)

/-- What a general pin is driven to, if it is (R652, R679, R686): an open-drain pin is only driven low. -/
def State.gpDriven (s : State) (p : Nat) : Option Bool :=
  let dir := match s.power.gpLatch with | some l => l.1.getLsbD p | none => s.gpDir p
  let lvl := match s.power.gpLatch with | some l => l.2.getLsbD p | none => s.gpLevel p
  if dir && !(lvl && s.flag (oneKey + p) Reg.GP_CFG_OD) then some lvl else none

/-- The pad groups are held, and the core supplies go to the retention voltage (R637, R652). -/
def latchAll (s : State) : State :=
  let s1 := s.setPower { s.power with gpLatch := some (pinMask (fun p => s.gpDir p), pinMask (fun p => s.gpLevel p)) }
  let s2 := s1.put oneKey Reg.PWR_PAD_HOLD 31
  sendVout 550 true ((List.range 1024).foldl (fun t n => latchPad s n t) s2)

/-- The state entered takes effect (R646 step 5). -/
def enterMode (target : PwrMode) (s : State) : State :=
  match target with
  | .run => s
  | .sleep =>
    let s1 := allTimers.foldl (fun s i => sleepTimer i s) (s.count (oneKey + Reg.PWR_ENT_SLEEP) 1)
    sleepBands true (dropTsync (followEnables (s1.setPower { s1.power with mode := .sleep })))
  | .deep =>
    let s1 := restSlots (latchAll (s.count (oneKey + Reg.PWR_ENT_DEEP) 1))
    dropTsync (followEnables (s1.setPower { s1.power with mode := .deep, regConfirmed := false }))
  | .off =>
    let s1 := gapTimers (s.count (oneKey + Reg.PWR_OFFCNT) 1)
    let s2 := s1.setPower { s1.power with mode := .off }
    let s3 := { s2 with halfA := { s2.halfA with inReset := true }, halfB := { s2.halfB with inReset := true } }
    (List.range 1024).foldl (fun s t => syncPad t s) s3

/-! ## Wake and return (R648 to R651) -/

/-- The code of the wake source that asks for RUN, the lowest of them (R648). -/
def State.wakeCode (s : State) : Option Nat :=
  let p := s.power
  let asleep := decide (p.mode = .sleep)
  let cp := s.flag oneKey Reg.PWR_CFG_CP_WAKE
  if s.pinWake then some 1
  else if s.alarmWake then some 2
  else if asleep && s.flag oneKey Reg.PWR_CFG_VW_WAKE && decide (s.watchMask ≠ 0) then some 3
  else if asleep && s.flag oneKey Reg.PWR_CFG_EVM_WAKE && p.matrixWake then some 4
  else if cp && p.portWakeA then some 5
  else if cp && p.portWakeB then some 6
  else if p.vcWake then some 7
  else if p.brownWake then some 8
  else none

/-- A return begins (R651 steps 1 to 3). -/
def beginReturn (code : Nat) (s : State) : State :=
  let s1 := s.put oneKey Reg.PWR_ST_WAKE code
  let s2 := if s.power.mode = .sleep then
      s1.put oneKey Reg.VW_STAT_WOKE (s1.get oneKey Reg.VW_STAT_WOKE ||| s.watchMask) else s1
  let s3 := s2.setPower { s2.power with fullMode := true, returning := some (if s.power.mode = .deep then 2 else 3) }
  if s.power.mode = .deep then sendVout (profileMv s.profile) true s3 else s3

/-- A wake source that asks for RUN starts the return from SLEEP or DEEP. -/
def takeWake (s : State) : State :=
  if (s.power.mode = .sleep ∨ s.power.mode = .deep) ∧ s.power.returning.isNone = true then
    match s.wakeCode with
    | some c => beginReturn c s
    | none => s
  else s

/-- POWER_ENTRY_COMMIT (R646, R649): once no block refuses or holds. The WAKE_N edge latch is cleared at the end of the
window; whether the pin falls within the window comes with the command. A level wake asserted when the window ends begins the
return at once. -/
def execPowerEntryCommit (pinFalls : Bool) (s : State) : Result :=
  .next (match s.power.entering with
    | some t =>
      if (firstBlock (fun k => s.refuses t k || s.holds k)).isNone then
        let s1 := stopBlocks ((pwrStatus St.OK 0 s).put oneKey Reg.PWR_ST_BUSY 0)
        let p := s1.power
        let s2 := { s1 with trefRuns := false }
        takeWake (enterMode t (s2.setPower
          { p with entering := none, requester := none, edgeLatch := false, wakeLow := p.wakeLow || pinFalls,
                   fullMode := s.flag oneKey Reg.PWR_CFG_VREG_FULL }))
      else s
    | none => s)

/-- RUN_REQUEST (R650): the VC's way to wake the device. -/
def execRunRequest (m : Master) (s : State) : Result := .next (takeWake (writePwrReq m 0 0 s))

/-! ## Resets (R641 to R643, R691) -/

/-- What the MRAM keeps of the archive. -/
def keptArchive (a : Archive) : Archive :=
  let b := { a with requests := [], sent := [], stalled := false, copying := none }
  match a.copying with
  | some (slot, failed, x) => { b with spares := x :: b.spares, refresh := (slot, failed) :: b.refresh }
  | none => b

/-- POWER_ON_RESET (R641, R643, R678): everything but the OTP, the MRAM, the boot flashes and the metrology die. The straps
are sampled. -/
def powerOn (vaon testN xrefMode : Bool) (s : State) : State :=
  let off := s.reg (oneKey + Reg.PWR_OFFCNT)
  let r := State.reset
  let s1 : State := { r with
    halfA := { r.halfA with supplyOk := s.halfA.supplyOk }, halfB := { r.halfB with supplyOk := s.halfB.supplyOk }
    tref := s.tref, stood := s.stood, freeCount := s.freeCount, meter := s.meter, archive := keptArchive s.archive, flash := s.flash
    otp := s.otp, gpPins := s.gpPins, pending := s.pending
    power := { r.power with wakeLow := s.power.wakeLow, pfail := s.power.pfail, resetLow := s.power.resetLow, vaon := vaon,
                            testN := testN, xrefMode := xrefMode }
    pads := if vaon then [] else (List.range 1024).map (fun t => (t, { Pad.reset with level := .off })) }
  s1.setReg (oneKey + Reg.PWR_OFFCNT) off

def execPowerOnReset (testN xrefMode : Bool) (s : State) : Result := .next (powerOn true testN xrefMode s)

/-- VAON_FALL (R636, R691): the device is reset, and terminal pads source no current. -/
def execVaonFall (s : State) : Result := .next (powerOn false s.power.testN s.power.xrefMode s)

/-- A register that RESET_N leaves as it is: the envelope's, RWS fields, BOOT_SEL, RATE, residency counters, the count in
MRAM (R641, R653, R656). -/
def keptByResetN (key : Nat) : Bool :=
  let a := key - oneKey
  decide (oneKey ≤ key)
    && ((decide (0x10000 ≤ a) && decide (a < 0x20000)) || a == Reg.FAB_CLAIM || a == Reg.FAB_LAST || a == Reg.FAB_RATE
      || a == Reg.BOOT_SEL || a == Reg.BOOT_SEL + 1 || (decide (Reg.PWR_RES ≤ a) && decide (a < Reg.PWR_BOCNT))
      || a == Reg.PWR_OFFCNT)

/-- A pad keeps its trip and its history, and no hold. -/
def unheldPad (p : Pad) : Pad := { p with latch := none, frame := 0 }

/-- RESET_N is held low (R641, R642, R660). -/
def assertReset (s : State) : State :=
  let r := State.reset
  let asleep := decide (s.power.mode = .sleep) || decide (s.power.mode = .deep)
  let p : Power := { s.power with
    entering := none, requester := none, edgeLatch := false, matrixWake := false, portWakeA := false, portWakeB := false
    vcWake := false, brownWake := false, resetLow := true, gpLatch := none
    returning := if asleep then some (if s.power.mode = .deep then 2 else 3) else none }
  let s1 : State := { r with
    regs := s.regs.filter (fun e => keptByResetN e.1)
    halfA := { r.halfA with supplyOk := s.halfA.supplyOk }, halfB := { r.halfB with supplyOk := s.halfB.supplyOk }
    profile := s.profile, tref := s.tref, stood := s.stood, lockAt := s.lockAt, trefRuns := s.trefRuns, fabricTime := s.fabricTime, freeCount := s.freeCount
    vmem := s.vmem, vmemMarks := s.vmemMarks, meter := s.meter, archive := keptArchive s.archive, flash := s.flash
    flashOps := s.flashOps.map (fun (e : Nat × List FlashOp) =>
      (e.1, e.2.map (fun (o : FlashOp) => { o with src := FlashSource.gone })))
    otp := s.otp, vcEntry := s.vcEntry, gpPins := s.gpPins, jtag := s.jtag, pending := s.pending, power := p
    pads := s.pads.map (fun (e : Nat × Pad) => (e.1, unheldPad e.2)) }
  let s2 := s1.put oneKey Reg.FAB_STAT_VALID (s.get oneKey Reg.FAB_STAT_VALID)
  let s3 := if s.power.mode = .deep then sendVout (profileMv s.profile) true s2 else s2
  (List.range 1024).foldl (fun s t => syncPad t s) s3

/-- Halves whose conditions hold leave half reset (R643 steps 3 and 4). -/
def leaveResets (s : State) : State :=
  let f (h : Half) (s : State) : State := if s.mayLeaveReset h then leaveReset h s else s
  f .B (f .A s)

/-- RESET_N (R642): the pin falls, or rises again. -/
def execResetN (low : Bool) (s : State) : Result :=
  .next (if s.power.mode = .off ∨ s.power.vaon = false then s.setPower { s.power with resetLow := low }
    else if low then assertReset s
    else leaveResets (s.setPower { s.power with resetLow := false }))

/-- WAKE_REQUEST (R648, R649, R653): the level of WAKE_N, and whatever source asks. Before the commit it abandons the entry;
in SLEEP and DEEP the return begins; in OFF the pin, low for 1 ms, leads to a power-on reset. -/
def execWakeRequest (wakeLow : Bool) (s : State) : Result :=
  let p := s.power
  let falls := wakeLow && !p.wakeLow
  let armed := p.entering.isSome || decide (p.mode = .sleep) || decide (p.mode = .deep)
  let s1 := s.setPower
    { p with wakeLow := wakeLow, edgeLatch := p.edgeLatch || (falls && armed && s.flag oneKey Reg.PWR_CFG_WN_EDGE) }
  .next (if p.mode = .off then (if wakeLow then powerOn true p.testN p.xrefMode s1 else s1)
    else if p.entering.isSome then
      (if s1.pinWake || s1.alarmWake then
        let s2 := abandonEntry 13 s1
        s2.setPower { s2.power with edgeLatch := false }
      else s1)
    else takeWake s1)

/-- A timebase at the return to RUN (R127, R128, R132). -/
def wakeTimer (deep : Bool) (i : Nat) (s : State) : State :=
  if deep && s.tbEn i then s.put (tbKey i) Reg.TB_STAT_GAP 1
  else if i < 128 then s.put (tbKey i) Reg.TB_STAT_COARSE 0
  else s

/-- The bit disturbed in retention (R564, R570): a second one in a word makes it uncorrectable. -/
def applyFlip (f : Flip) (s : State) : State :=
  if f.instr then
    let i := imemIx f.half f.addr
    { s with imemMarks := tblSet s.imemMarks 0 i (min 2 (tblGet s.imemMarks 0 i + 1)) }
  else
    let i := bankIx f.half f.addr
    { s with bankMarks := tblSet s.bankMarks 0 i (min 2 (tblGet s.bankMarks 0 i + 1)) }

/-- TREF locks: the SAR cycles are counted anew (R165). -/
def lockTref (s : State) : State :=
  { s with trefRuns := true, lockAt := s.onTref }

/-- The event matrix's WAKE consumers are busy until RUN is reached (R544). -/
def freeWakers (s : State) : State :=
  { s with consumers := s.consumers.map (fun (e : Nat × Consumer) =>
      if 136 ≤ e.1 ∧ e.1 < 144 then (e.1, { e.2 with busy := false }) else e) }

/-- The device reaches RUN (R651 steps 4 and 5, R127, R128, R210, R293, R449). -/
def reachRun (flips : List Flip) (s : State) : State :=
  let deep := decide (s.power.mode = .deep)
  let s1 := if deep then flips.foldl (fun s f => applyFlip f s) s else s
  let p := s1.power
  let s2 := freeWakers { lockTref s1 with
    power := { p with mode := .run, returning := none, edgeLatch := false, matrixWake := false, portWakeA := false,
                      portWakeB := false, vcWake := false, brownWake := false } }
  let s3 := allTimers.foldl (fun s i => wakeTimer deep i s) s2
  let mark (h : Half) (s : State) : State := if s.computes h then s.put (halfKey h) Reg.HP_STAT_WOKE 1 else s
  let s4 := gapRuns (mark .B (mark .A s3))
  let s5 := followEnables ((List.range 8).foldl (fun s j => synthRun j s) s4)
  raiseEvent evWake (leaveResets s5)

/-- RETURN_TO_RUN (R651): once the regulators have confirmed and XREF runs. -/
def execReturnToRun (flips : List Flip) (s : State) : Result :=
  if flips.all Flip.wf then
    .next (if s.power.returning = some 3 ∧ s.power.xref = true then reachRun flips s else s)
  else .fault .illFormed

/-- REGULATOR_RETRY (R651): 20 ms without confirmation. -/
def execRegulatorRetry (acked : Bool) (s : State) : Result :=
  .next (if s.power.returning = some 2 then sendVout (profileMv s.profile) acked (s.put oneKey Reg.PWR_STAT_VREG_FAIL 1)
    else s)

/-! ## Pad holds (R652, R665) -/

/-- A write of PWR_PAD: the groups written 1 are released. Terminals follow at their slots' next period starts. -/
def writePwrPad (w : Word) (s : State) : State :=
  let old := s.get oneKey Reg.PWR_PAD_HOLD
  let s1 := s.put oneKey Reg.PWR_PAD_HOLD (old &&& (31 ^^^ bits w 4 0))
  let s2 := if w.getLsbD 2 then s1.setPower { s1.power with gpLatch := none } else s1
  followEnables s2

/-- PAD_HOLD_RELEASE (R652). -/
def execPadHoldRelease (groups : BitVec 5) (s : State) : Result := .next (writePwrPad (groups.zeroExtend 20) s)

/-! ## The Vigil alarm and brown-out (R655, R666) -/

/-- VIGIL_ALARM (R666): the compare is armed and matches. -/
def execVigilAlarm (s : State) : Result :=
  let cmp := s.wide (oneKey + Reg.VA_CMP) 3 % 2 ^ 60
  .next (if s.flag oneKey Reg.VA_STAT_EN && s.flag oneKey Reg.VA_STAT_ARMED
      && decide ((s.timeNs + (2 ^ 60 - cmp)) % 2 ^ 60 < 2 ^ 59) then
    (s.put oneKey Reg.VA_STAT_HIT 1).put oneKey Reg.VA_STAT_ARMED 0
  else s)

/-- BROWNOUT (R655): the Vigil memory word being written, if one was, may be left uncorrectable. -/
def execBrownout (word : Option (BitVec 14)) (s : State) : Result :=
  let s1 := match word with
    | some a => { s with vmemMarks := tblSet s.vmemMarks 0 a.toNat 2 }
    | none => s
  let s2 := (s1.put oneKey Reg.PWR_STAT_BROWNOUT 1).count (oneKey + Reg.PWR_BOCNT) 1
  let s3 := abandonEntry 14 (s2.setPower { s2.power with fullMode := true })
  let s4 := stopNow 8 s3
  let s5 :=
    if s4.flag oneKey Reg.VC_STAT_LOADED && s4.vcLoading.isNone then
      (s4.put (stewKey 8) Reg.STW_CTL_RUN 1).setSteward 8
        { s4.steward 8 with mode := .running, pc := s4.vcEntry, rsv := none, skipBreak := false }
    else s4.put (stewKey 8) Reg.STW_CTL_RUN 0
  .next (if s.power.mode = .sleep ∨ s.power.mode = .deep then takeWake (s5.setPower { s5.power with brownWake := true })
    else s5)

/-! ## Oscillators (R638 to R640) -/

/-- XREF_LOSS (R639, R660). -/
def execXrefLoss (s : State) : Result :=
  let p := s.power
  .next (if p.xref then
    let s0 := if p.mode = .run then settleWraps s else s
    let s1 := s0.setPower { s0.power with xref := false, xrefGone := p.xrefGone || decide (p.mode = .run) }
    if p.mode = .run then
      let s2 := { s1.put oneKey Reg.PWR_STAT_XREF_FAIL 1 with trefRuns := false }
      restSlots ((List.range 128).foldl (fun s i => if s.tbEn i then s.put (tbKey i) Reg.TB_STAT_GAP 1 else s) s2)
    else if p.returning.isSome then s1.put oneKey Reg.PWR_STAT_XREF_FAIL 1
    else s1
  else s)

/-- XREF_RETURN (R639, R643): XREF runs, and in RUN TREF locks. -/
def execXrefReturn (s : State) : Result :=
  let p := s.power
  .next (if p.xref || !p.vaon || decide (p.mode = .off) then s
  else
    let s1 := s.setPower { p with xref := true, xrefGone := false }
    if p.mode = .run then
      let s2 := lockTref s1
      let mark (h : Half) (s : State) : State :=
        if p.xrefGone && s.computes h then s.put (halfKey h) Reg.HP_STAT_XREF 1 else s
      let s3 := if p.xrefGone then gapRuns (mark .B (mark .A s2)) else s2
      leaveResets ((List.range 1024).foldl (fun s t => syncPad t s) s3)
    else s1)

/-- LFX_LOSS (R640). -/
def execLfxLoss (s : State) : Result :=
  .next ((s.setPower { s.power with lfx := false }).put oneKey Reg.PWR_STAT_LFX_FAIL 1)

/-- LFX_OK (R638, R640): LFX has run for 100 ms. -/
def execLfxOk (s : State) : Result := .next (s.setPower { s.power with lfx := s.power.vaon })

/-! ## PFAIL_N (R657) -/

/-- PFAIL_ASSERT (R657, R660). -/
def execPfailAssert (s : State) : Result :=
  .next (if s.power.pfail then s
  else
    let s1 := s.setPower { s.power with pfail := true }
    let mark (h : Half) (s : State) : State := if s.computes h then s.put (halfKey h) Reg.HP_STAT_PFAIL 1 else s
    abandonEntry 12 (raiseEvent evPfail (sealAll (mark .B (mark .A s1)))))

/-- PFAIL_RELEASE (R657). -/
def execPfailRelease (s : State) : Result := .next (s.setPower { s.power with pfail := false })

end Sys2Proof.Machine
end

