-- ==== Sys2Proof/Machine/Clock.lean ====
section
/-! DEFINITION. The clocks: a TREF edge, an LFX edge, and the step of the device when no command waits (R29, R111, R125, R132,
R436, R656). -/

namespace Sys2Proof.Machine

/-- The rate of fabric time, in parts per 10^9 (R436). -/
def State.fabRate (s : State) : Int := signed 20 (s.reg (oneKey + Reg.FAB_RATE)).toNat

/-- Fabric time counts a number of units of 2^-32 ns at the rate in force (R436). -/
def addTime (units : Nat) (s : State) : State :=
  let n := units * (1000000000 + s.fabRate).toNat
  let up := if n % 1000000000 ≠ 0 ∧ Config.timeRound s.fabRate then 1 else 0
  { s with fabricTime := (s.fabricTime + n / 1000000000 + up) % 2 ^ 92 }

/-- 5 ns, and an LFX period of 30,517.578125 ns, in units of 2^-32 ns. -/
def trefUnits : Nat := 5 * 2 ^ 32
def lfxUnits : Nat := 131072000000000

/-- The residency counter that counts now: the time of an entry counts as RUN; a return is none of the four states
(R656). -/
def State.resState (s : State) : Option Nat :=
  if s.power.mode = .off then none
  else if s.powerState = 4 then some 0
  else if s.powerState = 5 then none
  else some s.powerState

/-- Time passes in the state the device is in, in 1/12,500,000 of a unit of 1/1,024 s (R656). -/
def countResidency (n : Nat) (s : State) : State :=
  match s.resState with
  | none => s
  | some k =>
    let tot := s.power.resFrac + n
    let s1 := s.setPower { s.power with resFrac := tot % 12500000 }
    let key := oneKey + Reg.PWR_RES + 2 * k
    if 12500000 ≤ tot then s1.setWide key 2 (min 0xFFFFFFFFFF (s1.wide key 2 + tot / 12500000)) else s1

/-- An LFX edge as the general timers on LFX see it in RUN (R130). -/
def lfxTimers (s : State) : State :=
  (List.range 8).foldl (fun s g => if s.tbSrc (128 + g) = 3 then sourceEdge (128 + g) s else s) s

/-- A TREF edge in the line copies that can count one: a frame deferred at its turn, and a stalled engine whose swap waits.
Only a listed engine can be at either (R213, R264). -/
def lineTicks (s : State) : State :=
  (s.engines.map Prod.fst).foldl
    (fun s i =>
      let h := Half.ofBit (decide (64 ≤ i))
      if s.computes h then lineTick h (i % 64) s else s) s

/-- The pads of the slots whose exchange runs follow its bits (R155). -/
def talkPads (s : State) : State :=
  (s.slots.filter (fun e => e.2.talk.any (fun r => r.running))).foldl (fun s e => syncPad (e.1 % 1024) s) s

/-- A TREF edge: the timebases on TREF count, never past the tick before a wrap, which is a command of its own; fabric time,
residency, the lines' counts and the model's measure of time advance (R29, R111, R213, R264, R436). -/
def trefEdge (s : State) : State :=
  let s1 := s.allTimebases.foldl (fun s i => if s.tbOnTref i then sourceEdge i s else s)
    (talkPads (lineTicks { s with tref := s.tref + 1 }))
  let s2 := countResidency 64 (addTime trefUnits s1)
  let ph := s2.power.lfxPhase + 64
  if 390625 ≤ ph then lfxTimers (s2.setPower { s2.power with lfxPhase := ph - 390625 })
  else s2.setPower { s2.power with lfxPhase := ph }

/-- An LFX edge while TREF stands still: the model's measure of time advances to it, and so does residency (R436,
R656). -/
def lfxPass (s : State) : State :=
  let n := (390625 - s.power.lfxPhase + 63) / 64
  let ph := s.power.lfxPhase + 64 * n - 390625
  countResidency 390625 ({ s with tref := s.tref + n, stood := s.stood + n }.setPower { s.power with lfxPhase := ph })

/-- LFX_EDGE_COARSE (R125, R126, R132, R436): an LFX edge in SLEEP. -/
def execLfxEdgeCoarse (s : State) : Result :=
  .next (if s.power.mode = .sleep then coarseEdge (addTime lfxUnits (lfxPass s)) else s)

/-- The block's step when no command waits (log entry 1): in RUN a TREF edge, or an LFX edge while TREF stands still; in DEEP
an LFX edge. The LFX edge in SLEEP is a command of the table, and in OFF no oscillator runs (R29). Fabric time stays on LFX
where XREF was lost (R639). -/
def idle (s : State) : State :=
  if !s.power.vaon then s
  else
    match s.power.mode with
    | .run =>
      if s.trefRuns then trefEdge s
      else if s.power.xrefGone then lfxTimers (addTime lfxUnits (lfxPass s))
      else lfxTimers (lfxPass s)
    | .deep => addTime lfxUnits (lfxPass s)
    | .sleep => s
    | .off => s

end Sys2Proof.Machine
end

