-- ==== Sys2Proof/Machine/FabricTime.lean ====
section
/-! DEFINITION. Fabric time: exchanges, steps and setting (R436, R440, R441, R443), and the swap of roles (R439). -/

namespace Sys2Proof.Machine

/-! ## Exchanges (R440) -/

/-- The time stamp of a block: fabric time at the instant so many unit intervals of 0.3125 ns after the TREF edge, in
whole ns (R421). -/
def State.stamp (s : State) (sub : Nat) : Nat := (s.fabricTime + sub * 0x50000000) / 0x100000000 % 2 ^ 60

/-- SYNC_SEND (R440): the PARENT end of a link. -/
def execSyncSend (l : Fin 8) (sub : Fin 16) (s : State) : Result :=
  let x := s.link l
  .next (if x.mode = .up ∧ x.role = 1 then
    let q := (x.seq + 1) % 64
    sendBlock l (.sync 0 q) (s.setLink l { x with seq := q, t12 := s.stamp sub })
  else s)

/-- SYNC_RECEIVED (R440): the CHILD end answers with SYNCR, so many ns after the receipt. -/
def execSyncReceived (l : Fin 8) (seq : Fin 64) (sub : Fin 16) (turn : Nat) (s : State) : Result :=
  if decide (turn ≤ 100000) then
    let x := s.link l
    .next (if x.mode = .up ∧ x.role = 2 then
      sendBlock l (.sync 1 seq.val)
        (s.setLink l { x with seq := seq.val, t12 := s.stamp sub, t3 := s.stamp sub + turn })
    else s)
  else .fault .illFormed

/-- SYNCR_RECEIVED (R440): the PARENT end sends T1 and T4. -/
def execSyncrReceived (l : Fin 8) (seq : Fin 64) (sub : Fin 16) (s : State) : Result :=
  let x := s.link l
  .next (if x.mode = .up ∧ x.role = 1 ∧ x.seq = seq.val then
    refreshTime (sendBlock l (.stamps seq.val (x.t12 % 2 ^ 48) (s.stamp sub % 2 ^ 48)) (s.setLink l { x with fresh := x.fresh + 1 }))
  else s)

/-- A value held between the bounds of a two's complement field of n bits. -/
def saturate (n : Nat) (v : Int) : Int := max (-(2 ^ (n - 1))) (min (2 ^ (n - 1) - 1) v)

/-- The pipelines and the counter after a step of fabric time by a number of ns (R440, R293). -/
def stepTime (by_ : Int) (s : State) : State :=
  let t := ((s.fabricTime : Int) + by_ * 0x100000000) % 2 ^ 92
  raiseEvent evFabTime (gapRuns (fabMark Reg.FAB_STAT_TSTEP { s with fabricTime := t.toNat }))

/-- TSYNC becomes 1 when its three conditions hold at an exchange; VALID follows its first time (R436, R441). -/
def gainTsync (l : Nat) (s : State) : State :=
  if 16 ≤ s.router.good ∧ (s.link l).ntsync = true ∧ s.get oneKey Reg.FAB_TSTAT_DIST ≤ 25 then
    fabMark Reg.FAB_STAT_VALID (fabMark Reg.FAB_STAT_TSYNC s)
  else s

/-- What a device takes from an exchange with its time parent (R440, R441). The spec gives no law for RATE: the new rate
is a free value held within its bounds (R436). -/
def takeExchange (l : Nat) (theta : Int) (s : State) : State :=
  let rate := max (-200000) (min 200000 (Config.rateLaw theta (signed 20 (s.reg (oneKey + Reg.FAB_RATE)).toNat)))
  let big := decide (1000 < theta.natAbs)
  let far := if big then s.router.far + 1 else 0
  let s1 := s.setRouter
    { s.router with
      exchangeAt := s.tref, good := if theta.natAbs ≤ 100 then s.router.good + 1 else 0,
      far := if 4 ≤ far then 0 else far }
  let s2 := (s1.setReg (oneKey + Reg.FAB_RATE) (BitVec.ofInt 20 rate)).setReg (oneKey + Reg.FAB_TOFF)
    (BitVec.ofInt 20 (saturate 20 theta))
  let s3 := if big then dropTsync s2 else s2
  gainTsync l (if 4 ≤ far then stepTime (-theta) s3 else s3)

/-- TIMESTAMPS_RECEIVED (R440): T1 and T4 of an exchange whose SEQ is the link's latest. The halves are taken toward
zero. -/
def execTimestampsReceived (l : Fin 8) (seq : Fin 64) (t1 t4 : BitVec 48) (s : State) : Result :=
  let x := s.link l
  let upper := s.timeNs / 2 ^ 48 * 2 ^ 48
  let a : Int := (x.t12 : Int) - (upper + t1.toNat : Nat)
  let b : Int := ((upper + t4.toNat : Nat) : Int) - (x.t3 : Int)
  let asym := signed 20 (s.reg (linkKey l + Reg.LK_ASYM)).toNat
  let theta := (a - b - asym).tdiv 2
  let delta := (a + b).tdiv 2
  let d := if 0 ≤ delta ∧ delta < 0x100000 then BitVec.ofNat 20 delta.toNat else Config.delayOut delta
  .next (if x.mode = .up ∧ x.role = 2 ∧ x.seq = seq.val then
    let s1 := (s.setReg (linkKey l + Reg.LK_DELAY) d).setLink l { x with fresh := x.fresh + 1 }
    refreshTime (if s1.router.parent = some l.val then takeExchange l theta s1 else s1)
  else s)

/-! ## Setting fabric time (R443) -/

/-- Fabric time set at the root; the status, and the state after it. -/
def setTime (ns : Nat) (s : State) : Nat × State :=
  if s.isRoot then
    let s1 := settleTsync (fabMark Reg.FAB_STAT_VALID s)
    (St.OK, refreshTime (stepTime 0 { s1 with fabricTime := ns % 2 ^ 60 * 0x100000000 }))
  else (St.FAB_NOT_ROOT, s)

/-- A write of the third word of FAB_TSET (R12, R443, R454). -/
def commitTset (m : Master) (hi : Word) (s : State) : State :=
  let lo := s.staged m Reg.FAB_TSET (s.reg (oneKey + Reg.FAB_TSET))
  let mid := s.staged m (Reg.FAB_TSET + 1) (s.reg (oneKey + Reg.FAB_TSET + 1))
  let v := lo.toNat + 0x100000 * mid.toNat + 0x10000000000 * hi.toNat
  let s1 := ((s.unstage m Reg.FAB_TSET).unstage m (Reg.FAB_TSET + 1)).setWide (oneKey + Reg.FAB_TSET) 3 v
  let o := setTime v s1
  o.2.put oneKey Reg.FAB_TSTAT_SET_ST o.1

/-- TIME_SET_WRITE (R443). -/
def execTimeSetWrite (m : Master) (hi : Word) (s : State) : Result :=
  .next (s.blockWrite m blkFabric (Reg.FAB_TSET + 2) (commitTset m hi))

/-! ## Roles (R438, R439) -/

/-- A swap of the roles of a link. -/
def swapRole (l : Nat) (s : State) : State :=
  let r := (s.link l).role
  setRole l (if r = 1 then 2 else if r = 2 then 1 else r) 0 s

/-- ROLE REQ is sent (R439). -/
def sendRoleReq (l : Nat) (s : State) : State :=
  let x := s.link l
  let q := (x.roleSeq + 1) % 256
  let s1 := s.setLink l { x with roleSeq := q, req := some (q, s.tref), backoff := none }
  sendBlock l (.role 1 q 0) (s1.put (linkKey l) Reg.LK_STAT_SWAP_BUSY 1)

/-- The rule of R438 calls for a swap: it has given the other assignment for three HELLO intervals in a row. -/
def State.callsSwap (s : State) (l : Nat) : Bool :=
  let x := s.link l
  decide (x.mode = .up) && decide (x.role ≠ 0) && decide (3 ≤ x.wrong)

/-- Firmware's request of a swap (R439, R456). While one is outstanding it is refused; during a back-off it stands until
the back-off ends; on a link that is not UP it ends at once. -/
def askSwap (l : Nat) (s : State) : State :=
  let x := s.link l
  if x.req.isSome then s.put (linkKey l) Reg.LK_STAT_SWAP_ST St.BUSY
  else if x.mode ≠ .up then s.put (linkKey l) Reg.LK_STAT_SWAP_ST St.FAB_LINK_DOWN
  else if x.backoff.isSome then s.setLink l { x with fwReq := true }
  else sendRoleReq l (s.setLink l { x with fwReq := true })

/-- SWAP_REQUEST (R438, R439): a master's write of LK_CTL.SWAP, or, with no master, the HELLO rule. -/
def execSwapRequest (l : Fin 8) (m : Option Master) (s : State) : Result :=
  let x := s.link l
  .next (match m with
    | some m => s.blockWrite m blkFabric (Reg.LK_CTL + 0x10 * l) (askSwap l)
    | none => if s.callsSwap l && x.req.isNone && x.backoff.isNone then sendRoleReq l s else s)

/-- A collision at this end: the request is over, and a back-off of 1 ms to 16 ms runs (R439). The number drawn is a
free value. -/
def collide (l : Nat) (s : State) : State :=
  let n := 1000 + Config.backoff s.freeCount % 15001
  let s1 := { s with freeCount := s.freeCount + 1 }
  let s2 := s1.setLink l { s1.link l with req := none, backoff := some (s1.tref + 200 * n) }
  s2.put (linkKey l) Reg.LK_STAT_SWAP_ST St.SWAP_COLLIDED

/-- ROLE_REQ_RECEIVED (R439). -/
def execRoleReqReceived (l : Fin 8) (seq : Byte) (s : State) : Result :=
  let x := s.link l
  .next (if x.mode ≠ .up then s
    else if x.req.isSome then
      let s1 := collide l (sendBlock l (.role 3 seq.toNat 1) s)
      let r := if s1.nuid l < ownUid then 1 else 2
      let s2 := if (s1.link l).role = r then s1 else setRole l r 0 s1
      refreshTime (fabMark Reg.FAB_STAT_ROLE_COLL (countLink l 4 1 s2))
    else if s.flag (linkKey l) Reg.LK_CTL_LOCK then sendBlock l (.role 3 seq.toNat 0) s
    else refreshTime (swapRole l (sendBlock l (.role 2 seq.toNat 0) s)))

/-- The link's outstanding request has this SEQ. -/
def Link.asked (x : Link) (seq : Nat) : Bool :=
  match x.req with | some (q, _) => decide (x.mode = .up) && decide (q = seq) | none => false

/-- ROLE_ACK_RECEIVED (R439). -/
def execRoleAckReceived (l : Fin 8) (seq : Byte) (s : State) : Result :=
  .next (if (s.link l).asked seq.toNat then refreshTime (swapRole l (endSwap l St.OK s)) else s)

/-- ROLE_NAK_RECEIVED (R439): refused, or collided. -/
def execRoleNakReceived (l : Fin 8) (seq : Byte) (collided : Bool) (s : State) : Result :=
  .next (if (s.link l).asked seq.toNat then
    (if collided then collide l s else endSwap l St.FAB_ROLE_REFUSED s)
  else s)

/-- SWAP_TIMEOUT (R439): 5 ms without an answer. -/
def execSwapTimeout (l : Fin 8) (s : State) : Result :=
  .next (match (s.link l).req with
    | some (_, t) => if t + 1000000 ≤ s.tref then endSwap l St.FAB_TIMEOUT s else s
    | none => s)

/-- SWAP_BACKOFF_END (R439). -/
def execSwapBackoffEnd (l : Fin 8) (s : State) : Result :=
  let x := s.link l
  .next (match x.backoff with
    | some t =>
      if t ≤ s.tref then
        if (x.fwReq || s.callsSwap l) && decide (x.mode = .up) then sendRoleReq l s
        else (s.setLink l { x with backoff := none }).put (linkKey l) Reg.LK_STAT_SWAP_BUSY 0
      else s
    | none => s)

end Sys2Proof.Machine
end

