-- ==== Sys2Proof/Machine/Interrupts.lean ====
section
/-! DEFINITION. The interrupt controllers (R526 to R538, R550 to R554): pending sources, offers, acceptance, EOI, and the
rows of software pulses and pulse ends. -/

namespace Sys2Proof.Machine

/-! ## Sources (R528) -/

def irqKey (h : Half) (src : Nat) : Nat := halfKey h + src

def State.irqEnabled (s : State) (h : Half) (src : Nat) : Bool := s.flag (irqKey h src) Reg.IC_SRC_EN
def State.irqLevel (s : State) (h : Half) (src : Nat) : Nat := s.get (irqKey h src) Reg.IC_SRC_LEVEL
def State.irqActive (s : State) (h : Half) (src : Nat) : Bool := (s.half h).active.contains src

/-- A source is pending: asserted, enabled and not active (R528). -/
def State.irqPending (s : State) (h : Half) (src : Nat) : Bool :=
  s.irqEnabled h src && !s.irqActive h src && s.sourceAsserted h src

/-- PEND as IC_SRC and IC_PENDMAP show it: pending, or active with a pulse since (R528, R553). -/
def State.irqShown (s : State) (h : Half) (src : Nat) : Bool :=
  s.irqEnabled h src && s.sourceAsserted h src && (isPulse src || !s.irqActive h src)

/-! ## Ranking and pairing (R529 to R531) -/

/-- The group of a running priority or a level under SPLIT (R529). -/
def State.irqGroup (s : State) (h : Half) (l : Nat) : Nat := l / 2 ^ min 4 (s.get (halfKey h) Reg.IC_CFG_SPLIT)

/-- The ranked pending sources: by LEVEL, then by number (R530). -/
def State.irqRanked (s : State) (h : Half) : List Nat :=
  let p := (List.range 512).filter (fun c => s.irqPending h c)
  (List.range 16).flatMap (fun l => p.filter (fun c => decide (s.irqLevel h c = l)))

/-- Steward i of a half is eligible for an offer (R530); one that waits in the boot ROM stays there (R505). -/
def State.irqEligible (s : State) (h : Half) (i : Nat) : Bool :=
  let x := s.steward (4 * h.num + i)
  s.computes h && !(s.half h).romWait && s.flag (halfKey h + 4 * i) Reg.IC_SCTL_ACCEPT && decide (x.stack.length < 8)
    && (decide (x.mode = .waiting) || (decide (x.mode = .running) && !x.stepping && srIE x))

/-- The ranked eligible stewards: least urgent running priority first, WAITING before RUNNING, lower number first
(R530). -/
def State.irqStewards (s : State) (h : Half) : List Nat :=
  let e := (List.range 4).filter (fun i => s.irqEligible h i)
  let at_ (w : Bool) (p : Nat) : List Nat := e.filter (fun i =>
    let x := s.steward (4 * h.num + i)
    decide (x.runPri = p) && (decide (x.mode = .waiting) == w))
  (List.range 17).reverse.flatMap (fun p => at_ true p ++ at_ false p)

/-- Pairs are formed while the source pre-empts the steward (R531). -/
def pairOffers (g : Nat → Nat) (lv run : Nat → Nat) : List Nat → List Nat → List (Nat × Nat)
  | c :: cs, i :: is => if g (lv c) < g (run i) then (i, c) :: pairOffers g lv run cs is else []
  | _, _ => []

/-- The offers of a half: steward of the half and source (R531). -/
def State.irqOffers (s : State) (h : Half) : List (Nat × Nat) :=
  pairOffers (s.irqGroup h) (s.irqLevel h) (fun i => (s.steward (4 * h.num + i)).runPri) (s.irqRanked h) (s.irqStewards h)

/-- The source offered to steward k, S0 to S7. -/
def State.offerTo (s : State) (k : Nat) : Option Nat :=
  ((s.irqOffers (stewHalf k)).find? (fun e => decide (e.1 = k % 4))).map Prod.snd

/-! ## Acceptance and EOI (R532 to R534) -/

/-- A steward accepts a source: the controller records it, and the steward enters the vector of its level (R484, R532). -/
def acceptIrq (k c : Nat) (s : State) : State :=
  let h := stewHalf k
  let l := s.irqLevel h c
  let hs := s.half h
  let s1 := s.setHalf h { hs with
    active := listMark hs.active c, latched := if isPulse c then hs.latched.filter (fun d => !decide (d = c)) else hs.latched }
  let x := s1.steward k
  let s2 := s1.setSteward k { x with stack := (x.runPri, c) :: x.stack, runPri := l }
  entry k (16 + l) x.pc s2

/-- The steward stands at a boundary at which it may accept: no load unit is open, nothing else is due there (R471, R488). -/
def State.mayAccept (s : State) (k : Nat) : Bool :=
  let x := s.steward k
  x.load.isNone && !x.stopDue && x.haltDue.isNone && decide (s.power.mode = .run)

/-- INTERRUPT_ACCEPT (R532): of a RUNNING steward. -/
def execInterruptAccept (k : Fin 8) (s : State) : Result :=
  .next (if (s.steward k.val).mode = .running ∧ s.mayAccept k.val = true then
    match s.offerTo k.val with
    | some c => acceptIrq k.val c s
    | none => s
  else s)

/-- WAIT_END (R476): WAIT completes, and with SR.IE = 1 the offer is accepted. -/
def execWaitEnd (k : Fin 8) (s : State) : Result :=
  let x := s.steward k.val
  .next (if x.mode = .waiting ∧ s.mayAccept k.val = true then
    match s.offerTo k.val with
    | some c =>
      let s1 := complete k.val ⟨x.pc, 0, 0, false⟩ [] none none (fun y => { y with mode := .running }) s
      if srIE x then acceptIrq k.val c s1 else s1
    | none => s
  else s)

/-- A write of IC_EOI (R533). -/
def writeEoi (h : Half) (i src : Nat) (s : State) : State :=
  let k := 4 * h.num + i
  let x := s.steward k
  match x.stack with
  | (p, c) :: t =>
    if c = src then
      let hs := s.half h
      (s.setHalf h { hs with active := hs.active.filter (fun d => !decide (d = c)) }).setSteward k
        { x with stack := t, runPri := p }
    else s.put (halfKey h) Reg.IC_STAT_EOI_BAD 1
  | [] => s.put (halfKey h) Reg.IC_STAT_EOI_BAD 1

/-- END_OF_INTERRUPT (R533). -/
def execEndOfInterrupt (h : Half) (k : Fin 4) (src : BitVec 9) (s : State) : Result :=
  .next (if s.computes h then writeEoi h k.val src.toNat s else s)

/-! ## Software pulses (R526, R551, R558, R668) -/

/-- The SW sources of a half that a mask names pulse. -/
def pulseSw (h : Half) (set : Nat) (s : State) : State :=
  (List.range 16).foldl (fun s i => if set.testBit i then s.pulseIrq h (448 + i) else s) s

/-- A write of IC_SWSET (R551). -/
def writeSwset (h : Half) (w : Word) (s : State) : State :=
  pulseSw (if w.getLsbD 16 then h.other else h) (bits w 15 0) s

/-- SOFTWARE_INTERRUPT (R551). -/
def execSoftwareInterrupt (m : Master) (other : Bool) (set : BitVec 16) (s : State) : Result :=
  let h := s.masterHalf m
  .next (pulseSw (if other then h.other else h) set.toNat s)

/-- INTERRUPT_SYNC_READ (R537): the read returns 0; acceptances follow the offers of the state alone, so none made before
an earlier write remains. -/
def execInterruptSyncRead (_k : Fin 8) (s : State) : Result := .next s

/-- A write of EM_SWEV (R558). -/
def writeSwev (w : Word) (s : State) : State :=
  (List.range 8).foldl (fun s i => if w.getLsbD i then raiseEvent (evSw i) s else s) s

/-- SOFTWARE_EVENT (R558). -/
def execSoftwareEvent (pulse : BitVec 8) (s : State) : Result := .next (writeSwev (pulse.zeroExtend 20) s)

/-- GPO_PULSE_END (R544, R680): (PW + 1) × 40 ns after its start, or at the next LFX edge in SLEEP. -/
def execGpoPulseEnd (p : Fin 32) (s : State) : Result :=
  let c := 72 + p.val
  let k := s.consumer c
  .next (if k.busy ∧ (k.since + 8 * (k.pw + 1) ≤ s.tref ∨ s.power.mode = .sleep) then
    s.setConsumer c { k with busy := false, out := !k.out }
  else s)

/-- A write of VC_BELL (R668). -/
def writeVcBell (w : Word) (s : State) : State :=
  let s1 := if w.getLsbD 0 then s.pulseIrq .A 416 else s
  if w.getLsbD 1 then s1.pulseIrq .B 416 else s1

/-- VC_BELL (R668). -/
def execVcBell (ring : BitVec 2) (s : State) : Result := .next (writeVcBell (ring.zeroExtend 20) s)

end Sys2Proof.Machine
end

