-- ==== Sys2Proof/Machine/Meter.lean ====
section
/-! DEFINITION. The metrology die: energy registers, MRAM block, parameters, event log, calibration port, display and
pulses (R352 to R370, R380 to R384). What the measuring inputs see comes with the commands. -/

namespace Sys2Proof.Machine

def State.setMeter (s : State) (m : Meter) : State := { s with meter := m }

/-- A step of the running die. -/
def onMeter (f : Meter → Meter) (s : State) : State := if s.meter.on then s.setMeter (f s.meter) else s

/-! ## Parameters (R363) -/

/-- The IDs of the parameters, in order. -/
def paramIds : List Nat :=
  List.range 6 ++ (List.range 24).map (· + 0x08) ++ (List.range 24).map (· + 0x20) ++ [0x38] ++ (List.range 10).map (· + 0x40)

/-- Factory values. -/
def paramFactory (id : Nat) : Nat :=
  if id < 6 then 650000
  else if id < 0x20 then 100000
  else if id < 0x40 then 0
  else
    match id with
    | 0x40 => 0xF0
    | 0x41 => 50
    | 0x42 => 20
    | 0x44 => 0x01002710
    | 0x45 => 0x50000000
    | _ => 0

/-- The value of a parameter in a set. -/
def paramIn (t : Tbl Nat) (id : Nat) : Nat := tblGet t (paramFactory id) id

/-- The range of a parameter. -/
def paramOk (id v : Nat) : Bool :=
  if id < 0x20 then decide (1 ≤ v)
  else if id < 0x38 then decide (-5000 ≤ signed 32 v) && decide (signed 32 v ≤ 5000)
  else
    match id with
    | 0x38 => decide (v < 2 ^ 24)
    | 0x40 => decide (v < 256)
    | 0x41 => decide (v = 50) || decide (v = 60)
    | 0x42 => decide (v ≤ 1000)
    | 0x43 => decide (v ≤ 1)
    | 0x44 => decide (v / 2 ^ 24 ≠ 0) && decide (1000 ≤ v % 2 ^ 24) && decide (v % 2 ^ 24 ≤ 100000)
    | 0x45 => decide (1 ≤ v / 2 ^ 28) && decide (v % 2 ^ 24 = 0)
    | _ => true

/-- The LRP CRC of a set. -/
def lrpCrc (t : Tbl Nat) : Nat := crc32 (paramIds.flatMap (fun id => bigEndian 4 (paramIn t id)))

def Meter.param (m : Meter) (id : Nat) : Nat := paramIn m.params id

/-! ## Records (R380, R381) -/

def Meter.merr (m : Meter) : Bool := decide (m.fails ≠ [])

/-- Accumulation runs: tests 1, 2 and 4 pass (R368). -/
def Meter.counts (m : Meter) : Bool := decide (1 ∉ m.fails) && decide (2 ∉ m.fails) && decide (4 ∉ m.fails)

/-- The 8-byte prefix. -/
def Meter.prefix_ (m : Meter) (source : Nat) (req snap invalid : Bool) (tag : Nat) : List Byte :=
  let bit (c : Bool) (n : Nat) : Nat := if c then 2 ^ n else 0
  bigEndian 1 source
    ++ bigEndian 1 (bit req 7 + bit snap 6 + bit m.unsealed 5 + bit m.merr 4 + m.tariff * 4 + bit (invalid || !m.counts) 1)
    ++ bigEndian 4 m.msec ++ bigEndian 2 tag

/-- An energy register in whole units (R355). -/
def Meter.energyReg (m : Meter) (i : Nat) : Nat := tblGet m.energy 0 i / 1000000 % 2 ^ 64

/-- The 24 registers of a feeder. -/
def Meter.feederRegs (m : Meter) (f : Nat) : List Byte :=
  (List.range 24).flatMap (fun i => bigEndian 8 (m.energyReg (24 * f + i)))

def fwid : List Byte := [0x51, 0x53, 0x4D, 0x2D, 0x30, 0x31, 0x30, 0x30]
def fwcrc : Nat := 0x5E2A91C4

/-- The IDENT body. -/
def Meter.ident (m : Meter) : List Byte :=
  fwid ++ bigEndian 4 fwcrc ++ bigEndian 4 m.chg ++ bigEndian 4 (lrpCrc m.params) ++ bigEndian 8 Config.metUid.toNat

def entryBytes (e : LogEntry) : List Byte :=
  bigEndian 4 e.msec ++ bigEndian 1 e.code ++ bigEndian 1 e.detail ++ bigEndian 2 e.chg
    ++ (e.data ++ List.replicate 8 0).take 8

/-- An EVENT record. -/
def Meter.eventRec (m : Meter) (req : Bool) (tag i : Nat) (e : LogEntry) : MetRec :=
  ⟨0x25, m.prefix_ 0 req false false tag ++ bigEndian 2 i ++ entryBytes e⟩

/-- The bytes of a measured body. -/
def measuredLen (t : Nat) : Nat := if t = 0x22 then 54 else if t = 0x23 then 16 else 64

/-- The measured body of a record: as the command brings it, or free (R356). -/
def measured (k t source : Nat) (meas : List MetMeas) : List Byte :=
  match meas.find? (fun x => decide (x.rtype = t) && decide (x.source = source) && decide (x.body.length = measuredLen t)) with
  | some x => x.body
  | none => (List.range (measuredLen t)).map (Config.metByte k t source)

/-- A quotient, rounded as the die rounds it. -/
def metQuot (a : Int) (n : Nat) : Int :=
  if n = 0 then 0 else a / (n : Int) + (if a % (n : Int) ≠ 0 ∧ Config.metRound a n then 1 else 0)

/-- The active or reactive power of a current channel in mW or mvar: its energy booked in the interval ÷ its length (R356). -/
def Meter.power (m : Meter) (ch q : Nat) : Int :=
  metQuot (3600 * tblGet m.bookedNow 0 (2 * ch + q)) (1000000 * (m.msec - m.bookedFrom))

/-- The body of a periodic POWER record: RMS current and apparent power as measured, powers from the energy booked, power
factors from both (R356, R381). -/
def Meter.powerBody (m : Meter) (f : Nat) (b : List Byte) : List Byte :=
  let put (n : Nat) (v : Int) : List Byte := bigEndian n (unsigned (8 * n) v)
  b.take 12
    ++ [0, 1].flatMap (fun q => [0, 1, 2].flatMap (fun ph => put 4 (m.power (3 * f + ph) q)))
    ++ (b.drop 36).take 12
    ++ [0, 1, 2].flatMap (fun ph => put 2 (metQuot (10000 * m.power (3 * f + ph) 0) (payloadField b (36 + 4 * ph) 4)))

/-- A record of types 0x20 to 0x24 and 0x26 (R381). BUS is INVALID where no phase qualifies: its frequency is 0. -/
def Meter.mkRec (m : Meter) (k : Nat) (meas : List MetMeas) (t source : Nat) (req snap : Bool) (tag : Nat) : MetRec :=
  match t with
  | 0x20 => ⟨t, m.prefix_ source req snap false tag ++ m.feederRegs source⟩
  | 0x21 =>
    ⟨t, m.prefix_ source req snap false tag
      ++ (List.range 8).flatMap (fun i => bigEndian 8 (m.energyReg (192 + 8 * source + i)))⟩
  | 0x26 => ⟨t, m.prefix_ 0 req snap false tag ++ m.ident⟩
  | _ =>
    let b0 := measured k t source meas
    let b := if t = 0x22 ∧ req = false then m.powerBody source b0 else b0
    ⟨t, m.prefix_ source req snap (decide (t = 0x23) && decide (payloadField b 12 4 = 0)) tag ++ b⟩

/-- SOURCE of a record. -/
def recSource (r : MetRec) : Nat := payloadField r.payload 0 1

/-- Bytes a record takes in the record buffer. -/
def recBytes (r : MetRec) : Nat := r.payload.length + 2

/-- The records held and not acknowledged, the oldest first. -/
def Meter.held (m : Meter) : List MetRec :=
  m.unacked.filterMap (fun f => match f.body with | .record r => some r | _ => none) ++ m.due

def Meter.recBuf (m : Meter) : Nat := (m.held.map recBytes).sum

/-- Bytes a frame's samples take in the sample buffer. -/
def MetBody.sampleBytes : MetBody → Nat
  | .samples _ _ _ v => 3 * v.length
  | _ => 0

def Meter.sampleBuf (m : Meter) : Nat := (m.unacked.map (fun f => f.body.sampleBytes)).sum

/-- The first of the records for which a newer one of the same type and source is held, of types ENERGY and TARIFF. -/
def superseded : List MetRec → Option MetRec
  | [] => none
  | r :: t =>
    if (r.rtype = 0x20 ∨ r.rtype = 0x21) ∧ t.any (fun x => decide (x.rtype = r.rtype) && decide (recSource x = recSource r))
    then some r else superseded t

/-- The frames with the first that carries a record emptied: its number stays in the sequence. -/
def emptyFrame (r : MetRec) : List MetFrame → List MetFrame
  | [] => []
  | f :: t => if f.body = .record r then { f with body := .empty } :: t else f :: emptyFrame r t

/-- The record a full buffer drops first (R372). -/
def Meter.victim (m : Meter) : Option MetRec :=
  match m.held.find? (fun r => decide (0x22 ≤ r.rtype) && decide (r.rtype ≤ 0x24)) with
  | some r => some r
  | none => superseded m.held

/-- A record is dropped and counted. -/
def Meter.dropRec (m : Meter) (r : MetRec) : Meter :=
  let sent := m.unacked.any (fun f => decide (f.body = .record r))
  { m with
    unacked := if sent then emptyFrame r m.unacked else m.unacked,
    due := if sent then m.due else m.due.erase r,
    rdrop := m.rdrop + 1, dropped := (m.dropped.1, m.dropped.2 + 1) }

/-- A record is generated: room is made as R372 says; where none can be made, it is not generated. -/
def Meter.generate (m : Meter) (r : MetRec) : Nat → Meter
  | 0 => m
  | n + 1 =>
    if m.recBuf + recBytes r ≤ 0x4000 then { m with due := m.due ++ [r] }
    else
      match m.victim with
      | some v => (m.dropRec v).generate r n
      | none => m

def Meter.addRec (m : Meter) (r : MetRec) : Meter := m.generate r (m.held.length + 1)

/-! ## The event log (R365, R366) -/

/-- Class O. -/
def LogEntry.classO (e : LogEntry) : Bool := decide (e.code ≠ 0x10)

/-- The place of the oldest entry of class O. -/
def oldestO (t : Tbl LogEntry) : Option Nat :=
  (t.foldl (fun best e =>
    if e.2.classO then
      match best with
      | some b => if e.2.ord < b.2 then some (e.1, e.2.ord) else best
      | none => some (e.1, e.2.ord)
    else best) none).map Prod.fst

/-- Every entry is of class L (R366). -/
def Meter.logFull (m : Meter) : Bool := decide (1024 ≤ m.log.length) && (oldestO m.log).isNone

/-- An event is logged, and sent as an EVENT record (R365, R366, R382). -/
def Meter.addLog (m : Meter) (code detail : Nat) (data : List Byte) : Meter :=
  let e : LogEntry := ⟨m.logged, m.msec, code, detail, m.chg % 65536, data⟩
  let at_ := if m.log.length < 1024 then some m.log.length else oldestO m.log
  match at_ with
  | some i =>
    let m1 := { m with log := tblPut m.log i e, logged := m.logged + 1 }
    m1.addRec (m1.eventRec false 0 i e)
  | none => m

/-! ## Energy (R354, R355, R370) -/

def Meter.addEnergy (m : Meter) (i e : Nat) : Meter := { m with energy := tblSet m.energy 0 i (tblGet m.energy 0 i + e) }

/-- book(x, ph, e): q is 0 for active, 2 for reactive. -/
def Meter.book (m : Meter) (f q ph : Nat) (e : Int) : Meter :=
  if 0 ≤ e then m.addEnergy (24 * f + 4 * q + ph) e.toNat else m.addEnergy (24 * f + 4 * (q + 1) + ph) (-e).toNat

/-- book_s(ph, s, p). -/
def Meter.bookS (m : Meter) (f ph s : Nat) (p : Int) : Meter :=
  m.addEnergy (24 * f + 4 * (if 0 ≤ p then 4 else 5) + ph) s

/-- The energy of a phase's cycle counts in the report interval of its channel (R356). -/
def Meter.addInterval (m : Meter) (i : Nat) (e : Int) : Meter :=
  { m with bookedNow := tblSet m.bookedNow 0 i (tblGet m.bookedNow 0 i + e) }

/-- A phase below the start current books nothing. -/
def Meter.phase (m : Meter) (x : PhaseCycle) : PhaseCycle := if x.irms < m.param 0x42 then ⟨x.irms, 0, 0, 0⟩ else x

def Meter.bookPhase (m : Meter) (f ph : Nat) (x : PhaseCycle) : Meter :=
  let m1 := (m.addInterval (2 * (3 * f + ph)) x.p).addInterval (2 * (3 * f + ph) + 1) x.q
  ((m1.book f 0 ph x.p).book f 2 ph x.q).bookS f ph x.s x.p

/-- Energy that the test outputs owe (R370). -/
def Meter.pulses (m : Meter) (f : Nat) (ep eq : Int) : Meter :=
  let w := m.param 0x44
  if (w / 2 ^ 24).testBit f then
    { m with
      pulseP := m.pulseP + (if 0 ≤ ep then ep.toNat * (w % 2 ^ 24) else 0),
      pulseQ := m.pulseQ + (if 0 ≤ eq then eq.toNat * (w % 2 ^ 24) else 0) }
  else m

/-- A feeder's cycle is booked (R354). -/
def Meter.bookFeeder (m : Meter) (x : FeederCycle) : Meter :=
  let f := x.feeder.val
  let a := m.phase x.l1
  let b := m.phase x.l2
  let c := m.phase x.l3
  let ep := a.p + b.p + c.p
  let eq := a.q + b.q + c.q
  let m1 := ((m.bookPhase f 0 a).bookPhase f 1 b).bookPhase f 2 c
  let m2 := ((m1.book f 0 3 ep).book f 2 3 eq).bookS f 3 (a.s + b.s + c.s) ep
  let m3 := m2.addEnergy (192 + 8 * f + 2 * m2.tariff + (if 0 ≤ ep then 0 else 1)) ep.natAbs
  m3.pulses f ep eq

/-- The feeders that a list names once, on a busbar where one is given. -/
def Meter.bookAll (m : Meter) (b : Option Nat) (l : List FeederCycle) : Meter :=
  if m.counts then
    l.foldl (fun m x =>
      match b with
      | some n => if (m.param 0x40).testBit x.feeder.val = decide (n = 1) then m.bookFeeder x else m
      | none => m.bookFeeder x) m
  else m

/-- METROLOGY_CYCLE_END (R354). -/
def execMetrologyCycleEnd (b : Fin 2) (feeders : List FeederCycle) (s : State) : Result :=
  .next (onMeter (fun m => m.bookAll (some b.val) feeders) s)

/-- ENERGY_PULSE (R370). -/
def execEnergyPulse (reactive : Bool) (s : State) : Result :=
  .next (onMeter (fun m =>
    if reactive then
      (if 10 ^ 12 ≤ m.pulseQ then { m with pulseQ := m.pulseQ - 10 ^ 12, pulsesQ := m.pulsesQ + 1 } else m)
    else if 10 ^ 12 ≤ m.pulseP then { m with pulseP := m.pulseP - 10 ^ 12, pulsesP := m.pulsesP + 1 }
    else m) s)

/-! ## The MRAM block (R359) -/

/-- The newer copy: its place, 0 for A, and the copy. -/
def newerCopy (a b : Option MetCopy) : Option (Nat × MetCopy) :=
  match a, b with
  | some x, some y => if x.ctr < y.ctr then some (1, y) else some (0, x)
  | some x, none => some (0, x)
  | none, some y => some (1, y)
  | none, none => none

/-- The block is written to the copy that is not the newer one; which copy, and the die after it. -/
def Meter.writeBlock (m : Meter) : Nat × Meter :=
  let regs := m.energy.map (fun (e : Nat × Nat) => (e.1, e.2 / 1000000 % 2 ^ 64))
  match newerCopy m.copyA m.copyB with
  | some (0, x) => (1, { m with copyB := some ⟨regs, m.msec, m.tariff, x.ctr + 1⟩ })
  | some (_, y) => (0, { m with copyA := some ⟨regs, m.msec, m.tariff, y.ctr + 1⟩ })
  | none => (0, { m with copyA := some ⟨regs, m.msec, m.tariff, 1⟩ })

/-! ## The second (R358, R382) -/

/-- The interval of a code in seconds, 0 for off (R382). -/
def intervalOf : Nat → Nat
  | 1 => 1
  | 2 => 2
  | 3 => 5
  | 4 => 10
  | 5 => 30
  | 6 => 60
  | 7 => 300
  | 8 => 900
  | 9 => 3600
  | _ => 0

/-- The interval codes after a start. -/
def intervalDefault (t : Nat) : Nat :=
  match t with
  | 0x20 => 6
  | 0x21 => 8
  | 0x22 => 1
  | 0x23 => 1
  | _ => 0

def Meter.interval (m : Meter) (t : Nat) : Nat := intervalOf (tblGet m.intervals (intervalDefault t) t)

/-- The sources of a record type. -/
def sourcesOf (t : Nat) : Nat := if t < 0x23 then 8 else if t = 0x23 then 2 else if t = 0x24 then 30 else 1

/-- The periodic records of a second are generated. -/
def Meter.periodic (m : Meter) (k : Nat) (meas : List MetMeas) : Meter :=
  [0x20, 0x21, 0x22, 0x23, 0x24].foldl (fun m t =>
    let n := m.interval t
    if n ≠ 0 ∧ m.msec % n = 0 then
      let m1 := (List.range (sourcesOf t)).foldl (fun m src => m.addRec (m.mkRec k meas t src false false 0)) m
      if t = 0x22 then { m1 with bookedNow := [], bookedFrom := m.msec } else m1
    else m) m

/-- MSEC_SECOND (R358, R359, R364, R375, R382). TARIFF_SRC = 1 fixes the tariff at T0 (R363). -/
def execMsecSecond (meas : List MetMeas) (s : State) : Result :=
  let k := s.freeCount
  .next (onMeter (fun m =>
    let m1 :=
      { m with
        msec := min (2 ^ 32 - 1) (m.msec + 1), params := m.committed.getD m.params, committed := none,
        tariff := if paramIn (m.committed.getD m.params) 0x43 = 1 then 0 else m.nextTariff.getD m.tariff, nextTariff := none,
        intervals := m.nextIntervals.foldl (fun t (e : Nat × Nat) => tblSet t (intervalDefault e.1) e.1 e.2) m.intervals,
        nextIntervals := [] }
    m1.writeBlock.2.periodic k meas) { s with freeCount := k + 1 })

/-! ## Start and power-down (R359 to R361, R383) -/

/-- The die without what it holds in RAM. -/
def Meter.clear (m : Meter) : Meter :=
  { m with
    nextTariff := none, staged := [], page := none, shown := 0, place := 0, streams := [], intervals := [],
    nextIntervals := [], due := [], reqs := [], unacked := [], seq := 0, arrived := 0, resent := false, rej := 0,
    sdrop := 0, rdrop := 0, dropped := (0, 0), result := none, status := none, command := none, fails := [],
    lostPhases := [], pulseP := 0, pulseQ := 0, bookedNow := [] }

/-- A self-test fails: logged, and failing from now on (R368). -/
def Meter.fail (m : Meter) (test : Nat) : Meter := ({ m with fails := listMark m.fails test }).addLog 0x20 test []

/-- A start (R383): cause 0 VMET, 1 watchdog. -/
def Meter.start (m : Meter) (cause : Nat) (t : MetTests) : Meter :=
  let a := if t.copyA then m.copyA else none
  let b := if t.copyB then m.copyB else none
  let m0 := { m.clear with on := true, starts := (m.starts + 1) % 65536, params := m.committed.getD m.params, committed := none }
  let m1 := match newerCopy a b with
    | some (_, x) =>
      { m0 with
        energy := x.energy.map (fun (e : Nat × Nat) => (e.1, e.2 * 1000000)), msec := x.msec, bookedFrom := x.msec,
        tariff := if m0.param 0x43 = 1 then 0 else x.tariff }
    | none => { m0 with energy := [], msec := 0, bookedFrom := 0, tariff := 0, copyA := none, copyB := none }
  let m2 := if t.rom then m1 else m1.fail 1
  let m3 := if (newerCopy a b).isSome then m2 else m2.fail 3
  let m4 := if t.xmet then m3 else (m3.fail 4).addLog 0x22 0 []
  let m5 := if m.saved || decide (cause = 1) || (newerCopy a b).isNone then m4 else m4.addLog 0x03 0 (bigEndian 4 m4.msec)
  let m6 := if t.lrp then m5 else m5.fail 2
  let m7 := { m6.addLog 0x02 cause [] with saved := true }
  let bit (c : Bool) (n : Nat) : Nat := if c then 0 else 2 ^ n
  let res := bit t.rom 0 + bit t.lrp 1 + bit (newerCopy a b).isSome 2 + bit t.xmet 3
  let m8 := m7.addRec ⟨0x28, m7.prefix_ 0 false true false 0 ++ bigEndian 1 cause ++ bigEndian 1 res ++ bigEndian 2 0⟩
  let m9 := m8.addRec (m8.mkRec 0 [] 0x26 0 false true 0)
  [0x20, 0x21].foldl (fun m t => (List.range 8).foldl (fun m f => m.addRec (m.mkRec 0 [] t f false true 0)) m) m9

/-- METROLOGY_START (R383): VMET has passed the rising threshold. -/
def execMetrologyStart (tests : MetTests) (s : State) : Result :=
  .next (if s.meter.on then s else s.setMeter (s.meter.start 0 tests))

/-- WATCHDOG_EXPIRY (R368): the die restarts. -/
def execWatchdogExpiry (tests : MetTests) (s : State) : Result :=
  .next (onMeter (fun m => (m.fail 5).start 1 tests) s)

/-- VMET_FALL (R359, R361): the open cycles are booked and the final block written, unless VMET falls below 2.70 V
first. -/
def execVmetFall (feeders : List FeederCycle) (saved : Bool) (s : State) : Result :=
  .next (onMeter (fun m =>
    if saved then
      let o := (m.bookAll none feeders).writeBlock
      { (o.2.addLog 0x01 o.1 []).clear with on := false, saved := true }
    else { m.clear with on := false, saved := false }) s)

/-! ## Seal, self-tests, phases (R362, R365, R368) -/

/-- SEAL_CHANGE (R362). -/
def execSealChange (openSeal : Bool) (s : State) : Result :=
  .next (onMeter (fun m =>
    if m.unsealed = openSeal then m
    else if openSeal then ({ m with unsealed := true }).addLog 0x04 0 []
    else ({ m with unsealed := false, staged := [] }).addLog 0x05 0 []) s)

/-- SELFTEST_ROM (R368). -/
def execSelftestRom (pass : Bool) (s : State) : Result := .next (onMeter (fun m => if pass then m else m.fail 1) s)

/-- SELFTEST_LRP (R368). -/
def execSelftestLrp (pass : Bool) (s : State) : Result := .next (onMeter (fun m => if pass then m else m.fail 2) s)

/-- XMET_FAIL (R368). -/
def execXmetFail (s : State) : Result := .next (onMeter (fun m => (m.fail 4).addLog 0x22 0 []) s)

/-- XMET_RETURN (R368). -/
def execXmetReturn (s : State) : Result := .next (onMeter (fun m => { m with fails := listDrop m.fails 4 }) s)

/-- PHASE_LOSS (R365). -/
def execPhaseLoss (c : Fin 6) (s : State) : Result :=
  .next (onMeter (fun m =>
    if c.val ∈ m.lostPhases then m else ({ m with lostPhases := listMark m.lostPhases c.val }).addLog 0x30 c []) s)

/-- PHASE_RETURN (R365). -/
def execPhaseReturn (c : Fin 6) (s : State) : Result :=
  .next (onMeter (fun m =>
    if c.val ∈ m.lostPhases then ({ m with lostPhases := listDrop m.lostPhases c.val }).addLog 0x31 c [] else m) s)

/-! ## The calibration port (R364) -/

/-- A frame with a good CRC is answered: BAD_FRAME where its LEN is wrong, else as the command says. -/
def calibrate (cmd len : Nat) (payload : List Byte) (crcOk : Bool) (f : Meter → Nat × List Byte × Meter) (s : State) :
    State :=
  if s.meter.on && crcOk then
    if payload.length = len then
      let o := f s.meter
      s.setMeter { o.2.2 with answer := some (cmd, o.1, o.2.1) }
    else s.setMeter { s.meter with answer := some (cmd, 5, []) }
  else s

/-- A command that only an unsealed die obeys. -/
def unsealedOnly (f : Meter → Nat × List Byte × Meter) (m : Meter) : Nat × List Byte × Meter :=
  if m.unsealed then f m else (1, [], m)

/-- GET_ID (R364). -/
def execGetId (payload : List Byte) (crcOk : Bool) (s : State) : Result :=
  if decide (payload.length ≤ 64) then
    .next (calibrate 0x01 0 payload crcOk (fun m => (0, m.ident, m)) s)
  else .fault .illFormed

/-- GET_PARAM (R364). -/
def execGetParam (payload : List Byte) (crcOk : Bool) (s : State) : Result :=
  if decide (payload.length ≤ 64) then
    let id := payloadField payload 0 1
    .next (calibrate 0x02 1 payload crcOk (fun m =>
      if id ∈ paramIds then
        (0, bigEndian 4 (m.param id) ++ (match tblFind m.staged id with | some v => bigEndian 4 v | none => []), m)
      else (2, [], m)) s)
  else .fault .illFormed

/-- GET_LOG (R364). -/
def execGetLog (payload : List Byte) (crcOk : Bool) (s : State) : Result :=
  if decide (payload.length ≤ 64) then
    .next (calibrate 0x03 2 payload crcOk (fun m =>
      match tblFind m.log (payloadField payload 0 2) with
      | some e => (0, entryBytes e, m)
      | none => (2, [], m)) s)
  else .fault .illFormed

/-- GET_ENERGY (R364). -/
def execGetEnergy (payload : List Byte) (crcOk : Bool) (s : State) : Result :=
  if decide (payload.length ≤ 64) then
    let f := payloadField payload 0 1
    .next (calibrate 0x04 1 payload crcOk (fun m => if f < 8 then (0, m.feederRegs f, m) else (2, [], m)) s)
  else .fault .illFormed

/-- SET_PARAM (R364). -/
def execSetParam (payload : List Byte) (crcOk : Bool) (s : State) : Result :=
  if decide (payload.length ≤ 64) then
    let id := payloadField payload 0 1
    let v := payloadField payload 1 4
    .next (calibrate 0x10 5 payload crcOk (unsealedOnly (fun m =>
      if id ∈ paramIds ∧ paramOk id v = true then (0, bigEndian 4 v, { m with staged := tblPut m.staged id v })
      else (2, [], m))) s)
  else .fault .illFormed

/-- The staged values applied as one (R364, R368). -/
def Meter.commit (m : Meter) : Nat × List Byte × Meter :=
  let old := m.committed.getD m.params
  let new := m.staged.foldl (fun t (e : Nat × Nat) => tblSet t (paramFactory e.1) e.1 e.2) old
  if m.logFull then (3, [], m)
  else if new = old then
    (0, bigEndian 4 m.chg ++ bigEndian 4 (lrpCrc old), { m with staged := [], fails := listDrop m.fails 2 })
  else if m.chg = 0xFFFFFFFF then (4, [], m)
  else
    let m1 := { m with chg := m.chg + 1, committed := some new, staged := [], fails := listDrop m.fails 2 }
    (0, bigEndian 4 m1.chg ++ bigEndian 4 (lrpCrc new),
      m1.addLog 0x10 0 (bigEndian 4 (lrpCrc old) ++ bigEndian 4 (lrpCrc new)))

/-- COMMIT (R364). -/
def execCommitParams (payload : List Byte) (crcOk : Bool) (s : State) : Result :=
  if decide (payload.length ≤ 64) then
    .next (calibrate 0x11 0 payload crcOk (unsealedOnly Meter.commit) s)
  else .fault .illFormed

/-- DISCARD (R364). -/
def execDiscardParams (payload : List Byte) (crcOk : Bool) (s : State) : Result :=
  if decide (payload.length ≤ 64) then
    .next (calibrate 0x12 0 payload crcOk (unsealedOnly (fun m => (0, [], { m with staged := [] }))) s)
  else .fault .illFormed

/-! ## The display (R369) -/

/-- Page n of the auto-scroll list (R363). -/
def Meter.listPage (m : Meter) (n : Nat) : Nat := m.param (0x46 + n / 4) / 256 ^ (3 - n % 4) % 256

/-- The values a page shows. -/
def Meter.pageValues (m : Meter) (p : Nat) : List Nat :=
  if p < 0x20 then [m.energyReg (24 * (p % 8) + 4 * (p / 8) + 3)]
  else if p < 0x40 then [m.energyReg (192 + 8 * ((p - 0x20) / 4) + 2 * (p % 4))]
  else if p = 0xF0 then fwid.map BitVec.toNat
  else if p = 0xF1 then [fwcrc]
  else if p = 0xF2 then [m.chg]
  else [if m.unsealed then 1 else 0, lrpCrc m.params]

/-- The 16 characters: those of the page, or "ERR 1" or "ERR 2" at their start (R368). -/
def Meter.text (m : Meter) (p : Nat) : List Byte :=
  let l := (List.range 16).map (Config.pageText p (m.pageValues p))
  let err : List Byte := [0x45, 0x52, 0x52, 0x20]
  if 1 ∈ m.fails then err ++ [0x31] ++ l.drop 5
  else if 2 ∈ m.fails then err ++ [0x32] ++ l.drop 5
  else l

/-- DISPLAY_FRAME (R369). -/
def execDisplayFrame (s : State) : Result :=
  .next (onMeter (fun m =>
    let p := match m.page with | some (p, _) => p | none => m.listPage m.place
    let ann := (if m.unsealed then 128 else 0) + (if m.merr then 64 else 0) + m.tariff * 16
    let b := bigEndian 1 p ++ m.text p ++ bigEndian 1 ann
    let m1 := { m with display := b ++ bigEndian 2 (crc16 b) }
    if m.page.isSome then m1
    else if m.shown + 1 < 2 * (m.param 0x45 / 2 ^ 28) then { m1 with shown := m.shown + 1 }
    else { m1 with shown := 0, place := (m.place + 1) % (m.param 0x45 / 2 ^ 24 % 16 + 1) }) s)

/-- DISPLAY_TIMEOUT (R375): 60 s after the DISPLAY. -/
def execDisplayTimeout (s : State) : Result :=
  .next (onMeter (fun m =>
    match m.page with
    | some (_, t) => if t + 60 ≤ m.msec then { m with page := none } else m
    | none => m) s)

end Sys2Proof.Machine
end

