-- ==== Sys2Proof/Machine/MetLink.lean ====
section
/-! DEFINITION. The metrology link: frames and commands between the dies (R371 to R378, R386 to R391). -/

namespace Sys2Proof.Machine

def State.setMetLink (s : State) (x : MetLink) : State := { s with metLink := x }

/-! ## What the die sends (R371, R372) -/

/-- The stream presets: decimation, spacing and group delay in ns (R353), preset 0 off. -/
def presetDecim (p : Nat) : Nat := if p = 0 then 0 else 128 * 2 ^ (p - 1)
def presetStep (p : Nat) : Nat := if p = 0 then 0 else 31250 * 2 ^ (p - 1)
def presetDelay : Nat → Nat
  | 1 => 300000
  | 2 => 590000
  | 3 => 1190000
  | 4 => 2380000
  | 5 => 4750000
  | _ => 0

/-- A rate in kS/s. -/
def presetRate (p : Nat) : Nat := if p = 0 then 0 else 64 / 2 ^ p

/-- The oldest sample frame is dropped: its number reports the span lost (R372). -/
def dropOldest : List MetFrame → List MetFrame
  | [] => []
  | f :: t =>
    match f.body with
    | .samples i p k v => { f with body := .lost i p k v.length } :: t
    | _ => f :: dropOldest t

/-- Sample frames are dropped until the sample buffer holds no more than 32 KiB. -/
def Meter.fitSamples (m : Meter) : Nat → Meter
  | 0 => m
  | n + 1 =>
    if m.sampleBuf ≤ 0x8000 then m
    else
      ({ m with unacked := dropOldest m.unacked, sdrop := m.sdrop + 1, dropped := (m.dropped.1 + 1, m.dropped.2) }).fitSamples n

/-- A frame is sent. -/
def Meter.sendFrame (m : Meter) (b : MetBody) : Meter :=
  let q := (m.seq + 1) % 65536
  { m with seq := q, unacked := m.unacked ++ [⟨q, b⟩] }

/-- SAMPLES_FRAME (R371): up to 96 samples of a stream that is on; the tick count of the first one comes with it. -/
def execSamplesFrame (input : Fin 30) (tick : BitVec 48) (values : List Word) (s : State) : Result :=
  if decide (1 ≤ values.length) && decide (values.length ≤ 96) then
    .next (onMeter (fun m =>
      let p := tblGet m.streams 0 input.val
      if p ≠ 0 ∧ 1 ∉ m.fails then
        let m1 := m.sendFrame (.samples input.val p tick.toNat values)
        m1.fitSamples m1.unacked.length
      else m) s)
  else .fault .illFormed

/-- The record that answers a request, if there is one, and what is left of the request (R375). -/
def Meter.answerReq (m : Meter) (k : Nat) (body : List Byte) : MetReq → Option MetRec × Option MetReq
  | .read t src tag =>
    if t = 0x25 then
      ((m.log.find? (fun e => decide (e.2.ord + 1 = m.logged))).map (fun e => m.eventRec true tag e.1 e.2), none)
    else (some (m.mkRec k [⟨t, src, body⟩] t src true false tag), none)
  | .log i n =>
    ((tblFind m.log i).map (fun e => m.eventRec true 0 i e), if n ≤ 1 then none else some (.log ((i + 1) % 1024) (n - 1)))

/-- The MDROP record (R372, R381). -/
def Meter.mdrop (m : Meter) : MetRec :=
  ⟨0x27, m.prefix_ 0 false false false 0 ++ bigEndian 2 (min 65535 m.dropped.1) ++ bigEndian 2 (min 65535 m.dropped.2)⟩

/-- RECORD_FRAME (R371, R372): what was dropped is reported first; then the requests are answered, and the records
generated are sent in order. The body of a measured record that answers a READ comes with the command. -/
def execRecordFrame (body : List Byte) (s : State) : Result :=
  let k := s.freeCount
  .next (onMeter (fun m =>
    if m.dropped ≠ (0, 0) then { m.sendFrame (.record m.mdrop) with dropped := (0, 0) }
    else
      match m.reqs with
      | r :: t =>
        let o := m.answerReq k body r
        let m1 := { m with reqs := (match o.2 with | some x => x :: t | none => t) }
        (match o.1 with | some x => m1.sendFrame (.record x) | none => m1)
      | [] =>
        match m.due with
        | r :: t => ({ m with due := t }).sendFrame (.record r)
        | [] => m) { s with freeCount := k + 1 })

/-- LINK_RESEND (R371): from the oldest unacknowledged frame. -/
def execLinkResend (s : State) : Result :=
  .next (onMeter (fun m => if m.unacked = [] then m else { m with arrived := 0, resent := true }) s)

/-- The commands of R375 that the die accepts. -/
def metCmdListed (c : Nat) : Bool := decide (c ∈ [2, 3, 4, 5, 8, 9])

/-- The die's finding on a command of no listed CMD (R376). -/
def Meter.judgeUnlisted (m : Meter) : Meter :=
  match m.command with
  | some b =>
    let x := payloadField b 0 1
    if metCmdListed (x % 16) then m
    else { m with command := none, result := some (x / 16, if Config.metReason 2 then 3 else 2) }
  | none => m

/-- STATUS_FRAME (R371): the modulator tick count at sending comes with it. The frame reports the latest finding (R376). -/
def execStatusFrame (ticks : BitVec 48) (s : State) : Result :=
  .next (onMeter (fun m0 =>
    let m := m0.judgeUnlisted
    { m with
      status := some ⟨ticks.toNat, m.msec, m.unsealed, m.merr, m.tariff, m.result, m.rej, m.sdrop, m.rdrop, m.chg, m.starts,
        m.logFull, m.sampleBuf / 256, m.recBuf / 256⟩ }) s)

/-- The receiving end is at work: out of RUN and IDLE the link hears and acknowledges nothing (R647). -/
def State.linkHears (s : State) : Bool := decide (s.power.mode = .run)

/-- The die frees the frames up to the number accepted. -/
def freeFrames (s : State) : State :=
  onMeter (fun m =>
    let n := (m.unacked.takeWhile (fun f => decide ((s.metLink.accepted + 65536 - f.seq) % 65536 < 32768))).length
    { m with unacked := m.unacked.drop n, arrived := m.arrived - n }) s

/-- ACKNOWLEDGEMENT_FRAME (R371): with a MET grain the link acknowledges the number accepted, and the die frees what it
names. -/
def execAcknowledgementFrame (s : State) : Result :=
  let h := s.runner blkMet
  .next (if s.flag oneKey Reg.MET_CTL_RX_EN && s.linkHears && s.computes h then withAccess h actMet 0 freeFrames s else s)

/-! ## What the receiver takes (R371, R373, R379, R390) -/

/-- The metrology channel of a record (R379). -/
def metChan (r : MetRec) : Nat :=
  16448 +
    (match r.rtype with
     | 0x23 => 30
     | 0x24 => if recSource r < 6 then 48 else 40 + (recSource r - 6) / 3
     | 0x20 => 32 + recSource r
     | 0x21 => 32 + recSource r
     | 0x22 => 32 + recSource r
     | _ => 31)

/-- The coding of a stream (R349, R373, R379). -/
def State.streamSet (s : State) (h : Half) (preset : Nat) : CodeSet :=
  ⟨0, s.get (halfKey h) Reg.CE_XCFG_ORDER, false, 0, true, presetStep preset, true⟩

/-- The fabric time of a sample (R373). -/
def State.sampleTime (s : State) (preset tick : Nat) : Nat := Config.metStamp s.metLink.latches tick - presetDelay preset

/-- The latest-record window takes a record (R390). -/
def keepRecord (r : MetRec) (s : State) : State :=
  let k := 256 * (r.rtype - 0x20) + recSource r
  let q := match tblFind s.metLink.window k with | some (n, _) => (n + 1) % 16 | none => 1
  s.setMetLink { s.metLink with window := tblPut s.metLink.window k (q, r.payload) }

/-- The identity mirror from an IDENT record (R389). -/
def mirrorIdent (r : MetRec) (s : State) : State :=
  let f := payloadField r.payload
  let s1 := s.setRegs ((List.range 4).map (fun i => (oneKey + Reg.MET_FWID + i, BitVec.ofNat 20 (f (8 + 2 * i) 2))))
  ((s1.setWide (oneKey + Reg.MET_FWCRC) 2 (f 16 4)).setWide (oneKey + Reg.MET_CHG) 2 (f 20 4)).setWide
    (oneKey + Reg.MET_LRPCRC) 2 (f 24 4)

/-- The items of an accepted frame go to the engines of the half that runs the link. -/
def passFrame (b : MetBody) (s : State) : State :=
  let h := s.runner blkMet
  let ts := s.get oneKey Reg.FAB_STAT_TSYNC
  match b with
  | .samples i p tick v =>
    v.zipIdx.foldl (fun s e =>
      pushItem h ⟨16448 + i, some e.1, 0, 1, ts, s.sampleTime p (tick + e.2 * presetDecim p), s.streamSet h p, false, false, 0⟩ s) s
  | .lost i p tick n =>
    pushItem h ⟨16448 + i, none, 6, n, ts, s.sampleTime p tick, s.streamSet h p, false, false, 0⟩ s
  | .record r =>
    let s1 := keepRecord r (pushRecord h (metChan r) r.rtype r.payload s)
    if r.rtype = 0x26 then mirrorIdent r s1 else s1
  | .empty => s

/-- The engines have room for what a frame carries: a frame whose items cannot be accepted is not (R324). -/
def State.frameFits (s : State) (b : MetBody) : Bool :=
  let h := s.runner blkMet
  s.computes h && match b with
  | .samples i _ _ v => decide ((s.coder h (engineOf (16448 + i))).taken + v.length ≤ 256)
  | .lost i _ _ _ => decide ((s.coder h (engineOf (16448 + i))).taken < 256)
  | .record r => decide ((s.coder h (engineOf (metChan r))).records.length < 64)
  | .empty => true

def countMet (k : Nat) (s : State) : State := s.count (oneKey + Reg.MET_CNT + k) 1

/-- METROLOGY_FRAME_ACCEPT (R324, R371): the next frame arrives. It is accepted where its CRC is good, its number follows the
last one accepted, and the engines have room for it. -/
def execMetrologyFrameAccept (crcOk : Bool) (s : State) : Result :=
  let m := s.meter
  .next (match m.on, m.unacked[m.arrived]? with
    | true, some f =>
      let s1 := s.setMeter { m with arrived := m.arrived + 1, resent := false }
      let s2 := if m.resent then countMet 3 s1 else s1
      if !s.linkHears then s2
      else if !crcOk then s2.put oneKey Reg.MET_STAT_CRCERR 1 |> countMet 1
      else if !s.flag oneKey Reg.MET_CTL_RX_EN then s2
      else if f.seq = (s.metLink.accepted + 1) % 65536 then
        if !s.frameFits f.body then s2
        else passFrame f.body (countMet 0 (s2.setMetLink { s2.metLink with accepted := f.seq }))
      else if (s.metLink.accepted + 65536 - f.seq) % 65536 < 32768 then countMet 2 s2
      else s2
    | _, _ => s)

/-- The command's status by the die's REASON (R376). -/
def reasonStatus (r : Nat) : Nat :=
  match r with
  | 0 => St.OK
  | 2 => St.BAD_PARAM
  | 3 => St.BAD_PARAM
  | 6 => St.BUSY
  | _ => St.MET_REFUSED

/-- A command of the link ends (R376, R387, R388). -/
def endMetCmd (st reason : Nat) (s : State) : State :=
  noteResult 0x58 (fun _ => true) st (bigEndian 1 (16 * s.get oneKey Reg.MET_CST_SER + reason))
    (((((s.put oneKey Reg.MET_CST_STATUS st).put oneKey Reg.MET_CST_DONE 1).put oneKey Reg.MET_CST_BUSY 0).put oneKey
      Reg.MET_CST_REASON reason).put oneKey Reg.MET_STAT_CMDDONE 1)

/-- The result that a STATUS frame reports (R376). -/
def takeResult (x : MetStatus) (s : State) : State :=
  match x.result with
  | some (ser, r) =>
    if s.flag oneKey Reg.MET_CST_BUSY && decide (s.get oneKey Reg.MET_CST_SER = ser) then endMetCmd (reasonStatus r) r s else s
  | none => s

/-- MET_STAT and the mirrors follow a STATUS frame (R387, R389, R391). -/
def mirrorStatus (x : MetStatus) (s : State) : State :=
  let bit (c : Bool) : Nat := if c then 1 else 0
  let s1 := (((s.put oneKey Reg.MET_STAT_TARIFF x.tariff).put oneKey Reg.MET_STAT_BACKLOG (bit (decide (16 < x.sbuf + x.rbuf)))).put
    oneKey Reg.MET_STAT_LOGFULL (bit x.logFull)).put oneKey Reg.MET_STAT_MERR (bit x.merr)
  let s2 := (s1.put oneKey Reg.MET_STAT_UNSEALED (bit x.unsealed)).setRegs
    [(oneKey + Reg.MET_CNT_DIE, BitVec.ofNat 20 (min 0xFFFFF x.rej)),
     (oneKey + Reg.MET_CNT_DIE + 1, BitVec.ofNat 20 (min 0xFFFFF x.sdrop)),
     (oneKey + Reg.MET_CNT_DIE + 2, BitVec.ofNat 20 (min 0xFFFFF x.rdrop))]
  (s2.setWide (oneKey + Reg.MET_CHG) 2 x.chg).setWide (oneKey + Reg.MET_MSEC) 2 x.msec

/-- METROLOGY_STATUS_RECEIVED (R373, R374, R376): the frame is latched less the lane latency of 1.5 µs. A different start
count is a restart of the die; frame numbers then start anew. -/
def execMetrologyStatusReceived (crcOk : Bool) (s : State) : Result :=
  .next (match s.meter.status with
    | some x =>
      let s0 := s.setMeter { s.meter with status := none }
      if !s.linkHears then s0
      else if !crcOk then s0.put oneKey Reg.MET_STAT_CRCERR 1 |> countMet 1
      else
        let l := s.metLink
        let again : Bool := match l.last with | some y => decide (y.starts ≠ x.starts) | none => false
        let more : Bool := match l.last with
          | some y => decide (y.sdrop < x.sdrop) || decide (y.rdrop < x.rdrop)
          | none => decide (0 < x.sdrop) || decide (0 < x.rdrop)
        let s1 := s0.setMetLink
          { l with
            last := some x, lastAt := s.tref, accepted := if again then 0 else l.accepted,
            latches := ((x.ticks, (s.timeNs + 2 ^ 60 - 1500) % 2 ^ 60) :: (if again then [] else l.latches)).take 1024 }
        let s2 := takeResult x (mirrorStatus x s1)
        let s3 := if more then s2.put oneKey Reg.MET_STAT_DROP 1 else s2
        let s4 := if again then raiseEvent evMetRestart (s3.put oneKey Reg.MET_STAT_RESTART 1) else s3
        if s4.flag oneKey Reg.MET_STAT_UP then s4 else raiseEvent evMetLink (s4.put oneKey Reg.MET_STAT_UP 1)
    | none => s)

/-- METROLOGY_LINK_DOWN (R374): 5 ms without a good STATUS frame. -/
def execMetrologyLinkDown (s : State) : Result :=
  .next (if s.metLink.lastAt + 1000000 ≤ s.tref then s.put oneKey Reg.MET_STAT_UP 0 else s)

/-! ## Commands to the die (R375, R376, R388) -/

/-- Bytes 0 to 5 of a command are sent with a serial and the CRC; while one awaits its result, or where they are those of an
acknowledgement, they are refused (R375, R388). -/
def sendMetCmd (b : List Byte) (s : State) : State :=
  let b0 := payloadField b 0 1
  if s.flag oneKey Reg.MET_CST_BUSY then s.put oneKey Reg.MET_CST_STATUS St.BUSY
  else if b0 % 16 = 1 then endMetCmd St.BAD_PARAM 0 s
  else
    let ser := (s.get oneKey Reg.MET_CST_SER + 1) % 16
    let body := bigEndian 1 (16 * ser + b0 % 16) ++ b.drop 1
    let s1 := ((s.put oneKey Reg.MET_CST_SER ser).put oneKey Reg.MET_CST_BUSY 1).put oneKey Reg.MET_CST_DONE 0
    let s2 := s1.setMetLink { s1.metLink with sentAt := s1.tref }
    onMeter (fun m => { m with command := some (body ++ bigEndian 2 (crc16 body)) }) s2

/-- A write of 0x5_0004 commits the three words of MET_CMD (R12, R388). -/
def commitMetCmd (m : Master) (w2 : Word) (s : State) : State :=
  let w0 := s.staged m Reg.MET_CMD0 (s.reg (oneKey + Reg.MET_CMD0))
  let w1 := s.staged m Reg.MET_CMD1 (s.reg (oneKey + Reg.MET_CMD1))
  let s1 := ((s.unstage m Reg.MET_CMD0).unstage m Reg.MET_CMD1).setRegs
    [(oneKey + Reg.MET_CMD0, w0), (oneKey + Reg.MET_CMD1, w1), (oneKey + Reg.MET_CMD2, w2)]
  sendMetCmd (bigEndian 2 (bits w0 15 0) ++ bigEndian 2 (bits w1 15 0) ++ bigEndian 2 (bits w2 15 0)) s1

/-- MET_COMMAND_SEND (R388). -/
def execMetCommandSend (m : Master) (w : Word) (s : State) : Result :=
  .next (s.blockWrite m blkMet Reg.MET_CMD2 (commitMetCmd m w))

/-- MET_NOLINK_TIMEOUT (R376): 5 ms without a result. -/
def execMetNolinkTimeout (s : State) : Result :=
  .next (if s.flag oneKey Reg.MET_CST_BUSY && decide (s.metLink.sentAt + 1000000 ≤ s.tref) then
    endMetCmd St.MET_NOLINK (s.get oneKey Reg.MET_CST_REASON) s else s)

/-- The REASON of a reserved byte that is not 0, and of a parameter out of range (R376). -/
def reasonReserved : Nat := if Config.metReason 0 then 3 else 2
def reasonRange : Nat := if Config.metReason 1 then 3 else 2

/-- The die judges the command frame on its way, where it is the command of this row (R376): first its form, then its
spacing, then what the die holds. A frame with a bad CRC is counted and gets no result. -/
def judge (cmd : Nat) (how : MetArrival) (form state : List Byte → Meter → Nat) (f : List Byte → Meter → Meter) (s : State) :
    State :=
  onMeter (fun m =>
    match m.command with
    | some b =>
      let ser := payloadField b 0 1 / 16
      if payloadField b 0 1 % 16 ≠ cmd then m
      else if how = .badCrc then { m with command := none, rej := m.rej + 1 }
      else
        let r := if form b m ≠ 0 then form b m else if how = .early then 4 else state b m
        let m1 := { m with command := none, result := some (ser, r) }
        if r = 0 then f b m1 else m1
    | none => m) s

/-- Reserved bytes from place i on are 0. -/
def zeroFrom (b : List Byte) (i : Nat) : Bool := ((b.take 6).drop i).all (fun x => decide (x = 0))

/-- REASON of a form: reserved bytes first, then the range. -/
def formOf (reservedOk rangeOk : Bool) : Nat := if !reservedOk then reasonReserved else if !rangeOk then reasonRange else 0

/-- READ (R375). -/
def execMetRead (how : MetArrival) (s : State) : Result :=
  .next (judge 2 how
    (fun b _ =>
      let t := payloadField b 1 1
      formOf (zeroFrom b 5)
        (decide (0x20 ≤ t) && decide (t ≤ 0x26) && decide (payloadField b 2 1 < sourcesOf t)))
    (fun _ m => if m.reqs.length < 8 then 0 else 6)
    (fun b m =>
      { m with reqs := m.reqs ++ [.read (payloadField b 1 1) (payloadField b 2 1) (payloadField b 3 2)] }) s)

/-- REPORT (R375, R382). -/
def execMetReport (how : MetArrival) (s : State) : Result :=
  .next (judge 3 how
    (fun b _ =>
      let t := payloadField b 1 1
      formOf (zeroFrom b 3) (decide (0x20 ≤ t) && decide (t ≤ 0x24) && decide (payloadField b 2 1 ≤ 9)))
    (fun _ _ => 0)
    (fun b m => { m with nextIntervals := m.nextIntervals ++ [(payloadField b 1 1, payloadField b 2 1)] }) s)

/-- The total rate of all streams in kS/s. -/
def streamTotal (t : Tbl Nat) : Nat := (t.map (fun e => presetRate e.2)).sum

/-- STREAM (R375). -/
def execMetStream (how : MetArrival) (s : State) : Result :=
  .next (judge 4 how
    (fun b _ => formOf (zeroFrom b 3) (decide (payloadField b 1 1 < 30) && decide (payloadField b 2 1 ≤ 5)))
    (fun b m => if streamTotal (tblSet m.streams 0 (payloadField b 1 1) (payloadField b 2 1)) ≤ 256 then 0 else 7)
    (fun b m => { m with streams := tblSet m.streams 0 (payloadField b 1 1) (payloadField b 2 1) }) s)

/-- LOGREAD (R375). -/
def execMetLogread (how : MetArrival) (s : State) : Result :=
  .next (judge 5 how
    (fun b _ =>
      let n := payloadField b 3 2
      formOf (zeroFrom b 5) (decide (payloadField b 1 2 ≤ 1023) && decide (1 ≤ n) && decide (n ≤ 1024)))
    (fun _ m => if m.reqs.length < 8 then 0 else 6)
    (fun b m => { m with reqs := m.reqs ++ [.log (payloadField b 1 2) (payloadField b 3 2)] }) s)

/-- DISPLAY (R369, R375). -/
def execMetDisplay (how : MetArrival) (s : State) : Result :=
  .next (judge 8 how
    (fun b _ =>
      let p := payloadField b 1 1
      formOf (zeroFrom b 2) (decide (p < 0x40) || (decide (0xF0 ≤ p) && decide (p ≤ 0xF3)) || decide (p = 0xFF)))
    (fun _ _ => 0)
    (fun b m => { m with page := if payloadField b 1 1 = 0xFF then none else some (payloadField b 1 1, m.msec) }) s)

/-- TARIFF (R375, R376). -/
def execMetTariff (how : MetArrival) (s : State) : Result :=
  .next (judge 9 how
    (fun b _ => formOf (zeroFrom b 2) (decide (payloadField b 1 1 ≤ 3)))
    (fun _ m => if m.param 0x43 = 1 then 5 else 0)
    (fun b m => { m with nextTariff := some (payloadField b 1 1) }) s)

end Sys2Proof.Machine
end

