-- ==== Sys2Proof/Machine/IoRead.lean ====
section
/-! DEFINITION. Reads of the I/O space (R6 to R8, R12, R13, R32, R33, R612, R661): what every register reads as, the snapshots
of wide registers, and what a read moves. A view is the half whose I/O space is read, or none for the host's own view. -/

namespace Sys2Proof.Machine

/-! ## Words laid out of fields -/

/-- A word with fields laid over it. -/
def lay (w : Word) (l : List (Fld × Nat)) : Word := l.foldl (fun w (e : Fld × Nat) => setBits w e.1.hi e.1.lo e.2) w

/-- Word i of a wide value (R12). -/
def wordAt (v i : Nat) : Word := BitVec.ofNat 20 (v / 0x100000 ^ i)

def flagNat (b : Bool) : Nat := if b then 1 else 0

/-! ## The registers of a half (R37 to R44, R348 to R351, R491 to R494, R550 to R554) -/

/-- The steward that a master is, as the half whose space is read sees it: its own number, or in the other half's view the
steward there with the same number modulo 4 (DEDUCED, R33, R40). -/
def viewedSteward (m : Master) (h : Half) : Option Nat :=
  match m with
  | .steward k => some (4 * h.num + k.val % 4)
  | .jtag k => if k.val < 8 then some (4 * h.num + k.val % 4) else none
  | _ => none

/-- DEV_WHO (R40). -/
def devWho (m : Master) (h : Half) : Word :=
  match m with
  | .vc => lay 0 [(Reg.DEV_WHO_WHO, 0xF)]
  | .port _ => lay 0 [(Reg.DEV_WHO_HALF, h.num), (Reg.DEV_WHO_WHO, Config.whoElse.toNat)]
  | _ =>
    match viewedSteward m h with
    | some k => lay 0 [(Reg.DEV_WHO_HALF, h.num), (Reg.DEV_WHO_WHO, k)]
    | none => lay 0 [(Reg.DEV_WHO_WHO, 0xF)]

/-- DEV_CFG as a half reads it (R41). -/
def State.devCfg (s : State) (h : Half) : Word :=
  lay 0 [(Reg.DEV_CFG_MET_UP, s.get oneKey Reg.MET_STAT_UP), (Reg.DEV_CFG_PARTNER_OK, flagNat (s.healthy h.other)),
    (Reg.DEV_CFG_PROFILE, match s.profile with | .noon => 0 | .dusk => 1 | .night => 2)]

/-- CE_STAT.BUSY (R348). -/
def State.codersBusy (s : State) (h : Half) : Bool :=
  (List.range 4).any (fun e => decide ((s.coder h e).samples ≠ []) || decide ((s.coder h e).records ≠ []))
    || s.bushels.any (fun e => decide (e.1 / 0x10000 = h.num))

/-- IC_STW of steward k (R552). -/
def State.icStw (s : State) (k : Nat) : Word :=
  let x := s.steward k
  lay 0 [(Reg.IC_STW_RUNPRI, x.runPri), (Reg.IC_STW_DEPTH, x.stack.length), (Reg.IC_STW_VALID, flagNat (decide (x.stack ≠ []))),
    (Reg.IC_STW_CUR, match x.stack with | (_, c) :: _ => c | [] => 0)]

/-- IC_SRC of a source (R554). -/
def State.icSrc (s : State) (h : Half) (src : Nat) : Word :=
  lay (s.reg (irqKey h src + Reg.IC_SRC))
    [(Reg.IC_SRC_ASSERT, flagNat (s.sourceAsserted h src)), (Reg.IC_SRC_ACTIVE, flagNat (s.irqActive h src)),
      (Reg.IC_SRC_PEND, flagNat (s.irqShown h src)), (Reg.IC_SRC_TYPE, flagNat (isPulse src))]

/-- Twenty sources' bits from source 20 w on (R553). -/
def sourceMap (w : Nat) (f : Nat → Bool) : Word :=
  BitVec.ofNat 20 (((List.range 20).map (fun i => if 20 * w + i < 512 ∧ f (20 * w + i) = true then 2 ^ i else 0)).sum)

/-- A register of a steward's block, at an offset (R491 to R494). -/
def State.stwValue (s : State) (k off : Nat) : Word :=
  if off = 1 then lay (s.reg (stewKey k + Reg.STW_STAT)) [(Reg.STW_STAT_STATE, stewState (s.steward k))]
  else if off = 2 then stewPc (s.steward k)
  else if off = 7 then readRdat k s
  else s.reg (stewKey k + Reg.STW_CTL + off)

/-- A register of a half's system space (R32). -/
def State.halfValue (s : State) (m : Master) (h : Half) (a : Nat) : Word :=
  let held := s.reg (halfKey h + a)
  if 0xF02 ≤ a ∧ a < 0xF06 then wordAt Config.uid.toNat (a - 0xF02)
  else if a = Reg.DEV_WHO then devWho m h
  else if a = Reg.DEV_CFG then s.devCfg h
  else if a = Reg.DEV_SHR then s.owners
  else if a = Reg.HP_STAT then lay held [(Reg.HP_STAT_IDLE, flagNat (s.halfIdle h))]
  else if a = Reg.CE_STAT then lay held [(Reg.CE_STAT_BUSY, flagNat (s.codersBusy h))]
  else if 0x804 ≤ a ∧ a < 0x808 then
    lay 0 [(Reg.CE_OCC_SAMPLES, (s.coder h (a - 0x804)).taken), (Reg.CE_OCC_RECORDS, (s.coder h (a - 0x804)).records.length)]
  else if 0xC00 ≤ a ∧ a < 0xC80 then s.stwValue (4 * h.num + (a - 0xC00) / 0x20) (a % 0x20)
  else if a = Reg.IC_STAT then lay held [(Reg.IC_STAT_OFFER, flagNat (decide (s.irqOffers h ≠ [])))]
  else if 0x10 ≤ a ∧ a < 0x20 then (if a % 4 = 0 then s.icStw (4 * h.num + (a - 0x10) / 4) else held)
  else if a = Reg.IC_STW_OWN then (match viewedSteward m h with | some k => s.icStw k | none => 0)
  else if a = Reg.IC_SCTL_OWN then
    (match viewedSteward m h with | some k => s.reg (halfKey h + Reg.IC_SCTL + 4 * (k % 4)) | none => 0)
  else if 0x100 ≤ a ∧ a < 0x11A then sourceMap (a - 0x100) (fun i => s.irqShown h i)
  else if 0x120 ≤ a ∧ a < 0x13A then sourceMap (a - 0x120) (fun i => s.irqActive h i)
  else if 0x200 ≤ a ∧ a < 0x400 then s.icSrc h (a - 0x200)
  else held

/-! ## The event matrix (R556 to R558) -/

/-- The EM_CSEL of an accessor: a half's, or the host's (R556). -/
def cselKey : Option Half → Nat
  | some h => halfKey h
  | none => oneKey

/-- The consumer an accessor has selected; 192 to 255 select nothing. -/
def State.selected (s : State) (v : Option Half) : Option Nat :=
  let c := s.get (cselKey v) Reg.EM_CSEL_SEL
  if c < 192 then some c else none

/-- EM_CCFG of a consumer. -/
def Consumer.cfgWord (k : Consumer) : Word :=
  lay 0 [(Reg.EM_CCFG_OWNER, k.owner), (Reg.EM_CCFG_SECURE, flagNat k.secure), (Reg.EM_CCFG_MOVED, flagNat k.moved),
    (Reg.EM_CCFG_EN, flagNat k.en), (Reg.EM_CCFG_PW, k.pw), (Reg.EM_CCFG_MODE, k.mode)]

/-- PEND of twenty IRQ consumers, from IRQ 20 w on (R558, R596). -/
def State.qpend (s : State) (w : Nat) : Word :=
  BitVec.ofNat 20 (((List.range 20).map (fun i => if 20 * w + i < 32 ∧ (s.consumer (104 + 20 * w + i)).pend = true then 2 ^ i else 0)).sum)

def State.matrixValue (s : State) (v : Option Half) (a : Nat) : Word :=
  if a = Reg.EM_CSEL then s.reg (cselKey v + Reg.EM_CSEL)
  else if a < 0x101D ∧ a ≠ 0x1000 then
    match s.selected v with
    | some c =>
      let k := s.consumer c
      if a = Reg.EM_CCFG then k.cfgWord
      else if a = Reg.EM_CSTAT then lay 0 [(Reg.EM_CSTAT_BUSY, flagNat (k.isBusy c)), (Reg.EM_CSTAT_PEND, flagNat k.pend)]
      else if a = Reg.EM_CDROP then BitVec.ofNat 20 k.drop
      else if 0x1010 ≤ a then wordAt k.enables.toNat (a - 0x1010)
      else 0
    | none => 0
  else if a = Reg.EM_QPEND then s.qpend 0
  else if a = Reg.EM_QPEND + 1 then s.qpend 1
  else s.reg (oneKey + a)

/-! ## Bays (R24, R133 to R139, R168 to R175, R194 to R200, R238 to R247, R275 to R281, R312 to R320, R344 to R347) -/

/-- Queue state and the head of the receive FIFO of a line (R239 to R243). -/
def State.lineValue (s : State) (h : Half) (b off : Nat) : Word :=
  let held := s.reg (bayKey h b + off)
  let l := s.line h b
  let f := l.fifo.head?
  if off = Reg.LN_STAT then
    lay held [(Reg.LN_STAT_INFRAME, flagNat ((l.sof && l.attempt.isSome) || (s.engine h b).assembly.isSome))]
  else if off = Reg.LN_QSTAT then
    lay held [(Reg.LN_QSTAT_P_BUSY, flagNat (l.entry entryP).busy),
      (Reg.LN_QSTAT_BUSY, ((List.range 8).map (fun e => if (l.entry e).busy = true then 2 ^ e else 0)).sum)]
  else if off = Reg.LN_RXID then
    lay 0 [(Reg.LN_RXID_COUNT, l.fifo.length), (Reg.LN_RXID_ID, match f with | some x => x.id | none => 0)]
  else if off = Reg.LN_RXC then
    match f with
    | some x =>
      lay 0 [(Reg.LN_RXC_ROBUST, flagNat x.robust), (Reg.LN_RXC_ACKD, flagNat x.ackd), (Reg.LN_RXC_AR, flagNat x.ar),
        (Reg.LN_RXC_LEN, x.payload.length)]
    | none => 0
  else if 0x192 ≤ off ∧ off < 0x195 then (match f with | some x => wordAt x.ts (off - 0x192) | none => 0)
  else if off = Reg.LN_RXD then s.rxWord h b
  else if 0x1C0 ≤ off ∧ off < 0x1C8 then
    let x := l.entry (off - 0x1C0)
    lay 0 [(Reg.LN_TXS_STATUS, x.status), (Reg.LN_TXS_DONE, flagNat x.done), (Reg.LN_TXS_CPEND, flagNat x.cpend),
      (Reg.LN_TXS_ACKED, flagNat x.acked), (Reg.LN_TXS_TRIES, x.tries), (Reg.LN_TXS_ARBL, min 15 x.arbl),
      (Reg.LN_TXS_DEFER, flagNat x.deferred), (Reg.LN_TXS_BUSY, flagNat x.busy)]
  else if off = Reg.LS_STAT then
    let y := s.synth (b / 8)
    lay held [(Reg.LS_STAT_PEND, flagNat y.gated),
      (Reg.LS_STAT_STATE, match y.mode with | .stopped => 0 | .cal => 1 | .settle => 2 | .locked => 3)]
  else held

/-- Registers of a line engine (R275 to R281). -/
def State.engineValue (s : State) (h : Half) (b off : Nat) : Word :=
  let key := bayKey h b
  let held := s.reg (key + off)
  let x := s.engine h b
  let bank := s.get key Reg.LE_PA_BANK
  let instr := (s.progWord h b bank (s.get key Reg.LE_PA_ADDR)).toNat
  if off = Reg.LE_STAT then
    lay held [(Reg.LE_STAT_BANK, x.bank), (Reg.LE_STAT_SWPEND, flagNat x.swap.isSome), (Reg.LE_STAT_STALL, s.leStall h b),
      (Reg.LE_STAT_STATE, match x.mode with | .stopped => 0 | .idle => 1 | .active => 2 | .halted => 3 | .fault => 4)]
  else if off = Reg.LE_PC then lay 0 [(Reg.LE_PC_DEPTH, x.links.length), (Reg.LE_PC_PC, x.pc)]
  else if off = Reg.LE_SWST then
    lay held [(Reg.LE_SWST_RESTART, flagNat (match x.swap with | some (r, _) => r | none => false)),
      (Reg.LE_SWST_FORCE, flagNat (match x.swap with | some (_, f) => f | none => false)),
      (Reg.LE_SWST_PEND, flagNat x.swap.isSome),
      (Reg.LE_SWST_WAIT, if x.swap.isSome = true then min 4 (x.stalled / s.leUnit h b) else 0)]
  else if off = Reg.LE_PD_LO then wordAt instr 0
  else if off = Reg.LE_PD_HI then wordAt instr 1
  else if off = Reg.LE_BCRC ∨ off = Reg.LE_BCRC + 1 then
    wordAt (crc32 ((List.range 256).flatMap (fun i => bigEndian 4 (s.progWord h b bank i).toNat))) (off - Reg.LE_BCRC)
  else if 0x220 ≤ off ∧ off < 0x228 then BitVec.ofNat 20 (x.cell (off - 0x220)).toNat
  else if off = Reg.LE_TSR ∨ off = Reg.LE_TSR + 1 then wordAt x.tsr.toNat (off - Reg.LE_TSR)
  else if off = Reg.LE_RSR ∨ off = Reg.LE_RSR + 1 then wordAt x.rsr.toNat (off - Reg.LE_RSR)
  else if off = Reg.LE_CRC ∨ off = Reg.LE_CRC + 1 then wordAt x.crc.toNat (off - Reg.LE_CRC)
  else held

/-- The recogniser that RG_SEL selects in a copy (R319). -/
def State.chosenRecog (s : State) (h : Half) (b : Nat) : Recog := s.recog h b (s.get (bayKey h b) Reg.RG_SEL_SEL)

/-- Registers of a bay's pipeline, recognisers and coding (R312 to R320, R344 to R347). -/
def State.pipeValue (s : State) (h : Half) (b off : Nat) : Word :=
  let key := bayKey h b
  let held := s.reg (key + off)
  let r := s.chosenRecog h b
  if off = Reg.PL_TD then (s.entryOf h b (s.get key Reg.PL_TA_ENTRY)).word (s.get key Reg.PL_TA_WORD)
  else if off = Reg.PL_CD then s.plCd h b
  else if off = Reg.PL_STAT then lay held [(Reg.PL_STAT_RUN, flagNat (s.plTakes h b))]
  else if off = Reg.PL_CSTAT then
    let p := s.pipe h b
    lay held [(Reg.PL_CSTAT_FADE1, flagNat (s.setFading h b 1)), (Reg.PL_CSTAT_FADE0, flagNat (s.setFading h b 0)),
      (Reg.PL_CSTAT_PEND1, flagNat p.set1.held.isSome), (Reg.PL_CSTAT_PEND0, flagNat p.set0.held.isSome)]
  else if off = Reg.RG_CFG then r.cfg
  else if off = Reg.RG_A then r.a
  else if off = Reg.RG_B then r.b
  else if off = Reg.RG_PC then r.pc
  else if off = Reg.RG_ST then
    lay 0 [(Reg.RG_ST_PEND, flagNat r.pend), (Reg.RG_ST_ACTIVE, flagNat r.active), (Reg.RG_ST_COUNT, min 255 r.n),
      (Reg.RG_ST_HIST, r.hist.length)]
  else if off = Reg.RG_HITS then BitVec.ofNat 20 r.hits
  else if off = Reg.RG_LASTV then r.lastV
  else if 0x328 ≤ off ∧ off < 0x32B then wordAt r.lastT (off - 0x328)
  else if 0x330 ≤ off ∧ off < 0x334 then
    wordAt (((List.range 64).map (fun i => if (s.recog h b i).pend = true then 2 ^ i else 0)).sum) (off - 0x330)
  else if 0x334 ≤ off ∧ off < 0x338 then
    wordAt (((List.range 64).map (fun i => if (s.recog h b i).active = true then 2 ^ i else 0)).sum) (off - 0x334)
  else if off = Reg.CC_D then s.ccD h b (s.get key Reg.CC_A_WORD)
  else held

/-- An envelope register of a bay, which exists once, on the pad side: TS_ENV, TS_ILK, TS_THR, and those of the line (R171,
R186, R198, R199, R207, R247). -/
def isEnvelope (off : Nat) : Bool :=
  (decide (0x18 ≤ off) && decide (off < 0x38)) || (decide (0x1F0 ≤ off) && decide (off < 0x1F3))
    || (decide (0x80 ≤ off) && decide (off < 0x180) && decide (off % 16 = 6))

/-- TB_STAT of a timebase: RUN says whether it counts now (R136). -/
def State.tbStat (s : State) (i : Nat) : Word :=
  lay (s.reg (tbKey i + Reg.TB_STAT)) [(Reg.TB_STAT_RUN, flagNat (s.tbRuns i))]

/-- A register of a bay as a half's copy gives it. The LS registers of the other seven bays of an octet are the octet's, those
of its lowest bay (R209). -/
def State.bayValue (s : State) (h : Half) (b off : Nat) : Word :=
  if isEnvelope off || decide (off = Reg.ENV_LAST) || decide (off = Reg.ENV_BAYCNT) then s.reg (padKey b + off)
  else if off = Reg.TD_SUM then s.tdSum h b
  else if off = Reg.TRM_SUM then s.trmSum h b
  else if off = Reg.TB_STAT then s.tbStat (bayIx h b)
  else if 0x1E0 ≤ off ∧ off < 0x1E4 then s.lineValue h (b - b % 8) off
  else if 0x180 ≤ off ∧ off < 0x200 then s.lineValue h b off
  else if 0x200 ≤ off ∧ off < 0x300 then s.engineValue h b off
  else if 0x300 ≤ off then s.pipeValue h b off
  else s.reg (bayKey h b + off)

/-! ## Memory control (R573 to R577) -/

/-- The memory port of a master (R561). -/
def memPort : Master → Nat
  | .steward k => k.val % 4
  | .vc => 4
  | .port _ => 9
  | .jtag _ => 13

def State.memoryValue (s : State) (m : Master) (h : Half) (a : Nat) : Word :=
  if a = Reg.MC_STAT then
    lay (s.reg (halfKey h + a)) [(Reg.MC_STAT_RDY, flagNat ((s.half h).supplyOk && s.power.regConfirmed))]
  else if a = Reg.IM_D then (readImD h (memPort m) s).1
  else s.reg (halfKey h + a)

/-! ## Shared blocks -/

/-- Registers of the fabric router (R451 to R457). -/
def State.fabricValue (s : State) (a : Nat) : Word :=
  let held := s.reg (oneKey + a)
  let r := s.route (s.get oneKey Reg.FAB_RT_A_ADDR)
  if 0x30010 ≤ a ∧ a < 0x30013 then wordAt s.timeNs (a - 0x30010)
  else if 0x30013 ≤ a ∧ a < 0x30016 then 0
  else if a = Reg.FAB_RT_D0 then
    lay 0 [(Reg.FAB_RT_D0_STATE, r.mode), (Reg.FAB_RT_D0_METRIC, r.metric), (Reg.FAB_RT_D0_NEXT, r.next),
      (Reg.FAB_RT_D0_ALT_VALID, flagNat r.alt.isSome), (Reg.FAB_RT_D0_ALT, match r.alt with | some (l, _) => l | none => 0)]
  else if a = Reg.FAB_RT_D1 then
    lay 0 [(Reg.FAB_RT_D1_ALT_METRIC, match r.alt with | some (_, n) => n | none => 64),
      (Reg.FAB_RT_D1_AGE, min 0x1FFF ((s.tref - r.changed) / 20000000))]
  else if 0x30023 ≤ a ∧ a < 0x30027 then wordAt r.owner (a - 0x30023)
  else if 0x30100 ≤ a ∧ a < 0x30180 ∧ a % 16 = 1 then
    let l := a / 16 % 8
    let x := s.link l
    lay held [(Reg.LK_STAT_TSRC, flagNat (decide (s.router.parent = some l))), (Reg.LK_STAT_ROLE, x.role),
      (Reg.LK_STAT_STATE, match x.mode with | .down => 0 | .locking => 1 | .locked => 2 | .up => 3 | .loop => 4)]
  else held

/-- Registers of the archive controller (R410 to R418). -/
def State.archiveValue (s : State) (a : Nat) : Word :=
  let held := s.reg (oneKey + a)
  let x := s.archive
  if a = Reg.AR_STAT then lay held [(Reg.AR_STAT_PFAIL, flagNat s.power.pfail)]
  else if a = Reg.AR_HEAD ∨ a = Reg.AR_HEAD + 1 then wordAt (x.head % x.cap) (a - Reg.AR_HEAD)
  else if a = Reg.AR_TAIL ∨ a = Reg.AR_TAIL + 1 then wordAt (x.tail % x.cap) (a - Reg.AR_TAIL)
  else if a = Reg.AR_SAFE ∨ a = Reg.AR_SAFE + 1 then wordAt (x.safe % x.cap) (a - Reg.AR_SAFE)
  else if a = Reg.AR_LAP then BitVec.ofNat 20 (x.head / x.cap)
  else if a = Reg.AR_RPTR ∨ a = Reg.AR_RPTR + 1 then wordAt (x.rptr % x.cap) (a - Reg.AR_RPTR)
  else if 0x40040 ≤ a ∧ a < 0x40060 ∧ a % 8 < 5 then
    match tblFind x.origins ((a - 0x40040) / 8 + 1) with
    | some o => if a % 8 < 4 then wordAt o.uid (a % 8) else lay 0 [(Reg.AR_ORIG_VALID, 1), (Reg.AR_ORIG_ADDR, o.addr)]
    | none => 0
  else held

/-- The record that MET_RSEL selects (R390). -/
def State.windowRecord (s : State) : Option (Nat × List Byte) :=
  tblFind s.metLink.window (256 * s.get oneKey Reg.MET_RSEL_TYPE + s.get oneKey Reg.MET_RSEL_SOURCE)

/-- Registers of the metrology link (R386 to R391). -/
def State.metValue (s : State) (a : Nat) : Word :=
  if 0x50002 ≤ a ∧ a < 0x50005 then 0
  else if a = Reg.MET_RD then
    match s.windowRecord with
    | some (_, l) => BitVec.ofNat 20 (payloadField (l ++ [0, 0]) (2 * s.get oneKey Reg.MET_RA_ADDR) 2)
    | none => 0
  else if a = Reg.MET_RINFO then
    match s.windowRecord with
    | some (q, l) => lay 0 [(Reg.MET_RINFO_SEQ, q), (Reg.MET_RINFO_RLEN, l.length)]
    | none => 0
  else s.reg (oneKey + a)

/-- Registers of the two-wire buses (R631 to R634). -/
def State.twValue (s : State) (a : Nat) : Word :=
  let b := a / 0x20 % 8
  if 0x60100 ≤ a then s.reg (oneKey + a)
  else if a % 0x20 = 0x09 then (readTwCbd b false s).1
  else if a % 0x20 = 0x0B then s.twTrx b
  else if a % 0x20 = 0x0C then lay 0 [(Reg.TW_TTX_FREE, 32 - (s.tw b).tx.length)]
  else if a % 0x20 = 0x0D then s.twStat b
  else s.reg (oneKey + a)

/-! ## Command ports, timers, pins and the Vigil domain (R32, R605 to R607, R681, R682) -/

/-- An envelope session is open on a port (R596). -/
def State.portSession (s : State) (p : Nat) : Bool :=
  s.flag oneKey Reg.ENV_STAT_OPEN && decide (s.get oneKey Reg.ENV_STAT_PATH = p)

/-- Quick register 0x00 of a port (R596). -/
def State.quickPort (s : State) (p : Nat) : Word :=
  let x := s.port p
  BitVec.ofNat 20 (0x8000 * x.replies.length + 0x400 * x.queue.length + 8 * x.alarms.length
    + 4 * (s.runner (blkPort p)).num + 2 * flagNat x.dropped + flagNat (s.portSession p))

def State.portValue (s : State) (a : Nat) : Word :=
  let p := a / 0x40 % 2
  let held := s.reg (oneKey + a)
  if a % 0x40 = 1 then
    lay held [(Reg.CP_STAT_LAST_ST, (s.port p).lastSt), (Reg.CP_STAT_SELECTED, 0)]
  else if a % 0x40 = 2 then s.quickPort p
  else held

/-- A terminal or the line of a bay has not yet switched to its seat holder's path (R79). -/
def State.switching (s : State) (b : Nat) : Bool :=
  (bayTerminals b).any (fun t => decide (s.livePath t ≠ s.holder b))
    || decide (Half.ofBit (s.referee.linePath.getLsbD b) ≠ s.holder b)

/-- SEAT_RES as a master reads it in a view (R79). -/
def State.seatRes (s : State) (m : Master) (v : Option Half) : Word :=
  let key := if isVc m then oneKey else
    match v with
    | some h => resKey h
    | none => resultKey s m
  lay (s.reg (key + Reg.SEAT_RES))
    [(Reg.SEAT_RES_PEND, flagNat (s.flag key Reg.SEAT_RES_PEND && s.switching (s.get key Reg.SEAT_RES_BAY)))]

/-- Registers of the Vigil domain (R25). -/
def State.vigilValue (s : State) (m : Master) (v : Option Half) (a : Nat) : Word :=
  let held := s.reg (oneKey + a)
  if a < 0x7E004 then wordAt s.seats.toNat (a - 0x7E000)
  else if a < 0x7E008 then wordAt s.orphans.toNat (a - 0x7E004)
  else if a = Reg.SEAT_RES then s.seatRes m v
  else if a = Reg.OTP_KEYS then lay 0 [(Reg.OTP_KEYS_REVOKED, s.otp.revoked.toNat), (Reg.OTP_KEYS_PROG, s.otp.prog.toNat)]
  else if a = Reg.OTP_MISC then lay 0 [(Reg.OTP_MISC_DBG_OFF, flagNat s.otp.dbgOff), (Reg.OTP_MISC_MINSVN, s.otp.minSvn)]
  else if a = Reg.VC_STAT then lay held [(Reg.VC_STAT_RUNNING, flagNat (s.steward 8).mode.runs)]
  else if a = Reg.VM_D then (readVmD (v.getD (s.masterHalf m)) (memPort m) s).1
  else if a = Reg.PWR_ST then lay held [(Reg.PWR_ST_STATE, s.powerState)]
  else if a = Reg.PWR_STAT then
    lay held [(Reg.PWR_STAT_PFAIL, flagNat s.power.pfail), (Reg.PWR_STAT_LFX_OK, flagNat s.power.lfx),
      (Reg.PWR_STAT_OSC_RDY, flagNat s.trefRuns), (Reg.PWR_STAT_REG_RDY, flagNat s.power.regConfirmed)]
  else if 0x7E0C0 ≤ a ∧ a < 0x7E0E0 then s.stwValue 8 (a - 0x7E0C0)
  else if a = Reg.PKG_STRAP then
    lay 0 [(Reg.PKG_STRAP_TEST_N, flagNat s.power.testN), (Reg.PKG_STRAP_XREF_MODE, flagNat s.power.xrefMode)]
  else held

/-! ## The I/O space (R32) -/

/-- What an I/O address below 0x8_0000 reads as, without the snapshots of R12. The host's own view has no half system
space and no memory control (R612). -/
def State.ioValue (s : State) (m : Master) (v : Option Half) (a : Nat) : Word :=
  if a < 0x1000 then (match v with | some h => s.halfValue m h a | none => 0)
  else if a < 0x2000 then s.matrixValue v a
  else if a < 0x10000 then 0
  else if a < 0x20000 then s.bayValue (v.getD (s.holder (a / 0x400 % 64))) (a / 0x400 % 64) (a % 0x400)
  else if a < 0x30000 then (match v with | some h => s.memoryValue m h a | none => 0)
  else if a < 0x40000 then s.fabricValue a
  else if a < 0x50000 then s.archiveValue a
  else if a < 0x60000 then s.metValue a
  else if a < 0x70000 then s.twValue a
  else if a < 0x70080 then s.portValue a
  else if 0x71000 ≤ a ∧ a < 0x71100 ∧ a % 0x20 = Reg.TB_STAT then s.tbStat (128 + a / 0x20 % 8)
  else if a < 0x7E000 then s.reg (oneKey + a)
  else s.vigilValue m v a

/-! ## Wide registers (R12, R13) -/

/-- The wide registers of a bay: offset and words. -/
def wideBay : List (Nat × Nat) :=
  [(0x192, 3), (0x210, 2), (0x212, 2), (0x219, 2), (0x21B, 2), (0x228, 2), (0x22A, 2), (0x22C, 2), (0x328, 3), (0x330, 4),
    (0x334, 4)]

/-- The other wide registers: address and words. -/
def wideOther : List (Nat × Nat) :=
  [(0x100, 26), (0x120, 26), (0xA01, 2), (0xA11, 2), (0xC08, 2), (0xC28, 2), (0xC48, 2), (0xC68, 2), (0xF02, 4), (0x1010, 13),
    (0x1030, 2), (0x30010, 3), (0x30013, 3), (0x30019, 4), (0x30021, 6)]
  ++ (List.range 8).map (fun l => (0x30103 + 16 * l, 4))
  ++ [(0x4000A, 2), (0x4000C, 2), (0x4000E, 2), (0x40010, 2), (0x40019, 2), (0x40020, 2), (0x40040, 4), (0x40048, 4),
    (0x40050, 4), (0x40058, 4), (0x50002, 3), (0x50014, 2), (0x50016, 2), (0x50018, 2), (0x5001A, 2), (0x7E000, 4),
    (0x7E004, 4), (0x7E048, 4), (0x7E0A8, 3), (0x7E0B0, 2), (0x7E0B2, 2), (0x7E0B4, 2), (0x7E0B6, 2), (0x7E0C8, 2)]

/-- The wide register an address belongs to: its first address and its words. -/
def wideSpan (a : Nat) : Option (Nat × Nat) :=
  if 0x10000 ≤ a ∧ a < 0x20000 then
    let b := a - a % 0x400
    (wideBay.find? (fun e => decide (e.1 ≤ a % 0x400) && decide (a % 0x400 < e.1 + e.2))).map (fun e => (b + e.1, e.2))
  else wideOther.find? (fun e => decide (e.1 ≤ a) && decide (a < e.1 + e.2))

/-- The address under which a register's snapshot and staging are held: registers that each half has are told apart, and so is
the host's own view of them. -/
def viewAddr (v : Option Half) (a : Nat) : Nat :=
  if a < 0x30000 then a + (match v with | some .A => 0 | some .B => 0x80000 | none => 0xC0000) else a

/-- The place of the snapshot of words 5 to 7 of a poll entry (R315). -/
def entrySnap (m : Master) (h : Half) (b e w : Nat) : Nat :=
  0x1000000 + ((masterNo m * 128 + bayIx h b) * 256 + e) * 4 + (w - 4)

/-- The place of the snapshot of word 3 of a channel (R345). -/
def chanSnap (m : Master) (h : Half) (c : Nat) : Nat := 0x8000000 + (masterNo m * 2 + h.num) * 0x10000 + c

/-- Higher words latched by a read of the lowest one. -/
def State.latch (s : State) (key : Nat → Nat) (val : Nat → Word) : List Nat → State
  | [] => s
  | i :: t => ({ s with snaps := tblPut s.snaps (key i) (val i) }).latch key val t

/-! ## What a read moves -/

/-- What a read by a master moves in the space it reads directly: address registers advance, a chained count is copied, a
FIFO gives its head. -/
def readMoves (m : Master) (v : Option Half) (a : Nat) (s : State) : State :=
  let b := a / 0x400 % 64
  let h := v.getD (s.holder b)
  if 0x10000 ≤ a ∧ a < 0x20000 then
    match a % 0x400 with
    | 0x003 => readCount (bayIx h b) s
    | 0x196 => s.bayRead m b (fun h s => advanceRx h b s)
    | 0x21A => s.bayRead m b (fun h s => s.put (bayKey h b) Reg.LE_PA_ADDR (s.get (bayKey h b) Reg.LE_PA_ADDR + 1))
    | 0x303 => s.bayRead m b (fun h s => advanceTa h b s)
    | 0x319 => s.bayRead m b (fun h s => advanceCa h b s)
    | 0x341 => s.bayRead m b (fun h s => advanceCcA h b s)
    | _ => s
  else if 0x71000 ≤ a ∧ a < 0x71100 ∧ a % 0x20 = 3 then readCount (128 + a / 0x20 % 8) s
  else if a = Reg.MET_RD then
    (if s.blockWriteOk m blkMet then s.put oneKey Reg.MET_RA_ADDR (s.get oneKey Reg.MET_RA_ADDR + 1) else s)
  else if 0x60000 ≤ a ∧ a < 0x60100 ∧ s.blockWriteOk m (blkTw (a / 0x20 % 8)) = true then
    (if a % 0x20 = 0x0B then popTrx (a / 0x20 % 8) s
    else if a % 0x20 = 0x09 then (readTwCbd (a / 0x20 % 8) true s).2 else s)
  else if a = Reg.IM_D then (match v with | some h => (readImD h (memPort m) s).2 | none => s)
  else if a = Reg.VM_D then (readVmD (v.getD (s.masterHalf m)) (memPort m) s).2
  else s

/-- A read of an address below 0x8_0000 in a view: the word, and the state with its snapshots (R12). -/
def readIn (m : Master) (v : Option Half) (a : Nat) (s : State) : Word × State :=
  let key := fun i => stageKey m (viewAddr v i)
  let w := s.ioValue m v a
  if 0x10000 ≤ a ∧ a < 0x20000 ∧ a % 0x400 = 0x303 then
    let b := a / 0x400 % 64
    let h := v.getD (s.holder b)
    let e := s.get (bayKey h b) Reg.PL_TA_ENTRY
    let n := s.get (bayKey h b) Reg.PL_TA_WORD
    if n = 4 then (w, s.latch (entrySnap m h b e) (s.entryOf h b e).word [5, 6, 7])
    else if 4 < n then ((tblFind s.snaps (entrySnap m h b e n)).getD w, s)
    else (w, s)
  else if 0x10000 ≤ a ∧ a < 0x20000 ∧ a % 0x400 = 0x341 then
    let b := a / 0x400 % 64
    let h := v.getD (s.holder b)
    match ccChannel b (s.get (bayKey h b) Reg.CC_A_ENTRY) with
    | some c =>
      if s.get (bayKey h b) Reg.CC_A_WORD = 2 then (w, s.latch (fun _ => chanSnap m h c) (s.ccD h b) [3])
      else if s.get (bayKey h b) Reg.CC_A_WORD = 3 then ((tblFind s.snaps (chanSnap m h c)).getD w, s)
      else (w, s)
    | none => (w, s)
  else
    match wideSpan a with
    | some (base, n) =>
      if a = base then (w, s.latch key (s.ioValue m v) ((List.range (n - 1)).map (fun i => base + 1 + i)))
      else ((tblFind s.snaps (key a)).getD w, s)
    | none => (w, s)

/-- A half cannot be reached through the Vigil window (R661). -/
def State.windowDown (s : State) (h : Half) : Bool :=
  !s.computes h || !(s.half h).supplyOk || decide (s.power.mode = .deep) || decide (s.power.mode = .off)

/-- A read by a steward or the VC (R32, R33, R661), and by the debug path as the steward it addresses (R519). The view of the
other half's I/O moves nothing (DEDUCED: it is read-only); it is charged to the cross-half link (R33). -/
def ioRead (m : Master) (a : Nat) (s : State) : Word × State :=
  let h := s.masterHalf m
  if isVc m then
    if a < 0x70000 then
      if s.windowDown h then (0, s.put oneKey Reg.VW_WIN_DOWN 1)
      else
        let o := readIn m (some h) a s
        (o.1, readMoves m (some h) a o.2)
    else if a < 0x80000 then
      let o := readIn m (some h) a s
      (o.1, readMoves m (some h) a o.2)
    else (0, s)
  else if a < 0x80000 then
    let o := readIn m (some h) a s
    (o.1, readMoves m (some h) a o.2)
  else readIn m (some h.other) (a - 0x80000) (chargeAccess h (4 * actStew + 1) s)

end Sys2Proof.Machine
end

