-- ==== Sys2Proof/Machine/IoWrite.lean ====
section
/-! DEFINITION. Writes of the I/O space (R6 to R8, R12, R13, R24, R26, R32, R36, R661): who may write, what every register
stores, and what a write does beyond storing. -/

namespace Sys2Proof.Machine

/-! ## Wide registers (R12, R13) -/

/-- A commit of a wide register by its highest word: the words the master staged, or those the register holds, are
written in turn, the highest last. -/
def commitWide (m : Master) (v : Option Half) (key base n : Nat) (top : Word) (s : State) : State :=
  (List.range n).foldl (fun s i =>
    let at_ := viewAddr v (base + i)
    let w := if i + 1 = n then top else s.staged m at_ (s.reg (key + i))
    (s.unstage m at_).plainWrite (key + i) w) s

/-- A write of a word of a wide register that stores its words: a lower word is staged, the highest one commits. -/
def writeWide (m : Master) (v : Option Half) (key base n a : Nat) (w : Word) (s : State) : State :=
  if a + 1 = base + n then commitWide m v key base n w s else s.stage m (viewAddr v a) w

/-! ## The registers of a half -/

/-- A write of IC_SRC (R554): EN and LEVEL are stored; a 1 at PEND clears a pulse latch. -/
def writeIcSrc (h : Half) (src : Nat) (w : Word) (s : State) : State :=
  let s1 := s.plainWrite (irqKey h src + Reg.IC_SRC) w
  if w.getLsbD 7 && isPulse src then s1.setHalf h { s1.half h with latched := listDrop (s1.half h).latched src } else s1

/-- A write of a steward's block at an offset (R491 to R494). -/
def writeStw (m : Master) (v : Option Half) (k off a : Nat) (w : Word) (s : State) : State :=
  let key := stewKey k + Reg.STW_CTL
  if off = 0 then writeStwCtl k w s
  else if off = 7 then writeRdat k w s
  else if off = 8 ∨ off = 9 then writeWide m v (key + 8) (a - off + 8) 2 a w s
  else s.plainWrite (key + off) w

/-- A write of a half's system space. -/
def writeHalf (m : Master) (h : Half) (a : Nat) (w : Word) (s : State) : State :=
  if a = Reg.IC_SWSET then writeSwset h w s
  else if 0x10 ≤ a ∧ a < 0x20 ∧ a % 4 = 1 then writeEoi h ((a - 0x10) / 4) (bits w 8 0) s
  else if a = Reg.IC_EOI_OWN then
    (match viewedSteward m h with | some k => writeEoi h (k % 4) (bits w 8 0) s | none => s)
  else if a = Reg.IC_SCTL_OWN then
    (match viewedSteward m h with | some k => s.plainWrite (halfKey h + Reg.IC_SCTL + 4 * (k % 4)) w | none => s)
  else if 0x200 ≤ a ∧ a < 0x400 then writeIcSrc h (a - 0x200) w s
  else if a = Reg.BG_LEN then writeBgLen h w s
  else if a = Reg.BG_COMMIT then writeBgCommit h w s
  else if 0x610 ≤ a ∧ a < 0x650 then writeBgGrant h (a - 0x610) w s
  else if a = Reg.PRF_REQ then
    writePrfReq m (bits w 1 0) (Config.regulatorAcks s.freeCount) { s with freeCount := s.freeCount + 1 }
  else if a = Reg.CE_XCFG then writeXcfg w s
  else if a = Reg.BF_OP then writeBfOp h false w s
  else if a = Reg.BF_OP + 0x10 then writeBfOp h true w s
  else if a = 0xA01 ∨ a = 0xA02 then writeWide m (some h) (halfKey h + 0xA01) 0xA01 2 a w s
  else if a = 0xA11 ∨ a = 0xA12 then writeWide m (some h) (halfKey h + 0xA11) 0xA11 2 a w s
  else if 0xC00 ≤ a ∧ a < 0xC80 then writeStw m (some h) (4 * h.num + (a - 0xC00) / 0x20) (a % 0x20) a w s
  else if a = Reg.HLT_BEAT then writeBeat h w s
  else if a = Reg.HLT_YIELD then writeYield h w s
  else s.plainWrite (halfKey h + a) w

/-! ## The event matrix (R547, R556 to R558) -/

/-- A master may write a consumer's EM_CCFG and EM_EN: the host, or a steward of the owning half where SECURE is clear
(R547). -/
def State.ownsConsumer (s : State) (m : Master) (c : Nat) : Bool :=
  isHost m || (!(s.consumer c).secure && decide ((s.consumer c).owner = (s.masterHalf m).num))

/-- A write of EM_CCFG: OWNER 3 is refused, and so is SECURE from a steward (R547, R556). -/
def writeCcfg (m : Master) (c : Nat) (w : Word) (s : State) : State :=
  let k := s.consumer c
  if !s.ownsConsumer m c || (!isHost m && (w.getLsbD 17 || decide (bits w 19 18 = 3))) then
    s.refuseWrite (s.masterHalf m) Reg.EM_CCFG
  else if bits w 19 18 = 3 then s
  else
    s.setConsumer c
      { k with
        owner := bits w 19 18, secure := w.getLsbD 17, en := w.getLsbD 15, pw := bits w 14 7, mode := bits w 2 0 }

/-- A write of a word of EM_EN: the thirteenth commits (R557). -/
def writeEnables (m : Master) (v : Option Half) (c a : Nat) (w : Word) (s : State) : State :=
  if !s.ownsConsumer m c then s.refuseWrite (s.masterHalf m) a
  else if a = 0x101C then
    let k := s.consumer c
    let word := fun i =>
      if i = 12 then w else s.staged m (viewAddr v (0x1010 + i)) (wordAt k.enables.toNat i)
    let e := ((List.range 13).map (fun i => (word i).toNat * 0x100000 ^ i)).sum
    let s1 := (List.range 12).foldl (fun s i => s.unstage m (viewAddr v (0x1010 + i))) s
    s1.setConsumer c { s1.consumer c with enables := BitVec.ofNat 256 e }
  else s.stage m (viewAddr v a) w

/-- A write of EM_CSTAT or EM_CDROP: a consumer is run by its owner (R26). -/
def writeConsumer (m : Master) (c a : Nat) (w : Word) (s : State) : State :=
  let k := s.consumer c
  if !isHost m && !decide (k.owner = (s.masterHalf m).num) then s.refuseWrite (s.masterHalf m) a
  else if a = Reg.EM_CSTAT then (if w.getLsbD 0 then s.setConsumer c { k with pend := false } else s)
  else s.setConsumer c { k with drop := w.toNat }

/-- A write of EM_GPEDGE: the fields of the pins whose group the master's half runs (R558). -/
def writeGpedge (m : Master) (n : Nat) (w : Word) (s : State) : State :=
  let pins := (List.range 10).filter (fun i => decide (10 * n + i < 32))
  let mine := pins.filter (fun i => s.blockWriteOk m (blkGp (10 * n + i)))
  if mine = [] then s.refuseWrite (s.masterHalf m) (Reg.EM_GPEDGE + n)
  else
    mine.foldl (fun s i =>
      let key := oneKey + Reg.EM_GPEDGE + n
      s.setReg key (setBits (s.reg key) (2 * i + 1) (2 * i) (bits w (2 * i + 1) (2 * i)))) s

def writeMatrix (m : Master) (v : Option Half) (a : Nat) (w : Word) (s : State) : State :=
  if a = Reg.EM_CSEL then s.plainWrite (cselKey v + Reg.EM_CSEL) w
  else if a < 0x101D then
    match s.selected v with
    | some c =>
      if a = Reg.EM_CCFG then writeCcfg m c w s
      else if a = Reg.EM_CSTAT ∨ a = Reg.EM_CDROP then writeConsumer m c a w s
      else if 0x1010 ≤ a then writeEnables m v c a w s
      else s
    | none => s
  else if 0x1020 ≤ a ∧ a < 0x1024 then writeGpedge m (a - 0x1020) w s
  else if a = Reg.EM_SWEV then writeSwev w s
  else s

/-! ## Bays -/

/-- A write of a timebase register in one copy, or of a general timer (R111 to R125, R133 to R139). -/
def writeTimebase (i off : Nat) (w : Word) (s : State) : State :=
  if off = Reg.TB_CTL then restBay i (writeTbCtl i w s)
  else if off = Reg.TB_PRE then writeStaged i .pre w s
  else if off = Reg.TB_PER then writeStaged i .per w s
  else if off = Reg.TB_COUNT then writeTbCount i w s
  else if off = Reg.TB_CMP then writeTbCmp i w s
  else if off = Reg.TB_CAP_CFG then s.plainWrite (tbKey i + off) (setBits w 5 5 0)
  else if 0x40 ≤ off ∧ off < 0x50 then writeStaged i (.phase (Fin.ofNat 16 (off - 0x40))) w s
  else s.plainWrite (tbKey i + off) w

/-- A write of a terminal's registers (R156, R162, R168 to R174, R194, R195). -/
def writeTerminal (m : Master) (b t o : Nat) (a : Nat) (w : Word) (s : State) : State :=
  if o = Reg.TS_TALK_CMD then
    if w.getLsbD 16 then s.bayWrite m b a (fun h s => cancelTalk h t s)
    else writeTalk m t (bits w 15 12) (bits w 11 0) s
  else if o = Reg.TS_STAT then
    s.bayWrite m b a (fun h s =>
      let s1 := s.plainWrite (termKey h t + o) (setBits w 0 0 0)
      if w.getLsbD 0 then clearTrip h t s1 else s1)
  else if o = Reg.TS_CTL ∧ w.getLsbD 0 = false then
    s.bayWrite m b a (fun h s => syncPad t (noteBand h t (s.slot h t).band (restSlot h t (s.plainWrite (termKey h t + o) w))))
  else if o = Reg.TD_CFG then s.bayWrite m b a (fun h s => refreshHealth h t (s.plainWrite (termKey h t + o) w))
  else s.bayWrite m b a (fun h s => s.plainWrite (termKey h t + o) w)

/-- A write of LE_CFG: PROTO, FE and LOOP change only while the engine is stopped (R275). -/
def writeLeCfg (h : Half) (b : Nat) (w : Word) (s : State) : State :=
  let key := bayKey h b
  let old := s.reg (key + Reg.LE_CFG)
  if (s.engine h b).mode = .stopped ∨ bits w 3 0 = bits old 3 0 then s.plainWrite (key + Reg.LE_CFG) w
  else (s.plainWrite (key + Reg.LE_CFG) (setBits w 3 0 (bits old 3 0))).put key Reg.LE_STAT_BAD 1

/-- A write of LE_CTL: RUN, then ABORT, RESUME and STEP (R248, R262, R265, R276). -/
def writeLeCtl (h : Half) (b : Nat) (w : Word) (level : Bool) (s : State) : State :=
  let key := bayKey h b
  let s1 := if w.getLsbD 0 then leTryStart h b (s.put key Reg.LE_CTL_RUN 1) else leStop h b (s.put key Reg.LE_CTL_RUN 0)
  let s2 := if w.getLsbD 1 then leAbort h b s1 else s1
  let s3 := if w.getLsbD 3 then leResume h b s2 else s2
  if w.getLsbD 2 then leStep h b level s3 else s3

/-- A write of a line's registers (R204 to R211, R229 to R246). -/
def writeLine (m : Master) (b off a : Nat) (w : Word) (s : State) : State :=
  if off = Reg.LN_CFG then lnCfgWrite m b (fun _ _ => w) s
  else if off = Reg.LN_TXD then lineWrite m b off (fun h s => writeTxData h b w s) s
  else if off = Reg.LN_TXID then lineWrite m b off (fun h s => submit h b (bits w 15 0) s) s
  else if off = Reg.LN_CANCEL then lineWrite m b off (fun h s => cancelMask h b (bits w 7 0) s) s
  else if off = Reg.LN_RXPOP then lineWrite m b off (fun h s => if w.getLsbD 0 then popRx h b s else s) s
  else if off = Reg.LS_SYN then
    if s.bayWriteOk m b then
      let s1 := synthFreq (b / 8) (bits w 8 0) s
      if w.getLsbD 19 then synthCal (b / 8) s1 else s1
    else s.refuseWrite (s.masterHalf m) a
  else lineWrite m b off (fun h s => s.plainWrite (bayKey h b + off) w) s

/-- A write of a line engine's registers (R261 to R265, R275 to R281). -/
def writeEngine (m : Master) (b off a : Nat) (w : Word) (s : State) : State :=
  if off = Reg.LE_CFG then lineWrite m b off (fun h s => writeLeCfg h b w s) s
  else if off = Reg.LE_CTL then
    let v := Config.lineLevel s.freeCount
    lineWrite m b off (fun h s => writeLeCtl h b w v s) { s with freeCount := s.freeCount + 1 }
  else if off = Reg.LE_SWAP then
    lineWrite m b off (fun h s => if w.getLsbD 0 then leAskSwap h b (w.getLsbD 2) (w.getLsbD 1) s else s) s
  else if 0x208 ≤ off ∧ off < 0x210 then lineWrite m b off (fun h s => writeLeStaged h b off w s) s
  else if off = 0x210 ∨ off = 0x212 ∨ off = Reg.LE_PD_LO then
    if s.bayWriteOk m b then s.stage m a w else s.refuseWrite (s.masterHalf m) a
  else if off = 0x211 ∨ off = 0x213 then
    let lo := tblFind s.staging (stageKey m (a - 1))
    let s1 := lineWrite m b off (fun h s =>
      let low := lo.getD (s.reg (bayKey h b + off - 1))
      writeLeStaged h b off w (writeLeStaged h b (off - 1) low s)) s
    if s.bayWriteOk m b then s1.unstage m (a - 1) else s1
  else if off = Reg.LE_PD_HI then
    let lo := tblFind s.staging (stageKey m (a - 1))
    let s1 := lineWrite m b off (fun h s => leCommitWord h b lo w s) s
    if s.bayWriteOk m b then s1.unstage m (a - 1) else s1
  else lineWrite m b off (fun h s => s.plainWrite (bayKey h b + off) w) s

/-- The selected recogniser of a copy with a new content (R319). -/
def setChosen (h : Half) (b : Nat) (f : Recog → Recog) (s : State) : State :=
  let i := s.get (bayKey h b) Reg.RG_SEL_SEL
  s.setRecog h b i (f (s.recog h b i))

/-- A write of a bay's pipeline, recognisers and coding in one copy (R284 to R320, R344 to R347). -/
def writePipe (h : Half) (b off : Nat) (w : Word) (s : State) : State :=
  if off = Reg.PL_CFG then writePlCfg h b w s
  else if off = Reg.PL_IDENT then writeIdent h b (bits w 6 0) s
  else if off = Reg.RG_CFG then writeRgCfg h b (s.get (bayKey h b) Reg.RG_SEL_SEL) w s
  else if off = Reg.RG_A then setChosen h b (fun r => { r with a := w }) s
  else if off = Reg.RG_B then setChosen h b (fun r => { r with b := w }) s
  else if off = Reg.RG_PC then setChosen h b (fun r => { r with pc := w }) s
  else if off = Reg.RG_ST then setChosen h b (fun r => { r with pend := r.pend && !w.getLsbD 17 }) s
  else if off = Reg.RG_HITS then setChosen h b (fun r => { r with hits := w.toNat }) s
  else if off = Reg.RG_ACK then writeRgAck h b w s
  else s.plainWrite (bayKey h b + off) w

/-- A write of a bay's registers (R24). An envelope register is written by no steward (R36). -/
def writeBay (m : Master) (a : Nat) (w : Word) (s : State) : State :=
  let b := a / 0x400 % 64
  let off := a % 0x400
  if isEnvelope off then (if isHost m then s else s.refuseWrite (s.masterHalf m) a)
  else if off = Reg.ENV_BAYCNT then
    (if s.bayWriteOk m b then s.plainWrite (padKey b + off) w else s.refuseWrite (s.masterHalf m) a)
  else if 0x80 ≤ off ∧ off < 0x180 then writeTerminal m b (16 * b + (off - 0x80) / 16) (off % 16) a w s
  else if 0x1E0 ≤ off ∧ off < 0x1E4 ∧ b % 8 ≠ 0 then (if isHost m then s else s.refuseWrite (s.masterHalf m) a)
  else if 0x180 ≤ off ∧ off < 0x200 then writeLine m b off a w s
  else if 0x200 ≤ off ∧ off < 0x300 then writeEngine m b off a w s
  else if off = Reg.CC_FLUSH then writeFlush m b w s
  else if off = Reg.PL_TD then plTdWrite m b w s
  else if off = Reg.PL_CD then plCdWrite m b w s
  else if off = Reg.PL_CCMT then ccmtWrite m b w s
  else if off = Reg.CC_D then ccdWrite m b w s
  else if 0x300 ≤ off then s.bayWrite m b a (fun h s => writePipe h b off w s)
  else if off < 0x18 ∨ (0x40 ≤ off ∧ off < 0x50) then s.bayWrite m b a (fun h s => writeTimebase (bayIx h b) off w s)
  else s.bayWrite m b a (fun h s => s.plainWrite (bayKey h b + off) w)

/-! ## Memory control -/

def writeMemory (h : Half) (a : Nat) (w : Word) (s : State) : State :=
  if a = Reg.IM_D then writeImD h w s else s.plainWrite (halfKey h + a) w

/-! ## Shared blocks (R26) -/

/-- A write of a link's registers (R439, R456). -/
def writeLink (l o : Nat) (w : Word) (s : State) : State :=
  if o = 0 then
    let s1 := followEnable l (s.plainWrite (linkKey l + Reg.LK_CTL) w)
    if w.getLsbD 2 then askSwap l s1 else s1
  else s.plainWrite (linkKey l + Reg.LK_CTL + o) w

/-- A write of the router's registers. A steward's write that would change ENV_REMOTE is refused there and counted (R36, R447);
its other fields are written. -/
def writeFabric (m : Master) (v : Option Half) (a : Nat) (w : Word) (s : State) : State :=
  if a = Reg.FAB_CTL then
    let s1 := writeFabCtl w false s
    if !isHost m && decide (w.getLsbD 8 ≠ s.flag oneKey Reg.FAB_CTL_ENV_REMOTE) then s1.refuseWrite (s.masterHalf m) a else s1
  else if a = 0x30013 ∨ a = 0x30014 then s.stage m (viewAddr v a) w
  else if a = 0x30015 then commitTset m w s
  else if 0x30100 ≤ a ∧ a < 0x30180 then writeLink (a / 16 % 8) (a % 16) w s
  else s.plainWrite (oneKey + a) w

def writeArchive (m : Master) (v : Option Half) (a : Nat) (w : Word) (s : State) : State :=
  if a = Reg.AR_CTL then writeArcCtl w s
  else if a = Reg.AR_PAIR then writeArcPair w s
  else if a = Reg.AR_FMT then writeArcFmt w s
  else if a = Reg.AR_REPL then writeArcRepl w s
  else if a = Reg.AR_ORIG_FREE then writeOrigFree w s
  else if a = Reg.AR_REQ_ARG ∨ a = Reg.AR_REQ_ARG + 1 then writeWide m v (oneKey + Reg.AR_REQ_ARG) Reg.AR_REQ_ARG 2 a w s
  else if a = Reg.AR_REQ_OP then writeArcOp (s.masterHalf m) w s
  else s.plainWrite (oneKey + a) w

def writeMet (m : Master) (v : Option Half) (a : Nat) (w : Word) (s : State) : State :=
  if a = Reg.MET_CMD0 ∨ a = Reg.MET_CMD1 then s.stage m (viewAddr v a) w
  else if a = Reg.MET_CMD2 then commitMetCmd m w s
  else s.plainWrite (oneKey + a) w

def writeTw (a : Nat) (w : Word) (s : State) : State :=
  let b := a / 0x20 % 8
  let o := a % 0x20
  if a = Reg.TW7_PMB then writePmb w s
  else if 0x60100 ≤ a then s
  else if o = 0x00 then writeTwCfg b w s
  else if o = 0x07 then writeTwCcmd b w s
  else if o = 0x09 then writeTwCbd b w s
  else if o = 0x0C then pushTtx b (BitVec.ofNat 8 w.toNat) s
  else s.plainWrite (oneKey + a) w

/-- A write of GP_CFG: PULL 3, and SRC 2 or 3, are not stored and set GP_STAT.BAD (R681). -/
def writeGpCfg (p : Nat) (w : Word) (s : State) : State :=
  let key := oneKey + p
  let badPull := decide (bits w 7 6 = 3)
  let badSrc := decide (2 ≤ bits w 4 3)
  let w1 := if badPull then setBits w 7 6 (s.get key Reg.GP_CFG_PULL) else w
  let w2 := if badSrc then setBits w1 4 3 (s.get key Reg.GP_CFG_SRC) else w1
  let s1 := s.plainWrite (key + Reg.GP_CFG) w2
  if badPull || badSrc then s1.put oneKey Reg.GP_STAT_BAD 1 else s1

/-- A write of a shared block's register that its runner may write. -/
def writeBlock (m : Master) (v : Option Half) (a : Nat) (w : Word) (s : State) : State :=
  if a < 0x40000 then writeFabric m v a w s
  else if a < 0x50000 then writeArchive m v a w s
  else if a < 0x60000 then writeMet m v a w s
  else if a < 0x70000 then writeTw a w s
  else if 0x71000 ≤ a ∧ a < 0x71100 then writeTimebase (128 + a / 0x20 % 8) (a % 0x20) w s
  else if 0x72000 ≤ a ∧ a < 0x72020 then writeGpCfg (a % 0x20) w s
  else s.plainWrite (oneKey + a) w

/-! ## The Vigil domain -/

/-- A write of VW_SEL: a steward writes a slot of its own half (R555). -/
def writeVwSel (m : Master) (a : Nat) (w : Word) (s : State) : State :=
  if isVc m || isHost m || decide (Half.ofBit (w.getLsbD 18) = s.masterHalf m) then s.plainWrite (oneKey + a) w
  else s.refuseWrite (s.masterHalf m) a

/-- A write of VA_CMP: the third word commits and arms the compare (R666). -/
def writeAlarm (m : Master) (v : Option Half) (a : Nat) (w : Word) (s : State) : State :=
  let s1 := writeWide m v (oneKey + Reg.VA_CMP) Reg.VA_CMP 3 a w s
  if a = Reg.VA_CMP + 2 then s1.put oneKey Reg.VA_STAT_ARMED 1 else s1

/-- REF_BOOTWAIT is written by the VC and by the host (R83). -/
def writeBootwait (m : Master) (a : Nat) (w : Word) (s : State) : State :=
  if isVc m || isHost m then s.plainWrite (oneKey + a) w else s.refuseWrite (s.masterHalf m) a

def writeVigil (m : Master) (v : Option Half) (a : Nat) (w : Word) (s : State) : State :=
  if a = Reg.SEAT_REQ then writeSeatReq m w s
  else if a = Reg.REF_BOOTWAIT then writeBootwait m a w s
  else if a = Reg.BOOT_SEL then writeBootSel .A w s
  else if a = Reg.BOOT_SEL + 1 then writeBootSel .B w s
  else if a = Reg.RU_CTL then writeRuCtl w s
  else if a = Reg.VC_LOAD then writeVcLoad w s
  else if 0x7E070 ≤ a ∧ a < 0x7E080 then writeVwSel m a w s
  else if a = Reg.VM_D then writeVmD (v.getD (s.masterHalf m)) w s
  else if a = Reg.PWR_REQ then
    (if bits w 19 18 = 0 then takeWake (writePwrReq m 0 (bits w 15 0) s) else writePwrReq m (bits w 19 18) (bits w 15 0) s)
  else if a = Reg.PWR_PAD then writePwrPad w s
  else if 0x7E0A8 ≤ a ∧ a < 0x7E0AB then writeAlarm m v a w s
  else if 0x7E0B0 ≤ a ∧ a < 0x7E0B8 then writeWide m v (oneKey + a - a % 2) (a - a % 2) 2 a w s
  else if 0x7E0C0 ≤ a ∧ a < 0x7E0E0 then writeStw m v 8 (a - 0x7E0C0) a w s
  else if a = Reg.VC_BELL then writeVcBell w s
  else s.plainWrite (oneKey + a) w

/-! ## The I/O space (R32) -/

/-- A write of an address below 0x8_0000 in a view. -/
def writeIn (m : Master) (v : Option Half) (a : Nat) (w : Word) (s : State) : State :=
  if a < 0x1000 then (match v with | some h => writeHalf m h a w s | none => s)
  else if a < 0x2000 then writeMatrix m v a w s
  else if a < 0x10000 then s
  else if a < 0x20000 then writeBay m a w s
  else if a < 0x30000 then (match v with | some h => writeMemory h a w s | none => s)
  else if 0x7E000 ≤ a then writeVigil m v a w s
  else
    match addrBlk a with
    | some k => s.blockWrite m k a (writeBlock m v a w)
    | none => s.plainWrite (oneKey + a) w

/-- A write by a steward or the VC (R8, R32, R661), by the debug path as the steward it addresses (R519), or by the host in
its own view (R612). -/
def ioWrite (m : Master) (a : Nat) (w : Word) (s : State) : State :=
  let h := s.masterHalf m
  if 0x80000 ≤ a then s
  else if isHost m then writeIn m none a w s
  else if isVc m && decide (a < 0x70000) then
    (if s.windowDown h then s.put oneKey Reg.VW_WIN_DOWN 1 else writeIn m (some h) a w s)
  else writeIn m (some h) a w s

/-- REGISTER_WRITE (R6). -/
def execRegisterWrite (m : Master) (addr : Nat) (value : Word) (s : State) : Result :=
  if decide (addr < 0x100000) then
    .next (ioWrite m addr value s)
  else .fault .illFormed

end Sys2Proof.Machine
end

