-- ==== Sys2Proof/Machine/Ports.lean ====
section
/-! DEFINITION. The command ports: transactions, packets, queues, quick registers, alarms, and the start of commands (R578 to
R607). A transaction is one command, from the fall of CS_N to its rise; its operands are what the host clocks. -/

namespace Sys2Proof.Machine

/-! ## The state of a port as it shows (R583, R591, R599) -/

/-- The bytes of the commands in a port's queue. -/
def Port.queueBytes (x : Port) : Nat := (x.queue.map (fun c => c.params.length + 6)).sum

/-- The queue can take a packet of so many bytes (R591). -/
def Port.room (x : Port) (n : Nat) : Bool := decide (x.queue.length < 16) && decide (x.queueBytes + n ≤ 16384)

/-- The lane width in force (R585). -/
def State.quad (s : State) (p : Nat) : Bool := s.flag (portKey p) Reg.CP_CFG_QUAD

/-- An event consumer owned by the host has PEND = 1 (R583). -/
def State.hostEvent (s : State) : Bool :=
  (List.range 144).any (fun c => decide ((s.consumer c).owner = 2) && (s.consumer c).pend)

/-- The status byte (R583). -/
def State.statusByte (s : State) (p : Nat) : Byte :=
  let x := s.port p
  BitVec.ofNat 8
    (64 * flagNat (decide (s.power.mode = .run) && x.room 4096) + 32 * flagNat (!x.replies.isEmpty)
      + 16 * flagNat (!x.alarms.isEmpty) + 8 * flagNat s.hostEvent + 4 * flagNat x.nak + 2 * flagNat (s.quad p) + 1)

/-- CPx_ATN_N is pulled low (R599). -/
def State.attention (s : State) (p : Nat) : Bool :=
  let x := s.port p
  decide (s.power.mode = .run)
    && !s.power.resetLow
    && ((!x.replies.isEmpty && s.flag (portKey p) Reg.CP_CFG_ATN_RPL)
      || (!x.alarms.isEmpty && s.flag (portKey p) Reg.CP_CFG_ATN_ALM)
      || (s.hostEvent && s.flag (portKey p) Reg.CP_CFG_ATN_EVQ))

/-! ## How a transaction ends (R584, R588, R589, R601, R607) -/

/-- What the device drove in the transaction. -/
def driven (p : Nat) (b : List Byte) (s : State) : State := s.setPort p { s.port p with out := b }

/-- The counter of a refusal (R607). -/
def refusalCounter (st : Nat) : Nat :=
  if st = St.TRUNCATED then 1 else if st = St.CRC then 2 else if st = St.QUEUE_FULL then 4 else 3

/-- The latest transaction that was refused or overran (R596). -/
def noteLast (p st op count tag : Nat) (s : State) : State :=
  s.setPort p { s.port p with lastSt := st, lastOp := op, lastCount := min 4095 count, lastTag := tag }

/-- A transaction is refused with a code; the bytes received give its opcode, count and tag. -/
def refusePort (p st : Nat) (b : List Byte) (count : Nat) (s : State) : State :=
  let s1 := noteLast p st (payloadField b 0 1) count (if count < 2 then 0 else payloadField b 1 1) s
  ((s1.setPort p { s1.port p with nak := true }).put (portKey p) Reg.CP_STAT_REFUSED 1).count
    (portKey p + Reg.CP_CNT + refusalCounter st) 1

/-- A transaction is accepted, and this many bytes came after its end (R589). -/
def acceptPort (p extra : Nat) (b : List Byte) (count : Nat) (s : State) : State :=
  let s1 := s.setPort p { s.port p with nak := false }
  if extra = 0 then s1
  else
    let s2 := noteLast p St.OVERRUN (payloadField b 0 1) count (if count < 2 then 0 else payloadField b 1 1) s1
    (s2.put (portKey p) Reg.CP_STAT_OVERRUN 1).count (portKey p + Reg.CP_CNT + 5) extra

/-- The port's framing answers: the device is not in OFF, and RESET_N, which puts its outputs in high impedance, is high
(R642, R653). -/
def State.portAlive (s : State) : Bool := s.power.vaon && decide (s.power.mode ≠ .off) && !s.power.resetLow

/-- The device is in SLEEP or DEEP. -/
def State.asleep (s : State) : Bool := decide (s.power.mode = .sleep) || decide (s.power.mode = .deep)

/-- A transaction other than STATUS asks for RUN (R601). -/
def wakeByPort (p : Nat) (s : State) : State :=
  takeWake (s.setPower (if p = 0 then { s.power with portWakeA := true } else { s.power with portWakeB := true }))

/-- A transaction that is no packet: its effect in RUN, or its refusal in SLEEP and DEEP. -/
def transact (p : Nat) (b : List Byte) (count : Nat) (f : State → State) (s : State) : State :=
  if !s.portAlive then driven p [] s
  else if s.asleep then wakeByPort p (refusePort p St.ASLEEP b count (driven p [s.statusByte p] s))
  else f s

/-- Bytes of idle output. -/
def idleBytes (n : Nat) : List Byte := List.replicate n 0xFF

/-! ## STATUS, LANES (R585) -/

/-- STATUS: the status byte for the opcode and for each further byte. -/
def execStatus (p : Fin 2) (n : Nat) (s : State) : Result :=
  .next (if s.portAlive then driven p.val (List.replicate (n + 1) (s.statusByte p.val)) s else driven p.val [] s)

/-- LANES: the bytes after the opcode; a transaction that ends before both are whole is truncated. -/
def execLanes (p : Fin 2) (b : List Byte) (s : State) : Result :=
  let all := (5 : Byte) :: b
  .next (transact p.val all all.length (fun s =>
    let s1 := driven p.val [s.statusByte p.val] s
    match b with
    | m :: c :: _ =>
      if (m = 1 ∨ m = 4) ∧ c = m ^^^ 0xFF then
        acceptPort p.val 0 all all.length (s1.put (portKey p.val) Reg.CP_CFG_QUAD (if m = 4 then 1 else 0))
      else refusePort p.val St.BAD_PARAM all all.length s1
    | _ => refusePort p.val St.TRUNCATED all all.length s1) s)

/-! ## PEEK (R595 to R597) -/

/-- One bit per bay, from the holder's copy of its terminals. -/
def State.bayMap (s : State) (f : Fld) : Nat :=
  ((List.range 64).map (fun b =>
    if (List.range 16).any (fun i => s.flag (termKey (s.holder b) (16 * b + i)) f) then 2 ^ b else 0)).sum

/-- The value of a quick register; none where the number is unassigned (R596). -/
def State.quick (s : State) (p : Fin 2) (q : Nat) : Option Word :=
  let m : Master := .port ⟨p.val, by omega⟩
  let x := s.port p.val
  let io (a : Nat) : Option Word := some (s.ioValue m none a)
  match q with
  | 0x00 => some (s.quickPort p.val)
  | 0x01 => some (BitVec.ofNat 20 (x.lastSt * 0x1000 + x.lastOp))
  | 0x02 => some (BitVec.ofNat 20 (x.lastCount * 0x100 + x.lastTag))
  | 0x03 => some (s.devCfg (s.masterHalf m))
  | 0x04 => some s.owners
  | 0x05 => io Reg.REF_STAT
  | 0x0E => io Reg.ENV_STAT
  | 0x0F => io Reg.FAB_STAT
  | 0x10 => io Reg.FAB_ADDR
  | 0x11 => some (wordAt s.timeNs 0)
  | 0x12 => some (wordAt x.latch 1)
  | 0x13 => some (wordAt x.latch 2)
  | 0x14 => io Reg.AR_STAT
  | 0x15 => io Reg.MET_STAT
  | 0x16 => some (s.reg (halfKey .A + Reg.HLT_STAT))
  | 0x17 => some (s.reg (halfKey .B + Reg.HLT_STAT))
  | 0x20 => some (s.qpend 0)
  | 0x21 => some (s.qpend 1)
  | _ =>
    if 0x06 ≤ q ∧ q < 0x0A then some (wordAt s.seats.toNat (q - 0x06))
    else if 0x0A ≤ q ∧ q < 0x0E then some (wordAt s.orphans.toNat (q - 0x0A))
    else if 0x18 ≤ q ∧ q < 0x1C then some (wordAt (s.bayMap Reg.TS_STAT_TRIP) (q - 0x18))
    else if 0x1C ≤ q ∧ q < 0x20 then some (wordAt (s.bayMap Reg.TD_STAT_HCHG) (q - 0x1C))
    else none

/-- The data and CRC bytes of a PEEK (R595). -/
def State.peekBytes (s : State) (p : Fin 2) (q : Byte) : List Byte :=
  let d := match s.quick p q.toNat with
    | some w => bigEndian 3 (0x800000 + w.toNat)
    | none => bigEndian 3 0
  d ++ bigEndian 2 (crc16 ([1, q] ++ d))

/-- PEEK: the number that the host sends, none where CS_N rises before it is whole, and the bytes it clocks after that. -/
def execPeek (p : Fin 2) (q : Option Byte) (n : Nat) (s : State) : Result :=
  let all := (1 : Byte) :: q.toList ++ List.replicate n 0
  .next (transact p.val all all.length (fun s =>
    let st := s.statusByte p.val
    match q with
    | none => refusePort p.val St.TRUNCATED all 1 (driven p.val [st] s)
    | some q =>
      let head := if s.quad p.val then [st] else [st, st]
      let s1 := driven p.val (head ++ (s.peekBytes p q).take n ++ idleBytes (n - 5)) s
      let s2 := if q = 0x11 then s1.setPort p.val { s1.port p.val with latch := s1.timeNs } else s1
      acceptPort p.val (n - 5) all all.length (s2.count (portKey p.val + Reg.CP_CNT + 8) 1)) s)

/-! ## FETCH, REFETCH, ALARMS (R593, R598) -/

/-- Bytes that the device sends: those asked for, then 0xFF. -/
def sendBytes (b : List Byte) (n : Nat) : List Byte := b.take n ++ idleBytes (n - b.length)

/-- A transaction that sends a packet whole or in part, or 0xFF where there is none. -/
def sendPacket (p op : Nat) (b : Option (List Byte)) (host : List Byte) (f : State → State) (s : State) : State :=
  let n := host.length
  let all := BitVec.ofNat 8 op :: host
  transact p all all.length (fun s =>
    let st := s.statusByte p
    match b with
    | some r =>
      let s1 := driven p (st :: sendBytes r n) s
      acceptPort p (n - r.length) all all.length (if r.length ≤ n then f s1 else s1)
    | none => acceptPort p 0 all all.length (driven p (st :: idleBytes n) s)) s

/-- FETCH: what the host sends while it clocks the bytes after the opcode and the turnaround. -/
def execFetch (p : Fin 2) (host : List Byte) (s : State) : Result :=
  let r := (s.port p.val).replies.head?
  .next (sendPacket p.val 2 r host (fun s =>
    s.setPort p.val { s.port p.val with replies := (s.port p.val).replies.tail, removed := r }) s)

/-- REFETCH. -/
def execRefetch (p : Fin 2) (host : List Byte) (s : State) : Result :=
  .next (sendPacket p.val 3 (s.port p.val).removed host id s)

/-- ALARMS. -/
def execAlarms (p : Fin 2) (host : List Byte) (s : State) : Result :=
  .next (sendPacket p.val 4 (s.port p.val).alarms.head? host (fun s =>
    s.setPort p.val { s.port p.val with alarms := (s.port p.val).alarms.tail, dropped := false }) s)

/-! ## Packets (R586 to R590, R594) -/

/-- A tag is in use: by a command queued, executing or outstanding, or by a reply (R594). -/
def Port.tagUsed (x : Port) (tag : Nat) : Bool :=
  x.queue.any (fun c => decide (c.tag = tag)) || x.exec.any (fun c => decide (c.tag = tag))
    || x.routed.any (fun e => decide (e.1.tag = tag)) || x.replies.any (fun r => decide (payloadField r 1 1 = tag))

/-- The length of a packet by its header. -/
def packetNeed (b : List Byte) : Nat := 6 + payloadField b 2 2 % 4096

/-- LEN is valid (R586). -/
def lenOk (b : List Byte) : Bool :=
  decide (payloadField b 2 2 / 4096 % 8 = 0) && decide (payloadField b 2 2 % 4096 ≤ 4090)

/-- The code a packet is refused with, if it is: the bytes, of which n are whole (R588). An invalid LEN is refused as soon as
the header is whole. -/
def State.packetRefusal (s : State) (p : Nat) (b : List Byte) (n : Nat) : Option Nat :=
  let x := s.port p
  if n < 4 then some St.TRUNCATED
  else if !lenOk b then some St.TOO_LONG
  else if n < packetNeed b then some St.TRUNCATED
  else if payloadField b 2 2 ≥ 0x8000 ∧ packetNeed b < 8 then some St.BAD_PARAM
  else if s.asleep then some St.ASLEEP
  else if crc16 (b.take (packetNeed b - 2)) ≠ payloadField b (packetNeed b - 2) 2 then some St.CRC
  else if x.tagUsed (payloadField b 1 1) then some St.TAG_BUSY
  else if !x.room (packetNeed b) then some St.QUEUE_FULL
  else none

/-- What the device drives during a command packet (R589): in single lane the status byte for each byte of it. -/
def State.packetOut (s : State) (p need n : Nat) : List Byte :=
  let st := s.statusByte p
  if s.quad p then st :: idleBytes (n - need) else List.replicate (min n need) st ++ idleBytes (n - need)

/-- A taken packet enters the queue. -/
def enqueue (p : Nat) (b : List Byte) (s : State) : State :=
  match parseCmd none (b.take (packetNeed b)) with
  | some c => (s.setPort p { s.port p with queue := (s.port p).queue ++ [c] }).count (portKey p + Reg.CP_CNT) 1
  | none => s

/-- PACKET_TAKEN (R585, R588 to R590): the bytes of the transaction from its opcode on; where cut is set CS_N rises within the
last of them. An opcode that is reserved, or not whole, ends here too. -/
def execPacketTaken (p : Fin 2) (b : List Byte) (cut : Bool) (s : State) : Result :=
  let n := b.length - (if cut then 1 else 0)
  let op := payloadField b 0 1
  .next (if !s.portAlive then driven p.val [] s
    else if b = [] then s
    else if n = 0 then
      let s1 := refusePort p.val St.TRUNCATED b 0 (driven p.val [s.statusByte p.val] s)
      if s.asleep then wakeByPort p.val s1 else s1
    else if op < 6 ∨ op = 0xFF then s
    else if op < 0x10 then
      transact p.val b n (fun s =>
        refusePort p.val St.BAD_OPCODE b n (driven p.val (s.statusByte p.val :: idleBytes (b.length - 1)) s)) s
    else
      let need := packetNeed b
      let bad := decide (n < 4) || !lenOk b
      let s1 := driven p.val (s.packetOut p.val (if bad then b.length else need) b.length) s
      let extra := if bad then 0 else b.length - need
      match s.packetRefusal p.val b n with
      | some st =>
        let s2 := refusePort p.val st b n s1
        let s3 :=
          if st = St.CRC ∧ 0 < extra then
            (s2.put (portKey p.val) Reg.CP_STAT_OVERRUN 1).count (portKey p.val + Reg.CP_CNT + 5) extra
          else s2
        if s.asleep then wakeByPort p.val s3 else s3
      | none => acceptPort p.val extra b n (enqueue p.val b s1))

/-! ## The start of a command (R591, R600, R602, R609, R610) -/

/-- The number of the path a command came on: CPA, CPB, or the fabric (R514). -/
def Cmd.path (c : Cmd) (p : Nat) : Nat := match c.origin with | some _ => 2 | none => p

/-- The key of a path's nonce: CPA, CPB, or 2 + the fabric source. -/
def Cmd.nonceKey (c : Cmd) (p : Nat) : Nat := match c.origin with | some (a, _) => 2 + a | none => p

/-- An envelope session is open on the command's path (R514). -/
def State.inSession (s : State) (p : Nat) (c : Cmd) : Bool :=
  s.flag oneKey Reg.ENV_STAT_OPEN && decide (s.get oneKey Reg.ENV_STAT_PATH = c.path p)
    && (match c.origin with | some (a, _) => decide (s.get oneKey Reg.ENV_SRC_SRC = a) | none => true)

/-- The paths of R610. -/
inductive CmdPath where
  | any
  | port
  | session
  | portSession
  deriving DecidableEq, Repr

/-- The path of an opcode; none where the opcode is not listed (R611 to R617). -/
def cmdPath (op : Nat) : Option CmdPath :=
  if op ∈ [0x10, 0x11, 0x12, 0x13, 0x14, 0x15, 0x20, 0x21, 0x22, 0x23, 0x30, 0x31, 0x40, 0x41, 0x42, 0x50, 0x58, 0x59, 0x70, 0x71, 0x72]
  then some .any
  else if op = 0x43 ∨ op = 0x60 ∨ op = 0x61 then some .port
  else if op = 0x73 ∨ op = 0x74 ∨ op = 0x75 then some .session
  else if 0x76 ≤ op ∧ op ≤ 0x7A then some .portSession
  else none

/-- The refusal of a command by its opcode and its path (R447, R609, R610). -/
def State.pathRefusal (s : State) (p : Nat) (c : Cmd) : Option Nat :=
  match cmdPath c.op with
  | none => some St.BAD_OPCODE
  | some k =>
    let far := c.origin.isSome
    if far && (decide (k = .port) || decide (k = .portSession)) then some St.FAB_REFUSED
    else if far && isEnvelopeOp c.op && !s.flag oneKey Reg.FAB_CTL_ENV_REMOTE then some St.ENVELOPE_LOCKED
    else if (decide (k = .session) || decide (k = .portSession)) && !s.inSession p c then some St.ENVELOPE_LOCKED
    else none

/-- A boot flash command (R616): its refusal, or the operation it asks of the flash. -/
def bootflashCmd (p : Nat) (b : List Byte) (s : State) : State :=
  let b0 := payloadField b 0 1
  let f := b0 / 128
  let op := b0 % 4
  let addr := payloadField b 1 3
  let len := payloadField b 4 2 + 1
  let x := flashHalf f
  let o : FlashOp := ⟨.port p, op, addr, len, 0, b.drop 6⟩
  if b.length < 6 ∨ b0 / 4 % 32 ≠ 0 ∨ b.length ≠ (if op = 1 then 6 + len else 6) ∨ (op = 0 ∧ 4064 < len) then
    endCmd p St.BAD_PARAM [] s
  else if (s.half x).booting ∨ ((s.half x).inReset ∧ !(s.half x).held) then endCmd p St.BUSY [] s
  else if s.flashOpen x && !s.computes x.other then endCmd p St.PARTNER_NOT_READY [] s
  else
    match s.flashRefusal o f with
    | some st => endCmd p st [] s
    | none => (s.setPort p { s.port p with begun := true }).setFlashQueue f (s.flashQueue f ++ [o])

/-- The Vigil core's load command (R510, R616). -/
def vcLoadCmd (p : Nat) (b : List Byte) (s : State) : State :=
  let f := payloadField b 0 1
  let slot := payloadField b 1 1
  if b.length ≠ 2 ∨ 1 < f ∨ 1 < slot then endCmd p St.BAD_PARAM [] s
  else if s.vcLoading.isSome then endCmd p St.BUSY [] s
  else requestVcLoad f slot (s.setPort p { s.port p with begun := true })

/-- The rolling-update command (R511, R614). -/
def rupdateCmd (p : Nat) (b : List Byte) (s : State) : State :=
  let op := payloadField b 0 1
  let x := payloadField b 1 1
  if b.length ≠ 2 ∨ op = 0 ∨ 5 < op ∨ 1 < x then endCmd p St.BAD_PARAM [] s
  else
    let s1 := writeRuCtl (BitVec.ofNat 20 (op * 0x20000 + x * 0x10000)) s
    endCmd p (s1.get oneKey Reg.RU_STAT_STATUS) [] s1

/-- A command that has started: refused by its opcode or path at once; those without a row of their own are executed here, the
others by the command of their row. -/
def beginCmd (p : Nat) (c : Cmd) (s : State) : State :=
  match s.pathRefusal p c with
  | some st => endCmd p st [] s
  | none =>
    if c.op = 0x60 then bootflashCmd p (cmdParams c) s
    else if c.op = 0x61 then vcLoadCmd p (cmdParams c) s
    else if c.op = 0x22 then rupdateCmd p (cmdParams c) s
    else s

/-- The command names this device: no route, or a route to its own HELD address (R600). -/
def State.isLocal (s : State) (p : Nat) (c : Cmd) : Bool :=
  decide (p = 2) || !c.routed || decide (s.ownAddr = some (payloadField c.params 0 2 % 4096))

/-- A routed command leaves for its target, or ends at once where there is no way (R447, R600). -/
def sendRouted (p : Nat) (c : Cmd) (s : State) : State :=
  let a := payloadField c.params 0 2 % 4096
  if s.ownAddr.isNone || (s.nextHop a).isNone then putReply p (replyBytes c St.FAB_UNREACHABLE []) s
  else
    let t := s.router.cmdTag
    let s1 := s.setRouter { s.router with cmdTag := (t + 1) % 2 ^ 32 }
    let s2 := s1.setPort p { s1.port p with routed := (s1.port p).routed ++ [(c, t, s1.tref)] }
    sendTo 6 2 a t (cmdBytes c) (s2.count (portKey p + Reg.CP_CNT + 7) 1)

/-- A local command may start: the one before has placed its reply, and the reply queue has room (R591). -/
def State.mayStart (s : State) (p : Nat) : Bool := (s.port p).exec.isNone && decide ((s.port p).replies.length < 16)

/-- Execution is charged to HOST in the half that executes the command (R89, R591); a half in half reset meters nothing. -/
def onHost (h : Half) (go : State → State) (s : State) : State := if s.computes h then withAccess h actHost 0 go s else go s

/-- The head of a port's queue starts to execute. -/
def startCmd (p : Nat) (c : Cmd) (rest : List Cmd) (s : State) : State :=
  beginCmd p c (s.setPort p { s.port p with queue := rest, exec := some c, begun := false, result := none })

/-- COMMAND_START (R591, R600). -/
def execCommandStart (p : Fin 3) (s : State) : Result :=
  let x := s.port p.val
  .next (if s.power.mode = .run then
    match x.queue with
    | [] => s
    | c :: rest =>
      if s.isLocal p.val c then
        if s.mayStart p.val then onHost (s.cmdHalf p.val c) (startCmd p.val c rest) s else s
      else if x.routed.length < 8 then sendRouted p.val c (s.setPort p.val { x with queue := rest })
      else s
  else s)

end Sys2Proof.Machine
end

