-- ==== Sys2Proof/Machine/Commands.lean ====
section
/-! DEFINITION. The commands of a command port, but for those of the envelope (R608 to R615): each acts on the command that
the port is executing. One that waits for an operation answers when the operation has ended. -/

namespace Sys2Proof.Machine

/-! ## Parameters (R608, R609) -/

/-- The effect of a row on the command being executed by a port, where that is a command of its opcode: the command and its
parameters. -/
def onCommand (p : Fin 3) (op : Nat) (f : Cmd → List Byte → State → State) (s : State) : State :=
  match (s.port p.val).exec with
  | some c => if c.op = op then f c (cmdParams c) s else s
  | none => s

/-- The half that executes the command computes (DEDUCED from R621: else ST_PARTNER_NOT_READY). -/
def needHalf (p : Fin 3) (c : Cmd) (res : List Byte) (f : State → State) (s : State) : State :=
  if s.computes (s.cmdHalf p.val c) then f s else endCmd p.val St.PARTNER_NOT_READY res s

/-- A command refused for its parameters (R609). -/
def badParam (p : Fin 3) (s : State) : State := endCmd p.val St.BAD_PARAM [] s

/-- The command has begun an operation and is answered where it has ended. -/
def begin_ (p : Fin 3) (f : State → State) (s : State) : State :=
  let s1 := f (s.setPort p.val { s.port p.val with begun := true })
  match (s1.port p.val).result with
  | some (st, b) => endCmd p.val st b s1
  | none => s1

/-- A command of two phases: its start, and once it has begun its answer when the outcome is there. -/
def twoPhase (p : Fin 3) (start : State → State) (s : State) : State :=
  if (s.port p.val).begun then
    match (s.port p.val).result with
    | some (st, b) => endCmd p.val st b s
    | none => s
  else start s

/-- The bytes of words (R608). -/
def wordBytes (l : List Word) : List Byte := l.flatMap (fun w => bigEndian 3 w.toNat)

/-- Words of three bytes with bits [23:20] 0; none where a byte is out of range (R608). -/
def byteWords : List Byte → Option (List Word)
  | a :: b :: c :: t =>
    if a.toNat < 16 then (byteWords t).map (fun l => BitVec.ofNat 20 (fromBytes [a, b, c]) :: l) else none
  | [] => some []
  | _ => none

/-! ## General and register commands (R611 to R613) -/

/-- CMD_NOP. -/
def execCmdNop (p : Fin 3) (s : State) : Result :=
  .next (onCommand p 0x10 (fun _ b s => if b.length ≤ 64 then endCmd p.val St.OK b s else badParam p s) s)

/-- What IDENT returns, through the half that runs the port. -/
def State.identBytes (s : State) (p : Fin 3) : List Byte :=
  let m : Master := .port p
  let h := s.masterHalf m
  let f := s.ioValue m none Reg.FAB_ADDR
  wordBytes [s.halfValue m h Reg.DEV_PART, s.halfValue m h Reg.DEV_REV] ++ bigEndian 8 Config.uid.toNat
    ++ bigEndian 2 (bits f 15 14 * 0x4000 + bits f 11 0) ++ wordBytes [s.devCfg h, s.owners]

/-- CMD_IDENT. -/
def execCmdIdent (p : Fin 3) (s : State) : Result :=
  .next (onCommand p 0x11 (fun _ b s => if b = [] then endCmd p.val St.OK (s.identBytes p) s else badParam p s) s)

/-- The half whose I/O space a VIEW selects; none for the host's own view (R612). -/
def viewHalf (v : Nat) : Option Half := if v = 1 then some .A else if v = 2 then some .B else none

/-- VIEW, address and count of a register command, where they lie in their ranges (R611, R612). -/
def regArgs (b : List Byte) : Option (Option Half × Nat × Nat) :=
  let v := payloadField b 0 1
  let a := payloadField b 1 3
  let n := payloadField b 4 2
  if v ≤ 2 ∧ 1 ≤ n ∧ n ≤ 1024 ∧ a + n ≤ 0x80000
      ∧ (v ≠ 0 ∨ ((0x1000 ≤ a) ∧ (a + n ≤ 0x20000 ∨ 0x30000 ≤ a))) then some (viewHalf v, a, n)
  else none

/-- A view's half is in half reset (R613). -/
def State.viewDown (s : State) (v : Option Half) : Bool :=
  match v with
  | some h => !s.computes h
  | none => false

/-- Words read in ascending address order, one access each (R612). -/
def readSeq (m : Master) (v : Option Half) (a : Nat) : Nat → State → List Word × State
  | 0, s => ([], s)
  | n + 1, s =>
    let o := readIn m v a s
    let r := readSeq m v (a + 1) n (readMoves m v a o.2)
    (o.1 :: r.1, r.2)

/-- Words written in ascending address order, one access each (R612). -/
def writeSeq (m : Master) (v : Option Half) (a : Nat) : List Word → State → State
  | [], s => s
  | w :: t, s => writeSeq m v (a + 1) t (writeIn m v a w s)

/-- CMD_REG_READ. -/
def execCmdRegRead (p : Fin 3) (s : State) : Result :=
  .next (onCommand p 0x12 (fun c b s =>
    match regArgs b with
    | some (v, a, n) =>
      if b.length ≠ 6 then badParam p s
      else
        needHalf p c [] (fun s =>
          let o := readSeq (.port p) v a n s
          endCmd p.val St.OK (wordBytes o.1) o.2) s
    | none => badParam p s) s)

/-- The consumer a register command would act on is SECURE: the one selected, or the one that an earlier word of the command
selects (R613). -/
def State.secureTarget (s : State) (p : Fin 3) (v : Option Half) (a : Nat) (l : List Word) : Bool :=
  let s1 := if a ≤ Reg.EM_CSEL then writeSeq (.port p) v Reg.EM_CSEL ((l.drop (Reg.EM_CSEL - a)).take 1) s else s
  match s1.selected v with
  | some k => (s1.consumer k).secure
  | none => false

/-- Why a REG_WRITE is refused as a whole, if it is (R613). -/
def State.regRefusal (s : State) (p : Fin 3) (far : Bool) (v : Option Half) (a : Nat) (l : List Word) : Option Nat :=
  let span := List.range' a l.length
  let env := span.any (fun x => decide (0x10000 ≤ x) && decide (x < 0x20000) && isEnvelope (x % 0x400))
  let remote := l.zipIdx.any (fun (e : Word × Nat) =>
    decide (a + e.2 = Reg.FAB_CTL) && decide (e.1.getLsbD 8 ≠ s.flag oneKey Reg.FAB_CTL_ENV_REMOTE))
  let matrix := span.any (fun x => decide (x = Reg.EM_CCFG) || (decide (0x1010 ≤ x) && decide (x < 0x101D)))
  if env || remote then some St.ENVELOPE_LOCKED
  else if far && matrix && s.secureTarget p v a l then some St.FAB_REFUSED
  else if s.viewDown v then some St.PARTNER_NOT_READY
  else none

/-- CMD_REG_WRITE. -/
def execCmdRegWrite (p : Fin 3) (s : State) : Result :=
  .next (onCommand p 0x13 (fun c b s =>
    match regArgs b, byteWords (b.drop 6) with
    | some (v, a, n), some l =>
      if l.length ≠ n ∨ b.length < 6 then badParam p s
      else
        match s.regRefusal p c.origin.isSome v a l with
        | some st => endCmd p.val st [] s
        | none => needHalf p c [] (fun s => endCmd p.val St.OK [] (writeSeq (.port p) v a l s)) s
    | _, _ => badParam p s) s)

/-- Half, data address and count of a memory command, where they lie in their ranges (R611). -/
def memArgs (b : List Byte) : Option (Half × Nat × Nat) :=
  let h := payloadField b 0 1
  let a := payloadField b 1 3
  let n := payloadField b 4 2
  if h ≤ 1 ∧ 1 ≤ n ∧ n ≤ 1024 ∧ a + n ≤ 0x80000 then some (Half.ofBit (decide (h = 1)), a, n) else none

/-- CMD_MEM_READ (R613): over the debug port. -/
def execCmdMemRead (p : Fin 3) (s : State) : Result :=
  .next (onCommand p 0x14 (fun _ b s =>
    match memArgs b with
    | some (h, a, n) =>
      if b.length ≠ 6 then badParam p s
      else if !s.computes h then endCmd p.val St.PARTNER_NOT_READY [] s
      else
        let o := readBankRun h a 13 n s
        endCmd p.val St.OK (wordBytes o.1) o.2
    | none => badParam p s) s)

/-- CMD_MEM_WRITE (R613). -/
def execCmdMemWrite (p : Fin 3) (s : State) : Result :=
  .next (onCommand p 0x15 (fun _ b s =>
    match memArgs b, byteWords (b.drop 6) with
    | some (h, a, n), some l =>
      if l.length ≠ n ∨ b.length < 6 then badParam p s
      else if !s.computes h then endCmd p.val St.PARTNER_NOT_READY [] s
      else endCmd p.val St.OK [] (s.setBankRun h a l)
    | _, _ => badParam p s) s)

/-! ## Halves, terminals and the pipeline (R614) -/

/-- CMD_SEAT_MOVE: a give from the half that holds each bay. -/
def execCmdSeatMove (p : Fin 3) (s : State) : Result :=
  .next (onCommand p 0x20 (fun _ b s =>
    let x := payloadField b 0 1
    let target := Half.ofBit (decide (payloadField b 1 1 = 1))
    if b.length ≠ 2 ∨ x / 64 % 2 = 1 ∨ 1 < payloadField b 1 1 then badParam p s
    else
      let scope := if 128 ≤ x then List.range 64 else [x % 64]
      let o := giveSeats target.other (scope.filter (fun n => decide (s.holder n = target.other))) 5 s
      endCmd p.val o.1 (if o.1 = St.OK then bigEndian 8 o.2.seats.toNat else []) o.2) s)

/-- Run-owner latches move to a half in one stage, and REF_CAUSE records it (R614). -/
def moveBlocks (bs : List Nat) (h : Half) (s : State) : State :=
  if bs = [] then s
  else
    (bs.foldl (fun s k => setOwner k h s) s).setReg (oneKey + Reg.REF_CAUSE) (BitVec.ofNat 20 (16 * h.other.num + 5))

/-- CMD_BLOCK_MOVE. -/
def execCmdBlockMove (p : Fin 3) (s : State) : Result :=
  .next (onCommand p 0x21 (fun _ b s =>
    let mask := payloadField b 0 3
    let target := Half.ofBit (decide (payloadField b 3 1 = 1))
    if b.length ≠ 4 ∨ 0x20000 ≤ mask ∨ 1 < payloadField b 3 1 then badParam p s
    else if !s.healthy target then endCmd p.val St.PARTNER_NOT_READY [] s
    else
      let s1 := moveBlocks ((List.range 17).filter (fun k => mask.testBit k && decide (s.runner k ≠ target))) target s
      endCmd p.val St.OK (wordBytes [s1.owners]) s1) s)

/-- CMD_PROFILE (R96): whether both regulators acknowledge the group command comes with it. -/
def execCmdProfile (p : Fin 3) (acked : Bool) (s : State) : Result :=
  .next (onCommand p 0x23 (fun c b s => twoPhase p (fun s =>
    let target := payloadField b 0 1
    if b.length ≠ 1 ∨ 2 < target then badParam p s
    else
      needHalf p c [] (fun s =>
        if s.flag (halfKey (s.runner (blkTw 7))) Reg.PRF_STAT_BUSY then
          endCmd p.val St.BUSY [] (requestProfile target acked s)
        else begin_ p (requestProfile target acked) s) s) s) s)

/-- CMD_TALK (R153, R614). -/
def execCmdTalk (p : Fin 3) (s : State) : Result :=
  .next (onCommand p 0x30 (fun c b s =>
    let t := payloadField b 0 2
    let x := payloadField b 2 1
    let arg := payloadField b 3 2
    if b.length ≠ 5 ∨ 1024 ≤ t ∨ x / 16 % 8 ≠ 0 ∨ 4096 ≤ arg then badParam p s
    else
      needHalf p c [] (fun s =>
        if 128 ≤ x then endCmd p.val St.OK [] (s.onCopies (fun h s => cancelTalk h t s))
        else if x % 16 = 5 then endCmd p.val St.ENVELOPE_LOCKED [] s
        else if (s.slot (s.holder (t / 16)) t).talk.isSome then endCmd p.val St.BUSY [] s
        else endCmd p.val St.OK [] (s.onCopies (fun h s => requestTalk true false h t (x % 16) arg s))) s) s)

/-- The bay of a channel; none for one of the metrology die. -/
def chanBay (c : Nat) : Option Nat := if c < 16384 then some (c / 256) else if c < 16448 then some (c - 16384) else none

/-- The channels of a FLUSH (R614). -/
def flushScope (scope chan c : Nat) : Bool :=
  if scope = 0 then decide (c = chan) else if scope = 1 then decide (chanBay c = chanBay chan) else true

/-- FLUSH seals the open bushels of its channels, but for those of orphaned bays (R614). -/
def flushHalf (scope chan : Nat) (h : Half) (s : State) : State :=
  sealWhere h true (fun c => flushScope scope chan c && decide (s.chanHome c = h)
    && (match chanBay c with | some n => !s.orphaned n | none => true)) s

/-- A bushel that a FLUSH sealed waits for its half's seal queue (R343). -/
def State.flushWaits (s : State) (scope chan : Nat) : Bool :=
  [Half.A, Half.B].any (fun h => (List.range 4).any (fun e =>
    (s.coder h e).waiting.any (fun (x : Bushel) => x.flush && flushScope scope chan x.chan)))

/-- CMD_FLUSH. -/
def execCmdFlush (p : Fin 3) (s : State) : Result :=
  .next (onCommand p 0x31 (fun _ b s =>
    let scope := payloadField b 0 1
    let chan := payloadField b 1 2
    if b.length ≠ 3 ∨ 2 < scope ∨ 16511 < chan then badParam p s
    else
      let s1 :=
        if (s.port p.val).begun then s
        else
          let f := flushHalf scope chan .B (flushHalf scope chan .A s)
          f.setPort p.val { f.port p.val with begun := true }
      if s1.flushWaits scope chan then s1 else endCmd p.val St.OK [] s1) s)

/-! ## Archive, fabric and metrology (R615) -/

/-- A read operation asked of the archive (R407). -/
def askByPort (p : Fin 3) (r : ArcReq) (s : State) : State :=
  if s.arcCommits then
    begin_ p (fun s => s.setArchive { s.archive with requests := s.archive.requests ++ [r] }) s
  else endCmd p.val St.ARC_NOTREADY [] s

/-- CMD_ARC_READ. -/
def execCmdArcRead (p : Fin 3) (s : State) : Result :=
  .next (onCommand p 0x40 (fun c b s => twoPhase p (fun s =>
    let n := payloadField b 5 2
    if b.length ≠ 7 ∨ n = 0 ∨ 4064 < n then badParam p s
    else needHalf p c [] (askByPort p ⟨.port p.val, 0, payloadField b 0 5, n - 1, 0, 0⟩) s) s) s)

/-- CMD_ARC_FIND. -/
def execCmdArcFind (p : Fin 3) (s : State) : Result :=
  .next (onCommand p 0x41 (fun c b s => twoPhase p (fun s =>
    let chan := payloadField b 0 2
    let origin := payloadField b 2 1
    let t := payloadField b 3 8
    if b.length ≠ 11 ∨ 16511 < chan ∨ 4 < origin ∨ 2 ^ 60 ≤ t then badParam p s
    else needHalf p c [] (askByPort p ⟨.port p.val, 1, t, chan, origin, 0⟩) s) s) s)

/-- CMD_ARC_NEXT. -/
def execCmdArcNext (p : Fin 3) (s : State) : Result :=
  .next (onCommand p 0x42 (fun c b s => twoPhase p (fun s =>
    if b.length ≠ 5 then badParam p s
    else needHalf p c [] (askByPort p ⟨.port p.val, 2, payloadField b 0 5, 0, 0, 0⟩) s) s) s)

/-- CMD_ARC_FORMAT (R397). -/
def execCmdArcFormat (p : Fin 3) (s : State) : Result :=
  .next (onCommand p 0x43 (fun c b s =>
    if b.length ≠ 3 ∨ payloadField b 0 3 ≠ 0x0A4C5 then badParam p s
    else
      needHalf p c [] (fun s =>
        if s.arcEn || s.flag oneKey Reg.AR_STAT_FORMAT then endCmd p.val St.BUSY [] s
        else endCmd p.val St.OK [] (writeArcFmt 0x0A4C5#20 s)) s) s)

/-- CMD_TIME_SET (R443). -/
def execCmdTimeSet (p : Fin 3) (s : State) : Result :=
  .next (onCommand p 0x50 (fun c b s =>
    if b.length ≠ 8 ∨ 2 ^ 60 ≤ payloadField b 0 8 then badParam p s
    else
      needHalf p c [] (fun s =>
        let o := setTime (payloadField b 0 8) s
        endCmd p.val o.1 [] o.2) s) s)

/-- The result byte of MET_CMD: serial and REASON as the link shows them (R615). -/
def State.metResult (s : State) : List Byte :=
  bigEndian 1 (16 * s.get oneKey Reg.MET_CST_SER + s.get oneKey Reg.MET_CST_REASON)

/-- A CMD that the metrology die accepts (R375). -/
def metListed (b : List Byte) : Bool := decide (payloadField b 0 1 % 16 ∈ [2, 3, 4, 5, 8, 9])

/-- CMD_MET_CMD (R375, R376, R388): the link controller refuses a CMD outside R375 before sending (R615). -/
def execCmdMetCmd (p : Fin 3) (s : State) : Result :=
  .next (onCommand p 0x58 (fun c b s => twoPhase p (fun s =>
    if b.length ≠ 6 then endCmd p.val St.BAD_PARAM s.metResult s
    else
      needHalf p c s.metResult (fun s =>
        if s.flag oneKey Reg.MET_CST_BUSY then endCmd p.val St.BUSY s.metResult s
        else begin_ p (if metListed b then sendMetCmd b else endMetCmd St.BAD_PARAM 0) s) s) s) s)

/-- CMD_MET_RECORD (R390). -/
def execCmdMetRecord (p : Fin 3) (s : State) : Result :=
  .next (onCommand p 0x59 (fun c b s =>
    let ty := payloadField b 0 1
    if b.length ≠ 2 ∨ ty < 0x20 ∨ 0x28 < ty then badParam p s
    else
      needHalf p c [] (fun s =>
        let l := match tblFind s.metLink.window (256 * ty + payloadField b 1 1) with
          | some (_, l) => l
          | none => []
        endCmd p.val St.OK (bigEndian 1 l.length ++ l) s) s) s)

end Sys2Proof.Machine
end

