-- ==== Sys2Proof/Machine/Envelope.lean ====
section
/-! DEFINITION. The envelope lock, the envelope commands and the OTP commands (R506, R514 to R519, R617 to R619). -/

namespace Sys2Proof.Machine

/-! ## Sessions (R514 to R516) -/

def setNonces (l : Tbl Nat) (s : State) : State := { s with envLock := { s.envLock with nonces := l } }

/-- A path's valid nonce: one is valid for 1 s (R514). -/
def State.nonceOf (s : State) (path : Nat) : Option Nat :=
  if s.tref ≤ tblGet s.envLock.issued 0 path + 200000000 then tblFind s.envLock.nonces path else none

/-- A new nonce of a path, given now. -/
def giveNonce (path n : Nat) (s : State) : State :=
  let t := setNonces (tblPut s.envLock.nonces path n) s
  { t with freeCount := s.freeCount + 1, envLock := { t.envLock with issued := tblPut t.envLock.issued path s.tref } }

/-- A command of 0x73 to 0x7A restarts the limit of its session, whatever its outcome (R617). -/
def inEnvelope (p : Fin 3) (op : Nat) (f : Cmd → List Byte → State → State) (s : State) : State :=
  onCommand p op (fun c b s =>
    f c b (if (s.port p.val).begun then s else { s with envLock := { s.envLock with last := s.tref } })) s

/-- ENV_NONCE (R514): a new nonce replaces the path's. -/
def execEnvNonce (p : Fin 3) (s : State) : Result :=
  .next (onCommand p 0x70 (fun c b s =>
    if b ≠ [] then badParam p s
    else if s.flag oneKey Reg.ENV_STAT_BACKOFF then endCmd p.val St.ENVELOPE_LOCKED [] s
    else
      let n := (Config.nonce s.freeCount).toNat
      endCmd p.val St.OK (bigEndian 2 n) (giveNonce (c.nonceKey p.val) n s)) s)

/-- A failed ENV_OPEN; the eighth in a row starts the backoff (R516). -/
def failOpen (s : State) : State :=
  let n := s.get oneKey Reg.ENV_STAT_FAILS
  if n = 7 then
    let s1 := (s.put oneKey Reg.ENV_STAT_FAILS 0).put oneKey Reg.ENV_STAT_BACKOFF 1
    { s1 with envLock := { s1.envLock with backoffAt := s1.tref } }
  else s.put oneKey Reg.ENV_STAT_FAILS (n + 1)

/-- A session opens on the path of a command (R514, R524). -/
def openSession (c : Cmd) (p : Nat) (s : State) : State :=
  let s1 := ((s.put oneKey Reg.ENV_STAT_OPEN 1).put oneKey Reg.ENV_STAT_PATH (c.path p)).put oneKey Reg.ENV_STAT_FAILS 0
  let s2 := s1.put oneKey Reg.ENV_SRC_SRC (match c.origin with | some (a, _) => a | none => 0)
  { s2 with envLock := { s2.envLock with last := s2.tref } }

/-- N, its complement and the low half of the UID match (R514). -/
def State.openMatches (s : State) (held : Option Nat) (b : List Byte) : Bool :=
  !s.flag oneKey Reg.ENV_STAT_OPEN && decide (held = some (payloadField b 0 2))
    && decide (payloadField b 2 2 = payloadField b 0 2 ^^^ 0xFFFF)
    && decide (payloadField b 4 4 = Config.uid.toNat % 2 ^ 32)

/-- ENV_OPEN (R514, R516): the path's nonce is consumed whatever the outcome. -/
def execEnvOpen (p : Fin 3) (s : State) : Result :=
  .next (onCommand p 0x71 (fun c b s =>
    let held := s.nonceOf (c.nonceKey p.val)
    let s1 := setNonces (tblDel s.envLock.nonces (c.nonceKey p.val)) s
    if b.length ≠ 8 then badParam p s1
    else if s1.flag oneKey Reg.ENV_STAT_BACKOFF then endCmd p.val St.ENVELOPE_LOCKED [] s1
    else if s1.flag oneKey Reg.ENV_STAT_OPEN && !s1.inSession p.val c then endCmd p.val St.BUSY [] s1
    else if s1.openMatches held b then endCmd p.val St.OK [] (openSession c p.val s1)
    else endCmd p.val St.ENVELOPE_LOCKED [] (failOpen s1)) s)

/-- ENV_CLOSE (R617). -/
def execEnvClose (p : Fin 3) (s : State) : Result :=
  .next (onCommand p 0x72 (fun c b s =>
    if b ≠ [] then badParam p s
    else endCmd p.val St.OK [] (if s.inSession p.val c then s.put oneKey Reg.ENV_STAT_OPEN 0 else s)) s)

/-! ## ENV_TERM (R186 to R192, R618) -/

/-- A terminal record. -/
structure TermRec where
  t : Nat
  mask : Nat
  maxd : Nat
  slew : Nat
  failsafe : Nat
  ilk : Nat
  dead : Nat
  thr : Nat
  deriving DecidableEq, Repr

def termRec (b : List Byte) : TermRec :=
  ⟨payloadField b 0 2, payloadField b 2 1, payloadField b 3 2, payloadField b 5 1, payloadField b 6 1, payloadField b 7 2,
    payloadField b 9 1, payloadField b 10 1⟩

/-- The records of a command, each of n bytes. -/
def records (n : Nat) (b : List Byte) : List (List Byte) :=
  (List.range (b.length / n)).map (fun i => (b.drop (n * i)).take n)

/-- Every field lies in its range, whether or not MASK names it; a MAXD that is to be written is judged by R192. -/
def TermRec.ok (r : TermRec) : Bool :=
  decide (r.t < 1024) && decide (r.mask < 32) && decide (r.failsafe ≤ 1) && decide (r.ilk / 1024 % 32 = 0)
    && (r.mask.testBit 0 || decide (r.maxd ≤ 1000))

/-- The record names a pairing, and its partner. -/
def TermRec.pairs (r : TermRec) : Bool := r.mask.testBit 3 && decide (0x8000 ≤ r.ilk)
def TermRec.parts (r : TermRec) : Bool := r.mask.testBit 3 && decide (r.ilk < 0x8000)
def TermRec.partner (r : TermRec) : Nat := r.ilk % 1024

/-- A pairing with itself or with another bay's terminal (R192). -/
def TermRec.alien (r : TermRec) : Bool := r.pairs && (decide (r.partner = r.t) || decide (r.partner / 16 ≠ r.t / 16))

/-- What a record says of the pairing of terminals. -/
def TermRec.claims (r : TermRec) : List (Nat × Option (Nat × Nat)) :=
  if r.pairs then [(r.t, some (r.partner, r.dead)), (r.partner, some (r.t, r.dead))]
  else if r.parts then [(r.t, none)]
  else []

/-- Two records' pairings contradict each other (R618). -/
def TermRec.contradicts (r q : TermRec) : Bool :=
  r.claims.any (fun (x : Nat × Option (Nat × Nat)) => q.claims.any (fun (y : Nat × Option (Nat × Nat)) =>
    decide (x.1 = y.1) && decide (x.2 ≠ y.2)))

/-- The partner of a terminal, where it is interlocked (R190). -/
def State.partner (s : State) (t : Nat) : Option Nat :=
  if s.flag (envKey t) Reg.TS_ILK_ILK then some (16 * (t / 16) + s.get (envKey t) Reg.TS_ILK_PARTNER) else none

/-- A field takes a value where MASK names it. -/
def putIf (set : Bool) (base : Nat) (f : Fld) (v : Nat) (s : State) : State := if set then s.put base f v else s

def TermRec.fields (r : TermRec) (s : State) : State :=
  putIf (r.mask.testBit 4) (thrKey r.t) Reg.TS_THR_THR r.thr
    (putIf (r.mask.testBit 2) (envKey r.t) Reg.TS_ENV_FAILSAFE r.failsafe
      (putIf (r.mask.testBit 1) (envKey r.t) Reg.TS_ENV_SLEW r.slew
        (putIf (r.mask.testBit 0) (envKey r.t) Reg.TS_ENV_MAXD r.maxd s)))

/-- A pair is dissolved, in both registers. -/
def TermRec.part (r : TermRec) (s : State) : State :=
  if r.parts then
    match s.partner r.t with
    | some q => (s.put (envKey r.t) Reg.TS_ILK_ILK 0).put (envKey q) Reg.TS_ILK_ILK 0
    | none => s
  else s

def pairOne (t q dead : Nat) (s : State) : State :=
  ((s.put (envKey t) Reg.TS_ILK_DEAD dead).put (envKey t) Reg.TS_ILK_ILK 1).put (envKey t) Reg.TS_ILK_PARTNER (q % 16)

/-- A pairing is written for both partners, with the same DEAD. -/
def TermRec.join (r : TermRec) (s : State) : State :=
  if r.pairs && !r.alien then pairOne r.partner r.t r.dead (pairOne r.t r.partner r.dead s) else s

/-- The envelope that would result from the whole command. -/
def afterTerms (l : List TermRec) (s : State) : State :=
  l.foldl (fun s r => r.join s) (l.foldl (fun s r => r.part s) (l.foldl (fun s r => r.fields s) s))

/-- The envelope of a terminal breaks R192. -/
def State.breaks (s : State) (t : Nat) : Bool :=
  decide (1000 < s.get (envKey t) Reg.TS_ENV_MAXD)
    || (s.flag (envKey t) Reg.TS_ENV_FAILSAFE
        && (decide (s.get (envKey t) Reg.TS_ENV_MAXD < 1000) || s.flag (envKey t) Reg.TS_ILK_ILK))
    || (match s.partner t with
        | some q => decide (s.partner q ≠ some t)
        | none => false)

/-- The terminals that a record concerns beside its own: its partner, and the partners that the two have had. -/
def TermRec.touches (r : TermRec) (s : State) : List Nat :=
  if r.pairs then r.partner :: (s.partner r.t).toList ++ (s.partner r.partner).toList else (s.partner r.t).toList

/-- Record i of a command is at fault (R192, R618): a terminal in two records, a pairing that contradicts an earlier one or
that R192 forbids, or an envelope that breaks R192, of its own terminal or of one that no record names. -/
def termFault (s : State) (l : List TermRec) (i : Nat) : Bool :=
  match l[i]? with
  | some r =>
    let before := l.take i
    let s1 := afterTerms l s
    before.any (fun q => decide (q.t = r.t) || q.contradicts r) || r.alien
      || (r.mask.testBit 0 && decide (1000 < r.maxd)) || s1.breaks r.t
      || (r.touches s).any (fun x => !l.any (fun q => decide (q.t = x)) && s1.breaks x)
  | none => false

/-- A slot whose pulse a new pairing cuts (R192). -/
def cutSlot (h : Half) (t : Nat) (s : State) : State :=
  let s1 := envelopeAction h t [Reg.TD_STAT_ILK_HOLD] 4 (dropProof h t (closeSample h t s))
  startOff h t (s1.setSlot h t { s1.slot h t with drive := false, riseDue := false })

/-- Where both new partners source I_ON, the higher-numbered goes to I_REST at once, whatever held it ON (R192). -/
def cutPair (was : State) (r : TermRec) (s : State) : State :=
  let hi := max r.t r.partner
  if r.pairs && decide (was.partner r.t ≠ some r.partner) && decide ((s.pad r.t).level = .on)
      && decide ((s.pad r.partner).level = .on) then
    let s1 := s.onSlot hi (fun h s => cutSlot h hi s)
    let p := s1.pad hi
    syncPad hi (s1.setPad hi
      { p with level := .rest, armed := false, lastFall := some s.tref, latch := p.latch.map (fun _ => .rest) })
  else s

/-- ENV_TERM (R192, R517, R618). -/
def execEnvTerm (p : Fin 3) (s : State) : Result :=
  .next (inEnvelope p 0x73 (fun _ b s =>
    let l := (records 11 b).map termRec
    if b.length % 11 ≠ 0 ∨ b = [] ∨ 256 < l.length ∨ l.any (fun r => !r.ok) = true then badParam p s
    else
      match (List.range l.length).find? (fun i => termFault s l i) with
      | some i => endCmd p.val St.ENVELOPE_CONFLICT (bigEndian 2 i) s
      | none =>
        endCmd p.val St.OK [] (l.foldl (fun x r => cutPair s r x) ((afterTerms l s).count (oneKey + Reg.ENV_CNT) 1))) s)

/-! ## ENV_LINE (R207, R619) -/

/-- A line record. -/
structure LineRec where
  n : Nat
  mask : Nat
  txmax : Nat
  pwr : Nat
  vthr : Nat
  ithr : Nat
  blank : Nat
  deriving DecidableEq, Repr

def lineRec (b : List Byte) : LineRec :=
  ⟨payloadField b 0 1, payloadField b 1 1, payloadField b 2 1, payloadField b 3 1, payloadField b 4 1, payloadField b 5 1,
    payloadField b 6 1⟩

def LineRec.ok (r : LineRec) : Bool := decide (r.n < 64) && decide (r.mask < 32) && decide (r.pwr / 16 % 8 = 0)

/-- The record would set PWR_EN = 1 for a slot whose duty is limited or that is interlocked (R207). -/
def LineRec.breaks (r : LineRec) (s : State) : Bool :=
  let t := 16 * r.n + r.pwr % 16
  r.mask.testBit 1 && decide (0x80 ≤ r.pwr)
    && (decide (s.get (envKey t) Reg.TS_ENV_MAXD < 1000) || s.flag (envKey t) Reg.TS_ILK_ILK)

def LineRec.apply (r : LineRec) (s : State) : State :=
  let k := padKey r.n
  putIf (r.mask.testBit 4) k Reg.LN_BLANK_BLANK r.blank
    (putIf (r.mask.testBit 3) k Reg.LN_LIM_ITHR r.ithr
      (putIf (r.mask.testBit 2) k Reg.LN_LIM_VTHR r.vthr
        (putIf (r.mask.testBit 1) k Reg.LN_ENV_PWR_SLOT (r.pwr % 16)
          (putIf (r.mask.testBit 1) k Reg.LN_ENV_PWR_EN (r.pwr / 128)
            (putIf (r.mask.testBit 0) k Reg.LN_ENV_TXMAX r.txmax s)))))

/-- Record i of a command is at fault (R207, R619). -/
def lineFault (s : State) (l : List LineRec) (i : Nat) : Bool :=
  match l[i]? with
  | some r => (l.take i).any (fun q => decide (q.n = r.n)) || r.breaks s
  | none => false

/-- ENV_LINE (R517, R619). -/
def execEnvLine (p : Fin 3) (s : State) : Result :=
  .next (inEnvelope p 0x74 (fun _ b s =>
    let l := (records 7 b).map lineRec
    if b.length % 7 ≠ 0 ∨ b = [] ∨ 64 < l.length ∨ l.any (fun r => !r.ok) = true then badParam p s
    else
      match (List.range l.length).find? (fun i => lineFault s l i) with
      | some i => endCmd p.val St.ENVELOPE_CONFLICT (bigEndian 2 i) s
      | none => endCmd p.val St.OK [] (l.foldl (fun s r => r.apply s) (s.count (oneKey + Reg.ENV_CNT) 1))) s)

/-! ## ENV_RANGE and ENV_REMOTE (R160, R447, R617) -/

/-- ENV_RANGE: the answer waits for the end of the SET_RANGE request. -/
def execEnvRange (p : Fin 3) (s : State) : Result :=
  .next (inEnvelope p 0x75 (fun c b s =>
    let t := payloadField b 0 2
    let range := payloadField b 2 1
    if (s.port p.val).begun then
      match (s.port p.val).result with
      | some (st, l) => endCmd p.val st l (if st = St.OK then s.count (oneKey + Reg.ENV_CNT) 1 else s)
      | none => s
    else if b.length ≠ 3 ∨ 1024 ≤ t ∨ 3 < range then badParam p s
    else
      needHalf p c [] (fun s =>
        if (s.slot (s.holder (t / 16)) t).talk.isSome then endCmd p.val St.BUSY [] s
        else
          (s.setPort p.val { s.port p.val with begun := true }).onCopies (fun h s => requestTalk true true h t 5 range s)) s) s)

/-- ENV_REMOTE: 0 ends a fabric session (R515). -/
def execEnvRemote (p : Fin 3) (s : State) : Result :=
  .next (inEnvelope p 0x76 (fun _ b s =>
    let v := payloadField b 0 1
    if b.length ≠ 1 ∨ 1 < v then badParam p s
    else
      let s1 := s.put oneKey Reg.FAB_CTL_ENV_REMOTE v
      endCmd p.val St.OK [] (if v = 0 then endSession 2 s1 else s1)) s)

/-! ## The OTP store (R506, R519) -/

/-- OTP_KEY: a hash goes into a slot not yet programmed. -/
def execOtpKey (p : Fin 3) (s : State) : Result :=
  .next (inEnvelope p 0x77 (fun _ b s =>
    let k := payloadField b 0 1
    if b.length ≠ 33 ∨ 3 < k ∨ s.otp.prog.getLsbD k = true then badParam p s
    else
      endCmd p.val St.OK []
        { s with otp := { s.otp with keys := tblPut s.otp.keys k (b.drop 1), prog := s.otp.prog ||| BitVec.twoPow 4 k } }) s)

/-- OTP_REVOKE: refused where no other usable key would remain. -/
def execOtpRevoke (p : Fin 3) (s : State) : Result :=
  .next (inEnvelope p 0x78 (fun _ b s =>
    let k := payloadField b 0 1
    if b.length ≠ 1 ∨ 3 < k ∨ !(List.range 4).any (fun i => decide (i ≠ k) && s.usableKey i) then badParam p s
    else endCmd p.val St.OK [] { s with otp := { s.otp with revoked := s.otp.revoked ||| BitVec.twoPow 4 k } }) s)

/-- The SVN of a half's confirmed image; none where its latest boot is not confirmed (R502, R506). -/
def State.confirmedSvn (s : State) (h : Half) : Option Nat :=
  if s.flag (bootKey h) Reg.BOOT_SEL_CONFIRMED then
    some (s.imageAt h.num (slotBase (s.get (bootKey h) Reg.BOOT_SEL_LAST) false)).svn
  else none

/-- OTP_SVN: MINSVN rises to a value that both confirmed images reach (R506). -/
def execOtpSvn (p : Fin 3) (s : State) : Result :=
  .next (inEnvelope p 0x79 (fun _ b s =>
    let v := payloadField b 0 1
    let reach (h : Half) : Bool := match s.confirmedSvn h with | some n => decide (v ≤ n) | none => false
    if b.length ≠ 1 ∨ 63 < v then badParam p s
    else if v < s.otp.minSvn ∨ reach .A = false ∨ reach .B = false then endCmd p.val St.IMG_ROLLBACK [] s
    else endCmd p.val St.OK [] { s with otp := { s.otp with minSvn := v } }) s)

/-- OTP_DBGOFF (R519). -/
def execOtpDbgoff (p : Fin 3) (s : State) : Result :=
  .next (inEnvelope p 0x7A (fun _ b s =>
    if b.length ≠ 1 ∨ payloadField b 0 1 ≠ 0xD0 then badParam p s
    else endCmd p.val St.OK [] { s with otp := { s.otp with dbgOff := true } }) s)

end Sys2Proof.Machine
end

