-- ==== Sys2Proof/Machine/Jtag.lean ====
section
/-! DEFINITION. The IEEE 1149.1 port (R683 to R687): boundary scan, identification, and the debug path of R519. -/

namespace Sys2Proof.Machine

/-- Every terminal pad follows what drives it now. -/
def syncAllPads (s : State) : State := (List.range 64).foldl (fun s b => syncBayPads b s) s

/-- An instruction is in the instruction register (R683). The pads follow the register while it drives them, and return to
the halves when the instruction ends (R686). -/
def setScan (i : JtagInstr) (s : State) : State := syncAllPads { s with jtag := { s.jtag with instr := i } }

/-- The boundary register captures the pins and, where one was shifted in, takes a new content (R683, R685). -/
def scanRegister (pins : BitVec 1121) (shift : Option (BitVec 3363)) (s : State) : State :=
  { s with jtag := { s.jtag with seen := pins, cells := shift.getD s.jtag.cells } }

/-- EXTEST (R683, R686): the input cells capture the pins, and the cells shifted in drive the included balls. -/
def execExtest (pins : BitVec 1121) (shift : Option (BitVec 3363)) (s : State) : Result :=
  .next (setScan .extest (scanRegister pins shift s))

/-- SAMPLE/PRELOAD (R683): observes and loads; the pads remain under the device's control. -/
def execSamplePreload (pins : BitVec 1121) (shift : Option (BitVec 3363)) (s : State) : Result :=
  .next (setScan .sample (scanRegister pins shift s))

/-- The identification register (R684). -/
def idcodeWord : BitVec 32 := 0x104005CB#32

/-- IDCODE is selected and its register read (R684). -/
def selectIdcode (s : State) : State :=
  let s1 := setScan .idcode s
  { s1 with jtag := { s1.jtag with out := idcodeWord } }

/-- IDCODE (R683, R684). -/
def execIdcode (s : State) : Result := .next (selectIdcode s)

/-- CLAMP (R683): the pads are driven from the register; one bypass bit, which captures 0, lies between TDI and TDO. -/
def execClamp (s : State) : Result :=
  let s1 := setScan .clamp s
  .next { s1 with jtag := { s1.jtag with out := 0 } }

/-- HIGHZ (R683): the included outputs are in high impedance and the terminals source nothing. -/
def execHighz (s : State) : Result :=
  let s1 := setScan .highz s
  .next { s1 with jtag := { s1.jtag with out := 0 } }

/-- BYPASS is in force (R683). -/
def selectBypass (s : State) : State :=
  let s1 := setScan .bypass s
  { s1 with jtag := { s1.jtag with out := 0 } }

/-- BYPASS, and any instruction code not listed (R683). -/
def execBypass (s : State) : Result := .next (selectBypass s)

/-- TRST_N resets the port, which selects IDCODE (R683). -/
def execTrstN (s : State) : Result := .next (selectIdcode s)

/-! ## The debug path (R519) -/

/-- The debug path reaches a steward that is clocked: its half computes outside DEEP and OFF, or it is the VC outside OFF. -/
def State.debugReaches (s : State) (k : Nat) : Bool :=
  decide (s.power.mode ≠ .off) &&
    (if k < 8 then s.computes (stewHalf k) && decide (s.power.mode ≠ .deep) else true)

/-- A register of steward k as the debug path reads it. -/
def debugReg (k : Nat) (cr : Bool) (n : Nat) (s : State) : Word :=
  if cr then (readCreg (s.steward k) n).getD 0 else wreg (s.steward k) (n % 16)

/-- A register of a halted or stopped steward written by the debug path; of one that runs the write is ignored with BAD, as
R493 has it. -/
def debugSetReg (k : Nat) (cr : Bool) (n : Nat) (v : Word) (s : State) : State :=
  let x := s.steward k
  if x.mode.runs then s.put (stewKey k) Reg.STW_STAT_BAD 1
  else if cr then s.setSteward k ((writeCreg x n v).getD x)
  else s.setSteward k (setWreg x (n % 16) v)

/-- What one debug operation reads, and the state after it. -/
def debugRun (k : Fin 9) (op : DebugOp) (s : State) : Word × State :=
  match op with
  | .halt => (0, haltRequest k.val s)
  | .readReg cr n => (debugReg k.val cr n.val s, s)
  | .writeReg cr n v => (0, debugSetReg k.val cr n.val v s)
  | .readData a =>
    let o := dataRead k.val a.toNat s
    (match o.1 with | .word w => w | _ => 0, o.2)
  | .writeData a v => (0, (dataWrite k.val a.toNat v s).getD s)
  | .readInstr a =>
    if k.val < 8 then
      let o := readImem (stewHalf k.val) a.toNat 13 s
      (o.1.getD 0, o.2)
    else if a.toNat < 0x4000 then
      (match tblGet s.vmemMarks 0 a.toNat with
       | 0 => (tblGet s.vmem 0 a.toNat, s)
       | 1 => (tblGet s.vmem 0 a.toNat, { s with vmemMarks := tblSet s.vmemMarks 0 a.toNat 0 })
       | _ => (0, s))
    else (0, s)
  | .writeInstr a v =>
    (0, if k.val < 8 then s.setImem (stewHalf k.val) a.toNat v
        else if a.toNat < 0x4000 then s.setVigil a.toNat v else s)
  | .readIo a => ioRead (.jtag k) a.toNat s
  | .writeIo a v => (0, ioWrite (.jtag k) a.toNat v s)

/-- DEBUG (R519, R683, R687): acts as BYPASS while DBG_OFF is set. -/
def execDebug (k : Fin 9) (op : DebugOp) (s : State) : Result :=
  .next (if s.otp.dbgOff then selectBypass s
    else
      let s1 := setScan .debug s
      if s1.debugReaches k.val then
        let o := debugRun k op s1
        { o.2 with jtag := { o.2.jtag with out := o.1.zeroExtend 32 } }
      else { s1 with jtag := { s1.jtag with out := 0 } })

end Sys2Proof.Machine
end

