-- ==== Sys2Proof/Machine/StewardAlu.lean ====
section
/-! DEFINITION. The arithmetic of the stewards: register and immediate operations, shifts, saturating operations, the
multiplier and the accumulator (R467, R468, R477, R478). Each command makes the steward named execute its next instruction
where it is one of the row. -/

namespace Sys2Proof.Machine

/-- The register named by rs, and by rt: before the load in flight, if one is (R470). -/
def srcS (k : Nat) (f : Fetched) (s : State) : Word := wreg (s.steward k) (fS f.w)
def srcT (k : Nat) (f : Fetched) (s : State) : Word := wreg (s.steward k) (fT f.w)

/-- An instruction that writes rd. -/
def writeRd (k : Nat) (f : Fetched) (v : Word) (s : State) : State := complete k f [(fD f.w, v)] none none id s

/-- rd := g rs rt. -/
def regOp (k : Nat) (op : StewOp) (g : Word → Word → Word) (s : State) : State :=
  issue k op (fun f s => writeRd k f (g (srcS k f s) (srcT k f s)) s) s

/-- rd := g rs X. -/
def immOp (k : Nat) (op : StewOp) (g : Word → Word → Word) (s : State) : State :=
  issue k op (fun f s => writeRd k f (g (srcS k f s) f.ext) s) s

/-- rd := g rs N of SHI. -/
def shiftImm (k : Nat) (op : StewOp) (g : Word → Nat → Word) (s : State) : State :=
  issue k op (fun f s => writeRd k f (g (srcS k f s) (fN f.w)) s) s

/-- ACC := g ACC rs rt. -/
def accOp (k : Nat) (op : StewOp) (g : BitVec 48 → Word → Word → BitVec 48) (s : State) : State :=
  issue k op (fun f s =>
    let v := g (s.steward k).acc (srcS k f s) (srcT k f s)
    complete k f [] none none (fun x => { x with acc := v }) s) s

/-! ## Register to register (R467) -/

def execAdd (k : Fin 9) (s : State) : Result := .next (regOp k.val .add (· + ·) s)
def execSub (k : Fin 9) (s : State) : Result := .next (regOp k.val .sub (· - ·) s)
def execAndRR (k : Fin 9) (s : State) : Result := .next (regOp k.val .and (· &&& ·) s)
def execOrRR (k : Fin 9) (s : State) : Result := .next (regOp k.val .or (· ||| ·) s)
def execXorRR (k : Fin 9) (s : State) : Result := .next (regOp k.val .xor (· ^^^ ·) s)
def execSlt (k : Fin 9) (s : State) : Result := .next (regOp k.val .slt aluSlt s)
def execSltu (k : Fin 9) (s : State) : Result := .next (regOp k.val .sltu aluSltu s)
def execAndn (k : Fin 9) (s : State) : Result := .next (regOp k.val .andn (fun a b => a &&& ~~~b) s)
def execSll (k : Fin 9) (s : State) : Result := .next (regOp k.val .sll (fun a b => aluSll a (shiftBy b)) s)
def execSrl (k : Fin 9) (s : State) : Result := .next (regOp k.val .srl (fun a b => aluSrl a (shiftBy b)) s)
def execSra (k : Fin 9) (s : State) : Result := .next (regOp k.val .sra (fun a b => aluSra a (shiftBy b)) s)
def execAdds (k : Fin 9) (s : State) : Result := .next (regOp k.val .adds aluAdds s)
def execSubs (k : Fin 9) (s : State) : Result := .next (regOp k.val .subs aluSubs s)
def execAddus (k : Fin 9) (s : State) : Result := .next (regOp k.val .addus aluAddUs s)
def execSubus (k : Fin 9) (s : State) : Result := .next (regOp k.val .subus aluSubUs s)

/-! ## Immediates (R468) -/

def execAddi (k : Fin 9) (s : State) : Result :=
  .next (issue k.val .addi (fun f s => writeRd k.val f (srcS k.val f s + fImm7 f.w) s) s)

def execMovi (k : Fin 9) (s : State) : Result :=
  .next (issue k.val .movi (fun f s => writeRd k.val f (fImm11 f.w) s) s)

def execSlli (k : Fin 9) (s : State) : Result := .next (shiftImm k.val .slli aluSll s)
def execSrli (k : Fin 9) (s : State) : Result := .next (shiftImm k.val .srli aluSrl s)
def execSrai (k : Fin 9) (s : State) : Result := .next (shiftImm k.val .srai aluSra s)
def execAddiLong (k : Fin 9) (s : State) : Result := .next (immOp k.val .addiLong (· + ·) s)
def execAndi (k : Fin 9) (s : State) : Result := .next (immOp k.val .andi (· &&& ·) s)
def execOri (k : Fin 9) (s : State) : Result := .next (immOp k.val .ori (· ||| ·) s)
def execXori (k : Fin 9) (s : State) : Result := .next (immOp k.val .xori (· ^^^ ·) s)
def execSlti (k : Fin 9) (s : State) : Result := .next (immOp k.val .slti aluSlt s)
def execSltiu (k : Fin 9) (s : State) : Result := .next (immOp k.val .sltiu aluSltu s)
def execAddsi (k : Fin 9) (s : State) : Result := .next (immOp k.val .addsi aluAdds s)

/-! ## The multiplier (R477) -/

/-- The low and the high word of a 40-bit product. -/
def productLow (p : Int) : Word := BitVec.ofInt 20 p
def productHigh (p : Int) : Word := BitVec.ofInt 20 (p / 2 ^ 20)

def execMul (k : Fin 9) (s : State) : Result :=
  .next (regOp k.val .mul (fun a b => productLow (a.toInt * b.toInt)) s)

def execMulh (k : Fin 9) (s : State) : Result :=
  .next (regOp k.val .mulh (fun a b => productHigh (a.toInt * b.toInt)) s)

def execMulhu (k : Fin 9) (s : State) : Result :=
  .next (regOp k.val .mulhu (fun a b => productHigh ((a.toNat * b.toNat : Nat) : Int)) s)

def execMac (k : Fin 9) (s : State) : Result :=
  .next (accOp k.val .mac (fun c a b => c + BitVec.ofInt 48 (a.toInt * b.toInt)) s)

def execMacu (k : Fin 9) (s : State) : Result :=
  .next (accOp k.val .macu (fun c a b => c + BitVec.ofNat 48 (a.toNat * b.toNat)) s)

def execMsu (k : Fin 9) (s : State) : Result :=
  .next (accOp k.val .msu (fun c a b => c - BitVec.ofInt 48 (a.toInt * b.toInt)) s)

def execMacs (k : Fin 9) (s : State) : Result :=
  .next (accOp k.val .macs (fun c a b => satS48 (c.toInt + a.toInt * b.toInt)) s)

/-! ## The accumulator (R478) -/

def execRdacc (k : Fin 9) (s : State) : Result :=
  .next (issue k.val .rdacc (fun f s => writeRd k.val f (readAcc (s.steward k.val).acc (fN f.w)) s) s)

def execMfa (k : Fin 9) (s : State) : Result :=
  .next (issue k.val .mfa (fun f s => writeRd k.val f (moveFromAcc (s.steward k.val).acc (fN f.w)) s) s)

def execMta (k : Fin 9) (s : State) : Result :=
  .next (issue k.val .mta (fun f s =>
    let v := moveToAcc (s.steward k.val).acc (fN f.w) (srcS k.val f s)
    complete k.val f [] none none (fun x => { x with acc := v }) s) s)

end Sys2Proof.Machine
end

