-- ==== Sys2Proof/Machine/StewardMem.lean ====
section
/-! DEFINITION. The memory instructions of the stewards: loads, stores, I/O, atomic access and block instructions (R469 to
R471, R479 to R481, R563). -/

namespace Sys2Proof.Machine

/-- The master that steward k is. -/
def masterOf (k : Nat) : Master := if h : k < 8 then .steward ⟨k, h⟩ else .vc

/-- The resource of a steward's access: its own half's memory ports, which its own half's I/O counts as too, or the cross-half
link (R84, R85). -/
def stewResource (a : Nat) : Nat := if a < 0x80000 then 0 else 1

/-- The state with a steward's access acknowledged and charged to STEW, or none while it is withheld (R85, R89, R481). No
governor meters the VC. -/
def State.stewAck (s : State) (k a : Nat) : Option State :=
  if k < 8 then s.access (stewHalf k) actStew (stewResource a) else some s

/-- The governor withholds the acknowledge of a steward's access (R89). -/
def State.stewHeld (s : State) (k a : Nat) : Bool := (s.stewAck k a).isNone

/-- What an instruction does with its access acknowledged; until then it waits, and so does the access (R89). -/
def onAccess (k a : Nat) (go : State → State) (s : State) : State :=
  match s.stewAck k a with
  | some t => go t
  | none => awaitAccess (stewHalf k) actStew (stewResource a) s

/-- An instruction of two accesses is held while one of them is. -/
def State.stewHeldBoth (s : State) (k a b : Nat) : Bool := ((s.stewAck k a).bind (fun t => t.stewAck k b)).isNone

/-- What an instruction does with both its accesses acknowledged. -/
def onBoth (k a b : Nat) (go : State → State) (s : State) : State :=
  match s.stewAck k a with
  | some t =>
    (match t.stewAck k b with
     | some u => go u
     | none => awaitAccess (stewHalf k) actStew (stewResource b) s)
  | none => awaitAccess (stewHalf k) actStew (stewResource a) s

/-- The effective addresses (R469). -/
def addrShort (k : Nat) (f : Fetched) (s : State) : Word := srcS k f s + fImm7 f.w
def addrLong (k : Nat) (f : Fetched) (s : State) : Word := srcS k f s + f.ext

/-- The register a store or an OUT writes from. -/
def srcD (k : Nat) (f : Fetched) (s : State) : Word := wreg (s.steward k) (fD f.w)

/-- A data read that ends in a trap or goes on with the word (R565, R571). -/
def readOrTrap (k : Nat) (f : Fetched) (a : Word) (go : Word → State → State) (s : State) : State :=
  let o := dataRead k a.toNat s
  match o.1 with
  | .word w => go w o.2
  | .decc => enterTrap k trapDecc f (some a) o.2
  | .daddr => enterTrap k trapDaddr f (some a) o.2

/-- A data write, superseded where a lower-numbered port writes the word in the same handshake stage (R563); none where it
lies outside the VC's map. -/
def storeWord (k : Nat) (a v : Word) (clash : Bool) (s : State) : Option State :=
  if clash && decide (k < 8) && (decide ((stewPlace k a.toNat).1 = stewHalf k) || s.memoryUp (stewPlace k a.toNat).1) then
    some (supersede k a.toNat s)
  else dataWrite k a.toNat v s

/-- A data write that ends in a trap or goes on. -/
def writeOrTrap (k : Nat) (f : Fetched) (a v : Word) (clash : Bool) (go : State → State) (s : State) : State :=
  match storeWord k a v clash s with
  | some s1 => go s1
  | none => enterTrap k trapDaddr f (some a) s

/-! ## Loads and stores (R469, R470) -/

/-- rd := dmem[a], with its load delay. -/
def loadFrom (k : Nat) (f : Fetched) (a : Word) (s : State) : State :=
  onAccess k a.toNat (readOrTrap k f a (fun w s => complete k f [] (some (fD f.w, w)) none id s)) s

/-- dmem[a] := rt. -/
def storeTo (k : Nat) (f : Fetched) (a : Word) (clash : Bool) (s : State) : State :=
  onAccess k a.toNat (writeOrTrap k f a (srcD k f s) clash (fun s => complete k f [] none none id s)) s

/-- rd := io[a], with its load delay. A read of the other half's I/O waits for the cross-half link's acknowledge (R33, R89). -/
def inFrom (k : Nat) (f : Fetched) (a : Word) (s : State) : State :=
  let go (s : State) : State :=
    let o := ioRead (masterOf k) a.toNat s
    complete k f [] (some (fD f.w, o.1)) none id o.2
  if k < 8 ∧ 0x80000 ≤ a.toNat then
    match s.admitted (stewHalf k) actStew 1 with
    | some t => go t
    | none => awaitAccess (stewHalf k) actStew 1 s
  else onAccess k a.toNat go s

/-- io[a] := rt: the OUT retires and its register takes or refuses the write; what the write makes due falls at the boundary
after it (R463, R488). -/
def outTo (k : Nat) (f : Fetched) (a : Word) (s : State) : State :=
  onAccess k a.toNat (fun t => boundary k (ioWrite (masterOf k) a.toNat (srcD k f s) (retire k f [] none none id t))) s

def execLd (k : Fin 9) (s : State) : Result :=
  .next (issue k.val .ld (fun f s => loadFrom k.val f (addrShort k.val f s) s) s)

def execLdx (k : Fin 9) (s : State) : Result :=
  .next (issue k.val .ldx (fun f s => loadFrom k.val f (addrLong k.val f s) s) s)

def execSt (k : Fin 9) (clash : Bool) (s : State) : Result :=
  .next (issue k.val .st (fun f s => storeTo k.val f (addrShort k.val f s) clash s) s)

def execStx (k : Fin 9) (clash : Bool) (s : State) : Result :=
  .next (issue k.val .stx (fun f s => storeTo k.val f (addrLong k.val f s) clash s) s)

def execInShort (k : Fin 9) (s : State) : Result :=
  .next (issue k.val .in (fun f s => inFrom k.val f (addrShort k.val f s) s) s)

def execInx (k : Fin 9) (s : State) : Result :=
  .next (issue k.val .inx (fun f s => inFrom k.val f (addrLong k.val f s) s) s)

def execOut (k : Fin 9) (s : State) : Result :=
  .next (issue k.val .out (fun f s => outTo k.val f (addrShort k.val f s) s) s)

def execOutx (k : Fin 9) (s : State) : Result :=
  .next (issue k.val .outx (fun f s => outTo k.val f (addrLong k.val f s) s) s)

/-! ## Atomic access (R479) -/

/-- LR: the word, and a reservation of its address. -/
def execLr (k : Fin 9) (s : State) : Result :=
  .next (issue k.val .lr (fun f s =>
    let a := srcS k.val f s
    onAccess k.val a.toNat (readOrTrap k.val f a (fun w s =>
      complete k.val f [] (some (fD f.w, w)) none (fun x => { setCreg x crRSVA a with rsv := some a }) s)) s) s)

/-- SC: stores and gives 1 where the reservation is of its address and no other master writes the word in the same handshake
stage; else gives 0. -/
def execSc (k : Fin 9) (clash : Bool) (s : State) : Result :=
  .next (issue k.val .sc (fun f s =>
    let a := srcS k.val f s
    let finish (v : Word) (s : State) : State :=
      complete k.val f [] (some (fD f.w, v)) none (fun x => { x with rsv := none }) s
    onAccess k.val a.toNat (fun s =>
      if (s.steward k.val).rsv = some a ∧ clash = false then writeOrTrap k.val f a (srcT k.val f s) false (finish 1) s
      else finish 0 s) s) s)

/-- TAS: reads the word and writes 1, in one access. -/
def execTas (k : Fin 9) (s : State) : Result :=
  .next (issue k.val .tas (fun f s =>
    let a := srcS k.val f s
    onAccess k.val a.toNat (readOrTrap k.val f a (fun w s =>
      writeOrTrap k.val f a 1 false (fun s => complete k.val f [] (some (fD f.w, w)) none id s) s)) s) s)

/-! ## Block instructions (R480, R481) -/

/-- A block instruction in the delay position reads the loaded value (R471). -/
def blockRegs (k : Nat) (s : State) : Steward := settleLoad (s.steward k) none

/-- A word of a block instruction is done: its registers describe the words that remain. With none left the instruction
completes; else the steward stands at a boundary before it. -/
def blockWord (k : Nat) (f : Fetched) (wr : List (Nat × Word)) (acc : BitVec 48) (left : Word) (s : State) : State :=
  if left = 0 then complete k f wr none none (fun x => { x with acc := acc }) s
  else
    let x := wr.foldl (fun x (e : Nat × Word) => setWreg x e.1 e.2) (blockRegs k s)
    boundary k (s.setSteward k { x with acc := acc, last := f.addr, skipBreak := false })

/-- BLKMOV: one word, or its completion where the count is 0. -/
def blkmovWord (k : Nat) (clash : Bool) (f : Fetched) (s : State) : State :=
  let d := fD f.w
  let r := fS f.w
  let t := fT f.w
  if d = 0 ∨ r = 0 ∨ t = 0 ∨ d = r ∨ d = t ∨ r = t then enterTrap k trapReserved f none s
  else
    let x := blockRegs k s
    let n := wreg x t
    if n = 0 then complete k f [] none none id s
    else onBoth k (wreg x r).toNat (wreg x d).toNat (readOrTrap k f (wreg x r) (fun w s =>
      writeOrTrap k f (wreg x d) w clash
        (blockWord k f [(d, wreg x d + 1), (r, wreg x r + 1), (t, n - 1)] x.acc (n - 1)) s)) s

/-- BLKFILL, likewise. -/
def blkfillWord (k : Nat) (clash : Bool) (f : Fetched) (s : State) : State :=
  let d := fD f.w
  let r := fS f.w
  let t := fT f.w
  if d = 0 ∨ t = 0 ∨ d = r ∨ d = t ∨ r = t then enterTrap k trapReserved f none s
  else
    let x := blockRegs k s
    let n := wreg x t
    if n = 0 then complete k f [] none none id s
    else onAccess k (wreg x d).toNat (writeOrTrap k f (wreg x d) (wreg x r) clash
      (blockWord k f [(d, wreg x d + 1), (t, n - 1)] x.acc (n - 1))) s

/-- BLKCRC, likewise. -/
def blkcrcWord (k : Nat) (f : Fetched) (s : State) : State :=
  let r := fS f.w
  let t := fT f.w
  if r = 0 ∨ t = 0 ∨ r = t then enterTrap k trapReserved f none s
  else
    let x := blockRegs k s
    let n := wreg x t
    if n = 0 then complete k f [] none none id s
    else onAccess k (wreg x r).toNat (readOrTrap k f (wreg x r) (fun w s =>
      blockWord k f [(r, wreg x r + 1), (t, n - 1)] (blkCrcWord (fD f.w) x.acc w) (n - 1) s)) s

def execBlkmov (k : Fin 9) (clash : Bool) (s : State) : Result :=
  .next (issue k.val .blkmov (blkmovWord k.val clash) s)

def execBlkfill (k : Fin 9) (clash : Bool) (s : State) : Result :=
  .next (issue k.val .blkfill (blkfillWord k.val clash) s)

def execBlkcrc (k : Fin 9) (s : State) : Result := .next (issue k.val .blkcrc (blkcrcWord k.val) s)

end Sys2Proof.Machine
end

