-- ==== Sys2Proof/Machine/StewardFlow.lean ====
section
/-! DEFINITION. Branches, jumps, loops, system instructions and traps of the stewards, and what starts, stops and debugs
them (R461, R472 to R476, R482 to R493). -/

namespace Sys2Proof.Machine

/-! ## Branches and jumps (R472, R473) -/

/-- A branch: to the target where it is taken. -/
def branch (k : Nat) (f : Fetched) (taken : Bool) (target : Word) (s : State) : State :=
  complete k f [] none (if taken then some target else none) id s

def execBz (k : Fin 9) (s : State) : Result :=
  .next (issue k.val .bz (fun f s =>
    branch k.val f (bzTaken (fCond f.w) (wreg (s.steward k.val) (fBrS f.w))) (f.addr + fOff8 f.w) s) s)

def execBr (k : Fin 9) (s : State) : Result :=
  .next (issue k.val .br (fun f s =>
    let x := s.steward k.val
    branch k.val f (brTaken (fCond f.w) (wreg x (fBrS f.w)) (wreg x (fBrT f.w))) (f.addr + f.ext) s) s)

def execJ (k : Fin 9) (s : State) : Result :=
  .next (issue k.val .j (fun f s => complete k.val f [] none (some f.ext) id s) s)

def execJr (k : Fin 9) (s : State) : Result :=
  .next (issue k.val .jr (fun f s =>
    complete k.val f [] none (some (wreg (s.steward k.val) (fSysReg f.w))) id s) s)

/-- Pushes the return address and transfers control. -/
def callTo (k : Nat) (f : Fetched) (target : Word) (clash : Bool) (s : State) : State :=
  let sp := wreg (s.steward k) 15 - 1
  onAccess k sp.toNat (writeOrTrap k f sp (nextAddr f) clash (fun s => complete k f [(15, sp)] none (some target) id s)) s

def execCall (k : Fin 9) (clash : Bool) (s : State) : Result :=
  .next (issue k.val .call (fun f s => callTo k.val f f.ext clash s) s)

def execCallr (k : Fin 9) (clash : Bool) (s : State) : Result :=
  .next (issue k.val .callr (fun f s => callTo k.val f (wreg (s.steward k.val) (fSysReg f.w)) clash s) s)

def execRet (k : Fin 9) (s : State) : Result :=
  .next (issue k.val .ret (fun f s =>
    let sp := wreg (s.steward k.val) 15
    onAccess k.val sp.toNat (readOrTrap k.val f sp (fun w s => complete k.val f [(15, sp + 1)] none (some w) id s)) s) s)

/-- RETI (R484): RSV of the word popped is ignored. -/
def execReti (k : Fin 9) (s : State) : Result :=
  .next (issue k.val .reti (fun f s =>
    let sp := wreg (s.steward k.val) 15
    onBoth k.val sp.toNat (sp + 1).toNat (readOrTrap k.val f sp (fun p s =>
      readOrTrap k.val f (sp + 1) (fun v s =>
        complete k.val f [(15, sp + 2)] none (some p) (fun x => { setSr x v with rsv := none }) s) s)) s) s)

/-! ## Loops (R474) -/

/-- LOOP. -/
def loopBody (k : Nat) (f : Fetched) (s : State) : State :=
  let x := s.steward k
  let c := if fD f.w = 0 then BitVec.ofNat 20 (bits f.w 10 0) else wreg x (fD f.w)
  let e := f.addr + f.ext
  let l := srLD x
  if f.ext.toNat < 2 then enterTrap k trapReserved f none s
  else if l = 3 then enterTrap k trapLoopOvf f none s
  else if c = 0 then complete k f [] none (some (e + 1)) id s
  else complete k f [] none none
    (fun y => setLD (setCreg (setCreg (setCreg y (crLS l) (f.addr + 2)) (crLE l) e) (crLC l) c) (l + 1)) s

def execLoopOpen (k : Fin 9) (s : State) : Result := .next (issue k.val .loop (loopBody k.val) s)

def execLpop (k : Fin 9) (s : State) : Result :=
  .next (issue k.val .lpop (fun f s =>
    let l := srLD (s.steward k.val)
    if l = 0 then enterTrap k.val trapLoopUnf f none s
    else complete k.val f [] none none (fun x => setLD x (l - 1)) s) s)

/-! ## System instructions (R461, R463, R475, R476) -/

def execNop (k : Fin 9) (s : State) : Result :=
  .next (issue k.val .nop (fun f s => complete k.val f [] none none id s) s)

/-- WAIT: the steward waits at the instruction; a stop or a halt that is due takes place. -/
def execWait (k : Fin 9) (s : State) : Result :=
  .next (issue k.val .wait (fun f s =>
    let x := settleLoad (s.steward k.val) none
    let s1 := s.setSteward k.val { x with mode := .waiting, last := f.addr, skipBreak := false }
    if x.stopDue || x.haltDue.isSome then boundary k.val s1 else s1) s)

def execBrk (k : Fin 9) (s : State) : Result :=
  .next (issue k.val .brk (fun f s =>
    if s.flag (stewKey k.val) Reg.STW_CTL_BRK_DBG then haltNow k.val 2 (retire k.val f [] none none id s)
    else enterTrap k.val trapBreak f none s) s)

/-- FENCE: in the model every earlier access has completed. -/
def execFence (k : Fin 9) (s : State) : Result :=
  .next (issue k.val .fence (fun f s => complete k.val f [] none none id s) s)

/-- TRAP, and the traps that meet an instruction before it executes: SOFT, RESERVED, FETCH and IECC (R483, R486). -/
def execTrap (k : Fin 9) (s : State) : Result :=
  .next (if s.stewardRuns k.val && (breakAt k.val s).isNone then
    let o := fetchAt k.val (s.steward k.val).pc s
    match o.1 with
    | .fails code f => enterTrap k.val code f none o.2
    | .got f =>
      (match decodeStew f.w with
       | none => enterTrap k.val trapReserved f none o.2
       | some op => if op = .trap then enterTrap k.val trapSoft f none o.2 else s)
  else s)

def execMfc (k : Fin 9) (s : State) : Result :=
  .next (issue k.val .mfc (fun f s =>
    match readCreg (s.steward k.val) (fAux f.w) with
    | some v => complete k.val f [(fSysReg f.w, v)] none none id s
    | none => enterTrap k.val trapReserved f none s) s)

def execMtc (k : Fin 9) (s : State) : Result :=
  .next (issue k.val .mtc (fun f s =>
    let v := wreg (s.steward k.val) (fSysReg f.w)
    if (writeCreg (s.steward k.val) (fAux f.w) v).isSome then
      complete k.val f [] none none (fun x => (writeCreg x (fAux f.w) v).getD x) s
    else enterTrap k.val trapReserved f none s) s)

def execEi (k : Fin 9) (s : State) : Result :=
  .next (issue k.val .ei (fun f s => complete k.val f [] none none (fun x => setIE x true) s) s)

def execDi (k : Fin 9) (s : State) : Result :=
  .next (issue k.val .di (fun f s => complete k.val f [] none none (fun x => setIE x false) s) s)

/-! ## Control from outside (R487, R491, R493) -/

/-- A steward that can be controlled: its half is out of reset, or it is the VC outside OFF. -/
def State.stewardUp (s : State) (k : Nat) : Bool :=
  if k < 8 then s.computes (stewHalf k) else decide (s.power.mode ≠ .off)

/-- A control action on a steward that is up. -/
def onSteward (k : Nat) (g : State → State) (s : State) : State := if s.stewardUp k then g s else s

/-- STEWARD_START (R491): RUN is written 1. -/
def execStewardStart (k : Fin 9) (s : State) : Result :=
  .next (onSteward k.val (fun s => writeStwCtl k.val ((s.reg (stewKey k.val + Reg.STW_CTL) &&& 0x00070) ||| 1) s) s)

/-- STEWARD_STOP (R491): RUN is written 0. -/
def execStewardStop (k : Fin 9) (s : State) : Result :=
  .next (onSteward k.val (fun s => writeStwCtl k.val (s.reg (stewKey k.val + Reg.STW_CTL) &&& 0x00070) s) s)

/-- HALT_REQUEST (R487). -/
def execStewardHalt (k : Fin 9) (s : State) : Result := .next (onSteward k.val (haltRequest k.val) s)

/-- BREAKPOINT_HALT (R487). -/
def execBreakpointHalt (k : Fin 9) (s : State) : Result :=
  .next (if s.stewardRuns k.val then
    match breakAt k.val s with
    | some c => haltNow k.val c s
    | none => s
  else s)

/-- RESUME (R487). -/
def execStewardResume (k : Fin 9) (s : State) : Result := .next (onSteward k.val (resumeRequest k.val) s)

/-- STEP (R487): one unit of R471, or one word of a block instruction, which ends in debug halt. -/
def execStewardStep (k : Fin 9) (s : State) : Result := .next (onSteward k.val (stepRequest k.val) s)

/-- STEWARD_REGISTER_WRITE (R493). -/
def execStewardRegisterWrite (k : Fin 9) (value : Word) (s : State) : Result :=
  .next (onSteward k.val (writeRdat k.val value) s)

end Sys2Proof.Machine
end

