-- ==== Sys2Proof/Machine/Dispatch.lean ====
section
/-! DEFINITION. The command's effect on everything but the queue: one arm per constructor, each one call of a meaning. -/

namespace Sys2Proof.Machine

/-- The effect of a command. -/
def exec (i : Instr) (s : State) : Host.Outcome State Fault Refusal :=
  match i with
  | .registerWrite m addr value => Sys2Proof.Machine.execRegisterWrite m addr value s
  | .watchBoundary disagree => Sys2Proof.Machine.execWatchBoundary disagree s
  | .heartbeat h seq => Sys2Proof.Machine.execHeartbeat h seq s
  | .declareFault h key => Sys2Proof.Machine.execDeclareFault h key s
  | .selfCheckDone passA passB => Sys2Proof.Machine.execSelfCheckDone passA passB s
  | .supplyFail h => Sys2Proof.Machine.execSupplyFail h s
  | .supplyRecovery h => Sys2Proof.Machine.execSupplyRecovery h s
  | .halfResetEntry h => Sys2Proof.Machine.execHalfResetEntry h s
  | .bootwaitExpiry h => Sys2Proof.Machine.execBootwaitExpiry h s
  | .seatGive m all bay => Sys2Proof.Machine.execSeatGive m all bay s
  | .seatClaim m all bay => Sys2Proof.Machine.execSeatClaim m all bay s
  | .mirrorSyncBay h bay agree => Sys2Proof.Machine.execMirrorSyncBay h bay agree s
  | .terminalPathSwitch t => Sys2Proof.Machine.execTerminalPathSwitch t s
  | .transferRequest h a r counts => Sys2Proof.Machine.execTransferRequest h a r counts s
  | .stalledRequestAck h a r => Sys2Proof.Machine.execStalledRequestAck h a r s
  | .lendRelease h => Sys2Proof.Machine.execLendRelease h s
  | .budgetCommit h => Sys2Proof.Machine.execBudgetCommit h s
  | .watchLengthWrite h us => Sys2Proof.Machine.execWatchLengthWrite h us s
  | .profileRequest m target acked => Sys2Proof.Machine.execProfileRequest m target acked s
  | .regulatorPoll readA readB acked => Sys2Proof.Machine.execRegulatorPoll readA readB acked s
  | .profileTimeout => Sys2Proof.Machine.execProfileTimeout s
  | .timebaseWrap t => Sys2Proof.Machine.execTimebaseWrap t s
  | .timebaseStage m t r value => Sys2Proof.Machine.execTimebaseStage m t r value s
  | .timebaseEnable m t en => Sys2Proof.Machine.execTimebaseEnable m t en s
  | .chainSnapshotRead m t => Sys2Proof.Machine.execChainSnapshotRead m t s
  | .compareArm m t value => Sys2Proof.Machine.execCompareArm m t value s
  | .compareMatch t => Sys2Proof.Machine.execCompareMatch t s
  | .captureEdge t unit rise => Sys2Proof.Machine.execCaptureEdge t unit rise s
  | .lfxEdgeCoarse => Sys2Proof.Machine.execLfxEdgeCoarse s
  | .gpInputEdge p rise => Sys2Proof.Machine.execGpInputEdge p rise s
  | .slotPeriodStart t => Sys2Proof.Machine.execSlotPeriodStart t s
  | .pulseRise t => Sys2Proof.Machine.execPulseRise t s
  | .tripBlankEnd t => Sys2Proof.Machine.execTripBlankEnd t s
  | .pulseFall t => Sys2Proof.Machine.execPulseFall t s
  | .sarCycle bay code => Sys2Proof.Machine.execSarCycle bay code s
  | .thresholdReadback bay which code => Sys2Proof.Machine.execThresholdReadback bay which code s
  | .thresholdStale bay which => Sys2Proof.Machine.execThresholdStale bay which s
  | .complianceLoss t => Sys2Proof.Machine.execComplianceLoss t s
  | .trip t => Sys2Proof.Machine.execTrip t s
  | .tripClear m t => Sys2Proof.Machine.execTripClear m t s
  | .tdAgeTick => Sys2Proof.Machine.execTdAgeTick s
  | .talkRequest m t op arg => Sys2Proof.Machine.execTalkRequest m t op arg s
  | .talkCancel m t => Sys2Proof.Machine.execTalkCancel m t s
  | .talkExchangeStart t => Sys2Proof.Machine.execTalkExchangeStart t s
  | .talkExchangeEnd t reply => Sys2Proof.Machine.execTalkExchangeEnd t reply s
  | .talkOneSecondMark t => Sys2Proof.Machine.execTalkOneSecondMark t s
  | .lineTrip b volts => Sys2Proof.Machine.execLineTrip b volts s
  | .lineBlankEnd b above => Sys2Proof.Machine.execLineBlankEnd b above s
  | .lineTripClear m b volts amps => Sys2Proof.Machine.execLineTripClear m b volts amps s
  | .synthFreqWrite m j freq => Sys2Proof.Machine.execSynthFreqWrite m j freq s
  | .synthCalRequest m j => Sys2Proof.Machine.execSynthCalRequest m j s
  | .synthGateApply j => Sys2Proof.Machine.execSynthGateApply j s
  | .synthCalDone j ok => Sys2Proof.Machine.execSynthCalDone j ok s
  | .synthSettleDone j => Sys2Proof.Machine.execSynthSettleDone j s
  | .synthUnlock j => Sys2Proof.Machine.execSynthUnlock j s
  | .synthRetry j => Sys2Proof.Machine.execSynthRetry j s
  | .lsTempUpdate j now => Sys2Proof.Machine.execLsTempUpdate j now s
  | .lineDeferExpiry b => Sys2Proof.Machine.execLineDeferExpiry b s
  | .transmitBufferWrite m b value => Sys2Proof.Machine.execTransmitBufferWrite m b value s
  | .lineSubmit m b id => Sys2Proof.Machine.execLineSubmit m b id s
  | .lineCancel m b mask => Sys2Proof.Machine.execLineCancel m b mask s
  | .lineDisable m b => Sys2Proof.Machine.execLineDisable m b s
  | .receivePop m b => Sys2Proof.Machine.execReceivePop m b s
  | .receiveDataRead m b => Sys2Proof.Machine.execReceiveDataRead m b s
  | .leStart m b => Sys2Proof.Machine.execLeStart m b s
  | .leStop m b => Sys2Proof.Machine.execLeStop m b s
  | .leAbort m b => Sys2Proof.Machine.execLeAbort m b s
  | .leStep m b input => Sys2Proof.Machine.execLeStep m b input s
  | .leResume m b => Sys2Proof.Machine.execLeResume m b s
  | .leSwap m b restart force => Sys2Proof.Machine.execLeSwap m b restart force s
  | .leSwapTakeEffect b => Sys2Proof.Machine.execLeSwapTakeEffect b s
  | .leSwapLate b => Sys2Proof.Machine.execLeSwapLate b s
  | .leLate b => Sys2Proof.Machine.execLeLate b s
  | .programWordWrite m b hi => Sys2Proof.Machine.execProgramWordWrite m b hi s
  | .leBr b => Sys2Proof.Machine.execLeBr b s
  | .leCall b => Sys2Proof.Machine.execLeCall b s
  | .leSym b => Sys2Proof.Machine.execLeSym b s
  | .leSmp b input => Sys2Proof.Machine.execLeSmp b input s
  | .leWait b => Sys2Proof.Machine.execLeWait b s
  | .leWaitEnd b => Sys2Proof.Machine.execLeWaitEnd b s
  | .leAlignStop b => Sys2Proof.Machine.execLeAlignStop b s
  | .leAlignEdge b => Sys2Proof.Machine.execLeAlignEdge b s
  | .leAlignSoft b => Sys2Proof.Machine.execLeAlignSoft b s
  | .leLdi b => Sys2Proof.Machine.execLeLdi b s
  | .leAlu b => Sys2Proof.Machine.execLeAlu b s
  | .leDjnz b => Sys2Proof.Machine.execLeDjnz b s
  | .leMov b => Sys2Proof.Machine.execLeMov b s
  | .leGet b => Sys2Proof.Machine.execLeGet b s
  | .lePut b => Sys2Proof.Machine.execLePut b s
  | .leCrcInit b => Sys2Proof.Machine.execLeCrcInit b s
  | .leCrcCheck b => Sys2Proof.Machine.execLeCrcCheck b s
  | .leCrcLoad b => Sys2Proof.Machine.execLeCrcLoad b s
  | .leIdle b => Sys2Proof.Machine.execLeIdle b s
  | .leIdleReturn b => Sys2Proof.Machine.execLeIdleReturn b s
  | .finTxok b => Sys2Proof.Machine.execFinTxok b s
  | .finNoack b => Sys2Proof.Machine.execFinNoack b s
  | .finArblost b => Sys2Proof.Machine.execFinArblost b s
  | .finColl b => Sys2Proof.Machine.execFinColl b s
  | .finTxabort b => Sys2Proof.Machine.execFinTxabort b s
  | .finDecide b => Sys2Proof.Machine.execFinDecide b s
  | .finOpen b => Sys2Proof.Machine.execFinOpen b s
  | .finDeliver b => Sys2Proof.Machine.execFinDeliver b s
  | .finBadcrc b => Sys2Proof.Machine.execFinBadcrc b s
  | .finBadfmt b => Sys2Proof.Machine.execFinBadfmt b s
  | .leHaltBreak b => Sys2Proof.Machine.execLeHaltBreak b s
  | .leFault b => Sys2Proof.Machine.execLeFault b s
  | .pollInstant b => Sys2Proof.Machine.execPollInstant b s
  | .pollRelease b => Sys2Proof.Machine.execPollRelease b s
  | .replyWaitExpiry b => Sys2Proof.Machine.execReplyWaitExpiry b s
  | .pipelineInput b => Sys2Proof.Machine.execPipelineInput b s
  | .pollEntryCommit m b value => Sys2Proof.Machine.execPollEntryCommit m b value s
  | .pipelineEnable m b => Sys2Proof.Machine.execPipelineEnable m b s
  | .pipelineDisable m b => Sys2Proof.Machine.execPipelineDisable m b s
  | .identRequest m b node => Sys2Proof.Machine.execIdentRequest m b node s
  | .customSetCommit m b value => Sys2Proof.Machine.execCustomSetCommit m b value s
  | .recogniserConfigWrite m b value => Sys2Proof.Machine.execRecogniserConfigWrite m b value s
  | .recogniserAck m b value => Sys2Proof.Machine.execRecogniserAck m b value s
  | .codeItem h e => Sys2Proof.Machine.execCodeItem h e s
  | .codeRecord h e => Sys2Proof.Machine.execCodeRecord h e s
  | .sealDeadline h c => Sys2Proof.Machine.execSealDeadline h c s
  | .pfailSeal h c => Sys2Proof.Machine.execPfailSeal h c s
  | .takeoverSeal h c => Sys2Proof.Machine.execTakeoverSeal h c s
  | .channelFlush m b all entry => Sys2Proof.Machine.execChannelFlush m b all entry s
  | .codingCommit m b value => Sys2Proof.Machine.execCodingCommit m b value s
  | .metrologyCodingWrite value => Sys2Proof.Machine.execMetrologyCodingWrite value s
  | .sealQueueWaitEnd h e => Sys2Proof.Machine.execSealQueueWaitEnd h e s
  | .metrologyCycleEnd b feeders => Sys2Proof.Machine.execMetrologyCycleEnd b feeders s
  | .msecSecond meas => Sys2Proof.Machine.execMsecSecond meas s
  | .vmetFall feeders saved => Sys2Proof.Machine.execVmetFall feeders saved s
  | .metrologyStart tests => Sys2Proof.Machine.execMetrologyStart tests s
  | .sealChange openSeal => Sys2Proof.Machine.execSealChange openSeal s
  | .getId payload crcOk => Sys2Proof.Machine.execGetId payload crcOk s
  | .getParam payload crcOk => Sys2Proof.Machine.execGetParam payload crcOk s
  | .getLog payload crcOk => Sys2Proof.Machine.execGetLog payload crcOk s
  | .getEnergy payload crcOk => Sys2Proof.Machine.execGetEnergy payload crcOk s
  | .setParam payload crcOk => Sys2Proof.Machine.execSetParam payload crcOk s
  | .commitParams payload crcOk => Sys2Proof.Machine.execCommitParams payload crcOk s
  | .discardParams payload crcOk => Sys2Proof.Machine.execDiscardParams payload crcOk s
  | .selftestRom pass => Sys2Proof.Machine.execSelftestRom pass s
  | .selftestLrp pass => Sys2Proof.Machine.execSelftestLrp pass s
  | .xmetFail => Sys2Proof.Machine.execXmetFail s
  | .watchdogExpiry tests => Sys2Proof.Machine.execWatchdogExpiry tests s
  | .phaseLoss c => Sys2Proof.Machine.execPhaseLoss c s
  | .phaseReturn c => Sys2Proof.Machine.execPhaseReturn c s
  | .displayFrame => Sys2Proof.Machine.execDisplayFrame s
  | .displayTimeout => Sys2Proof.Machine.execDisplayTimeout s
  | .energyPulse reactive => Sys2Proof.Machine.execEnergyPulse reactive s
  | .statusFrame ticks => Sys2Proof.Machine.execStatusFrame ticks s
  | .samplesFrame input tick values => Sys2Proof.Machine.execSamplesFrame input tick values s
  | .recordFrame body => Sys2Proof.Machine.execRecordFrame body s
  | .linkResend => Sys2Proof.Machine.execLinkResend s
  | .metRead how => Sys2Proof.Machine.execMetRead how s
  | .metReport how => Sys2Proof.Machine.execMetReport how s
  | .metStream how => Sys2Proof.Machine.execMetStream how s
  | .metLogread how => Sys2Proof.Machine.execMetLogread how s
  | .metDisplay how => Sys2Proof.Machine.execMetDisplay how s
  | .metTariff how => Sys2Proof.Machine.execMetTariff how s
  | .metrologyFrameAccept crcOk => Sys2Proof.Machine.execMetrologyFrameAccept crcOk s
  | .metrologyStatusReceived crcOk => Sys2Proof.Machine.execMetrologyStatusReceived crcOk s
  | .metrologyLinkDown => Sys2Proof.Machine.execMetrologyLinkDown s
  | .metCommandSend m w => Sys2Proof.Machine.execMetCommandSend m w s
  | .metNolinkTimeout => Sys2Proof.Machine.execMetNolinkTimeout s
  | .bushelCommit h => Sys2Proof.Machine.execBushelCommit h s
  | .pageProgram => Sys2Proof.Machine.execPageProgram s
  | .pageProgramDone pass => Sys2Proof.Machine.execPageProgramDone pass s
  | .slotErase => Sys2Proof.Machine.execSlotErase s
  | .slotEraseDone pass => Sys2Proof.Machine.execSlotEraseDone pass s
  | .slotRefresh => Sys2Proof.Machine.execSlotRefresh s
  | .archiveEnable m chips torn => Sys2Proof.Machine.execArchiveEnable m chips torn s
  | .archiveRecoveryDone firstBad => Sys2Proof.Machine.execArchiveRecoveryDone firstBad s
  | .archiveDisable m => Sys2Proof.Machine.execArchiveDisable m s
  | .archiveFormat m key => Sys2Proof.Machine.execArchiveFormat m key s
  | .archiveFormatDone chips => Sys2Proof.Machine.execArchiveFormatDone chips s
  | .archiveRead m parm => Sys2Proof.Machine.execArchiveRead m parm s
  | .archiveFind m parm => Sys2Proof.Machine.execArchiveFind m parm s
  | .archiveNext m => Sys2Proof.Machine.execArchiveNext m s
  | .archiveRequestDone corr => Sys2Proof.Machine.execArchiveRequestDone corr s
  | .replicaSend => Sys2Proof.Machine.execReplicaSend s
  | .replicaResend => Sys2Proof.Machine.execReplicaResend s
  | .rackReceived l lap off ok => Sys2Proof.Machine.execRackReceived l lap off ok s
  | .replReceived l p lap off => Sys2Proof.Machine.execReplReceived l p lap off s
  | .originFree m value => Sys2Proof.Machine.execOriginFree m value s
  | .blockLock l => Sys2Proof.Machine.execBlockLock l s
  | .blockLockLost l => Sys2Proof.Machine.execBlockLockLost l s
  | .linkDown l => Sys2Proof.Machine.execLinkDown l s
  | .helloSend => Sys2Proof.Machine.execHelloSend s
  | .helloReceived l p => Sys2Proof.Machine.execHelloReceived l p s
  | .helloTimeout l => Sys2Proof.Machine.execHelloTimeout l s
  | .rootExpiry => Sys2Proof.Machine.execRootExpiry s
  | .creditReceived l c n => Sys2Proof.Machine.execCreditReceived l c n s
  | .egressStuck l c => Sys2Proof.Machine.execEgressStuck l c s
  | .packetTransit l p how => Sys2Proof.Machine.execPacketTransit l p how s
  | .claimReceived l p => Sys2Proof.Machine.execClaimReceived l p s
  | .claimFlood => Sys2Proof.Machine.execClaimFlood s
  | .addressHeld => Sys2Proof.Machine.execAddressHeld s
  | .addressSearchRestart => Sys2Proof.Machine.execAddressSearchRestart s
  | .routeReceived l p => Sys2Proof.Machine.execRouteReceived l p s
  | .routePeriodic => Sys2Proof.Machine.execRoutePeriodic s
  | .routeTriggered => Sys2Proof.Machine.execRouteTriggered s
  | .routeOfferLapse a l => Sys2Proof.Machine.execRouteOfferLapse a l s
  | .routeGoneExpiry a => Sys2Proof.Machine.execRouteGoneExpiry a s
  | .syncSend l sub => Sys2Proof.Machine.execSyncSend l sub s
  | .syncReceived l seq sub turn => Sys2Proof.Machine.execSyncReceived l seq sub turn s
  | .syncrReceived l seq sub => Sys2Proof.Machine.execSyncrReceived l seq sub s
  | .timestampsReceived l seq t1 t4 => Sys2Proof.Machine.execTimestampsReceived l seq t1 t4 s
  | .tsyncTimeout => Sys2Proof.Machine.execTsyncTimeout s
  | .swapRequest l m => Sys2Proof.Machine.execSwapRequest l m s
  | .roleReqReceived l seq => Sys2Proof.Machine.execRoleReqReceived l seq s
  | .roleAckReceived l seq => Sys2Proof.Machine.execRoleAckReceived l seq s
  | .roleNakReceived l seq collided => Sys2Proof.Machine.execRoleNakReceived l seq collided s
  | .swapTimeout l => Sys2Proof.Machine.execSwapTimeout l s
  | .swapBackoffEnd l => Sys2Proof.Machine.execSwapBackoffEnd l s
  | .timeSetWrite m hi => Sys2Proof.Machine.execTimeSetWrite m hi s
  | .alarmReceived l p => Sys2Proof.Machine.execAlarmReceived l p s
  | .alsumReceived l p => Sys2Proof.Machine.execAlsumReceived l p s
  | .alarmSummary k => Sys2Proof.Machine.execAlarmSummary k s
  | .cmdReceived l p => Sys2Proof.Machine.execCmdReceived l p s
  | .replyReceived l p => Sys2Proof.Machine.execReplyReceived l p s
  | .areqReceived l p op arg parm origin => Sys2Proof.Machine.execAreqReceived l p op arg parm origin s
  | .adataReceived l p => Sys2Proof.Machine.execAdataReceived l p s
  | .unreachReceived l p => Sys2Proof.Machine.execUnreachReceived l p s
  | .routedCommandTimeout p tag => Sys2Proof.Machine.execRoutedCommandTimeout p tag s
  | .add k => Sys2Proof.Machine.execAdd k s
  | .sub k => Sys2Proof.Machine.execSub k s
  | .andRR k => Sys2Proof.Machine.execAndRR k s
  | .orRR k => Sys2Proof.Machine.execOrRR k s
  | .xorRR k => Sys2Proof.Machine.execXorRR k s
  | .slt k => Sys2Proof.Machine.execSlt k s
  | .sltu k => Sys2Proof.Machine.execSltu k s
  | .andn k => Sys2Proof.Machine.execAndn k s
  | .sll k => Sys2Proof.Machine.execSll k s
  | .srl k => Sys2Proof.Machine.execSrl k s
  | .sra k => Sys2Proof.Machine.execSra k s
  | .adds k => Sys2Proof.Machine.execAdds k s
  | .subs k => Sys2Proof.Machine.execSubs k s
  | .addus k => Sys2Proof.Machine.execAddus k s
  | .subus k => Sys2Proof.Machine.execSubus k s
  | .addi k => Sys2Proof.Machine.execAddi k s
  | .movi k => Sys2Proof.Machine.execMovi k s
  | .slli k => Sys2Proof.Machine.execSlli k s
  | .srli k => Sys2Proof.Machine.execSrli k s
  | .srai k => Sys2Proof.Machine.execSrai k s
  | .addiLong k => Sys2Proof.Machine.execAddiLong k s
  | .andi k => Sys2Proof.Machine.execAndi k s
  | .ori k => Sys2Proof.Machine.execOri k s
  | .xori k => Sys2Proof.Machine.execXori k s
  | .slti k => Sys2Proof.Machine.execSlti k s
  | .sltiu k => Sys2Proof.Machine.execSltiu k s
  | .addsi k => Sys2Proof.Machine.execAddsi k s
  | .ld k => Sys2Proof.Machine.execLd k s
  | .ldx k => Sys2Proof.Machine.execLdx k s
  | .st k clash => Sys2Proof.Machine.execSt k clash s
  | .stx k clash => Sys2Proof.Machine.execStx k clash s
  | .inShort k => Sys2Proof.Machine.execInShort k s
  | .inx k => Sys2Proof.Machine.execInx k s
  | .out k => Sys2Proof.Machine.execOut k s
  | .outx k => Sys2Proof.Machine.execOutx k s
  | .bz k => Sys2Proof.Machine.execBz k s
  | .br k => Sys2Proof.Machine.execBr k s
  | .j k => Sys2Proof.Machine.execJ k s
  | .call k clash => Sys2Proof.Machine.execCall k clash s
  | .jr k => Sys2Proof.Machine.execJr k s
  | .callr k clash => Sys2Proof.Machine.execCallr k clash s
  | .ret k => Sys2Proof.Machine.execRet k s
  | .reti k => Sys2Proof.Machine.execReti k s
  | .loopOpen k => Sys2Proof.Machine.execLoopOpen k s
  | .lpop k => Sys2Proof.Machine.execLpop k s
  | .nop k => Sys2Proof.Machine.execNop k s
  | .wait k => Sys2Proof.Machine.execWait k s
  | .waitEnd k => Sys2Proof.Machine.execWaitEnd k s
  | .brk k => Sys2Proof.Machine.execBrk k s
  | .fence k => Sys2Proof.Machine.execFence k s
  | .trap k => Sys2Proof.Machine.execTrap k s
  | .mfc k => Sys2Proof.Machine.execMfc k s
  | .mtc k => Sys2Proof.Machine.execMtc k s
  | .ei k => Sys2Proof.Machine.execEi k s
  | .di k => Sys2Proof.Machine.execDi k s
  | .mul k => Sys2Proof.Machine.execMul k s
  | .mulh k => Sys2Proof.Machine.execMulh k s
  | .mulhu k => Sys2Proof.Machine.execMulhu k s
  | .mac k => Sys2Proof.Machine.execMac k s
  | .macu k => Sys2Proof.Machine.execMacu k s
  | .msu k => Sys2Proof.Machine.execMsu k s
  | .macs k => Sys2Proof.Machine.execMacs k s
  | .rdacc k => Sys2Proof.Machine.execRdacc k s
  | .mfa k => Sys2Proof.Machine.execMfa k s
  | .mta k => Sys2Proof.Machine.execMta k s
  | .lr k => Sys2Proof.Machine.execLr k s
  | .sc k clash => Sys2Proof.Machine.execSc k clash s
  | .tas k => Sys2Proof.Machine.execTas k s
  | .blkmov k clash => Sys2Proof.Machine.execBlkmov k clash s
  | .blkfill k clash => Sys2Proof.Machine.execBlkfill k clash s
  | .blkcrc k => Sys2Proof.Machine.execBlkcrc k s
  | .interruptAccept k => Sys2Proof.Machine.execInterruptAccept k s
  | .stewardStart k => Sys2Proof.Machine.execStewardStart k s
  | .stewardStop k => Sys2Proof.Machine.execStewardStop k s
  | .stewardHalt k => Sys2Proof.Machine.execStewardHalt k s
  | .breakpointHalt k => Sys2Proof.Machine.execBreakpointHalt k s
  | .stewardResume k => Sys2Proof.Machine.execStewardResume k s
  | .stewardStep k => Sys2Proof.Machine.execStewardStep k s
  | .stewardRegisterWrite k value => Sys2Proof.Machine.execStewardRegisterWrite k value s
  | .halfBoot h reads0 reads1 readsVc => Sys2Proof.Machine.execHalfBoot h reads0 reads1 readsVc s
  | .bootPrefWrite h pref => Sys2Proof.Machine.execBootPrefWrite h pref s
  | .flashRead h cross => Sys2Proof.Machine.execFlashRead h cross s
  | .flashProgram h cross => Sys2Proof.Machine.execFlashProgram h cross s
  | .flashErase h cross => Sys2Proof.Machine.execFlashErase h cross s
  | .flashVerify h cross => Sys2Proof.Machine.execFlashVerify h cross s
  | .flashOperationDone f reads => Sys2Proof.Machine.execFlashOperationDone f reads s
  | .vcLoad flash slot => Sys2Proof.Machine.execVcLoad flash slot s
  | .vacate x => Sys2Proof.Machine.execVacate x s
  | .restart x => Sys2Proof.Machine.execRestart x s
  | .hold x => Sys2Proof.Machine.execHold x s
  | .release x => Sys2Proof.Machine.execRelease x s
  | .restore => Sys2Proof.Machine.execRestore s
  | .envelopeSessionExpiry => Sys2Proof.Machine.execEnvelopeSessionExpiry s
  | .nonceExpiry path => Sys2Proof.Machine.execNonceExpiry path s
  | .envelopeBackoffEnd => Sys2Proof.Machine.execEnvelopeBackoffEnd s
  | .endOfInterrupt h k src => Sys2Proof.Machine.execEndOfInterrupt h k src s
  | .softwareInterrupt m other set => Sys2Proof.Machine.execSoftwareInterrupt m other set s
  | .interruptSyncRead k => Sys2Proof.Machine.execInterruptSyncRead k s
  | .softwareEvent pulse => Sys2Proof.Machine.execSoftwareEvent pulse s
  | .gpoPulseEnd p => Sys2Proof.Machine.execGpoPulseEnd p s
  | .vcBell ring => Sys2Proof.Machine.execVcBell ring s
  | .testWindow h => Sys2Proof.Machine.execTestWindow h s
  | .testWindowDone h fail => Sys2Proof.Machine.execTestWindowDone h fail s
  | .instructionMemoryWrite h w => Sys2Proof.Machine.execInstructionMemoryWrite h w s
  | .vigilMemoryWrite m w => Sys2Proof.Machine.execVigilMemoryWrite m w s
  | .status p n => Sys2Proof.Machine.execStatus p n s
  | .peek p q n => Sys2Proof.Machine.execPeek p q n s
  | .fetch p host => Sys2Proof.Machine.execFetch p host s
  | .refetch p host => Sys2Proof.Machine.execRefetch p host s
  | .alarms p host => Sys2Proof.Machine.execAlarms p host s
  | .lanes p b => Sys2Proof.Machine.execLanes p b s
  | .packetTaken p b cut => Sys2Proof.Machine.execPacketTaken p b cut s
  | .commandStart p => Sys2Proof.Machine.execCommandStart p s
  | .cmdNop p => Sys2Proof.Machine.execCmdNop p s
  | .cmdIdent p => Sys2Proof.Machine.execCmdIdent p s
  | .cmdRegRead p => Sys2Proof.Machine.execCmdRegRead p s
  | .cmdRegWrite p => Sys2Proof.Machine.execCmdRegWrite p s
  | .cmdMemRead p => Sys2Proof.Machine.execCmdMemRead p s
  | .cmdMemWrite p => Sys2Proof.Machine.execCmdMemWrite p s
  | .cmdSeatMove p => Sys2Proof.Machine.execCmdSeatMove p s
  | .cmdBlockMove p => Sys2Proof.Machine.execCmdBlockMove p s
  | .cmdProfile p acked => Sys2Proof.Machine.execCmdProfile p acked s
  | .cmdTalk p => Sys2Proof.Machine.execCmdTalk p s
  | .cmdFlush p => Sys2Proof.Machine.execCmdFlush p s
  | .cmdArcRead p => Sys2Proof.Machine.execCmdArcRead p s
  | .cmdArcFind p => Sys2Proof.Machine.execCmdArcFind p s
  | .cmdArcNext p => Sys2Proof.Machine.execCmdArcNext p s
  | .cmdArcFormat p => Sys2Proof.Machine.execCmdArcFormat p s
  | .cmdTimeSet p => Sys2Proof.Machine.execCmdTimeSet p s
  | .cmdMetCmd p => Sys2Proof.Machine.execCmdMetCmd p s
  | .cmdMetRecord p => Sys2Proof.Machine.execCmdMetRecord p s
  | .envNonce p => Sys2Proof.Machine.execEnvNonce p s
  | .envOpen p => Sys2Proof.Machine.execEnvOpen p s
  | .envClose p => Sys2Proof.Machine.execEnvClose p s
  | .envTerm p => Sys2Proof.Machine.execEnvTerm p s
  | .envLine p => Sys2Proof.Machine.execEnvLine p s
  | .envRange p => Sys2Proof.Machine.execEnvRange p s
  | .envRemote p => Sys2Proof.Machine.execEnvRemote p s
  | .otpKey p => Sys2Proof.Machine.execOtpKey p s
  | .otpRevoke p => Sys2Proof.Machine.execOtpRevoke p s
  | .otpSvn p => Sys2Proof.Machine.execOtpSvn p s
  | .otpDbgoff p => Sys2Proof.Machine.execOtpDbgoff p s
  | .twTransfer m b value => Sys2Proof.Machine.execTwTransfer m b value s
  | .twTransferDone b outcome count data => Sys2Proof.Machine.execTwTransferDone b outcome count data s
  | .twTargetAddress b ten addr read => Sys2Proof.Machine.execTwTargetAddress b ten addr read s
  | .twTargetByte b v => Sys2Proof.Machine.execTwTargetByte b v s
  | .twTargetReadByte b => Sys2Proof.Machine.execTwTargetReadByte b s
  | .twTargetStop b restart => Sys2Proof.Machine.execTwTargetStop b restart s
  | .twRxPop m b => Sys2Proof.Machine.execTwRxPop m b s
  | .twTxPush m b v => Sys2Proof.Machine.execTwTxPush m b v s
  | .twTimeout b => Sys2Proof.Machine.execTwTimeout b s
  | .sleepRequest m => Sys2Proof.Machine.execSleepRequest m s
  | .deepRequest m => Sys2Proof.Machine.execDeepRequest m s
  | .offRequest m key => Sys2Proof.Machine.execOffRequest m key s
  | .runRequest m => Sys2Proof.Machine.execRunRequest m s
  | .powerEntryCommit pinFalls => Sys2Proof.Machine.execPowerEntryCommit pinFalls s
  | .powerEntryRefused => Sys2Proof.Machine.execPowerEntryRefused s
  | .entryTimeout => Sys2Proof.Machine.execEntryTimeout s
  | .wakeRequest wakeLow => Sys2Proof.Machine.execWakeRequest wakeLow s
  | .returnToRun flips => Sys2Proof.Machine.execReturnToRun flips s
  | .regulatorRetry acked => Sys2Proof.Machine.execRegulatorRetry acked s
  | .padHoldRelease groups => Sys2Proof.Machine.execPadHoldRelease groups s
  | .vigilAlarm => Sys2Proof.Machine.execVigilAlarm s
  | .brownout word => Sys2Proof.Machine.execBrownout word s
  | .xrefLoss => Sys2Proof.Machine.execXrefLoss s
  | .xrefReturn => Sys2Proof.Machine.execXrefReturn s
  | .lfxLoss => Sys2Proof.Machine.execLfxLoss s
  | .lfxOk => Sys2Proof.Machine.execLfxOk s
  | .pfailAssert => Sys2Proof.Machine.execPfailAssert s
  | .pfailRelease => Sys2Proof.Machine.execPfailRelease s
  | .powerOnReset testN xrefMode => Sys2Proof.Machine.execPowerOnReset testN xrefMode s
  | .resetN low => Sys2Proof.Machine.execResetN low s
  | .extest pins shift => Sys2Proof.Machine.execExtest pins shift s
  | .samplePreload pins shift => Sys2Proof.Machine.execSamplePreload pins shift s
  | .idcode => Sys2Proof.Machine.execIdcode s
  | .clamp => Sys2Proof.Machine.execClamp s
  | .highz => Sys2Proof.Machine.execHighz s
  | .debug k op => Sys2Proof.Machine.execDebug k op s
  | .bypass => Sys2Proof.Machine.execBypass s
  | .trstN => Sys2Proof.Machine.execTrstN s
  | .xmetReturn => Sys2Proof.Machine.execXmetReturn s
  | .twBusStop b => Sys2Proof.Machine.execTwBusStop b s
  | .vaonFall => Sys2Proof.Machine.execVaonFall s
  | .refreshSwitch => Sys2Proof.Machine.execRefreshSwitch s
  | .vcLoadDone reads => Sys2Proof.Machine.execVcLoadDone reads s
  | .lineEdge b rise => Sys2Proof.Machine.execLineEdge b rise s
  | .acknowledgementFrame => Sys2Proof.Machine.execAcknowledgementFrame s

end Sys2Proof.Machine
end

