-- ==== Sys2Proof/Safety.lean ====
section
/-! DEFINITION. The terms in which claims speak of runs: a command's answer, the frame of a change, and the canonical form of
the memories. A run is safe while every step answers a next state and the memories keep their canonical form. -/

namespace Sys2Proof.Machine

/-- The command answers a next state, and P holds of it. -/
def Gives (c : Instr) (s : State) (P : State → Prop) : Prop := ∃ t : State, exec c s = .next t ∧ P t

/-- Every register keeps what it held, but for those whose keys are named. -/
def RegsKeptBut (named : Nat → Bool) (s t : State) : Prop := ∀ k : Nat, named k = false → t.reg k = s.reg k

/-- A master's write of a timebase is accepted (R24, R26). -/
def State.tbWriteOk (s : State) (m : Master) : TbUnit → Bool
  | .bay n => s.bayWriteOk m n.val
  | .gt g => s.blockWriteOk m (blkGt g.val)

/-- The memories and the words marked in error are in canonical form. -/
def State.memWf (s : State) : Bool :=
  tblWf 0 s.banks && tblWf 0 s.bankMarks && tblWf 0 s.imem && tblWf 0 s.imemMarks && tblWf 0 s.vmem
    && tblWf 0 s.vmemMarks && tblWf 0xFF s.flash

/-- The next instruction of steward k, which it executes, is the fetched f. -/
def State.runsNext (s : State) (k : Nat) (f : Fetched) : Bool :=
  s.stewardRuns k && (breakAt k s).isNone && decide ((fetchAt k (s.steward k).pc s).1 = .got f)

/-- The word register of steward k once a load in flight has settled (R470). -/
def State.settled (s : State) (k r : Nat) : Word := wreg (settleLoad (s.steward k) none) r

/-- Steward k's word registers are those of before, a load in flight settled, but for register d, which holds v. -/
abbrev RegsAre (k d : Nat) (v : Word) (s t : State) : Prop :=
  ∀ r : Nat, r < 16 → wreg (t.steward k) r = if r ≠ 0 ∧ r = d then v else s.settled k r

/-- Steward k has counted one more instruction and has no load in flight. -/
abbrev Counted (k : Nat) (s t : State) : Prop :=
  (t.steward k).load = none
    ∧ t.wide (stewKey k + Reg.STW_RET) 2 = min 0xFFFFFFFFFF (s.wide (stewKey k + Reg.STW_RET) 2 + 1)

/-- The instruction f of steward k writes register d and the accumulator, transfers no control, and leaves every memory and
every other steward as it was. -/
abbrev Completes (k : Nat) (f : Fetched) (d : Nat) (v : Word) (acc : BitVec 48) (s t : State) : Prop :=
  RegsAre k d v s t ∧ Counted k s t ∧ (t.steward k).acc = acc
    ∧ (srLD (s.steward k) = 0 → (t.steward k).pc = f.addr + (if f.long then 2 else 1))
    ∧ (∀ j : Fin 9, j.val ≠ k → t.steward j.val = s.steward j.val)
    ∧ t.banks = s.banks ∧ t.imem = s.imem ∧ t.vmem = s.vmem

/-- Steward k, whose trap handler does not run, has entered its trap vector from instruction f with a cause and the return
address r (R482 to R484). -/
abbrev Traps (k code : Nat) (f : Fetched) (r : Word) (s t : State) : Prop :=
  creg (t.steward k) crTCAUSE = BitVec.ofNat 20 (code + (if f.long then 0x100 else 0)
      + (match (s.steward k).load with | some (d, _) => 0x200 + 0x400 * d | none => 0))
    ∧ creg (t.steward k) crTVAL = f.w ∧ creg (t.steward k) crTEXT = f.ext
    ∧ (t.steward k).pc = creg (s.steward k) crVBASE ∧ srIE (t.steward k) = false ∧ srTH (t.steward k) = true
    ∧ (t.steward k).rsv = none ∧ (t.steward k).acc = (s.steward k).acc
    ∧ RegsAre k 15 (s.settled k 15 - 2) s t
    ∧ (k < 8 → 2 ≤ (s.settled k 15).toNat → (s.settled k 15).toNat ≤ 0x80000 →
        t.bank (stewHalf k) ((s.settled k 15).toNat - 2) = r
          ∧ t.bank (stewHalf k) ((s.settled k 15).toNat - 1) = srWord (s.steward k))

/-- No item or record of a channel waits in its engine's queues in half h. -/
def State.nothingWaits (s : State) (h : Half) (c : Nat) : Bool :=
  (s.coder h (engineOf c)).samples.all (fun i => decide (i.chan ≠ c))
    && (s.coder h (engineOf c)).records.all (fun r => decide (r.chan ≠ c))

/-- The packets of a link: those that wait, and its latest item sent where that is one. -/
def State.onLink (s : State) (l : Nat) : List Packet :=
  (s.link l).queue.map Prod.fst ++ (match (s.link l).sent with | some (.packet p) => [p] | _ => [])

/-- Port p is executing the command c, of an opcode and from this port, and has not begun a wait for its end. -/
def State.executes (s : State) (p : Nat) (c : Cmd) (op : Nat) : Bool :=
  decide ((s.port p).exec = some c) && decide (c.op = op) && c.origin.isNone && !(s.port p).begun

/-- The command c of port p has ended with a status and results, in a reply that joined the port's replies (R592, R594). -/
abbrev Answers (p : Nat) (c : Cmd) (st : Nat) (res : List Byte) (s t : State) : Prop :=
  (t.port p).exec = none ∧ (t.port p).begun = false ∧ (t.port p).replies = (s.port p).replies ++ [replyBytes c st res]

/-- The OTP commands (R506). -/
def changesOtp (c : Instr) : Bool :=
  match c with
  | .otpKey _ | .otpRevoke _ | .otpSvn _ | .otpDbgoff _ => true
  | _ => false

/-- The commands that come to the metrology die over its link (R375). -/
def linkCommand (c : Instr) : Bool :=
  match c with
  | .metRead _ | .metReport _ | .metStream _ | .metLogread _ | .metDisplay _ | .metTariff _ => true
  | _ => false

/-- The groups of commands whose frames the claims state. -/
inductive Group where
  /-- The metrology die itself (R355 to R376). -/
  | meterDie
  /-- The test access port but for DEBUG (R683). -/
  | testPort
  /-- Steward instructions that access no data memory, and steward control (R464 to R494). -/
  | steward
  /-- Steward instructions that access data memory or enter a vector. -/
  | stewardMemory
  /-- A line engine at work, but for GET and PUT (R248 to R281). -/
  | engine
  /-- The end of a line engine's frame, and GET and PUT, which cross the budget (R273). -/
  | engineEnd
  /-- The synthesisers (R208 to R213). -/
  | synth
  /-- The sampling pipeline (R287 to R320). -/
  | sampling
  /-- The compression engines (R321 to R351). -/
  | coding
  /-- The archive (R395 to R418). -/
  | archive
  /-- The two-wire buses (R622 to R634). -/
  | twoWire
  /-- The fabric (R420 to R455). -/
  | fabric
  /-- Terminals (R140 to R180). -/
  | terminal
  /-- Timebases (R111 to R138). -/
  | timebase
  /-- The budget (R86 to R105). -/
  | budget
  /-- Transactions of a command port, and commands that act on it, the envelope lock and the OTP store. -/
  | port
  /-- Commands that reach further. -/
  | other
  deriving DecidableEq, Repr

/-- The group of a command. -/
def groupOf : Instr → Group
  | .metrologyCycleEnd .. | .msecSecond .. | .vmetFall .. | .metrologyStart .. | .sealChange .. | .getId .. | .getParam ..
  | .getLog .. | .getEnergy .. | .setParam .. | .commitParams .. | .discardParams .. | .selftestRom .. | .selftestLrp ..
  | .xmetFail | .watchdogExpiry .. | .phaseLoss .. | .phaseReturn .. | .displayFrame | .displayTimeout | .energyPulse ..
  | .statusFrame .. | .samplesFrame .. | .recordFrame .. | .linkResend | .metRead .. | .metReport .. | .metStream ..
  | .metLogread .. | .metDisplay .. | .metTariff .. | .xmetReturn => .meterDie
  | .extest .. | .samplePreload .. | .idcode | .clamp | .highz | .bypass | .trstN => .testPort
  | .add .. | .sub .. | .andRR .. | .orRR .. | .xorRR .. | .slt .. | .sltu .. | .andn .. | .sll .. | .srl .. | .sra ..
  | .adds .. | .subs .. | .addus .. | .subus .. | .addi .. | .movi .. | .slli .. | .srli .. | .srai .. | .addiLong ..
  | .andi .. | .ori .. | .xori .. | .slti .. | .sltiu .. | .addsi .. | .bz .. | .br .. | .j .. | .jr .. | .nop ..
  | .wait .. | .fence .. | .ei .. | .di .. | .mul .. | .mulh .. | .mulhu .. | .mac .. | .macu .. | .msu .. | .macs ..
  | .rdacc .. | .mfa .. | .mta .. | .stewardStart .. | .stewardStop .. | .stewardHalt .. | .breakpointHalt ..
  | .stewardResume .. | .stewardStep .. | .stewardRegisterWrite .. => .steward
  | .ld .. | .ldx .. | .st .. | .stx .. | .call .. | .callr .. | .ret .. | .reti .. | .loopOpen .. | .lpop .. | .brk ..
  | .trap .. | .mfc .. | .mtc .. | .lr .. | .sc .. | .tas .. | .blkmov .. | .blkfill .. | .blkcrc .. => .stewardMemory
  | .lineTripClear .. | .transmitBufferWrite .. | .lineSubmit .. | .receivePop .. | .receiveDataRead .. | .leStart ..
  | .leResume .. | .leSwap .. | .leSwapTakeEffect .. | .leLate .. | .programWordWrite .. | .leBr .. | .leCall ..
  | .leSym .. | .leSmp .. | .leWait .. | .leWaitEnd .. | .leAlignStop .. | .leAlignEdge .. | .leAlignSoft .. | .leLdi ..
  | .leAlu .. | .leDjnz .. | .leMov .. | .leCrcInit .. | .leCrcCheck .. | .leCrcLoad .. | .finDecide .. | .finOpen ..
  | .finBadcrc .. | .finBadfmt .. | .leHaltBreak .. | .lineEdge .. => .engine
  | .leGet .. | .lePut .. | .lineDeferExpiry .. | .lineCancel .. | .leStop .. | .leAbort .. | .leStep .. | .leSwapLate ..
  | .leIdle .. | .leIdleReturn .. | .finTxok .. | .finNoack .. | .finArblost .. | .finColl .. | .finTxabort ..
  | .finDeliver .. | .leFault .. => .engineEnd
  | .synthFreqWrite .. | .synthCalRequest .. | .synthGateApply .. | .synthCalDone .. | .synthSettleDone ..
  | .synthRetry .. | .lsTempUpdate .. => .synth
  | .pollInstant .. | .pollRelease .. | .replyWaitExpiry .. | .pipelineInput .. | .pollEntryCommit .. | .pipelineEnable ..
  | .pipelineDisable .. | .identRequest .. | .customSetCommit .. | .recogniserConfigWrite ..
  | .recogniserAck .. => .sampling
  | .codeItem .. | .codeRecord .. | .sealDeadline .. | .pfailSeal .. | .takeoverSeal .. | .channelFlush ..
  | .codingCommit .. | .metrologyCodingWrite .. | .sealQueueWaitEnd .. => .coding
  | .bushelCommit .. | .pageProgram | .pageProgramDone .. | .slotErase | .slotEraseDone .. | .slotRefresh
  | .archiveEnable .. | .archiveRecoveryDone .. | .archiveFormat .. | .archiveFormatDone .. | .archiveRead ..
  | .archiveFind .. | .archiveNext .. | .replicaSend | .replicaResend | .rackReceived .. | .replReceived ..
  | .originFree .. | .refreshSwitch => .archive
  | .twTransfer .. | .twTransferDone .. | .twTargetAddress .. | .twTargetByte .. | .twTargetReadByte .. | .twTargetStop ..
  | .twRxPop .. | .twTxPush .. | .twTimeout .. | .twBusStop .. => .twoWire
  | .blockLock .. | .blockLockLost .. | .linkDown .. | .helloSend | .helloReceived .. | .helloTimeout .. | .rootExpiry
  | .creditReceived .. | .egressStuck .. | .packetTransit .. | .claimReceived .. | .claimFlood | .addressHeld
  | .addressSearchRestart | .routeReceived .. | .routePeriodic | .routeTriggered | .routeOfferLapse ..
  | .routeGoneExpiry .. | .syncSend .. | .syncReceived .. | .syncrReceived .. | .timestampsReceived .. | .tsyncTimeout
  | .swapRequest .. | .roleReqReceived .. | .roleAckReceived .. | .roleNakReceived .. | .swapTimeout ..
  | .swapBackoffEnd .. | .alarmReceived .. | .alsumReceived .. | .alarmSummary .. | .cmdReceived .. | .replyReceived ..
  | .adataReceived .. | .unreachReceived .. | .routedCommandTimeout .. => .fabric
  | .slotPeriodStart .. | .pulseRise .. | .tripBlankEnd .. | .pulseFall .. | .sarCycle .. | .complianceLoss .. | .trip ..
  | .tripClear .. | .tdAgeTick | .talkRequest .. | .talkCancel .. | .talkExchangeStart .. | .talkExchangeEnd ..
  | .talkOneSecondMark .. => .terminal
  | .timebaseWrap .. | .timebaseStage .. | .timebaseEnable .. | .chainSnapshotRead .. | .compareArm .. | .compareMatch ..
  | .captureEdge .. | .softwareEvent .. => .timebase
  | .transferRequest .. | .stalledRequestAck .. | .lendRelease .. | .budgetCommit .. | .watchLengthWrite .. => .budget
  | .status .. | .peek .. | .fetch .. | .refetch .. | .alarms .. | .lanes .. | .packetTaken .. | .cmdNop .. | .cmdIdent ..
  | .cmdArcRead .. | .cmdArcFind .. | .cmdArcNext .. | .cmdMetRecord .. | .envNonce .. | .envOpen .. | .envClose ..
  | .envLine .. | .envRemote .. | .otpKey .. | .otpRevoke .. | .otpSvn .. | .otpDbgoff .. => .port
  | .acknowledgementFrame | .registerWrite .. | .watchBoundary .. | .heartbeat .. | .declareFault .. | .selfCheckDone ..
  | .supplyFail .. | .supplyRecovery .. | .halfResetEntry .. | .bootwaitExpiry .. | .seatGive .. | .seatClaim ..
  | .mirrorSyncBay .. | .terminalPathSwitch .. | .profileRequest .. | .regulatorPoll .. | .profileTimeout | .lfxEdgeCoarse
  | .gpInputEdge .. | .thresholdReadback .. | .thresholdStale .. | .lineTrip .. | .lineBlankEnd .. | .synthUnlock ..
  | .lineDisable .. | .metrologyFrameAccept .. | .metrologyStatusReceived .. | .metrologyLinkDown | .metCommandSend ..
  | .metNolinkTimeout | .archiveDisable .. | .archiveRequestDone .. | .timeSetWrite .. | .areqReceived .. | .inShort ..
  | .inx .. | .out .. | .outx .. | .waitEnd .. | .interruptAccept .. | .halfBoot .. | .bootPrefWrite .. | .flashRead ..
  | .flashProgram .. | .flashErase .. | .flashVerify .. | .flashOperationDone .. | .vcLoad .. | .vacate .. | .restart ..
  | .hold .. | .release .. | .restore | .envelopeSessionExpiry | .nonceExpiry .. | .envelopeBackoffEnd
  | .endOfInterrupt .. | .softwareInterrupt .. | .interruptSyncRead .. | .gpoPulseEnd .. | .vcBell .. | .testWindow ..
  | .testWindowDone .. | .instructionMemoryWrite .. | .vigilMemoryWrite .. | .commandStart .. | .cmdRegRead ..
  | .cmdRegWrite .. | .cmdMemRead .. | .cmdMemWrite .. | .cmdSeatMove .. | .cmdBlockMove .. | .cmdProfile .. | .cmdTalk ..
  | .cmdFlush .. | .cmdArcFormat .. | .cmdTimeSet .. | .cmdMetCmd .. | .envTerm .. | .envRange .. | .sleepRequest ..
  | .deepRequest .. | .offRequest .. | .runRequest .. | .powerEntryCommit .. | .powerEntryRefused | .entryTimeout
  | .wakeRequest .. | .returnToRun .. | .regulatorRetry .. | .padHoldRelease .. | .vigilAlarm | .brownout .. | .xrefLoss
  | .xrefReturn | .lfxLoss | .lfxOk | .pfailAssert | .pfailRelease | .powerOnReset .. | .resetN .. | .debug .. | .vaonFall
  | .vcLoadDone .. => .other

/-- The register addresses, from a first to below a last, at which the commands of a group may write; those of the groups not
listed here are not claimed. -/
def groupBlocks : Group → List (Nat × Nat)
  | .meterDie => []
  | .testPort => [(0x800, 0x820), (0xF09, 0xF0B), (0x10000, 0x20000), (0x71000, 0x71100)]
  | .steward => [(0xC00, 0xC80), (0x20000, 0x2000C), (0x7E0C0, 0x7E0CC)]
  | .stewardMemory =>
    [(0x602, 0x603), (0x690, 0x69C), (0xC00, 0xC80), (0x10000, 0x20000),
      (0x20000, 0x20030), (0x71000, 0x71100), (0x7E0C0, 0x7E0CC)]
  | .engine => [(0xF09, 0xF0B), (0x10000, 0x20000)]
  | .engineEnd => [(0x602, 0x603), (0x690, 0x69C), (0x800, 0x820), (0xF09, 0xF0B), (0x10000, 0x20000), (0x71000, 0x71100)]
  | .synth => [(0xF09, 0xF0B), (0x10000, 0x20000)]
  | .coding => [(0x602, 0x603), (0x690, 0x69C), (0x800, 0x820), (0xF09, 0xF0B), (0x10000, 0x20000), (0x71000, 0x71100)]
  | .twoWire => [(0xF09, 0xF0B), (0x60000, 0x60102)]
  | .terminal => [(0x800, 0x820), (0xF09, 0xF0B), (0x10000, 0x20000), (0x71000, 0x71100)]
  | .timebase => [(0x800, 0x820), (0xF09, 0xF0B), (0x10000, 0x20000), (0x71000, 0x71100)]
  | .budget =>
    [(0x600, 0x6B0), (0xF09, 0xF0B), (0x10000, 0x20000), (0x30030, 0x30037),
      (0x30100, 0x30180), (0x70000, 0x70080), (0x71000, 0x71100)]
  | .sampling | .archive | .fabric | .port | .other => [(0, 0x100000)]

/-- A register key lies at an address of a group's blocks. -/
def inBlocks (g : Group) (key : Nat) : Bool :=
  (groupBlocks g).any (fun e => decide (e.1 ≤ key % 0x100000) && decide (key % 0x100000 < e.2))

end Sys2Proof.Machine
end

