-- ==== Sys2Proof/WellFormed.lean ====
section
/-! DEFINITION. The well-formed commands: operands inside the range the spec gives the row, where the operand's type does
not say so already. -/

namespace Sys2Proof

/-- A command whose operands lie in the ranges the spec gives its row. -/
def Instr.wf : Instr → Bool
  | .registerWrite _ addr _ => decide (addr < 0x100000)
  | .watchBoundary disagree => disagree.Nodup
  | .heartbeat _ _ => true
  | .declareFault _ _ => true
  | .selfCheckDone _ _ => true
  | .supplyFail _ => true
  | .supplyRecovery _ => true
  | .halfResetEntry _ => true
  | .bootwaitExpiry _ => true
  | .seatGive _ _ _ => true
  | .seatClaim _ _ _ => true
  | .mirrorSyncBay _ _ _ => true
  | .terminalPathSwitch _ => true
  | .transferRequest _ _ _ counts => decide (0 < counts)
  | .stalledRequestAck _ _ _ => true
  | .lendRelease _ => true
  | .budgetCommit _ => true
  | .watchLengthWrite _ _ => true
  | .profileRequest _ _ _ => true
  | .regulatorPoll _ _ _ => true
  | .profileTimeout => true
  | .timebaseWrap _ => true
  | .timebaseStage _ _ _ _ => true
  | .timebaseEnable _ _ _ => true
  | .chainSnapshotRead _ _ => true
  | .compareArm _ _ _ => true
  | .compareMatch _ => true
  | .captureEdge _ _ _ => true
  | .lfxEdgeCoarse => true
  | .gpInputEdge _ _ => true
  | .slotPeriodStart _ => true
  | .pulseRise _ => true
  | .tripBlankEnd _ => true
  | .pulseFall _ => true
  | .sarCycle _ _ => true
  | .thresholdReadback _ _ _ => true
  | .thresholdStale _ _ => true
  | .complianceLoss _ => true
  | .trip _ => true
  | .tripClear _ _ => true
  | .tdAgeTick => true
  | .talkRequest _ _ _ _ => true
  | .talkCancel _ _ => true
  | .talkExchangeStart _ => true
  | .talkExchangeEnd _ _ => true
  | .talkOneSecondMark _ => true
  | .lineTrip _ _ => true
  | .lineBlankEnd _ _ => true
  | .lineTripClear _ _ _ _ => true
  | .synthFreqWrite _ _ _ => true
  | .synthCalRequest _ _ => true
  | .synthGateApply _ => true
  | .synthCalDone _ _ => true
  | .synthSettleDone _ => true
  | .synthUnlock _ => true
  | .synthRetry _ => true
  | .lsTempUpdate _ _ => true
  | .lineDeferExpiry _ => true
  | .transmitBufferWrite _ _ _ => true
  | .lineSubmit _ _ _ => true
  | .lineCancel _ _ _ => true
  | .lineDisable _ _ => true
  | .receivePop _ _ => true
  | .receiveDataRead _ _ => true
  | .leStart _ _ => true
  | .leStop _ _ => true
  | .leAbort _ _ => true
  | .leStep _ _ _ => true
  | .leResume _ _ => true
  | .leSwap _ _ _ _ => true
  | .leSwapTakeEffect _ => true
  | .leSwapLate _ => true
  | .leLate _ => true
  | .programWordWrite _ _ _ => true
  | .leBr _ => true
  | .leCall _ => true
  | .leSym _ => true
  | .leSmp _ _ => true
  | .leWait _ => true
  | .leWaitEnd _ => true
  | .leAlignStop _ => true
  | .leAlignEdge _ => true
  | .leAlignSoft _ => true
  | .leLdi _ => true
  | .leAlu _ => true
  | .leDjnz _ => true
  | .leMov _ => true
  | .leGet _ => true
  | .lePut _ => true
  | .leCrcInit _ => true
  | .leCrcCheck _ => true
  | .leCrcLoad _ => true
  | .leIdle _ => true
  | .leIdleReturn _ => true
  | .finTxok _ => true
  | .finNoack _ => true
  | .finArblost _ => true
  | .finColl _ => true
  | .finTxabort _ => true
  | .finDecide _ => true
  | .finOpen _ => true
  | .finDeliver _ => true
  | .finBadcrc _ => true
  | .finBadfmt _ => true
  | .leHaltBreak _ => true
  | .leFault _ => true
  | .pollInstant _ => true
  | .pollRelease _ => true
  | .replyWaitExpiry _ => true
  | .pipelineInput _ => true
  | .pollEntryCommit _ _ _ => true
  | .pipelineEnable _ _ => true
  | .pipelineDisable _ _ => true
  | .identRequest _ _ _ => true
  | .customSetCommit _ _ _ => true
  | .recogniserConfigWrite _ _ _ => true
  | .recogniserAck _ _ _ => true
  | .codeItem _ _ => true
  | .codeRecord _ _ => true
  | .sealDeadline _ _ => true
  | .pfailSeal _ _ => true
  | .takeoverSeal _ _ => true
  | .channelFlush _ _ _ _ => true
  | .codingCommit _ _ _ => true
  | .metrologyCodingWrite _ => true
  | .sealQueueWaitEnd _ _ => true
  | .metrologyCycleEnd _ _ => true
  | .msecSecond _ => true
  | .vmetFall _ _ => true
  | .metrologyStart _ => true
  | .sealChange _ => true
  | .getId payload _ => decide (payload.length ≤ 64)
  | .getParam payload _ => decide (payload.length ≤ 64)
  | .getLog payload _ => decide (payload.length ≤ 64)
  | .getEnergy payload _ => decide (payload.length ≤ 64)
  | .setParam payload _ => decide (payload.length ≤ 64)
  | .commitParams payload _ => decide (payload.length ≤ 64)
  | .discardParams payload _ => decide (payload.length ≤ 64)
  | .selftestRom _ => true
  | .selftestLrp _ => true
  | .xmetFail => true
  | .watchdogExpiry _ => true
  | .phaseLoss _ => true
  | .phaseReturn _ => true
  | .displayFrame => true
  | .displayTimeout => true
  | .energyPulse _ => true
  | .statusFrame _ => true
  | .samplesFrame _ _ values => decide (1 ≤ values.length) && decide (values.length ≤ 96)
  | .recordFrame _ => true
  | .linkResend => true
  | .metRead _ => true
  | .metReport _ => true
  | .metStream _ => true
  | .metLogread _ => true
  | .metDisplay _ => true
  | .metTariff _ => true
  | .metrologyFrameAccept _ => true
  | .metrologyStatusReceived _ => true
  | .metrologyLinkDown => true
  | .metCommandSend _ _ => true
  | .metNolinkTimeout => true
  | .bushelCommit _ => true
  | .pageProgram => true
  | .pageProgramDone _ => true
  | .slotErase => true
  | .slotEraseDone _ => true
  | .slotRefresh => true
  | .archiveEnable _ _ _ => true
  | .archiveRecoveryDone _ => true
  | .archiveDisable _ => true
  | .archiveFormat _ _ => true
  | .archiveFormatDone _ => true
  | .archiveRead _ _ => true
  | .archiveFind _ _ => true
  | .archiveNext _ => true
  | .archiveRequestDone _ => true
  | .replicaSend => true
  | .replicaResend => true
  | .rackReceived _ _ _ _ => true
  | .replReceived _ p _ _ => p.wf && decide (p.kind = 10) && decide (60 ≤ p.payload.length)
  | .originFree _ _ => true
  | .blockLock _ => true
  | .blockLockLost _ => true
  | .linkDown _ => true
  | .helloSend => true
  | .helloReceived _ p => p.wf && decide (p.kind = 1) && decide (p.payload.length = 32)
  | .helloTimeout _ => true
  | .rootExpiry => true
  | .creditReceived _ _ _ => true
  | .egressStuck _ _ => true
  | .packetTransit _ p _ => p.wf
  | .claimReceived _ p => p.wf && decide (p.kind = 2) && decide (p.payload.length = 16)
  | .claimFlood => true
  | .addressHeld => true
  | .addressSearchRestart => true
  | .routeReceived _ p => p.wf && decide (p.kind = 3) && decide (p.payload.length = 1026)
  | .routePeriodic => true
  | .routeTriggered => true
  | .routeOfferLapse _ _ => true
  | .routeGoneExpiry _ => true
  | .syncSend _ _ => true
  | .syncReceived _ _ _ turn => decide (turn ≤ 100000)
  | .syncrReceived _ _ _ => true
  | .timestampsReceived _ _ _ _ => true
  | .tsyncTimeout => true
  | .swapRequest _ _ => true
  | .roleReqReceived _ _ => true
  | .roleAckReceived _ _ => true
  | .roleNakReceived _ _ _ => true
  | .swapTimeout _ => true
  | .swapBackoffEnd _ => true
  | .timeSetWrite _ _ => true
  | .alarmReceived _ p => p.wf && decide (p.kind = 4) && decide (p.payload.length = 20)
  | .alsumReceived _ p => p.wf && decide (p.kind = 5) && decide (p.payload.length = 16)
  | .alarmSummary _ => true
  | .cmdReceived _ p => p.wf && decide (p.kind = 6)
  | .replyReceived _ p => p.wf && decide (p.kind = 7)
  | .areqReceived _ p _ _ _ _ => p.wf && decide (p.kind = 8)
  | .adataReceived _ p => p.wf && decide (p.kind = 9)
  | .unreachReceived _ p => p.wf && decide (p.kind = 12) && decide (p.payload.length = 8)
  | .routedCommandTimeout _ _ => true
  | .add _ => true
  | .sub _ => true
  | .andRR _ => true
  | .orRR _ => true
  | .xorRR _ => true
  | .slt _ => true
  | .sltu _ => true
  | .andn _ => true
  | .sll _ => true
  | .srl _ => true
  | .sra _ => true
  | .adds _ => true
  | .subs _ => true
  | .addus _ => true
  | .subus _ => true
  | .addi _ => true
  | .movi _ => true
  | .slli _ => true
  | .srli _ => true
  | .srai _ => true
  | .addiLong _ => true
  | .andi _ => true
  | .ori _ => true
  | .xori _ => true
  | .slti _ => true
  | .sltiu _ => true
  | .addsi _ => true
  | .ld _ => true
  | .ldx _ => true
  | .st _ _ => true
  | .stx _ _ => true
  | .inShort _ => true
  | .inx _ => true
  | .out _ => true
  | .outx _ => true
  | .bz _ => true
  | .br _ => true
  | .j _ => true
  | .call _ _ => true
  | .jr _ => true
  | .callr _ _ => true
  | .ret _ => true
  | .reti _ => true
  | .loopOpen _ => true
  | .lpop _ => true
  | .nop _ => true
  | .wait _ => true
  | .waitEnd _ => true
  | .brk _ => true
  | .fence _ => true
  | .trap _ => true
  | .mfc _ => true
  | .mtc _ => true
  | .ei _ => true
  | .di _ => true
  | .mul _ => true
  | .mulh _ => true
  | .mulhu _ => true
  | .mac _ => true
  | .macu _ => true
  | .msu _ => true
  | .macs _ => true
  | .rdacc _ => true
  | .mfa _ => true
  | .mta _ => true
  | .lr _ => true
  | .sc _ _ => true
  | .tas _ => true
  | .blkmov _ _ => true
  | .blkfill _ _ => true
  | .blkcrc _ => true
  | .interruptAccept _ => true
  | .stewardStart _ => true
  | .stewardStop _ => true
  | .stewardHalt _ => true
  | .breakpointHalt _ => true
  | .stewardResume _ => true
  | .stewardStep _ => true
  | .stewardRegisterWrite _ _ => true
  | .halfBoot _ _ _ _ => true
  | .bootPrefWrite _ _ => true
  | .flashRead _ _ => true
  | .flashProgram _ _ => true
  | .flashErase _ _ => true
  | .flashVerify _ _ => true
  | .flashOperationDone _ _ => true
  | .vcLoad _ _ => true
  | .vacate _ => true
  | .restart _ => true
  | .hold _ => true
  | .release _ => true
  | .restore => true
  | .envelopeSessionExpiry => true
  | .nonceExpiry _ => true
  | .envelopeBackoffEnd => true
  | .endOfInterrupt _ _ _ => true
  | .softwareInterrupt _ _ _ => true
  | .interruptSyncRead _ => true
  | .softwareEvent _ => true
  | .gpoPulseEnd _ => true
  | .vcBell _ => true
  | .testWindow _ => true
  | .testWindowDone _ _ => true
  | .instructionMemoryWrite _ _ => true
  | .vigilMemoryWrite _ _ => true
  | .status _ _ => true
  | .peek _ _ _ => true
  | .fetch _ _ => true
  | .refetch _ _ => true
  | .alarms _ _ => true
  | .lanes _ _ => true
  | .packetTaken _ _ _ => true
  | .commandStart _ => true
  | .cmdNop _ => true
  | .cmdIdent _ => true
  | .cmdRegRead _ => true
  | .cmdRegWrite _ => true
  | .cmdMemRead _ => true
  | .cmdMemWrite _ => true
  | .cmdSeatMove _ => true
  | .cmdBlockMove _ => true
  | .cmdProfile _ _ => true
  | .cmdTalk _ => true
  | .cmdFlush _ => true
  | .cmdArcRead _ => true
  | .cmdArcFind _ => true
  | .cmdArcNext _ => true
  | .cmdArcFormat _ => true
  | .cmdTimeSet _ => true
  | .cmdMetCmd _ => true
  | .cmdMetRecord _ => true
  | .envNonce _ => true
  | .envOpen _ => true
  | .envClose _ => true
  | .envTerm _ => true
  | .envLine _ => true
  | .envRange _ => true
  | .envRemote _ => true
  | .otpKey _ => true
  | .otpRevoke _ => true
  | .otpSvn _ => true
  | .otpDbgoff _ => true
  | .twTransfer _ _ _ => true
  | .twTransferDone _ _ _ data => decide (data.length ≤ 64)
  | .twTargetAddress _ _ _ _ => true
  | .twTargetByte _ _ => true
  | .twTargetReadByte _ => true
  | .twTargetStop _ _ => true
  | .twRxPop _ _ => true
  | .twTxPush _ _ _ => true
  | .twTimeout _ => true
  | .sleepRequest _ => true
  | .deepRequest _ => true
  | .offRequest _ _ => true
  | .runRequest _ => true
  | .powerEntryCommit _ => true
  | .powerEntryRefused => true
  | .entryTimeout => true
  | .wakeRequest _ => true
  | .returnToRun flips => flips.all Flip.wf
  | .regulatorRetry _ => true
  | .padHoldRelease _ => true
  | .vigilAlarm => true
  | .brownout _ => true
  | .xrefLoss => true
  | .xrefReturn => true
  | .lfxLoss => true
  | .lfxOk => true
  | .pfailAssert => true
  | .pfailRelease => true
  | .powerOnReset _ _ => true
  | .resetN _ => true
  | .extest _ _ => true
  | .samplePreload _ _ => true
  | .idcode => true
  | .clamp => true
  | .highz => true
  | .debug _ _ => true
  | .bypass => true
  | .trstN => true
  | .xmetReturn => true
  | .twBusStop _ => true
  | .vaonFall => true
  | .refreshSwitch => true
  | .vcLoadDone _ => true
  | .lineEdge _ _ => true
  | .acknowledgementFrame => true

end Sys2Proof
end

