-- ==== Sys2Proof/Certificates/Slice0/Obligations.lean ====
section
/-! DEFINITION. The statements for the provers: what the commands do, family by family, and what no command does. In each
clause the hypotheses on the state and the operands alone say when the command takes its own effect; `Gives` says that it
then answers a next state and what that state holds. -/

open Sys2Proof Sys2Proof.Machine

/-- For every command c and state s: a step of s with c at the front of its queue answers exactly what exec answers for c
on s with the queue's rest. -/
def Obligations.StepRunsTheFrontCommand : Prop :=
  ∀ (c : Instr) (rest : List Instr) (s : State),
    step { s with pending := c :: rest } = exec c { s with pending := rest }

/-- Every command whose operands lie in the ranges of its row answers a next state from every state; an ill-formed term is
stopped by the fault illFormed; and no command is ever refused. (The fault is the model's choice: the device has no such
command.) -/
def Obligations.WellFormedCommandsAlwaysComplete : Prop :=
  ∀ (c : Instr) (s : State),
    (c.wf = true → ∃ t, exec c s = .next t) ∧ (c.wf = false → exec c s = .fault .illFormed)

/-- Whatever a command does, the commands that wait behind it in the queue are the ones that waited before, in their
order. -/
def Obligations.CommandsKeepTheQueue : Prop :=
  ∀ (c : Instr) (s t : State), exec c s = .next t → t.pending = s.pending

/-- After reset the data memories, the instruction memories, the Vigil memory, the boot flashes and the marks of words in
error are in canonical form. -/
def Obligations.ResetMemoriesAreCanonical : Prop := State.reset.memWf = true

/-- From every state whose memories are in canonical form, a step that answers a next state leaves them in canonical form:
addresses strictly rising, and no listed word equal to what an unlisted word reads as. -/
def Obligations.EveryStepKeepsMemoriesCanonical : Prop :=
  ∀ s t : State, s.memWf = true → step s = .next t → t.memWf = true

/-- After reset the seats of bays 0 to 31 name Half A and those of 32 to 63 Half B, every bay is orphaned, the run-owner
latches read 0x1_4E12, the profile is Noon, REF_BOOTWAIT is 2,000 ms, the watch is 1,000 µs long in both halves, both halves
are in half reset, the queue is empty. -/
def Obligations.ResetLeavesTheSpecifiedValues : Prop :=
  (∀ b : Nat, b < 64 → State.reset.holder b = if b < 32 then .A else .B)
  ∧ State.reset.orphans = BitVec.allOnes 64
  ∧ State.reset.owners = 0x14E12
  ∧ State.reset.profile = .noon
  ∧ State.reset.get oneKey Reg.REF_BOOTWAIT_MS = 2000
  ∧ (∀ h : Half, State.reset.get (halfKey h) Reg.BG_LEN_US = 1000 ∧ State.reset.computes h = false)
  ∧ State.reset.pending = []

/-- HEARTBEAT with the current watch number counts, and with any other is ignored. DECLARE_FAULT with the key 0x0_FA17 makes
a half that has not yielded yield: every seat and every run-owner latch names the other half and its YIELD flag is set; where
both halves are declared in one stage, both have yielded, DUAL_FAULT is set and no seat moves; any other value is ignored.
SELF_CHECK_DONE with both passes sets MIRROR_SPLIT, with both failing DUAL_FAULT, and no seat moves. SUPPLY_FAIL of a half,
running or in half reset, moves every seat to the other half and puts it in half reset with its SUPPLY flag set; of both in
one stage it puts both in half reset, and no seat moves with DUAL_FAULT set;
SUPPLY_RECOVERY lets a half that nothing else holds leave half reset and boot. HALF_RESET_ENTRY resets a half that has
yielded, and no seat moves. BOOTWAIT_EXPIRY ends the half's time to boot, and sets BOOT_LATE where no heartbeat came. -/
def Obligations.HealthCommandsTakeEffect : Prop :=
  (∀ (h : Half) (q : BitVec 8) (s : State), s.computes h = true → q.toNat = s.get (halfKey h) Reg.HLT_WATCH_SEQ →
    Gives (.heartbeat h q) s (fun t =>
      t.flag (halfKey h) Reg.HLT_STAT_BEAT_OK = true ∧ (t.half h).beatSeen = true ∧ t.seats = s.seats))
  ∧ (∀ (h : Half) (q : BitVec 8) (s : State), q.toNat ≠ s.get (halfKey h) Reg.HLT_WATCH_SEQ →
    exec (.heartbeat h q) s = .next s)
  ∧ (∀ (h : Half) (s : State), s.computes h = true → (s.half h).yielded = false →
    Gives (.declareFault (.one h) 0x0FA17) s (fun t =>
      (t.half h).yielded = true ∧ t.flag oneKey (yieldFlag h) = true
        ∧ (∀ b : Nat, b < 64 → t.holder b = h.other) ∧ (∀ k : Nat, k < 17 → t.runner k = h.other)))
  ∧ (∀ s : State, s.mayYield .A = true → s.mayYield .B = true →
    Gives (.declareFault .both 0x0FA17) s (fun t =>
      t.halfA.yielded = true ∧ t.halfB.yielded = true ∧ t.flag oneKey Reg.REF_STAT_DUAL_FAULT = true ∧ t.seats = s.seats))
  ∧ (∀ (h : Halves) (key : Word) (s : State), key ≠ 0x0FA17 → exec (.declareFault h key) s = .next s)
  ∧ (∀ s : State, s.referee.question ≠ [] →
    Gives (.selfCheckDone true true) s (fun t =>
      t.referee.question = [] ∧ t.flag oneKey Reg.REF_STAT_MIRROR_SPLIT = true ∧ t.seats = s.seats))
  ∧ (∀ s : State, s.referee.question ≠ [] →
    Gives (.selfCheckDone false false) s (fun t =>
      t.referee.question = [] ∧ t.flag oneKey Reg.REF_STAT_DUAL_FAULT = true ∧ t.seats = s.seats))
  ∧ (∀ (h : Half) (s : State), (s.half h).yielded = false → (s.half h).supplyOk = true → s.power.mode = .run →
    Gives (.supplyFail (.one h)) s (fun t =>
      (t.half h).supplyOk = false ∧ t.computes h = false ∧ t.flag oneKey (supplyFlag h) = true
        ∧ (∀ b : Nat, b < 64 → t.holder b = h.other)))
  ∧ (∀ s : State, s.halfA.supplyOk = true → s.halfB.supplyOk = true → s.halfA.yielded = false →
      s.halfB.yielded = false → s.power.mode = .run →
    Gives (.supplyFail .both) s (fun t =>
      t.computes .A = false ∧ t.computes .B = false ∧ t.seats = s.seats
        ∧ t.flag oneKey Reg.REF_STAT_DUAL_FAULT = true))
  ∧ (∀ (h : Half) (s : State), (s.half h).inReset = true → (s.half h).held = false → s.trefRuns = true →
      s.power.vaon = true → s.power.resetLow = false → s.power.mode = .run → s.power.testN = true →
    Gives (.supplyRecovery h) s (fun t =>
      (t.half h).supplyOk = true ∧ t.computes h = true ∧ (t.half h).booting = true ∧ (t.half h).bootWait = true))
  ∧ (∀ (h : Half) (s : State), s.computes h = true → (s.half h).yielded = true →
    Gives (.halfResetEntry h) s (fun t =>
      t.computes h = false ∧ (t.half h).yielded = false ∧ (t.half h).beatSeen = false ∧ t.seats = s.seats))
  ∧ (∀ (h : Half) (s : State), s.computes h = true → (s.half h).bootWait = true →
    Gives (.bootwaitExpiry h) s (fun t =>
      (t.half h).bootWait = false ∧ ((s.half h).beatSeen = false → t.flag oneKey (bootLateFlag h) = true)))

/-- Of the steward of a half that has not yielded: a give by the seat holder moves the seat where the other half is healthy,
and is answered ST_PARTNER_NOT_READY where it is not; a give by the other half is answered ST_NOT_HOLDER. A claim by the holder
changes no seat and is answered ST_OK; a claim of an orphaned bay by a healthy half moves the seat; any other is answered
ST_DUAL_CLAIM, sets DUAL_CLAIM, and the seat stays. Of a half that yields in the same stage, a give is answered ST_OK and a
claim ST_PARTNER_NOT_READY. PEND says whether a move was accepted. Where no other half is healthy a bay counts as synchronised at once. At a period start of the slot in a
copy that computes, a terminal's path follows the seat, unless an exchange of a half that computes runs on the old path. -/
def Obligations.SeatRequestsAreAnswered : Prop :=
  (∀ (k : Fin 8) (b : Fin 64) (s : State), s.coincides (.steward k) = false → s.holder b.val = stewHalf k.val →
      s.healthy (stewHalf k.val).other = true →
    Gives (.seatGive (.steward k) false b) s (fun t =>
      t.holder b.val = (stewHalf k.val).other ∧ t.get (resKey (stewHalf k.val)) Reg.SEAT_RES_STATUS = St.OK
        ∧ t.flag (resKey (stewHalf k.val)) Reg.SEAT_RES_PEND = true
        ∧ (∀ c : Nat, c < 64 → c ≠ b.val → t.holder c = s.holder c)))
  ∧ (∀ (k : Fin 8) (b : Fin 64) (s : State), s.coincides (.steward k) = false → s.holder b.val = stewHalf k.val →
      s.healthy (stewHalf k.val).other = false →
    Gives (.seatGive (.steward k) false b) s (fun t =>
      t.seats = s.seats ∧ t.get (resKey (stewHalf k.val)) Reg.SEAT_RES_STATUS = St.PARTNER_NOT_READY
        ∧ t.flag (resKey (stewHalf k.val)) Reg.SEAT_RES_PEND = false))
  ∧ (∀ (k : Fin 8) (b : Fin 64) (s : State), s.coincides (.steward k) = false → s.holder b.val ≠ stewHalf k.val →
    Gives (.seatGive (.steward k) false b) s (fun t =>
      t.seats = s.seats ∧ t.get (resKey (stewHalf k.val)) Reg.SEAT_RES_STATUS = St.NOT_HOLDER
        ∧ t.flag (resKey (stewHalf k.val)) Reg.SEAT_RES_PEND = false))
  ∧ (∀ (k : Fin 8) (all : Bool) (b : Fin 64) (s : State), s.coincides (.steward k) = true →
    Gives (.seatGive (.steward k) all b) s (fun t =>
      t.seats = s.seats ∧ t.get (resKey (stewHalf k.val)) Reg.SEAT_RES_STATUS = St.OK))
  ∧ (∀ (k : Fin 8) (b : Fin 64) (s : State), s.coincides (.steward k) = false → s.holder b.val = stewHalf k.val →
    Gives (.seatClaim (.steward k) false b) s (fun t =>
      t.seats = s.seats ∧ t.get (resKey (stewHalf k.val)) Reg.SEAT_RES_STATUS = St.OK
        ∧ t.flag (resKey (stewHalf k.val)) Reg.SEAT_RES_PEND = false))
  ∧ (∀ (k : Fin 8) (b : Fin 64) (s : State), s.holder b.val ≠ stewHalf k.val → s.orphaned b.val = true →
      s.healthy (stewHalf k.val) = true →
    Gives (.seatClaim (.steward k) false b) s (fun t =>
      t.holder b.val = stewHalf k.val ∧ t.get (resKey (stewHalf k.val)) Reg.SEAT_RES_STATUS = St.OK
        ∧ t.flag (resKey (stewHalf k.val)) Reg.SEAT_RES_PEND = true))
  ∧ (∀ (k : Fin 8) (b : Fin 64) (s : State), s.coincides (.steward k) = false → s.holder b.val ≠ stewHalf k.val →
      (s.orphaned b.val = false ∨ s.healthy (stewHalf k.val) = false) →
    Gives (.seatClaim (.steward k) false b) s (fun t =>
      t.seats = s.seats ∧ t.get (resKey (stewHalf k.val)) Reg.SEAT_RES_STATUS = St.DUAL_CLAIM
        ∧ t.flag oneKey Reg.REF_STAT_DUAL_CLAIM = true))
  ∧ (∀ (k : Fin 8) (all : Bool) (b : Fin 64) (s : State), s.coincides (.steward k) = true →
    Gives (.seatClaim (.steward k) all b) s (fun t =>
      t.seats = s.seats ∧ t.get (resKey (stewHalf k.val)) Reg.SEAT_RES_STATUS = St.PARTNER_NOT_READY))
  ∧ (∀ (h : Half) (b : Fin 64) (agree : Bool) (s : State), s.computes h = true → (s.half h).yielded = false →
      s.healthy h.other = false →
    Gives (.mirrorSyncBay h b agree) s (fun t => (t.half h).synced.getLsbD b.val = true))
  ∧ (∀ (n : Fin 1024) (s : State), s.onPhase n.val = true → s.livePath n.val ≠ s.holder (n.val / 16) →
      (∀ r : TalkReq, (s.slot (s.livePath n.val) n.val).talk = some r → r.running = false) →
    Gives (.terminalPathSwitch n) s (fun t => t.livePath n.val = s.holder (n.val / 16) ∧ t.seats = s.seats))

/-- A transfer of an activity with an unspent grain, or of a floored activity, starts and is charged what it holds; one with
no unspent grain and nothing to borrow waits. A withheld request is acknowledged once a grain is there, and is charged. At the
release point every activity's lendable grains are lent. A commit asked for is pending; a watch length from 250 to 10,000 µs
waits for the boundary in both halves, any other sets LEN_BAD. A watch boundary advances the watch number of every half that
computes and opens a new watch without a heartbeat. -/
def Obligations.BudgetCommandsTakeEffect : Prop :=
  (∀ (h : Half) (a : Fin 16) (r : Fin 4) (hold : Nat) (s : State), a.val < 12 → 0 < hold → s.computes h = true →
      (∀ w ∈ (s.budget h).waiting, w.1 ≠ 4 * a.val + r.val) →
      (a.val < 3 ∨ 200 ≤ s.unspent h (4 * a.val + r.val)) →
    Gives (.transferRequest h a r hold) s (fun t =>
      tblGet (t.budget h).spent 0 (4 * a.val + r.val) = tblGet (s.budget h).spent 0 (4 * a.val + r.val) + hold
        ∧ (t.budget h).waiting = (s.budget h).waiting))
  ∧ (∀ (h : Half) (a : Fin 16) (r : Fin 4) (hold : Nat) (s : State), 0 < hold → s.computes h = true →
      s.neverWithheld h (4 * a.val + r.val) = false → s.unspent h (4 * a.val + r.val) < 200 →
      tblGet (s.budget h).pool 0 r.val = 0 →
    Gives (.transferRequest h a r hold) s (fun t =>
      (t.budget h).waiting = (s.budget h).waiting ++ [(4 * a.val + r.val, hold, s.tref)]
        ∧ (t.budget h).spent = (s.budget h).spent))
  ∧ (∀ (h : Half) (a : Fin 16) (r : Fin 4) (hold since : Nat) (rest : List (Nat × Nat × Nat)) (s : State), a.val < 12 →
      (s.budget h).waiting = (4 * a.val + r.val, hold, since) :: rest → 200 ≤ s.unspent h (4 * a.val + r.val) →
      s.router.inject = [] →
    Gives (.stalledRequestAck h a r) s (fun t =>
      (t.budget h).waiting = rest
        ∧ tblGet (t.budget h).spent 0 (4 * a.val + r.val) = tblGet (s.budget h).spent 0 (4 * a.val + r.val) + hold))
  ∧ (∀ (h : Half) (s : State), s.computes h = true → s.trefRuns = true → s.get (halfKey h) Reg.BG_CTL_LATE ≠ 0 →
    Gives (.lendRelease h) s (fun t => ∀ p : Nat, p < 48 →
      tblGet (t.budget h).lent 0 p = tblGet (s.budget h).lent 0 p + s.lendable h p))
  ∧ (∀ (h : Half) (s : State), s.computes h = true →
    Gives (.budgetCommit h) s (fun t =>
      t.flag (halfKey h) Reg.BG_STAT_PENDING = true ∧ (t.budget h).staged = (s.budget h).staged))
  ∧ (∀ (h : Half) (us : Word) (s : State), s.computes h = true → 250 ≤ us.toNat → us.toNat ≤ 10000 →
    Gives (.watchLengthWrite h us) s (fun t =>
      (t.budget .A).nextLen = some us.toNat ∧ (t.budget .B).nextLen = some us.toNat ∧ t.regs = s.regs))
  ∧ (∀ (h : Half) (us : Word) (s : State), s.computes h = true → (us.toNat < 250 ∨ (10000 < us.toNat ∧ us.toNat < 16384)) →
    Gives (.watchLengthWrite h us) s (fun t =>
      t.flag (halfKey h) Reg.BG_STAT_LEN_BAD = true ∧ (t.budget h).nextLen = (s.budget h).nextLen))
  ∧ (∀ (bays : List (Fin 64)) (h : Half) (s : State), bays.Nodup → s.trefRuns = true → s.computes h = true →
    Gives (.watchBoundary bays) s (fun t =>
      t.get (halfKey h) Reg.HLT_WATCH_SEQ = (s.get (halfKey h) Reg.HLT_WATCH_SEQ + 1) % 256
        ∧ t.flag (halfKey h) Reg.HLT_STAT_BEAT_OK = false))

/-- A profile request by the runner of TW7, for another profile, with none in progress, and with both regulators in linear
mode, starts a change: BUSY is set in both halves, and the old profile stays in force for now. When both regulators' readings
lie within 2 % of the target, the profile is in force, its defaults are due at the next boundary, and the request ends with
ST_OK in both halves; at the bound it ends with ST_PROFILE_TIMEOUT in both and the old profile stays. A write of BG_CTL by a
steward stores LATE and FOLLOW in its half's register, leaves that register's other bits as they were, and changes no other
register. A write of a general pin's GP_CFG from the half that does not run the pin's group is refused: it is counted, its
address is recorded, and the register keeps what it held. -/
def Obligations.ProfileChangesAndRegisterWrites : Prop :=
  (∀ (m : Master) (p : BitVec 2) (acked : Bool) (s : State), s.blockWriteOk m (blkTw 7) = true → p.toNat < 3 →
      profileOf p.toNat ≠ s.profile → s.flag (halfKey (s.runner (blkTw 7))) Reg.PRF_STAT_BUSY = false →
      s.flag oneKey Reg.TW7_PMB_EN = true → (knowModes s).flag oneKey Reg.TW7_PMB_BADMODE = false →
    Gives (.profileRequest m p acked) s (fun t =>
      t.profileTarget = some (profileOf p.toNat) ∧ t.profile = s.profile
        ∧ t.flag (halfKey .A) Reg.PRF_STAT_BUSY = true ∧ t.flag (halfKey .B) Reg.PRF_STAT_BUSY = true))
  ∧ (∀ (p : Profile) (a b : BitVec 16) (acked : Bool) (s : State), s.profileTarget = some p →
      s.voutsNear (some a) (some b) (profileMv p) = true →
    Gives (.regulatorPoll (some a) (some b) acked) s (fun t =>
      t.profile = p ∧ t.profileTarget = none ∧ t.halfA.defaultsDue = true ∧ t.halfB.defaultsDue = true
        ∧ t.get (halfKey .A) Reg.PRF_STAT_STATUS = St.OK ∧ t.get (halfKey .B) Reg.PRF_STAT_STATUS = St.OK))
  ∧ (∀ s : State, s.profileTarget.isSome = true →
    Gives .profileTimeout s (fun t =>
      t.profile = s.profile ∧ t.profileTarget = none
        ∧ t.get (halfKey .A) Reg.PRF_STAT_STATUS = St.PROFILE_TIMEOUT
        ∧ t.get (halfKey .B) Reg.PRF_STAT_STATUS = St.PROFILE_TIMEOUT))
  ∧ (∀ (k : Fin 8) (w : Word) (s : State),
    Gives (.registerWrite (.steward k) Reg.BG_CTL w) s (fun t =>
      t.get (halfKey (stewHalf k.val)) Reg.BG_CTL_LATE = bits w 5 4
        ∧ t.get (halfKey (stewHalf k.val)) Reg.BG_CTL_FOLLOW = bits w 0 0
        ∧ (∀ i : Nat, i < 20 → i ≠ 0 → i ≠ 4 → i ≠ 5 →
            (t.reg (halfKey (stewHalf k.val) + Reg.BG_CTL)).getLsbD i
              = (s.reg (halfKey (stewHalf k.val) + Reg.BG_CTL)).getLsbD i)
        ∧ RegsKeptBut (fun key => key == halfKey (stewHalf k.val) + Reg.BG_CTL) s t))
  ∧ (∀ (k : Fin 8) (p : Fin 32) (w : Word) (s : State), s.runner (blkGp p.val) ≠ stewHalf k.val →
    Gives (.registerWrite (.steward k) (Reg.GP_CFG + p.val) w) s (fun t =>
      t.get (halfKey (stewHalf k.val)) Reg.DEV_REFUSED_COUNT
          = min 0xFFFFF (s.get (halfKey (stewHalf k.val)) Reg.DEV_REFUSED_COUNT + 1)
        ∧ t.get (halfKey (stewHalf k.val)) Reg.DEV_REFUSED_LAST_ADDR = Reg.GP_CFG + p.val
        ∧ t.reg (oneKey + Reg.GP_CFG + p.val) = s.reg (oneKey + Reg.GP_CFG + p.val)))

/-- In every copy whose wrap is due and that has had no source edge since: a wrap returns the count to 0, sets WRAP, clears
PEND, puts the staged prescaler and period in force, and is due no more. An accepted write of a running timebase's period other
than 1 is staged and shown by PEND, and the period in force stays; a period of 1 sets BAD and stages nothing. Enabling a stopped
timebase starts it from its count with its prescaler cleared. A read of the count copies the count of a chained general timer
above into its snapshot and changes nothing else. In SLEEP an LFX edge ticks a general timer on LFX whose prescaler is at its
last edge. -/
def Obligations.TimebasesCountAndStage : Prop :=
  (∀ (u : TbUnit) (i : Nat) (s : State), i ∈ s.tbCopies u → (s.timebase i).due = true → (s.timebase i).overdue = 0 →
    Gives (.timebaseWrap u) s (fun t =>
      t.tbCount i = 0 ∧ (t.timebase i).due = false ∧ t.flag (tbKey i) Reg.TB_STAT_WRAP = true ∧ t.flag (tbKey i) Reg.TB_STAT_PEND = false
        ∧ (∀ w : Word, (s.timebase i).stagedPre = some w → t.reg (tbKey i + Reg.TB_PRE) = w)
        ∧ (∀ w : Word, (s.timebase i).stagedPer = some w → t.reg (tbKey i + Reg.TB_PER) = w)))
  ∧ (∀ (m : Master) (u : TbUnit) (i : Nat) (v : Word) (s : State), i ∈ s.tbCopies u → s.tbWriteOk m u = true →
      s.tbEn i = true → v ≠ 1 →
    Gives (.timebaseStage m u .per v) s (fun t =>
      (t.timebase i).stagedPer = some v ∧ t.flag (tbKey i) Reg.TB_STAT_PEND = true
        ∧ t.reg (tbKey i + Reg.TB_PER) = s.reg (tbKey i + Reg.TB_PER)))
  ∧ (∀ (m : Master) (u : TbUnit) (i : Nat) (s : State), i ∈ s.tbCopies u → s.tbWriteOk m u = true →
    Gives (.timebaseStage m u .per 1) s (fun t =>
      t.timebases = s.timebases ∧ t.flag (tbKey i) Reg.TB_STAT_BAD = true))
  ∧ (∀ (m : Master) (u : TbUnit) (i : Nat) (s : State), i ∈ s.tbCopies u → s.tbWriteOk m u = true → s.tbEn i = false →
    Gives (.timebaseEnable m u true) s (fun t =>
      t.tbEn i = true ∧ (t.timebase i).left = s.tbN i ∧ (t.timebase i).acc = 0 ∧ t.tbCount i = s.tbCount i))
  ∧ (∀ (m : Master) (g : Fin 8) (s : State), g.val < 7 → s.tbSrc (129 + g.val) = 2 →
    Gives (.chainSnapshotRead m (.gt g)) s (fun t =>
      t.reg (tbKey (129 + g.val) + Reg.TB_SNAP) = s.reg (tbKey (129 + g.val) + Reg.TB_COUNT)
        ∧ RegsKeptBut (fun k => k == tbKey (129 + g.val) + Reg.TB_SNAP) s t ∧ t = { s with regs := t.regs }))
  ∧ (∀ (g : Fin 8) (s : State), s.power.mode = .sleep → s.tbRuns (128 + g.val) = true → s.tbSrc (128 + g.val) = 3 →
      (s.timebase (128 + g.val)).left = 1 → s.tbCount (128 + g.val) + 1 ≠ s.tbModulus (128 + g.val) →
    Gives .lfxEdgeCoarse s (fun t => t.tbCount (128 + g.val) = (s.tbCount (128 + g.val) + 1) % 0x100000))

/-- An accepted write of the compare register stores the value and arms the compare, which waits for the next tick. An armed
compare that matches at a tick sets CMP, and without CMP_AUTO it is disarmed. In an enabled capture unit that takes pin edges,
while the synchronisers sample, an opening edge latches the count, and a closing edge after it writes the pulse's width modulo
the period and sets DONE. A sampled edge of a general pin changes its level in GP_IN, and sets its flag where the pin's edge
selection names it; while the pins are not sampled an edge changes nothing. -/
def Obligations.ComparesCapturesAndPins : Prop :=
  (∀ (m : Master) (u : TbUnit) (i : Nat) (v : Word) (s : State), i ∈ s.tbCopies u → s.tbWriteOk m u = true →
    Gives (.compareArm m u v) s (fun t =>
      t.reg (tbKey i + Reg.TB_CMP) = v ∧ t.flag (tbKey i) Reg.TB_STAT_ARMED = true ∧ t.tbCount i = s.tbCount i
        ∧ (t.timebase i).ticked = false ∧ t = { s with regs := t.regs, timebases := t.timebases }))
  ∧ (∀ (u : TbUnit) (i : Nat) (s : State), i ∈ s.tbCopies u → s.tbRuns i = true → s.tbMatches i = true →
      (s.timebase i).ticked = true → s.flag (tbKey i) Reg.TB_CTL_CMP_AUTO = false →
    Gives (.compareMatch u) s (fun t =>
      t.flag (tbKey i) Reg.TB_STAT_CMP = true ∧ t.flag (tbKey i) Reg.TB_STAT_ARMED = false
        ∧ t.reg (tbKey i + Reg.TB_CMP) = s.reg (tbKey i + Reg.TB_CMP)))
  ∧ (∀ (u : TbUnit) (i : Nat) (c : Fin 2) (rise : Bool) (s : State), i ∈ s.tbCopies u → s.pinsSampled = true →
      (c.val = 1 → s.flag (capKey i 1) Reg.TB_CAP_CFG_SEL = false) → s.flag (capKey i c.val) Reg.TB_CAP_CFG_EN = true →
      rise ≠ s.flag (capKey i c.val) Reg.TB_CAP_CFG_POL →
    Gives (.captureEdge u c rise) s (fun t =>
      t.reg (capKey i c.val + Reg.TB_CAP_RISE) = s.reg (tbKey i + Reg.TB_COUNT) ∧ (t.timebase i).risen c.val = true))
  ∧ (∀ (u : TbUnit) (i : Nat) (c : Fin 2) (rise : Bool) (s : State), i ∈ s.tbCopies u → s.pinsSampled = true →
      (c.val = 1 → s.flag (capKey i 1) Reg.TB_CAP_CFG_SEL = false) → s.flag (capKey i c.val) Reg.TB_CAP_CFG_EN = true →
      rise = s.flag (capKey i c.val) Reg.TB_CAP_CFG_POL →
      (s.timebase i).risen c.val = true → (s.reg (capKey i c.val + Reg.TB_CAP_RISE)).toNat < s.tbModulus i →
      s.tbCount i < s.tbModulus i →
    Gives (.captureEdge u c rise) s (fun t =>
      (t.reg (capKey i c.val + Reg.TB_CAP_WIDTH)).toNat
          = (s.tbCount i + (s.tbModulus i - (s.reg (capKey i c.val + Reg.TB_CAP_RISE)).toNat)) % s.tbModulus i
        ∧ t.flag (tbKey i) (capDone c.val) = true ∧ (t.timebase i).risen c.val = false))
  ∧ (∀ (p : Fin 32) (rise : Bool) (s : State), s.pinsSampled = false → exec (.gpInputEdge p rise) s = .next s)
  ∧ (∀ (p : Fin 32) (rise : Bool) (s : State), s.pinsSampled = true →
    Gives (.gpInputEdge p rise) s (fun t =>
      t.gpPins.getLsbD p.val = rise ∧ (t.reg (oneKey + Reg.GP_IN + p.val / 16)).getLsbD (p.val % 16) = rise
        ∧ (edgeSelected (s.get (oneKey + p.val) Reg.GP_CFG_IEDGE) rise = true →
            (t.reg (oneKey + Reg.GP_FLAG + p.val / 16)).getLsbD (p.val % 16) = true)))

/-- At its period start an enabled slot takes the value of TS_ON, limited to the envelope's duty, as its on-time, where no
slew limit, ledger, proof or TALK exchange intervenes. At the rise instant the pad sources I_ON, unless the interlock holds it
or the lower-numbered partner rises on the same edge; a pulse that the interlock holds does not drive, and sets ILK_HOLD. The
comparator is armed 500 ns after the rise. At the fall instant the slot stops driving and a sample taken is committed to TS_TEL.
A SAR cycle converts a line sense input, or the most urgent terminal request, once. A readback that is due, in a cycle no
request takes, is recorded, and sets THR_BAD where it lies far from the threshold, which stays; none for 100 ms sets THR_BAD
too. Loss of compliance sets COMP; the age of the last evidence counts 100 ms. -/
def Obligations.PulsesAndSamplesTakeEffect : Prop :=
  (∀ (h : Half) (n : Fin 1024) (s : State), s.computes h = true → s.atPeriodStart h n.val = true →
      s.flag (termKey h n.val) Reg.TS_CTL_EN = true → s.flag (termKey h n.val) Reg.TS_STAT_TRIP = false →
      (s.slot h n.val).talk = none → (s.slot h n.val).talkAt = none → (s.slot h n.val).repay = .none →
      (s.slot h n.val).drive = false → s.get (envKey n.val) Reg.TS_ENV_SLEW = 0 → s.piv h n.val = 0 →
    Gives (.slotPeriodStart n) s (fun t =>
      (t.slot h n.val).on = s.get (termKey h n.val) Reg.TS_ON_ON
        ∧ (t.slot h n.val).applied = min (s.get (termKey h n.val) Reg.TS_ON_ON) (s.maxOn h n.val)
        ∧ (t.slot h n.val).riseDue = decide (min (s.get (termKey h n.val) Reg.TS_ON_ON) (s.maxOn h n.val) ≠ 0)))
  ∧ (∀ (n : Fin 1024) (s : State), s.computes (s.livePath n.val) = true → s.orphaned (n.val / 16) = false →
      s.riseNow (s.livePath n.val) n.val = true → s.interlocked n.val = false → s.lowerRises n.val = false →
      s.power.vaon = true → s.power.xref = true → s.scanDrives = false → (s.pad n.val).latch = none →
      (s.pad n.val).cut = false →
    Gives (.pulseRise n) s (fun t => (t.pad n.val).level = .on ∧ (t.slot (s.livePath n.val) n.val).drive = true))
  ∧ (∀ (h : Half) (n : Fin 1024) (s : State), s.computes h = true → s.riseNow h n.val = true →
      s.interlocked n.val = true →
    Gives (.pulseRise n) s (fun t =>
      (t.slot h n.val).riseDue = false ∧ (t.slot h n.val).drive = false
        ∧ t.flag (termKey h n.val) Reg.TD_STAT_ILK_HOLD = true))
  ∧ (∀ (n : Fin 1024) (s : State), (s.pad n.val).level = .on → (s.pad n.val).riseAt + 100 ≤ s.tref →
    Gives (.tripBlankEnd n) s (fun t => (t.pad n.val).armed = true ∧ t = { s with pads := t.pads }))
  ∧ (∀ (h : Half) (n : Fin 1024) (code at_ : Nat) (bad : Bool) (s : State), s.computes h = true →
      s.fallNow h n.val = true → (s.slot h n.val).sample = some (code, bad, at_) →
    Gives (.pulseFall n) s (fun t =>
      (t.slot h n.val).drive = false ∧ (t.slot h n.val).fellAt = some s.tref ∧ (t.slot h n.val).sample = none
        ∧ t.get (termKey h n.val) Reg.TS_TEL_CODE = code % 4096
        ∧ t.get (termKey h n.val) Reg.TS_TEL_CLS = telClass code bad))
  ∧ (∀ (h : Half) (b : Fin 64) (code : BitVec 12) (c : Nat) (s : State), s.sarCycle = some c → c % 8 = 0 →
      (s.sar b.val).done ≠ some s.onTref → s.computes h = true →
    Gives (.sarCycle b code) s (fun t =>
      (t.sar b.val).done = some s.onTref ∧ (t.sar b.val).lsv = some (code.toNat, s.timeNs)
        ∧ bits (t.reg (bayKey h b.val + Reg.LN_SNS_V)) 11 0 = code.toNat))
  ∧ (∀ (h : Half) (b : Fin 64) (n : Nat) (code : BitVec 12) (c : Nat) (s : State), s.sarCycle = some c → c % 4 ≠ 0 →
      (s.sar b.val).done ≠ some s.onTref → s.computes h = true →
      (∀ k : Nat, k < 16 → s.turnaroundDue h (16 * b.val + k) = false) → s.earliest h b.val = some (n, false) →
    Gives (.sarCycle b code) s (fun t =>
      (t.slot h n).sample = some (code.toNat, (s.slot h n).noPath, s.timeNs) ∧ (t.slot h n).telReq = none
        ∧ (t.sar b.val).done = some s.onTref))
  ∧ (∀ (h : Half) (b : Fin 64) (k : Fin 18) (code : BitVec 12) (c : Nat) (s : State), s.sarCycle = some c → c % 4 ≠ 0 →
      (s.sar b.val).done ≠ some s.onTref → s.readbackDue b.val k.val = true →
      (∀ g : Half, s.computes g = true → s.cycleTaken g b.val = false) → s.computes h = true → k.val < 16 →
      (code.toNat + 32 < 16 * s.thresholdCode (16 * b.val + k.val)
        ∨ 16 * s.thresholdCode (16 * b.val + k.val) + 32 < code.toNat) →
    Gives (.thresholdReadback b k code) s (fun t =>
      t.get (thrKey (16 * b.val + k.val)) Reg.TS_THR_RB = code.toNat
        ∧ t.get (thrKey (16 * b.val + k.val)) Reg.TS_THR_THR = s.get (thrKey (16 * b.val + k.val)) Reg.TS_THR_THR
        ∧ t.flag (termKey h (16 * b.val + k.val)) Reg.TS_STAT_THR_BAD = true))
  ∧ (∀ (h : Half) (b : Fin 64) (k : Fin 18) (s : State), s.readbackStale b.val k.val = true → s.computes h = true →
      k.val < 16 →
    Gives (.thresholdStale b k) s (fun t => t.flag (termKey h (16 * b.val + k.val)) Reg.TS_STAT_THR_BAD = true))
  ∧ (∀ (h : Half) (n : Fin 1024) (s : State), s.computes h = true →
    Gives (.complianceLoss n) s (fun t =>
      t.flag (termKey h n.val) Reg.TS_STAT_COMP = true ∧ (t.slot h n.val).noPath = true))
  ∧ (∀ (h : Half) (n : Fin 1024) (s : State), s.computes h = true → s.reg (ageKey h n.val) ≠ 0xFFFFF →
    Gives .tdAgeTick s (fun t => (t.reg (ageKey h n.val)).toNat = (s.reg (ageKey h n.val)).toNat + 1))

/-- A trip cuts the pad's current, latches TRIP, counts, and HEALTH reads TRIPPED; an accepted clear releases the pad and the
latch. An accepted TALK request other than SET_RANGE takes the terminal's free request slot; at an occupied slot it is answered
ST_BUSY; SET_RANGE written to the register is refused with ST_ENVELOPE_LOCKED, and a steward's is counted. A cancel ends a
waiting request. An exchange starts in a window with the command frame of the request; 48.0 µs after its start a good reply
with RSTAT 0 ends the request with ST_OK. At the 1 s mark a request that cannot borrow ends with ST_TALK_NOWINDOW, and one that
can is marked. -/
def Obligations.TripsAndTalkTakeEffect : Prop :=
  (∀ (h : Half) (n : Fin 1024) (s : State), s.computes h = true → (s.pad n.val).armed = true → (s.pad n.val).level = .on →
    Gives (.trip n) s (fun t =>
      (t.pad n.val).level = .rest ∧ (t.pad n.val).cut = true ∧ (t.slot h n.val).drive = false
        ∧ (t.slot h n.val).sample = none ∧ t.flag (termKey h n.val) Reg.TS_STAT_TRIP = true
        ∧ t.get (termKey h n.val) Reg.TD_STAT_HEALTH = 8
        ∧ (t.reg (termKey h n.val + Reg.TS_TRIPS)).toNat = min 0xFFFFF ((s.reg (termKey h n.val + Reg.TS_TRIPS)).toNat + 1)))
  ∧ (∀ (m : Master) (h : Half) (n : Fin 1024) (s : State), s.computes h = true → s.bayWriteOk m (n.val / 16) = true →
    Gives (.tripClear m n) s (fun t =>
      t.flag (termKey h n.val) Reg.TS_STAT_TRIP = false ∧ (t.pad n.val).cut = false ∧ t.slots = s.slots))
  ∧ (∀ (m : Master) (h : Half) (n : Fin 1024) (op : BitVec 4) (arg : BitVec 12) (s : State), s.computes h = true →
      s.bayWriteOk m (n.val / 16) = true → op ≠ 5 → (s.slot h n.val).talk = none →
    Gives (.talkRequest m n op arg) s (fun t =>
      (t.slot h n.val).talk.map (fun r => (r.op, r.arg, r.accepted, r.running)) = some (op.toNat, arg.toNat, s.onTref, false)
        ∧ t.flag (termKey h n.val) Reg.TS_TALK_ST_BUSY = true))
  ∧ (∀ (m : Master) (h : Half) (n : Fin 1024) (op : BitVec 4) (arg : BitVec 12) (s : State), s.computes h = true →
      s.bayWriteOk m (n.val / 16) = true → op ≠ 5 → (s.slot h n.val).talk.isSome = true →
    Gives (.talkRequest m n op arg) s (fun t =>
      t.slot h n.val = s.slot h n.val ∧ t.get (termKey h n.val) Reg.TS_TALK_ST_STATUS = St.BUSY))
  ∧ (∀ (k : Fin 8) (h : Half) (n : Fin 1024) (arg : BitVec 12) (s : State), s.computes h = true →
      s.holder (n.val / 16) = stewHalf k.val →
    Gives (.talkRequest (.steward k) n 5 arg) s (fun t =>
      t.slots = s.slots ∧ t.get (termKey h n.val) Reg.TS_TALK_ST_STATUS = St.ENVELOPE_LOCKED
        ∧ t.get (halfKey (stewHalf k.val)) Reg.DEV_REFUSED_COUNT
            = min 0xFFFFF (s.get (halfKey (stewHalf k.val)) Reg.DEV_REFUSED_COUNT + 1)))
  ∧ (∀ (p : Fin 3) (h : Half) (n : Fin 1024) (arg : BitVec 12) (s : State), s.computes h = true →
      s.bayWriteOk (.port p) (n.val / 16) = true →
    Gives (.talkRequest (.port p) n 5 arg) s (fun t =>
      t.slots = s.slots ∧ t.get (termKey h n.val) Reg.TS_TALK_ST_STATUS = St.ENVELOPE_LOCKED))
  ∧ (∀ (m : Master) (h : Half) (n : Fin 1024) (r : TalkReq) (s : State), s.computes h = true →
      s.bayWriteOk m (n.val / 16) = true → (s.slot h n.val).talk = some r → r.running = false →
    Gives (.talkCancel m n) s (fun t =>
      (t.slot h n.val).talk = none ∧ t.get (termKey h n.val) Reg.TS_TALK_ST_STATUS = St.TALK_CANCELLED
        ∧ t.flag (termKey h n.val) Reg.TS_STAT_TALK_DONE = true))
  ∧ (∀ (n : Fin 1024) (r : TalkReq) (s : State), s.computes (s.livePath n.val) = true →
      s.talkWindow (s.livePath n.val) n.val = true → (s.slot (s.livePath n.val) n.val).talk = some r →
    Gives (.talkExchangeStart n) s (fun t =>
      (t.slot (s.livePath n.val) n.val).talk.any (fun q => q.running && decide (q.started = s.onTref)) = true
        ∧ (t.pad n.val).frame = talkFrame r.op r.arg ∧ (t.sar (n.val / 16)).lastTalk = some s.onTref))
  ∧ (∀ (h : Half) (n : Fin 1024) (r : TalkReq) (c : Nat) (reply : Word) (s : State), s.computes h = true →
      (s.slot h n.val).talk = some r → s.talkOver h n.val = true → r.turnaround = some c → 448 ≤ c → c ≤ 1088 →
      talkGood reply = true → bits reply 19 16 = 0 →
    Gives (.talkExchangeEnd n reply) s (fun t =>
      (t.slot h n.val).talk = none ∧ t.reg (termKey h n.val + Reg.TS_TALK_RSP) = reply
        ∧ t.get (termKey h n.val) Reg.TS_TALK_ST_STATUS = St.OK ∧ t.flag (termKey h n.val) Reg.TS_TALK_ST_BUSY = false))
  ∧ (∀ (h : Half) (n : Fin 1024) (r : TalkReq) (s : State), s.computes h = true → (s.slot h n.val).talk = some r →
      r.running = false → r.marked = false → r.accepted + 200000000 ≤ s.onTref → s.canBorrow h n.val = false →
    Gives (.talkOneSecondMark n) s (fun t =>
      (t.slot h n.val).talk = none ∧ t.get (termKey h n.val) Reg.TS_TALK_ST_STATUS = St.TALK_NOWINDOW))
  ∧ (∀ (h : Half) (n : Fin 1024) (r : TalkReq) (s : State), s.computes h = true → (s.slot h n.val).talk = some r →
      r.running = false → r.marked = false → r.accepted + 200000000 ≤ s.onTref → s.canBorrow h n.val = true →
    Gives (.talkOneSecondMark n) s (fun t => (t.slot h n.val).talk = some { r with marked := true }))

/-- In every copy that runs: a line trip latches its bit, ends the open attempt, sends nothing more and, where the line
envelope says so, cuts the pad of the power slot; a current comparator that is blanked trips nothing before BLANK × 100 µs have
passed since the rise, and at the end of its blanking it trips if the current is still above the threshold. The bits clear by writing 1. An entry deferred at its turn beyond the
bound ends with ST_LINE_NOLOCK. A write of LN_TXD stores two bytes and advances LN_TXA; for a busy entry it sets BAD. A
submission makes its entry busy or is refused with its outcome in LN_QSTAT. A cancel ends a waiting entry, and marks one whose
SOF has gone out. Clearing EN ends busy entries with ST_LINE_DISABLED and stops the engine. A pop removes the head; a read of
LN_RXD advances LN_RXA. -/
def Obligations.LineTripsAndQueueTakeEffect : Prop :=
  (∀ (h : Half) (b : Fin 64) (s : State), s.computes h = true →
    Gives (.lineTrip b true) s (fun t =>
      t.flag (bayKey h b.val) Reg.LN_STAT_VTRIP = true ∧ (t.line h b.val).attempt = none
        ∧ (t.engine h b.val).sym = none))
  ∧ (∀ (h : Half) (b : Fin 64) (n : Nat) (s : State), s.computes h = true → s.lineBlanked.getLsbD b.val = false →
      s.flag (padKey b.val) Reg.LN_ENV_PWR_EN = true → s.powerSlot b.val = n →
    Gives (.lineTrip b false) s (fun t =>
      t.flag (bayKey h b.val) Reg.LN_STAT_ITRIP = true ∧ t.flag (termKey h n) Reg.TS_STAT_TRIP = true
        ∧ (t.pad n).cut = true ∧ (t.pad n).level ≠ .on))
  ∧ (∀ (b : Fin 64) (s : State), s.lineBlanked.getLsbD b.val = true → s.blankOver b.val = false →
    exec (.lineTrip b false) s = .next s)
  ∧ (∀ (h : Half) (b : Fin 64) (s : State), s.computes h = true → s.lineBlanked.getLsbD b.val = true →
      s.blankOver b.val = true →
    Gives (.lineBlankEnd b true) s (fun t =>
      t.lineBlanked.getLsbD b.val = false ∧ t.flag (bayKey h b.val) Reg.LN_STAT_ITRIP = true))
  ∧ (∀ (b : Fin 64) (s : State), s.lineBlanked.getLsbD b.val = true → s.blankOver b.val = true →
    exec (.lineBlankEnd b false) s = .next { s with lineBlanked := s.lineBlanked &&& ~~~(BitVec.twoPow 64 b.val) })
  ∧ (∀ (h : Half) (m : Master) (b : Fin 64) (volts amps : Bool) (s : State), s.computes h = true →
      s.bayWriteOk m b.val = true →
    Gives (.lineTripClear m b volts amps) s (fun t =>
      t.flag (bayKey h b.val) Reg.LN_STAT_VTRIP = (s.flag (bayKey h b.val) Reg.LN_STAT_VTRIP && !volts)
        ∧ t.flag (bayKey h b.val) Reg.LN_STAT_ITRIP = (s.flag (bayKey h b.val) Reg.LN_STAT_ITRIP && !amps)))
  ∧ (∀ (h : Half) (b : Fin 64) (e : Nat) (s : State), s.computes h = true → s.leTurn h b.val = some e → e < 8 →
      (40000 < ((s.line h b.val).entry e).settle ∨ 500000 < ((s.line h b.val).entry e).cal) →
    Gives (.lineDeferExpiry b) s (fun t =>
      ((t.line h b.val).entry e).busy = false ∧ ((t.line h b.val).entry e).status = St.LINE_NOLOCK
        ∧ t.flag (bayKey h b.val) Reg.LN_STAT_NOLOCK = true))
  ∧ (∀ (h : Half) (m : Master) (b : Fin 64) (value : Word) (a : Nat) (s : State), s.computes h = true →
      s.bayWriteOk m b.val = true → a = s.get (bayKey h b.val) Reg.LN_TXA_ADDR →
      ((s.line h b.val).entry (a / 32)).busy = false →
    Gives (.transmitBufferWrite m b value) s (fun t =>
      (t.line h b.val).byte (a / 32) (2 * (a % 32)) = BitVec.ofNat 8 (bits value 15 8)
        ∧ (t.line h b.val).byte (a / 32) (2 * (a % 32) + 1) = BitVec.ofNat 8 (bits value 7 0)
        ∧ t.get (bayKey h b.val) Reg.LN_TXA_ADDR = (a + 1) % 256))
  ∧ (∀ (h : Half) (m : Master) (b : Fin 64) (value : Word) (s : State), s.computes h = true →
      s.bayWriteOk m b.val = true →
      ((s.line h b.val).entry (s.get (bayKey h b.val) Reg.LN_TXA_ADDR / 32)).busy = true →
    Gives (.transmitBufferWrite m b value) s (fun t =>
      t.line h b.val = s.line h b.val ∧ t.flag (bayKey h b.val) Reg.LN_STAT_BAD = true))
  ∧ (∀ (h : Half) (m : Master) (b : Fin 64) (id : BitVec 16) (e : Nat) (s : State), s.computes h = true →
      s.bayWriteOk m b.val = true → e = s.get (bayKey h b.val) Reg.LN_TXC_ENTRY →
      s.submitStatus h b.val id.toNat = St.OK →
    Gives (.lineSubmit m b id) s (fun t =>
      ((t.line h b.val).entry e).busy = true ∧ ((t.line h b.val).entry e).id = id.toNat
        ∧ ((t.line h b.val).entry e).len = s.get (bayKey h b.val) Reg.LN_TXC_LEN
        ∧ t.get (bayKey h b.val) Reg.LN_QSTAT_SUB_ST = St.OK))
  ∧ (∀ (h : Half) (m : Master) (b : Fin 64) (id : BitVec 16) (s : State), s.computes h = true →
      s.bayWriteOk m b.val = true → s.submitStatus h b.val id.toNat ≠ St.OK →
    Gives (.lineSubmit m b id) s (fun t =>
      t.line h b.val = s.line h b.val
        ∧ t.get (bayKey h b.val) Reg.LN_QSTAT_SUB_ST = s.submitStatus h b.val id.toNat))
  ∧ (∀ (h : Half) (m : Master) (b : Fin 64) (mask : BitVec 8) (e : Nat) (s : State), s.computes h = true →
      s.bayWriteOk m b.val = true → mask.getLsbD e = true → ((s.line h b.val).entry e).busy = true →
    Gives (.lineCancel m b mask) s (fun t =>
      if (s.line h b.val).attempt = some e ∧ (s.line h b.val).sof = true then
        ((t.line h b.val).entry e).cpend = true ∧ ((t.line h b.val).entry e).busy = true
      else ((t.line h b.val).entry e).busy = false ∧ ((t.line h b.val).entry e).done = true
        ∧ ((t.line h b.val).entry e).status = St.LINE_CANCELLED))
  ∧ (∀ (h : Half) (m : Master) (b : Fin 64) (s : State), s.computes h = true → s.bayWriteOk m b.val = true →
      s.flag (bayKey h b.val) Reg.LN_CFG_EN = true →
    Gives (.lineDisable m b) s (fun t =>
      t.flag (bayKey h b.val) Reg.LN_CFG_EN = false ∧ (t.engine h b.val).mode = .stopped
        ∧ (∀ e : Nat, e < 8 → ((s.line h b.val).entry e).busy = true →
            ((t.line h b.val).entry e).busy = false ∧ ((t.line h b.val).entry e).status = St.LINE_DISABLED)))
  ∧ (∀ (h : Half) (m : Master) (b : Fin 64) (s : State), s.computes h = true → s.bayWriteOk m b.val = true →
    Gives (.receivePop m b) s (fun t => (t.line h b.val).fifo = (s.line h b.val).fifo.drop 1))
  ∧ (∀ (h : Half) (m : Master) (b : Fin 64) (s : State), s.computes h = true → s.bayWriteOk m b.val = true →
    Gives (.receiveDataRead m b) s (fun t =>
      t.get (bayKey h b.val) Reg.LN_RXA_ADDR = (s.get (bayKey h b.val) Reg.LN_RXA_ADDR + 1) % 32
        ∧ t = { s with regs := t.regs }))

/-- A write of FREQ outside 95 to 480 sets BAD and changes no synthesiser; in range it takes effect at once in STOPPED, waits
in LOCKED, is staged in CAL and SETTLE, and cancels what waits where it equals the frequency in force. A calibration request
waits in LOCKED, is satisfied by CAL and is held otherwise. What waits takes effect while no line of the octet is
transmitting: CAL, else SETTLE, at the new frequency. The end of CAL is LOCKED, with the temperature recorded, or STOPPED with
CAL_FAIL; the end of SETTLE is LOCKED where nothing is held. Loss of lock leaves for CAL and sets UNLOCK in the octet and its
lines. A retry leaves STOPPED for CAL. An update of the temperature by 10 °C or more gates a calibration. -/
def Obligations.SynthesisersTakeTheirStates : Prop :=
  (∀ (h : Half) (m : Master) (j : Fin 8) (freq : BitVec 9) (s : State), s.computes h = true →
      s.bayWriteOk m (8 * j.val) = true → (freq.toNat < 95 ∨ 480 < freq.toNat) →
    Gives (.synthFreqWrite m j freq) s (fun t =>
      t.synths = s.synths ∧ t.flag (bayKey h (8 * j.val)) Reg.LS_STAT_BAD = true))
  ∧ (∀ (h : Half) (m : Master) (j : Fin 8) (freq : BitVec 9) (s : State), s.computes h = true →
      s.bayWriteOk m (8 * j.val) = true → 95 ≤ freq.toNat → freq.toNat ≤ 480 →
    Gives (.synthFreqWrite m j freq) s (fun t =>
      t.get (bayKey h (8 * j.val)) Reg.LS_SYN_FREQ = freq.toNat
        ∧ (t.synth j.val).mode = (s.synth j.val).mode
        ∧ (freq.toNat = (s.synth j.val).freq → (t.synth j.val).pendFreq = none ∧ (t.synth j.val).staged = none)
        ∧ (freq.toNat ≠ (s.synth j.val).freq → (s.synth j.val).mode = .locked → (t.synth j.val).pendFreq = some freq.toNat
            ∧ (t.synth j.val).freq = (s.synth j.val).freq)
        ∧ (freq.toNat ≠ (s.synth j.val).freq → (s.synth j.val).mode = .settle ∨ (s.synth j.val).mode = .cal →
            (t.synth j.val).staged = some freq.toNat ∧ (t.synth j.val).freq = (s.synth j.val).freq)
        ∧ ((s.synth j.val).mode = .stopped → (t.synth j.val).freq = freq.toNat)))
  ∧ (∀ (m : Master) (j : Fin 8) (s : State), s.bayWriteOk m (8 * j.val) = true →
    Gives (.synthCalRequest m j) s (fun t =>
      ((s.synth j.val).mode = .locked → t = s.setSynth j.val { s.synth j.val with pendCal := true })
        ∧ ((s.synth j.val).mode = .cal → t = s)
        ∧ ((s.synth j.val).mode = .stopped ∨ (s.synth j.val).mode = .settle →
            t = s.setSynth j.val { s.synth j.val with heldCal := true })))
  ∧ (∀ (j : Fin 8) (s : State), s.octetQuiet j.val = true → (s.synth j.val).mode = .locked →
      (s.synth j.val).gated = true → (s.synth j.val).staged = none →
    Gives (.synthGateApply j) s (fun t =>
      (t.synth j.val).mode = (if (s.synth j.val).pendCal = true then .cal else .settle)
        ∧ (t.synth j.val).freq = (s.synth j.val).pendFreq.getD (s.synth j.val).freq
        ∧ (t.synth j.val).gated = false))
  ∧ (∀ (h : Half) (j : Fin 8) (s : State), s.computes h = true → (s.synth j.val).mode = .cal →
      (s.synth j.val).staged = none →
    Gives (.synthCalDone j true) s (fun t =>
      (t.synth j.val).mode = .locked ∧ (t.synth j.val).calibrated = true
        ∧ t.flag (bayKey h (8 * j.val)) Reg.LS_STAT_CAL_DONE = true
        ∧ t.get (bayKey h (8 * j.val)) Reg.LS_TEMP_CAL = s.get (bayKey h (8 * j.val)) Reg.LS_TEMP_NOW))
  ∧ (∀ (h : Half) (j : Fin 8) (s : State), s.computes h = true → (s.synth j.val).mode = .cal →
    Gives (.synthCalDone j false) s (fun t =>
      (t.synth j.val).mode = .stopped ∧ (t.synth j.val).failed = true
        ∧ t.flag (bayKey h (8 * j.val)) Reg.LS_STAT_CAL_FAIL = true))
  ∧ (∀ (j : Fin 8) (s : State), (s.synth j.val).mode = .settle → (s.synth j.val).staged = none →
      (s.synth j.val).pendFreq = none →
      (s.synth j.val).heldCal = false →
    Gives (.synthSettleDone j) s (fun t =>
      (t.synth j.val).mode = .locked ∧ (t.synth j.val).freq = (s.synth j.val).freq ∧ t.regs = s.regs))
  ∧ (∀ (h : Half) (j k : Fin 8) (s : State), s.computes h = true → (s.synth j.val).mode = .locked →
    Gives (.synthUnlock j) s (fun t =>
      (t.synth j.val).mode = .cal ∧ t.flag (bayKey h (8 * j.val)) Reg.LS_STAT_UNLOCK = true
        ∧ t.flag (bayKey h (8 * j.val + k.val)) Reg.LN_STAT_UNLOCK = true))
  ∧ (∀ (j : Fin 8) (s : State), (s.synth j.val).mode = .stopped → (s.synth j.val).failed = true →
      s.octetEnabled j.val = true →
    Gives (.synthRetry j) s (fun t => (t.synth j.val).mode = .cal ∧ t.regs = s.regs))
  ∧ (∀ (h : Half) (j : Fin 8) (now : BitVec 8) (s : State), s.computes h = true → s.holder (8 * j.val) = h →
    Gives (.lsTempUpdate j now) s (fun t =>
      t.get (bayKey h (8 * j.val)) Reg.LS_TEMP_NOW = now.toNat
        ∧ ((s.synth j.val).mode = .locked → s.get (bayKey h (8 * j.val)) Reg.LS_TEMP_CAL + 10 ≤ now.toNat →
            (t.synth j.val).pendCal = true)))

/-- Where the instruction at the PC of a copy's engine is of the kind and faults on nothing: BR goes to TGT where COND is not
NEG, else to the next address; CALL pushes the next address, its return pops; LDI, ALU, DJNZ and MOV leave their cell with its
new value and their flags; GET loads TSR and, with INC, advances its cell; PUT appends bytes to the assembly, 64 at most; CRC
takes the initial value within its width, tests for zero, or loads TSR. Each that does not branch goes on at the next address. -/
def Obligations.EngineInstructionsCompute : Prop :=
  (∀ (h : Half) (b : Fin 64) (s : State), s.computes h = true → s.leAt h b.val 0 = true →
    Gives (.leBr b) s (fun t => (t.engine h b.val).pc =
      if s.leTest h b.val (s.leWord h b.val) = true then wbits (s.leWord h b.val) 7 0
      else ((s.engine h b.val).pc + 1) % 256))
  ∧ (∀ (h : Half) (b : Fin 64) (s : State), s.computes h = true → s.leAt h b.val 1 = true →
    Gives (.leCall b) s (fun t =>
      if isField 27 27 1 (s.leWord h b.val) = true then
        (t.engine h b.val).links = (s.engine h b.val).links.tail
          ∧ (t.engine h b.val).pc = (s.engine h b.val).links.headD 0 % 256
      else (t.engine h b.val).links = ((s.engine h b.val).pc + 1) % 256 :: (s.engine h b.val).links
          ∧ (t.engine h b.val).pc = wbits (s.leWord h b.val) 7 0))
  ∧ (∀ (h : Half) (b : Fin 64) (s : State), s.computes h = true → s.leAt h b.val 6 = true →
    Gives (.leLdi b) s (fun t =>
      (t.engine h b.val).cell (wbits (s.leWord h b.val) 27 25) = BitVec.ofNat 16 (wbits (s.leWord h b.val) 15 0)
        ∧ (∀ i : Nat, i < 8 → i ≠ wbits (s.leWord h b.val) 27 25 →
            (t.engine h b.val).cell i = (s.engine h b.val).cell i)
        ∧ (t.engine h b.val).pc = ((s.engine h b.val).pc + 1) % 256))
  ∧ (∀ (h : Half) (b : Fin 64) (a y : BitVec 16) (s : State), s.computes h = true → s.leAt h b.val 7 = true →
      isField 21 19 0 (s.leWord h b.val) = true → a = (s.engine h b.val).cell (wbits (s.leWord h b.val) 27 25) →
      y = (if isField 18 18 1 (s.leWord h b.val) = true then BitVec.ofNat 16 (wbits (s.leWord h b.val) 15 0)
        else (s.engine h b.val).cell (wbits (s.leWord h b.val) 24 22)) →
    Gives (.leAlu b) s (fun t =>
      (t.engine h b.val).cell (wbits (s.leWord h b.val) 27 25) = a + y
        ∧ (t.engine h b.val).z = decide (a + y = 0) ∧ (t.engine h b.val).c = decide (0x10000 ≤ a.toNat + y.toNat)))
  ∧ (∀ (h : Half) (b : Fin 64) (a y : BitVec 16) (s : State), s.computes h = true → s.leAt h b.val 7 = true →
      isField 21 19 1 (s.leWord h b.val) = true → a = (s.engine h b.val).cell (wbits (s.leWord h b.val) 27 25) →
      y = (if isField 18 18 1 (s.leWord h b.val) = true then BitVec.ofNat 16 (wbits (s.leWord h b.val) 15 0)
        else (s.engine h b.val).cell (wbits (s.leWord h b.val) 24 22)) →
    Gives (.leAlu b) s (fun t =>
      (t.engine h b.val).cell (wbits (s.leWord h b.val) 27 25) = a - y
        ∧ (t.engine h b.val).z = decide (a - y = 0) ∧ (t.engine h b.val).c = decide (a.toNat < y.toNat)))
  ∧ (∀ (h : Half) (b : Fin 64) (v : BitVec 16) (s : State), s.computes h = true → s.leAt h b.val 8 = true →
      v = (s.engine h b.val).cell (wbits (s.leWord h b.val) 27 25) - 1 →
    Gives (.leDjnz b) s (fun t =>
      (t.engine h b.val).cell (wbits (s.leWord h b.val) 27 25) = v ∧ (t.engine h b.val).z = decide (v = 0)
        ∧ (t.engine h b.val).pc = if v = 0 then ((s.engine h b.val).pc + 1) % 256
            else wbits (s.leWord h b.val) 7 0))
  ∧ (∀ (h : Half) (b : Fin 64) (s : State), s.computes h = true → s.leAt h b.val 9 = true →
      isField 27 27 0 (s.leWord h b.val) = true →
    Gives (.leMov b) s (fun t =>
      (t.engine h b.val).cell (wbits (s.leWord h b.val) 26 24) =
        s.leSpecial h b.val (wbits (s.leWord h b.val) 23 20) (isField 19 19 1 (s.leWord h b.val))))
  ∧ (∀ (h : Half) (b : Fin 64) (s : State), s.computes h = true → s.leAt h b.val 9 = true →
      isField 27 27 1 (s.leWord h b.val) = true → isField 23 20 0 (s.leWord h b.val) = true →
    Gives (.leMov b) s (fun t =>
      halfOf (isField 19 19 1 (s.leWord h b.val)) (t.engine h b.val).tsr =
          (s.engine h b.val).cell (wbits (s.leWord h b.val) 26 24)
        ∧ halfOf (!isField 19 19 1 (s.leWord h b.val)) (t.engine h b.val).tsr =
            halfOf (!isField 19 19 1 (s.leWord h b.val)) (s.engine h b.val).tsr))
  ∧ (∀ (h : Half) (b : Fin 64) (c n : Nat) (s : State), s.computes h = true → s.leAt h b.val 10 = true →
      c = wbits (s.leWord h b.val) 27 25 → n = wbits (s.leWord h b.val) 24 23 + 1 →
    Gives (.leGet b) s (fun t =>
      (t.engine h b.val).tsr.toNat / (if isField 22 22 1 (s.leWord h b.val) = true then 1 else 0x1000000) % 256 =
          s.leByte h b.val ((s.engine h b.val).cell c).toNat
        ∧ (t.engine h b.val).cell c = (if isField 21 21 1 (s.leWord h b.val) = true then
            BitVec.ofNat 16 (((s.engine h b.val).cell c).toNat + n) else (s.engine h b.val).cell c)))
  ∧ (∀ (h : Half) (b : Fin 64) (a : Assembly) (l : List Byte) (s : State), s.computes h = true → s.leAt h b.val 11 = true →
      (s.engine h b.val).assembly = some a →
      l = a.bytes ++ rsrBytes (isField 22 22 1 (s.leWord h b.val)) (wbits (s.leWord h b.val) 24 23 + 1)
        (s.engine h b.val).rsr →
    Gives (.lePut b) s (fun t =>
      (t.engine h b.val).assembly = some { a with bytes := l.take 64 }
        ∧ (t.engine h b.val).ovf = ((s.engine h b.val).ovf || decide (64 < l.length))))
  ∧ (∀ (h : Half) (b : Fin 64) (s : State), s.computes h = true → s.leAt h b.val 12 = true →
      isField 27 26 0 (s.leWord h b.val) = true →
    Gives (.leCrcInit b) s (fun t =>
      (t.engine h b.val).crc = s.leCrcFit h b.val (s.leWide h b.val Reg.LE_CRC_INIT)))
  ∧ (∀ (h : Half) (b : Fin 64) (s : State), s.computes h = true → s.leAt h b.val 12 = true →
      isField 27 26 1 (s.leWord h b.val) = true →
    Gives (.leCrcCheck b) s (fun t =>
      (t.engine h b.val).crcok = decide ((s.engine h b.val).crc = 0) ∧ (t.engine h b.val).crc = (s.engine h b.val).crc))
  ∧ (∀ (h : Half) (b : Fin 64) (s : State), s.computes h = true → s.leAt h b.val 12 = true →
      isField 27 26 2 (s.leWord h b.val) = true →
    Gives (.leCrcLoad b) s (fun t => (t.engine h b.val).tsr =
      if s.leGet h b.val Reg.LE_CRC_CFG_DIR = 0 then (s.engine h b.val).crc <<< (32 - s.leW h b.val)
      else (s.engine h b.val).crc))

/-- SYM at a shift boundary, of a 1, starts a bit of its period with its symbol: in DBPSK a reversal, but for the phase
reference after OFF or an on-off 0; before the boundary it changes nothing. SMP, once BT has
reached its offset, takes the input, inverted where INV is set, as RXV. WAIT waits, and ends on its condition, clearing TMO, or
on its time, setting it. ALIGN STOP stops BT and the output, EDGE starts a bit at the latest edge less LE_TSADJ, SOFT moves the
bit start within its window; each clears EDGE. IDLE closes what is open and waits; it resumes on an edge with RXE, or on an entry
with TXG and the attempt open. A bit that has run out, and that no SYM or ALIGN at its boundary goes on from, holds the output for
one period, which LE_CNT_LATE counts, and then ends it. A selected edge is recorded. -/
def Obligations.EngineBitsAndWaits : Prop :=
  (∀ (h : Half) (b : Fin 64) (s : State), s.computes h = true → s.leAt h b.val 2 = true →
      s.leBoundary h b.val = true → (s.engine h b.val).late = 0 → isField 17 17 0 (s.leWord h b.val) = true →
      isField 25 23 2 (s.leWord h b.val) = true → (s.engine h b.val).live = [] →
    Gives (.leSym b) s (fun t =>
      (t.engine h b.val).sym = some ((s.engine h b.val).sends (wbits (s.leWord h b.val) 22 21) true)
        ∧ (t.engine h b.val).raw = true
        ∧ (t.engine h b.val).mod = wbits (s.leWord h b.val) 22 21
        ∧ (t.engine h b.val).bit.map Prod.snd = some (s.lePer h b.val (wbits (s.leWord h b.val) 27 26))
        ∧ (t.engine h b.val).bit.map Prod.fst = some (match (s.engine h b.val).bit with
            | some (u, p) => u + p
            | none => s.onTref + 1)
        ∧ (t.engine h b.val).pc = ((s.engine h b.val).pc + 1) % 256))
  ∧ (∀ (h : Half) (b : Fin 64) (s : State), s.computes h = true → s.leBoundary h b.val = false →
    Gives (.leSym b) s (fun t => t.engine h b.val = s.engine h b.val))
  ∧ (∀ (h : Half) (b : Fin 64) (input : Bool) (s : State), s.computes h = true → s.leAt h b.val 3 = true →
      wbits (s.leWord h b.val) 15 0 ≤ s.leBt h b.val → s.flag (bayKey h b.val) Reg.LE_CFG_LOOP = false →
      isField 24 21 8 (s.leWord h b.val) = true →
    Gives (.leSmp b input) s (fun t =>
      (t.engine h b.val).rxv = (input != isField 25 25 1 (s.leWord h b.val))
        ∧ (t.engine h b.val).mis = (input != (s.engine h b.val).raw)
        ∧ (t.engine h b.val).rsr = ((s.engine h b.val).rsr <<< 1)
            ||| (if (t.engine h b.val).rxv = true then 1#32 else 0#32)
        ∧ (t.engine h b.val).crc = (s.engine h b.val).crc
        ∧ (t.engine h b.val).pc = ((s.engine h b.val).pc + 1) % 256))
  ∧ (∀ (h : Half) (b : Fin 64) (s : State), s.computes h = true → s.leAt h b.val 4 = true →
    Gives (.leWait b) s (fun t =>
      (t.engine h b.val).waiting = some s.onTref ∧ (t.engine h b.val).pc = (s.engine h b.val).pc))
  ∧ (∀ (h : Half) (b : Fin 64) (s : State), s.computes h = true → s.leWaits h b.val 4 = true →
      (s.leTest h b.val (s.leWord h b.val) = true ∨ (isField 21 20 2 (s.leWord h b.val) = true
        ∧ (s.engine h b.val).waiting.getD s.onTref + 200 * wbits (s.leWord h b.val) 15 0 ≤ s.onTref)) →
    Gives (.leWaitEnd b) s (fun t =>
      (t.engine h b.val).tmo = (!s.leTest h b.val (s.leWord h b.val)) ∧ (t.engine h b.val).waiting = none
        ∧ (t.engine h b.val).pc = ((s.engine h b.val).pc + 1) % 256))
  ∧ (∀ (h : Half) (b : Fin 64) (s : State), s.computes h = true → s.leAt h b.val 5 = true →
      isField 27 26 0 (s.leWord h b.val) = true → s.leBoundary h b.val = true →
    Gives (.leAlignStop b) s (fun t =>
      (t.engine h b.val).bit = none ∧ (t.engine h b.val).sym = none ∧ (t.engine h b.val).edgeF = false))
  ∧ (∀ (h : Half) (b : Fin 64) (e : Nat) (s : State), s.computes h = true → s.leAt h b.val 5 = true →
      isField 27 26 1 (s.leWord h b.val) = true → s.leEdgeStart h b.val = some e →
    Gives (.leAlignEdge b) s (fun t =>
      (t.engine h b.val).bit = some (e, s.lePer h b.val (wbits (s.leWord h b.val) 25 24))
        ∧ (t.engine h b.val).edgeF = false))
  ∧ (∀ (h : Half) (b : Fin 64) (e u p : Nat) (s : State), s.computes h = true → s.leAt h b.val 5 = true →
      isField 27 26 2 (s.leWord h b.val) = true → s.leEdgeStart h b.val = some e →
      (s.engine h b.val).bit = some (u, p) →
    Gives (.leAlignSoft b) s (fun t =>
      (t.engine h b.val).edgeF = false ∧ (t.engine h b.val).bit =
        some (if e ≤ u + wbits (s.leWord h b.val) 15 0 ∧ u ≤ e + wbits (s.leWord h b.val) 15 0 then e else u, p)))
  ∧ (∀ (h : Half) (b : Fin 64) (s : State), s.computes h = true → s.leAt h b.val 13 = true →
    Gives (.leIdle b) s (fun t =>
      (t.engine h b.val).attempt = false ∧ (t.engine h b.val).assembly = none ∧ (t.engine h b.val).edgeF = false
        ∧ (t.engine h b.val).waiting = some s.onTref
        ∧ ((s.engine h b.val).attempt = true → t.flag (bayKey h b.val) Reg.LE_STAT_NOFIN = true)))
  ∧ (∀ (h : Half) (b : Fin 64) (s : State), s.computes h = true → s.leWaits h b.val 13 = true →
      (s.engine h b.val).edgeF = true → isField 26 26 1 (s.leWord h b.val) = true →
    Gives (.leIdleReturn b) s (fun t =>
      (t.engine h b.val).rxe = true ∧ (t.engine h b.val).txg = false ∧ (t.engine h b.val).waiting = none))
  ∧ (∀ (h : Half) (b : Fin 64) (e : Nat) (s : State), s.computes h = true → s.leWaits h b.val 13 = true →
      (s.engine h b.val).edgeF = false → s.leTurn h b.val = some e → s.lineTripped h b.val = false →
      s.lockOk h b.val = true → (s.synth (b.val / 8)).gated = false →
    Gives (.leIdleReturn b) s (fun t =>
      (t.engine h b.val).txg = true ∧ (t.engine h b.val).rxe = false ∧ (t.engine h b.val).attempt = true
        ∧ (t.line h b.val).attempt = some e ∧ (t.line h b.val).sof = false))
  ∧ (∀ (h : Half) (b : Fin 64) (u p : Nat) (s : State), s.computes h = true → (s.engine h b.val).bit = some (u, p) →
      (s.engine h b.val).late = 0 →
      (u + p < s.onTref ∨ u + p = s.onTref ∧ s.leAt h b.val 2 = false ∧ s.leAt h b.val 5 = false) →
      s.reg (bayKey h b.val + Reg.LE_CNT_LATE) ≠ 0xFFFFF →
    Gives (.leLate b) s (fun t =>
      (t.engine h b.val).late = 1 ∧ (t.engine h b.val).sym = (s.engine h b.val).sym
        ∧ (t.reg (bayKey h b.val + Reg.LE_CNT_LATE)).toNat = (s.reg (bayKey h b.val + Reg.LE_CNT_LATE)).toNat + 1))
  ∧ (∀ (h : Half) (b : Fin 64) (u p : Nat) (s : State), s.computes h = true → (s.engine h b.val).bit = some (u, p) →
      (s.engine h b.val).late = 1 → u + 2 * p ≤ s.onTref →
    Gives (.leLate b) s (fun t => (t.engine h b.val).late = 2 ∧ (t.engine h b.val).sym = none))
  ∧ (∀ (h : Half) (b : Fin 64) (rise : Bool) (s : State), s.computes h = true →
      s.flag (bayKey h b.val) Reg.LE_CFG_LOOP = false → (s.engine h b.val).level ≠ rise →
    Gives (.lineEdge b rise) s (fun t =>
      (t.engine h b.val).level = rise
        ∧ (liveLevel (s.leGet h b.val Reg.LE_EDGE_POL) rise = true →
            (t.engine h b.val).edge = some (s.onTref, s.timeNs) ∧ (t.engine h b.val).edgeF = true)))

/-- FIN TXOK ends the attempt's entry with ST_OK, or with ST_SENT_CANCEL_LATE where a cancel is pending, and records the
acknowledge. NOACK, COLL and TXABORT end it with their codes where no retry is left, and else count a try. ARBLOST counts a
lost arbitration and leaves the entry waiting. DECIDE marks the deciding instant. OPEN opens an empty assembly, DELIVER puts
the frame into the FIFO, BADCRC and BADFMT discard it and set RXERR where it was not lost before. HALT with BRK halts. A fault stops the engine with its
code and address recorded. -/
def Obligations.EngineFrameEndsTakeEffect : Prop :=
  (∀ (h : Half) (b : Fin 64) (e : Nat) (s : State), s.computes h = true → s.leAt h b.val 14 = true →
      isField 27 24 0 (s.leWord h b.val) = true → (s.line h b.val).attempt = some e → e < 8 →
    Gives (.finTxok b) s (fun t =>
      (t.engine h b.val).attempt = false ∧ (t.line h b.val).attempt = none
        ∧ ((t.line h b.val).entry e).busy = false ∧ ((t.line h b.val).entry e).done = true
        ∧ ((t.line h b.val).entry e).status =
            (if ((s.line h b.val).entry e).cpend = true then St.SENT_CANCEL_LATE else St.OK)
        ∧ ((t.line h b.val).entry e).acked = isField 23 23 1 (s.leWord h b.val)))
  ∧ (∀ (h : Half) (b : Fin 64) (e : Nat) (c : Instr) (code st : Nat) (s : State),
      (c, code, st) ∈ [(.finNoack b, 1, St.LINE_NOACK), (.finColl b, 3, St.LINE_COLLISION),
        (.finTxabort b, 4, St.LINE_ABORTED)] →
      s.computes h = true → s.leAt h b.val 14 = true → isField 27 24 code (s.leWord h b.val) = true →
      (s.line h b.val).attempt = some e → e < 8 → ((s.line h b.val).entry e).cpend = false →
    Gives c s (fun t =>
      (t.engine h b.val).attempt = false ∧ (t.line h b.val).attempt = none
        ∧ (if ((s.line h b.val).entry e).tries < ((s.line h b.val).entry e).retry then
            ((t.line h b.val).entry e).tries = ((s.line h b.val).entry e).tries + 1
              ∧ ((t.line h b.val).entry e).busy = ((s.line h b.val).entry e).busy
          else ((t.line h b.val).entry e).busy = false ∧ ((t.line h b.val).entry e).status = st)))
  ∧ (∀ (h : Half) (b : Fin 64) (e : Nat) (s : State), s.computes h = true → s.leAt h b.val 14 = true →
      isField 27 24 2 (s.leWord h b.val) = true → (s.line h b.val).attempt = some e → e < 8 →
      s.get (bayKey h b.val) Reg.LN_CFG_ARB_MAX = 0 →
    Gives (.finArblost b) s (fun t =>
      (t.line h b.val).attempt = none
        ∧ ((t.line h b.val).entry e).arbl = ((s.line h b.val).entry e).arbl + 1
        ∧ (((s.line h b.val).entry e).cpend = true → ((t.line h b.val).entry e).status = St.LINE_CANCELLED)
        ∧ (((s.line h b.val).entry e).cpend = false →
            ((t.line h b.val).entry e).busy = ((s.line h b.val).entry e).busy)))
  ∧ (∀ (h : Half) (b : Fin 64) (s : State), s.computes h = true → s.leAt h b.val 14 = true →
      isField 27 24 5 (s.leWord h b.val) = true →
    Gives (.finDecide b) s (fun t =>
      (t.line h b.val).decided = true ∧ (t.line h b.val).attempt = (s.line h b.val).attempt))
  ∧ (∀ (h : Half) (b : Fin 64) (s : State), s.computes h = true → s.leAt h b.val 14 = true →
      isField 27 24 8 (s.leWord h b.val) = true →
    Gives (.finOpen b) s (fun t =>
      (t.engine h b.val).assembly.map Assembly.bytes = some [] ∧ (t.engine h b.val).ovf = false))
  ∧ (∀ (h : Half) (b : Fin 64) (a : Assembly) (s : State), s.computes h = true → s.leAt h b.val 14 = true →
      isField 27 24 9 (s.leWord h b.val) = true → (s.engine h b.val).assembly = some a → a.lost = false →
      a.flags / 128 % 2 = 0 → s.flag (bayKey h b.val) Reg.LE_CFG_LOOP = true → (s.line h b.val).fifo.length < 8 →
    Gives (.finDeliver b) s (fun t =>
      (t.engine h b.val).assembly = none ∧ (t.engine h b.val).acc = false
        ∧ (t.line h b.val).fifo = (s.line h b.val).fifo
            ++ [⟨a.id, false, decide (a.flags / 512 % 2 = 1), false, a.bytes, a.ts⟩]
        ∧ t.flag (bayKey h b.val) Reg.LN_STAT_RXNEW = true))
  ∧ (∀ (h : Half) (b : Fin 64) (c : Instr) (code : Nat) (a : Assembly) (s : State),
      (c, code) ∈ [(.finBadcrc b, 10), (.finBadfmt b, 11)] →
      s.computes h = true → s.leAt h b.val 14 = true → isField 27 24 code (s.leWord h b.val) = true →
      (s.engine h b.val).assembly = some a → a.lost = false →
    Gives c s (fun t =>
      (t.engine h b.val).assembly = none ∧ t.flag (bayKey h b.val) Reg.LN_STAT_RXERR = true
        ∧ t.line h b.val = s.line h b.val))
  ∧ (∀ (h : Half) (b : Fin 64) (s : State), s.computes h = true → s.leAt h b.val 15 = true →
    Gives (.leHaltBreak b) s (fun t =>
      (t.engine h b.val).mode = .halted ∧ (t.engine h b.val).pc = ((s.engine h b.val).pc + 1) % 256))
  ∧ (∀ (h : Half) (b : Fin 64) (s : State), s.computes h = true → s.leBreaks h b.val = true →
    Gives (.leHaltBreak b) s (fun t =>
      (t.engine h b.val).mode = .halted ∧ (t.engine h b.val).pc = (s.engine h b.val).pc))
  ∧ (∀ (h : Half) (b : Fin 64) (code : Nat) (s : State), s.computes h = true → s.leExecutes h b.val = true →
      s.leFaultCode h b.val (s.leWord h b.val) = some code → (s.engine h b.val).pc < 256 →
    Gives (.leFault b) s (fun t =>
      (t.engine h b.val).mode = .fault ∧ (t.engine h b.val).attempt = false ∧ (t.engine h b.val).assembly = none
        ∧ (t.engine h b.val).sym = none ∧ t.flag (bayKey h b.val) Reg.LE_STAT_FAULTED = true
        ∧ t.get (bayKey h b.val) Reg.LE_FAULT_CODE = code
        ∧ t.get (bayKey h b.val) Reg.LE_FAULT_ADDR = (s.engine h b.val).pc))

/-- A write of 1 to RUN starts a stopped engine of an enabled line at address 0 of its active bank; a write of 0 stops it.
ABORT closes what is open and goes on at 0, counted. STEP executes one instruction from HALT, RESUME leaves HALT. A swap asked
of a stopped engine makes the other bank active at once; of a running one it is pending, and a second request is answered
ST_BUSY. A pending swap takes effect at a shift boundary, or with RESTART in IDLE, at address 0. A swap stalled for four
bit-times in HALT, off a shift boundary, sets SWAP_LATE once, and with FORCE aborts. A program word is committed to the bank that is not active, and a write to the
active bank of a running engine sets BAD. -/
def Obligations.EngineControlTakesEffect : Prop :=
  (∀ (h : Half) (m : Master) (b : Fin 64) (s : State), s.computes h = true → s.bayWriteOk m b.val = true →
      (s.engine h b.val).mode = .stopped → s.flag (bayKey h b.val) Reg.LN_CFG_EN = true →
    Gives (.leStart m b) s (fun t =>
      (t.engine h b.val).mode = .active ∧ (t.engine h b.val).pc = 0
        ∧ (t.engine h b.val).bank = (s.engine h b.val).bank ∧ (t.engine h b.val).links = []
        ∧ t.flag (bayKey h b.val) Reg.LE_CTL_RUN = true))
  ∧ (∀ (h : Half) (m : Master) (b : Fin 64) (s : State), s.computes h = true → s.bayWriteOk m b.val = true →
    Gives (.leStop m b) s (fun t =>
      (t.engine h b.val).mode = .stopped ∧ t.flag (bayKey h b.val) Reg.LE_CTL_RUN = false
        ∧ ((s.engine h b.val).mode ≠ .stopped →
            (t.engine h b.val).sym = none ∧ t.flag (bayKey h b.val) Reg.LE_STAT_ABORTED = true)))
  ∧ (∀ (h : Half) (m : Master) (b : Fin 64) (s : State), s.computes h = true → s.bayWriteOk m b.val = true →
      (s.engine h b.val).mode ≠ .stopped → s.reg (bayKey h b.val + Reg.LE_CNT_ABORT) ≠ 0xFFFFF →
    Gives (.leAbort m b) s (fun t =>
      (t.engine h b.val).mode = .active ∧ (t.engine h b.val).pc = 0 ∧ (t.engine h b.val).sym = none
        ∧ (t.engine h b.val).attempt = false ∧ (t.engine h b.val).assembly = none
        ∧ (t.engine h b.val).swap = none ∧ t.flag (bayKey h b.val) Reg.LE_STAT_ABORTED = true
        ∧ (t.reg (bayKey h b.val + Reg.LE_CNT_ABORT)).toNat = (s.reg (bayKey h b.val + Reg.LE_CNT_ABORT)).toNat + 1))
  ∧ (∀ (h : Half) (m : Master) (b : Fin 64) (input : Bool) (s : State), s.computes h = true →
      s.bayWriteOk m b.val = true → (s.engine h b.val).mode = .halted → (s.engine h b.val).waiting = none →
      isField 31 28 6 (s.leWord h b.val) = true → leEncodingOk (s.leWord h b.val) = true → s.power.mode = .run →
    Gives (.leStep m b input) s (fun t =>
      (t.engine h b.val).mode = .halted ∧ (t.engine h b.val).pc = ((s.engine h b.val).pc + 1) % 256
        ∧ (t.engine h b.val).cell (wbits (s.leWord h b.val) 27 25) = BitVec.ofNat 16 (wbits (s.leWord h b.val) 15 0)))
  ∧ (∀ (h : Half) (m : Master) (b : Fin 64) (s : State), s.computes h = true → s.bayWriteOk m b.val = true →
      (s.engine h b.val).mode = .halted →
    Gives (.leResume m b) s (fun t =>
      (t.engine h b.val).mode ≠ .halted ∧ (t.engine h b.val).pc = (s.engine h b.val).pc))
  ∧ (∀ (h : Half) (m : Master) (b : Fin 64) (restart force : Bool) (s : State), s.computes h = true →
      s.bayWriteOk m b.val = true → (s.engine h b.val).swap = none →
    Gives (.leSwap m b restart force) s (fun t =>
      t.get (bayKey h b.val) Reg.LE_SWST_STATUS = St.OK
        ∧ (if (s.engine h b.val).mode = .stopped ∨ (s.engine h b.val).mode = .fault then
            (t.engine h b.val).bank = 1 - (s.engine h b.val).bank ∧ (t.engine h b.val).swap = none
          else (t.engine h b.val).bank = (s.engine h b.val).bank
            ∧ (t.engine h b.val).swap = some (restart, force))))
  ∧ (∀ (h : Half) (m : Master) (b : Fin 64) (restart force r f : Bool) (s : State), s.computes h = true →
      s.bayWriteOk m b.val = true → (s.engine h b.val).swap = some (r, f) →
    Gives (.leSwap m b restart force) s (fun t =>
      t.get (bayKey h b.val) Reg.LE_SWST_STATUS = St.BUSY ∧ (t.engine h b.val).swap = some (r, f || force)))
  ∧ (∀ (h : Half) (b : Fin 64) (f : Bool) (s : State), s.computes h = true → s.leShift h b.val = true →
      (s.engine h b.val).swap = some (false, f) →
    Gives (.leSwapTakeEffect b) s (fun t =>
      (t.engine h b.val).bank = 1 - (s.engine h b.val).bank ∧ (t.engine h b.val).swap = none
        ∧ (t.engine h b.val).pc = (s.engine h b.val).pc ∧ t.flag (bayKey h b.val) Reg.LE_STAT_SWAPPED = true))
  ∧ (∀ (h : Half) (b : Fin 64) (f : Bool) (s : State), s.computes h = true → (s.engine h b.val).mode = .idle →
      (s.engine h b.val).attempt = false → (s.engine h b.val).assembly = none →
      (s.engine h b.val).swap = some (true, f) →
    Gives (.leSwapTakeEffect b) s (fun t =>
      (t.engine h b.val).bank = 1 - (s.engine h b.val).bank ∧ (t.engine h b.val).pc = 0
        ∧ (t.engine h b.val).mode = .active))
  ∧ (∀ (h : Half) (b : Fin 64) (r f : Bool) (s : State), s.computes h = true → (s.engine h b.val).mode = .halted →
      (s.engine h b.val).swap = some (r, f) → 4 * s.leUnit h b.val ≤ (s.engine h b.val).stalled →
      (s.engine h b.val).swapLate = false → s.leShift h b.val = false →
    Gives (.leSwapLate b) s (fun t =>
      t.flag (bayKey h b.val) Reg.LE_STAT_SWAP_LATE = true
        ∧ (f = false → t.engine h b.val = { s.engine h b.val with swapLate := true })
        ∧ (f = true → t.flag (bayKey h b.val) Reg.LE_STAT_FORCED = true ∧ (t.engine h b.val).pc = 0
            ∧ (t.engine h b.val).bank = 1 - (s.engine h b.val).bank)))
  ∧ (∀ (h : Half) (m : Master) (b : Fin 64) (hi lo : Word) (s : State), s.computes h = true →
      s.bayWriteOk m b.val = true → (s.engine h b.val).swap = none →
      s.get (bayKey h b.val) Reg.LE_PA_BANK ≠ (s.engine h b.val).bank →
      tblFind s.staging (stageKey m (0x10000 + 0x400 * b.val + Reg.LE_PD_LO)) = some lo →
    Gives (.programWordWrite m b hi) s (fun t =>
      t.progWord h b.val (s.get (bayKey h b.val) Reg.LE_PA_BANK) (s.get (bayKey h b.val) Reg.LE_PA_ADDR) =
          BitVec.ofNat 32 (lo.toNat + 0x100000 * hi.toNat)
        ∧ t.get (bayKey h b.val) Reg.LE_PA_ADDR = (s.get (bayKey h b.val) Reg.LE_PA_ADDR + 1) % 256))
  ∧ (∀ (h : Half) (m : Master) (b : Fin 64) (hi : Word) (s : State), s.computes h = true →
      s.bayWriteOk m b.val = true → (s.engine h b.val).mode ≠ .stopped →
      s.get (bayKey h b.val) Reg.LE_PA_BANK = (s.engine h b.val).bank →
    Gives (.programWordWrite m b hi) s (fun t =>
      t.progs = s.progs
        ∧ t.flag (bayKey h b.val) Reg.LE_STAT_BAD = true))

/-- In every copy that runs: an instant advances every entry that is due by its period, and each takes its place in a POLL of
its node and priority, or its sample enters the input queue, waits for the inputs of earlier instants, or is recorded as lost.
A release of a line that takes transmissions loads entry P with the POLL's identifier and three retries. A POLL whose reply does
not come is sent again while REPOLL allows and no next instant of its entries has come, and is else dropped. An input for which
PIPE has a grain leaves the queue and is its entry's latest: its value with MISS 0, or its cause, which sets PL_STAT.MISS. An
IDENT request is pending, or refused with ST_BUSY while one is. A set of EN starts every entry at its next instant, and the
pipeline takes inputs while TREF runs; a clear discards the inputs that wait and every POLL but IDENT requests. -/
def Obligations.PollingTakesEffect : Prop :=
  (∀ (h : Half) (b : Fin 64) (e : Nat) (s : State), s.computes h = true → s.plTakes h b.val = true →
      e < 256 → (s.entryOf h b.val e).kind = 1 → (s.entryOf h b.val e).due ≤ s.timeNs → (s.pipe h b.val).polls = [] →
    Gives (.pollInstant b) s (fun t =>
      (t.entryOf h b.val e).due = (s.entryOf h b.val e).due + (s.entryOf h b.val e).period
        ∧ (∃ p ∈ (t.pipe h b.val).polls, p.phase = .waiting ∧ p.at_ = (s.entryOf h b.val e).due
            ∧ p.node = (s.entryOf h b.val e).src ∧ p.prio = (s.entryOf h b.val e).prio
            ∧ (e, (s.entryOf h b.val e).ch, (s.entryOf h b.val e).instantNo (s.entryOf h b.val e).due) ∈ p.parts)))
  ∧ (∀ (h : Half) (b : Fin 64) (e : Nat) (s : State), s.computes h = true → s.plTakes h b.val = true →
      e < 256 → 2 ≤ (s.entryOf h b.val e).kind → (s.entryOf h b.val e).due ≤ s.timeNs →
    Gives (.pollInstant b) s (fun t =>
      (t.entryOf h b.val e).due = (s.entryOf h b.val e).due + (s.entryOf h b.val e).period
        ∧ (∃ i ∈ (t.pipe h b.val).queue ++ (t.pipe h b.val).lost ++ (t.pipe h b.val).held, i.e = e ∧ i.at_ = (s.entryOf h b.val e).due)))
  ∧ (∀ (h : Half) (b : Fin 64) (p : Poll) (s : State), s.computes h = true → s.nextPoll h b.val = some p →
      (p.ident || s.plRuns h b.val) = true → (s.line h b.val).pEnd = none →
      s.flag (bayKey h b.val) Reg.LN_CFG_EN = true → s.get (padKey b.val) Reg.LN_ENV_TXMAX ≠ 0 →
      s.lineTripped h b.val = false →
    Gives (.pollRelease b) s (fun t =>
      ((t.line h b.val).entry entryP).busy = true ∧ ((t.line h b.val).entry entryP).id = p.id
        ∧ ((t.line h b.val).entry entryP).retry = 3 ∧ ((t.line h b.val).entry entryP).ar = true
        ∧ { p with phase := .released } ∈ (t.pipe h b.val).polls))
  ∧ (∀ (h : Half) (b : Fin 64) (p : Poll) (s : State), s.computes h = true → (s.pipe h b.val).polls = [p] →
      p.ident = false → p.phase = .awaiting → s.replyBy h b.val p < s.onTref → s.replyComing h b.val p = false →
    Gives (.replyWaitExpiry b) s (fun t =>
      (t.pipe h b.val).polls =
        (if p.tries < s.get (bayKey h b.val) Reg.PL_CFG_REPOLL
            ∧ (∀ q ∈ p.parts, s.timeNs < (s.entryOf h b.val q.1).instantAfter p.at_) then
          [{ p with phase := .waiting, tries := p.tries + 1 }]
         else [])))
  ∧ (∀ (h : Half) (b : Fin 64) (i : PInput) (rest : List PInput) (w : Word) (s : State), s.computes h = true →
      h = s.viewOf b.val → s.plTakes h b.val = true → (s.access h actPipe 0).isSome = true →
      (s.pipe h b.val).queue = i :: rest → (s.pipe h b.val).lost = [] → (s.pipe h b.val).held = [] → i.e < 256 →
      i.value = some w →
    Gives (.pipelineInput b) s (fun t =>
      (t.pipe h b.val).queue = rest ∧ (t.entryOf h b.val i.e).raw = w ∧ (t.entryOf h b.val i.e).miss = 0))
  ∧ (∀ (h : Half) (b : Fin 64) (i : PInput) (rest : List PInput) (s : State), s.computes h = true →
      h = s.viewOf b.val → s.plTakes h b.val = true → (s.access h actPipe 0).isSome = true →
      (s.pipe h b.val).queue = i :: rest → (s.pipe h b.val).lost = [] → (s.pipe h b.val).held = [] → i.e < 256 →
      i.value = none →
    Gives (.pipelineInput b) s (fun t =>
      (t.pipe h b.val).queue = rest ∧ (t.entryOf h b.val i.e).miss = i.miss
        ∧ t.flag (bayKey h b.val) Reg.PL_STAT_MISS = true))
  ∧ (∀ (h : Half) (m : Master) (b : Fin 64) (node : BitVec 7) (s : State), s.computes h = true →
      s.bayWriteOk m b.val = true →
    Gives (.identRequest m b node) s (fun t =>
      if s.flag (bayKey h b.val) Reg.PL_IDST_BUSY = true then
        t.pipe h b.val = s.pipe h b.val ∧ t.get (bayKey h b.val) Reg.PL_IDST_STATUS = St.BUSY
      else t.flag (bayKey h b.val) Reg.PL_IDST_BUSY = true ∧ t.flag (bayKey h b.val) Reg.PL_IDST_DONE = false
        ∧ t.get (bayKey h b.val) Reg.PL_IDST_NODE = node.toNat
        ∧ (∃ p ∈ (t.pipe h b.val).polls, p.ident = true ∧ p.node = node.toNat ∧ p.phase = .waiting)))
  ∧ (∀ (h : Half) (m : Master) (b : Fin 64) (s : State), s.computes h = true → s.bayWriteOk m b.val = true →
      s.plRuns h b.val = false →
    Gives (.pipelineEnable m b) s (fun t =>
      t.plRuns h b.val = true
        ∧ t.plTakes h b.val = (s.trefRuns && decide (s.power.mode = .run))
        ∧ (∀ e : Nat, e < 256 → (s.entryOf h b.val e).kind ≠ 0 →
            (t.entryOf h b.val e).due = (s.entryOf h b.val e).nextDue s.timeNs)))
  ∧ (∀ (h : Half) (m : Master) (b : Fin 64) (s : State), s.computes h = true → s.bayWriteOk m b.val = true →
      s.plRuns h b.val = true →
    Gives (.pipelineDisable m b) s (fun t =>
      t.plRuns h b.val = false ∧ t.plTakes h b.val = false
        ∧ (t.pipe h b.val).queue = [] ∧ (t.pipe h b.val).lost = [] ∧ (t.pipe h b.val).held = []
        ∧ (t.pipe h b.val).polls = (s.pipe h b.val).polls.filter Poll.ident))

/-- A write of word 2 commits the entry's words as the master staged them, takes them out of the staging and sets the entry's
next instant, or, where one is out of range, sets PL_STAT.BAD and leaves the entry; PL_TA advances. A commit of a custom set
takes the master's staging where no fade of it runs, and out of range sets PL_CSTAT.BAD. A write of RG_CFG stores it, and where
it changes TYPE, SRC or ENTRY returns the recogniser to idle; RG_ACK clears PEND of one
recogniser or of all. An idle recogniser becomes active after PERS true evaluations in a row and an active one idle after CLR
false ones, 0 acting as 1. -/
def Obligations.PipelineSettingsTakeEffect : Prop :=
  (∀ (h : Half) (m : Master) (b : Fin 64) (e : Nat) (value : Word) (x : PollEntry) (s : State), s.computes h = true →
      h = s.viewOf b.val → s.bayWriteOk m b.val = true → s.get (bayKey h b.val) Reg.PL_TA_WORD = 2 →
      e = s.get (bayKey h b.val) Reg.PL_TA_ENTRY →
      x = (s.entryOf h b.val e).staged (s.stagedTd m b.val e 0) (s.stagedTd m b.val e 1) value → x.refused = true →
    Gives (.pollEntryCommit m b value) s (fun t =>
      t.entryOf h b.val e = s.entryOf h b.val e ∧ t.flag (bayKey h b.val) Reg.PL_STAT_BAD = true
        ∧ t.get (bayKey h b.val) Reg.PL_TA_WORD = 3))
  ∧ (∀ (h : Half) (m : Master) (b : Fin 64) (e : Nat) (value : Word) (x : PollEntry) (s : State), s.computes h = true →
      h = s.viewOf b.val → s.bayWriteOk m b.val = true → s.get (bayKey h b.val) Reg.PL_TA_WORD = 2 →
      e = s.get (bayKey h b.val) Reg.PL_TA_ENTRY →
      x = (s.entryOf h b.val e).staged (s.stagedTd m b.val e 0) (s.stagedTd m b.val e 1) value → x.refused = false →
    Gives (.pollEntryCommit m b value) s (fun t =>
      (t.entryOf h b.val e).w0 = x.w0 ∧ (t.entryOf h b.val e).w1 = x.w1 ∧ (t.entryOf h b.val e).w2 = value
        ∧ (t.entryOf h b.val e).due = x.nextDue s.timeNs
        ∧ t.stagedTd m b.val e 0 = none ∧ t.stagedTd m b.val e 1 = none
        ∧ t.get (bayKey h b.val) Reg.PL_TA_WORD = 3))
  ∧ (∀ (h : Half) (m : Master) (b : Fin 64) (f : FirSet) (s : State), s.computes h = true →
      s.bayWriteOk m b.val = true → f = s.stagedSet m b.val 0 (s.pipe h b.val).set0.now →
      3 ≤ f.k → f.k ≤ 5 → 1 ≤ f.logD → f.logD ≤ 5 → s.setFading h b.val 0 = false →
    Gives (.customSetCommit m b 1) s (fun t =>
      (t.pipe h b.val).set0.now = f ∧ (t.pipe h b.val).set0.held = none
        ∧ (t.pipe h b.val).set1 = (s.pipe h b.val).set1))
  ∧ (∀ (h : Half) (m : Master) (b : Fin 64) (f : FirSet) (s : State), s.computes h = true → s.bayWriteOk m b.val = true →
      f = s.stagedSet m b.val 1 (s.pipe h b.val).set1.now → (f.k < 3 ∨ 5 < f.k ∨ f.logD < 1 ∨ 5 < f.logD) →
    Gives (.customSetCommit m b 2) s (fun t =>
      t.flag (bayKey h b.val) Reg.PL_CSTAT_BAD = true ∧ t.pipe h b.val = s.pipe h b.val))
  ∧ (∀ (h : Half) (m : Master) (b : Fin 64) (i : Nat) (value : Word) (s : State), s.computes h = true →
      s.bayWriteOk m b.val = true → i = s.get (bayKey h b.val) Reg.RG_SEL_SEL →
    Gives (.recogniserConfigWrite m b value) s (fun t =>
      (t.recog h b.val i).cfg = setBits value 10 8 0
        ∧ ((bits value 18 15 ≠ bits (s.recog h b.val i).cfg 18 15 ∨ bits value 7 0 ≠ bits (s.recog h b.val i).cfg 7 0) →
            (t.recog h b.val i).active = false ∧ (t.recog h b.val i).n = 0 ∧ (t.recog h b.val i).hist = []
              ∧ (t.recog h b.val i).ref = none)))
  ∧ (∀ (h : Half) (m : Master) (b : Fin 64) (value : Word) (i : Nat) (s : State), s.computes h = true →
      s.bayWriteOk m b.val = true → i < 64 → (bits value 6 6 = 1 ∨ bits value 5 0 = i) →
    Gives (.recogniserAck m b value) s (fun t =>
      t.recog h b.val i = { s.recog h b.val i with pend := false }))
  ∧ (∀ r : Recog, r.active = false → max 1 (bits r.pc 19 12) ≤ r.n + 1 →
      r.advance true = ({ r with active := true, n := 0 }, some true))
  ∧ (∀ r : Recog, r.active = true → max 1 (bits r.pc 11 4) ≤ r.n + 1 →
      r.advance false = ({ r with active := false, n := 0 }, some false))

/-- Where CODE has a grain: the item at the head of an engine's queue opens a bushel with its channel's next sequence number,
or joins the open one of the same settings where it fits and came in time; a record opens a bushel of records. A bushel whose
deadline has come, which a power failure, a takeover or a flush seals, is closed; where nothing of its channel waits in the
engine it is counted and passed to the seal queue of its half, with FLUSH set for a flush and a power failure; where the seal
queue is full it waits in its engine and SQFULL is set, and it passes when there is room. A commit of a channel's settings takes
word 0 as the master staged it and word 1, or sets CC_STAT.BAD. A write of CE_XCFG reaches both halves, from whose next watch
boundary it is in force, and is not stored where a field is out of range. -/
def Obligations.CodingTakesEffect : Prop :=
  (∀ (h : Half) (e : Fin 4) (i : Item) (rest : List Item) (s : State), s.computes h = true → s.power.mode = .run →
      (s.access h actCode 0).isSome = true → (s.coder h e.val).records = [] → (s.coder h e.val).waiting = [] → (s.coder h e.val).samples = i :: rest →
      engineOf i.chan = e.val → s.chanBlocked h i.chan = false → s.openBushel h i.chan = none →
    Gives (.codeItem h e) s (fun t =>
      (t.coder h e.val).samples = rest ∧ (t.chan i.chan).seq = ((s.chan i.chan).seq + 1) % 2 ^ 32
        ∧ (t.openBushel h i.chan).map (fun x => (x.chan, x.seq, x.records)) = some (i.chan, (s.chan i.chan).seq, false)))
  ∧ (∀ (h : Half) (e : Fin 4) (i : Item) (rest : List Item) (x : Bushel) (s : State), s.computes h = true →
      s.power.mode = .run → (s.access h actCode 0).isSome = true → (s.coder h e.val).records = [] →
      (s.coder h e.val).waiting = [] → (s.coder h e.val).samples = i :: rest → engineOf i.chan = e.val → s.openBushel h i.chan = some x → i.chg = false →
      x.set = i.set → (x.bare = true ∨ i.enter < x.deadline) → (x.addItem i).size ≤ 4096 →
    Gives (.codeItem h e) s (fun t =>
      (t.coder h e.val).samples = rest ∧ t.openBushel h i.chan = some (x.addItem i) ∧ t.chans = s.chans))
  ∧ (∀ (h : Half) (e : Fin 4) (r : Rec) (rest : List Rec) (s : State), s.computes h = true → s.power.mode = .run →
      (s.access h actCode 0).isSome = true → (s.coder h e.val).waiting = [] → (s.coder h e.val).records = r :: rest → engineOf r.chan = e.val →
      s.chanBlocked h r.chan = false → s.openBushel h r.chan = none →
    Gives (.codeRecord h e) s (fun t =>
      (t.coder h e.val).records = rest ∧ (t.chan r.chan).seq = ((s.chan r.chan).seq + 1) % 2 ^ 32
        ∧ (t.openBushel h r.chan).map (fun x => (x.chan, x.seq, x.records)) = some (r.chan, (s.chan r.chan).seq, true)))
  ∧ (∀ (h : Half) (c : Fin 16512) (cmd : Instr) (flush : Bool) (x : Bushel) (s : State),
      ((cmd = .sealDeadline h c ∧ flush = false ∧ x.deadline ≤ s.tref)
        ∨ (cmd = .pfailSeal h c ∧ flush = true ∧ s.power.pfail = true)
        ∨ (cmd = .takeoverSeal h c ∧ flush = false ∧ (s.chan c.val).gaps ≠ s.gapsOf c.val)) →
      s.openBushel h c.val = some x →
    Gives cmd s (fun t =>
      t.openBushel h c.val = none
        ∧ (s.nothingWaits h c.val = true → s.sealQueue h < 128 → s.reg (halfKey h + Reg.CE_CNT) ≠ 0xFFFFF →
          (t.codeHalf h).out = (s.codeHalf h).out ++ [{ x.finish with flush := flush, full := false, raws := 0 }]
            ∧ (t.reg (halfKey h + Reg.CE_CNT)).toNat = (s.reg (halfKey h + Reg.CE_CNT)).toNat + 1)))
  ∧ (∀ (h : Half) (c : Fin 16512) (x : Bushel) (s : State), s.power.pfail = true → s.openBushel h c.val = some x →
      s.nothingWaits h c.val = true → 128 ≤ s.sealQueue h →
    Gives (.pfailSeal h c) s (fun t =>
      t.openBushel h c.val = none ∧ (t.codeHalf h).out = (s.codeHalf h).out
        ∧ t.flag (halfKey h) Reg.CE_STAT_SQFULL = true
        ∧ (t.coder h (engineOf c.val)).waiting =
            (s.coder h (engineOf c.val)).waiting ++ [{ x.finish with flush := true, full := false, raws := 0 }]))
  ∧ (∀ (h : Half) (m : Master) (b : Fin 64) (entry : Fin 512) (x : Bushel) (s : State), s.bayWriteOk m b.val = true →
      s.holder b.val = h → entry.val < 256 → s.openBushel h (256 * b.val + entry.val) = some x →
    Gives (.channelFlush m b false entry) s (fun t =>
      t.openBushel h (256 * b.val + entry.val) = none
        ∧ (s.nothingWaits h (256 * b.val + entry.val) = true → s.sealQueue h < 128 →
          (t.codeHalf h).out = (s.codeHalf h).out ++ [{ x.finish with flush := true, full := false, raws := 0 }])))
  ∧ (∀ (h : Half) (m : Master) (b : Fin 64) (entry : Fin 512) (c : Nat) (s : State), s.bayWriteOk m b.val = true →
      s.holder b.val = h → (c / 256 = b.val ∨ c = 16384 + b.val) →
    Gives (.channelFlush m b true entry) s (fun t => t.openBushel h c = none))
  ∧ (∀ (h : Half) (m : Master) (b : Fin 64) (value : Word) (a : Nat) (w0 : Word) (s : State), s.computes h = true →
      h = s.viewOf b.val → s.bayWriteOk m b.val = true → s.get (bayKey h b.val) Reg.CC_A_WORD = 1 →
      a = s.get (bayKey h b.val) Reg.CC_A_ENTRY → a < 256 →
      w0 = (s.stagedCc m (256 * b.val + a)).getD (s.chanCfg h (256 * b.val + a)).w0 →
    Gives (.codingCommit m b value) s (fun t =>
      if bits w0 18 17 = 3 ∨ 11 ≤ bits w0 15 12 then
        t.chanCfg h (256 * b.val + a) = s.chanCfg h (256 * b.val + a)
          ∧ t.flag (bayKey h b.val) Reg.CC_STAT_BAD = true
      else t.chanCfg h (256 * b.val + a) = ⟨w0, inField 11 0 value.toNat⟩))
  ∧ (∀ (value : Word) (s : State), bits value 1 0 ≠ 3 → bits value 5 2 < 11 →
    Gives (.metrologyCodingWrite value) s (fun t =>
      t.regs = s.regs ∧ ∀ h : Half, (applyXcfg h t).reg (halfKey h + Reg.CE_XCFG) = inField 5 0 value.toNat))
  ∧ (∀ (value : Word) (s : State), (bits value 1 0 = 3 ∨ 11 ≤ bits value 5 2) →
    exec (.metrologyCodingWrite value) s = .next s)
  ∧ (∀ (h : Half) (e : Fin 4) (x : Bushel) (rest : List Bushel) (s : State), (s.coder h e.val).waiting = x :: rest →
      s.sealQueue h < 128 →
    Gives (.sealQueueWaitEnd h e) s (fun t =>
      (t.coder h e.val).waiting = rest ∧ (t.codeHalf h).out = (s.codeHalf h).out ++ [x]))

/-- For every open bushel, whatever its settings and history, and every value of the channel's range (s20 where SGN is 1, u20
where it is 0): the reconstruction of the value as the next one coded lies in the same range and within E of it; with E = 0 it
is the value itself. The number written for it is the zigzag image of its residual, from which the residual can be read
back. -/
def Obligations.CodedValuesStayWithinTheTolerance : Prop :=
  (∀ (x : Bushel) (v : Int),
      (x.set.sgn = true → -524288 ≤ v ∧ v ≤ 524287) → (x.set.sgn = false → 0 ≤ v ∧ v ≤ 1048575) →
      v - x.recon v ≤ x.set.e ∧ x.recon v - v ≤ x.set.e
        ∧ (x.set.e = 0 → x.recon v = v)
        ∧ (x.set.sgn = true → -524288 ≤ x.recon v ∧ x.recon v ≤ 524287)
        ∧ (x.set.sgn = false → 0 ≤ x.recon v ∧ x.recon v ≤ 1048575)
        ∧ (x.residual v = if zigzag (x.residual v) % 2 = 1 then -(((zigzag (x.residual v) + 1) / 2 : Nat) : Int)
            else ((zigzag (x.residual v) / 2 : Nat) : Int)))

/-- While the die runs: the end of a cycle books a feeder's total active energy to its import or export register and to that of
the tariff in force; a second advances MSEC, which saturates, brings a tariff and parameters that wait into force, with T0 where
TARIFF_SRC is 1, and writes the block to the copy that is not the newer one; a fall of VMET stops the die with its newer copy of
the present MSEC, or leaves both copies as they are; a start of a stopped die takes the newer valid copy and counts, and so does
a restart by the watchdog; a change of the seal is noted, and closing it discards staged values; self-tests that fail, XMET and
lost phases are marked, a passed self-test changes nothing; a display frame has 20 bytes; a page chosen over the link ends after
60 s; a pulse takes its energy. -/
def Obligations.TheMeterKeepsItsRegisters : Prop :=
  (∀ (b : Fin 2) (x : FeederCycle) (s : State), s.meter.on = true → s.meter.counts = true →
      (s.meter.param 0x40).testBit x.feeder.val = decide (b.val = 1) →
      s.meter.param 0x42 ≤ x.l1.irms → s.meter.param 0x42 ≤ x.l2.irms → s.meter.param 0x42 ≤ x.l3.irms →
    Gives (.metrologyCycleEnd b [x]) s (fun t =>
      tblGet t.meter.energy 0 (24 * x.feeder.val + 3) =
          tblGet s.meter.energy 0 (24 * x.feeder.val + 3) + (x.l1.p + x.l2.p + x.l3.p).toNat
        ∧ tblGet t.meter.energy 0 (24 * x.feeder.val + 7) =
            tblGet s.meter.energy 0 (24 * x.feeder.val + 7) + (-(x.l1.p + x.l2.p + x.l3.p)).toNat
        ∧ tblGet t.meter.energy 0 (192 + 8 * x.feeder.val + 2 * s.meter.tariff) =
            tblGet s.meter.energy 0 (192 + 8 * x.feeder.val + 2 * s.meter.tariff) + (x.l1.p + x.l2.p + x.l3.p).toNat
        ∧ tblGet t.meter.energy 0 (192 + 8 * x.feeder.val + 2 * s.meter.tariff + 1) =
            tblGet s.meter.energy 0 (192 + 8 * x.feeder.val + 2 * s.meter.tariff + 1)
              + (-(x.l1.p + x.l2.p + x.l3.p)).toNat
        ∧ t = s.setMeter t.meter))
  ∧ (∀ (meas : List MetMeas) (s : State), s.meter.on = true →
    Gives (.msecSecond meas) s (fun t =>
      t.meter.msec = min (2 ^ 32 - 1) (s.meter.msec + 1)
        ∧ t.meter.params = s.meter.committed.getD s.meter.params ∧ t.meter.committed = none
        ∧ t.meter.tariff = (if t.meter.param 0x43 = 1 then 0 else s.meter.nextTariff.getD s.meter.tariff)
        ∧ t.meter.nextTariff = none ∧ t.meter.energy = s.meter.energy
        ∧ (if (newerCopy s.meter.copyA s.meter.copyB).map Prod.fst = some 0 then
              t.meter.copyA = s.meter.copyA ∧ t.meter.copyB.map MetCopy.msec = some t.meter.msec
            else t.meter.copyB = s.meter.copyB ∧ t.meter.copyA.map MetCopy.msec = some t.meter.msec)))
  ∧ (∀ (feeders : List FeederCycle) (s : State), s.meter.on = true →
    Gives (.vmetFall feeders true) s (fun t =>
      t.meter.on = false ∧ t.meter.saved = true
        ∧ (newerCopy t.meter.copyA t.meter.copyB).map (fun x => x.2.msec) = some s.meter.msec))
  ∧ (∀ (feeders : List FeederCycle) (s : State), s.meter.on = true →
    Gives (.vmetFall feeders false) s (fun t =>
      t.meter.on = false ∧ t.meter.saved = false ∧ t.meter.copyA = s.meter.copyA ∧ t.meter.copyB = s.meter.copyB))
  ∧ (∀ (tests : MetTests) (i : Nat) (x : MetCopy) (s : State), s.meter.on = false →
      newerCopy (if tests.copyA = true then s.meter.copyA else none) (if tests.copyB = true then s.meter.copyB else none) =
        some (i, x) →
    Gives (.metrologyStart tests) s (fun t =>
      t.meter.on = true ∧ t.meter.msec = x.msec
        ∧ t.meter.tariff = (if t.meter.param 0x43 = 1 then 0 else x.tariff)
        ∧ t.meter.energy = x.energy.map (fun (e : Nat × Nat) => (e.1, e.2 * 1000000))
        ∧ t.meter.starts = (s.meter.starts + 1) % 65536 ∧ t.meter.streams = []))
  ∧ (∀ (tests : MetTests) (s : State), s.meter.on = true →
    Gives (.watchdogExpiry tests) s (fun t =>
      t.meter.on = true ∧ t.meter.starts = (s.meter.starts + 1) % 65536 ∧ t.meter.streams = []
        ∧ t.meter.unsealed = s.meter.unsealed
        ∧ t.meter.msec = (match newerCopy (if tests.copyA = true then s.meter.copyA else none)
            (if tests.copyB = true then s.meter.copyB else none) with | some (_, x) => x.msec | none => 0)))
  ∧ (∀ (o : Bool) (s : State), s.meter.on = true → s.meter.unsealed ≠ o →
    Gives (.sealChange o) s (fun t =>
      t.meter.unsealed = o ∧ t.meter.params = s.meter.params ∧ (o = false → t.meter.staged = [])))
  ∧ (∀ (c : Instr) (k : Nat) (s : State), (c, k) ∈ [(.selftestRom false, 1), (.selftestLrp false, 2), (.xmetFail, 4)] →
      s.meter.on = true →
    Gives c s (fun t => k ∈ t.meter.fails ∧ t.meter.energy = s.meter.energy))
  ∧ (∀ (c : Instr) (s : State), c ∈ [.selftestRom true, .selftestLrp true] → exec c s = .next s)
  ∧ (∀ s : State, s.meter.on = true → Gives .xmetReturn s (fun t => 4 ∉ t.meter.fails))
  ∧ (∀ (c : Fin 6) (s : State), s.meter.on = true →
    Gives (.phaseLoss c) s (fun t => c.val ∈ t.meter.lostPhases ∧ t.meter.energy = s.meter.energy))
  ∧ (∀ (c : Fin 6) (s : State), s.meter.on = true →
    Gives (.phaseReturn c) s (fun t => c.val ∉ t.meter.lostPhases ∧ t.meter.energy = s.meter.energy))
  ∧ (∀ s : State, s.meter.on = true →
    Gives .displayFrame s (fun t => t.meter.display.length = 20 ∧ t.meter.energy = s.meter.energy))
  ∧ (∀ (p u : Nat) (s : State), s.meter.on = true → s.meter.page = some (p, u) → u + 60 ≤ s.meter.msec →
    exec .displayTimeout s = .next (s.setMeter { s.meter with page := none }))
  ∧ (∀ s : State, s.meter.on = true → 10 ^ 12 ≤ s.meter.pulseP →
    exec (.energyPulse false) s =
      .next (s.setMeter { s.meter with pulseP := s.meter.pulseP - 10 ^ 12, pulsesP := s.meter.pulsesP + 1 }))
  ∧ (∀ s : State, s.meter.on = true → 10 ^ 12 ≤ s.meter.pulseQ →
    exec (.energyPulse true) s =
      .next (s.setMeter { s.meter with pulseQ := s.meter.pulseQ - 10 ^ 12, pulsesQ := s.meter.pulsesQ + 1 }))

/-- A frame with a bad CRC gets no answer and changes nothing. GET_ID, GET_PARAM, GET_LOG and GET_ENERGY answer with status 0
and change nothing else. SET_PARAM of an unsealed die stages a value in range; a sealed die answers SEALED and keeps its
staging. COMMIT of an unsealed die whose log has room takes the staged values for the next second and advances the change
counter by 1 where one of them differs; it clears the staging. DISCARD clears the staging. A frame of the wrong length is
answered BAD_FRAME. -/
def Obligations.TheCalibrationPortAnswers : Prop :=
  (∀ (p : List Byte) (c : Instr) (s : State), p.length ≤ 64 →
      c ∈ [.getId p false, .getParam p false, .getLog p false, .getEnergy p false, .setParam p false,
        .commitParams p false, .discardParams p false] →
    exec c s = .next s)
  ∧ (∀ s : State, s.meter.on = true →
    exec (.getId [] true) s = .next (s.setMeter { s.meter with answer := some (1, 0, s.meter.ident) }))
  ∧ (∀ (id : Byte) (s : State), s.meter.on = true → id.toNat ∈ paramIds → tblFind s.meter.staged id.toNat = none →
    exec (.getParam [id] true) s =
      .next (s.setMeter { s.meter with answer := some (2, 0, bigEndian 4 (s.meter.param id.toNat)) }))
  ∧ (∀ (i j : Byte) (e : LogEntry) (s : State), s.meter.on = true →
      tblFind s.meter.log (256 * i.toNat + j.toNat) = some e →
    exec (.getLog [i, j] true) s = .next (s.setMeter { s.meter with answer := some (3, 0, entryBytes e) }))
  ∧ (∀ (f : Byte) (s : State), s.meter.on = true → f.toNat < 8 →
    exec (.getEnergy [f] true) s = .next (s.setMeter { s.meter with answer := some (4, 0, s.meter.feederRegs f.toNat) }))
  ∧ (∀ (id a b c d : Byte) (v : Nat) (s : State), s.meter.on = true → s.meter.unsealed = true → id.toNat ∈ paramIds →
      v = ((a.toNat * 256 + b.toNat) * 256 + c.toNat) * 256 + d.toNat → paramOk id.toNat v = true →
    Gives (.setParam [id, a, b, c, d] true) s (fun t =>
      tblFind t.meter.staged id.toNat = some v ∧ t.meter.params = s.meter.params ∧ t.meter.chg = s.meter.chg
        ∧ t.meter.answer = some (0x10, 0, bigEndian 4 v)))
  ∧ (∀ (p : List Byte) (c : Instr) (k : Nat) (s : State), s.meter.on = true → s.meter.unsealed = false →
      (c, k, p.length) ∈ [(.setParam p true, 0x10, 5), (.commitParams p true, 0x11, 0), (.discardParams p true, 0x12, 0)] →
    exec c s = .next (s.setMeter { s.meter with answer := some (k, 1, []) }))
  ∧ (∀ (id v : Nat) (s : State), s.meter.on = true → s.meter.unsealed = true → s.meter.logFull = false →
      s.meter.chg ≠ 0xFFFFFFFF → s.meter.committed = none → s.meter.staged = [(id, v)] → s.meter.param id ≠ v →
    Gives (.commitParams [] true) s (fun t =>
      t.meter.chg = s.meter.chg + 1 ∧ t.meter.staged = [] ∧ t.meter.params = s.meter.params
        ∧ t.meter.committed.map (fun x => paramIn x id) = some v))
  ∧ (∀ s : State, s.meter.on = true → s.meter.unsealed = true →
    exec (.discardParams [] true) s = .next (s.setMeter { s.meter with staged := [], answer := some (0x12, 0, []) }))
  ∧ (∀ (p : List Byte) (s : State), s.meter.on = true → p.length ≤ 64 → p ≠ [] →
    exec (.getId p true) s = .next (s.setMeter { s.meter with answer := some (1, 5, []) }))

/-- A STATUS frame carries what the die holds. A SAMPLES frame and a RECORD frame take the next sequence number; in RUN an
acknowledgement for which MET has a grain frees the frames up to the last one accepted; a resend begins with the oldest. The
receiver in RUN accepts a frame with a good CRC whose number follows the last one and for which the engines have room. A good
STATUS frame sets UP and ends the command whose serial it reports; UP falls after 5 ms without one. A write of MET_CMD sends a listed command with the next serial, or is refused with ST_BUSY while one
waits; a command without a result ends with ST_MET_NOLINK. The die accepts a good frame of each of the six commands with its
parameters in range, with REASON 0, and does what it asks; a frame with a bad CRC is counted. -/
def Obligations.TheMetrologyLinkCarries : Prop :=
  (∀ (ticks : BitVec 48) (s : State), s.meter.on = true →
    Gives (.statusFrame ticks) s (fun t =>
      t.meter.status.map (fun x => (x.ticks, x.msec, x.tariff, x.starts)) =
          some (ticks.toNat, s.meter.msec, s.meter.tariff, s.meter.starts) ∧ t.meter.unacked = s.meter.unacked))
  ∧ (∀ (input : Fin 30) (tick : BitVec 48) (values : List Word) (s : State), s.meter.on = true → 1 ≤ values.length →
      values.length ≤ 96 → tblGet s.meter.streams 0 input.val ≠ 0 → 1 ∉ s.meter.fails →
    Gives (.samplesFrame input tick values) s (fun t =>
      t.meter.seq = (s.meter.seq + 1) % 65536 ∧ t.meter.unacked.length = s.meter.unacked.length + 1))
  ∧ (∀ (body : List Byte) (r : MetRec) (rest : List MetRec) (s : State), s.meter.on = true → s.meter.dropped = (0, 0) →
      s.meter.reqs = [] → s.meter.due = r :: rest →
    Gives (.recordFrame body) s (fun t =>
      t.meter.due = rest ∧ t.meter.unacked = s.meter.unacked ++ [⟨(s.meter.seq + 1) % 65536, .record r⟩]))
  ∧ (∀ s : State, s.meter.on = true → s.meter.unacked ≠ [] →
    Gives .linkResend s (fun t => t.meter.arrived = 0 ∧ t.meter.unacked = s.meter.unacked))
  ∧ (∀ s : State, s.meter.on = true → s.flag oneKey Reg.MET_CTL_RX_EN = true → s.power.mode = .run →
      s.computes (s.runner blkMet) = true → (s.access (s.runner blkMet) actMet 0).isSome = true →
    Gives .acknowledgementFrame s (fun t =>
      t.meter.unacked =
        s.meter.unacked.dropWhile (fun f => decide ((s.metLink.accepted + 65536 - f.seq) % 65536 < 32768))))
  ∧ (∀ (f : MetFrame) (s : State), s.meter.on = true → s.meter.unacked[s.meter.arrived]? = some f →
      s.flag oneKey Reg.MET_CTL_RX_EN = true → s.power.mode = .run → f.seq = (s.metLink.accepted + 1) % 65536 →
      s.frameFits f.body = true →
    Gives (.metrologyFrameAccept true) s (fun t =>
      t.metLink.accepted = f.seq ∧ t.meter.arrived = s.meter.arrived + 1))
  ∧ (∀ (x : MetStatus) (s : State), s.meter.status = some x → s.power.mode = .run →
      s.flag oneKey Reg.MET_CST_BUSY = true →
      x.result = some (s.get oneKey Reg.MET_CST_SER, 0) →
    Gives (.metrologyStatusReceived true) s (fun t =>
      t.flag oneKey Reg.MET_STAT_UP = true ∧ t.metLink.last = some x ∧ t.meter.status = none
        ∧ t.flag oneKey Reg.MET_CST_BUSY = false ∧ t.get oneKey Reg.MET_CST_STATUS = St.OK))
  ∧ (∀ s : State, s.metLink.lastAt + 1000000 ≤ s.tref →
    exec .metrologyLinkDown s = .next (s.put oneKey Reg.MET_STAT_UP 0))
  ∧ (∀ (m : Master) (w a : Word) (s : State), s.blockWriteOk m blkMet = true → s.flag oneKey Reg.MET_CST_BUSY = false →
      s.staged m Reg.MET_CMD0 (s.reg (oneKey + Reg.MET_CMD0)) = a → metCmdListed (bits a 15 8 % 16) = true →
      s.meter.on = true →
    Gives (.metCommandSend m w) s (fun t =>
      t.flag oneKey Reg.MET_CST_BUSY = true
        ∧ t.get oneKey Reg.MET_CST_SER = (s.get oneKey Reg.MET_CST_SER + 1) % 16
        ∧ t.meter.command.map (fun b => (b.length, payloadField b 0 1)) =
            some (8, 16 * ((s.get oneKey Reg.MET_CST_SER + 1) % 16) + bits a 15 8 % 16)))
  ∧ (∀ (m : Master) (w : Word) (s : State), s.blockWriteOk m blkMet = true → s.flag oneKey Reg.MET_CST_BUSY = true →
    Gives (.metCommandSend m w) s (fun t => t.meter = s.meter ∧ t.get oneKey Reg.MET_CST_STATUS = St.BUSY))
  ∧ (∀ s : State, s.flag oneKey Reg.MET_CST_BUSY = true → s.metLink.sentAt + 1000000 ≤ s.tref →
    Gives .metNolinkTimeout s (fun t =>
      t.get oneKey Reg.MET_CST_STATUS = St.MET_NOLINK ∧ t.flag oneKey Reg.MET_CST_BUSY = false
        ∧ t.flag oneKey Reg.MET_CST_DONE = true))
  ∧ (∀ (c : Instr) (k : Nat) (b : List Byte) (s : State),
      (c, k) ∈ [(.metRead .badCrc, 2), (.metReport .badCrc, 3), (.metStream .badCrc, 4), (.metLogread .badCrc, 5),
        (.metDisplay .badCrc, 8), (.metTariff .badCrc, 9)] →
      s.meter.on = true → s.meter.command = some b → payloadField b 0 1 % 16 = k →
    exec c s = .next (s.setMeter { s.meter with command := none, rej := s.meter.rej + 1 }))
  ∧ (∀ (b : List Byte) (s : State), s.meter.on = true → s.meter.command = some b → payloadField b 0 1 % 16 = 2 →
      zeroFrom b 5 = true → 0x20 ≤ payloadField b 1 1 → payloadField b 1 1 ≤ 0x26 →
      payloadField b 2 1 < sourcesOf (payloadField b 1 1) → s.meter.reqs.length < 8 →
    Gives (.metRead .good) s (fun t =>
      t.meter.result = some (payloadField b 0 1 / 16, 0) ∧ t.meter.reqs =
        s.meter.reqs ++ [.read (payloadField b 1 1) (payloadField b 2 1) (payloadField b 3 2)]))
  ∧ (∀ (b : List Byte) (s : State), s.meter.on = true → s.meter.command = some b → payloadField b 0 1 % 16 = 3 →
      zeroFrom b 3 = true → 0x20 ≤ payloadField b 1 1 → payloadField b 1 1 ≤ 0x24 → payloadField b 2 1 ≤ 9 →
    Gives (.metReport .good) s (fun t =>
      t.meter.result = some (payloadField b 0 1 / 16, 0)
        ∧ t.meter.nextIntervals = s.meter.nextIntervals ++ [(payloadField b 1 1, payloadField b 2 1)]))
  ∧ (∀ (b : List Byte) (s : State), s.meter.on = true → s.meter.command = some b → payloadField b 0 1 % 16 = 4 →
      zeroFrom b 3 = true → payloadField b 1 1 < 30 → payloadField b 2 1 ≤ 5 →
      streamTotal (tblSet s.meter.streams 0 (payloadField b 1 1) (payloadField b 2 1)) ≤ 256 →
    Gives (.metStream .good) s (fun t =>
      t.meter.result = some (payloadField b 0 1 / 16, 0)
        ∧ tblGet t.meter.streams 0 (payloadField b 1 1) = payloadField b 2 1))
  ∧ (∀ (b : List Byte) (s : State), s.meter.on = true → s.meter.command = some b → payloadField b 0 1 % 16 = 5 →
      zeroFrom b 5 = true → payloadField b 1 2 ≤ 1023 → 1 ≤ payloadField b 3 2 → payloadField b 3 2 ≤ 1024 →
      s.meter.reqs.length < 8 →
    Gives (.metLogread .good) s (fun t =>
      t.meter.result = some (payloadField b 0 1 / 16, 0)
        ∧ t.meter.reqs = s.meter.reqs ++ [.log (payloadField b 1 2) (payloadField b 3 2)]))
  ∧ (∀ (b : List Byte) (s : State), s.meter.on = true → s.meter.command = some b → payloadField b 0 1 % 16 = 8 →
      zeroFrom b 2 = true → payloadField b 1 1 < 0x40 →
    Gives (.metDisplay .good) s (fun t =>
      t.meter.result = some (payloadField b 0 1 / 16, 0) ∧ t.meter.page = some (payloadField b 1 1, s.meter.msec)))
  ∧ (∀ (b : List Byte) (s : State), s.meter.on = true → s.meter.command = some b → payloadField b 0 1 % 16 = 9 →
      zeroFrom b 2 = true → payloadField b 1 1 ≤ 3 → s.meter.param 0x43 ≠ 1 →
    Gives (.metTariff .good) s (fun t =>
      t.meter.result = some (payloadField b 0 1 / 16, 0) ∧ t.meter.nextTariff = some (payloadField b 1 1)
        ∧ t.meter.tariff = s.meter.tariff))

/-- A half's oldest sealed bushel takes its place in the ring where its slot is erased and the landing ring has room: HEAD
stands after its last byte. Where the slot holds an earlier lap and OVERWRITE is 0, AR_STAT.FULL is set and nothing is
committed. A page is programmed once HEAD has left it and ARCH_W has a grain; done, PROG advances by a page and SAFE follows
where no pages are paired. A failed page or slot
retires its block: a spare takes the slot, or with none left the slot is dead and NOSPARE is set. Erasing the slot ahead moves
TAIL past its old data. A refresh copies a slot to a spare, which then takes the slot. -/
def Obligations.TheRingIsCommittedProgrammedAndErased : Prop :=
  (∀ (h : Half) (x : Bushel) (rest : List Bushel) (bytes : List Byte) (s : State), s.arcCommits = true →
      s.power.mode = .run → (s.codeHalf h).out = x :: rest → x.tko = false → bytes = x.bytes none →
      (s.archive.landed.filter (fun l => decide (l.half = some h) && decide (s.archive.prog ≤ l.pos))).length < 128 →
      s.archive.fits bytes.length = true →
    Gives (.bushelCommit h) s (fun t =>
      t.archive = { s.archive with
          head := s.archive.place bytes.length + bytes.length
          landed := s.archive.landed ++ [⟨s.archive.place bytes.length, some h, s.timeNs, bytes⟩] }
        ∧ (t.codeHalf h).out = rest ∧ (t.chan x.chan).reached = x.last ∧ t.regs = s.regs))
  ∧ (∀ (h : Half) (x : Bushel) (rest : List Bushel) (s : State), s.arcCommits = true → s.power.mode = .run →
      (s.codeHalf h).out = x :: rest → x.tko = false → s.flag oneKey Reg.AR_CTL_OVERWRITE = false →
      (s.archive.landed.filter (fun l => decide (l.half = some h) && decide (s.archive.prog ≤ l.pos))).length < 128 →
      s.archive.erased < s.archive.place (x.bytes none).length + (x.bytes none).length →
    Gives (.bushelCommit h) s (fun t =>
      t.archive = s.archive ∧ t.codeHalf h = s.codeHalf h ∧ t.flag oneKey Reg.AR_STAT_FULL = true))
  ∧ (∀ s : State, s.arcReady = true → s.power.pfail = false → s.nandFree = true → s.archive.programming = none →
      0 < s.archive.page → s.archive.skip s.archive.prog + s.archive.page ≤ s.archive.head →
      (s.access (s.runner blkArchive) actArchW 2).isSome = true →
    Gives .pageProgram s (fun t => t.archive =
      { s.archive with
        prog := s.archive.skip s.archive.prog, programming := some (s.archive.skip s.archive.prog) }))
  ∧ (∀ (p : Nat) (s : State), s.archive.programming = some p → s.flag oneKey Reg.AR_PAIR_MODE = false →
    exec (.pageProgramDone true) s = .next (s.setArchive
      { s.archive with
        programming := none, prog := p + s.archive.page, safe := max s.archive.safe (p + s.archive.page) }))
  ∧ (∀ (p spare : Nat) (rest : List Nat) (s : State), s.archive.programming = some p →
      s.archive.spares = spare :: rest →
    Gives (.pageProgramDone false) s (fun t =>
      t.archive.map = listSet s.archive.map (s.archive.slotAt p) spare ∧ t.archive.spares = rest
        ∧ t.archive.programming = none ∧ t.archive.landed = s.archive.landed ∧ t.archive.head = s.archive.head
        ∧ (t.reg (oneKey + Reg.AR_CNT)).toNat = min 0xFFFFF ((s.reg (oneKey + Reg.AR_CNT)).toNat + 1)))
  ∧ (∀ (p : Nat) (s : State), s.archive.programming = some p → s.archive.spares = [] →
    Gives (.pageProgramDone false) s (fun t =>
      s.archive.slotAt p ∈ t.archive.dead ∧ t.flag oneKey Reg.AR_STAT_NOSPARE = true ∧ t.archive.tail = s.archive.tail
        ∧ (∀ l ∈ t.archive.landed, s.archive.slotAt l.pos ≠ s.archive.slotAt p)))
  ∧ (∀ (p : Nat) (s : State), s.arcReady = true → s.power.pfail = false → s.nandFree = true →
      s.archive.erasing = none → 0 < s.archive.cap → p = s.archive.skip s.archive.erased →
      p < s.archive.head / s.archive.slotBytes * s.archive.slotBytes + 2 * s.archive.slotBytes →
      (s.flag oneKey Reg.AR_CTL_OVERWRITE = true ∨ s.archive.holdsOld p = false) →
    Gives .slotErase s (fun t =>
      t.archive.erasing = some p ∧ t.archive.tail = max s.archive.tail (p + s.archive.slotBytes - s.archive.cap)
        ∧ t.archive.head = s.archive.head ∧ t.archive.tail ≤ t.archive.rptr
        ∧ (∀ l ∈ t.archive.landed, t.archive.tail ≤ l.pos)))
  ∧ (∀ (p : Nat) (s : State), s.archive.erasing = some p →
    exec (.slotEraseDone true) s = .next (s.setArchive
      { s.archive with erasing := none, erased := max s.archive.erased (p + s.archive.slotBytes) }))
  ∧ (∀ (p spare : Nat) (rest : List Nat) (s : State), s.archive.erasing = some p → s.archive.spares = spare :: rest →
    Gives (.slotEraseDone false) s (fun t =>
      t.archive.map = listSet s.archive.map (s.archive.slotAt p) spare ∧ t.archive.spares = rest
        ∧ t.archive.erasing = none))
  ∧ (∀ (p : Nat) (s : State), s.archive.erasing = some p → s.archive.spares = [] →
    Gives (.slotEraseDone false) s (fun t =>
      s.archive.slotAt p ∈ t.archive.dead ∧ t.flag oneKey Reg.AR_STAT_NOSPARE = true ∧ t.archive.erasing = none))
  ∧ (∀ (slot spare : Nat) (bad : Bool) (more : List (Nat × Bool)) (rest : List Nat) (s : State), s.arcReady = true →
      s.power.pfail = false → s.nandFree = true → s.archive.copying = none → s.archive.refresh = (slot, bad) :: more →
      s.archive.spares = spare :: rest →
    exec .slotRefresh s = .next (s.setArchive
      { s.archive with refresh := more, spares := rest, copying := some (slot, bad, spare) }))
  ∧ (∀ (slot spare : Nat) (s : State), s.archive.copying = some (slot, false, spare) →
    Gives .refreshSwitch s (fun t =>
      t.archive = { s.archive with
          copying := none, map := listSet s.archive.map slot spare
          spares := s.archive.spares ++ [s.archive.map.getD slot 0] }
        ∧ (t.reg (oneKey + Reg.AR_CNT + 2)).toNat = min 0xFFFFF ((s.reg (oneKey + Reg.AR_CNT + 2)).toNat + 1)))

/-- Enabling reads the parameter pages: a NAND that is not accepted sets GEOM_BAD, an unformatted archive NOFMT, a formatted one
starts recovery, whose end sets READY; disabling clears EN and READY and ends every request. The format key sets FORMAT while
EN is 0; the format builds the ring from the good blocks. A request is taken while none runs, and refused with ST_BUSY or
ST_ARC_NOTREADY; a READ served ends with ST_OK and its data in memory, or with ST_ARC_RANGE. The next committed bushel
goes to the partner, again after 50 ms without an acknowledgement; its acknowledgement moves RPTR to the first bushel not
acknowledged, a refusal stalls replication. A replica takes its place in the ring and gives its UID an origin index; a write of
AR_ORIG_FREE frees an index. -/
def Obligations.TheArchiveStartsReadsAndReplicates : Prop :=
  (∀ (m : Master) (chips : List NandChip) (torn : Nat) (s : State), s.blockWriteOk m blkArchive = true →
      s.flag oneKey Reg.AR_STAT_READY = false → s.flag oneKey Reg.AR_STAT_RECOVER = false →
      s.flag oneKey Reg.AR_STAT_NOFMT = false →
    Gives (.archiveEnable m chips torn) s (fun t =>
      t.flag oneKey Reg.AR_CTL_EN = true ∧ t.archive = s.archive
        ∧ (if nandOk chips = false then t.flag oneKey Reg.AR_STAT_GEOM_BAD = true
          else if s.archive.formatted = true then t.flag oneKey Reg.AR_STAT_RECOVER = true
          else t.flag oneKey Reg.AR_STAT_NOFMT = true)))
  ∧ (∀ s : State, s.arcEn = true → s.flag oneKey Reg.AR_STAT_RECOVER = true → s.archive.programming = none →
    Gives (.archiveRecoveryDone none) s (fun t =>
      t.flag oneKey Reg.AR_STAT_READY = true ∧ t.flag oneKey Reg.AR_STAT_RECOVER = false ∧ t.archive = s.archive))
  ∧ (∀ (m : Master) (s : State), s.blockWriteOk m blkArchive = true → s.arcEn = true →
    Gives (.archiveDisable m) s (fun t =>
      t.arcEn = false ∧ t.flag oneKey Reg.AR_STAT_READY = false ∧ t.archive.requests = []
        ∧ t.archive.landed = s.archive.landed ∧ t.archive.head = s.archive.head))
  ∧ (∀ (m : Master) (key : Word) (s : State), s.blockWriteOk m blkArchive = true → s.arcEn = false →
    Gives (.archiveFormat m key) s (fun t =>
      if key = 0x0A4C5#20 then t = s.put oneKey Reg.AR_STAT_FORMAT 1 else t = s))
  ∧ (∀ (chips : List NandChip) (s : State), s.flag oneKey Reg.AR_STAT_FORMAT = true → nandOk chips = true →
    Gives (.archiveFormatDone chips) s (fun t =>
      t.archive.formatted = true ∧ t.archive.head = 0 ∧ t.archive.tail = 0 ∧ t.archive.landed = []
        ∧ t.archive.map ++ t.archive.spares = goodBlocks chips ∧ t.flag oneKey Reg.AR_STAT_FORMAT = false
        ∧ t.wide (oneKey + Reg.AR_CAP) 2 = t.archive.cap % 2 ^ 40))
  ∧ (∀ (m : Master) (parm : BitVec 15) (c : Instr) (op arg : Nat) (s : State), s.blockWriteOk m blkArchive = true →
      (c, op, arg) ∈ [(.archiveRead m parm, 0, s.wide (oneKey + Reg.AR_REQ_ARG) 2),
        (.archiveFind m parm, 1, (s.wide (oneKey + Reg.AR_REQ_ARG) 2
          + 2 ^ 40 * (s.reg (oneKey + Reg.AR_REQ_TIME)).toNat) % 2 ^ 60)] →
      (op = 0 → parm.toNat ≤ 4095) → (s.reg (oneKey + Reg.AR_REQ_ORIGIN)).toNat ≤ 4 →
    Gives c s (fun t =>
      if s.flag oneKey Reg.AR_REQ_ST_BUSY = true then
        t.archive = s.archive ∧ t.get oneKey Reg.AR_REQ_ST_STATUS = St.BUSY
      else if s.arcCommits = false then
        t.archive = s.archive ∧ t.get oneKey Reg.AR_REQ_ST_STATUS = St.ARC_NOTREADY
          ∧ t.flag oneKey Reg.AR_REQ_ST_DONE = true
      else t.flag oneKey Reg.AR_REQ_ST_BUSY = true ∧ t.flag oneKey Reg.AR_REQ_ST_DONE = false
        ∧ t.archive = { s.archive with requests := s.archive.requests ++ [⟨.steward (s.masterHalf m), op, arg, parm.toNat,
            (s.reg (oneKey + Reg.AR_REQ_ORIGIN)).toNat, (s.reg (oneKey + Reg.AR_REQ_DST)).toNat⟩] }))
  ∧ (∀ (m : Master) (s : State), s.blockWriteOk m blkArchive = true → s.arcCommits = true →
      s.flag oneKey Reg.AR_REQ_ST_BUSY = false → (s.reg (oneKey + Reg.AR_REQ_ORIGIN)).toNat ≤ 4 →
    Gives (.archiveNext m) s (fun t =>
      t.flag oneKey Reg.AR_REQ_ST_BUSY = true
        ∧ t.archive = { s.archive with requests := s.archive.requests ++ [⟨.steward (s.masterHalf m), 2,
            s.wide (oneKey + Reg.AR_REQ_ARG) 2, 0, (s.reg (oneKey + Reg.AR_REQ_ORIGIN)).toNat,
            (s.reg (oneKey + Reg.AR_REQ_DST)).toNat⟩] }))
  ∧ (∀ (corr : Nat) (h : Half) (r : ArcReq) (rest : List ArcReq) (p : Nat) (bytes : List Byte) (s : State),
      s.archive.requests = r :: rest → s.nandFree = true → s.arcReady = true → r.src = .steward h → r.op = 0 →
      s.archive.read r.arg (r.parm + 1) = some (p, bytes) →
      (s.archive.safe ≤ p ∨ corr ≤ 72 ∧ corr ≤ s.get oneKey Reg.AR_CFG0_REFRESH) →
      r.parm ≤ 4095 → r.dst + 2048 ≤ 0x80000 →
      (s.access (s.runner blkArchive) actArchR (if s.usesNand 0 r.arg = true then 2 else 0)).isSome = true →
    Gives (.archiveRequestDone corr) s (fun t =>
      t.archive = { s.archive with requests := rest } ∧ t.flag oneKey Reg.AR_REQ_ST_DONE = true
        ∧ (∀ i : Nat, i < (packBytes bytes).length →
            t.bank (s.runner blkArchive) (r.dst + i) = (packBytes bytes).getD i 0)
        ∧ t.flag oneKey Reg.AR_REQ_ST_BUSY = false ∧ t.get oneKey Reg.AR_REQ_ST_STATUS = St.OK))
  ∧ (∀ (corr : Nat) (h : Half) (r : ArcReq) (rest : List ArcReq) (s : State), s.archive.requests = r :: rest →
      s.nandFree = true → s.arcReady = true → r.src = .steward h → r.op = 0 →
      s.archive.read r.arg (r.parm + 1) = none →
      (s.access (s.runner blkArchive) actArchR (if s.usesNand 0 r.arg = true then 2 else 0)).isSome = true →
    Gives (.archiveRequestDone corr) s (fun t =>
      t.archive = { s.archive with requests := rest } ∧ t.flag oneKey Reg.AR_REQ_ST_DONE = true
        ∧ t.get oneKey Reg.AR_REQ_ST_STATUS = St.ARC_RANGE ∧ t.banks = s.banks))
  ∧ (∀ (x : Landed) (c : Instr) (l a u : Nat) (s : State), s.replicates = true →
      (c = .replicaSend ∧ s.archive.sent = [] ∧ s.archive.acked = []
          ∧ s.archive.landed.find? (fun y => decide (s.archive.rptr ≤ y.pos)) = some x
        ∨ c = .replicaResend ∧ s.archive.sent = [(x.pos, u)] ∧ u + 10000000 ≤ s.tref
          ∧ s.archive.landed.find? (fun y => decide (y.pos = x.pos)) = some x) →
      (s.access (s.runner blkFabric) actFabTx 3).isSome = true → s.ownAddr = some a →
      s.nextHop (s.get oneKey Reg.AR_REPL_ADDR) = some l → (s.link l).mode = .up → (s.link l).queue = [] →
    Gives c s (fun t => t.archive = { s.archive with sent := [(x.pos, s.tref)] }
      ∧ (∃ p ∈ t.onLink l, p.kind = 10 ∧ p.payload.drop 16 = x.bytes)))
  ∧ (∀ (l : Fin 8) (lap off u : Nat) (s : State), (s.link l.val).mode = .up →
      s.archive.sent = [(lap * s.archive.cap + off, u)] →
    Gives (.rackReceived l lap off true) s (fun t =>
      t.archive.sent = [] ∧ t.archive.landed = s.archive.landed ∧ t.regs = s.regs
        ∧ t.archive.rptr = s.archive.firstUnacked (s.archive.acked ++ [lap * s.archive.cap + off])))
  ∧ (∀ (l : Fin 8) (lap off : Nat) (s : State), (s.link l.val).mode = .up →
    Gives (.rackReceived l lap off false) s (fun t =>
      t.archive = { s.archive with stalled := true, sent := [], acked := [] } ∧ t.flag oneKey Reg.AR_STAT_REPL_STALL = true))
  ∧ (∀ (l : Fin 8) (p : Packet) (lap off i : Nat) (b : List Byte) (s : State), p.wf = true → p.kind = 10 →
      60 ≤ p.payload.length → (s.link l.val).mode = .up → s.isFor p = true → b = p.payload.drop 16 →
      s.flag oneKey Reg.AR_REPL_ACCEPT = true → s.archive.originIx (bushelUid b) = some i →
      tblFind s.archive.origins i = none → s.arcCommits = true → s.archive.fits b.length = true →
    Gives (.replReceived l p lap off) s (fun t =>
      t.archive.landed = s.archive.landed ++ [⟨s.archive.place b.length, none, s.timeNs, b⟩]
        ∧ t.archive.head = s.archive.place b.length + b.length
        ∧ tblFind t.archive.origins i = some ⟨bushelUid b, p.src.toNat, lap, off⟩))
  ∧ (∀ (m : Master) (value : Word) (i : Nat) (s : State), s.blockWriteOk m blkArchive = true → i = bits value 2 0 →
      1 ≤ i → i ≤ 4 →
    Gives (.originFree m value) s (fun t =>
      tblFind t.archive.origins i = none ∧ t = s.setArchive { s.archive with origins := t.archive.origins }))

/-- Block lock takes a LOCKING link to LOCKED, and its loss back. The third valid HELLO within 30 ms brings a LOCKED link UP with
full credits, a role and the neighbour's UID; a HELLO of the device's own UID makes it LOOP. A link that leaves UP loses its
queue and role, counts it, and sets FAB_STAT.LINK_CHG. HELLO_SEND puts a HELLO of 32 bytes on each LOCKED, UP or LOOP link.
Returned credits stay within the full credits; a packet 10 ms at the head of its class is dropped and counted. The root is the
best candidate. -/
def Obligations.LinksFollowTheirNeighbours : Prop :=
  (∀ (l : Fin 8) (s : State), (s.link l.val).mode = .locking →
    exec (.blockLock l) s = .next (s.setLink l.val { s.link l.val with mode := .locked, hellos := [] }))
  ∧ (∀ (l : Fin 8) (s : State), (s.link l.val).mode = .locked →
    exec (.blockLockLost l) s = .next (s.setLink l.val { s.link l.val with mode := .locking, hellos := [] }))
  ∧ (∀ (c : Instr) (into : LinkMode) (l : Fin 8) (u : Nat) (rest : List Nat) (s : State), (s.link l.val).mode = .up →
      (s.link l.val).hellos = u :: rest → u + 8000000 ≤ s.tref → s.linkEnabled l.val = true →
      (c, into) ∈ [(Instr.blockLockLost l, LinkMode.locking), (.linkDown l, .locked), (.helloTimeout l, .locked)] →
    Gives c s (fun t =>
      (t.link l.val).mode = into ∧ (t.link l.val).queue = [] ∧ (t.link l.val).role = 0
        ∧ t.flag oneKey Reg.FAB_STAT_LINK_CHG = true
        ∧ (t.reg (linkKey l.val + Reg.LK_CNT + 3)).toNat
            = min 0xFFFFF ((s.reg (linkKey l.val + Reg.LK_CNT + 3)).toNat + 1)))
  ∧ (∀ (l : Fin 8) (s : State),
      ((s.link l.val).mode = .locked ∨ (s.link l.val).mode = .up ∨ (s.link l.val).mode = .loop) →
    Gives .helloSend s (fun t =>
      (t.link l.val).mode = (s.link l.val).mode ∧ t.regs = s.regs
        ∧ (match (t.link l.val).sent with
          | some (.packet p) =>
            decide (p.kind = 1) && decide (p.payload.length = 32) && decide (p.payload.take 8 = bigEndian 8 ownUid)
          | _ => false) = true))
  ∧ (∀ (l : Fin 8) (p : Packet) (u v uid : Nat) (s : State), p.wf = true → p.kind = 1 → p.payload.length = 32 →
      (s.link l.val).mode = .locked → (s.link l.val).hellos = [v, u] → s.tref ≤ u + 6000000 →
      uid = payloadField p.payload 0 8 → uid ≠ ownUid → payloadField p.payload 8 2 < 0x2000 →
    Gives (.helloReceived l p) s (fun t =>
      (t.link l.val).mode = .up ∧ (t.link l.val).credit = fullCredit ∧ (t.link l.val).role ≠ 0 ∧ t.nuid l.val = uid
        ∧ t.flag oneKey Reg.FAB_STAT_LINK_CHG = true))
  ∧ (∀ (l : Fin 8) (p : Packet) (s : State), p.wf = true → p.kind = 1 → p.payload.length = 32 →
      (s.link l.val).mode = .locked → payloadField p.payload 0 8 = ownUid →
    exec (.helloReceived l p) s = .next (s.setLink l.val { s.link l.val with mode := .loop, hellos := [] }))
  ∧ (∀ (l : Fin 8) (c : Fin 4) (n : BitVec 16) (s : State), (s.link l.val).mode = .up → (s.link l.val).queue = [] →
    Gives (.creditReceived l c n) s (fun t =>
      tblGet (t.link l.val).credit 0 c.val =
          min (tblGet fullCredit 0 c.val) (tblGet (s.link l.val).credit 0 c.val + n.toNat)
        ∧ (t.link l.val).queue = [] ∧ t.regs = s.regs))
  ∧ (∀ (l : Fin 8) (p : Packet) (u : Nat) (s : State), (s.link l.val).mode = .up → (s.link l.val).queue = [(p, u)] →
      u + 2000000 ≤ s.tref →
    Gives (.egressStuck l p.cls) s (fun t =>
      (t.link l.val).queue = [] ∧ (t.link l.val).credit = (s.link l.val).credit
        ∧ (t.reg (linkKey l.val + Reg.LK_CNT + 2)).toNat
            = min 0xFFFFF ((s.reg (linkKey l.val + Reg.LK_CNT + 2)).toNat + 1)))
  ∧ (∀ s : State, s.flag oneKey Reg.FAB_CTL_EN = true →
    Gives .rootExpiry s (fun t =>
      (t.router.rootValid, t.router.rootPrio, t.router.rootUid) = s.bestRoot.getD (false, 15, 0)
        ∧ t.links = s.links ∧ t.routes = s.routes))

/-- A claim seen for the first time is remembered, and the owner of a HELD one noted, of two owners the higher UID. A TENTATIVE address is claimed with the
next SEQ, and after 200 ms becomes HELD: its own route, FAB_LAST. With no address left, the search starts again after 10 s from
the preferred one. A route page records the neighbour's offers, and the route is REACH. The pages go out on every UP link where they have
not gone out in the last 10 ms, taking 17 units of credit each; those changed go out once. An offer 350 ms old lapses and a route with no other becomes GONE, and
600 s later EMPTY. TSYNC falls after 100 ms without an exchange. -/
def Obligations.AddressesAndRoutesFollowTheRules : Prop :=
  (∀ (l : Fin 8) (p : Packet) (a uid q : Nat) (s : State), p.wf = true → p.kind = 2 → p.payload.length = 16 →
      (s.link l.val).mode = .up → uid = payloadField p.payload 0 8 → uid ≠ ownUid →
      payloadField p.payload 8 2 = 0x8000 + a → a < 4096 → q = payloadField p.payload 10 2 → s.router.seen = [] →
      s.get oneKey Reg.FAB_ADDR_STATE = 0 → (s.route a).mode = 0 →
    Gives (.claimReceived l p) s (fun t =>
      t.router.seen = [(uid, q, s.tref)] ∧ (t.route a).owner = max (s.route a).owner uid ∧ (t.route a).mode = 0 ∧ t.regs = s.regs))
  ∧ (∀ s : State, s.get oneKey Reg.FAB_ADDR_STATE = 1 →
    Gives .claimFlood s (fun t =>
      t.router.claimSeq = (s.router.claimSeq + 1) % 65536
        ∧ t.router.seen = s.router.seen ++ [(ownUid, (s.router.claimSeq + 1) % 65536, s.tref)]
        ∧ t.regs = s.regs ∧ t.routes = s.routes))
  ∧ (∀ (a : Nat) (s : State), s.get oneKey Reg.FAB_ADDR_STATE = 1 → s.router.since + 40000000 ≤ s.tref →
      a = s.get oneKey Reg.FAB_ADDR_ADDR →
    Gives .addressHeld s (fun t =>
      t.ownAddr = some a ∧ (t.route a).mode = 3 ∧ (t.route a).owner = ownUid ∧ (t.route a).metric = 0
        ∧ t.get oneKey Reg.FAB_LAST_ADDR = a ∧ t.flag oneKey Reg.FAB_LAST_VALID = true))
  ∧ (∀ (a : Nat) (s : State), s.flag oneKey Reg.FAB_CTL_EN = true → s.get oneKey Reg.FAB_ADDR_STATE = 0 →
      s.router.since + 2000000000 ≤ s.tref → s.flag oneKey Reg.FAB_CLAIM_USE_PREF = true →
      a = s.get oneKey Reg.FAB_CLAIM_PREF → (s.route a).mode = 0 →
    Gives .addressSearchRestart s (fun t =>
      t.get oneKey Reg.FAB_ADDR_STATE = 1 ∧ t.get oneKey Reg.FAB_ADDR_ADDR = a ∧ t.router.since = s.tref))
  ∧ (∀ (l : Fin 8) (p : Packet) (a j m : Nat) (s : State), p.wf = true → p.kind = 3 → p.payload.length = 1026 →
      (s.link l.val).mode = .up → j < 1024 → a = payloadField p.payload 0 1 % 4 * 1024 + j →
      m = payloadField p.payload (2 + j) 1 → 0 < m → m + s.linkCost l.val < 64 → (s.route a).mode ≠ 3 →
    Gives (.routeReceived l p) s (fun t =>
      tblFind t.offers (8 * a + l.val) = some (m, s.tref) ∧ (t.route a).mode = 1
        ∧ (t.route a).metric ≤ m + s.linkCost l.val ∧ t.regs = s.regs))
  ∧ (∀ (l : Fin 8) (s : State), s.ownAddr.isSome = true → (s.link l.val).mode = .up → (s.link l.val).queue = [] →
      (s.link l.val).credit = fullCredit → (∀ k : Nat, k < 4 → s.pageFree k l.val = true) →
    Gives .routePeriodic s (fun t =>
      (t.link l.val).queue = [] ∧ tblGet (t.link l.val).credit 0 0 = 60 ∧ t.routes = s.routes ∧ t.regs = s.regs))
  ∧ (∀ (l : Fin 8) (page : Nat) (s : State), s.ownAddr.isSome = true → (s.link l.val).mode = .up →
      (s.link l.val).queue = [] → (s.link l.val).credit = fullCredit → s.router.dirty = [page] →
      (∀ k ∈ s.upLinks, s.pageFree page k = true) →
    Gives .routeTriggered s (fun t =>
      (t.link l.val).queue = [] ∧ tblGet (t.link l.val).credit 0 0 = 111 ∧ t.router.dirty = [] ∧ t.routes = s.routes
        ∧ t.regs = s.regs))
  ∧ (∀ (a : BitVec 12) (l : Fin 8) (m u : Nat) (s : State), s.upLinks = [l.val] →
      tblFind s.offers (8 * a.toNat + l.val) = some (m, u) → u + 70000000 ≤ s.tref → (s.route a.toNat).mode = 1 →
    Gives (.routeOfferLapse a l) s (fun t =>
      tblFind t.offers (8 * a.toNat + l.val) = none ∧ (t.route a.toNat).mode = 2 ∧ (t.route a.toNat).metric = 64
        ∧ (t.route a.toNat).owner = (s.route a.toNat).owner ∧ t.regs = s.regs))
  ∧ (∀ (a : BitVec 12) (s : State), (s.route a.toNat).mode = 2 →
      (s.route a.toNat).changed + 120000000000 ≤ s.tref →
    Gives (.routeGoneExpiry a) s (fun t =>
      (t.route a.toNat).mode = 0 ∧ (t.route a.toNat).owner = 0 ∧ t.offers = s.offers ∧ t.regs = s.regs))
  ∧ (∀ s : State, s.isRoot = false → s.flag oneKey Reg.FAB_STAT_TSYNC = true →
      s.router.exchangeAt + 20000000 ≤ s.tref →
    exec .tsyncTimeout s = .next (s.put oneKey Reg.FAB_STAT_TSYNC 0))

/-- The PARENT end sends SYNC with the next SEQ and its time stamp; the CHILD end answers it; the PARENT end returns both of its
time stamps, and both ends count the exchange. They give the link's delay and, from the time parent, the offset in FAB_TOFF. A write of FAB_TSET sets fabric time
at the root and sets VALID; elsewhere it answers ST_FAB_NOT_ROOT. A swap request is sent while the link is UP and none is
outstanding, and refused otherwise. A request from the neighbour swaps the roles unless LOCK is set; an ACK swaps them, a NAK, a
collision or 5 ms without an answer ends the request with its status. -/
def Obligations.FabricTimeAndRolesFollowTheExchanges : Prop :=
  (∀ (l : Fin 8) (sub : Fin 16) (s : State), (s.link l.val).mode = .up → (s.link l.val).role = 1 →
    exec (.syncSend l sub) s = .next (s.setLink l.val
      { s.link l.val with
        seq := ((s.link l.val).seq + 1) % 64, t12 := s.stamp sub.val
        sent := some (.sync 0 (((s.link l.val).seq + 1) % 64)) }))
  ∧ (∀ (l : Fin 8) (seq : Fin 64) (sub : Fin 16) (turn : Nat) (s : State), turn ≤ 100000 →
      (s.link l.val).mode = .up → (s.link l.val).role = 2 →
    exec (.syncReceived l seq sub turn) s = .next (s.setLink l.val
      { s.link l.val with
        seq := seq.val, t12 := s.stamp sub.val, t3 := s.stamp sub.val + turn, sent := some (.sync 1 seq.val) }))
  ∧ (∀ (l : Fin 8) (seq : Fin 64) (sub : Fin 16) (s : State), (s.link l.val).mode = .up → (s.link l.val).role = 1 →
      (s.link l.val).seq = seq.val →
    Gives (.syncrReceived l seq sub) s (fun t => t.link l.val =
      { s.link l.val with
        fresh := (s.link l.val).fresh + 1
        sent := some (.stamps seq.val ((s.link l.val).t12 % 2 ^ 48) (s.stamp sub.val % 2 ^ 48)) }))
  ∧ (∀ (l : Fin 8) (seq : Fin 64) (t1 t4 : BitVec 48) (a b : Int) (s : State), (s.link l.val).mode = .up →
      (s.link l.val).role = 2 → (s.link l.val).seq = seq.val →
      a = ((s.link l.val).t12 : Int) - (s.timeNs / 2 ^ 48 * 2 ^ 48 + t1.toNat : Nat) →
      b = ((s.timeNs / 2 ^ 48 * 2 ^ 48 + t4.toNat : Nat) : Int) - ((s.link l.val).t3 : Int) →
      0 ≤ (a + b).tdiv 2 → (a + b).tdiv 2 < 0x100000 → s.reg (linkKey l.val + Reg.LK_ASYM) = 0 →
      s.router.parent = some l.val → -500000 < (a - b).tdiv 2 → (a - b).tdiv 2 < 500000 →
    Gives (.timestampsReceived l seq t1 t4) s (fun t =>
      ((t.reg (linkKey l.val + Reg.LK_DELAY)).toNat : Int) = (a + b).tdiv 2
        ∧ signed 20 (t.reg (oneKey + Reg.FAB_TOFF)).toNat = (a - b).tdiv 2
        ∧ (t.link l.val).fresh = (s.link l.val).fresh + 1))
  ∧ (∀ (m : Master) (hi : Word) (ns : Nat) (s : State), s.blockWriteOk m blkFabric = true →
      ns = (s.staged m Reg.FAB_TSET (s.reg (oneKey + Reg.FAB_TSET))).toNat
        + 0x100000 * (s.staged m (Reg.FAB_TSET + 1) (s.reg (oneKey + Reg.FAB_TSET + 1))).toNat
        + 0x10000000000 * hi.toNat →
    Gives (.timeSetWrite m hi) s (fun t =>
      if s.isRoot = true then
        t.fabricTime = ns % 2 ^ 60 * 2 ^ 32 ∧ t.get oneKey Reg.FAB_TSTAT_SET_ST = St.OK
          ∧ t.flag oneKey Reg.FAB_STAT_VALID = true ∧ t.flag oneKey Reg.FAB_STAT_TSTEP = true
      else t.fabricTime = s.fabricTime ∧ t.get oneKey Reg.FAB_TSTAT_SET_ST = St.FAB_NOT_ROOT))
  ∧ (∀ (l : Fin 8) (m : Master) (s : State), s.blockWriteOk m blkFabric = true → (s.link l.val).backoff = none →
    Gives (.swapRequest l (some m)) s (fun t =>
      if (s.link l.val).req.isSome = true then
        t.link l.val = s.link l.val ∧ t.get (linkKey l.val) Reg.LK_STAT_SWAP_ST = St.BUSY
      else if (s.link l.val).mode ≠ .up then
        t.link l.val = s.link l.val ∧ t.get (linkKey l.val) Reg.LK_STAT_SWAP_ST = St.FAB_LINK_DOWN
      else (t.link l.val).req = some (((s.link l.val).roleSeq + 1) % 256, s.tref)
        ∧ (t.link l.val).sent = some (.role 1 (((s.link l.val).roleSeq + 1) % 256) 0)
        ∧ t.flag (linkKey l.val) Reg.LK_STAT_SWAP_BUSY = true))
  ∧ (∀ (l : Fin 8) (s : State), (s.link l.val).mode = .up → (s.link l.val).role ≠ 0 → 3 ≤ (s.link l.val).wrong →
      (s.link l.val).req = none → (s.link l.val).backoff = none →
    Gives (.swapRequest l none) s (fun t =>
      (t.link l.val).req = some (((s.link l.val).roleSeq + 1) % 256, s.tref)
        ∧ t.flag (linkKey l.val) Reg.LK_STAT_SWAP_BUSY = true))
  ∧ (∀ (l : Fin 8) (seq : Byte) (s : State), (s.link l.val).mode = .up → (s.link l.val).req = none →
    Gives (.roleReqReceived l seq) s (fun t =>
      if s.flag (linkKey l.val) Reg.LK_CTL_LOCK = true then
        t = s.setLink l.val { s.link l.val with sent := some (.role 3 seq.toNat 0) }
      else (t.link l.val).sent = some (.role 2 seq.toNat 0)
        ∧ (t.link l.val).role = (if (s.link l.val).role = 1 then 2 else if (s.link l.val).role = 2 then 1
            else (s.link l.val).role)))
  ∧ (∀ (l : Fin 8) (seq : Byte) (s : State), (s.link l.val).asked seq.toNat = true →
    Gives (.roleAckReceived l seq) s (fun t =>
      (t.link l.val).req = none ∧ t.get (linkKey l.val) Reg.LK_STAT_SWAP_ST = St.OK
        ∧ t.flag (linkKey l.val) Reg.LK_STAT_SWAP_BUSY = false
        ∧ (t.link l.val).role = (if (s.link l.val).role = 1 then 2 else if (s.link l.val).role = 2 then 1
            else (s.link l.val).role)))
  ∧ (∀ (l : Fin 8) (seq : Byte) (s : State), (s.link l.val).asked seq.toNat = true →
    Gives (.roleNakReceived l seq false) s (fun t =>
      (t.link l.val).req = none ∧ t.get (linkKey l.val) Reg.LK_STAT_SWAP_ST = St.FAB_ROLE_REFUSED
        ∧ (t.link l.val).role = (s.link l.val).role))
  ∧ (∀ (l : Fin 8) (seq : Byte) (s : State), (s.link l.val).asked seq.toNat = true →
    Gives (.roleNakReceived l seq true) s (fun t =>
      t.get (linkKey l.val) Reg.LK_STAT_SWAP_ST = St.SWAP_COLLIDED ∧ (t.link l.val).role = (s.link l.val).role
        ∧ (t.link l.val).backoff.any (fun e => decide (s.tref + 200000 ≤ e) && decide (e ≤ s.tref + 3200000)) = true))
  ∧ (∀ (l : Fin 8) (q u : Nat) (s : State), (s.link l.val).req = some (q, u) → u + 1000000 ≤ s.tref →
    Gives (.swapTimeout l) s (fun t =>
      (t.link l.val).req = none ∧ t.get (linkKey l.val) Reg.LK_STAT_SWAP_ST = St.FAB_TIMEOUT
        ∧ (t.link l.val).role = (s.link l.val).role))
  ∧ (∀ (l : Fin 8) (u : Nat) (s : State), (s.link l.val).backoff = some u → u ≤ s.tref →
      (s.link l.val).fwReq = false → (s.link l.val).wrong < 3 →
    Gives (.swapBackoffEnd l) s (fun t =>
      (t.link l.val).backoff = none ∧ t.flag (linkKey l.val) Reg.LK_STAT_SWAP_BUSY = false
        ∧ (t.link l.val).role = (s.link l.val).role))

/-- A packet with a bad CRC is counted; one of an unknown kind, or whose hops are used up, is dropped with FAB_STAT.DROP; another
in transit is counted as forwarded. An alarm of a new key enters the suppression cache, one of a known key counts there, as an
ALSUM's count does; a summary frees the key. A routed command for this device joins the queue of routed commands, or is answered
ST_FAB_REFUSED while RCMD is 0. A reply ends the routed command of its TAG, as an UNREACH and the time-out do with a status; a late one is
counted. A peer's archive request joins the archive's. -/
def Obligations.PacketsGoWhereTheyAreSent : Prop :=
  (∀ (l : Fin 8) (p : Packet) (s : State), p.wf = true → (s.link l.val).mode = .up →
    Gives (.packetTransit l p .badCrc) s (fun t =>
      (t.reg (linkKey l.val + Reg.LK_CNT)).toNat = min 0xFFFFF ((s.reg (linkKey l.val + Reg.LK_CNT)).toNat + 1)
        ∧ (t.link l.val).queue = (s.link l.val).queue ∧ t.ports = s.ports))
  ∧ (∀ (l : Fin 8) (p : Packet) (s : State), p.wf = true → (s.link l.val).mode = .up →
      (p.known = false ∨ (5 < p.kind ∧ s.isFor p = false ∧ p.ttl ≤ 1)) →
    Gives (.packetTransit l p .whole) s (fun t =>
      t.flag oneKey Reg.FAB_STAT_DROP = true ∧ t.ports = s.ports ∧ t.routes = s.routes))
  ∧ (∀ (l : Fin 8) (p : Packet) (k : Nat) (s : State), p.wf = true → (s.link l.val).mode = .up → p.known = true →
      5 < p.kind → s.isFor p = false → 1 < p.ttl → s.nextHop p.dst.toNat = some k →
    Gives (.packetTransit l p .whole) s (fun t =>
      (t.reg (oneKey + Reg.FAB_CNT + 6)).toNat = min 0xFFFFF ((s.reg (oneKey + Reg.FAB_CNT + 6)).toNat + 1)
        ∧ t = { s with regs := t.regs, links := t.links }))
  ∧ (∀ (l : Fin 8) (p : Packet) (k : AlarmKey) (s : State), p.wf = true → p.kind = 4 → p.payload.length = 20 →
      (s.link l.val).mode = .up → k = alarmKey l.val p → s.router.cache = [] →
    Gives (.alarmReceived l p) s (fun t => t.suppressed k = some 0 ∧ k ∉ t.router.freed))
  ∧ (∀ (l : Fin 8) (p : Packet) (k : AlarmKey) (n : Nat) (s : State), p.wf = true → p.kind = 4 →
      p.payload.length = 20 → (s.link l.val).mode = .up → k = alarmKey l.val p → s.suppressed k = some n →
    Gives (.alarmReceived l p) s (fun t =>
      t.suppressed k = some (n + 1) ∧ t.ports = s.ports
        ∧ (t.reg (oneKey + Reg.FAB_CNT + 4)).toNat = min 0xFFFFF ((s.reg (oneKey + Reg.FAB_CNT + 4)).toNat + 1)))
  ∧ (∀ (l : Fin 8) (p : Packet) (k : AlarmKey) (n : Nat) (s : State), p.wf = true → p.kind = 5 →
      p.payload.length = 16 → (s.link l.val).mode = .up → k = alsumKey l.val p → s.suppressed k = some n →
    Gives (.alsumReceived l p) s (fun t =>
      t.suppressed k = some (n + payloadField p.payload 12 4) ∧ t.ports = s.ports ∧ t.regs = s.regs))
  ∧ (∀ (k : AlarmKey) (n : Nat) (s : State), s.suppressed k = some n → s.summaryTime k ≤ s.timeNs →
      s.router.inject = [] →
    Gives (.alarmSummary k) s (fun t => t.suppressed k = none ∧ k ∈ t.router.freed ∧ t.routes = s.routes))
  ∧ (∀ (l : Fin 8) (p : Packet) (c : Cmd) (a : Nat) (s : State), p.wf = true → p.kind = 6 →
      (s.link l.val).mode = .up → s.ownAddr = some a → s.isFor p = true →
      parseCmd (some (p.src.toNat, p.tag.toNat)) p.payload = some c → c.routed = true → 2 ≤ c.params.length →
      payloadField c.params 0 2 % 4096 = a → (s.port 2).queue.length < 16 →
    Gives (.cmdReceived l p) s (fun t =>
      if s.flag oneKey Reg.FAB_CTL_RCMD = true then (t.port 2).queue = (s.port 2).queue ++ [c] ∧ t.regs = s.regs
      else (t.port 2).queue = (s.port 2).queue ∧ t = answerCmd 2 c St.FAB_REFUSED [] (oweCredit l.val p s)))
  ∧ (∀ (l : Fin 8) (p : Packet) (c : Cmd) (u : Nat) (s : State), p.wf = true → p.kind = 7 →
      (s.link l.val).mode = .up → s.isFor p = true → (s.port 0).routed = [(c, p.tag.toNat, u)] →
    Gives (.replyReceived l p) s (fun t =>
      (t.port 0).routed = [] ∧ (t.port 0).replies = (s.port 0).replies ++ [p.payload] ∧ t.regs = s.regs))
  ∧ (∀ (l : Fin 8) (p : Packet) (s : State), p.wf = true → p.kind = 7 → (s.link l.val).mode = .up →
      s.isFor p = true → (s.port 0).routed = [] → (s.port 1).routed = [] →
    Gives (.replyReceived l p) s (fun t =>
      t.ports = s.ports
        ∧ (t.reg (oneKey + Reg.FAB_CNT + 5)).toNat = min 0xFFFFF ((s.reg (oneKey + Reg.FAB_CNT + 5)).toNat + 1)))
  ∧ (∀ (l : Fin 8) (p : Packet) (op : Fin 3) (arg : BitVec 60) (parm : BitVec 15) (origin : BitVec 20) (s : State),
      p.wf = true → p.kind = 8 → (s.link l.val).mode = .up → s.isFor p = true → s.arcCommits = true →
      (op = 0 → parm.toNat ≤ 4095) → origin.toNat ≤ 4 →
    Gives (.areqReceived l p op arg parm origin) s (fun t =>
      t.archive = { s.archive with requests := s.archive.requests ++ [⟨.peer p.src.toNat p.tag.toNat, op.val, arg.toNat,
        parm.toNat, origin.toNat, 0⟩] } ∧ t.regs = s.regs))
  ∧ (∀ (l : Fin 8) (p : Packet) (s : State), p.wf = true → p.kind = 9 → (s.link l.val).mode = .up →
      s.isFor p = true →
    exec (.adataReceived l p) s = .next (oweCredit l.val p s))
  ∧ (∀ (l : Fin 8) (p : Packet) (c : Cmd) (tag st u : Nat) (s : State), p.wf = true → p.kind = 12 →
      p.payload.length = 8 → (s.link l.val).mode = .up → s.isFor p = true → payloadField p.payload 0 1 = 6 →
      tag = payloadField p.payload 4 4 → st = payloadField p.payload 1 1 → (s.port 0).routed = [(c, tag, u)] →
      (s.port 1).routed = [] →
    Gives (.unreachReceived l p) s (fun t =>
      (t.port 0).routed = [] ∧ (t.port 0).replies = (s.port 0).replies ++ [replyBytes c st []] ∧ t.regs = s.regs))
  ∧ (∀ (p : Fin 2) (tag : BitVec 32) (c : Cmd) (u : Nat) (s : State), (s.port p.val).routed = [(c, tag.toNat, u)] →
      u + 200000 * max 1 (s.get oneKey Reg.FAB_CMD_TMO_MS) ≤ s.tref →
    Gives (.routedCommandTimeout p tag) s (fun t =>
      (t.port p.val).routed = []
        ∧ (t.port p.val).replies = (s.port p.val).replies ++ [replyBytes c St.FAB_TIMEOUT []] ∧ t.regs = s.regs))

/-- A steward whose next instruction is a register-to-register or an immediate operation of R467 or R468, by the fields of its
base word, completes it: rd takes the value the table gives for rs and rt, or rs and the immediate, modulo 2^20 unless the
operation saturates (w0 discards it); a load in flight settles into its register unless rd is that register; the other word
registers, the accumulator, every memory and every other steward stay; the steward goes to the next instruction and counts one
more. The function codes the tables reserve stand for no instruction. -/
def Obligations.ArithmeticInstructionsWriteTheirResult : Prop :=
  (∀ (k : Fin 9) (f : Fetched) (c : Instr) (a b v : Word) (s : State), s.runsNext k.val f = true →
      a = wreg (s.steward k.val) (bits f.w 10 7) → b = wreg (s.steward k.val) (bits f.w 6 3) →
      (c, bits f.w 19 15, bits f.w 2 0, v) ∈ [
        (Instr.add k, 1, 0, a + b), (.sub k, 1, 1, a - b), (.andRR k, 1, 2, a &&& b), (.orRR k, 1, 3, a ||| b),
        (.xorRR k, 1, 4, a ^^^ b), (.slt k, 1, 5, if a.toInt < b.toInt then 1 else 0),
        (.sltu k, 1, 6, if a.toNat < b.toNat then 1 else 0), (.andn k, 1, 7, a &&& ~~~b),
        (.sll k, 2, 0, a <<< (b.toNat % 32)), (.srl k, 2, 1, a >>> (b.toNat % 32)),
        (.sra k, 2, 2, a.sshiftRight (b.toNat % 32)),
        (.adds k, 2, 3, BitVec.ofInt 20 (max (-0x80000) (min 0x7FFFF (a.toInt + b.toInt)))),
        (.subs k, 2, 4, BitVec.ofInt 20 (max (-0x80000) (min 0x7FFFF (a.toInt - b.toInt)))),
        (.addus k, 2, 5, BitVec.ofNat 20 (min (a.toNat + b.toNat) 0xFFFFF)),
        (.subus k, 2, 6, BitVec.ofNat 20 (a.toNat - b.toNat))] →
    Gives c s (Completes k.val f (bits f.w 14 11) v (s.steward k.val).acc s))
  ∧ (∀ (k : Fin 9) (f : Fetched) (c : Instr) (a v : Word) (s : State), s.runsNext k.val f = true →
      a = wreg (s.steward k.val) (bits f.w 10 7) →
      (c, bits f.w 19 15, v) ∈ [
        (Instr.addi k, 5, a + BitVec.ofInt 20 (signed 7 (bits f.w 6 0))),
        (.movi k, 14, BitVec.ofInt 20 (signed 11 (bits f.w 10 0)))] →
    Gives c s (Completes k.val f (bits f.w 14 11) v (s.steward k.val).acc s))
  ∧ (∀ (k : Fin 9) (f : Fetched) (c : Instr) (a v : Word) (s : State), s.runsNext k.val f = true →
      a = wreg (s.steward k.val) (bits f.w 10 7) → bits f.w 19 15 = 6 →
      (c, bits f.w 6 5, v) ∈ [
        (Instr.slli k, 0, a <<< bits f.w 4 0), (.srli k, 1, a >>> bits f.w 4 0),
        (.srai k, 2, a.sshiftRight (bits f.w 4 0))] →
    Gives c s (Completes k.val f (bits f.w 14 11) v (s.steward k.val).acc s))
  ∧ (∀ (k : Fin 9) (f : Fetched) (c : Instr) (a x v : Word) (s : State), s.runsNext k.val f = true →
      a = wreg (s.steward k.val) (bits f.w 10 7) → x = f.ext → bits f.w 19 15 = 16 → bits f.w 3 0 = 0 →
      (c, bits f.w 6 4, v) ∈ [
        (Instr.addiLong k, 0, a + x), (.andi k, 1, a &&& x), (.ori k, 2, a ||| x), (.xori k, 3, a ^^^ x),
        (.slti k, 4, if a.toInt < x.toInt then 1 else 0), (.sltiu k, 5, if a.toNat < x.toNat then 1 else 0),
        (.addsi k, 6, BitVec.ofInt 20 (max (-0x80000) (min 0x7FFFF (a.toInt + x.toInt))))] →
    Gives c s (Completes k.val f (bits f.w 14 11) v (s.steward k.val).acc s))
  ∧ (∀ w : Word, (bits w 19 15 = 2 ∧ bits w 2 0 = 7) ∨ (bits w 19 15 = 6 ∧ bits w 6 5 = 3)
      ∨ (bits w 19 15 = 16 ∧ bits w 6 4 = 7) → decodeStew w = none)

/-- MUL, MULH and MULHU write the low or the high word of the exact product to rd and leave ACC. MAC, MACU, MSU and MACS, with rd
= w0, add the product to ACC or take it away, modulo 2^48 or saturated. RDACC writes ACC rounded by N, shifted and saturated;
MFA reads a part of ACC, sign-extended for N = 2; MTA writes ACC or a part of it. All the rest of the steward, its memories and
the other stewards stay. The codes the tables reserve, and a MAC or MTA with another rd, stand for no instruction. -/
def Obligations.MultiplierAndAccumulatorFollowTheirTables : Prop :=
  (∀ (k : Fin 9) (f : Fetched) (c : Instr) (a b v : Word) (s : State), s.runsNext k.val f = true →
      a = wreg (s.steward k.val) (bits f.w 10 7) → b = wreg (s.steward k.val) (bits f.w 6 3) → bits f.w 19 15 = 3 →
      (c, bits f.w 2 0, v) ∈ [
        (Instr.mul k, 0, BitVec.ofInt 20 (a.toInt * b.toInt)),
        (.mulh k, 1, BitVec.ofInt 20 (a.toInt * b.toInt / 2 ^ 20)),
        (.mulhu k, 2, BitVec.ofNat 20 (a.toNat * b.toNat / 2 ^ 20))] →
    Gives c s (Completes k.val f (bits f.w 14 11) v (s.steward k.val).acc s))
  ∧ (∀ (k : Fin 9) (f : Fetched) (c : Instr) (a b : Word) (acc v : BitVec 48) (s : State), s.runsNext k.val f = true →
      a = wreg (s.steward k.val) (bits f.w 10 7) → b = wreg (s.steward k.val) (bits f.w 6 3) →
      acc = (s.steward k.val).acc → bits f.w 19 15 = 3 → bits f.w 14 11 = 0 →
      (c, bits f.w 2 0, v) ∈ [
        (Instr.mac k, 3, acc + BitVec.ofInt 48 (a.toInt * b.toInt)),
        (.macu k, 4, acc + BitVec.ofNat 48 (a.toNat * b.toNat)),
        (.msu k, 5, acc - BitVec.ofInt 48 (a.toInt * b.toInt)),
        (.macs k, 6, BitVec.ofInt 48 (max (-(2 ^ 47)) (min (2 ^ 47 - 1) (acc.toInt + a.toInt * b.toInt))))] →
    Gives c s (Completes k.val f 0 0 v s))
  ∧ (∀ (k : Fin 9) (f : Fetched) (n : Nat) (acc : BitVec 48) (s : State), s.runsNext k.val f = true →
      acc = (s.steward k.val).acc → bits f.w 19 15 = 4 → bits f.w 6 5 = 0 → n = bits f.w 4 0 →
    Gives (.rdacc k) s (Completes k.val f (bits f.w 14 11)
      (BitVec.ofInt 20 (max (-0x80000) (min 0x7FFFF ((acc.toInt + (if n = 0 then 0 else 2 ^ (n - 1))) / 2 ^ n)))) acc s))
  ∧ (∀ (k : Fin 9) (f : Fetched) (acc : BitVec 48) (v : Word) (s : State), s.runsNext k.val f = true →
      acc = (s.steward k.val).acc → bits f.w 19 15 = 4 → bits f.w 6 5 = 1 →
      (bits f.w 4 0, v) ∈ [(0, acc.extractLsb' 0 20), (1, acc.extractLsb' 20 20),
        (2, (acc.extractLsb' 40 8).signExtend 20)] →
    Gives (.mfa k) s (Completes k.val f (bits f.w 14 11) v acc s))
  ∧ (∀ (k : Fin 9) (f : Fetched) (acc v : BitVec 48) (a : Word) (s : State), s.runsNext k.val f = true →
      acc = (s.steward k.val).acc → a = wreg (s.steward k.val) (bits f.w 10 7) → bits f.w 19 15 = 4 →
      bits f.w 6 5 = 2 → bits f.w 14 11 = 0 →
      (bits f.w 4 0, v) ∈ [(0, a.signExtend 48), (1, acc.extractLsb' 20 28 ++ a),
        (2, acc.extractLsb' 40 8 ++ a ++ acc.extractLsb' 0 20), (3, a.extractLsb' 0 8 ++ acc.extractLsb' 0 40)] →
    Gives (.mta k) s (Completes k.val f 0 0 v s))
  ∧ (∀ w : Word, (bits w 19 15 = 3 ∧ (bits w 2 0 = 7 ∨ (3 ≤ bits w 2 0 ∧ bits w 14 11 ≠ 0)))
      ∨ (bits w 19 15 = 4 ∧ (bits w 6 5 = 3 ∨ (bits w 6 5 = 1 ∧ bits w 4 0 = 3)
        ∨ (bits w 6 5 = 2 ∧ (4 ≤ bits w 4 0 ∨ bits w 14 11 ≠ 0)))) → decodeStew w = none)

/-- While the governor holds no access: a load puts the word of its effective address in flight for rd, which the delay
instruction does not see; a load in flight for the same register is discarded. A store writes rt to that word of the half's
memory or the other half's, and to no other; superseded, it writes nothing and sets SUPER; to a half whose memory is down it
writes nothing and sets REMOTE_DOWN. An IN puts what the register reads in flight; an OUT retires, and its register takes or
refuses the word. LR reserves the address; SC writes and gives 1 only under a reservation of its address and without a clash,
else gives 0; TAS reads the word and writes 1. -/
def Obligations.LoadsStoresAndAtomicsReachTheirWord : Prop :=
  (∀ (k : Fin 9) (f : Fetched) (c : Instr) (a w : Word) (s : State), s.runsNext k.val f = true →
      (c, bits f.w 19 15, a) ∈ [
        (Instr.ld k, 7, wreg (s.steward k.val) (bits f.w 10 7) + BitVec.ofInt 20 (signed 7 (bits f.w 6 0))),
        (.ldx k, 17, wreg (s.steward k.val) (bits f.w 10 7) + f.ext)] →
      (bits f.w 19 15 = 17 → bits f.w 6 0 = 0) → s.stewHeld k.val a.toNat = false →
      (dataRead k.val a.toNat s).1 = .word w →
    Gives c s (fun t =>
      (t.steward k.val).load = some (bits f.w 14 11, w) ∧ t.banks = s.banks ∧ t.vmem = s.vmem
        ∧ (t.steward k.val).acc = (s.steward k.val).acc
        ∧ (∀ r : Nat, r < 16 → wreg (t.steward k.val) r =
            if r = bits f.w 14 11 then wreg (s.steward k.val) r else s.settled k.val r)))
  ∧ (∀ (k : Fin 8) (f : Fetched) (c : Instr) (a v : Word) (s : State), s.runsNext k.val f = true →
      (c, bits f.w 19 15, a) ∈ [
        (Instr.st ⟨k.val, by omega⟩ false, 8,
          wreg (s.steward k.val) (bits f.w 10 7) + BitVec.ofInt 20 (signed 7 (bits f.w 6 0))),
        (.stx ⟨k.val, by omega⟩ false, 18, wreg (s.steward k.val) (bits f.w 10 7) + f.ext)] →
      (bits f.w 19 15 = 18 → bits f.w 6 0 = 0) → s.stewHeld k.val a.toNat = false →
      (a.toNat < 0x80000 ∨ s.memoryUp (stewHalf k.val).other = true) → v = wreg (s.steward k.val) (bits f.w 14 11) →
    Gives c s (fun t =>
      t.banks = tblSet s.banks 0 (bankIx (stewPlace k.val a.toNat).1 (stewPlace k.val a.toNat).2) v
        ∧ RegsAre k.val 0 0 s t ∧ Counted k.val s t ∧ t.vmem = s.vmem ∧ t.imem = s.imem))
  ∧ (∀ (k : Fin 8) (f : Fetched) (c : Instr) (a : Word) (s : State), s.runsNext k.val f = true →
      (c, bits f.w 19 15, a) ∈ [
        (Instr.st ⟨k.val, by omega⟩ true, 8,
          wreg (s.steward k.val) (bits f.w 10 7) + BitVec.ofInt 20 (signed 7 (bits f.w 6 0))),
        (.stx ⟨k.val, by omega⟩ true, 18, wreg (s.steward k.val) (bits f.w 10 7) + f.ext)] →
      (bits f.w 19 15 = 18 → bits f.w 6 0 = 0) → s.stewHeld k.val a.toNat = false →
      (a.toNat < 0x80000 ∨ s.memoryUp (stewHalf k.val).other = true) →
    Gives c s (fun t => t.banks = s.banks ∧ RegsAre k.val 0 0 s t ∧ Counted k.val s t
      ∧ t.flag (halfKey (stewPlace k.val a.toNat).1) Reg.MC_STAT_SUPER = true))
  ∧ (∀ (k : Fin 8) (clash : Bool) (f : Fetched) (c : Instr) (a : Word) (s : State), s.runsNext k.val f = true →
      (c, bits f.w 19 15, a) ∈ [
        (Instr.st ⟨k.val, by omega⟩ clash, 8,
          wreg (s.steward k.val) (bits f.w 10 7) + BitVec.ofInt 20 (signed 7 (bits f.w 6 0))),
        (.stx ⟨k.val, by omega⟩ clash, 18, wreg (s.steward k.val) (bits f.w 10 7) + f.ext)] →
      (bits f.w 19 15 = 18 → bits f.w 6 0 = 0) → s.stewHeld k.val a.toNat = false →
      0x80000 ≤ a.toNat → s.memoryUp (stewHalf k.val).other = false →
    Gives c s (fun t => t.banks = s.banks ∧ RegsAre k.val 0 0 s t ∧ Counted k.val s t
      ∧ t.flag (halfKey (stewHalf k.val)) Reg.MC_STAT_REMOTE_DOWN = true))
  ∧ (∀ (clash : Bool) (f : Fetched) (c : Instr) (a v : Word) (s : State), s.runsNext 8 f = true →
      (c, bits f.w 19 15, a) ∈ [
        (Instr.st 8 clash, 8, wreg (s.steward 8) (bits f.w 10 7) + BitVec.ofInt 20 (signed 7 (bits f.w 6 0))),
        (.stx 8 clash, 18, wreg (s.steward 8) (bits f.w 10 7) + f.ext)] →
      (bits f.w 19 15 = 18 → bits f.w 6 0 = 0) → a.toNat < 0x4000 → s.vcSplit ≤ a.toNat →
      v = wreg (s.steward 8) (bits f.w 14 11) →
    Gives c s (fun t => t.vmem = tblSet s.vmem 0 a.toNat v ∧ t.banks = s.banks ∧ RegsAre 8 0 0 s t ∧ Counted 8 s t))
  ∧ (∀ (k : Fin 9) (f : Fetched) (c : Instr) (a : Word) (s x u : State), s.runsNext k.val f = true →
      (c, bits f.w 19 15, a) ∈ [
        (Instr.inShort k, 9, wreg (s.steward k.val) (bits f.w 10 7) + BitVec.ofInt 20 (signed 7 (bits f.w 6 0))),
        (.inx k, 19, wreg (s.steward k.val) (bits f.w 10 7) + f.ext)] →
      (bits f.w 19 15 = 19 → bits f.w 6 0 = 0) → x = (fetchAt k.val (s.steward k.val).pc s).2 →
      (if k.val < 8 ∧ 0x80000 ≤ a.toNat then x.admitted (stewHalf k.val) actStew 1
        else x.stewAck k.val a.toNat) = some u →
    Gives c s (fun t =>
      (t.steward k.val).load = some (bits f.w 14 11, (ioRead (masterOf k.val) a.toNat u).1) ∧ t.banks = s.banks))
  ∧ (∀ (k : Fin 9) (f : Fetched) (c : Instr) (a v : Word) (s u : State), s.runsNext k.val f = true →
      (c, bits f.w 19 15, a) ∈ [
        (Instr.out k, 10, wreg (s.steward k.val) (bits f.w 10 7) + BitVec.ofInt 20 (signed 7 (bits f.w 6 0))),
        (.outx k, 20, wreg (s.steward k.val) (bits f.w 10 7) + f.ext)] →
      (bits f.w 19 15 = 20 → bits f.w 6 0 = 0) →
      (fetchAt k.val (s.steward k.val).pc s).2.stewAck k.val a.toNat = some u →
      v = wreg (s.steward k.val) (bits f.w 14 11) →
    exec c s = .next (boundary k.val (ioWrite (masterOf k.val) a.toNat v (retire k.val f [] none none id u))))
  ∧ (∀ (k : Fin 9) (f : Fetched) (a w : Word) (s : State), s.runsNext k.val f = true → bits f.w 19 15 = 12 →
      bits f.w 2 0 = 0 → bits f.w 6 3 = 0 → a = wreg (s.steward k.val) (bits f.w 10 7) →
      s.stewHeld k.val a.toNat = false → (dataRead k.val a.toNat s).1 = .word w →
    Gives (.lr k) s (fun t =>
      (t.steward k.val).load = some (bits f.w 14 11, w) ∧ (t.steward k.val).rsv = some a
        ∧ creg (t.steward k.val) crRSVA = a ∧ t.banks = s.banks ∧ t.vmem = s.vmem))
  ∧ (∀ (k : Fin 8) (f : Fetched) (a : Word) (s : State), s.runsNext k.val f = true → bits f.w 19 15 = 12 →
      bits f.w 2 0 = 1 → a = wreg (s.steward k.val) (bits f.w 10 7) → s.stewHeld k.val a.toNat = false →
      (s.steward k.val).rsv = some a → (a.toNat < 0x80000 ∨ s.memoryUp (stewHalf k.val).other = true) →
    Gives (.sc ⟨k.val, by omega⟩ false) s (fun t =>
      (t.steward k.val).load = some (bits f.w 14 11, 1) ∧ (t.steward k.val).rsv = none
        ∧ t.banks = tblSet s.banks 0 (bankIx (stewPlace k.val a.toNat).1 (stewPlace k.val a.toNat).2)
            (wreg (s.steward k.val) (bits f.w 6 3))))
  ∧ (∀ (k : Fin 9) (clash : Bool) (f : Fetched) (a : Word) (s : State), s.runsNext k.val f = true →
      bits f.w 19 15 = 12 → bits f.w 2 0 = 1 → a = wreg (s.steward k.val) (bits f.w 10 7) →
      s.stewHeld k.val a.toNat = false → ((s.steward k.val).rsv ≠ some a ∨ clash = true) →
    Gives (.sc k clash) s (fun t =>
      (t.steward k.val).load = some (bits f.w 14 11, 0) ∧ (t.steward k.val).rsv = none ∧ t.banks = s.banks
        ∧ t.vmem = s.vmem))
  ∧ (∀ (k : Fin 8) (f : Fetched) (a w : Word) (s : State), s.runsNext k.val f = true → bits f.w 19 15 = 12 →
      bits f.w 2 0 = 2 → bits f.w 6 3 = 0 → a = wreg (s.steward k.val) (bits f.w 10 7) →
      s.stewHeld k.val a.toNat = false → (dataRead k.val a.toNat s).1 = .word w →
      (a.toNat < 0x80000 ∨ s.memoryUp (stewHalf k.val).other = true) →
    Gives (.tas ⟨k.val, by omega⟩) s (fun t =>
      (t.steward k.val).load = some (bits f.w 14 11, w)
        ∧ t.banks = tblSet s.banks 0 (bankIx (stewPlace k.val a.toNat).1 (stewPlace k.val a.toNat).2) 1))

/-- While words remain and no access is held, a block instruction moves, fills or feeds one word: its address registers advance
by one, its count falls by one, and the steward stands at the instruction again until the count is 0; the next instruction then
follows. A load in flight has settled first. A count of 0 completes at once. Registers that are not different, or w0 where a
register is updated, trap with RESERVED before any word. -/
def Obligations.BlockInstructionsGoWordByWord : Prop :=
  (∀ (k : Fin 8) (f : Fetched) (d r c : Nat) (n w : Word) (s : State), s.runsNext k.val f = true →
      bits f.w 19 15 = 13 → bits f.w 2 0 = 0 → d = bits f.w 14 11 → r = bits f.w 10 7 → c = bits f.w 6 3 →
      d ≠ 0 → r ≠ 0 → c ≠ 0 → d ≠ r → d ≠ c → r ≠ c → n = s.settled k.val c → n ≠ 0 →
      s.stewHeldBoth k.val (s.settled k.val r).toNat (s.settled k.val d).toNat = false →
      (dataRead k.val (s.settled k.val r).toNat s).1 = .word w →
      ((s.settled k.val d).toNat < 0x80000 ∨ s.memoryUp (stewHalf k.val).other = true) →
    Gives (.blkmov ⟨k.val, by omega⟩ false) s (fun t =>
      wreg (t.steward k.val) d = s.settled k.val d + 1 ∧ wreg (t.steward k.val) r = s.settled k.val r + 1
        ∧ wreg (t.steward k.val) c = n - 1
        ∧ t.banks = tblSet s.banks 0 (bankIx (stewPlace k.val (s.settled k.val d).toNat).1
            (stewPlace k.val (s.settled k.val d).toNat).2) w
        ∧ (n ≠ 1 → (t.steward k.val).pc = (s.steward k.val).pc)
        ∧ (n = 1 → srLD (s.steward k.val) = 0 → (t.steward k.val).pc = f.addr + 1)))
  ∧ (∀ (k : Fin 8) (f : Fetched) (d r c : Nat) (n : Word) (s : State), s.runsNext k.val f = true →
      bits f.w 19 15 = 13 → bits f.w 2 0 = 1 → d = bits f.w 14 11 → r = bits f.w 10 7 → c = bits f.w 6 3 →
      d ≠ 0 → c ≠ 0 → d ≠ r → d ≠ c → r ≠ c → n = s.settled k.val c → n ≠ 0 →
      s.stewHeld k.val (s.settled k.val d).toNat = false →
      ((s.settled k.val d).toNat < 0x80000 ∨ s.memoryUp (stewHalf k.val).other = true) →
    Gives (.blkfill ⟨k.val, by omega⟩ false) s (fun t =>
      wreg (t.steward k.val) d = s.settled k.val d + 1 ∧ wreg (t.steward k.val) r = s.settled k.val r
        ∧ wreg (t.steward k.val) c = n - 1
        ∧ t.banks = tblSet s.banks 0 (bankIx (stewPlace k.val (s.settled k.val d).toNat).1
            (stewPlace k.val (s.settled k.val d).toNat).2) (s.settled k.val r)
        ∧ (n ≠ 1 → (t.steward k.val).pc = (s.steward k.val).pc)))
  ∧ (∀ (k : Fin 9) (f : Fetched) (r c : Nat) (n w : Word) (s : State), s.runsNext k.val f = true →
      bits f.w 19 15 = 13 → bits f.w 2 0 = 2 → bits f.w 14 11 ≤ 2 → r = bits f.w 10 7 → c = bits f.w 6 3 →
      r ≠ 0 → c ≠ 0 → r ≠ c → n = s.settled k.val c → n ≠ 0 →
      s.stewHeld k.val (s.settled k.val r).toNat = false → (dataRead k.val (s.settled k.val r).toNat s).1 = .word w →
    Gives (.blkcrc k) s (fun t =>
      (t.steward k.val).acc = blkCrcWord (bits f.w 14 11) (s.steward k.val).acc w
        ∧ wreg (t.steward k.val) r = s.settled k.val r + 1 ∧ wreg (t.steward k.val) c = n - 1
        ∧ t.banks = s.banks ∧ t.vmem = s.vmem
        ∧ (n ≠ 1 → (t.steward k.val).pc = (s.steward k.val).pc)))
  ∧ (∀ (k : Fin 9) (clash : Bool) (f : Fetched) (c : Instr) (d r n : Nat) (s : State), s.runsNext k.val f = true →
      bits f.w 19 15 = 13 → (bits f.w 2 0 = 2 → bits f.w 14 11 ≤ 2) → d = bits f.w 14 11 → r = bits f.w 10 7 →
      n = bits f.w 6 3 →
      (c, bits f.w 2 0, false) ∈ [
        (Instr.blkmov k clash, 0, decide (d = 0 ∨ r = 0 ∨ n = 0 ∨ d = r ∨ d = n ∨ r = n)),
        (.blkfill k clash, 1, decide (d = 0 ∨ n = 0 ∨ d = r ∨ d = n ∨ r = n)),
        (.blkcrc k, 2, decide (r = 0 ∨ n = 0 ∨ r = n))] →
      s.settled k.val n = 0 →
    Gives c s (Completes k.val f 0 0 (s.steward k.val).acc s))
  ∧ (∀ (k : Fin 9) (clash : Bool) (f : Fetched) (c : Instr) (d r n : Nat) (s : State), s.runsNext k.val f = true →
      bits f.w 19 15 = 13 → (bits f.w 2 0 = 2 → bits f.w 14 11 ≤ 2) → d = bits f.w 14 11 → r = bits f.w 10 7 →
      n = bits f.w 6 3 →
      (c, bits f.w 2 0, true) ∈ [
        (Instr.blkmov k clash, 0, decide (d = 0 ∨ r = 0 ∨ n = 0 ∨ d = r ∨ d = n ∨ r = n)),
        (.blkfill k clash, 1, decide (d = 0 ∨ n = 0 ∨ d = r ∨ d = n ∨ r = n)),
        (.blkcrc k, 2, decide (r = 0 ∨ n = 0 ∨ r = n))] →
      srTH (s.steward k.val) = false →
    Gives c s (Traps k.val 0x01 f f.addr s))

/-- A branch goes to its target where its condition holds, and to the next instruction otherwise; J, JR, CALL and CALLR go to
their target, a call with the return address pushed; RET and RETI return by the words on the stack, RETI with SR. LOOP opens a
level with its start, end and count, or skips the body at a count of 0; at the end address the check returns to the start while
more than one pass remains, and else closes the level; LPOP closes the top level. NOP and FENCE do nothing more; EI and DI set
IE; MFC and MTC move a control register; WAIT waits; BRK halts where BRK_DBG is 1. -/
def Obligations.ControlTransfersGoWhereTheySay : Prop :=
  (∀ (k : Fin 9) (f : Fetched) (a : Word) (s : State), s.runsNext k.val f = true → bits f.w 19 15 = 11 →
      a = wreg (s.steward k.val) (bits f.w 11 8) → bits f.w 14 12 < 6 → srLD (s.steward k.val) = 0 →
    Gives (.bz k) s (fun t => RegsAre k.val 0 0 s t ∧ Counted k.val s t ∧ t.banks = s.banks
      ∧ (t.steward k.val).pc =
        if (bits f.w 14 12 = 0 ∧ a = 0) ∨ (bits f.w 14 12 = 1 ∧ a ≠ 0) ∨ (bits f.w 14 12 = 2 ∧ a.toInt < 0)
          ∨ (bits f.w 14 12 = 3 ∧ 0 ≤ a.toInt) ∨ (bits f.w 14 12 = 4 ∧ a.toInt ≤ 0) ∨ (bits f.w 14 12 = 5 ∧ 0 < a.toInt)
        then f.addr + BitVec.ofInt 20 (signed 8 (bits f.w 7 0)) else f.addr + 1))
  ∧ (∀ (k : Fin 9) (f : Fetched) (a b : Word) (s : State), s.runsNext k.val f = true → bits f.w 19 15 = 21 →
      bits f.w 3 0 = 0 → a = wreg (s.steward k.val) (bits f.w 11 8) → b = wreg (s.steward k.val) (bits f.w 7 4) →
      bits f.w 14 12 < 6 → srLD (s.steward k.val) = 0 →
    Gives (.br k) s (fun t => RegsAre k.val 0 0 s t ∧ Counted k.val s t ∧ t.banks = s.banks
      ∧ (t.steward k.val).pc =
        if (bits f.w 14 12 = 0 ∧ a = b) ∨ (bits f.w 14 12 = 1 ∧ a ≠ b) ∨ (bits f.w 14 12 = 2 ∧ a.toInt < b.toInt)
          ∨ (bits f.w 14 12 = 3 ∧ b.toInt ≤ a.toInt) ∨ (bits f.w 14 12 = 4 ∧ a.toNat < b.toNat)
          ∨ (bits f.w 14 12 = 5 ∧ b.toNat ≤ a.toNat)
        then f.addr + f.ext else f.addr + 2))
  ∧ (∀ (k : Fin 9) (f : Fetched) (c : Instr) (target : Word) (s : State), s.runsNext k.val f = true →
      (c, bits f.w 19 10, target) ∈ [(Instr.j k, 0x2C0, f.ext),
        (.jr k, 0x008, wreg (s.steward k.val) (bits f.w 9 6))] →
      bits f.w 5 0 = 0 → (bits f.w 19 10 = 0x2C0 → bits f.w 9 6 = 0) →
    Gives c s (fun t => RegsAre k.val 0 0 s t ∧ Counted k.val s t ∧ (t.steward k.val).pc = target ∧ t.banks = s.banks))
  ∧ (∀ (k : Fin 8) (f : Fetched) (c : Instr) (target sp back : Word) (s : State), s.runsNext k.val f = true →
      (c, bits f.w 19 10, target, back) ∈ [(Instr.call ⟨k.val, by omega⟩ false, 0x2C8, f.ext, f.addr + 2),
        (.callr ⟨k.val, by omega⟩ false, 0x009, wreg (s.steward k.val) (bits f.w 9 6), f.addr + 1)] →
      bits f.w 5 0 = 0 → (bits f.w 19 10 = 0x2C8 → bits f.w 9 6 = 0) → sp = wreg (s.steward k.val) 15 - 1 →
      s.stewHeld k.val sp.toNat = false → (sp.toNat < 0x80000 ∨ s.memoryUp (stewHalf k.val).other = true) →
    Gives c s (fun t => RegsAre k.val 15 sp s t ∧ Counted k.val s t ∧ (t.steward k.val).pc = target
      ∧ t.banks = tblSet s.banks 0 (bankIx (stewPlace k.val sp.toNat).1 (stewPlace k.val sp.toNat).2) back))
  ∧ (∀ (k : Fin 9) (f : Fetched) (sp w : Word) (s : State), s.runsNext k.val f = true → f.w = 0x00400#20 →
      sp = wreg (s.steward k.val) 15 → s.stewHeld k.val sp.toNat = false → (dataRead k.val sp.toNat s).1 = .word w →
    Gives (.ret k) s (fun t => RegsAre k.val 15 (sp + 1) s t ∧ Counted k.val s t ∧ (t.steward k.val).pc = w
      ∧ t.banks = s.banks))
  ∧ (∀ (k : Fin 9) (f : Fetched) (sp w v : Word) (s : State), s.runsNext k.val f = true → f.w = 0x00800#20 →
      sp = wreg (s.steward k.val) 15 → s.stewHeldBoth k.val sp.toNat (sp + 1).toNat = false →
      (dataRead k.val sp.toNat s).1 = .word w → (dataRead k.val (sp + 1).toNat s).1 = .word v →
    Gives (.reti k) s (fun t => RegsAre k.val 15 (sp + 2) s t ∧ Counted k.val s t ∧ (t.steward k.val).pc = w
      ∧ creg (t.steward k.val) crSR = v &&& 0x0000F ∧ (t.steward k.val).rsv = none ∧ t.banks = s.banks))
  ∧ (∀ (k : Fin 9) (f : Fetched) (c : Word) (l : Nat) (s : State), s.runsNext k.val f = true → bits f.w 19 15 = 23 →
      c = (if bits f.w 14 11 = 0 then BitVec.ofNat 20 (bits f.w 10 0) else wreg (s.steward k.val) (bits f.w 14 11)) →
      2 ≤ f.ext.toNat → l = srLD (s.steward k.val) → l < 3 →
    Gives (.loopOpen k) s (fun t => RegsAre k.val 0 0 s t ∧ Counted k.val s t
      ∧ (if c = 0 then srLD (t.steward k.val) = l ∧ (t.steward k.val).pc = f.addr + f.ext + 1
        else srLD (t.steward k.val) = l + 1 ∧ (t.steward k.val).pc = f.addr + 2
          ∧ creg (t.steward k.val) (crLS l) = f.addr + 2 ∧ creg (t.steward k.val) (crLE l) = f.addr + f.ext
          ∧ creg (t.steward k.val) (crLC l) = c)))
  ∧ (∀ (k : Fin 9) (f : Fetched) (l : Nat) (s : State), s.runsNext k.val f = true → f.w = 0x01400#20 →
      srLD (s.steward k.val) = l + 1 → (1 ≤ l → creg (s.steward k.val) (crLE (l - 1)) ≠ f.addr) →
    Gives (.lpop k) s (fun t => RegsAre k.val 0 0 s t ∧ Counted k.val s t ∧ srLD (t.steward k.val) = l
      ∧ (t.steward k.val).pc = f.addr + 1))
  ∧ (∀ (k : Fin 9) (f : Fetched) (l : Nat) (s : State), s.runsNext k.val f = true → f.w = 0x00000#20 →
      srLD (s.steward k.val) = l + 1 → creg (s.steward k.val) (crLE l) = f.addr →
      (1 ≤ l → creg (s.steward k.val) (crLE (l - 1)) ≠ f.addr) →
    Gives (.nop k) s (fun t => RegsAre k.val 0 0 s t ∧ Counted k.val s t
      ∧ (if 1 < (creg (s.steward k.val) (crLC l)).toNat then
          srLD (t.steward k.val) = l + 1 ∧ (t.steward k.val).pc = creg (s.steward k.val) (crLS l)
            ∧ creg (t.steward k.val) (crLC l) = creg (s.steward k.val) (crLC l) - 1
        else srLD (t.steward k.val) = l ∧ (t.steward k.val).pc = f.addr + 1 ∧ creg (t.steward k.val) (crLC l) = 0)))
  ∧ (∀ (k : Fin 9) (f : Fetched) (c : Instr) (s : State), s.runsNext k.val f = true →
      (c, f.w) ∈ [(Instr.nop k, 0x00000#20), (.fence k, 0x01800#20)] →
    Gives c s (Completes k.val f 0 0 (s.steward k.val).acc s))
  ∧ (∀ (k : Fin 9) (f : Fetched) (c : Instr) (ie : Bool) (s : State), s.runsNext k.val f = true →
      (c, f.w, ie) ∈ [(Instr.ei k, 0x03000#20, true), (.di k, 0x03400#20, false)] →
    Gives c s (fun t => Completes k.val f 0 0 (s.steward k.val).acc s t ∧ srIE (t.steward k.val) = ie))
  ∧ (∀ (k : Fin 9) (f : Fetched) (v : Word) (s : State), s.runsNext k.val f = true → bits f.w 19 10 = 0x00A →
      bits f.w 5 5 = 0 → readCreg (s.steward k.val) (bits f.w 4 0) = some v →
    Gives (.mfc k) s (Completes k.val f (bits f.w 9 6) v (s.steward k.val).acc s))
  ∧ (∀ (k : Fin 9) (f : Fetched) (v : Word) (s : State), s.runsNext k.val f = true → bits f.w 19 10 = 0x00B →
      bits f.w 5 0 = 1 → v = wreg (s.steward k.val) (bits f.w 9 6) →
    Gives (.mtc k) s (fun t => Completes k.val f 0 0 (s.steward k.val).acc s t
      ∧ creg (t.steward k.val) crVBASE = v &&& 0xFFF80))
  ∧ (∀ (k : Fin 9) (f : Fetched) (s : State), s.runsNext k.val f = true → f.w = 0x00C00#20 →
      (s.steward k.val).stopDue = false → (s.steward k.val).haltDue = none →
    Gives (.wait k) s (fun t => (t.steward k.val).mode = .waiting ∧ (t.steward k.val).pc = (s.steward k.val).pc
      ∧ RegsAre k.val 0 0 s t ∧ t.banks = s.banks))
  ∧ (∀ (k : Fin 9) (f : Fetched) (s : State), s.runsNext k.val f = true → f.w = 0x01000#20 →
      s.flag (stewKey k.val) Reg.STW_CTL_BRK_DBG = true → srLD (s.steward k.val) = 0 →
    Gives (.brk k) s (fun t => (t.steward k.val).mode = .halted ∧ (t.steward k.val).pc = f.addr + 1
      ∧ t.get (stewKey k.val) Reg.STW_STAT_HCAUSE = 2 ∧ (t.steward k.val).rsv = none ∧ RegsAre k.val 0 0 s t))

/-- TRAP, a reserved encoding, a fetch that fails, BRK with BRK_DBG 0, LOOP with an offset below 2 or three levels active, and
LPOP with none enter the trap vector: cause, words of the instruction, SR and return address pushed, IE 0, TH 1, the reservation
gone. While TH is set the steward locks up instead. RUN written 1 starts it at STW_START; written 0 it stops; a halt request, a
breakpoint and a step halt it with their cause; RESUME and STEP leave HALTED. STW_RDAT writes the selected register of a
steward that does not run, and sets BAD on one that does. -/
def Obligations.TrapsAndDebugControlStewards : Prop :=
  (∀ (k : Fin 9) (f : Fetched) (s : State), s.runsNext k.val f = true → bits f.w 19 10 = 0x007 → bits f.w 9 6 = 0 →
      srTH (s.steward k.val) = false →
    Gives (.trap k) s (Traps k.val 0x02 f (f.addr + 1) s))
  ∧ (∀ (k : Fin 9) (f : Fetched) (s : State), s.runsNext k.val f = true → decodeStew f.w = none →
      srTH (s.steward k.val) = false →
    Gives (.trap k) s (Traps k.val 0x01 f f.addr s))
  ∧ (∀ (k : Fin 9) (code : Nat) (f : Fetched) (s : State), s.stewardRuns k.val = true → breakAt k.val s = none →
      (fetchAt k.val (s.steward k.val).pc s).1 = .fails code f → srTH (s.steward k.val) = false →
    Gives (.trap k) s (fun t => (code = 0x06 ∨ code = 0x07) ∧ Traps k.val code f f.addr s t))
  ∧ (∀ (k : Fin 9) (f : Fetched) (c : Instr) (code : Nat) (s : State), s.runsNext k.val f = true →
      srTH (s.steward k.val) = false →
      (c, f.w, code) ∈ [(Instr.brk k, 0x01000#20, 0x03), (.lpop k, 0x01400#20, 0x05)] →
      s.flag (stewKey k.val) Reg.STW_CTL_BRK_DBG = false → srLD (s.steward k.val) = 0 →
    Gives c s (Traps k.val code f f.addr s))
  ∧ (∀ (k : Fin 9) (f : Fetched) (s : State), s.runsNext k.val f = true → bits f.w 19 15 = 23 →
      srTH (s.steward k.val) = false → (f.ext.toNat < 2 ∨ srLD (s.steward k.val) = 3) →
    Gives (.loopOpen k) s (Traps k.val (if f.ext.toNat < 2 then 0x01 else 0x04) f f.addr s))
  ∧ (∀ (k : Fin 9) (f : Fetched) (s : State), s.runsNext k.val f = true → bits f.w 19 10 = 0x007 → bits f.w 9 6 = 0 →
      srTH (s.steward k.val) = true →
    Gives (.trap k) s (fun t => (t.steward k.val).mode = .lockup ∧ (t.steward k.val).pc = f.addr
      ∧ t.flag (stewKey k.val) Reg.STW_STAT_LOCKED = true ∧ t.banks = s.banks ∧ RegsAre k.val 0 0 s t))
  ∧ (∀ (k : Fin 9) (s : State), s.stewardUp k.val = true → s.flag (stewKey k.val) Reg.STW_CTL_RUN = false →
    Gives (.stewardStart k) s (fun t => (t.steward k.val).mode = .running ∧ (t.steward k.val).load = none
      ∧ (t.steward k.val).pc = s.reg (stewKey k.val + Reg.STW_START) ∧ t.flag (stewKey k.val) Reg.STW_CTL_RUN = true))
  ∧ (∀ (k : Fin 9) (s : State), s.stewardUp k.val = true → s.flag (stewKey k.val) Reg.STW_CTL_RUN = true →
      (s.steward k.val).mode ≠ .lockup → (s.steward k.val).load = none →
    Gives (.stewardStop k) s (fun t => (t.steward k.val).mode = .stopped ∧ t.flag (stewKey k.val) Reg.STW_CTL_RUN = false
      ∧ (t.steward k.val).w = (s.steward k.val).w))
  ∧ (∀ (k : Fin 9) (s : State), s.stewardUp k.val = true → (s.steward k.val).mode.runs = true →
      (s.steward k.val).load = none → (s.steward k.val).stopDue = false →
    Gives (.stewardHalt k) s (fun t => (t.steward k.val).mode = .halted ∧ (t.steward k.val).rsv = none
      ∧ t.get (stewKey k.val) Reg.STW_STAT_HCAUSE = 1 ∧ (t.steward k.val).w = (s.steward k.val).w))
  ∧ (∀ (k : Fin 9) (s : State), s.stewardRuns k.val = true → (s.steward k.val).load = none →
      (s.steward k.val).skipBreak = false → s.flag (stewKey k.val) Reg.STW_CTL_BKP0_EN = true →
      s.reg (stewKey k.val + Reg.STW_BKP0) = (s.steward k.val).pc →
    Gives (.breakpointHalt k) s (fun t => (t.steward k.val).mode = .halted ∧ (t.steward k.val).rsv = none
      ∧ t.get (stewKey k.val) Reg.STW_STAT_HCAUSE = 3 ∧ (t.steward k.val).pc = (s.steward k.val).pc))
  ∧ (∀ (k : Fin 9) (c : Instr) (step : Bool) (s : State), s.stewardUp k.val = true →
      (s.steward k.val).mode = .halted → (c, step) ∈ [(Instr.stewardResume k, false), (.stewardStep k, true)] →
    Gives c s (fun t => t = s.setSteward k.val
      { s.steward k.val with
        mode := .running, skipBreak := true, stepping := step || (s.steward k.val).stepping }))
  ∧ (∀ (k : Fin 9) (value : Word) (s : State), s.stewardUp k.val = true → (s.steward k.val).mode.runs = false →
      s.flag (stewKey k.val) Reg.STW_RSEL_CR = false →
    Gives (.stewardRegisterWrite k value) s (fun t =>
      (∀ r : Nat, r < 16 → wreg (t.steward k.val) r =
          if r ≠ 0 ∧ r = s.get (stewKey k.val) Reg.STW_RSEL_NUM % 16 then value else wreg (s.steward k.val) r)
        ∧ t.regs = s.regs ∧ t.banks = s.banks))
  ∧ (∀ (k : Fin 9) (value : Word) (s : State), s.stewardUp k.val = true → (s.steward k.val).mode.runs = true →
    exec (.stewardRegisterWrite k value) s = .next (s.put (stewKey k.val) Reg.STW_STAT_BAD 1))

/-- A half that boots clears its banks, loads the accepted image of the slot that PREF names into its instruction memory, and its
first steward runs at ENTRY with SR 0, w15 = 0x8_0000 and w1 = BOOT_INFO; unconfirmed, TRIES counts. With no slot accepted the
steward waits in the ROM. A write of PREF clears CONFIRMED and TRIES. A flash operation that is not refused joins its port's
queue; done, a READ is in data memory, a PROGRAM in the flash, an ERASE has set its sector to 0xFF, a VERIFY has its outcome. A
VC load stops the VC, and an accepted image runs at its ENTRY; a rejected one leaves LOADED 0. -/
def Obligations.HalvesBootTheirImages : Prop :=
  (∀ (h : Half) (reads0 reads1 readsVc : Bool) (slot base : Nat) (i : Image) (s : State), (s.half h).inReset = false →
      (s.half h).booting = true → s.vcDue = false → slot = s.get (bootKey h) Reg.BOOT_SEL_PREF →
      (s.flag (bootKey h) Reg.BOOT_SEL_CONFIRMED = true ∨ s.get (bootKey h) Reg.BOOT_SEL_TRIES < 2) →
      base = slotBase slot false → i = s.imageAt h.num base →
      s.imageCheck h.num base false (if slot = 0 then reads0 else reads1) = St.OK →
    Gives (.halfBoot h reads0 reads1 readsVc) s (fun t =>
      (t.half h).booting = false ∧ t.get (bootKey h) Reg.BOOT_SEL_LAST = slot
        ∧ (t.steward (4 * h.num)).mode = .running ∧ (t.steward (4 * h.num)).pc = BitVec.ofNat 20 i.entry
        ∧ creg (t.steward (4 * h.num)) crSR = 0 ∧ wreg (t.steward (4 * h.num)) 15 = 0x80000
        ∧ wreg (t.steward (4 * h.num)) 1 = t.reg (halfKey h + Reg.BOOT_INFO)
        ∧ t.get (halfKey h) Reg.BOOT_INFO_SLOT = slot
        ∧ (∀ j : Nat, j < i.nwords → (s.imageWords h.num base)[j]? = some (t.imemWord h (i.start + j)))
        ∧ (∀ a : Nat, a < 0x80000 → t.bank h a = 0)
        ∧ (s.flag (bootKey h) Reg.BOOT_SEL_CONFIRMED = false →
            t.get (bootKey h) Reg.BOOT_SEL_TRIES = s.get (bootKey h) Reg.BOOT_SEL_TRIES + 1)))
  ∧ (∀ (h : Half) (reads0 reads1 readsVc : Bool) (s : State), (s.half h).inReset = false →
      (s.half h).booting = true →
      s.imageCheck h.num (slotBase 0 false) false reads0 ≠ St.OK →
      s.imageCheck h.num (slotBase 1 false) false reads1 ≠ St.OK →
    Gives (.halfBoot h reads0 reads1 readsVc) s (fun t =>
      (t.half h).romWait = true ∧ (t.steward (4 * h.num)).mode = .waiting ∧ srIE (t.steward (4 * h.num)) = false
        ∧ t.get (bootKey h) Reg.BOOT_SEL_LAST = s.get (bootKey h) Reg.BOOT_SEL_LAST ∧ t.flash = s.flash))
  ∧ (∀ (h : Half) (pref : Fin 2) (s : State),
    Gives (.bootPrefWrite h pref) s (fun t =>
      t.get (bootKey h) Reg.BOOT_SEL_PREF = pref.val ∧ t.flag (bootKey h) Reg.BOOT_SEL_CONFIRMED = false
        ∧ t.get (bootKey h) Reg.BOOT_SEL_TRIES = 0 ∧ t.get (bootKey h) Reg.BOOT_SEL_LAST = s.get (bootKey h) Reg.BOOT_SEL_LAST))
  ∧ (∀ (h : Half) (cross : Bool) (c : Instr) (op key f : Nat) (o : FlashOp) (s : State), s.computes h = true →
      (c, op) ∈ [(Instr.flashRead h cross, 0), (.flashProgram h cross, 1), (.flashErase h cross, 2),
        (.flashVerify h cross, 3)] →
      key = bfKey h cross → f = (if cross = true then h.other else h).num →
      o = ⟨if cross = true then .cross h else .own h, op, s.wide (key + Reg.BF_ADDR) 2 % 0x1000000,
        s.get key Reg.BF_LEN_LEN + 1, s.get key Reg.BF_DST_DST, []⟩ →
    Gives c s (fun t =>
      (s.flashRefusal o f = none →
        t.flashQueue f = s.flashQueue f ++ [o] ∧ t.flag key Reg.BF_ST_BUSY = true ∧ t.flag key Reg.BF_ST_DONE = false)
      ∧ (s.flashRefusal o f ≠ none →
        t.flashOps = s.flashOps ∧ some (t.get key Reg.BF_ST_STATUS) = s.flashRefusal o f)
      ∧ t.flash = s.flash))
  ∧ (∀ (h : Half) (o : FlashOp) (rest : List FlashOp) (s : State),
      s.flashQueue h.num = o :: rest → o.src = .own h → o.op = 0 →
    Gives (.flashOperationDone ⟨h.num % 2, by omega⟩ true) s (fun t =>
      t.flashQueue h.num = rest ∧ t.get (bfKey h false) Reg.BF_ST_STATUS = St.OK
        ∧ t.flag (bfKey h false) Reg.BF_ST_DONE = true ∧ t.flag (bfKey h false) Reg.BF_ST_BUSY = false
        ∧ t.banks = (s.setBankRun h o.dst (packBytes (s.flashBytes h.num o.addr o.len))).banks ∧ t.flash = s.flash))
  ∧ (∀ (f : Fin 2) (reads : Bool) (o : FlashOp) (rest : List FlashOp) (s : State), s.flashQueue f.val = o :: rest →
      o.op = 1 →
    Gives (.flashOperationDone f reads) s (fun t =>
      t.flashQueue f.val = rest ∧ t.flash = (programFlash f.val o.addr (flashData o s).1 s).flash ∧ t.banks = s.banks))
  ∧ (∀ (f : Fin 2) (reads : Bool) (o : FlashOp) (rest : List FlashOp) (s : State), s.flashQueue f.val = o :: rest →
      o.op = 2 → o.addr < 0x200000 → o.addr % 4096 = 0 →
    Gives (.flashOperationDone f reads) s (fun t =>
      t.flashQueue f.val = rest ∧ t.banks = s.banks
        ∧ (∀ a : Nat, a < 0x1000000 →
            t.flashByte f.val a = if o.addr ≤ a ∧ a < o.addr + 4096 then 0xFF else s.flashByte f.val a)))
  ∧ (∀ (h : Half) (reads : Bool) (o : FlashOp) (rest : List FlashOp) (s : State),
      s.flashQueue h.num = o :: rest → o.src = .own h → o.op = 3 →
    Gives (.flashOperationDone ⟨h.num % 2, by omega⟩ reads) s (fun t =>
      t.get (bfKey h false) Reg.BF_ST_STATUS = s.verifySlot h.num (o.addr / 0x100000) reads
        ∧ t.flag (bfKey h false) Reg.BF_ST_DONE = true ∧ t.flash = s.flash ∧ t.banks = s.banks))
  ∧ (∀ (flash slot : Fin 2) (s : State),
    Gives (.vcLoad flash slot) s (fun t =>
      if s.vcLoading.isSome = true then t = s.put oneKey Reg.VC_STAT_STATUS St.BUSY
      else t.vcLoading = some (flash.val, slot.val) ∧ t.flag oneKey Reg.VC_STAT_BUSY = true
        ∧ t.flag (stewKey 8) Reg.STW_CTL_RUN = false ∧ t.vmem = s.vmem))
  ∧ (∀ (reads : Bool) (f slot base : Nat) (i : Image) (s : State), s.vcLoading = some (f, slot) →
      base = slotBase slot true → i = s.imageAt f base → s.imageCheck f base true reads = St.OK →
    Gives (.vcLoadDone reads) s (fun t =>
      t.flag oneKey Reg.VC_STAT_LOADED = true ∧ t.get oneKey Reg.VC_STAT_STATUS = St.OK ∧ t.vcLoading = none
        ∧ t.vcSplit = i.split ∧ (t.steward 8).mode = .running ∧ (t.steward 8).pc = BitVec.ofNat 20 i.entry
        ∧ (∀ j : Nat, j < i.nwords → (s.imageWords f base)[j]? = some (tblGet t.vmem 0 j))))
  ∧ (∀ (reads : Bool) (f slot : Nat) (s : State), s.vcLoading = some (f, slot) →
      s.imageCheck f (slotBase slot true) true reads ≠ St.OK →
    Gives (.vcLoadDone reads) s (fun t =>
      t.flag oneKey Reg.VC_STAT_LOADED = false ∧ t.vcLoading = none ∧ (t.steward 8).mode = .stopped
        ∧ t.get oneKey Reg.VC_STAT_STATUS = s.imageCheck f (slotBase slot true) true reads))

/-- VACATE of X with Y healthy and not vacated takes the snapshot, unless one is held, and gives every seat and run-owner latch to
Y; with Y not healthy, or vacated itself, it is refused. RESTART and HOLD of a half that holds nothing put it in half reset:
restarted, it boots with cause 3, one that was held too; held, it stays until RELEASE; the other half is not reset. A half that
holds something is refused with ST_HALF_SEATED. RESTORE, with a snapshot and each half healthy to which it gives something,
returns seats and latches to the snapshot and clears it; else it is refused. After 1,000 ms without an envelope command the
session is over; a nonce ends 1 s after it was given, and the backoff 10 s after the eighth failure. -/
def Obligations.RollingUpdatesMoveSeatsAndHalves : Prop :=
  (∀ (x : Half) (s : State), s.healthy x.other = true → s.flag oneKey (vacFlag x.other) = false →
    Gives (.vacate x) s (fun t =>
      (∀ b : Fin 64, t.holder b.val = x.other) ∧ (∀ k : Fin 17, t.runner k.val = x.other)
        ∧ t.get oneKey Reg.RU_STAT_STATUS = St.OK ∧ t.flag oneKey (vacFlag x) = true
        ∧ t.flag oneKey Reg.RU_STAT_SNAP = true
        ∧ (s.flag oneKey Reg.RU_STAT_SNAP = false → t.wide (oneKey + Reg.RU_MAP) 4 = s.seats.toNat
            ∧ t.reg (oneKey + Reg.RU_LATCHES) = s.owners)))
  ∧ (∀ (x : Half) (s : State), s.healthy x.other = false →
    exec (.vacate x) s = .next (s.put oneKey Reg.RU_STAT_STATUS St.PARTNER_NOT_READY))
  ∧ (∀ (x : Half) (s : State), s.healthy x.other = true → s.flag oneKey (vacFlag x.other) = true →
    exec (.vacate x) s = .next (s.put oneKey Reg.RU_STAT_STATUS St.BUSY))
  ∧ (∀ (x : Half) (s : State), s.holdsNothing x = true → (s.half x).supplyOk = true →
      s.trefRuns = true → s.power.vaon = true → s.power.resetLow = false → s.power.mode = .run → s.power.testN = true →
    Gives (.restart x) s (fun t =>
      t.get oneKey Reg.RU_STAT_STATUS = St.OK ∧ (t.half x).inReset = false ∧ (t.half x).booting = true
        ∧ (t.half x).bootCause = 3 ∧ (t.half x).held = false ∧ t.flag oneKey (heldFlag x) = false
        ∧ (t.steward (4 * x.num)).mode = .running
        ∧ (t.steward (4 * x.num)).pc = 0xF0000#20 ∧ (t.half x.other).inReset = (s.half x.other).inReset
        ∧ (t.half x.other).booting = (s.half x.other).booting ∧ t.seats = s.seats))
  ∧ (∀ (x : Half) (s : State), s.holdsNothing x = true →
    Gives (.hold x) s (fun t =>
      t.get oneKey Reg.RU_STAT_STATUS = St.OK ∧ (t.half x).inReset = true ∧ (t.half x).held = true
        ∧ t.flag oneKey (heldFlag x) = true ∧ (t.half x.other).inReset = (s.half x.other).inReset
        ∧ (t.half x.other).booting = (s.half x.other).booting ∧ t.seats = s.seats))
  ∧ (∀ (x : Half) (c : Instr) (s : State), c ∈ [.restart x, .hold x] → s.holdsNothing x = false →
    exec c s = .next (s.put oneKey Reg.RU_STAT_STATUS St.HALF_SEATED))
  ∧ (∀ (x : Half) (s : State), (s.half x).held = true → (s.half x).inReset = true → (s.half x).supplyOk = true →
      s.trefRuns = true → s.power.vaon = true → s.power.resetLow = false → s.power.mode = .run → s.power.testN = true →
    Gives (.release x) s (fun t =>
      t.get oneKey Reg.RU_STAT_STATUS = St.OK ∧ (t.half x).held = false ∧ (t.half x).inReset = false
        ∧ (t.half x).booting = true ∧ t.flag oneKey (heldFlag x) = false))
  ∧ (∀ (x : Half) (s : State), (s.half x).held = false →
    exec (.release x) s = .next (s.put oneKey Reg.RU_STAT_STATUS St.BAD_PARAM))
  ∧ (∀ s : State, s.flag oneKey Reg.RU_STAT_SNAP = true →
      (∀ h : Half, s.mapGives h = true → s.healthy h = true) →
    Gives .restore s (fun t =>
      (∀ b : Fin 64, t.holder b.val = Half.ofBit ((s.wide (oneKey + Reg.RU_MAP) 4).testBit b.val))
        ∧ (∀ k : Fin 17, t.runner k.val = Half.ofBit ((s.reg (oneKey + Reg.RU_LATCHES)).getLsbD k.val))
        ∧ t.get oneKey Reg.RU_STAT_STATUS = St.OK ∧ t.flag oneKey Reg.RU_STAT_SNAP = false
        ∧ t.flag oneKey Reg.RU_STAT_VAC_A = false ∧ t.flag oneKey Reg.RU_STAT_VAC_B = false))
  ∧ (∀ (h : Half) (s : State),
      (s.flag oneKey Reg.RU_STAT_SNAP = false ∨ (s.mapGives h = true ∧ s.healthy h = false)) →
    exec .restore s = .next (s.put oneKey Reg.RU_STAT_STATUS St.PARTNER_NOT_READY))
  ∧ (∀ s : State, s.envLock.last + 200000000 ≤ s.tref →
    exec .envelopeSessionExpiry s = .next (s.put oneKey Reg.ENV_STAT_OPEN 0))
  ∧ (∀ (path : Fin 4098) (s : State), tblGet s.envLock.issued 0 path.val + 200000000 ≤ s.tref →
    exec (.nonceExpiry path) s =
      .next { s with envLock := { s.envLock with nonces := tblDel s.envLock.nonces path.val } })
  ∧ (∀ s : State, s.envLock.backoffAt + 2000000000 ≤ s.tref →
    exec .envelopeBackoffEnd s = .next (s.put oneKey Reg.ENV_STAT_BACKOFF 0))

/-- A running steward that is offered a source accepts it: the source is active, its pulse latch clears, the running priority is
its level, and the steward enters vector 16 + level with IE 0. WAIT completes at an offer, and the offer is accepted where IE
is 1. An EOI of the source on top of the steward's stack ends it and restores the running priority; another sets EOI_BAD. A
software interrupt latches the named sources of the half; a bell latches the VC's. A software event reaches every consumer
that takes it. A pulse on a general output ends after its time, or, in SLEEP, at once. -/
def Obligations.InterruptsAreOfferedAcceptedAndEnded : Prop :=
  (∀ (k : Fin 8) (c : Nat) (s : State), (s.steward k.val).mode = .running → s.mayAccept k.val = true →
      s.offerTo k.val = some c →
    Gives (.interruptAccept k) s (fun t =>
      t.irqActive (stewHalf k.val) c = true
        ∧ (isPulse c = true → (t.half (stewHalf k.val)).latched.contains c = false)
        ∧ (t.steward k.val).runPri = s.irqLevel (stewHalf k.val) c
        ∧ (t.steward k.val).stack = ((s.steward k.val).runPri, c) :: (s.steward k.val).stack
        ∧ (t.steward k.val).pc = creg (s.steward k.val) crVBASE
            + BitVec.ofNat 20 (4 * (16 + s.irqLevel (stewHalf k.val) c))
        ∧ srIE (t.steward k.val) = false ∧ srTH (t.steward k.val) = srTH (s.steward k.val)
        ∧ (t.steward k.val).rsv = none ∧ wreg (t.steward k.val) 15 = wreg (s.steward k.val) 15 - 2
        ∧ (2 ≤ (wreg (s.steward k.val) 15).toNat → (wreg (s.steward k.val) 15).toNat ≤ 0x80000 →
            t.bank (stewHalf k.val) ((wreg (s.steward k.val) 15).toNat - 2) = (s.steward k.val).pc)))
  ∧ (∀ (k : Fin 8) (c : Nat) (s : State), (s.steward k.val).mode = .waiting → s.mayAccept k.val = true →
      s.offerTo k.val = some c → srIE (s.steward k.val) = false → srLD (s.steward k.val) = 0 →
      (s.steward k.val).stepping = false →
    Gives (.waitEnd k) s (fun t =>
      (t.steward k.val).mode = .running ∧ (t.steward k.val).pc = (s.steward k.val).pc + 1
        ∧ t.irqActive (stewHalf k.val) c = s.irqActive (stewHalf k.val) c
        ∧ (t.steward k.val).stack = (s.steward k.val).stack ∧ t.banks = s.banks))
  ∧ (∀ (k : Fin 8) (c : Nat) (s : State), (s.steward k.val).mode = .waiting → s.mayAccept k.val = true →
      s.offerTo k.val = some c → srIE (s.steward k.val) = true → srLD (s.steward k.val) = 0 →
      (s.steward k.val).stepping = false → 2 ≤ (wreg (s.steward k.val) 15).toNat →
      (wreg (s.steward k.val) 15).toNat ≤ 0x80000 →
    Gives (.waitEnd k) s (fun t =>
      (t.steward k.val).mode = .running ∧ t.irqActive (stewHalf k.val) c = true
        ∧ (t.steward k.val).pc = creg (s.steward k.val) crVBASE
            + BitVec.ofNat 20 (4 * (16 + s.irqLevel (stewHalf k.val) c))
        ∧ t.bank (stewHalf k.val) ((wreg (s.steward k.val) 15).toNat - 2) = (s.steward k.val).pc + 1))
  ∧ (∀ (h : Half) (k : Fin 4) (src : BitVec 9) (p : Nat) (rest : List (Nat × Nat)) (s : State), s.computes h = true →
      (s.steward (4 * h.num + k.val)).stack = (p, src.toNat) :: rest →
    Gives (.endOfInterrupt h k src) s (fun t =>
      t.irqActive h src.toNat = false ∧ (t.steward (4 * h.num + k.val)).stack = rest
        ∧ (t.steward (4 * h.num + k.val)).runPri = p ∧ t.regs = s.regs))
  ∧ (∀ (h : Half) (k : Fin 4) (src : BitVec 9) (s : State), s.computes h = true →
      ((s.steward (4 * h.num + k.val)).stack.head?.map Prod.snd) ≠ some src.toNat →
    exec (.endOfInterrupt h k src) s = .next (s.put (halfKey h) Reg.IC_STAT_EOI_BAD 1))
  ∧ (∀ (m : Master) (other : Bool) (set : BitVec 16) (h : Half) (s : State),
      h = (if other = true then (s.masterHalf m).other else s.masterHalf m) → (s.half h).inReset = false →
    Gives (.softwareInterrupt m other set) s (fun t =>
      (∀ i : Fin 16, (t.half h).latched.contains (448 + i.val)
          = (set.getLsbD i.val || (s.half h).latched.contains (448 + i.val)))
        ∧ t.half h.other = s.half h.other ∧ t.regs = s.regs))
  ∧ (∀ (k : Fin 8) (s : State), exec (.interruptSyncRead k) s = .next s)
  ∧ (∀ (pulse : BitVec 8) (i : Fin 8) (c : Nat) (s : State), s.power.mode = .run → pulse = BitVec.twoPow 8 i.val →
      104 ≤ c → c < 136 → (s.consumer c).en = true → (s.consumer c).enables.getLsbD (248 + i.val) = true →
      (s.consumer c).pend = false → (s.consumers.map Prod.fst).Nodup →
    Gives (.softwareEvent pulse) s (fun t =>
      (t.consumer c).pend = true ∧ (t.consumer c).drop = min 0xFFFFF (s.consumer c).drop))
  ∧ (∀ (p : Fin 32) (s : State), (s.consumer (72 + p.val)).busy = true →
      ((s.consumer (72 + p.val)).since + 8 * ((s.consumer (72 + p.val)).pw + 1) ≤ s.tref ∨ s.power.mode = .sleep) →
    exec (.gpoPulseEnd p) s = .next (s.setConsumer (72 + p.val)
      { s.consumer (72 + p.val) with busy := false, out := !(s.consumer (72 + p.val)).out }))
  ∧ (∀ (ring : BitVec 2) (s : State), (s.half .A).inReset = false → (s.half .B).inReset = false →
    Gives (.vcBell ring) s (fun t =>
      t.halfA.latched.contains 416 = (ring.getLsbD 0 || s.halfA.latched.contains 416)
        ∧ t.halfB.latched.contains 416 = (ring.getLsbD 1 || s.halfB.latched.contains 416) ∧ t.regs = s.regs))

/-- With its access acknowledged a test window is under test, with BUSY set and single errors of its words corrected; until then
it waits. Done, BUSY clears, TPOS advances, every word of the window has fresh check bits, words without an uncorrectable error
hold what they held, a failing cell is counted and its place recorded, and the last window counts a pass. A write of IM_D puts the word at IM_A in the
half's instruction memory with fresh check bits, and IM_A advances. A write of VM_D does so in Vigil memory, but in the code of
a loaded VC it is refused and only VM_A advances. No test and no write to one memory changes another. -/
def Obligations.MemoryWindowsAndTestsTakeEffect : Prop :=
  (∀ (h : Half) (s : State), s.computes h = true → s.trefRuns = true → s.flag (halfKey h) Reg.MC_CTL_TST_EN = true →
      s.flag (halfKey h) Reg.MC_STAT_TST_BUSY = false → (s.access h actTest 0).isSome = true →
    Gives (.testWindow h) s (fun t =>
      t.flag (halfKey h) Reg.MC_STAT_TST_BUSY = true ∧ t.banks = s.banks ∧ t.imem = s.imem ∧ t.vmem = s.vmem
        ∧ (∀ a ∈ windowWords (s.get (halfKey h) Reg.MC_TPOS_WIN), tblGet t.bankMarks 0 (bankIx h a) ≠ 1)))
  ∧ (∀ (h : Half) (s : State), s.computes h = true → s.trefRuns = true → s.flag (halfKey h) Reg.MC_CTL_TST_EN = true →
      s.flag (halfKey h) Reg.MC_STAT_TST_BUSY = false → s.access h actTest 0 = none →
    exec (.testWindow h) s = .next (awaitAccess h actTest 0 s))
  ∧ (∀ (h : Half) (s : State), s.flag (halfKey h) Reg.MC_STAT_TST_BUSY = true →
    Gives (.testWindowDone h none) s (fun t =>
      t.flag (halfKey h) Reg.MC_STAT_TST_BUSY = false
        ∧ t.get (halfKey h) Reg.MC_TPOS_WIN = (s.get (halfKey h) Reg.MC_TPOS_WIN + 1) % 0x8000
        ∧ (t.reg (halfKey h + Reg.MC_CNT + 3)) = (s.reg (halfKey h + Reg.MC_CNT + 3))
        ∧ (t.reg (halfKey h + Reg.MC_CNT + 2)).toNat = min 0xFFFFF ((s.reg (halfKey h + Reg.MC_CNT + 2)).toNat
            + (if s.get (halfKey h) Reg.MC_TPOS_WIN = 0x7FFF then 1 else 0))
        ∧ (∀ i : Nat, tblGet s.bankMarks 0 i ≠ 2 → tblGet t.banks 0 i = tblGet s.banks 0 i)
        ∧ (∀ a ∈ windowWords (s.get (halfKey h) Reg.MC_TPOS_WIN), tblGet t.bankMarks 0 (bankIx h a) ≠ 2)))
  ∧ (∀ (h : Half) (bit : Fin 26) (s : State), s.flag (halfKey h) Reg.MC_STAT_TST_BUSY = true →
    Gives (.testWindowDone h (some bit)) s (fun t =>
      t.flag (halfKey h) Reg.MC_STAT_TST_FAIL = true ∧ t.flag (halfKey h) Reg.MC_STAT_TST_BUSY = false
        ∧ (t.reg (halfKey h + Reg.MC_CNT + 3)).toNat = min 0xFFFFF ((s.reg (halfKey h + Reg.MC_CNT + 3)).toNat + 1)
        ∧ (t.reg (halfKey h + Reg.MC_TFAIL)).toNat = (windowWords (s.get (halfKey h) Reg.MC_TPOS_WIN)).headD 0
        ∧ (t.reg (halfKey h + Reg.MC_TFAIL_BIT)).toNat = bit.val
        ∧ (∀ i : Nat, tblGet s.bankMarks 0 i ≠ 2 → tblGet t.banks 0 i = tblGet s.banks 0 i)))
  ∧ (∀ (h : Half) (w : Word) (a : Nat) (s : State), s.computes h = true → a = s.get (halfKey h) Reg.IM_A_ADDR →
    Gives (.instructionMemoryWrite h w) s (fun t =>
      t.imem = tblSet s.imem 0 (imemIx h a) w ∧ tblGet t.imemMarks 0 (imemIx h a) = 0
        ∧ t.get (halfKey h) Reg.IM_A_ADDR = (a + 1) % 0x40000 ∧ t.banks = s.banks ∧ t.vmem = s.vmem))
  ∧ (∀ (m : Master) (w : Word) (a : Nat) (s : State), a = s.get oneKey Reg.VM_A_ADDR →
    Gives (.vigilMemoryWrite m w) s (fun t =>
      t.get oneKey Reg.VM_A_ADDR = (a + 1) % 0x4000 ∧ t.banks = s.banks ∧ t.imem = s.imem
        ∧ (if s.flag oneKey Reg.VC_STAT_LOADED = true ∧ a < s.vcSplit then
            t.vmem = s.vmem ∧ (t.reg (halfKey (s.masterHalf m) + Reg.DEV_REFUSED)).toNat
              = min 0xFFFFF ((s.reg (halfKey (s.masterHalf m) + Reg.DEV_REFUSED)).toNat + 1)
          else t.vmem = tblSet s.vmem 0 a w ∧ tblGet t.vmemMarks 0 a = 0)))

/-- STATUS drives the status byte and changes nothing else. A PEEK drives the quick register's bytes and is counted. FETCH sends
the oldest reply, which leaves the queue once sent whole and can be sent again; ALARMS sends the oldest alarm likewise. LANES
with a valid pair of bytes sets the lane width, else it is refused with NAK and a count. A whole packet with a valid length,
CRC, free tag and room joins the queue; another is refused with its code. In SLEEP and DEEP every transaction but STATUS is
refused and asks for RUN. A queued local command starts when none executes, the reply queue has room and its half's access of
HOST is acknowledged; one that its path refuses is answered so. -/
def Obligations.TransactionsAnswerAndQueue : Prop :=
  (∀ (p : Fin 2) (n : Nat) (s : State), s.portAlive = true →
    exec (.status p n) s = .next (s.setPort p.val
      { s.port p.val with out := List.replicate (n + 1) (s.statusByte p.val) }))
  ∧ (∀ (p : Fin 2) (q : Byte) (s : State), s.portAlive = true → s.asleep = false →
    Gives (.peek p (some q) 5) s (fun t =>
      (t.port p.val).out
          = (if s.quad p.val = true then [s.statusByte p.val] else [s.statusByte p.val, s.statusByte p.val]) ++ s.peekBytes p q
        ∧ (t.port p.val).nak = false
        ∧ (t.reg (portKey p.val + Reg.CP_CNT + 8)).toNat = min 0xFFFFF ((s.reg (portKey p.val + Reg.CP_CNT + 8)).toNat + 1)
        ∧ (t.port p.val).queue = (s.port p.val).queue ∧ (t.port p.val).replies = (s.port p.val).replies))
  ∧ (∀ (p : Fin 2) (host r : List Byte) (rest : List (List Byte)) (s : State), s.portAlive = true → s.asleep = false →
      (s.port p.val).replies = r :: rest → r.length = host.length →
    Gives (.fetch p host) s (fun t =>
      (t.port p.val).out = s.statusByte p.val :: r ∧ (t.port p.val).replies = rest
        ∧ (t.port p.val).removed = some r ∧ (t.port p.val).nak = false ∧ t.regs = s.regs))
  ∧ (∀ (p : Fin 2) (host r : List Byte) (rest : List (List Byte)) (s : State), s.portAlive = true → s.asleep = false →
      (s.port p.val).replies = r :: rest → host.length < r.length →
    Gives (.fetch p host) s (fun t =>
      (t.port p.val).out = s.statusByte p.val :: r.take host.length
        ∧ (t.port p.val).replies = (s.port p.val).replies ∧ (t.port p.val).removed = (s.port p.val).removed))
  ∧ (∀ (p : Fin 2) (host r : List Byte) (s : State), s.portAlive = true → s.asleep = false →
      (s.port p.val).removed = some r → r.length = host.length →
    Gives (.refetch p host) s (fun t =>
      (t.port p.val).out = s.statusByte p.val :: r ∧ (t.port p.val).replies = (s.port p.val).replies
        ∧ (t.port p.val).removed = some r ∧ t.regs = s.regs))
  ∧ (∀ (p : Fin 2) (host r : List Byte) (rest : List (List Byte)) (s : State), s.portAlive = true → s.asleep = false →
      (s.port p.val).alarms = r :: rest → r.length = host.length →
    Gives (.alarms p host) s (fun t =>
      (t.port p.val).out = s.statusByte p.val :: r ∧ (t.port p.val).alarms = rest ∧ (t.port p.val).dropped = false
        ∧ (t.port p.val).replies = (s.port p.val).replies ∧ t.regs = s.regs))
  ∧ (∀ (p : Fin 2) (m : Byte) (s : State), s.portAlive = true → s.asleep = false → (m = 1 ∨ m = 4) →
    Gives (.lanes p [m, m ^^^ 0xFF]) s (fun t =>
      t.quad p.val = decide (m = 4) ∧ (t.port p.val).nak = false ∧ (t.port p.val).queue = (s.port p.val).queue))
  ∧ (∀ (p : Fin 2) (m c : Byte) (s : State), s.portAlive = true → s.asleep = false → ¬ ((m = 1 ∨ m = 4) ∧ c = m ^^^ 0xFF) →
    Gives (.lanes p [m, c]) s (fun t =>
      t.quad p.val = s.quad p.val ∧ (t.port p.val).nak = true ∧ (t.port p.val).lastSt = St.BAD_PARAM
        ∧ t.flag (portKey p.val) Reg.CP_STAT_REFUSED = true))
  ∧ (∀ (p : Fin 2) (b : List Byte) (c : Cmd) (s : State), s.portAlive = true → 0x10 ≤ payloadField b 0 1 →
      payloadField b 0 1 ≠ 0xFF → b.length = packetNeed b → s.packetRefusal p.val b b.length = none →
      parseCmd none b = some c →
    Gives (.packetTaken p b false) s (fun t =>
      (t.port p.val).queue = (s.port p.val).queue ++ [c] ∧ (t.port p.val).nak = false
        ∧ (t.reg (portKey p.val + Reg.CP_CNT)).toNat = min 0xFFFFF ((s.reg (portKey p.val + Reg.CP_CNT)).toNat + 1)))
  ∧ (∀ (p : Fin 2) (b : List Byte) (st : Nat) (s : State), s.portAlive = true → s.asleep = false →
      0x10 ≤ payloadField b 0 1 → payloadField b 0 1 ≠ 0xFF → s.packetRefusal p.val b b.length = some st →
      0 < b.length →
    Gives (.packetTaken p b false) s (fun t =>
      (t.port p.val).queue = (s.port p.val).queue ∧ (t.port p.val).nak = true ∧ (t.port p.val).lastSt = st
        ∧ t.flag (portKey p.val) Reg.CP_STAT_REFUSED = true))
  ∧ (∀ (p : Fin 2) (q : Option Byte) (n : Nat) (b host : List Byte) (c : Instr) (s : State), s.portAlive = true →
      s.asleep = true → c ∈ [.peek p q n, .fetch p host, .refetch p host, .alarms p host, .lanes p b] →
    Gives c s (fun t =>
      (t.port p.val).out = [s.statusByte p.val] ∧ (t.port p.val).nak = true ∧ (t.port p.val).lastSt = St.ASLEEP
        ∧ (t.port p.val).replies = (s.port p.val).replies ∧ (t.port p.val).alarms = (s.port p.val).alarms))
  ∧ (∀ (p : Fin 3) (c : Cmd) (rest : List Cmd) (h : Half) (s u : State), s.power.mode = .run →
      (s.port p.val).queue = c :: rest → s.isLocal p.val c = true → s.mayStart p.val = true → h = s.cmdHalf p.val c →
      (if s.computes h = true then s.access h actHost 0 else some s) = some u → s.pathRefusal p.val c = none →
      c.op ≠ 0x60 → c.op ≠ 0x61 → c.op ≠ 0x22 →
    exec (.commandStart p) s = .next (u.setPort p.val
      { s.port p.val with queue := rest, exec := some c, begun := false, result := none }))
  ∧ (∀ (p : Fin 3) (c : Cmd) (rest : List Cmd) (st : Nat) (h : Half) (s u : State), s.power.mode = .run →
      (s.port p.val).queue = c :: rest → s.isLocal p.val c = true → s.mayStart p.val = true → h = s.cmdHalf p.val c →
      (if s.computes h = true then s.access h actHost 0 else some s) = some u →
      s.pathRefusal p.val c = some st → c.origin = none →
    Gives (.commandStart p) s (fun t =>
      (t.port p.val).queue = rest ∧ (t.port p.val).exec = none
        ∧ (t.port p.val).replies = (s.port p.val).replies ++ [replyBytes c st []] ∧ t.regs = u.regs))

/-- Each general command that its port executes is answered in a reply with its status and results. NOP echoes up to 64 bytes;
IDENT says what the device is; REG_READ and REG_WRITE access a run of registers, MEM_READ and MEM_WRITE one of bank words;
SEAT_MOVE and BLOCK_MOVE give bays and blocks to a healthy half; PROFILE, ARC_READ, ARC_FIND, ARC_NEXT and MET_CMD begin an
operation and answer with its outcome, a MET_CMD of no listed CMD at once; TALK records a request; FLUSH seals the open bushels of its scope; ARC_FORMAT asks for a
format of a disabled archive; TIME_SET sets the time of a root; MET_RECORD sends the record last received. -/
def Obligations.HostCommandsAnswer : Prop :=
  (∀ (p : Fin 3) (c : Cmd) (s : State), s.executes p.val c 0x10 = true →
    Gives (.cmdNop p) s (fun t =>
      Answers p.val c (if (cmdParams c).length ≤ 64 then St.OK else St.BAD_PARAM)
        (if (cmdParams c).length ≤ 64 then cmdParams c else []) s t ∧ t.regs = s.regs))
  ∧ (∀ (p : Fin 3) (c : Cmd) (s : State), s.executes p.val c 0x11 = true → cmdParams c = [] →
    Gives (.cmdIdent p) s (fun t => Answers p.val c St.OK (s.identBytes p) s t ∧ t.regs = s.regs))
  ∧ (∀ (p : Fin 3) (c : Cmd) (v : Option Half) (a n : Nat) (s : State), s.executes p.val c 0x12 = true →
      regArgs (cmdParams c) = some (v, a, n) → (cmdParams c).length = 6 → s.computes (s.cmdHalf p.val c) = true →
    exec (.cmdRegRead p) s
      = .next (endCmd p.val St.OK (wordBytes (readSeq (.port p) v a n s).1) (readSeq (.port p) v a n s).2))
  ∧ (∀ (p : Fin 3) (c : Cmd) (v : Option Half) (a n : Nat) (l : List Word) (s : State), s.executes p.val c 0x13 = true →
      regArgs (cmdParams c) = some (v, a, n) → 6 ≤ (cmdParams c).length → byteWords ((cmdParams c).drop 6) = some l →
      l.length = n → s.regRefusal p false v a l = none → s.computes (s.cmdHalf p.val c) = true →
    exec (.cmdRegWrite p) s = .next (endCmd p.val St.OK [] (writeSeq (.port p) v a l s)))
  ∧ (∀ (p : Fin 3) (c : Cmd) (v : Option Half) (a n st : Nat) (l : List Word) (s : State),
      s.executes p.val c 0x13 = true → regArgs (cmdParams c) = some (v, a, n) → 6 ≤ (cmdParams c).length →
      byteWords ((cmdParams c).drop 6) = some l → l.length = n → s.regRefusal p false v a l = some st →
    Gives (.cmdRegWrite p) s (fun t => Answers p.val c st [] s t ∧ t.regs = s.regs))
  ∧ (∀ (p : Fin 3) (c : Cmd) (h : Half) (a n : Nat) (s : State), s.executes p.val c 0x14 = true →
      memArgs (cmdParams c) = some (h, a, n) → (cmdParams c).length = 6 → s.computes h = true →
      (∀ i : Fin 1024, i.val < n → tblGet s.bankMarks 0 (bankIx h (a + i.val)) = 0) →
    Gives (.cmdMemRead p) s (fun t =>
      Answers p.val c St.OK (wordBytes ((List.range n).map (fun i => s.bank h (a + i)))) s t
        ∧ t.banks = s.banks ∧ t.regs = s.regs))
  ∧ (∀ (p : Fin 3) (c : Cmd) (h : Half) (a n : Nat) (l : List Word) (s : State), s.executes p.val c 0x15 = true →
      memArgs (cmdParams c) = some (h, a, n) → 6 ≤ (cmdParams c).length → byteWords ((cmdParams c).drop 6) = some l →
      l.length = n → s.computes h = true →
    Gives (.cmdMemWrite p) s (fun t =>
      Answers p.val c St.OK [] s t ∧ (∀ i : Fin 1024, i.val < n → some (t.bank h (a + i.val)) = l[i.val]?)
        ∧ t.imem = s.imem ∧ t.vmem = s.vmem))
  ∧ (∀ (p : Fin 3) (c : Cmd) (bay : Fin 64) (h : Half) (s : State), s.executes p.val c 0x20 = true →
      cmdParams c = [BitVec.ofNat 8 bay.val, BitVec.ofNat 8 h.num] → s.holder bay.val = h.other → s.healthy h = true →
    Gives (.cmdSeatMove p) s (fun t =>
      Answers p.val c St.OK (bigEndian 8 t.seats.toNat) s t ∧ t.holder bay.val = h
        ∧ (∀ b : Fin 64, b ≠ bay → t.holder b.val = s.holder b.val)
        ∧ (t.reg (oneKey + Reg.REF_CAUSE)).toNat = 256 * bay.val + 16 * h.other.num + 5))
  ∧ (∀ (p : Fin 3) (c : Cmd) (bay : Fin 64) (h : Half) (s : State), s.executes p.val c 0x20 = true →
      cmdParams c = [BitVec.ofNat 8 bay.val, BitVec.ofNat 8 h.num] → s.holder bay.val = h.other → s.healthy h = false →
    Gives (.cmdSeatMove p) s (fun t =>
      Answers p.val c St.PARTNER_NOT_READY [] s t ∧ t.seats = s.seats ∧ t.regs = s.regs))
  ∧ (∀ (p : Fin 3) (c : Cmd) (mask : BitVec 17) (h : Half) (s : State), s.executes p.val c 0x21 = true →
      cmdParams c = bigEndian 3 mask.toNat ++ [BitVec.ofNat 8 h.num] → s.healthy h = true →
    Gives (.cmdBlockMove p) s (fun t =>
      Answers p.val c St.OK (wordBytes [t.owners]) s t
        ∧ (∀ k : Fin 17, t.runner k.val = if mask.getLsbD k.val = true then h else s.runner k.val)))
  ∧ (∀ (p : Fin 3) (c : Cmd) (acked : Bool) (target : Fin 3) (s : State), s.executes p.val c 0x23 = true →
      cmdParams c = [BitVec.ofNat 8 target.val] → s.computes (s.cmdHalf p.val c) = true →
      s.flag (halfKey (s.runner (blkTw 7))) Reg.PRF_STAT_BUSY = false → profileOf target.val = s.profile →
    Gives (.cmdProfile p acked) s (fun t => Answers p.val c St.OK [] s t ∧ t.profile = s.profile))
  ∧ (∀ (p : Fin 3) (c : Cmd) (acked : Bool) (target : Fin 3) (s : State), s.executes p.val c 0x23 = true →
      cmdParams c = [BitVec.ofNat 8 target.val] → s.computes (s.cmdHalf p.val c) = true →
      s.flag (halfKey (s.runner (blkTw 7))) Reg.PRF_STAT_BUSY = false → profileOf target.val ≠ s.profile →
      s.flag oneKey Reg.TW7_PMB_EN = true → (knowModes s).flag oneKey Reg.TW7_PMB_BADMODE = false →
      (s.port p.val).result = none →
    Gives (.cmdProfile p acked) s (fun t =>
      t.profileTarget = some (profileOf target.val) ∧ (t.port p.val).exec = some c ∧ (t.port p.val).begun = true
        ∧ (t.port p.val).replies = (s.port p.val).replies ∧ t.pmbus.acked = acked))
  ∧ (∀ (p : Fin 3) (c : Cmd) (r : Fin 1024) (op : Fin 16) (arg : BitVec 12) (h : Half) (s : State),
      s.executes p.val c 0x30 = true →
      cmdParams c = bigEndian 2 r.val ++ [BitVec.ofNat 8 op.val] ++ bigEndian 2 arg.toNat →
      s.computes (s.cmdHalf p.val c) = true → op.val ≠ 5 → (s.slot (s.holder (r.val / 16)) r.val).talk = none →
      h = s.holder (r.val / 16) → s.computes h = true →
    Gives (.cmdTalk p) s (fun t =>
      Answers p.val c St.OK [] s t ∧ t.flag (termKey h r.val) Reg.TS_TALK_ST_BUSY = true
        ∧ ((t.slot h r.val).talk.map (fun x => (x.op, x.arg, x.host))) = some (op.val, arg.toNat, true)))
  ∧ (∀ (p : Fin 3) (c : Cmd) (chan : Fin 16512) (s : State), s.executes p.val c 0x31 = true →
      cmdParams c = 0 :: bigEndian 2 chan.val →
      (flushHalf 0 chan.val .B (flushHalf 0 chan.val .A s)).flushWaits 0 chan.val = false →
    Gives (.cmdFlush p) s (fun t =>
      Answers p.val c St.OK [] s t
        ∧ ((match chanBay chan.val with | some n => s.orphaned n | none => false) = false →
            t.openBushel (s.chanHome chan.val) chan.val = none)))
  ∧ (∀ (p : Fin 3) (c : Cmd) (o n : Nat) (s : State), s.executes p.val c 0x40 = true → o < 2 ^ 40 → 1 ≤ n → n ≤ 4064 →
      cmdParams c = bigEndian 5 o ++ bigEndian 2 n → s.computes (s.cmdHalf p.val c) = true → s.arcCommits = true →
      (s.port p.val).result = none →
    Gives (.cmdArcRead p) s (fun t =>
      t.archive.requests = s.archive.requests ++ [⟨.port p.val, 0, o, n - 1, 0, 0⟩]
        ∧ (t.port p.val).exec = some c ∧ (t.port p.val).begun = true ∧ t.regs = s.regs))
  ∧ (∀ (p : Fin 3) (c : Cmd) (chan : Fin 16512) (origin : Fin 5) (ns : Nat) (s : State), s.executes p.val c 0x41 = true →
      ns < 2 ^ 60 → cmdParams c = bigEndian 2 chan.val ++ [BitVec.ofNat 8 origin.val] ++ bigEndian 8 ns →
      s.computes (s.cmdHalf p.val c) = true → s.arcCommits = true → (s.port p.val).result = none →
    Gives (.cmdArcFind p) s (fun t =>
      t.archive.requests = s.archive.requests ++ [⟨.port p.val, 1, ns, chan.val, origin.val, 0⟩]
        ∧ (t.port p.val).exec = some c ∧ (t.port p.val).begun = true ∧ t.regs = s.regs))
  ∧ (∀ (p : Fin 3) (c : Cmd) (o : Nat) (s : State), s.executes p.val c 0x42 = true → o < 2 ^ 40 →
      cmdParams c = bigEndian 5 o → s.computes (s.cmdHalf p.val c) = true → s.arcCommits = true →
      (s.port p.val).result = none →
    Gives (.cmdArcNext p) s (fun t =>
      t.archive.requests = s.archive.requests ++ [⟨.port p.val, 2, o, 0, 0, 0⟩]
        ∧ (t.port p.val).exec = some c ∧ (t.port p.val).begun = true ∧ t.regs = s.regs))
  ∧ (∀ (p : Fin 3) (c : Cmd) (i : Instr) (st : Nat) (b : List Byte) (s : State), (s.port p.val).exec = some c →
      c.origin = none → (s.port p.val).begun = true → (s.port p.val).result = some (st, b) →
      (c.op, i) ∈ [(0x23, Instr.cmdProfile p true), (0x23, Instr.cmdProfile p false), (0x40, Instr.cmdArcRead p),
        (0x41, Instr.cmdArcFind p), (0x42, Instr.cmdArcNext p), (0x58, Instr.cmdMetCmd p)] →
    Gives i s (fun t => Answers p.val c st b s t ∧ t.regs = s.regs ∧ t.archive = s.archive))
  ∧ (∀ (p : Fin 3) (c : Cmd) (s : State), s.executes p.val c 0x43 = true → cmdParams c = [0, 0xA4, 0xC5] →
      s.computes (s.cmdHalf p.val c) = true → s.arcEn = false → s.flag oneKey Reg.AR_STAT_FORMAT = false →
    Gives (.cmdArcFormat p) s (fun t => Answers p.val c St.OK [] s t ∧ t.flag oneKey Reg.AR_STAT_FORMAT = true))
  ∧ (∀ (p : Fin 3) (c : Cmd) (ns : Nat) (s : State), s.executes p.val c 0x50 = true → ns < 2 ^ 60 →
      cmdParams c = bigEndian 8 ns → s.computes (s.cmdHalf p.val c) = true →
    Gives (.cmdTimeSet p) s (fun t =>
      Answers p.val c (if s.isRoot = true then St.OK else St.FAB_NOT_ROOT) [] s t
        ∧ t.timeNs = (if s.isRoot = true then ns else s.timeNs)))
  ∧ (∀ (p : Fin 3) (c : Cmd) (b0 : Byte) (b : List Byte) (s : State), s.executes p.val c 0x58 = true → b.length = 5 →
      cmdParams c = b0 :: b → b0.toNat % 16 ∈ [2, 3, 4, 5, 8, 9] → s.computes (s.cmdHalf p.val c) = true →
      s.flag oneKey Reg.MET_CST_BUSY = false → (s.port p.val).result = none →
    Gives (.cmdMetCmd p) s (fun t =>
      t.flag oneKey Reg.MET_CST_BUSY = true ∧ t.flag oneKey Reg.MET_CST_DONE = false
        ∧ t.get oneKey Reg.MET_CST_SER = (s.get oneKey Reg.MET_CST_SER + 1) % 16
        ∧ (s.meter.on = true → (t.meter.command.map (fun x => x.take 6))
            = some (BitVec.ofNat 8 (16 * ((s.get oneKey Reg.MET_CST_SER + 1) % 16) + b0.toNat % 16) :: b))
        ∧ (t.port p.val).exec = some c ∧ (t.port p.val).begun = true))
  ∧ (∀ (p : Fin 3) (c : Cmd) (b0 : Byte) (b : List Byte) (s : State), s.executes p.val c 0x58 = true → b.length = 5 →
      cmdParams c = b0 :: b → b0.toNat % 16 ∉ [2, 3, 4, 5, 8, 9] → s.computes (s.cmdHalf p.val c) = true →
      s.flag oneKey Reg.MET_CST_BUSY = false →
    Gives (.cmdMetCmd p) s (fun t =>
      Answers p.val c St.BAD_PARAM (bigEndian 1 (16 * s.get oneKey Reg.MET_CST_SER)) s t ∧ t.meter = s.meter
        ∧ t.get oneKey Reg.MET_CST_SER = s.get oneKey Reg.MET_CST_SER))
  ∧ (∀ (p : Fin 3) (c : Cmd) (ty ix : Byte) (s : State), s.executes p.val c 0x59 = true → cmdParams c = [ty, ix] →
      0x20 ≤ ty.toNat → ty.toNat ≤ 0x28 → s.computes (s.cmdHalf p.val c) = true →
    Gives (.cmdMetRecord p) s (fun t =>
      Answers p.val c St.OK (match tblFind s.metLink.window (256 * ty.toNat + ix.toNat) with
        | some (_, l) => bigEndian 1 l.length ++ l
        | none => [0]) s t ∧ t.regs = s.regs))

/-- ENV_NONCE gives its path a new nonce. An ENV_OPEN that shows the nonce while it is valid, its complement and the UID opens a
session on its path and clears FAILS; one that shows another counts a failure, and the eighth starts the backoff, in which both
commands are refused; the nonce is used up either way.
ENV_CLOSE ends the session of its path. ENV_TERM and ENV_LINE without a fault write every field that each record's MASK names,
pair the terminals that ILK names, and count; with one they change no register and name the record. ENV_RANGE asks for a
SET_RANGE and answers with its outcome; ENV_REMOTE sets its bit, and 0 ends a fabric session. The OTP commands program a key
slot once, revoke a key while another is usable, raise MINSVN no further than both confirmed images, and turn debug off. -/
def Obligations.EnvelopeAndOtpCommandsTakeEffect : Prop :=
  (∀ (p : Fin 3) (c : Cmd) (s : State), s.executes p.val c 0x70 = true → cmdParams c = [] →
      s.flag oneKey Reg.ENV_STAT_BACKOFF = false →
    Gives (.envNonce p) s (fun t =>
      Answers p.val c St.OK (bigEndian 2 (Config.nonce s.freeCount).toNat) s t
        ∧ tblFind t.envLock.nonces p.val = some (Config.nonce s.freeCount).toNat
        ∧ tblGet t.envLock.issued 0 p.val = s.tref ∧ t.freeCount = s.freeCount + 1
        ∧ t.regs = s.regs))
  ∧ (∀ (p : Fin 3) (c : Cmd) (s : State), s.executes p.val c 0x71 = true → (cmdParams c).length = 8 →
      s.flag oneKey Reg.ENV_STAT_BACKOFF = false →
      s.openMatches (s.nonceOf p.val) (cmdParams c) = true →
    Gives (.envOpen p) s (fun t =>
      Answers p.val c St.OK [] s t ∧ t.flag oneKey Reg.ENV_STAT_OPEN = true ∧ t.get oneKey Reg.ENV_STAT_PATH = p.val
        ∧ t.get oneKey Reg.ENV_STAT_FAILS = 0 ∧ tblFind t.envLock.nonces p.val = none ∧ t.envLock.last = s.tref))
  ∧ (∀ (p : Fin 3) (c : Cmd) (s : State), s.executes p.val c 0x71 = true → (cmdParams c).length = 8 →
      s.flag oneKey Reg.ENV_STAT_BACKOFF = false → s.flag oneKey Reg.ENV_STAT_OPEN = false →
      s.nonceOf p.val ≠ some (payloadField (cmdParams c) 0 2) →
    Gives (.envOpen p) s (fun t =>
      Answers p.val c St.ENVELOPE_LOCKED [] s t ∧ t.flag oneKey Reg.ENV_STAT_OPEN = false
        ∧ tblFind t.envLock.nonces p.val = none
        ∧ (if s.get oneKey Reg.ENV_STAT_FAILS = 7 then
            t.get oneKey Reg.ENV_STAT_FAILS = 0 ∧ t.flag oneKey Reg.ENV_STAT_BACKOFF = true
          else t.get oneKey Reg.ENV_STAT_FAILS = s.get oneKey Reg.ENV_STAT_FAILS + 1
            ∧ t.flag oneKey Reg.ENV_STAT_BACKOFF = false)))
  ∧ (∀ (p : Fin 3) (c : Cmd) (i : Instr) (s : State), s.flag oneKey Reg.ENV_STAT_BACKOFF = true →
      s.executes p.val c c.op = true →
      (c.op, i, (cmdParams c).length) ∈ [(0x70, Instr.envNonce p, 0), (0x71, Instr.envOpen p, 8)] →
    Gives i s (fun t => Answers p.val c St.ENVELOPE_LOCKED [] s t ∧ t.regs = s.regs))
  ∧ (∀ (p : Fin 3) (c : Cmd) (s : State), s.executes p.val c 0x72 = true → cmdParams c = [] →
    Gives (.envClose p) s (fun t =>
      Answers p.val c St.OK [] s t
        ∧ t.flag oneKey Reg.ENV_STAT_OPEN = (s.flag oneKey Reg.ENV_STAT_OPEN && !s.inSession p.val c)))
  ∧ (∀ (p : Fin 3) (c : Cmd) (l : List TermRec) (s : State), s.executes p.val c 0x73 = true →
      l = (records 11 (cmdParams c)).map termRec → (cmdParams c).length % 11 = 0 → l ≠ [] → l.length ≤ 256 →
      l.all (fun r => r.ok) = true → (∀ i : Fin 256, i.val < l.length → termFault s l i.val = false) →
    Gives (.envTerm p) s (fun t =>
      Answers p.val c St.OK [] s t
        ∧ (∀ r ∈ l,
          (r.mask.testBit 0 = true → t.get (envKey r.t) Reg.TS_ENV_MAXD = r.maxd)
            ∧ (r.mask.testBit 1 = true → t.get (envKey r.t) Reg.TS_ENV_SLEW = r.slew)
            ∧ (r.mask.testBit 2 = true → t.get (envKey r.t) Reg.TS_ENV_FAILSAFE = r.failsafe)
            ∧ (r.mask.testBit 4 = true → t.get (thrKey r.t) Reg.TS_THR_THR = r.thr)
            ∧ (r.pairs = true → t.partner r.t = some r.partner ∧ t.partner r.partner = some r.t)
            ∧ (r.parts = true → t.partner r.t = none))
        ∧ (t.reg (oneKey + Reg.ENV_CNT)).toNat = min 0xFFFFF ((s.reg (oneKey + Reg.ENV_CNT)).toNat + 1)))
  ∧ (∀ (p : Fin 3) (c : Cmd) (l : List TermRec) (i : Nat) (s : State), s.executes p.val c 0x73 = true →
      l = (records 11 (cmdParams c)).map termRec → (cmdParams c).length % 11 = 0 → l ≠ [] → l.length ≤ 256 →
      l.all (fun r => r.ok) = true → (List.range l.length).find? (fun j => termFault s l j) = some i →
    Gives (.envTerm p) s (fun t => Answers p.val c St.ENVELOPE_CONFLICT (bigEndian 2 i) s t ∧ t.regs = s.regs))
  ∧ (∀ (p : Fin 3) (c : Cmd) (l : List LineRec) (s : State), s.executes p.val c 0x74 = true →
      l = (records 7 (cmdParams c)).map lineRec → (cmdParams c).length % 7 = 0 → l ≠ [] → l.length ≤ 64 →
      l.all (fun r => r.ok) = true → (∀ i : Fin 64, i.val < l.length → lineFault s l i.val = false) →
    Gives (.envLine p) s (fun t =>
      Answers p.val c St.OK [] s t
        ∧ (∀ r ∈ l,
          (r.mask.testBit 0 = true → t.get (padKey r.n) Reg.LN_ENV_TXMAX = r.txmax)
            ∧ (r.mask.testBit 1 = true → t.get (padKey r.n) Reg.LN_ENV_PWR_EN = r.pwr / 128
                ∧ t.get (padKey r.n) Reg.LN_ENV_PWR_SLOT = r.pwr % 16)
            ∧ (r.mask.testBit 2 = true → t.get (padKey r.n) Reg.LN_LIM_VTHR = r.vthr)
            ∧ (r.mask.testBit 3 = true → t.get (padKey r.n) Reg.LN_LIM_ITHR = r.ithr)
            ∧ (r.mask.testBit 4 = true → t.get (padKey r.n) Reg.LN_BLANK_BLANK = r.blank))
        ∧ (t.reg (oneKey + Reg.ENV_CNT)).toNat = min 0xFFFFF ((s.reg (oneKey + Reg.ENV_CNT)).toNat + 1)))
  ∧ (∀ (p : Fin 3) (c : Cmd) (l : List LineRec) (i : Nat) (s : State), s.executes p.val c 0x74 = true →
      l = (records 7 (cmdParams c)).map lineRec → (cmdParams c).length % 7 = 0 → l ≠ [] → l.length ≤ 64 →
      l.all (fun r => r.ok) = true → (List.range l.length).find? (fun j => lineFault s l j) = some i →
    Gives (.envLine p) s (fun t => Answers p.val c St.ENVELOPE_CONFLICT (bigEndian 2 i) s t ∧ t.regs = s.regs))
  ∧ (∀ (p : Fin 3) (c : Cmd) (r : Fin 1024) (range : Fin 4) (h : Half) (s : State), s.executes p.val c 0x75 = true →
      cmdParams c = bigEndian 2 r.val ++ [BitVec.ofNat 8 range.val] → s.computes (s.cmdHalf p.val c) = true →
      (s.slot (s.holder (r.val / 16)) r.val).talk = none → h = s.holder (r.val / 16) → s.computes h = true →
    Gives (.envRange p) s (fun t =>
      (t.port p.val).exec = some c ∧ (t.port p.val).begun = true ∧ (t.port p.val).replies = (s.port p.val).replies
        ∧ ((t.slot h r.val).talk.map (fun x => (x.op, x.arg, x.host))) = some (5, range.val, true)))
  ∧ (∀ (p : Fin 3) (c : Cmd) (st : Nat) (b : List Byte) (s : State), (s.port p.val).exec = some c → c.op = 0x75 →
      c.origin = none → (s.port p.val).begun = true → (s.port p.val).result = some (st, b) →
    Gives (.envRange p) s (fun t =>
      Answers p.val c st b s t ∧ (t.reg (oneKey + Reg.ENV_CNT)).toNat
          = (if st = St.OK then min 0xFFFFF ((s.reg (oneKey + Reg.ENV_CNT)).toNat + 1)
            else (s.reg (oneKey + Reg.ENV_CNT)).toNat)))
  ∧ (∀ (p : Fin 3) (c : Cmd) (v : Fin 2) (s : State), s.executes p.val c 0x76 = true →
      cmdParams c = [BitVec.ofNat 8 v.val] →
    Gives (.envRemote p) s (fun t =>
      Answers p.val c St.OK [] s t ∧ t.get oneKey Reg.FAB_CTL_ENV_REMOTE = v.val
        ∧ (v.val = 0 → s.get oneKey Reg.ENV_STAT_PATH = 2 → t.flag oneKey Reg.ENV_STAT_OPEN = false)))
  ∧ (∀ (p : Fin 3) (c : Cmd) (k : Fin 4) (hash : List Byte) (s : State), s.executes p.val c 0x77 = true →
      hash.length = 32 → cmdParams c = BitVec.ofNat 8 k.val :: hash →
    Gives (.otpKey p) s (fun t =>
      if s.otp.prog.getLsbD k.val = true then Answers p.val c St.BAD_PARAM [] s t ∧ t.otp = s.otp
      else Answers p.val c St.OK [] s t ∧ tblFind t.otp.keys k.val = some hash
        ∧ (∀ i : Fin 4, t.otp.prog.getLsbD i.val = (s.otp.prog.getLsbD i.val || decide (i = k)))
        ∧ t.otp.revoked = s.otp.revoked ∧ t.otp.minSvn = s.otp.minSvn ∧ t.otp.dbgOff = s.otp.dbgOff))
  ∧ (∀ (p : Fin 3) (c : Cmd) (k j : Fin 4) (s : State), s.executes p.val c 0x78 = true →
      cmdParams c = [BitVec.ofNat 8 k.val] → j ≠ k → s.usableKey j.val = true →
    Gives (.otpRevoke p) s (fun t =>
      Answers p.val c St.OK [] s t ∧ t.usableKey k.val = false
        ∧ (∀ i : Fin 4, i ≠ k → t.usableKey i.val = s.usableKey i.val) ∧ t.otp.keys = s.otp.keys
        ∧ t.otp.minSvn = s.otp.minSvn))
  ∧ (∀ (p : Fin 3) (c : Cmd) (k : Fin 4) (s : State), s.executes p.val c 0x78 = true →
      cmdParams c = [BitVec.ofNat 8 k.val] → (∀ j : Fin 4, j ≠ k → s.usableKey j.val = false) →
    Gives (.otpRevoke p) s (fun t => Answers p.val c St.BAD_PARAM [] s t ∧ t.otp = s.otp))
  ∧ (∀ (p : Fin 3) (c : Cmd) (v : Fin 64) (a b : Nat) (s : State), s.executes p.val c 0x79 = true →
      cmdParams c = [BitVec.ofNat 8 v.val] → s.confirmedSvn .A = some a → s.confirmedSvn .B = some b →
    Gives (.otpSvn p) s (fun t =>
      if s.otp.minSvn ≤ v.val ∧ v.val ≤ a ∧ v.val ≤ b then
        Answers p.val c St.OK [] s t ∧ t.otp.minSvn = v.val ∧ t.otp.keys = s.otp.keys ∧ t.otp.revoked = s.otp.revoked
      else Answers p.val c St.IMG_ROLLBACK [] s t ∧ t.otp = s.otp))
  ∧ (∀ (p : Fin 3) (c : Cmd) (s : State), s.executes p.val c 0x7A = true → cmdParams c = [0xD0] →
    Gives (.otpDbgoff p) s (fun t =>
      Answers p.val c St.OK [] s t ∧ t.otp.dbgOff = true ∧ t.otp.minSvn = s.otp.minSvn))

/-- A transfer asked for with lengths in range on a block that is enabled starts on a free bus, drives its address and bytes,
and sets BUSY; on a busy bus it waits; while one runs it is refused. It ends with the bytes read in the buffer, 0xFF for those that
did not come (log entry 98), and its outcome, and keeps the bus under HOLD. A matching address selects the target; its bytes join the receive FIFO, or stretch SCL when it is
full; a read sends the transmit FIFO's head, or stretches SCL when it is empty. A STOP ends the transaction and frees the bus.
A pop takes the head and lets a held byte in; a push feeds a stretched read at once. A timeout ends a running transfer. -/
def Obligations.TwoWireBusesTransfer : Prop :=
  (∀ (m : Master) (b : Fin 8) (v : Word) (s : State), s.blockWriteOk m (blkTw b.val) = true → v.getLsbD 19 = true →
      (s.tw b.val).run = none → s.pmbOwns b.val = false → bits v 6 0 ≤ 64 → bits v 13 7 ≤ 64 →
      0 < bits v 6 0 + bits v 13 7 → s.flag (twKey b.val) Reg.TW_CFG_CTL_EN = true →
      s.flag (twKey b.val) Reg.TW_CFG_EN = true →
    Gives (.twTransfer m b v) s (fun t =>
      (t.tw b.val).run = some (bits v 6 0, bits v 13 7, v.getLsbD 18) ∧ t.flag (twKey b.val) Reg.TW_CST_BUSY = true
        ∧ t.flag (twKey b.val) Reg.TW_CST_DONE = false ∧ t.flag (twKey b.val) Reg.TW_STAT_BUSBUSY = true
        ∧ (if s.flag (twKey b.val) Reg.TW_STAT_BUSBUSY = true ∧ (s.tw b.val).held = false then (t.tw b.val).waits = true
          else (t.tw b.val).waits = false ∧ (t.tw b.val).held = false
            ∧ (t.tw b.val).sent = s.twBytes b.val (bits v 6 0) (bits v 13 7))
        ∧ (∀ j : Fin 8, j ≠ b → t.tw j.val = s.tw j.val)))
  ∧ (∀ (m : Master) (b : Fin 8) (v : Word) (s : State), s.blockWriteOk m (blkTw b.val) = true → v.getLsbD 19 = true →
      ((s.tw b.val).run.isSome = true ∨ s.pmbOwns b.val = true) →
    Gives (.twTransfer m b v) s (fun t =>
      t.get (twKey b.val) Reg.TW_CST_STATUS = St.BUSY ∧ t.twBuses = s.twBuses))
  ∧ (∀ (b : Fin 8) (count : BitVec 7) (data : List Byte) (w r : Nat) (hold : Bool) (s : State), data.length ≤ 64 →
      (s.tw b.val).run = some (w, r, hold) → (s.tw b.val).waits = false →
    Gives (.twTransferDone b 0 count data) s (fun t =>
      (t.tw b.val).run = none ∧ (t.tw b.val).held = hold
        ∧ (∀ i : Fin 64, i.val < r → tblGet (t.tw b.val).buf 0 i.val = data[i.val]?.getD 0xFF)
        ∧ t.get (twKey b.val) Reg.TW_CST_STATUS = St.OK ∧ t.get (twKey b.val) Reg.TW_CST_COUNT = min (w + r) 127
        ∧ t.flag (twKey b.val) Reg.TW_CST_BUSY = false ∧ t.flag (twKey b.val) Reg.TW_CST_DONE = true
        ∧ t.flag (twKey b.val) Reg.TW_STAT_CDONE = true
        ∧ (hold = false → t.flag (twKey b.val) Reg.TW_STAT_BUSBUSY = false)))
  ∧ (∀ (b : Fin 8) (outcome : Fin 4) (count : BitVec 7) (data : List Byte) (w r : Nat) (hold : Bool) (s : State),
      data.length ≤ 64 → outcome ≠ 0 → (s.tw b.val).run = some (w, r, hold) → (s.tw b.val).waits = false →
    Gives (.twTransferDone b outcome count data) s (fun t =>
      (t.tw b.val).run = none ∧ (t.tw b.val).held = false
        ∧ t.get (twKey b.val) Reg.TW_CST_STATUS
            = (if outcome = 1 then St.TW_NACK else if outcome = 2 then St.TW_ARB_LOST else St.TW_ARB_SR)
        ∧ t.get (twKey b.val) Reg.TW_CST_COUNT = count.toNat ∧ t.flag (twKey b.val) Reg.TW_CST_DONE = true
        ∧ (if outcome = 1 then t.flag (twKey b.val) Reg.TW_STAT_BUSBUSY = false
          else t.flag (twKey b.val) Reg.TW_STAT_ARB = true)))
  ∧ (∀ (b : Fin 8) (ten rd : Bool) (addr : BitVec 10) (s : State), s.flag (twKey b.val) Reg.TW_CFG_EN = true →
      s.flag (twKey b.val) Reg.TW_CFG_TGT_EN = true → s.pmbOwns b.val = false →
    Gives (.twTargetAddress b ten addr rd) s (fun t =>
      (t.tw b.val).target
          = (s.twMatch b.val ten (if ten = true then addr.toNat else addr.toNat % 128)).map (fun i => (i, rd))
        ∧ (t.tw b.val).first = true ∧ t.flag (twKey b.val) Reg.TW_STAT_BUSBUSY = true
        ∧ (t.tw b.val).rx = (s.tw b.val).rx ∧ (t.tw b.val).tx = (s.tw b.val).tx))
  ∧ (∀ (b : Fin 8) (v : Byte) (i : Nat) (s : State), (s.tw b.val).target = some (i, false) → (s.tw b.val).stuck = none →
    Gives (.twTargetByte b v) s (fun t =>
      (if (s.tw b.val).rx.length < 32 then
          (t.tw b.val).rx = (s.tw b.val).rx ++ [(v, i, (s.tw b.val).first)] ∧ (t.tw b.val).first = false
            ∧ (t.tw b.val).stuck = none
        else (t.tw b.val).rx = (s.tw b.val).rx ∧ (t.tw b.val).stuck = some v) ∧ t.regs = s.regs))
  ∧ (∀ (b : Fin 8) (i : Nat) (v : Byte) (q : List Byte) (s : State), (s.tw b.val).target = some (i, true) →
      (s.tw b.val).tx = v :: q →
    Gives (.twTargetReadByte b) s (fun t =>
      (t.tw b.val).sent = [v] ∧ (t.tw b.val).tx = q ∧ (t.tw b.val).starved = false ∧ t.regs = s.regs))
  ∧ (∀ (b : Fin 8) (i : Nat) (s : State), (s.tw b.val).target = some (i, true) → (s.tw b.val).tx = [] →
    Gives (.twTargetReadByte b) s (fun t => (t.tw b.val).starved = true ∧ (t.tw b.val).tx = [] ∧ t.regs = s.regs))
  ∧ (∀ (b : Fin 8) (restart : Bool) (s : State), (s.tw b.val).target.isSome = true →
    Gives (.twTargetStop b restart) s (fun t =>
      (t.tw b.val).target = none ∧ t.flag (twKey b.val) Reg.TW_STAT_TSTOP = true ∧ (t.tw b.val).starved = false
        ∧ (t.tw b.val).rx = (s.tw b.val).rx
        ∧ (restart = false → (s.tw b.val).waits = false → t.flag (twKey b.val) Reg.TW_STAT_BUSBUSY = false)))
  ∧ (∀ (b : Fin 8) (s : State), (s.tw b.val).held = false → (s.tw b.val).run = none → (s.tw b.val).waits = false →
    exec (.twBusStop b) s = .next (s.put (twKey b.val) Reg.TW_STAT_BUSBUSY 0))
  ∧ (∀ (b : Fin 8) (w r : Nat) (hold : Bool) (s : State), (s.tw b.val).held = false →
      (s.tw b.val).run = some (w, r, hold) → (s.tw b.val).waits = true →
    Gives (.twBusStop b) s (fun t =>
      (t.tw b.val).waits = false ∧ (t.tw b.val).sent = s.twBytes b.val w r
        ∧ t.flag (twKey b.val) Reg.TW_STAT_BUSBUSY = true))
  ∧ (∀ (m : Master) (b : Fin 8) (e : Byte × Nat × Bool) (q : List (Byte × Nat × Bool)) (s : State),
      s.blockWriteOk m (blkTw b.val) = true → (s.tw b.val).rx = e :: q → (s.tw b.val).stuck = none →
    Gives (.twRxPop m b) s (fun t => (t.tw b.val).rx = q ∧ (t.tw b.val).tx = (s.tw b.val).tx ∧ t.regs = s.regs))
  ∧ (∀ (m : Master) (b : Fin 8) (e : Byte × Nat × Bool) (q : List (Byte × Nat × Bool)) (v : Byte) (i : Nat) (rd : Bool)
      (s : State), s.blockWriteOk m (blkTw b.val) = true → (s.tw b.val).rx = e :: q → q.length < 32 →
      (s.tw b.val).stuck = some v → (s.tw b.val).target = some (i, rd) →
    Gives (.twRxPop m b) s (fun t =>
      (t.tw b.val).rx = q ++ [(v, i, (s.tw b.val).first)] ∧ (t.tw b.val).stuck = none ∧ t.regs = s.regs))
  ∧ (∀ (m : Master) (b : Fin 8) (v : Byte) (s : State), s.blockWriteOk m (blkTw b.val) = true →
    Gives (.twTxPush m b v) s (fun t =>
      (if (s.tw b.val).starved = true then
          (t.tw b.val).sent = [v] ∧ (t.tw b.val).starved = false ∧ (t.tw b.val).tx = (s.tw b.val).tx
        else if (s.tw b.val).tx.length < 32 then (t.tw b.val).tx = (s.tw b.val).tx ++ [v]
        else (t.tw b.val).tx = (s.tw b.val).tx) ∧ t.regs = s.regs))
  ∧ (∀ (b : Fin 8) (w r : Nat) (hold : Bool) (s : State), (s.tw b.val).run = some (w, r, hold) →
      (s.tw b.val).waits = false →
    Gives (.twTimeout b) s (fun t =>
      (t.tw b.val).run = none ∧ (t.tw b.val).held = false ∧ (t.tw b.val).target = none
        ∧ t.get (twKey b.val) Reg.TW_CST_STATUS = St.TW_TIMEOUT ∧ t.flag (twKey b.val) Reg.TW_CST_BUSY = false
        ∧ t.flag (twKey b.val) Reg.TW_STAT_TMO = true ∧ t.flag (twKey b.val) Reg.TW_STAT_BUSBUSY = false
        ∧ (t.reg (twKey b.val + Reg.TW_CNT_TMO)).toNat
            = min 0xFFFFF ((s.reg (twKey b.val + Reg.TW_CNT_TMO)).toNat + 1)))

/-- In RUN a request for SLEEP, DEEP or OFF (with its key) starts an entry: BUSY, and every open bushel of a half that computes
is sealed. The first block that refuses ends it with PWR_REFUSED and BLOCK, as does the first that still holds 50 ms after it.
Once no block refuses or holds, the state is entered, TREF stops, BUSY clears, and the entry is counted; DEEP holds every pad
group, and WAKE_N asserted as a level when the window ends begins the return at once. WAKE_N, where it is enabled, abandons an entry, and starts the return from SLEEP and DEEP; in OFF it resets the device.
A return that has reached its last step ends in RUN with HP_STAT.WOKE set in the halves that compute and retained memory kept
but for the bits disturbed in DEEP. A retry commands the core voltage again. A release clears the groups it names. -/
def Obligations.PowerStatesAreEnteredAndLeft : Prop :=
  (∀ (m : Master) (c : Instr) (mode : PwrMode) (s : State), s.power.mode = .run → s.power.entering = none →
      (c, mode) ∈ [(.sleepRequest m, PwrMode.sleep), (.deepRequest m, .deep), (.offRequest m 0x0FF5, .off)] →
    Gives c s (fun t =>
      t.power.entering = some mode ∧ t.power.mode = .run ∧ t.power.enteredAt = s.tref
        ∧ t.power.requester = Master.ownHalf m ∧ t.flag oneKey Reg.PWR_ST_BUSY = true
        ∧ t.get oneKey Reg.PWR_ST_STATUS = 0
        ∧ (∀ (h : Half) (n : Fin 16512), s.computes h = true → t.openBushel h n.val = none)))
  ∧ (∀ (m : Master) (key : BitVec 16) (s : State), s.power.mode = .run → s.power.entering = none → key ≠ 0x0FF5 →
    Gives (.offRequest m key) s (fun t => t.get oneKey Reg.PWR_ST_STATUS = St.BAD_PARAM ∧ t.power = s.power))
  ∧ (∀ (m : Master) (c : Instr) (s : State), s.power.mode = .run → s.power.entering.isSome = true →
      c ∈ [.sleepRequest m, .deepRequest m, .offRequest m 0x0FF5, .runRequest m] →
    Gives c s (fun t => t.get oneKey Reg.PWR_ST_STATUS = St.BUSY ∧ t.power = s.power))
  ∧ (∀ (m : Master) (s : State), s.power.mode = .run → s.power.entering = none →
    Gives (.runRequest m) s (fun t => t.get oneKey Reg.PWR_ST_STATUS = St.OK ∧ t.power = s.power))
  ∧ (∀ (m : Master) (code : Nat) (s : State), (s.power.mode = .sleep ∨ s.power.mode = .deep) → s.power.returning = none →
      (s.setPower { s.power with vcWake := true }).wakeCode = some code →
    Gives (.runRequest m) s (fun t =>
      t.get oneKey Reg.PWR_ST_WAKE = code ∧ t.power.returning = some (if s.power.mode = .deep then 2 else 3)
        ∧ t.power.fullMode = true ∧ t.power.mode = s.power.mode))
  ∧ (∀ (mode : PwrMode) (k : Nat) (s : State), s.power.entering = some mode →
      firstBlock (fun j => s.refuses mode j) = some k →
    Gives .powerEntryRefused s (fun t =>
      t.power.entering = none ∧ t.power.mode = s.power.mode ∧ t.get oneKey Reg.PWR_ST_STATUS = St.PWR_REFUSED
        ∧ t.get oneKey Reg.PWR_ST_BLOCK = k ∧ t.flag oneKey Reg.PWR_ST_BUSY = false ∧ t.power.edgeLatch = false))
  ∧ (∀ (mode : PwrMode) (k : Nat) (s : State), s.power.entering = some mode →
      s.power.enteredAt + 10000000 ≤ s.tref → firstBlock (fun j => s.refuses mode j || s.holds j) = some k →
    Gives .entryTimeout s (fun t =>
      t.power.entering = none ∧ t.power.mode = s.power.mode ∧ t.get oneKey Reg.PWR_ST_STATUS = St.PWR_REFUSED
        ∧ t.get oneKey Reg.PWR_ST_BLOCK = k ∧ t.flag oneKey Reg.PWR_ST_BUSY = false))
  ∧ (∀ (falls : Bool) (mode : PwrMode) (s : State), s.power.entering = some mode → mode ≠ .run → s.power.returning = none →
      firstBlock (fun j => s.refuses mode j || s.holds j) = none →
    Gives (.powerEntryCommit falls) s (fun t =>
      t.power.mode = mode ∧ t.power.entering = none ∧ t.trefRuns = false ∧ t.flag oneKey Reg.PWR_ST_BUSY = false
        ∧ t.get oneKey Reg.PWR_ST_STATUS = St.OK ∧ t.power.fullMode = (s.flag oneKey Reg.PWR_CFG_VREG_FULL || t.power.returning.isSome)
        ∧ (falls = true → mode ≠ .off → s.flag oneKey Reg.PWR_CFG_WN_EN = true → s.flag oneKey Reg.PWR_CFG_WN_EDGE = false →
            t.power.returning.isSome = true)
        ∧ t.power.edgeLatch = false ∧ t.flag oneKey Reg.ENV_STAT_OPEN = false
        ∧ (mode = .sleep → (t.reg (oneKey + Reg.PWR_ENT_SLEEP)).toNat
            = min 0xFFFFF ((s.reg (oneKey + Reg.PWR_ENT_SLEEP)).toNat + 1))
        ∧ (mode = .deep → t.get oneKey Reg.PWR_PAD_HOLD = 31 ∧ t.power.regConfirmed = false
            ∧ (t.reg (oneKey + Reg.PWR_ENT_DEEP)).toNat
              = min 0xFFFFF ((s.reg (oneKey + Reg.PWR_ENT_DEEP)).toNat + 1))
        ∧ (mode = .off → t.halfA.inReset = true ∧ t.halfB.inReset = true ∧ (t.reg (oneKey + Reg.PWR_OFFCNT)).toNat
              = min 0xFFFFF ((s.reg (oneKey + Reg.PWR_OFFCNT)).toNat + 1))
        ∧ t.banks = s.banks ∧ t.imem = s.imem ∧ t.vmem = s.vmem))
  ∧ (∀ (s : State), (s.power.mode = .sleep ∨ s.power.mode = .deep) → s.power.returning = none →
      s.power.entering = none → s.flag oneKey Reg.PWR_CFG_WN_EN = true → s.flag oneKey Reg.PWR_CFG_WN_EDGE = false →
    Gives (.wakeRequest true) s (fun t =>
      t.get oneKey Reg.PWR_ST_WAKE = 1 ∧ t.power.returning = some (if s.power.mode = .deep then 2 else 3)
        ∧ t.power.wakeLow = true ∧ t.power.fullMode = true))
  ∧ (∀ (mode : PwrMode) (s : State), s.power.mode = .run → s.power.entering = some mode →
      s.flag oneKey Reg.PWR_CFG_WN_EN = true → s.flag oneKey Reg.PWR_CFG_WN_EDGE = false →
    Gives (.wakeRequest true) s (fun t =>
      t.power.entering = none ∧ t.power.mode = .run ∧ t.get oneKey Reg.PWR_ST_STATUS = St.PWR_REFUSED
        ∧ t.get oneKey Reg.PWR_ST_BLOCK = 13))
  ∧ (∀ (s : State), s.power.mode = .off →
    Gives (.wakeRequest true) s (fun t =>
      t.power.mode = .run ∧ t.power.vaon = true ∧ t.banks = [] ∧ t.seats = State.reset.seats ∧ t.meter = s.meter
        ∧ t.flash = s.flash ∧ t.otp = s.otp))
  ∧ (∀ (flips : List Flip) (s : State), flips.all Flip.wf = true → s.power.returning = some 3 → s.power.xref = true →
    Gives (.returnToRun flips) s (fun t =>
      t.power.mode = .run ∧ t.power.returning = none ∧ t.trefRuns = true ∧ t.power.vcWake = false
        ∧ (∀ h : Half, s.computes h = true → t.flag (halfKey h) Reg.HP_STAT_WOKE = true)
        ∧ t.banks = s.banks ∧ t.imem = s.imem ∧ t.vmem = s.vmem))
  ∧ (∀ (f : Flip) (s : State), f.wf = true → f.instr = false → s.power.mode = .deep → s.power.returning = some 3 →
      s.power.xref = true →
    Gives (.returnToRun [f]) s (fun t =>
      tblGet t.bankMarks 0 (bankIx f.half f.addr) = min 2 (tblGet s.bankMarks 0 (bankIx f.half f.addr) + 1)))
  ∧ (∀ (acked : Bool) (s : State), s.power.returning = some 2 →
    Gives (.regulatorRetry acked) s (fun t =>
      t.flag oneKey Reg.PWR_STAT_VREG_FAIL = true ∧ t.pmbus.acked = acked ∧ t.power = s.power))
  ∧ (∀ (groups : BitVec 5) (s : State),
    Gives (.padHoldRelease groups) s (fun t =>
      (∀ i : Fin 5, t.padHeld i.val = (s.padHeld i.val && !groups.getLsbD i.val))
        ∧ t.power.gpLatch = (if groups.getLsbD 2 = true then none else s.power.gpLatch)))

/-- An armed Vigil alarm whose compare is reached hits and disarms. A brown-out is counted, leaves the word being written
uncorrectable, stops the Vigil core and starts it at ENTRY where an image is loaded, and ends an entry. A loss of XREF in RUN
stops TREF, marks every enabled timebase and sets its flag; its return restarts TREF and tells the halves. PFAIL_N tells the
halves that compute and seals their open bushels. A power-on reset leaves every register but OFFCNT at its reset value and
keeps the metrology die, the OTP store, the boot flashes and the TREF count; with VAON gone no terminal sources current.
RESET_N keeps the registers, the Vigil memory and the profile that R641 and R653 name, and resets both halves. -/
def Obligations.ResetsSuppliesAndClocksTakeEffect : Prop :=
  (∀ (s : State), s.flag oneKey Reg.VA_STAT_EN = true → s.flag oneKey Reg.VA_STAT_ARMED = true →
      (s.timeNs + (2 ^ 60 - s.wide (oneKey + Reg.VA_CMP) 3 % 2 ^ 60)) % 2 ^ 60 < 2 ^ 59 →
    Gives .vigilAlarm s (fun t =>
      t.flag oneKey Reg.VA_STAT_HIT = true ∧ t.flag oneKey Reg.VA_STAT_ARMED = false ∧ t.power = s.power))
  ∧ (∀ (word : Option (BitVec 14)) (s : State),
    Gives (.brownout word) s (fun t =>
      t.flag oneKey Reg.PWR_STAT_BROWNOUT = true ∧ t.power.fullMode = true ∧ t.power.entering = none
        ∧ (t.reg (oneKey + Reg.PWR_BOCNT)).toNat = min 0xFFFFF ((s.reg (oneKey + Reg.PWR_BOCNT)).toNat + 1)
        ∧ (∀ a : BitVec 14, word = some a → tblGet t.vmemMarks 0 a.toNat = 2) ∧ t.vmem = s.vmem
        ∧ (if s.flag oneKey Reg.VC_STAT_LOADED = true ∧ s.vcLoading = none then
            (t.steward 8).mode = .running ∧ (t.steward 8).pc = s.vcEntry ∧ t.flag (stewKey 8) Reg.STW_CTL_RUN = true
          else (t.steward 8).mode = .stopped ∧ t.flag (stewKey 8) Reg.STW_CTL_RUN = false)))
  ∧ (∀ (s : State), s.power.mode = .run → s.power.xref = true →
    Gives .xrefLoss s (fun t =>
      t.power.xref = false ∧ t.power.xrefGone = true ∧ t.trefRuns = false
        ∧ t.flag oneKey Reg.PWR_STAT_XREF_FAIL = true
        ∧ (∀ i : Fin 128, s.tbEn i.val = true → t.flag (tbKey i.val) Reg.TB_STAT_GAP = true) ∧ t.tref = s.tref))
  ∧ (∀ (s : State), s.power.mode = .run → s.power.xref = false → s.power.vaon = true →
    Gives .xrefReturn s (fun t =>
      t.power.xref = true ∧ t.power.xrefGone = false ∧ t.trefRuns = true ∧ t.tref = s.tref
        ∧ (s.power.xrefGone = true →
            ∀ h : Half, s.computes h = true → t.flag (halfKey h) Reg.HP_STAT_XREF = true)))
  ∧ (∀ (s : State), exec .lfxLoss s
      = .next ((s.setPower { s.power with lfx := false }).put oneKey Reg.PWR_STAT_LFX_FAIL 1))
  ∧ (∀ (s : State), exec .lfxOk s = .next (s.setPower { s.power with lfx := s.power.vaon }))
  ∧ (∀ (s : State), s.power.pfail = false →
    Gives .pfailAssert s (fun t =>
      t.power.pfail = true ∧ t.power.entering = none
        ∧ (∀ h : Half, s.computes h = true → t.flag (halfKey h) Reg.HP_STAT_PFAIL = true)
        ∧ (∀ (h : Half) (n : Fin 16512), s.computes h = true → t.openBushel h n.val = none)
        ∧ (∀ mode : PwrMode, s.power.entering = some mode →
            t.get oneKey Reg.PWR_ST_STATUS = St.PWR_REFUSED ∧ t.get oneKey Reg.PWR_ST_BLOCK = 12)))
  ∧ (∀ (s : State), exec .pfailRelease s = .next (s.setPower { s.power with pfail := false }))
  ∧ (∀ (testN xrefMode : Bool) (s : State),
    Gives (.powerOnReset testN xrefMode) s (fun t =>
      (∀ key : Nat, t.reg key = if key = oneKey + Reg.PWR_OFFCNT then s.reg key else State.reset.reg key)
        ∧ t.banks = [] ∧ t.imem = [] ∧ t.vmem = [] ∧ t.seats = State.reset.seats ∧ t.owners = State.reset.owners
        ∧ t.stewards = [] ∧ t.halfA.inReset = true ∧ t.halfB.inReset = true ∧ t.power.mode = .run
        ∧ t.power.testN = testN ∧ t.power.xrefMode = xrefMode ∧ t.power.vaon = true ∧ t.meter = s.meter
        ∧ t.otp = s.otp ∧ t.flash = s.flash ∧ t.tref = s.tref))
  ∧ (∀ (s : State),
    Gives .vaonFall s (fun t =>
      (∀ i : Fin 1024, (t.pad i.val).level = .off) ∧ t.portAlive = false ∧ t.banks = [] ∧ t.vmem = []
        ∧ t.meter = s.meter ∧ t.otp = s.otp ∧ t.flash = s.flash))
  ∧ (∀ (s : State), s.power.mode ≠ .off → s.power.vaon = true →
    Gives (.resetN true) s (fun t =>
      (∀ key : Nat, keptByResetN key = true → t.reg key = s.reg key) ∧ t.halfA.inReset = true ∧ t.halfB.inReset = true
        ∧ t.power.resetLow = true ∧ t.power.entering = none ∧ t.banks = [] ∧ t.imem = [] ∧ t.vmem = s.vmem
        ∧ t.profile = s.profile ∧ t.tref = s.tref ∧ t.meter = s.meter ∧ t.otp = s.otp ∧ t.flash = s.flash
        ∧ t.seats = State.reset.seats ∧ t.owners = State.reset.owners))
  ∧ (∀ (h : Half) (s : State), s.power.mode = .run → s.power.vaon = true → (s.half h).inReset = true →
      (s.half h).supplyOk = true → (s.half h).held = false → s.trefRuns = true → s.power.testN = true →
    Gives (.resetN false) s (fun t =>
      t.power.resetLow = false ∧ (t.half h).inReset = false ∧ (t.half h).booting = true))

/-- EXTEST and SAMPLE/PRELOAD capture the pins and take the cells shifted in; under EXTEST and CLAMP a terminal whose output
cell is off sources nothing and one at 0 rests, and under HIGHZ none sources. IDCODE and TRST_N give the identification word,
BYPASS, CLAMP and HIGHZ one bit that captures 0. DEBUG acts as BYPASS while DBG_OFF is set; else it halts the steward
addressed, or reads or writes its registers, its memories and its I/O space; a register write to one that runs sets BAD. No
scan instruction changes a register of the device, but that a pulse which comes back to its pad may be held back. -/
def Obligations.TheTestPortScansAndDebugs : Prop :=
  (∀ (pins : BitVec 1121) (shift : Option (BitVec 3363)) (s : State), s.power.vaon = true → s.power.mode ≠ .off →
    Gives (.extest pins shift) s (fun t =>
      t.jtag.instr = .extest ∧ t.jtag.seen = pins ∧ t.jtag.cells = shift.getD s.jtag.cells
        ∧ (∀ n : Fin 1024, (t.scanOut (terminalScan n.val) = none → (t.pad n.val).level = .off)
          ∧ (t.scanOut (terminalScan n.val) = some false → (t.pad n.val).level = .rest))
        ∧ t.regs = s.regs ∧ t.stewards = s.stewards))
  ∧ (∀ (pins : BitVec 1121) (shift : Option (BitVec 3363)) (s : State),
    Gives (.samplePreload pins shift) s (fun t =>
      t.jtag.instr = .sample ∧ t.jtag.seen = pins ∧ t.jtag.cells = shift.getD s.jtag.cells ∧ t.stewards = s.stewards
        ∧ ((∀ n : Fin 1024, (s.slot (s.livePath n.val) n.val).drive = false) → t.regs = s.regs)))
  ∧ (∀ (c : Instr) (s : State), c ∈ [.idcode, .trstN] →
    Gives c s (fun t => t.jtag.instr = .idcode ∧ t.jtag.out = 0x104005CB#32 ∧ t.jtag.cells = s.jtag.cells))
  ∧ (∀ (s : State), s.power.vaon = true → s.power.mode ≠ .off →
    Gives .clamp s (fun t =>
      t.jtag.instr = .clamp ∧ t.jtag.out = 0 ∧ t.jtag.cells = s.jtag.cells
        ∧ (∀ n : Fin 1024, (t.scanOut (terminalScan n.val) = none → (t.pad n.val).level = .off)
          ∧ (t.scanOut (terminalScan n.val) = some false → (t.pad n.val).level = .rest))))
  ∧ (∀ (s : State),
    Gives .highz s (fun t =>
      t.jtag.instr = .highz ∧ t.jtag.out = 0 ∧ t.jtag.cells = s.jtag.cells
        ∧ (∀ n : Fin 1024, (t.pad n.val).level = .off)))
  ∧ (∀ (s : State),
    Gives .bypass s (fun t => t.jtag.instr = .bypass ∧ t.jtag.out = 0 ∧ t.jtag.cells = s.jtag.cells))
  ∧ (∀ (k : Fin 9) (op : DebugOp) (s : State), s.otp.dbgOff = true →
    Gives (.debug k op) s (fun t =>
      t.jtag.instr = .bypass ∧ t.jtag.out = 0 ∧ t.stewards = s.stewards ∧ t.banks = s.banks ∧ t.imem = s.imem
        ∧ t.vmem = s.vmem
        ∧ ((∀ n : Fin 1024, (s.slot (s.livePath n.val) n.val).drive = false) → t.regs = s.regs)))
  ∧ (∀ (k : Fin 9) (s : State), s.otp.dbgOff = false → s.debugReaches k.val = true →
      (s.steward k.val).mode = .running → (s.steward k.val).load = none → (s.steward k.val).stopDue = false →
    Gives (.debug k .halt) s (fun t =>
      (t.steward k.val).mode = .halted ∧ t.get (stewKey k.val) Reg.STW_STAT_HCAUSE = 1
        ∧ (t.steward k.val).pc = (s.steward k.val).pc ∧ t.jtag.instr = .debug))
  ∧ (∀ (k : Fin 9) (n : Fin 32) (s : State), s.otp.dbgOff = false → s.debugReaches k.val = true →
    Gives (.debug k (.readReg false n)) s (fun t =>
      t.jtag.out = (wreg (s.steward k.val) (n.val % 16)).zeroExtend 32 ∧ t.stewards = s.stewards))
  ∧ (∀ (k : Fin 9) (n : Fin 32) (s : State), s.otp.dbgOff = false → s.debugReaches k.val = true →
    Gives (.debug k (.readReg true n)) s (fun t =>
      t.jtag.out = ((readCreg (s.steward k.val) n.val).getD 0).zeroExtend 32 ∧ t.stewards = s.stewards))
  ∧ (∀ (k : Fin 9) (n : Fin 32) (v : Word) (s : State), s.otp.dbgOff = false → s.debugReaches k.val = true →
      (s.steward k.val).mode.runs = false →
    Gives (.debug k (.writeReg false n v)) s (fun t =>
      ∀ r : Fin 16, wreg (t.steward k.val) r.val
        = if r.val ≠ 0 ∧ r.val = n.val % 16 then v else wreg (s.steward k.val) r.val))
  ∧ (∀ (k : Fin 9) (cr : Bool) (n : Fin 32) (v : Word) (s : State), s.otp.dbgOff = false → s.debugReaches k.val = true →
      (s.steward k.val).mode.runs = true →
    Gives (.debug k (.writeReg cr n v)) s (fun t =>
      t.flag (stewKey k.val) Reg.STW_STAT_BAD = true ∧ t.stewards = s.stewards))
  ∧ (∀ (k : Fin 9) (a : Word) (s : State), s.otp.dbgOff = false → s.debugReaches k.val = true →
    Gives (.debug k (.readIo a)) s (fun t =>
      t.jtag.out = (ioRead (.jtag k) a.toNat (setScan .debug s)).1.zeroExtend 32))
  ∧ (∀ (k : Fin 9) (a v : Word) (s : State), s.otp.dbgOff = false → s.debugReaches k.val = true →
    Gives (.debug k (.writeIo a v)) s (fun t => t.regs = (ioWrite (.jtag k) a.toNat v (setScan .debug s)).regs))
  ∧ (∀ (k : Fin 8) (a : Word) (s : State), s.otp.dbgOff = false → s.debugReaches k.val = true → a.toNat < 0x80000 →
      tblGet s.bankMarks 0 (bankIx (stewHalf k.val) a.toNat) = 0 →
    Gives (.debug (k.castLE (by decide)) (.readData a)) s (fun t =>
      t.jtag.out = (s.bank (stewHalf k.val) a.toNat).zeroExtend 32 ∧ t.banks = s.banks))
  ∧ (∀ (k : Fin 8) (a v : Word) (s : State), s.otp.dbgOff = false → s.debugReaches k.val = true → a.toNat < 0x80000 →
    Gives (.debug (k.castLE (by decide)) (.writeData a v)) s (fun t =>
      t.bank (stewHalf k.val) a.toNat = v ∧ t.imem = s.imem ∧ t.vmem = s.vmem))
  ∧ (∀ (k : Fin 8) (a : BitVec 18) (s : State), s.otp.dbgOff = false → s.debugReaches k.val = true →
      tblGet s.imemMarks 0 (imemIx (stewHalf k.val) a.toNat) = 0 →
    Gives (.debug (k.castLE (by decide)) (.readInstr a)) s (fun t =>
      t.jtag.out = (s.imemWord (stewHalf k.val) a.toNat).zeroExtend 32 ∧ t.imem = s.imem))
  ∧ (∀ (k : Fin 8) (a : BitVec 18) (v : Word) (s : State), s.otp.dbgOff = false → s.debugReaches k.val = true →
    Gives (.debug (k.castLE (by decide)) (.writeInstr a v)) s (fun t =>
      t.imemWord (stewHalf k.val) a.toNat = v ∧ t.banks = s.banks ∧ t.vmem = s.vmem))
  ∧ (∀ (a v : Word) (s : State), s.otp.dbgOff = false → s.debugReaches 8 = true → a.toNat < 0x4000 →
      s.vcSplit ≤ a.toNat →
    Gives (.debug 8 (.writeData a v)) s (fun t => tblGet t.vmem 0 a.toNat = v ∧ t.banks = s.banks))

/-- A command of the metrology die changes the die alone, and no register; one of the test access port, but for DEBUG, changes the
port, the terminal pads and which lines are blanked, and, where a pad's pulse is held back, slots, mirrors, coders and events
with registers of bays, coders and timebases: no seat, memory, line, engine, archive, fabric, meter or port. -/
def Obligations.MeterAndTestPortCommandsLeaveTheRest : Prop :=
  (∀ (c : Instr) (s t : State), groupOf c = .meterDie → exec c s = .next t →
        t = { s with
          freeCount := t.freeCount, meter := t.meter })
  ∧ (∀ (c : Instr) (s t : State), groupOf c = .testPort → exec c s = .next t →
        t = { s with
          regs := t.regs, consumers := t.consumers, timebases := t.timebases, slots := t.slots, pads := t.pads,
          mirrors := t.mirrors, lineBlanked := t.lineBlanked, coders := t.coders, codeHalves := t.codeHalves,
          chans := t.chans, bushels := t.bushels, power := { s.power with matrixWake := t.power.matrixWake },
          jtag := t.jtag }
          ∧ RegsKeptBut (inBlocks .testPort) s t)

/-- A steward instruction that accesses no data memory changes stewards, marks of words in error, the service stacks of the
halves' controllers, and registers of the steward and memory blocks alone: no memory, seat, pad, line, archive, fabric or meter.
One that accesses data memory also changes data and Vigil memory, what its half's budget has left with the governor's counts of
waits, and, by an event of the matrix, the captures of timebases. -/
def Obligations.StewardInstructionsLeaveTheRest : Prop :=
  (∀ (c : Instr) (s t : State), groupOf c = .steward → exec c s = .next t →
        t = { s with
          regs := t.regs, halfA := { s.halfA with active := t.halfA.active },
          halfB := { s.halfB with active := t.halfB.active }, imemMarks := t.imemMarks, vmemMarks := t.vmemMarks,
          freeCount := t.freeCount, stewards := t.stewards }
          ∧ RegsKeptBut (inBlocks .steward) s t)
  ∧ (∀ (c : Instr) (s t : State), groupOf c = .stewardMemory → exec c s = .next t →
        t = { s with
          regs := t.regs, halfA := { s.halfA with active := t.halfA.active, budget := t.halfA.budget },
          halfB := { s.halfB with active := t.halfB.active, budget := t.halfB.budget }, consumers := t.consumers,
          timebases := t.timebases, banks := t.banks, bankMarks := t.bankMarks, imemMarks := t.imemMarks, vmem := t.vmem,
          vmemMarks := t.vmemMarks, freeCount := t.freeCount, stewards := t.stewards,
          power := { s.power with matrixWake := t.power.matrixWake } }
          ∧ RegsKeptBut (inBlocks .stewardMemory) s t)

/-- A line engine at work changes engines, lines, their programs, mirrors and transmit paths, and registers of bays alone, with the
record of refused writes; the end of a frame, GET and PUT also what the event and the records reach and what the budgets have
left. A synthesiser's command changes synthesisers, the engines that wait on them and registers of bays. None changes a memory,
a seat, a terminal pad, the archive, the fabric or the meter. -/
def Obligations.LineCommandsLeaveTheRest : Prop :=
  (∀ (c : Instr) (s t : State), groupOf c = .engine → exec c s = .next t →
        t = { s with
          regs := t.regs, staging := t.staging, referee := t.referee, mirrors := t.mirrors, lines := t.lines,
          freeCount := t.freeCount, engines := t.engines, progs := t.progs }
          ∧ RegsKeptBut (inBlocks .engine) s t)
  ∧ (∀ (c : Instr) (s t : State), groupOf c = .engineEnd → exec c s = .next t →
        t = { s with
          regs := t.regs, halfA := { s.halfA with budget := t.halfA.budget },
          halfB := { s.halfB with budget := t.halfB.budget }, referee := t.referee, consumers := t.consumers,
          timebases := t.timebases, mirrors := t.mirrors, lines := t.lines, freeCount := t.freeCount,
          engines := t.engines, pipes := t.pipes, coders := t.coders, codeHalves := t.codeHalves, chans := t.chans,
          bushels := t.bushels, power := { s.power with matrixWake := t.power.matrixWake } }
          ∧ RegsKeptBut (inBlocks .engineEnd) s t)
  ∧ (∀ (c : Instr) (s t : State), groupOf c = .synth → exec c s = .next t →
        t = { s with
          regs := t.regs, synths := t.synths, engines := t.engines }
          ∧ RegsKeptBut (inBlocks .synth) s t)

/-- A command of the sampling pipeline changes pipelines, recognisers, lines, coders, budgets, events, what alarms send, and
registers; one of the compression engines changes coders, channels, open bushels, budgets and events, and registers of bays, of
the engines, of the governors and of captures alone. None changes a memory, a seat, a terminal, a pad, an engine, the archive or
the meter. -/
def Obligations.SamplingAndCodingCommandsLeaveTheRest : Prop :=
  (∀ (c : Instr) (s t : State), groupOf c = .sampling → exec c s = .next t →
        t = { s with
          regs := t.regs, staging := t.staging, halfA := { s.halfA with budget := t.halfA.budget },
          halfB := { s.halfB with budget := t.halfB.budget }, consumers := t.consumers, timebases := t.timebases,
          lines := t.lines, freeCount := t.freeCount, pollEntries := t.pollEntries, pipes := t.pipes, recogs := t.recogs,
          coders := t.coders, codeHalves := t.codeHalves, chans := t.chans, bushels := t.bushels, links := t.links,
          router := t.router, ports := t.ports, power := { s.power with matrixWake := t.power.matrixWake } })
  ∧ (∀ (c : Instr) (s t : State), groupOf c = .coding → exec c s = .next t →
        t = { s with
          regs := t.regs, staging := t.staging,
          halfA := { s.halfA with budget := t.halfA.budget, nextXcfg := t.halfA.nextXcfg },
          halfB := { s.halfB with budget := t.halfB.budget, nextXcfg := t.halfB.nextXcfg }, consumers := t.consumers,
          timebases := t.timebases, freeCount := t.freeCount, coders := t.coders, codeHalves := t.codeHalves,
          chans := t.chans, chanCfgs := t.chanCfgs, bushels := t.bushels,
          power := { s.power with matrixWake := t.power.matrixWake } }
          ∧ RegsKeptBut (inBlocks .coding) s t)

/-- A command of the archive changes the archive, the bushels that wait for it, budgets, events, what it sends over links and to
ports, and registers; one of a two-wire bus changes buses and registers of their block alone, with the record of refused
writes. -/
def Obligations.ArchiveAndBusCommandsLeaveTheRest : Prop :=
  (∀ (c : Instr) (s t : State), groupOf c = .archive → exec c s = .next t →
        t = { s with
          regs := t.regs, halfA := { s.halfA with budget := t.halfA.budget },
          halfB := { s.halfB with budget := t.halfB.budget }, consumers := t.consumers, timebases := t.timebases,
          freeCount := t.freeCount, codeHalves := t.codeHalves, chans := t.chans, archive := t.archive, links := t.links,
          router := t.router, ports := t.ports, power := { s.power with matrixWake := t.power.matrixWake } })
  ∧ (∀ (c : Instr) (s t : State), groupOf c = .twoWire → exec c s = .next t →
        t = { s with
          regs := t.regs, twBuses := t.twBuses }
          ∧ RegsKeptBut (inBlocks .twoWire) s t)

/-- A command of the fabric changes links, routes, the router, time, ports, budgets, the events and the gaps that follow with what
waits in lines and coders, and registers. A transaction of a command port, or one of its commands named in the group, changes
ports, the envelope lock, the OTP store, budgets, marks of words in error, what it sends or asks of the archive and of power, and
registers. None changes a seat, a pad, a data memory, an engine or the meter. -/
def Obligations.FabricAndPortCommandsLeaveTheRest : Prop :=
  (∀ (c : Instr) (s t : State), groupOf c = .fabric → exec c s = .next t →
        t = { s with
          regs := t.regs, halfA := { s.halfA with budget := t.halfA.budget },
          halfB := { s.halfB with budget := t.halfB.budget }, consumers := t.consumers, timebases := t.timebases,
          fabricTime := t.fabricTime, lines := t.lines, freeCount := t.freeCount, pollEntries := t.pollEntries,
          pipes := t.pipes, coders := t.coders, codeHalves := t.codeHalves, chans := t.chans, bushels := t.bushels,
          links := t.links, routes := t.routes, offers := t.offers, router := t.router, ports := t.ports,
          power := { s.power with matrixWake := t.power.matrixWake } })
  ∧ (∀ (c : Instr) (s t : State), groupOf c = .port → exec c s = .next t →
        t = { s with
          regs := t.regs, halfA := { s.halfA with budget := t.halfA.budget },
          halfB := { s.halfB with budget := t.halfB.budget }, consumers := t.consumers, timebases := t.timebases,
          imemMarks := t.imemMarks, vmemMarks := t.vmemMarks, freeCount := t.freeCount, archive := t.archive,
          links := t.links, router := t.router, otp := t.otp, envLock := t.envLock, ports := t.ports, pmbus := t.pmbus,
          power := t.power })

/-- A terminal's command changes slots, pads, samples, what its records and events reach, and registers of bays, coders and general
timers alone; a timebase's changes timebases, events, slots whose pulse it holds or ends with their pads, and such registers; a
budget's what the halves' budgets hold, what waited for it on links and at ports, and such registers with those of the budget
block, of links and of ports. None changes a seat, a memory, a line, an engine, the archive, the routes or the meter. -/
def Obligations.TerminalAndTimebaseCommandsLeaveTheRest : Prop :=
  (∀ (c : Instr) (s t : State), groupOf c = .terminal → exec c s = .next t →
        t = { s with
          regs := t.regs, referee := t.referee, consumers := t.consumers, timebases := t.timebases, slots := t.slots,
          pads := t.pads, sars := t.sars, mirrors := t.mirrors, lineBlanked := t.lineBlanked, coders := t.coders,
          codeHalves := t.codeHalves, chans := t.chans, bushels := t.bushels, ports := t.ports,
          power := { s.power with matrixWake := t.power.matrixWake } }
          ∧ RegsKeptBut (inBlocks .terminal) s t)
  ∧ (∀ (c : Instr) (s t : State), groupOf c = .timebase → exec c s = .next t →
        t = { s with
          regs := t.regs, consumers := t.consumers, timebases := t.timebases, slots := t.slots, pads := t.pads,
          mirrors := t.mirrors, lineBlanked := t.lineBlanked, coders := t.coders, codeHalves := t.codeHalves,
          chans := t.chans, bushels := t.bushels, power := { s.power with matrixWake := t.power.matrixWake } }
          ∧ RegsKeptBut (inBlocks .timebase) s t)
  ∧ (∀ (c : Instr) (s t : State), groupOf c = .budget → exec c s = .next t →
        t = { s with
          regs := t.regs, halfA := { s.halfA with budget := t.halfA.budget },
          halfB := { s.halfB with budget := t.halfB.budget }, consumers := t.consumers, timebases := t.timebases,
          freeCount := t.freeCount, links := t.links, router := t.router, ports := t.ports,
          power := { s.power with matrixWake := t.power.matrixWake } }
          ∧ RegsKeptBut (inBlocks .budget) s t)

/-- With an empty queue the model's step is one edge of the device's clock (log entry 1, a design choice): in RUN with TREF the
count of TREF edges rises by one, and no memory, seat, run-owner latch, profile, meter, OTP store or boot flash changes, nor the
pad of a bay none of whose slots runs an exchange. In OFF, and with VAON gone, nothing changes. -/
def Obligations.AnEmptyQueueTicksTheClock : Prop :=
  (∀ (s : State), s.pending = [] → s.power.vaon = true → s.power.mode = .run → s.trefRuns = true →
    ∃ t : State, step s = .next t ∧ t.tref = s.tref + 1 ∧ t.pending = [] ∧ t.seats = s.seats ∧ t.owners = s.owners
      ∧ t.profile = s.profile ∧ t.meter = s.meter ∧ t.otp = s.otp ∧ t.flash = s.flash
      ∧ t.banks = s.banks ∧ t.imem = s.imem ∧ t.vmem = s.vmem
      ∧ (∀ n : Fin 1024, (∀ e ∈ s.slots, e.1 % 1024 = n.val → e.2.talk.any (fun r => r.running) = false) →
          t.pad n.val = s.pad n.val))
  ∧ (∀ (s : State), s.pending = [] → (s.power.vaon = false ∨ s.power.mode = .off) → step s = .next s)

/-- Whatever the state, no command but OTP_KEY, OTP_REVOKE, OTP_SVN and OTP_DBGOFF changes the OTP store; these never clear a
PROGRAMMED or REVOKED fuse, never replace a programmed hash, never lower MINSVN and never turn debug on again. No command but the
end of a flash operation changes a byte of a boot flash: no reset does, no image, no steward. -/
def Obligations.OnlyTheirCommandsChangeFusesAndFlash : Prop :=
  (∀ (c : Instr) (s t : State), exec c s = .next t → changesOtp c = false → t.otp = s.otp)
  ∧ (∀ (c : Instr) (s t : State), exec c s = .next t →
      s.otp.prog &&& t.otp.prog = s.otp.prog ∧ s.otp.revoked &&& t.otp.revoked = s.otp.revoked
        ∧ s.otp.minSvn ≤ t.otp.minSvn ∧ (s.otp.dbgOff = true → t.otp.dbgOff = true)
        ∧ (∀ i : Fin 4, s.otp.prog.getLsbD i.val = true → tblFind t.otp.keys i.val = tblFind s.otp.keys i.val))
  ∧ (∀ (c : Instr) (s t : State), exec c s = .next t → (∀ (f : Fin 2) (reads : Bool), c ≠ .flashOperationDone f reads) →
      t.flash = s.flash)

/-- Whatever the state, a command that is not the metrology die's own changes nothing of the die but what lies on the link and the
frames it has to send again: no energy register, MSEC, tariff, stored copy, parameter in force or staged, change counter, log
entry, self-test or display. A command that came over the link changes no parameter, energy register, MSEC, change counter or
log entry either, and it leaves the tariff alone where TARIFF_SRC is 1. -/
def Obligations.TheMainDieCannotReachTheMeasurement : Prop :=
  (∀ (c : Instr) (s t : State), exec c s = .next t → groupOf c ≠ .meterDie →
    t.meter = { s.meter with
      unacked := t.meter.unacked, arrived := t.meter.arrived, resent := t.meter.resent, status := t.meter.status,
      command := t.meter.command })
  ∧ (∀ (c : Instr) (s t : State), exec c s = .next t → linkCommand c = true →
      t.meter.energy = s.meter.energy ∧ t.meter.msec = s.meter.msec ∧ t.meter.params = s.meter.params
        ∧ t.meter.committed = s.meter.committed ∧ t.meter.staged = s.meter.staged ∧ t.meter.chg = s.meter.chg
        ∧ t.meter.log = s.meter.log ∧ t.meter.logged = s.meter.logged ∧ t.meter.copyA = s.meter.copyA
        ∧ t.meter.copyB = s.meter.copyB ∧ t.meter.unsealed = s.meter.unsealed
        ∧ (s.meter.param 0x43 = 1 → t.meter.tariff = s.meter.tariff ∧ t.meter.nextTariff = s.meter.nextTariff))
end

