-- ==== Sys2Proof/Laws/Bytes.lean ====
section
/-! SUPPORT. Laws of numbers laid out in bytes, the most significant first. -/

namespace Sys2Proof.Machine

@[simp] theorem bigEndian_length (n v : Nat) : (bigEndian n v).length = n := by
  induction n <;> simp [bigEndian, *]

theorem fromBytes_append (l m : List Byte) : fromBytes (l ++ m) = fromBytes l * 256 ^ m.length + fromBytes m := by
  have key : ∀ (m : List Byte) (a : Nat),
      m.foldl (fun a b => 256 * a + b.toNat) a = a * 256 ^ m.length + m.foldl (fun a b => 256 * a + b.toNat) 0 := by
    intro m
    induction m with
    | nil => simp
    | cons b m ih =>
      intro a
      simp only [List.foldl_cons, List.length_cons]
      rw [ih (256 * a + b.toNat), ih (256 * 0 + b.toNat), Nat.pow_succ]
      ring
  unfold fromBytes
  rw [List.foldl_append, key m]

/-- Reading n bytes gives back the low 8n bits of the number laid out in them. -/
theorem fromBytes_bigEndian (n v : Nat) : fromBytes (bigEndian n v) = v % 256 ^ n := by
  induction n with
  | zero => simp [bigEndian, fromBytes, Nat.mod_one]
  | succ n ih =>
    have h := fromBytes_append [BitVec.ofNat 8 (v / 256 ^ n)] (bigEndian n v)
    rw [bigEndian_length, ih] at h
    rw [bigEndian, show BitVec.ofNat 8 (v / 256 ^ n) :: bigEndian n v = [BitVec.ofNat 8 (v / 256 ^ n)] ++ bigEndian n v
      from rfl, h]
    simp only [fromBytes, List.foldl_cons, List.foldl_nil, BitVec.toNat_ofNat]
    rw [Nat.pow_succ 256 n, Nat.mod_mul (x := v) (a := 256 ^ n) (b := 256), Nat.mul_zero, Nat.zero_add]
    norm_num
    ring

/-- A field that stands at the front of a payload reads back. -/
theorem payloadField_bigEndian (n v : Nat) (t : List Byte) :
    payloadField (bigEndian n v ++ t) 0 n = v % 256 ^ n := by
  simp only [payloadField, List.drop_zero]
  rw [List.take_append_of_le_length (by simp), List.take_of_length_le (by simp)]
  exact fromBytes_bigEndian n v

/-- A field behind others reads as it does without them. -/
theorem payloadField_append (l t : List Byte) (n : Nat) :
    payloadField (l ++ t) l.length n = payloadField t 0 n := by
  simp [payloadField]

end Sys2Proof.Machine
end

