-- ==== Sys2Proof/Laws/Table.lean ====
section
/-! SUPPORT. Laws of the sparse tables: what a number holds after a change of the table, and that every change keeps the
canonical form. The read laws hold of every table, sorted or not. -/

namespace Sys2Proof.Machine

variable {α : Type}

@[simp] theorem tblFind_nil (k : Nat) : tblFind ([] : Tbl α) k = none := rfl

@[simp] theorem tblGet_nil (d : α) (k : Nat) : tblGet ([] : Tbl α) d k = d := rfl

theorem tblFind_tblPut_same (t : Tbl α) (k : Nat) (v : α) : tblFind (tblPut t k v) k = some v := by
  induction t with
  | nil => simp [tblPut, tblFind]
  | cons p t ih =>
    obtain ⟨n, w⟩ := p
    simp only [tblPut]
    split
    · simp [tblFind]
    · split
      · simp [tblFind]
      · simp [tblFind, *]

theorem tblFind_tblPut_other (t : Tbl α) {k j : Nat} (v : α) (h : j ≠ k) :
    tblFind (tblPut t k v) j = tblFind t j := by
  induction t with
  | nil => simp [tblPut, tblFind, Ne.symm h]
  | cons p t ih =>
    obtain ⟨n, w⟩ := p
    simp only [tblPut]
    split
    · simp [tblFind, Ne.symm h]
    · split
      · subst_vars; simp [tblFind, Ne.symm h]
      · simp [tblFind, ih]

theorem tblFind_tblDel_same (t : Tbl α) (k : Nat) : tblFind (tblDel t k) k = none := by
  induction t with
  | nil => rfl
  | cons p t ih =>
    obtain ⟨n, w⟩ := p
    simp only [tblDel]
    split
    · exact ih
    · simp [tblFind, *]

theorem tblFind_tblDel_other (t : Tbl α) {k j : Nat} (h : j ≠ k) : tblFind (tblDel t k) j = tblFind t j := by
  induction t with
  | nil => rfl
  | cons p t ih =>
    obtain ⟨n, w⟩ := p
    simp only [tblDel]
    split
    · subst_vars; simp [tblFind, Ne.symm h, ih]
    · simp [tblFind, ih]

/-- A number holds what was put into its place. -/
@[simp] theorem tblGet_tblPut_same (t : Tbl α) (d : α) (k : Nat) (v : α) : tblGet (tblPut t k v) d k = v := by
  simp [tblGet, tblFind_tblPut_same]

/-- Every other number keeps what it held. -/
theorem tblGet_tblPut_other (t : Tbl α) (d : α) {k j : Nat} (v : α) (h : j ≠ k) :
    tblGet (tblPut t k v) d j = tblGet t d j := by
  simp [tblGet, tblFind_tblPut_other t v h]

@[simp] theorem tblGet_tblDel_same (t : Tbl α) (d : α) (k : Nat) : tblGet (tblDel t k) d k = d := by
  simp [tblGet, tblFind_tblDel_same]

theorem tblGet_tblDel_other (t : Tbl α) (d : α) {k j : Nat} (h : j ≠ k) : tblGet (tblDel t k) d j = tblGet t d j := by
  simp [tblGet, tblFind_tblDel_other t h]

/-- A number holds the value it was set to, the default not less than any other. -/
@[simp] theorem tblGet_tblSet_same [DecidableEq α] (t : Tbl α) (d : α) (k : Nat) (v : α) :
    tblGet (tblSet t d k v) d k = v := by
  by_cases h : v = d <;> simp [tblSet, h]

/-- Every other number keeps what it held, whatever its own default. -/
theorem tblGet_tblSet_other [DecidableEq α] (t : Tbl α) (d : α) {e : α} {k j : Nat} (v : α) (h : j ≠ k) :
    tblGet (tblSet t d k v) e j = tblGet t e j := by
  by_cases hv : v = d <;> simp [tblSet, hv, tblGet_tblDel_other _ _ h, tblGet_tblPut_other _ _ _ h]

/-- What a number holds after a set, both cases at once. -/
theorem tblGet_tblSet [DecidableEq α] (t : Tbl α) (d : α) (k j : Nat) (v : α) :
    tblGet (tblSet t d k v) d j = if j = k then v else tblGet t d j := by
  split
  · subst_vars; simp
  · exact tblGet_tblSet_other t d v ‹_›

/-! ## The canonical form -/

/-- The canonical form in words: numbers strictly rising, no entry the default. -/
theorem tblWf_iff [DecidableEq α] (d : α) (t : Tbl α) :
    tblWf d t = true ↔ t.Pairwise (fun a b => a.1 < b.1) ∧ ∀ p ∈ t, p.2 ≠ d := by
  induction t with
  | nil => simp [tblWf]
  | cons p t ih =>
    obtain ⟨n, v⟩ := p
    cases t with
    | nil => simp [tblWf]
    | cons q t =>
      obtain ⟨m, w⟩ := q
      simp only [tblWf, Bool.and_eq_true, decide_eq_true_eq, ih, List.pairwise_cons, List.mem_cons, forall_eq_or_imp]
      constructor
      · rintro ⟨⟨h, hv⟩, ⟨h1, h2⟩, h3, h4⟩
        exact ⟨⟨⟨h, fun a ha => lt_trans h (h1 a ha)⟩, h1, h2⟩, hv, h3, h4⟩
      · rintro ⟨⟨⟨h, -⟩, h1, h2⟩, hv, h3, h4⟩
        exact ⟨⟨h, hv⟩, ⟨h1, h2⟩, h3, h4⟩

theorem mem_of_mem_tblDel (t : Tbl α) (k : Nat) {p : Nat × α} (h : p ∈ tblDel t k) : p ∈ t := by
  induction t with
  | nil => simp [tblDel] at h
  | cons q t ih =>
    obtain ⟨n, w⟩ := q
    simp only [tblDel] at h
    split at h
    · exact List.mem_cons_of_mem _ (ih h)
    · rcases List.mem_cons.mp h with h | h
      · simp [h]
      · exact List.mem_cons_of_mem _ (ih h)

theorem mem_of_mem_tblPut (t : Tbl α) (k : Nat) (v : α) {p : Nat × α} (h : p ∈ tblPut t k v) :
    p = (k, v) ∨ p ∈ t := by
  induction t with
  | nil => simpa [tblPut] using h
  | cons q t ih =>
    obtain ⟨n, w⟩ := q
    simp only [tblPut] at h
    split at h
    · simpa using h
    · split at h
      · rcases List.mem_cons.mp h with h | h
        · exact .inl h
        · exact .inr (List.mem_cons_of_mem _ h)
      · rcases List.mem_cons.mp h with h | h
        · exact .inr (by simp [h])
        · rcases ih h with h | h
          · exact .inl h
          · exact .inr (List.mem_cons_of_mem _ h)

theorem tblWf_tblDel [DecidableEq α] (d : α) (t : Tbl α) (k : Nat) (h : tblWf d t = true) :
    tblWf d (tblDel t k) = true := by
  rw [tblWf_iff] at *
  obtain ⟨hp, hd⟩ := h
  refine ⟨?_, fun p hm => hd p (mem_of_mem_tblDel t k hm)⟩
  induction t with
  | nil => simp [tblDel]
  | cons q t ih =>
    obtain ⟨n, w⟩ := q
    rw [List.pairwise_cons] at hp
    have ht := ih hp.2 (fun p hm => hd p (List.mem_cons_of_mem _ hm))
    simp only [tblDel]
    split
    · exact ht
    · exact List.pairwise_cons.mpr ⟨fun a ha => hp.1 a (mem_of_mem_tblDel t k ha), ht⟩

theorem tblWf_tblPut [DecidableEq α] (d : α) (t : Tbl α) (k : Nat) (v : α) (hv : v ≠ d) (h : tblWf d t = true) :
    tblWf d (tblPut t k v) = true := by
  rw [tblWf_iff] at *
  obtain ⟨hp, hd⟩ := h
  constructor
  · clear hd
    induction t with
    | nil => simp [tblPut]
    | cons q t ih =>
      obtain ⟨n, w⟩ := q
      rw [List.pairwise_cons] at hp
      simp only [tblPut]
      split
      · refine List.pairwise_cons.mpr ⟨?_, List.pairwise_cons.mpr hp⟩
        intro a ha
        rcases List.mem_cons.mp ha with rfl | ha
        · assumption
        · exact lt_trans ‹_› (hp.1 a ha)
      · split
        · subst_vars; exact List.pairwise_cons.mpr hp
        · refine List.pairwise_cons.mpr ⟨?_, ih hp.2⟩
          intro a ha
          rcases mem_of_mem_tblPut t k v ha with rfl | ha
          · show n < k; omega
          · exact hp.1 a ha
  · intro p hm
    rcases mem_of_mem_tblPut t k v hm with rfl | hm
    · exact hv
    · exact hd p hm

/-- Setting a number keeps the canonical form. -/
theorem tblWf_tblSet [DecidableEq α] (d : α) (t : Tbl α) (k : Nat) (v : α) (h : tblWf d t = true) :
    tblWf d (tblSet t d k v) = true := by
  unfold tblSet
  split
  · exact tblWf_tblDel d t k h
  · exact tblWf_tblPut d t k v ‹_› h

end Sys2Proof.Machine
end

