-- ==== Sys2Proof/Laws/State.lean ====
section
/-! SUPPORT. What each update of the state leaves alone, one lemma a field, and what each accessor reads after the update
of its own structure. -/

namespace Sys2Proof.Machine.State


/-! ## setReg -/

section

variable (s : State) (k : Nat) (w : Word)

@[simp] theorem setReg_staging : (s.setReg k w).staging = s.staging := rfl
@[simp] theorem setReg_snaps : (s.setReg k w).snaps = s.snaps := rfl
@[simp] theorem setReg_seats : (s.setReg k w).seats = s.seats := rfl
@[simp] theorem setReg_orphans : (s.setReg k w).orphans = s.orphans := rfl
@[simp] theorem setReg_gaps : (s.setReg k w).gaps = s.gaps := rfl
@[simp] theorem setReg_owners : (s.setReg k w).owners = s.owners := rfl
@[simp] theorem setReg_halfA : (s.setReg k w).halfA = s.halfA := rfl
@[simp] theorem setReg_halfB : (s.setReg k w).halfB = s.halfB := rfl
@[simp] theorem setReg_referee : (s.setReg k w).referee = s.referee := rfl
@[simp] theorem setReg_profile : (s.setReg k w).profile = s.profile := rfl
@[simp] theorem setReg_profileTarget : (s.setReg k w).profileTarget = s.profileTarget := rfl
@[simp] theorem setReg_tref : (s.setReg k w).tref = s.tref := rfl
@[simp] theorem setReg_stood : (s.setReg k w).stood = s.stood := rfl
@[simp] theorem setReg_lockAt : (s.setReg k w).lockAt = s.lockAt := rfl
@[simp] theorem setReg_trefRuns : (s.setReg k w).trefRuns = s.trefRuns := rfl
@[simp] theorem setReg_consumers : (s.setReg k w).consumers = s.consumers := rfl
@[simp] theorem setReg_timebases : (s.setReg k w).timebases = s.timebases := rfl
@[simp] theorem setReg_slots : (s.setReg k w).slots = s.slots := rfl
@[simp] theorem setReg_pads : (s.setReg k w).pads = s.pads := rfl
@[simp] theorem setReg_sars : (s.setReg k w).sars = s.sars := rfl
@[simp] theorem setReg_mirrors : (s.setReg k w).mirrors = s.mirrors := rfl
@[simp] theorem setReg_fabricTime : (s.setReg k w).fabricTime = s.fabricTime := rfl
@[simp] theorem setReg_banks : (s.setReg k w).banks = s.banks := rfl
@[simp] theorem setReg_bankMarks : (s.setReg k w).bankMarks = s.bankMarks := rfl
@[simp] theorem setReg_imem : (s.setReg k w).imem = s.imem := rfl
@[simp] theorem setReg_imemMarks : (s.setReg k w).imemMarks = s.imemMarks := rfl
@[simp] theorem setReg_vmem : (s.setReg k w).vmem = s.vmem := rfl
@[simp] theorem setReg_vmemMarks : (s.setReg k w).vmemMarks = s.vmemMarks := rfl
@[simp] theorem setReg_lines : (s.setReg k w).lines = s.lines := rfl
@[simp] theorem setReg_synths : (s.setReg k w).synths = s.synths := rfl
@[simp] theorem setReg_lineBlanked : (s.setReg k w).lineBlanked = s.lineBlanked := rfl
@[simp] theorem setReg_freeCount : (s.setReg k w).freeCount = s.freeCount := rfl
@[simp] theorem setReg_engines : (s.setReg k w).engines = s.engines := rfl
@[simp] theorem setReg_progs : (s.setReg k w).progs = s.progs := rfl
@[simp] theorem setReg_pollEntries : (s.setReg k w).pollEntries = s.pollEntries := rfl
@[simp] theorem setReg_pipes : (s.setReg k w).pipes = s.pipes := rfl
@[simp] theorem setReg_recogs : (s.setReg k w).recogs = s.recogs := rfl
@[simp] theorem setReg_coders : (s.setReg k w).coders = s.coders := rfl
@[simp] theorem setReg_codeHalves : (s.setReg k w).codeHalves = s.codeHalves := rfl
@[simp] theorem setReg_chans : (s.setReg k w).chans = s.chans := rfl
@[simp] theorem setReg_chanCfgs : (s.setReg k w).chanCfgs = s.chanCfgs := rfl
@[simp] theorem setReg_bushels : (s.setReg k w).bushels = s.bushels := rfl
@[simp] theorem setReg_meter : (s.setReg k w).meter = s.meter := rfl
@[simp] theorem setReg_metLink : (s.setReg k w).metLink = s.metLink := rfl
@[simp] theorem setReg_archive : (s.setReg k w).archive = s.archive := rfl
@[simp] theorem setReg_links : (s.setReg k w).links = s.links := rfl
@[simp] theorem setReg_routes : (s.setReg k w).routes = s.routes := rfl
@[simp] theorem setReg_offers : (s.setReg k w).offers = s.offers := rfl
@[simp] theorem setReg_router : (s.setReg k w).router = s.router := rfl
@[simp] theorem setReg_stewards : (s.setReg k w).stewards = s.stewards := rfl
@[simp] theorem setReg_flash : (s.setReg k w).flash = s.flash := rfl
@[simp] theorem setReg_flashOps : (s.setReg k w).flashOps = s.flashOps := rfl
@[simp] theorem setReg_otp : (s.setReg k w).otp = s.otp := rfl
@[simp] theorem setReg_envLock : (s.setReg k w).envLock = s.envLock := rfl
@[simp] theorem setReg_vcDue : (s.setReg k w).vcDue = s.vcDue := rfl
@[simp] theorem setReg_vcLoading : (s.setReg k w).vcLoading = s.vcLoading := rfl
@[simp] theorem setReg_vcEntry : (s.setReg k w).vcEntry = s.vcEntry := rfl
@[simp] theorem setReg_ports : (s.setReg k w).ports = s.ports := rfl
@[simp] theorem setReg_twBuses : (s.setReg k w).twBuses = s.twBuses := rfl
@[simp] theorem setReg_pmbus : (s.setReg k w).pmbus = s.pmbus := rfl
@[simp] theorem setReg_power : (s.setReg k w).power = s.power := rfl
@[simp] theorem setReg_gpPins : (s.setReg k w).gpPins = s.gpPins := rfl
@[simp] theorem setReg_jtag : (s.setReg k w).jtag = s.jtag := rfl
@[simp] theorem setReg_pending : (s.setReg k w).pending = s.pending := rfl

end

/-! ## put -/

section

variable (s : State) (b : Nat) (f : Fld) (v : Nat)

@[simp] theorem put_staging : (s.put b f v).staging = s.staging := setReg_staging _ _ _
@[simp] theorem put_snaps : (s.put b f v).snaps = s.snaps := setReg_snaps _ _ _
@[simp] theorem put_seats : (s.put b f v).seats = s.seats := setReg_seats _ _ _
@[simp] theorem put_orphans : (s.put b f v).orphans = s.orphans := setReg_orphans _ _ _
@[simp] theorem put_gaps : (s.put b f v).gaps = s.gaps := setReg_gaps _ _ _
@[simp] theorem put_owners : (s.put b f v).owners = s.owners := setReg_owners _ _ _
@[simp] theorem put_halfA : (s.put b f v).halfA = s.halfA := setReg_halfA _ _ _
@[simp] theorem put_halfB : (s.put b f v).halfB = s.halfB := setReg_halfB _ _ _
@[simp] theorem put_referee : (s.put b f v).referee = s.referee := setReg_referee _ _ _
@[simp] theorem put_profile : (s.put b f v).profile = s.profile := setReg_profile _ _ _
@[simp] theorem put_profileTarget : (s.put b f v).profileTarget = s.profileTarget := setReg_profileTarget _ _ _
@[simp] theorem put_tref : (s.put b f v).tref = s.tref := setReg_tref _ _ _
@[simp] theorem put_stood : (s.put b f v).stood = s.stood := setReg_stood _ _ _
@[simp] theorem put_lockAt : (s.put b f v).lockAt = s.lockAt := setReg_lockAt _ _ _
@[simp] theorem put_trefRuns : (s.put b f v).trefRuns = s.trefRuns := setReg_trefRuns _ _ _
@[simp] theorem put_consumers : (s.put b f v).consumers = s.consumers := setReg_consumers _ _ _
@[simp] theorem put_timebases : (s.put b f v).timebases = s.timebases := setReg_timebases _ _ _
@[simp] theorem put_slots : (s.put b f v).slots = s.slots := setReg_slots _ _ _
@[simp] theorem put_pads : (s.put b f v).pads = s.pads := setReg_pads _ _ _
@[simp] theorem put_sars : (s.put b f v).sars = s.sars := setReg_sars _ _ _
@[simp] theorem put_mirrors : (s.put b f v).mirrors = s.mirrors := setReg_mirrors _ _ _
@[simp] theorem put_fabricTime : (s.put b f v).fabricTime = s.fabricTime := setReg_fabricTime _ _ _
@[simp] theorem put_banks : (s.put b f v).banks = s.banks := setReg_banks _ _ _
@[simp] theorem put_bankMarks : (s.put b f v).bankMarks = s.bankMarks := setReg_bankMarks _ _ _
@[simp] theorem put_imem : (s.put b f v).imem = s.imem := setReg_imem _ _ _
@[simp] theorem put_imemMarks : (s.put b f v).imemMarks = s.imemMarks := setReg_imemMarks _ _ _
@[simp] theorem put_vmem : (s.put b f v).vmem = s.vmem := setReg_vmem _ _ _
@[simp] theorem put_vmemMarks : (s.put b f v).vmemMarks = s.vmemMarks := setReg_vmemMarks _ _ _
@[simp] theorem put_lines : (s.put b f v).lines = s.lines := setReg_lines _ _ _
@[simp] theorem put_synths : (s.put b f v).synths = s.synths := setReg_synths _ _ _
@[simp] theorem put_lineBlanked : (s.put b f v).lineBlanked = s.lineBlanked := setReg_lineBlanked _ _ _
@[simp] theorem put_freeCount : (s.put b f v).freeCount = s.freeCount := setReg_freeCount _ _ _
@[simp] theorem put_engines : (s.put b f v).engines = s.engines := setReg_engines _ _ _
@[simp] theorem put_progs : (s.put b f v).progs = s.progs := setReg_progs _ _ _
@[simp] theorem put_pollEntries : (s.put b f v).pollEntries = s.pollEntries := setReg_pollEntries _ _ _
@[simp] theorem put_pipes : (s.put b f v).pipes = s.pipes := setReg_pipes _ _ _
@[simp] theorem put_recogs : (s.put b f v).recogs = s.recogs := setReg_recogs _ _ _
@[simp] theorem put_coders : (s.put b f v).coders = s.coders := setReg_coders _ _ _
@[simp] theorem put_codeHalves : (s.put b f v).codeHalves = s.codeHalves := setReg_codeHalves _ _ _
@[simp] theorem put_chans : (s.put b f v).chans = s.chans := setReg_chans _ _ _
@[simp] theorem put_chanCfgs : (s.put b f v).chanCfgs = s.chanCfgs := setReg_chanCfgs _ _ _
@[simp] theorem put_bushels : (s.put b f v).bushels = s.bushels := setReg_bushels _ _ _
@[simp] theorem put_meter : (s.put b f v).meter = s.meter := setReg_meter _ _ _
@[simp] theorem put_metLink : (s.put b f v).metLink = s.metLink := setReg_metLink _ _ _
@[simp] theorem put_archive : (s.put b f v).archive = s.archive := setReg_archive _ _ _
@[simp] theorem put_links : (s.put b f v).links = s.links := setReg_links _ _ _
@[simp] theorem put_routes : (s.put b f v).routes = s.routes := setReg_routes _ _ _
@[simp] theorem put_offers : (s.put b f v).offers = s.offers := setReg_offers _ _ _
@[simp] theorem put_router : (s.put b f v).router = s.router := setReg_router _ _ _
@[simp] theorem put_stewards : (s.put b f v).stewards = s.stewards := setReg_stewards _ _ _
@[simp] theorem put_flash : (s.put b f v).flash = s.flash := setReg_flash _ _ _
@[simp] theorem put_flashOps : (s.put b f v).flashOps = s.flashOps := setReg_flashOps _ _ _
@[simp] theorem put_otp : (s.put b f v).otp = s.otp := setReg_otp _ _ _
@[simp] theorem put_envLock : (s.put b f v).envLock = s.envLock := setReg_envLock _ _ _
@[simp] theorem put_vcDue : (s.put b f v).vcDue = s.vcDue := setReg_vcDue _ _ _
@[simp] theorem put_vcLoading : (s.put b f v).vcLoading = s.vcLoading := setReg_vcLoading _ _ _
@[simp] theorem put_vcEntry : (s.put b f v).vcEntry = s.vcEntry := setReg_vcEntry _ _ _
@[simp] theorem put_ports : (s.put b f v).ports = s.ports := setReg_ports _ _ _
@[simp] theorem put_twBuses : (s.put b f v).twBuses = s.twBuses := setReg_twBuses _ _ _
@[simp] theorem put_pmbus : (s.put b f v).pmbus = s.pmbus := setReg_pmbus _ _ _
@[simp] theorem put_power : (s.put b f v).power = s.power := setReg_power _ _ _
@[simp] theorem put_gpPins : (s.put b f v).gpPins = s.gpPins := setReg_gpPins _ _ _
@[simp] theorem put_jtag : (s.put b f v).jtag = s.jtag := setReg_jtag _ _ _
@[simp] theorem put_pending : (s.put b f v).pending = s.pending := setReg_pending _ _ _

end

/-! ## count -/

section

variable (s : State) (k n : Nat)

@[simp] theorem count_staging : (s.count k n).staging = s.staging := setReg_staging _ _ _
@[simp] theorem count_snaps : (s.count k n).snaps = s.snaps := setReg_snaps _ _ _
@[simp] theorem count_seats : (s.count k n).seats = s.seats := setReg_seats _ _ _
@[simp] theorem count_orphans : (s.count k n).orphans = s.orphans := setReg_orphans _ _ _
@[simp] theorem count_gaps : (s.count k n).gaps = s.gaps := setReg_gaps _ _ _
@[simp] theorem count_owners : (s.count k n).owners = s.owners := setReg_owners _ _ _
@[simp] theorem count_halfA : (s.count k n).halfA = s.halfA := setReg_halfA _ _ _
@[simp] theorem count_halfB : (s.count k n).halfB = s.halfB := setReg_halfB _ _ _
@[simp] theorem count_referee : (s.count k n).referee = s.referee := setReg_referee _ _ _
@[simp] theorem count_profile : (s.count k n).profile = s.profile := setReg_profile _ _ _
@[simp] theorem count_profileTarget : (s.count k n).profileTarget = s.profileTarget := setReg_profileTarget _ _ _
@[simp] theorem count_tref : (s.count k n).tref = s.tref := setReg_tref _ _ _
@[simp] theorem count_stood : (s.count k n).stood = s.stood := setReg_stood _ _ _
@[simp] theorem count_lockAt : (s.count k n).lockAt = s.lockAt := setReg_lockAt _ _ _
@[simp] theorem count_trefRuns : (s.count k n).trefRuns = s.trefRuns := setReg_trefRuns _ _ _
@[simp] theorem count_consumers : (s.count k n).consumers = s.consumers := setReg_consumers _ _ _
@[simp] theorem count_timebases : (s.count k n).timebases = s.timebases := setReg_timebases _ _ _
@[simp] theorem count_slots : (s.count k n).slots = s.slots := setReg_slots _ _ _
@[simp] theorem count_pads : (s.count k n).pads = s.pads := setReg_pads _ _ _
@[simp] theorem count_sars : (s.count k n).sars = s.sars := setReg_sars _ _ _
@[simp] theorem count_mirrors : (s.count k n).mirrors = s.mirrors := setReg_mirrors _ _ _
@[simp] theorem count_fabricTime : (s.count k n).fabricTime = s.fabricTime := setReg_fabricTime _ _ _
@[simp] theorem count_banks : (s.count k n).banks = s.banks := setReg_banks _ _ _
@[simp] theorem count_bankMarks : (s.count k n).bankMarks = s.bankMarks := setReg_bankMarks _ _ _
@[simp] theorem count_imem : (s.count k n).imem = s.imem := setReg_imem _ _ _
@[simp] theorem count_imemMarks : (s.count k n).imemMarks = s.imemMarks := setReg_imemMarks _ _ _
@[simp] theorem count_vmem : (s.count k n).vmem = s.vmem := setReg_vmem _ _ _
@[simp] theorem count_vmemMarks : (s.count k n).vmemMarks = s.vmemMarks := setReg_vmemMarks _ _ _
@[simp] theorem count_lines : (s.count k n).lines = s.lines := setReg_lines _ _ _
@[simp] theorem count_synths : (s.count k n).synths = s.synths := setReg_synths _ _ _
@[simp] theorem count_lineBlanked : (s.count k n).lineBlanked = s.lineBlanked := setReg_lineBlanked _ _ _
@[simp] theorem count_freeCount : (s.count k n).freeCount = s.freeCount := setReg_freeCount _ _ _
@[simp] theorem count_engines : (s.count k n).engines = s.engines := setReg_engines _ _ _
@[simp] theorem count_progs : (s.count k n).progs = s.progs := setReg_progs _ _ _
@[simp] theorem count_pollEntries : (s.count k n).pollEntries = s.pollEntries := setReg_pollEntries _ _ _
@[simp] theorem count_pipes : (s.count k n).pipes = s.pipes := setReg_pipes _ _ _
@[simp] theorem count_recogs : (s.count k n).recogs = s.recogs := setReg_recogs _ _ _
@[simp] theorem count_coders : (s.count k n).coders = s.coders := setReg_coders _ _ _
@[simp] theorem count_codeHalves : (s.count k n).codeHalves = s.codeHalves := setReg_codeHalves _ _ _
@[simp] theorem count_chans : (s.count k n).chans = s.chans := setReg_chans _ _ _
@[simp] theorem count_chanCfgs : (s.count k n).chanCfgs = s.chanCfgs := setReg_chanCfgs _ _ _
@[simp] theorem count_bushels : (s.count k n).bushels = s.bushels := setReg_bushels _ _ _
@[simp] theorem count_meter : (s.count k n).meter = s.meter := setReg_meter _ _ _
@[simp] theorem count_metLink : (s.count k n).metLink = s.metLink := setReg_metLink _ _ _
@[simp] theorem count_archive : (s.count k n).archive = s.archive := setReg_archive _ _ _
@[simp] theorem count_links : (s.count k n).links = s.links := setReg_links _ _ _
@[simp] theorem count_routes : (s.count k n).routes = s.routes := setReg_routes _ _ _
@[simp] theorem count_offers : (s.count k n).offers = s.offers := setReg_offers _ _ _
@[simp] theorem count_router : (s.count k n).router = s.router := setReg_router _ _ _
@[simp] theorem count_stewards : (s.count k n).stewards = s.stewards := setReg_stewards _ _ _
@[simp] theorem count_flash : (s.count k n).flash = s.flash := setReg_flash _ _ _
@[simp] theorem count_flashOps : (s.count k n).flashOps = s.flashOps := setReg_flashOps _ _ _
@[simp] theorem count_otp : (s.count k n).otp = s.otp := setReg_otp _ _ _
@[simp] theorem count_envLock : (s.count k n).envLock = s.envLock := setReg_envLock _ _ _
@[simp] theorem count_vcDue : (s.count k n).vcDue = s.vcDue := setReg_vcDue _ _ _
@[simp] theorem count_vcLoading : (s.count k n).vcLoading = s.vcLoading := setReg_vcLoading _ _ _
@[simp] theorem count_vcEntry : (s.count k n).vcEntry = s.vcEntry := setReg_vcEntry _ _ _
@[simp] theorem count_ports : (s.count k n).ports = s.ports := setReg_ports _ _ _
@[simp] theorem count_twBuses : (s.count k n).twBuses = s.twBuses := setReg_twBuses _ _ _
@[simp] theorem count_pmbus : (s.count k n).pmbus = s.pmbus := setReg_pmbus _ _ _
@[simp] theorem count_power : (s.count k n).power = s.power := setReg_power _ _ _
@[simp] theorem count_gpPins : (s.count k n).gpPins = s.gpPins := setReg_gpPins _ _ _
@[simp] theorem count_jtag : (s.count k n).jtag = s.jtag := setReg_jtag _ _ _
@[simp] theorem count_pending : (s.count k n).pending = s.pending := setReg_pending _ _ _

end

/-! ## refuseWrite -/

section

variable (s : State) (h : Half) (a : Nat)

@[simp] theorem refuseWrite_staging : (s.refuseWrite h a).staging = s.staging := (setReg_staging _ _ _).trans (count_staging _ _ _)
@[simp] theorem refuseWrite_snaps : (s.refuseWrite h a).snaps = s.snaps := (setReg_snaps _ _ _).trans (count_snaps _ _ _)
@[simp] theorem refuseWrite_seats : (s.refuseWrite h a).seats = s.seats := (setReg_seats _ _ _).trans (count_seats _ _ _)
@[simp] theorem refuseWrite_orphans : (s.refuseWrite h a).orphans = s.orphans := (setReg_orphans _ _ _).trans (count_orphans _ _ _)
@[simp] theorem refuseWrite_gaps : (s.refuseWrite h a).gaps = s.gaps := (setReg_gaps _ _ _).trans (count_gaps _ _ _)
@[simp] theorem refuseWrite_owners : (s.refuseWrite h a).owners = s.owners := (setReg_owners _ _ _).trans (count_owners _ _ _)
@[simp] theorem refuseWrite_halfA : (s.refuseWrite h a).halfA = s.halfA := (setReg_halfA _ _ _).trans (count_halfA _ _ _)
@[simp] theorem refuseWrite_halfB : (s.refuseWrite h a).halfB = s.halfB := (setReg_halfB _ _ _).trans (count_halfB _ _ _)
@[simp] theorem refuseWrite_referee : (s.refuseWrite h a).referee = s.referee := (setReg_referee _ _ _).trans (count_referee _ _ _)
@[simp] theorem refuseWrite_profile : (s.refuseWrite h a).profile = s.profile := (setReg_profile _ _ _).trans (count_profile _ _ _)
@[simp] theorem refuseWrite_profileTarget : (s.refuseWrite h a).profileTarget = s.profileTarget := (setReg_profileTarget _ _ _).trans (count_profileTarget _ _ _)
@[simp] theorem refuseWrite_tref : (s.refuseWrite h a).tref = s.tref := (setReg_tref _ _ _).trans (count_tref _ _ _)
@[simp] theorem refuseWrite_stood : (s.refuseWrite h a).stood = s.stood := (setReg_stood _ _ _).trans (count_stood _ _ _)
@[simp] theorem refuseWrite_lockAt : (s.refuseWrite h a).lockAt = s.lockAt := (setReg_lockAt _ _ _).trans (count_lockAt _ _ _)
@[simp] theorem refuseWrite_trefRuns : (s.refuseWrite h a).trefRuns = s.trefRuns := (setReg_trefRuns _ _ _).trans (count_trefRuns _ _ _)
@[simp] theorem refuseWrite_consumers : (s.refuseWrite h a).consumers = s.consumers := (setReg_consumers _ _ _).trans (count_consumers _ _ _)
@[simp] theorem refuseWrite_timebases : (s.refuseWrite h a).timebases = s.timebases := (setReg_timebases _ _ _).trans (count_timebases _ _ _)
@[simp] theorem refuseWrite_slots : (s.refuseWrite h a).slots = s.slots := (setReg_slots _ _ _).trans (count_slots _ _ _)
@[simp] theorem refuseWrite_pads : (s.refuseWrite h a).pads = s.pads := (setReg_pads _ _ _).trans (count_pads _ _ _)
@[simp] theorem refuseWrite_sars : (s.refuseWrite h a).sars = s.sars := (setReg_sars _ _ _).trans (count_sars _ _ _)
@[simp] theorem refuseWrite_mirrors : (s.refuseWrite h a).mirrors = s.mirrors := (setReg_mirrors _ _ _).trans (count_mirrors _ _ _)
@[simp] theorem refuseWrite_fabricTime : (s.refuseWrite h a).fabricTime = s.fabricTime := (setReg_fabricTime _ _ _).trans (count_fabricTime _ _ _)
@[simp] theorem refuseWrite_banks : (s.refuseWrite h a).banks = s.banks := (setReg_banks _ _ _).trans (count_banks _ _ _)
@[simp] theorem refuseWrite_bankMarks : (s.refuseWrite h a).bankMarks = s.bankMarks := (setReg_bankMarks _ _ _).trans (count_bankMarks _ _ _)
@[simp] theorem refuseWrite_imem : (s.refuseWrite h a).imem = s.imem := (setReg_imem _ _ _).trans (count_imem _ _ _)
@[simp] theorem refuseWrite_imemMarks : (s.refuseWrite h a).imemMarks = s.imemMarks := (setReg_imemMarks _ _ _).trans (count_imemMarks _ _ _)
@[simp] theorem refuseWrite_vmem : (s.refuseWrite h a).vmem = s.vmem := (setReg_vmem _ _ _).trans (count_vmem _ _ _)
@[simp] theorem refuseWrite_vmemMarks : (s.refuseWrite h a).vmemMarks = s.vmemMarks := (setReg_vmemMarks _ _ _).trans (count_vmemMarks _ _ _)
@[simp] theorem refuseWrite_lines : (s.refuseWrite h a).lines = s.lines := (setReg_lines _ _ _).trans (count_lines _ _ _)
@[simp] theorem refuseWrite_synths : (s.refuseWrite h a).synths = s.synths := (setReg_synths _ _ _).trans (count_synths _ _ _)
@[simp] theorem refuseWrite_lineBlanked : (s.refuseWrite h a).lineBlanked = s.lineBlanked := (setReg_lineBlanked _ _ _).trans (count_lineBlanked _ _ _)
@[simp] theorem refuseWrite_freeCount : (s.refuseWrite h a).freeCount = s.freeCount := (setReg_freeCount _ _ _).trans (count_freeCount _ _ _)
@[simp] theorem refuseWrite_engines : (s.refuseWrite h a).engines = s.engines := (setReg_engines _ _ _).trans (count_engines _ _ _)
@[simp] theorem refuseWrite_progs : (s.refuseWrite h a).progs = s.progs := (setReg_progs _ _ _).trans (count_progs _ _ _)
@[simp] theorem refuseWrite_pollEntries : (s.refuseWrite h a).pollEntries = s.pollEntries := (setReg_pollEntries _ _ _).trans (count_pollEntries _ _ _)
@[simp] theorem refuseWrite_pipes : (s.refuseWrite h a).pipes = s.pipes := (setReg_pipes _ _ _).trans (count_pipes _ _ _)
@[simp] theorem refuseWrite_recogs : (s.refuseWrite h a).recogs = s.recogs := (setReg_recogs _ _ _).trans (count_recogs _ _ _)
@[simp] theorem refuseWrite_coders : (s.refuseWrite h a).coders = s.coders := (setReg_coders _ _ _).trans (count_coders _ _ _)
@[simp] theorem refuseWrite_codeHalves : (s.refuseWrite h a).codeHalves = s.codeHalves := (setReg_codeHalves _ _ _).trans (count_codeHalves _ _ _)
@[simp] theorem refuseWrite_chans : (s.refuseWrite h a).chans = s.chans := (setReg_chans _ _ _).trans (count_chans _ _ _)
@[simp] theorem refuseWrite_chanCfgs : (s.refuseWrite h a).chanCfgs = s.chanCfgs := (setReg_chanCfgs _ _ _).trans (count_chanCfgs _ _ _)
@[simp] theorem refuseWrite_bushels : (s.refuseWrite h a).bushels = s.bushels := (setReg_bushels _ _ _).trans (count_bushels _ _ _)
@[simp] theorem refuseWrite_meter : (s.refuseWrite h a).meter = s.meter := (setReg_meter _ _ _).trans (count_meter _ _ _)
@[simp] theorem refuseWrite_metLink : (s.refuseWrite h a).metLink = s.metLink := (setReg_metLink _ _ _).trans (count_metLink _ _ _)
@[simp] theorem refuseWrite_archive : (s.refuseWrite h a).archive = s.archive := (setReg_archive _ _ _).trans (count_archive _ _ _)
@[simp] theorem refuseWrite_links : (s.refuseWrite h a).links = s.links := (setReg_links _ _ _).trans (count_links _ _ _)
@[simp] theorem refuseWrite_routes : (s.refuseWrite h a).routes = s.routes := (setReg_routes _ _ _).trans (count_routes _ _ _)
@[simp] theorem refuseWrite_offers : (s.refuseWrite h a).offers = s.offers := (setReg_offers _ _ _).trans (count_offers _ _ _)
@[simp] theorem refuseWrite_router : (s.refuseWrite h a).router = s.router := (setReg_router _ _ _).trans (count_router _ _ _)
@[simp] theorem refuseWrite_stewards : (s.refuseWrite h a).stewards = s.stewards := (setReg_stewards _ _ _).trans (count_stewards _ _ _)
@[simp] theorem refuseWrite_flash : (s.refuseWrite h a).flash = s.flash := (setReg_flash _ _ _).trans (count_flash _ _ _)
@[simp] theorem refuseWrite_flashOps : (s.refuseWrite h a).flashOps = s.flashOps := (setReg_flashOps _ _ _).trans (count_flashOps _ _ _)
@[simp] theorem refuseWrite_otp : (s.refuseWrite h a).otp = s.otp := (setReg_otp _ _ _).trans (count_otp _ _ _)
@[simp] theorem refuseWrite_envLock : (s.refuseWrite h a).envLock = s.envLock := (setReg_envLock _ _ _).trans (count_envLock _ _ _)
@[simp] theorem refuseWrite_vcDue : (s.refuseWrite h a).vcDue = s.vcDue := (setReg_vcDue _ _ _).trans (count_vcDue _ _ _)
@[simp] theorem refuseWrite_vcLoading : (s.refuseWrite h a).vcLoading = s.vcLoading := (setReg_vcLoading _ _ _).trans (count_vcLoading _ _ _)
@[simp] theorem refuseWrite_vcEntry : (s.refuseWrite h a).vcEntry = s.vcEntry := (setReg_vcEntry _ _ _).trans (count_vcEntry _ _ _)
@[simp] theorem refuseWrite_ports : (s.refuseWrite h a).ports = s.ports := (setReg_ports _ _ _).trans (count_ports _ _ _)
@[simp] theorem refuseWrite_twBuses : (s.refuseWrite h a).twBuses = s.twBuses := (setReg_twBuses _ _ _).trans (count_twBuses _ _ _)
@[simp] theorem refuseWrite_pmbus : (s.refuseWrite h a).pmbus = s.pmbus := (setReg_pmbus _ _ _).trans (count_pmbus _ _ _)
@[simp] theorem refuseWrite_power : (s.refuseWrite h a).power = s.power := (setReg_power _ _ _).trans (count_power _ _ _)
@[simp] theorem refuseWrite_gpPins : (s.refuseWrite h a).gpPins = s.gpPins := (setReg_gpPins _ _ _).trans (count_gpPins _ _ _)
@[simp] theorem refuseWrite_jtag : (s.refuseWrite h a).jtag = s.jtag := (setReg_jtag _ _ _).trans (count_jtag _ _ _)
@[simp] theorem refuseWrite_pending : (s.refuseWrite h a).pending = s.pending := (setReg_pending _ _ _).trans (count_pending _ _ _)

end

/-! ## stage -/

section

variable (s : State) (m : Master) (a : Nat) (w : Word)

@[simp] theorem stage_regs : (s.stage m a w).regs = s.regs := rfl
@[simp] theorem stage_snaps : (s.stage m a w).snaps = s.snaps := rfl
@[simp] theorem stage_seats : (s.stage m a w).seats = s.seats := rfl
@[simp] theorem stage_orphans : (s.stage m a w).orphans = s.orphans := rfl
@[simp] theorem stage_gaps : (s.stage m a w).gaps = s.gaps := rfl
@[simp] theorem stage_owners : (s.stage m a w).owners = s.owners := rfl
@[simp] theorem stage_halfA : (s.stage m a w).halfA = s.halfA := rfl
@[simp] theorem stage_halfB : (s.stage m a w).halfB = s.halfB := rfl
@[simp] theorem stage_referee : (s.stage m a w).referee = s.referee := rfl
@[simp] theorem stage_profile : (s.stage m a w).profile = s.profile := rfl
@[simp] theorem stage_profileTarget : (s.stage m a w).profileTarget = s.profileTarget := rfl
@[simp] theorem stage_tref : (s.stage m a w).tref = s.tref := rfl
@[simp] theorem stage_stood : (s.stage m a w).stood = s.stood := rfl
@[simp] theorem stage_lockAt : (s.stage m a w).lockAt = s.lockAt := rfl
@[simp] theorem stage_trefRuns : (s.stage m a w).trefRuns = s.trefRuns := rfl
@[simp] theorem stage_consumers : (s.stage m a w).consumers = s.consumers := rfl
@[simp] theorem stage_timebases : (s.stage m a w).timebases = s.timebases := rfl
@[simp] theorem stage_slots : (s.stage m a w).slots = s.slots := rfl
@[simp] theorem stage_pads : (s.stage m a w).pads = s.pads := rfl
@[simp] theorem stage_sars : (s.stage m a w).sars = s.sars := rfl
@[simp] theorem stage_mirrors : (s.stage m a w).mirrors = s.mirrors := rfl
@[simp] theorem stage_fabricTime : (s.stage m a w).fabricTime = s.fabricTime := rfl
@[simp] theorem stage_banks : (s.stage m a w).banks = s.banks := rfl
@[simp] theorem stage_bankMarks : (s.stage m a w).bankMarks = s.bankMarks := rfl
@[simp] theorem stage_imem : (s.stage m a w).imem = s.imem := rfl
@[simp] theorem stage_imemMarks : (s.stage m a w).imemMarks = s.imemMarks := rfl
@[simp] theorem stage_vmem : (s.stage m a w).vmem = s.vmem := rfl
@[simp] theorem stage_vmemMarks : (s.stage m a w).vmemMarks = s.vmemMarks := rfl
@[simp] theorem stage_lines : (s.stage m a w).lines = s.lines := rfl
@[simp] theorem stage_synths : (s.stage m a w).synths = s.synths := rfl
@[simp] theorem stage_lineBlanked : (s.stage m a w).lineBlanked = s.lineBlanked := rfl
@[simp] theorem stage_freeCount : (s.stage m a w).freeCount = s.freeCount := rfl
@[simp] theorem stage_engines : (s.stage m a w).engines = s.engines := rfl
@[simp] theorem stage_progs : (s.stage m a w).progs = s.progs := rfl
@[simp] theorem stage_pollEntries : (s.stage m a w).pollEntries = s.pollEntries := rfl
@[simp] theorem stage_pipes : (s.stage m a w).pipes = s.pipes := rfl
@[simp] theorem stage_recogs : (s.stage m a w).recogs = s.recogs := rfl
@[simp] theorem stage_coders : (s.stage m a w).coders = s.coders := rfl
@[simp] theorem stage_codeHalves : (s.stage m a w).codeHalves = s.codeHalves := rfl
@[simp] theorem stage_chans : (s.stage m a w).chans = s.chans := rfl
@[simp] theorem stage_chanCfgs : (s.stage m a w).chanCfgs = s.chanCfgs := rfl
@[simp] theorem stage_bushels : (s.stage m a w).bushels = s.bushels := rfl
@[simp] theorem stage_meter : (s.stage m a w).meter = s.meter := rfl
@[simp] theorem stage_metLink : (s.stage m a w).metLink = s.metLink := rfl
@[simp] theorem stage_archive : (s.stage m a w).archive = s.archive := rfl
@[simp] theorem stage_links : (s.stage m a w).links = s.links := rfl
@[simp] theorem stage_routes : (s.stage m a w).routes = s.routes := rfl
@[simp] theorem stage_offers : (s.stage m a w).offers = s.offers := rfl
@[simp] theorem stage_router : (s.stage m a w).router = s.router := rfl
@[simp] theorem stage_stewards : (s.stage m a w).stewards = s.stewards := rfl
@[simp] theorem stage_flash : (s.stage m a w).flash = s.flash := rfl
@[simp] theorem stage_flashOps : (s.stage m a w).flashOps = s.flashOps := rfl
@[simp] theorem stage_otp : (s.stage m a w).otp = s.otp := rfl
@[simp] theorem stage_envLock : (s.stage m a w).envLock = s.envLock := rfl
@[simp] theorem stage_vcDue : (s.stage m a w).vcDue = s.vcDue := rfl
@[simp] theorem stage_vcLoading : (s.stage m a w).vcLoading = s.vcLoading := rfl
@[simp] theorem stage_vcEntry : (s.stage m a w).vcEntry = s.vcEntry := rfl
@[simp] theorem stage_ports : (s.stage m a w).ports = s.ports := rfl
@[simp] theorem stage_twBuses : (s.stage m a w).twBuses = s.twBuses := rfl
@[simp] theorem stage_pmbus : (s.stage m a w).pmbus = s.pmbus := rfl
@[simp] theorem stage_power : (s.stage m a w).power = s.power := rfl
@[simp] theorem stage_gpPins : (s.stage m a w).gpPins = s.gpPins := rfl
@[simp] theorem stage_jtag : (s.stage m a w).jtag = s.jtag := rfl
@[simp] theorem stage_pending : (s.stage m a w).pending = s.pending := rfl

end

/-! ## unstage -/

section

variable (s : State) (m : Master) (a : Nat)

@[simp] theorem unstage_regs : (s.unstage m a).regs = s.regs := rfl
@[simp] theorem unstage_snaps : (s.unstage m a).snaps = s.snaps := rfl
@[simp] theorem unstage_seats : (s.unstage m a).seats = s.seats := rfl
@[simp] theorem unstage_orphans : (s.unstage m a).orphans = s.orphans := rfl
@[simp] theorem unstage_gaps : (s.unstage m a).gaps = s.gaps := rfl
@[simp] theorem unstage_owners : (s.unstage m a).owners = s.owners := rfl
@[simp] theorem unstage_halfA : (s.unstage m a).halfA = s.halfA := rfl
@[simp] theorem unstage_halfB : (s.unstage m a).halfB = s.halfB := rfl
@[simp] theorem unstage_referee : (s.unstage m a).referee = s.referee := rfl
@[simp] theorem unstage_profile : (s.unstage m a).profile = s.profile := rfl
@[simp] theorem unstage_profileTarget : (s.unstage m a).profileTarget = s.profileTarget := rfl
@[simp] theorem unstage_tref : (s.unstage m a).tref = s.tref := rfl
@[simp] theorem unstage_stood : (s.unstage m a).stood = s.stood := rfl
@[simp] theorem unstage_lockAt : (s.unstage m a).lockAt = s.lockAt := rfl
@[simp] theorem unstage_trefRuns : (s.unstage m a).trefRuns = s.trefRuns := rfl
@[simp] theorem unstage_consumers : (s.unstage m a).consumers = s.consumers := rfl
@[simp] theorem unstage_timebases : (s.unstage m a).timebases = s.timebases := rfl
@[simp] theorem unstage_slots : (s.unstage m a).slots = s.slots := rfl
@[simp] theorem unstage_pads : (s.unstage m a).pads = s.pads := rfl
@[simp] theorem unstage_sars : (s.unstage m a).sars = s.sars := rfl
@[simp] theorem unstage_mirrors : (s.unstage m a).mirrors = s.mirrors := rfl
@[simp] theorem unstage_fabricTime : (s.unstage m a).fabricTime = s.fabricTime := rfl
@[simp] theorem unstage_banks : (s.unstage m a).banks = s.banks := rfl
@[simp] theorem unstage_bankMarks : (s.unstage m a).bankMarks = s.bankMarks := rfl
@[simp] theorem unstage_imem : (s.unstage m a).imem = s.imem := rfl
@[simp] theorem unstage_imemMarks : (s.unstage m a).imemMarks = s.imemMarks := rfl
@[simp] theorem unstage_vmem : (s.unstage m a).vmem = s.vmem := rfl
@[simp] theorem unstage_vmemMarks : (s.unstage m a).vmemMarks = s.vmemMarks := rfl
@[simp] theorem unstage_lines : (s.unstage m a).lines = s.lines := rfl
@[simp] theorem unstage_synths : (s.unstage m a).synths = s.synths := rfl
@[simp] theorem unstage_lineBlanked : (s.unstage m a).lineBlanked = s.lineBlanked := rfl
@[simp] theorem unstage_freeCount : (s.unstage m a).freeCount = s.freeCount := rfl
@[simp] theorem unstage_engines : (s.unstage m a).engines = s.engines := rfl
@[simp] theorem unstage_progs : (s.unstage m a).progs = s.progs := rfl
@[simp] theorem unstage_pollEntries : (s.unstage m a).pollEntries = s.pollEntries := rfl
@[simp] theorem unstage_pipes : (s.unstage m a).pipes = s.pipes := rfl
@[simp] theorem unstage_recogs : (s.unstage m a).recogs = s.recogs := rfl
@[simp] theorem unstage_coders : (s.unstage m a).coders = s.coders := rfl
@[simp] theorem unstage_codeHalves : (s.unstage m a).codeHalves = s.codeHalves := rfl
@[simp] theorem unstage_chans : (s.unstage m a).chans = s.chans := rfl
@[simp] theorem unstage_chanCfgs : (s.unstage m a).chanCfgs = s.chanCfgs := rfl
@[simp] theorem unstage_bushels : (s.unstage m a).bushels = s.bushels := rfl
@[simp] theorem unstage_meter : (s.unstage m a).meter = s.meter := rfl
@[simp] theorem unstage_metLink : (s.unstage m a).metLink = s.metLink := rfl
@[simp] theorem unstage_archive : (s.unstage m a).archive = s.archive := rfl
@[simp] theorem unstage_links : (s.unstage m a).links = s.links := rfl
@[simp] theorem unstage_routes : (s.unstage m a).routes = s.routes := rfl
@[simp] theorem unstage_offers : (s.unstage m a).offers = s.offers := rfl
@[simp] theorem unstage_router : (s.unstage m a).router = s.router := rfl
@[simp] theorem unstage_stewards : (s.unstage m a).stewards = s.stewards := rfl
@[simp] theorem unstage_flash : (s.unstage m a).flash = s.flash := rfl
@[simp] theorem unstage_flashOps : (s.unstage m a).flashOps = s.flashOps := rfl
@[simp] theorem unstage_otp : (s.unstage m a).otp = s.otp := rfl
@[simp] theorem unstage_envLock : (s.unstage m a).envLock = s.envLock := rfl
@[simp] theorem unstage_vcDue : (s.unstage m a).vcDue = s.vcDue := rfl
@[simp] theorem unstage_vcLoading : (s.unstage m a).vcLoading = s.vcLoading := rfl
@[simp] theorem unstage_vcEntry : (s.unstage m a).vcEntry = s.vcEntry := rfl
@[simp] theorem unstage_ports : (s.unstage m a).ports = s.ports := rfl
@[simp] theorem unstage_twBuses : (s.unstage m a).twBuses = s.twBuses := rfl
@[simp] theorem unstage_pmbus : (s.unstage m a).pmbus = s.pmbus := rfl
@[simp] theorem unstage_power : (s.unstage m a).power = s.power := rfl
@[simp] theorem unstage_gpPins : (s.unstage m a).gpPins = s.gpPins := rfl
@[simp] theorem unstage_jtag : (s.unstage m a).jtag = s.jtag := rfl
@[simp] theorem unstage_pending : (s.unstage m a).pending = s.pending := rfl

end

/-! ## setConsumer -/

section

variable (s : State) (c : Nat) (x : Consumer)

@[simp] theorem setConsumer_regs : (s.setConsumer c x).regs = s.regs := rfl
@[simp] theorem setConsumer_staging : (s.setConsumer c x).staging = s.staging := rfl
@[simp] theorem setConsumer_snaps : (s.setConsumer c x).snaps = s.snaps := rfl
@[simp] theorem setConsumer_seats : (s.setConsumer c x).seats = s.seats := rfl
@[simp] theorem setConsumer_orphans : (s.setConsumer c x).orphans = s.orphans := rfl
@[simp] theorem setConsumer_gaps : (s.setConsumer c x).gaps = s.gaps := rfl
@[simp] theorem setConsumer_owners : (s.setConsumer c x).owners = s.owners := rfl
@[simp] theorem setConsumer_halfA : (s.setConsumer c x).halfA = s.halfA := rfl
@[simp] theorem setConsumer_halfB : (s.setConsumer c x).halfB = s.halfB := rfl
@[simp] theorem setConsumer_referee : (s.setConsumer c x).referee = s.referee := rfl
@[simp] theorem setConsumer_profile : (s.setConsumer c x).profile = s.profile := rfl
@[simp] theorem setConsumer_profileTarget : (s.setConsumer c x).profileTarget = s.profileTarget := rfl
@[simp] theorem setConsumer_tref : (s.setConsumer c x).tref = s.tref := rfl
@[simp] theorem setConsumer_stood : (s.setConsumer c x).stood = s.stood := rfl
@[simp] theorem setConsumer_lockAt : (s.setConsumer c x).lockAt = s.lockAt := rfl
@[simp] theorem setConsumer_trefRuns : (s.setConsumer c x).trefRuns = s.trefRuns := rfl
@[simp] theorem setConsumer_timebases : (s.setConsumer c x).timebases = s.timebases := rfl
@[simp] theorem setConsumer_slots : (s.setConsumer c x).slots = s.slots := rfl
@[simp] theorem setConsumer_pads : (s.setConsumer c x).pads = s.pads := rfl
@[simp] theorem setConsumer_sars : (s.setConsumer c x).sars = s.sars := rfl
@[simp] theorem setConsumer_mirrors : (s.setConsumer c x).mirrors = s.mirrors := rfl
@[simp] theorem setConsumer_fabricTime : (s.setConsumer c x).fabricTime = s.fabricTime := rfl
@[simp] theorem setConsumer_banks : (s.setConsumer c x).banks = s.banks := rfl
@[simp] theorem setConsumer_bankMarks : (s.setConsumer c x).bankMarks = s.bankMarks := rfl
@[simp] theorem setConsumer_imem : (s.setConsumer c x).imem = s.imem := rfl
@[simp] theorem setConsumer_imemMarks : (s.setConsumer c x).imemMarks = s.imemMarks := rfl
@[simp] theorem setConsumer_vmem : (s.setConsumer c x).vmem = s.vmem := rfl
@[simp] theorem setConsumer_vmemMarks : (s.setConsumer c x).vmemMarks = s.vmemMarks := rfl
@[simp] theorem setConsumer_lines : (s.setConsumer c x).lines = s.lines := rfl
@[simp] theorem setConsumer_synths : (s.setConsumer c x).synths = s.synths := rfl
@[simp] theorem setConsumer_lineBlanked : (s.setConsumer c x).lineBlanked = s.lineBlanked := rfl
@[simp] theorem setConsumer_freeCount : (s.setConsumer c x).freeCount = s.freeCount := rfl
@[simp] theorem setConsumer_engines : (s.setConsumer c x).engines = s.engines := rfl
@[simp] theorem setConsumer_progs : (s.setConsumer c x).progs = s.progs := rfl
@[simp] theorem setConsumer_pollEntries : (s.setConsumer c x).pollEntries = s.pollEntries := rfl
@[simp] theorem setConsumer_pipes : (s.setConsumer c x).pipes = s.pipes := rfl
@[simp] theorem setConsumer_recogs : (s.setConsumer c x).recogs = s.recogs := rfl
@[simp] theorem setConsumer_coders : (s.setConsumer c x).coders = s.coders := rfl
@[simp] theorem setConsumer_codeHalves : (s.setConsumer c x).codeHalves = s.codeHalves := rfl
@[simp] theorem setConsumer_chans : (s.setConsumer c x).chans = s.chans := rfl
@[simp] theorem setConsumer_chanCfgs : (s.setConsumer c x).chanCfgs = s.chanCfgs := rfl
@[simp] theorem setConsumer_bushels : (s.setConsumer c x).bushels = s.bushels := rfl
@[simp] theorem setConsumer_meter : (s.setConsumer c x).meter = s.meter := rfl
@[simp] theorem setConsumer_metLink : (s.setConsumer c x).metLink = s.metLink := rfl
@[simp] theorem setConsumer_archive : (s.setConsumer c x).archive = s.archive := rfl
@[simp] theorem setConsumer_links : (s.setConsumer c x).links = s.links := rfl
@[simp] theorem setConsumer_routes : (s.setConsumer c x).routes = s.routes := rfl
@[simp] theorem setConsumer_offers : (s.setConsumer c x).offers = s.offers := rfl
@[simp] theorem setConsumer_router : (s.setConsumer c x).router = s.router := rfl
@[simp] theorem setConsumer_stewards : (s.setConsumer c x).stewards = s.stewards := rfl
@[simp] theorem setConsumer_flash : (s.setConsumer c x).flash = s.flash := rfl
@[simp] theorem setConsumer_flashOps : (s.setConsumer c x).flashOps = s.flashOps := rfl
@[simp] theorem setConsumer_otp : (s.setConsumer c x).otp = s.otp := rfl
@[simp] theorem setConsumer_envLock : (s.setConsumer c x).envLock = s.envLock := rfl
@[simp] theorem setConsumer_vcDue : (s.setConsumer c x).vcDue = s.vcDue := rfl
@[simp] theorem setConsumer_vcLoading : (s.setConsumer c x).vcLoading = s.vcLoading := rfl
@[simp] theorem setConsumer_vcEntry : (s.setConsumer c x).vcEntry = s.vcEntry := rfl
@[simp] theorem setConsumer_ports : (s.setConsumer c x).ports = s.ports := rfl
@[simp] theorem setConsumer_twBuses : (s.setConsumer c x).twBuses = s.twBuses := rfl
@[simp] theorem setConsumer_pmbus : (s.setConsumer c x).pmbus = s.pmbus := rfl
@[simp] theorem setConsumer_power : (s.setConsumer c x).power = s.power := rfl
@[simp] theorem setConsumer_gpPins : (s.setConsumer c x).gpPins = s.gpPins := rfl
@[simp] theorem setConsumer_jtag : (s.setConsumer c x).jtag = s.jtag := rfl
@[simp] theorem setConsumer_pending : (s.setConsumer c x).pending = s.pending := rfl

end

/-! ## setTimebase -/

section

variable (s : State) (i : Nat) (x : Timebase)

@[simp] theorem setTimebase_regs : (s.setTimebase i x).regs = s.regs := rfl
@[simp] theorem setTimebase_staging : (s.setTimebase i x).staging = s.staging := rfl
@[simp] theorem setTimebase_snaps : (s.setTimebase i x).snaps = s.snaps := rfl
@[simp] theorem setTimebase_seats : (s.setTimebase i x).seats = s.seats := rfl
@[simp] theorem setTimebase_orphans : (s.setTimebase i x).orphans = s.orphans := rfl
@[simp] theorem setTimebase_gaps : (s.setTimebase i x).gaps = s.gaps := rfl
@[simp] theorem setTimebase_owners : (s.setTimebase i x).owners = s.owners := rfl
@[simp] theorem setTimebase_halfA : (s.setTimebase i x).halfA = s.halfA := rfl
@[simp] theorem setTimebase_halfB : (s.setTimebase i x).halfB = s.halfB := rfl
@[simp] theorem setTimebase_referee : (s.setTimebase i x).referee = s.referee := rfl
@[simp] theorem setTimebase_profile : (s.setTimebase i x).profile = s.profile := rfl
@[simp] theorem setTimebase_profileTarget : (s.setTimebase i x).profileTarget = s.profileTarget := rfl
@[simp] theorem setTimebase_tref : (s.setTimebase i x).tref = s.tref := rfl
@[simp] theorem setTimebase_stood : (s.setTimebase i x).stood = s.stood := rfl
@[simp] theorem setTimebase_lockAt : (s.setTimebase i x).lockAt = s.lockAt := rfl
@[simp] theorem setTimebase_trefRuns : (s.setTimebase i x).trefRuns = s.trefRuns := rfl
@[simp] theorem setTimebase_consumers : (s.setTimebase i x).consumers = s.consumers := rfl
@[simp] theorem setTimebase_slots : (s.setTimebase i x).slots = s.slots := rfl
@[simp] theorem setTimebase_pads : (s.setTimebase i x).pads = s.pads := rfl
@[simp] theorem setTimebase_sars : (s.setTimebase i x).sars = s.sars := rfl
@[simp] theorem setTimebase_mirrors : (s.setTimebase i x).mirrors = s.mirrors := rfl
@[simp] theorem setTimebase_fabricTime : (s.setTimebase i x).fabricTime = s.fabricTime := rfl
@[simp] theorem setTimebase_banks : (s.setTimebase i x).banks = s.banks := rfl
@[simp] theorem setTimebase_bankMarks : (s.setTimebase i x).bankMarks = s.bankMarks := rfl
@[simp] theorem setTimebase_imem : (s.setTimebase i x).imem = s.imem := rfl
@[simp] theorem setTimebase_imemMarks : (s.setTimebase i x).imemMarks = s.imemMarks := rfl
@[simp] theorem setTimebase_vmem : (s.setTimebase i x).vmem = s.vmem := rfl
@[simp] theorem setTimebase_vmemMarks : (s.setTimebase i x).vmemMarks = s.vmemMarks := rfl
@[simp] theorem setTimebase_lines : (s.setTimebase i x).lines = s.lines := rfl
@[simp] theorem setTimebase_synths : (s.setTimebase i x).synths = s.synths := rfl
@[simp] theorem setTimebase_lineBlanked : (s.setTimebase i x).lineBlanked = s.lineBlanked := rfl
@[simp] theorem setTimebase_freeCount : (s.setTimebase i x).freeCount = s.freeCount := rfl
@[simp] theorem setTimebase_engines : (s.setTimebase i x).engines = s.engines := rfl
@[simp] theorem setTimebase_progs : (s.setTimebase i x).progs = s.progs := rfl
@[simp] theorem setTimebase_pollEntries : (s.setTimebase i x).pollEntries = s.pollEntries := rfl
@[simp] theorem setTimebase_pipes : (s.setTimebase i x).pipes = s.pipes := rfl
@[simp] theorem setTimebase_recogs : (s.setTimebase i x).recogs = s.recogs := rfl
@[simp] theorem setTimebase_coders : (s.setTimebase i x).coders = s.coders := rfl
@[simp] theorem setTimebase_codeHalves : (s.setTimebase i x).codeHalves = s.codeHalves := rfl
@[simp] theorem setTimebase_chans : (s.setTimebase i x).chans = s.chans := rfl
@[simp] theorem setTimebase_chanCfgs : (s.setTimebase i x).chanCfgs = s.chanCfgs := rfl
@[simp] theorem setTimebase_bushels : (s.setTimebase i x).bushels = s.bushels := rfl
@[simp] theorem setTimebase_meter : (s.setTimebase i x).meter = s.meter := rfl
@[simp] theorem setTimebase_metLink : (s.setTimebase i x).metLink = s.metLink := rfl
@[simp] theorem setTimebase_archive : (s.setTimebase i x).archive = s.archive := rfl
@[simp] theorem setTimebase_links : (s.setTimebase i x).links = s.links := rfl
@[simp] theorem setTimebase_routes : (s.setTimebase i x).routes = s.routes := rfl
@[simp] theorem setTimebase_offers : (s.setTimebase i x).offers = s.offers := rfl
@[simp] theorem setTimebase_router : (s.setTimebase i x).router = s.router := rfl
@[simp] theorem setTimebase_stewards : (s.setTimebase i x).stewards = s.stewards := rfl
@[simp] theorem setTimebase_flash : (s.setTimebase i x).flash = s.flash := rfl
@[simp] theorem setTimebase_flashOps : (s.setTimebase i x).flashOps = s.flashOps := rfl
@[simp] theorem setTimebase_otp : (s.setTimebase i x).otp = s.otp := rfl
@[simp] theorem setTimebase_envLock : (s.setTimebase i x).envLock = s.envLock := rfl
@[simp] theorem setTimebase_vcDue : (s.setTimebase i x).vcDue = s.vcDue := rfl
@[simp] theorem setTimebase_vcLoading : (s.setTimebase i x).vcLoading = s.vcLoading := rfl
@[simp] theorem setTimebase_vcEntry : (s.setTimebase i x).vcEntry = s.vcEntry := rfl
@[simp] theorem setTimebase_ports : (s.setTimebase i x).ports = s.ports := rfl
@[simp] theorem setTimebase_twBuses : (s.setTimebase i x).twBuses = s.twBuses := rfl
@[simp] theorem setTimebase_pmbus : (s.setTimebase i x).pmbus = s.pmbus := rfl
@[simp] theorem setTimebase_power : (s.setTimebase i x).power = s.power := rfl
@[simp] theorem setTimebase_gpPins : (s.setTimebase i x).gpPins = s.gpPins := rfl
@[simp] theorem setTimebase_jtag : (s.setTimebase i x).jtag = s.jtag := rfl
@[simp] theorem setTimebase_pending : (s.setTimebase i x).pending = s.pending := rfl

end

/-! ## setSlot -/

section

variable (s : State) (h : Half) (t : Nat) (x : Slot)

@[simp] theorem setSlot_regs : (s.setSlot h t x).regs = s.regs := rfl
@[simp] theorem setSlot_staging : (s.setSlot h t x).staging = s.staging := rfl
@[simp] theorem setSlot_snaps : (s.setSlot h t x).snaps = s.snaps := rfl
@[simp] theorem setSlot_seats : (s.setSlot h t x).seats = s.seats := rfl
@[simp] theorem setSlot_orphans : (s.setSlot h t x).orphans = s.orphans := rfl
@[simp] theorem setSlot_gaps : (s.setSlot h t x).gaps = s.gaps := rfl
@[simp] theorem setSlot_owners : (s.setSlot h t x).owners = s.owners := rfl
@[simp] theorem setSlot_halfA : (s.setSlot h t x).halfA = s.halfA := rfl
@[simp] theorem setSlot_halfB : (s.setSlot h t x).halfB = s.halfB := rfl
@[simp] theorem setSlot_referee : (s.setSlot h t x).referee = s.referee := rfl
@[simp] theorem setSlot_profile : (s.setSlot h t x).profile = s.profile := rfl
@[simp] theorem setSlot_profileTarget : (s.setSlot h t x).profileTarget = s.profileTarget := rfl
@[simp] theorem setSlot_tref : (s.setSlot h t x).tref = s.tref := rfl
@[simp] theorem setSlot_stood : (s.setSlot h t x).stood = s.stood := rfl
@[simp] theorem setSlot_lockAt : (s.setSlot h t x).lockAt = s.lockAt := rfl
@[simp] theorem setSlot_trefRuns : (s.setSlot h t x).trefRuns = s.trefRuns := rfl
@[simp] theorem setSlot_consumers : (s.setSlot h t x).consumers = s.consumers := rfl
@[simp] theorem setSlot_timebases : (s.setSlot h t x).timebases = s.timebases := rfl
@[simp] theorem setSlot_pads : (s.setSlot h t x).pads = s.pads := rfl
@[simp] theorem setSlot_sars : (s.setSlot h t x).sars = s.sars := rfl
@[simp] theorem setSlot_mirrors : (s.setSlot h t x).mirrors = s.mirrors := rfl
@[simp] theorem setSlot_fabricTime : (s.setSlot h t x).fabricTime = s.fabricTime := rfl
@[simp] theorem setSlot_banks : (s.setSlot h t x).banks = s.banks := rfl
@[simp] theorem setSlot_bankMarks : (s.setSlot h t x).bankMarks = s.bankMarks := rfl
@[simp] theorem setSlot_imem : (s.setSlot h t x).imem = s.imem := rfl
@[simp] theorem setSlot_imemMarks : (s.setSlot h t x).imemMarks = s.imemMarks := rfl
@[simp] theorem setSlot_vmem : (s.setSlot h t x).vmem = s.vmem := rfl
@[simp] theorem setSlot_vmemMarks : (s.setSlot h t x).vmemMarks = s.vmemMarks := rfl
@[simp] theorem setSlot_lines : (s.setSlot h t x).lines = s.lines := rfl
@[simp] theorem setSlot_synths : (s.setSlot h t x).synths = s.synths := rfl
@[simp] theorem setSlot_lineBlanked : (s.setSlot h t x).lineBlanked = s.lineBlanked := rfl
@[simp] theorem setSlot_freeCount : (s.setSlot h t x).freeCount = s.freeCount := rfl
@[simp] theorem setSlot_engines : (s.setSlot h t x).engines = s.engines := rfl
@[simp] theorem setSlot_progs : (s.setSlot h t x).progs = s.progs := rfl
@[simp] theorem setSlot_pollEntries : (s.setSlot h t x).pollEntries = s.pollEntries := rfl
@[simp] theorem setSlot_pipes : (s.setSlot h t x).pipes = s.pipes := rfl
@[simp] theorem setSlot_recogs : (s.setSlot h t x).recogs = s.recogs := rfl
@[simp] theorem setSlot_coders : (s.setSlot h t x).coders = s.coders := rfl
@[simp] theorem setSlot_codeHalves : (s.setSlot h t x).codeHalves = s.codeHalves := rfl
@[simp] theorem setSlot_chans : (s.setSlot h t x).chans = s.chans := rfl
@[simp] theorem setSlot_chanCfgs : (s.setSlot h t x).chanCfgs = s.chanCfgs := rfl
@[simp] theorem setSlot_bushels : (s.setSlot h t x).bushels = s.bushels := rfl
@[simp] theorem setSlot_meter : (s.setSlot h t x).meter = s.meter := rfl
@[simp] theorem setSlot_metLink : (s.setSlot h t x).metLink = s.metLink := rfl
@[simp] theorem setSlot_archive : (s.setSlot h t x).archive = s.archive := rfl
@[simp] theorem setSlot_links : (s.setSlot h t x).links = s.links := rfl
@[simp] theorem setSlot_routes : (s.setSlot h t x).routes = s.routes := rfl
@[simp] theorem setSlot_offers : (s.setSlot h t x).offers = s.offers := rfl
@[simp] theorem setSlot_router : (s.setSlot h t x).router = s.router := rfl
@[simp] theorem setSlot_stewards : (s.setSlot h t x).stewards = s.stewards := rfl
@[simp] theorem setSlot_flash : (s.setSlot h t x).flash = s.flash := rfl
@[simp] theorem setSlot_flashOps : (s.setSlot h t x).flashOps = s.flashOps := rfl
@[simp] theorem setSlot_otp : (s.setSlot h t x).otp = s.otp := rfl
@[simp] theorem setSlot_envLock : (s.setSlot h t x).envLock = s.envLock := rfl
@[simp] theorem setSlot_vcDue : (s.setSlot h t x).vcDue = s.vcDue := rfl
@[simp] theorem setSlot_vcLoading : (s.setSlot h t x).vcLoading = s.vcLoading := rfl
@[simp] theorem setSlot_vcEntry : (s.setSlot h t x).vcEntry = s.vcEntry := rfl
@[simp] theorem setSlot_ports : (s.setSlot h t x).ports = s.ports := rfl
@[simp] theorem setSlot_twBuses : (s.setSlot h t x).twBuses = s.twBuses := rfl
@[simp] theorem setSlot_pmbus : (s.setSlot h t x).pmbus = s.pmbus := rfl
@[simp] theorem setSlot_power : (s.setSlot h t x).power = s.power := rfl
@[simp] theorem setSlot_gpPins : (s.setSlot h t x).gpPins = s.gpPins := rfl
@[simp] theorem setSlot_jtag : (s.setSlot h t x).jtag = s.jtag := rfl
@[simp] theorem setSlot_pending : (s.setSlot h t x).pending = s.pending := rfl

end

/-! ## setPad -/

section

variable (s : State) (t : Nat) (x : Pad)

@[simp] theorem setPad_regs : (s.setPad t x).regs = s.regs := rfl
@[simp] theorem setPad_staging : (s.setPad t x).staging = s.staging := rfl
@[simp] theorem setPad_snaps : (s.setPad t x).snaps = s.snaps := rfl
@[simp] theorem setPad_seats : (s.setPad t x).seats = s.seats := rfl
@[simp] theorem setPad_orphans : (s.setPad t x).orphans = s.orphans := rfl
@[simp] theorem setPad_gaps : (s.setPad t x).gaps = s.gaps := rfl
@[simp] theorem setPad_owners : (s.setPad t x).owners = s.owners := rfl
@[simp] theorem setPad_halfA : (s.setPad t x).halfA = s.halfA := rfl
@[simp] theorem setPad_halfB : (s.setPad t x).halfB = s.halfB := rfl
@[simp] theorem setPad_referee : (s.setPad t x).referee = s.referee := rfl
@[simp] theorem setPad_profile : (s.setPad t x).profile = s.profile := rfl
@[simp] theorem setPad_profileTarget : (s.setPad t x).profileTarget = s.profileTarget := rfl
@[simp] theorem setPad_tref : (s.setPad t x).tref = s.tref := rfl
@[simp] theorem setPad_stood : (s.setPad t x).stood = s.stood := rfl
@[simp] theorem setPad_lockAt : (s.setPad t x).lockAt = s.lockAt := rfl
@[simp] theorem setPad_trefRuns : (s.setPad t x).trefRuns = s.trefRuns := rfl
@[simp] theorem setPad_consumers : (s.setPad t x).consumers = s.consumers := rfl
@[simp] theorem setPad_timebases : (s.setPad t x).timebases = s.timebases := rfl
@[simp] theorem setPad_slots : (s.setPad t x).slots = s.slots := rfl
@[simp] theorem setPad_sars : (s.setPad t x).sars = s.sars := rfl
@[simp] theorem setPad_mirrors : (s.setPad t x).mirrors = s.mirrors := rfl
@[simp] theorem setPad_fabricTime : (s.setPad t x).fabricTime = s.fabricTime := rfl
@[simp] theorem setPad_banks : (s.setPad t x).banks = s.banks := rfl
@[simp] theorem setPad_bankMarks : (s.setPad t x).bankMarks = s.bankMarks := rfl
@[simp] theorem setPad_imem : (s.setPad t x).imem = s.imem := rfl
@[simp] theorem setPad_imemMarks : (s.setPad t x).imemMarks = s.imemMarks := rfl
@[simp] theorem setPad_vmem : (s.setPad t x).vmem = s.vmem := rfl
@[simp] theorem setPad_vmemMarks : (s.setPad t x).vmemMarks = s.vmemMarks := rfl
@[simp] theorem setPad_lines : (s.setPad t x).lines = s.lines := rfl
@[simp] theorem setPad_synths : (s.setPad t x).synths = s.synths := rfl
@[simp] theorem setPad_lineBlanked : (s.setPad t x).lineBlanked = s.lineBlanked := rfl
@[simp] theorem setPad_freeCount : (s.setPad t x).freeCount = s.freeCount := rfl
@[simp] theorem setPad_engines : (s.setPad t x).engines = s.engines := rfl
@[simp] theorem setPad_progs : (s.setPad t x).progs = s.progs := rfl
@[simp] theorem setPad_pollEntries : (s.setPad t x).pollEntries = s.pollEntries := rfl
@[simp] theorem setPad_pipes : (s.setPad t x).pipes = s.pipes := rfl
@[simp] theorem setPad_recogs : (s.setPad t x).recogs = s.recogs := rfl
@[simp] theorem setPad_coders : (s.setPad t x).coders = s.coders := rfl
@[simp] theorem setPad_codeHalves : (s.setPad t x).codeHalves = s.codeHalves := rfl
@[simp] theorem setPad_chans : (s.setPad t x).chans = s.chans := rfl
@[simp] theorem setPad_chanCfgs : (s.setPad t x).chanCfgs = s.chanCfgs := rfl
@[simp] theorem setPad_bushels : (s.setPad t x).bushels = s.bushels := rfl
@[simp] theorem setPad_meter : (s.setPad t x).meter = s.meter := rfl
@[simp] theorem setPad_metLink : (s.setPad t x).metLink = s.metLink := rfl
@[simp] theorem setPad_archive : (s.setPad t x).archive = s.archive := rfl
@[simp] theorem setPad_links : (s.setPad t x).links = s.links := rfl
@[simp] theorem setPad_routes : (s.setPad t x).routes = s.routes := rfl
@[simp] theorem setPad_offers : (s.setPad t x).offers = s.offers := rfl
@[simp] theorem setPad_router : (s.setPad t x).router = s.router := rfl
@[simp] theorem setPad_stewards : (s.setPad t x).stewards = s.stewards := rfl
@[simp] theorem setPad_flash : (s.setPad t x).flash = s.flash := rfl
@[simp] theorem setPad_flashOps : (s.setPad t x).flashOps = s.flashOps := rfl
@[simp] theorem setPad_otp : (s.setPad t x).otp = s.otp := rfl
@[simp] theorem setPad_envLock : (s.setPad t x).envLock = s.envLock := rfl
@[simp] theorem setPad_vcDue : (s.setPad t x).vcDue = s.vcDue := rfl
@[simp] theorem setPad_vcLoading : (s.setPad t x).vcLoading = s.vcLoading := rfl
@[simp] theorem setPad_vcEntry : (s.setPad t x).vcEntry = s.vcEntry := rfl
@[simp] theorem setPad_ports : (s.setPad t x).ports = s.ports := rfl
@[simp] theorem setPad_twBuses : (s.setPad t x).twBuses = s.twBuses := rfl
@[simp] theorem setPad_pmbus : (s.setPad t x).pmbus = s.pmbus := rfl
@[simp] theorem setPad_power : (s.setPad t x).power = s.power := rfl
@[simp] theorem setPad_gpPins : (s.setPad t x).gpPins = s.gpPins := rfl
@[simp] theorem setPad_jtag : (s.setPad t x).jtag = s.jtag := rfl
@[simp] theorem setPad_pending : (s.setPad t x).pending = s.pending := rfl

end

/-! ## setSteward -/

section

variable (s : State) (k : Nat) (x : Steward)

@[simp] theorem setSteward_regs : (s.setSteward k x).regs = s.regs := rfl
@[simp] theorem setSteward_staging : (s.setSteward k x).staging = s.staging := rfl
@[simp] theorem setSteward_snaps : (s.setSteward k x).snaps = s.snaps := rfl
@[simp] theorem setSteward_seats : (s.setSteward k x).seats = s.seats := rfl
@[simp] theorem setSteward_orphans : (s.setSteward k x).orphans = s.orphans := rfl
@[simp] theorem setSteward_gaps : (s.setSteward k x).gaps = s.gaps := rfl
@[simp] theorem setSteward_owners : (s.setSteward k x).owners = s.owners := rfl
@[simp] theorem setSteward_halfA : (s.setSteward k x).halfA = s.halfA := rfl
@[simp] theorem setSteward_halfB : (s.setSteward k x).halfB = s.halfB := rfl
@[simp] theorem setSteward_referee : (s.setSteward k x).referee = s.referee := rfl
@[simp] theorem setSteward_profile : (s.setSteward k x).profile = s.profile := rfl
@[simp] theorem setSteward_profileTarget : (s.setSteward k x).profileTarget = s.profileTarget := rfl
@[simp] theorem setSteward_tref : (s.setSteward k x).tref = s.tref := rfl
@[simp] theorem setSteward_stood : (s.setSteward k x).stood = s.stood := rfl
@[simp] theorem setSteward_lockAt : (s.setSteward k x).lockAt = s.lockAt := rfl
@[simp] theorem setSteward_trefRuns : (s.setSteward k x).trefRuns = s.trefRuns := rfl
@[simp] theorem setSteward_consumers : (s.setSteward k x).consumers = s.consumers := rfl
@[simp] theorem setSteward_timebases : (s.setSteward k x).timebases = s.timebases := rfl
@[simp] theorem setSteward_slots : (s.setSteward k x).slots = s.slots := rfl
@[simp] theorem setSteward_pads : (s.setSteward k x).pads = s.pads := rfl
@[simp] theorem setSteward_sars : (s.setSteward k x).sars = s.sars := rfl
@[simp] theorem setSteward_mirrors : (s.setSteward k x).mirrors = s.mirrors := rfl
@[simp] theorem setSteward_fabricTime : (s.setSteward k x).fabricTime = s.fabricTime := rfl
@[simp] theorem setSteward_banks : (s.setSteward k x).banks = s.banks := rfl
@[simp] theorem setSteward_bankMarks : (s.setSteward k x).bankMarks = s.bankMarks := rfl
@[simp] theorem setSteward_imem : (s.setSteward k x).imem = s.imem := rfl
@[simp] theorem setSteward_imemMarks : (s.setSteward k x).imemMarks = s.imemMarks := rfl
@[simp] theorem setSteward_vmem : (s.setSteward k x).vmem = s.vmem := rfl
@[simp] theorem setSteward_vmemMarks : (s.setSteward k x).vmemMarks = s.vmemMarks := rfl
@[simp] theorem setSteward_lines : (s.setSteward k x).lines = s.lines := rfl
@[simp] theorem setSteward_synths : (s.setSteward k x).synths = s.synths := rfl
@[simp] theorem setSteward_lineBlanked : (s.setSteward k x).lineBlanked = s.lineBlanked := rfl
@[simp] theorem setSteward_freeCount : (s.setSteward k x).freeCount = s.freeCount := rfl
@[simp] theorem setSteward_engines : (s.setSteward k x).engines = s.engines := rfl
@[simp] theorem setSteward_progs : (s.setSteward k x).progs = s.progs := rfl
@[simp] theorem setSteward_pollEntries : (s.setSteward k x).pollEntries = s.pollEntries := rfl
@[simp] theorem setSteward_pipes : (s.setSteward k x).pipes = s.pipes := rfl
@[simp] theorem setSteward_recogs : (s.setSteward k x).recogs = s.recogs := rfl
@[simp] theorem setSteward_coders : (s.setSteward k x).coders = s.coders := rfl
@[simp] theorem setSteward_codeHalves : (s.setSteward k x).codeHalves = s.codeHalves := rfl
@[simp] theorem setSteward_chans : (s.setSteward k x).chans = s.chans := rfl
@[simp] theorem setSteward_chanCfgs : (s.setSteward k x).chanCfgs = s.chanCfgs := rfl
@[simp] theorem setSteward_bushels : (s.setSteward k x).bushels = s.bushels := rfl
@[simp] theorem setSteward_meter : (s.setSteward k x).meter = s.meter := rfl
@[simp] theorem setSteward_metLink : (s.setSteward k x).metLink = s.metLink := rfl
@[simp] theorem setSteward_archive : (s.setSteward k x).archive = s.archive := rfl
@[simp] theorem setSteward_links : (s.setSteward k x).links = s.links := rfl
@[simp] theorem setSteward_routes : (s.setSteward k x).routes = s.routes := rfl
@[simp] theorem setSteward_offers : (s.setSteward k x).offers = s.offers := rfl
@[simp] theorem setSteward_router : (s.setSteward k x).router = s.router := rfl
@[simp] theorem setSteward_flash : (s.setSteward k x).flash = s.flash := rfl
@[simp] theorem setSteward_flashOps : (s.setSteward k x).flashOps = s.flashOps := rfl
@[simp] theorem setSteward_otp : (s.setSteward k x).otp = s.otp := rfl
@[simp] theorem setSteward_envLock : (s.setSteward k x).envLock = s.envLock := rfl
@[simp] theorem setSteward_vcDue : (s.setSteward k x).vcDue = s.vcDue := rfl
@[simp] theorem setSteward_vcLoading : (s.setSteward k x).vcLoading = s.vcLoading := rfl
@[simp] theorem setSteward_vcEntry : (s.setSteward k x).vcEntry = s.vcEntry := rfl
@[simp] theorem setSteward_ports : (s.setSteward k x).ports = s.ports := rfl
@[simp] theorem setSteward_twBuses : (s.setSteward k x).twBuses = s.twBuses := rfl
@[simp] theorem setSteward_pmbus : (s.setSteward k x).pmbus = s.pmbus := rfl
@[simp] theorem setSteward_power : (s.setSteward k x).power = s.power := rfl
@[simp] theorem setSteward_gpPins : (s.setSteward k x).gpPins = s.gpPins := rfl
@[simp] theorem setSteward_jtag : (s.setSteward k x).jtag = s.jtag := rfl
@[simp] theorem setSteward_pending : (s.setSteward k x).pending = s.pending := rfl

end

/-! ## setSar -/

section

variable (s : State) (b : Nat) (x : Sar)

@[simp] theorem setSar_regs : (s.setSar b x).regs = s.regs := rfl
@[simp] theorem setSar_staging : (s.setSar b x).staging = s.staging := rfl
@[simp] theorem setSar_snaps : (s.setSar b x).snaps = s.snaps := rfl
@[simp] theorem setSar_seats : (s.setSar b x).seats = s.seats := rfl
@[simp] theorem setSar_orphans : (s.setSar b x).orphans = s.orphans := rfl
@[simp] theorem setSar_gaps : (s.setSar b x).gaps = s.gaps := rfl
@[simp] theorem setSar_owners : (s.setSar b x).owners = s.owners := rfl
@[simp] theorem setSar_halfA : (s.setSar b x).halfA = s.halfA := rfl
@[simp] theorem setSar_halfB : (s.setSar b x).halfB = s.halfB := rfl
@[simp] theorem setSar_referee : (s.setSar b x).referee = s.referee := rfl
@[simp] theorem setSar_profile : (s.setSar b x).profile = s.profile := rfl
@[simp] theorem setSar_profileTarget : (s.setSar b x).profileTarget = s.profileTarget := rfl
@[simp] theorem setSar_tref : (s.setSar b x).tref = s.tref := rfl
@[simp] theorem setSar_stood : (s.setSar b x).stood = s.stood := rfl
@[simp] theorem setSar_lockAt : (s.setSar b x).lockAt = s.lockAt := rfl
@[simp] theorem setSar_trefRuns : (s.setSar b x).trefRuns = s.trefRuns := rfl
@[simp] theorem setSar_consumers : (s.setSar b x).consumers = s.consumers := rfl
@[simp] theorem setSar_timebases : (s.setSar b x).timebases = s.timebases := rfl
@[simp] theorem setSar_slots : (s.setSar b x).slots = s.slots := rfl
@[simp] theorem setSar_pads : (s.setSar b x).pads = s.pads := rfl
@[simp] theorem setSar_mirrors : (s.setSar b x).mirrors = s.mirrors := rfl
@[simp] theorem setSar_fabricTime : (s.setSar b x).fabricTime = s.fabricTime := rfl
@[simp] theorem setSar_banks : (s.setSar b x).banks = s.banks := rfl
@[simp] theorem setSar_bankMarks : (s.setSar b x).bankMarks = s.bankMarks := rfl
@[simp] theorem setSar_imem : (s.setSar b x).imem = s.imem := rfl
@[simp] theorem setSar_imemMarks : (s.setSar b x).imemMarks = s.imemMarks := rfl
@[simp] theorem setSar_vmem : (s.setSar b x).vmem = s.vmem := rfl
@[simp] theorem setSar_vmemMarks : (s.setSar b x).vmemMarks = s.vmemMarks := rfl
@[simp] theorem setSar_lines : (s.setSar b x).lines = s.lines := rfl
@[simp] theorem setSar_synths : (s.setSar b x).synths = s.synths := rfl
@[simp] theorem setSar_lineBlanked : (s.setSar b x).lineBlanked = s.lineBlanked := rfl
@[simp] theorem setSar_freeCount : (s.setSar b x).freeCount = s.freeCount := rfl
@[simp] theorem setSar_engines : (s.setSar b x).engines = s.engines := rfl
@[simp] theorem setSar_progs : (s.setSar b x).progs = s.progs := rfl
@[simp] theorem setSar_pollEntries : (s.setSar b x).pollEntries = s.pollEntries := rfl
@[simp] theorem setSar_pipes : (s.setSar b x).pipes = s.pipes := rfl
@[simp] theorem setSar_recogs : (s.setSar b x).recogs = s.recogs := rfl
@[simp] theorem setSar_coders : (s.setSar b x).coders = s.coders := rfl
@[simp] theorem setSar_codeHalves : (s.setSar b x).codeHalves = s.codeHalves := rfl
@[simp] theorem setSar_chans : (s.setSar b x).chans = s.chans := rfl
@[simp] theorem setSar_chanCfgs : (s.setSar b x).chanCfgs = s.chanCfgs := rfl
@[simp] theorem setSar_bushels : (s.setSar b x).bushels = s.bushels := rfl
@[simp] theorem setSar_meter : (s.setSar b x).meter = s.meter := rfl
@[simp] theorem setSar_metLink : (s.setSar b x).metLink = s.metLink := rfl
@[simp] theorem setSar_archive : (s.setSar b x).archive = s.archive := rfl
@[simp] theorem setSar_links : (s.setSar b x).links = s.links := rfl
@[simp] theorem setSar_routes : (s.setSar b x).routes = s.routes := rfl
@[simp] theorem setSar_offers : (s.setSar b x).offers = s.offers := rfl
@[simp] theorem setSar_router : (s.setSar b x).router = s.router := rfl
@[simp] theorem setSar_stewards : (s.setSar b x).stewards = s.stewards := rfl
@[simp] theorem setSar_flash : (s.setSar b x).flash = s.flash := rfl
@[simp] theorem setSar_flashOps : (s.setSar b x).flashOps = s.flashOps := rfl
@[simp] theorem setSar_otp : (s.setSar b x).otp = s.otp := rfl
@[simp] theorem setSar_envLock : (s.setSar b x).envLock = s.envLock := rfl
@[simp] theorem setSar_vcDue : (s.setSar b x).vcDue = s.vcDue := rfl
@[simp] theorem setSar_vcLoading : (s.setSar b x).vcLoading = s.vcLoading := rfl
@[simp] theorem setSar_vcEntry : (s.setSar b x).vcEntry = s.vcEntry := rfl
@[simp] theorem setSar_ports : (s.setSar b x).ports = s.ports := rfl
@[simp] theorem setSar_twBuses : (s.setSar b x).twBuses = s.twBuses := rfl
@[simp] theorem setSar_pmbus : (s.setSar b x).pmbus = s.pmbus := rfl
@[simp] theorem setSar_power : (s.setSar b x).power = s.power := rfl
@[simp] theorem setSar_gpPins : (s.setSar b x).gpPins = s.gpPins := rfl
@[simp] theorem setSar_jtag : (s.setSar b x).jtag = s.jtag := rfl
@[simp] theorem setSar_pending : (s.setSar b x).pending = s.pending := rfl

end

/-! ## setBank -/

section

variable (s : State) (h : Half) (a : Nat) (w : Word)

@[simp] theorem setBank_regs : (s.setBank h a w).regs = s.regs := rfl
@[simp] theorem setBank_staging : (s.setBank h a w).staging = s.staging := rfl
@[simp] theorem setBank_snaps : (s.setBank h a w).snaps = s.snaps := rfl
@[simp] theorem setBank_seats : (s.setBank h a w).seats = s.seats := rfl
@[simp] theorem setBank_orphans : (s.setBank h a w).orphans = s.orphans := rfl
@[simp] theorem setBank_gaps : (s.setBank h a w).gaps = s.gaps := rfl
@[simp] theorem setBank_owners : (s.setBank h a w).owners = s.owners := rfl
@[simp] theorem setBank_halfA : (s.setBank h a w).halfA = s.halfA := rfl
@[simp] theorem setBank_halfB : (s.setBank h a w).halfB = s.halfB := rfl
@[simp] theorem setBank_referee : (s.setBank h a w).referee = s.referee := rfl
@[simp] theorem setBank_profile : (s.setBank h a w).profile = s.profile := rfl
@[simp] theorem setBank_profileTarget : (s.setBank h a w).profileTarget = s.profileTarget := rfl
@[simp] theorem setBank_tref : (s.setBank h a w).tref = s.tref := rfl
@[simp] theorem setBank_stood : (s.setBank h a w).stood = s.stood := rfl
@[simp] theorem setBank_lockAt : (s.setBank h a w).lockAt = s.lockAt := rfl
@[simp] theorem setBank_trefRuns : (s.setBank h a w).trefRuns = s.trefRuns := rfl
@[simp] theorem setBank_consumers : (s.setBank h a w).consumers = s.consumers := rfl
@[simp] theorem setBank_timebases : (s.setBank h a w).timebases = s.timebases := rfl
@[simp] theorem setBank_slots : (s.setBank h a w).slots = s.slots := rfl
@[simp] theorem setBank_pads : (s.setBank h a w).pads = s.pads := rfl
@[simp] theorem setBank_sars : (s.setBank h a w).sars = s.sars := rfl
@[simp] theorem setBank_mirrors : (s.setBank h a w).mirrors = s.mirrors := rfl
@[simp] theorem setBank_fabricTime : (s.setBank h a w).fabricTime = s.fabricTime := rfl
@[simp] theorem setBank_imem : (s.setBank h a w).imem = s.imem := rfl
@[simp] theorem setBank_imemMarks : (s.setBank h a w).imemMarks = s.imemMarks := rfl
@[simp] theorem setBank_vmem : (s.setBank h a w).vmem = s.vmem := rfl
@[simp] theorem setBank_vmemMarks : (s.setBank h a w).vmemMarks = s.vmemMarks := rfl
@[simp] theorem setBank_lines : (s.setBank h a w).lines = s.lines := rfl
@[simp] theorem setBank_synths : (s.setBank h a w).synths = s.synths := rfl
@[simp] theorem setBank_lineBlanked : (s.setBank h a w).lineBlanked = s.lineBlanked := rfl
@[simp] theorem setBank_freeCount : (s.setBank h a w).freeCount = s.freeCount := rfl
@[simp] theorem setBank_engines : (s.setBank h a w).engines = s.engines := rfl
@[simp] theorem setBank_progs : (s.setBank h a w).progs = s.progs := rfl
@[simp] theorem setBank_pollEntries : (s.setBank h a w).pollEntries = s.pollEntries := rfl
@[simp] theorem setBank_pipes : (s.setBank h a w).pipes = s.pipes := rfl
@[simp] theorem setBank_recogs : (s.setBank h a w).recogs = s.recogs := rfl
@[simp] theorem setBank_coders : (s.setBank h a w).coders = s.coders := rfl
@[simp] theorem setBank_codeHalves : (s.setBank h a w).codeHalves = s.codeHalves := rfl
@[simp] theorem setBank_chans : (s.setBank h a w).chans = s.chans := rfl
@[simp] theorem setBank_chanCfgs : (s.setBank h a w).chanCfgs = s.chanCfgs := rfl
@[simp] theorem setBank_bushels : (s.setBank h a w).bushels = s.bushels := rfl
@[simp] theorem setBank_meter : (s.setBank h a w).meter = s.meter := rfl
@[simp] theorem setBank_metLink : (s.setBank h a w).metLink = s.metLink := rfl
@[simp] theorem setBank_archive : (s.setBank h a w).archive = s.archive := rfl
@[simp] theorem setBank_links : (s.setBank h a w).links = s.links := rfl
@[simp] theorem setBank_routes : (s.setBank h a w).routes = s.routes := rfl
@[simp] theorem setBank_offers : (s.setBank h a w).offers = s.offers := rfl
@[simp] theorem setBank_router : (s.setBank h a w).router = s.router := rfl
@[simp] theorem setBank_flash : (s.setBank h a w).flash = s.flash := rfl
@[simp] theorem setBank_flashOps : (s.setBank h a w).flashOps = s.flashOps := rfl
@[simp] theorem setBank_otp : (s.setBank h a w).otp = s.otp := rfl
@[simp] theorem setBank_envLock : (s.setBank h a w).envLock = s.envLock := rfl
@[simp] theorem setBank_vcDue : (s.setBank h a w).vcDue = s.vcDue := rfl
@[simp] theorem setBank_vcLoading : (s.setBank h a w).vcLoading = s.vcLoading := rfl
@[simp] theorem setBank_vcEntry : (s.setBank h a w).vcEntry = s.vcEntry := rfl
@[simp] theorem setBank_ports : (s.setBank h a w).ports = s.ports := rfl
@[simp] theorem setBank_twBuses : (s.setBank h a w).twBuses = s.twBuses := rfl
@[simp] theorem setBank_pmbus : (s.setBank h a w).pmbus = s.pmbus := rfl
@[simp] theorem setBank_power : (s.setBank h a w).power = s.power := rfl
@[simp] theorem setBank_gpPins : (s.setBank h a w).gpPins = s.gpPins := rfl
@[simp] theorem setBank_jtag : (s.setBank h a w).jtag = s.jtag := rfl
@[simp] theorem setBank_pending : (s.setBank h a w).pending = s.pending := rfl

end

/-! ## setImem -/

section

variable (s : State) (h : Half) (a : Nat) (w : Word)

@[simp] theorem setImem_regs : (s.setImem h a w).regs = s.regs := rfl
@[simp] theorem setImem_staging : (s.setImem h a w).staging = s.staging := rfl
@[simp] theorem setImem_snaps : (s.setImem h a w).snaps = s.snaps := rfl
@[simp] theorem setImem_seats : (s.setImem h a w).seats = s.seats := rfl
@[simp] theorem setImem_orphans : (s.setImem h a w).orphans = s.orphans := rfl
@[simp] theorem setImem_gaps : (s.setImem h a w).gaps = s.gaps := rfl
@[simp] theorem setImem_owners : (s.setImem h a w).owners = s.owners := rfl
@[simp] theorem setImem_halfA : (s.setImem h a w).halfA = s.halfA := rfl
@[simp] theorem setImem_halfB : (s.setImem h a w).halfB = s.halfB := rfl
@[simp] theorem setImem_referee : (s.setImem h a w).referee = s.referee := rfl
@[simp] theorem setImem_profile : (s.setImem h a w).profile = s.profile := rfl
@[simp] theorem setImem_profileTarget : (s.setImem h a w).profileTarget = s.profileTarget := rfl
@[simp] theorem setImem_tref : (s.setImem h a w).tref = s.tref := rfl
@[simp] theorem setImem_stood : (s.setImem h a w).stood = s.stood := rfl
@[simp] theorem setImem_lockAt : (s.setImem h a w).lockAt = s.lockAt := rfl
@[simp] theorem setImem_trefRuns : (s.setImem h a w).trefRuns = s.trefRuns := rfl
@[simp] theorem setImem_consumers : (s.setImem h a w).consumers = s.consumers := rfl
@[simp] theorem setImem_timebases : (s.setImem h a w).timebases = s.timebases := rfl
@[simp] theorem setImem_slots : (s.setImem h a w).slots = s.slots := rfl
@[simp] theorem setImem_pads : (s.setImem h a w).pads = s.pads := rfl
@[simp] theorem setImem_sars : (s.setImem h a w).sars = s.sars := rfl
@[simp] theorem setImem_mirrors : (s.setImem h a w).mirrors = s.mirrors := rfl
@[simp] theorem setImem_fabricTime : (s.setImem h a w).fabricTime = s.fabricTime := rfl
@[simp] theorem setImem_banks : (s.setImem h a w).banks = s.banks := rfl
@[simp] theorem setImem_bankMarks : (s.setImem h a w).bankMarks = s.bankMarks := rfl
@[simp] theorem setImem_vmem : (s.setImem h a w).vmem = s.vmem := rfl
@[simp] theorem setImem_vmemMarks : (s.setImem h a w).vmemMarks = s.vmemMarks := rfl
@[simp] theorem setImem_lines : (s.setImem h a w).lines = s.lines := rfl
@[simp] theorem setImem_synths : (s.setImem h a w).synths = s.synths := rfl
@[simp] theorem setImem_lineBlanked : (s.setImem h a w).lineBlanked = s.lineBlanked := rfl
@[simp] theorem setImem_freeCount : (s.setImem h a w).freeCount = s.freeCount := rfl
@[simp] theorem setImem_engines : (s.setImem h a w).engines = s.engines := rfl
@[simp] theorem setImem_progs : (s.setImem h a w).progs = s.progs := rfl
@[simp] theorem setImem_pollEntries : (s.setImem h a w).pollEntries = s.pollEntries := rfl
@[simp] theorem setImem_pipes : (s.setImem h a w).pipes = s.pipes := rfl
@[simp] theorem setImem_recogs : (s.setImem h a w).recogs = s.recogs := rfl
@[simp] theorem setImem_coders : (s.setImem h a w).coders = s.coders := rfl
@[simp] theorem setImem_codeHalves : (s.setImem h a w).codeHalves = s.codeHalves := rfl
@[simp] theorem setImem_chans : (s.setImem h a w).chans = s.chans := rfl
@[simp] theorem setImem_chanCfgs : (s.setImem h a w).chanCfgs = s.chanCfgs := rfl
@[simp] theorem setImem_bushels : (s.setImem h a w).bushels = s.bushels := rfl
@[simp] theorem setImem_meter : (s.setImem h a w).meter = s.meter := rfl
@[simp] theorem setImem_metLink : (s.setImem h a w).metLink = s.metLink := rfl
@[simp] theorem setImem_archive : (s.setImem h a w).archive = s.archive := rfl
@[simp] theorem setImem_links : (s.setImem h a w).links = s.links := rfl
@[simp] theorem setImem_routes : (s.setImem h a w).routes = s.routes := rfl
@[simp] theorem setImem_offers : (s.setImem h a w).offers = s.offers := rfl
@[simp] theorem setImem_router : (s.setImem h a w).router = s.router := rfl
@[simp] theorem setImem_stewards : (s.setImem h a w).stewards = s.stewards := rfl
@[simp] theorem setImem_flash : (s.setImem h a w).flash = s.flash := rfl
@[simp] theorem setImem_flashOps : (s.setImem h a w).flashOps = s.flashOps := rfl
@[simp] theorem setImem_otp : (s.setImem h a w).otp = s.otp := rfl
@[simp] theorem setImem_envLock : (s.setImem h a w).envLock = s.envLock := rfl
@[simp] theorem setImem_vcDue : (s.setImem h a w).vcDue = s.vcDue := rfl
@[simp] theorem setImem_vcLoading : (s.setImem h a w).vcLoading = s.vcLoading := rfl
@[simp] theorem setImem_vcEntry : (s.setImem h a w).vcEntry = s.vcEntry := rfl
@[simp] theorem setImem_ports : (s.setImem h a w).ports = s.ports := rfl
@[simp] theorem setImem_twBuses : (s.setImem h a w).twBuses = s.twBuses := rfl
@[simp] theorem setImem_pmbus : (s.setImem h a w).pmbus = s.pmbus := rfl
@[simp] theorem setImem_power : (s.setImem h a w).power = s.power := rfl
@[simp] theorem setImem_gpPins : (s.setImem h a w).gpPins = s.gpPins := rfl
@[simp] theorem setImem_jtag : (s.setImem h a w).jtag = s.jtag := rfl
@[simp] theorem setImem_pending : (s.setImem h a w).pending = s.pending := rfl

end

/-! ## setLine -/

section

variable (s : State) (h : Half) (b : Nat) (x : Line)

@[simp] theorem setLine_regs : (s.setLine h b x).regs = s.regs := rfl
@[simp] theorem setLine_staging : (s.setLine h b x).staging = s.staging := rfl
@[simp] theorem setLine_snaps : (s.setLine h b x).snaps = s.snaps := rfl
@[simp] theorem setLine_seats : (s.setLine h b x).seats = s.seats := rfl
@[simp] theorem setLine_orphans : (s.setLine h b x).orphans = s.orphans := rfl
@[simp] theorem setLine_gaps : (s.setLine h b x).gaps = s.gaps := rfl
@[simp] theorem setLine_owners : (s.setLine h b x).owners = s.owners := rfl
@[simp] theorem setLine_halfA : (s.setLine h b x).halfA = s.halfA := rfl
@[simp] theorem setLine_halfB : (s.setLine h b x).halfB = s.halfB := rfl
@[simp] theorem setLine_referee : (s.setLine h b x).referee = s.referee := rfl
@[simp] theorem setLine_profile : (s.setLine h b x).profile = s.profile := rfl
@[simp] theorem setLine_profileTarget : (s.setLine h b x).profileTarget = s.profileTarget := rfl
@[simp] theorem setLine_tref : (s.setLine h b x).tref = s.tref := rfl
@[simp] theorem setLine_stood : (s.setLine h b x).stood = s.stood := rfl
@[simp] theorem setLine_lockAt : (s.setLine h b x).lockAt = s.lockAt := rfl
@[simp] theorem setLine_trefRuns : (s.setLine h b x).trefRuns = s.trefRuns := rfl
@[simp] theorem setLine_consumers : (s.setLine h b x).consumers = s.consumers := rfl
@[simp] theorem setLine_timebases : (s.setLine h b x).timebases = s.timebases := rfl
@[simp] theorem setLine_slots : (s.setLine h b x).slots = s.slots := rfl
@[simp] theorem setLine_pads : (s.setLine h b x).pads = s.pads := rfl
@[simp] theorem setLine_sars : (s.setLine h b x).sars = s.sars := rfl
@[simp] theorem setLine_mirrors : (s.setLine h b x).mirrors = s.mirrors := rfl
@[simp] theorem setLine_fabricTime : (s.setLine h b x).fabricTime = s.fabricTime := rfl
@[simp] theorem setLine_banks : (s.setLine h b x).banks = s.banks := rfl
@[simp] theorem setLine_bankMarks : (s.setLine h b x).bankMarks = s.bankMarks := rfl
@[simp] theorem setLine_imem : (s.setLine h b x).imem = s.imem := rfl
@[simp] theorem setLine_imemMarks : (s.setLine h b x).imemMarks = s.imemMarks := rfl
@[simp] theorem setLine_vmem : (s.setLine h b x).vmem = s.vmem := rfl
@[simp] theorem setLine_vmemMarks : (s.setLine h b x).vmemMarks = s.vmemMarks := rfl
@[simp] theorem setLine_synths : (s.setLine h b x).synths = s.synths := rfl
@[simp] theorem setLine_lineBlanked : (s.setLine h b x).lineBlanked = s.lineBlanked := rfl
@[simp] theorem setLine_freeCount : (s.setLine h b x).freeCount = s.freeCount := rfl
@[simp] theorem setLine_engines : (s.setLine h b x).engines = s.engines := rfl
@[simp] theorem setLine_progs : (s.setLine h b x).progs = s.progs := rfl
@[simp] theorem setLine_pollEntries : (s.setLine h b x).pollEntries = s.pollEntries := rfl
@[simp] theorem setLine_pipes : (s.setLine h b x).pipes = s.pipes := rfl
@[simp] theorem setLine_recogs : (s.setLine h b x).recogs = s.recogs := rfl
@[simp] theorem setLine_coders : (s.setLine h b x).coders = s.coders := rfl
@[simp] theorem setLine_codeHalves : (s.setLine h b x).codeHalves = s.codeHalves := rfl
@[simp] theorem setLine_chans : (s.setLine h b x).chans = s.chans := rfl
@[simp] theorem setLine_chanCfgs : (s.setLine h b x).chanCfgs = s.chanCfgs := rfl
@[simp] theorem setLine_bushels : (s.setLine h b x).bushels = s.bushels := rfl
@[simp] theorem setLine_meter : (s.setLine h b x).meter = s.meter := rfl
@[simp] theorem setLine_metLink : (s.setLine h b x).metLink = s.metLink := rfl
@[simp] theorem setLine_archive : (s.setLine h b x).archive = s.archive := rfl
@[simp] theorem setLine_links : (s.setLine h b x).links = s.links := rfl
@[simp] theorem setLine_routes : (s.setLine h b x).routes = s.routes := rfl
@[simp] theorem setLine_offers : (s.setLine h b x).offers = s.offers := rfl
@[simp] theorem setLine_router : (s.setLine h b x).router = s.router := rfl
@[simp] theorem setLine_stewards : (s.setLine h b x).stewards = s.stewards := rfl
@[simp] theorem setLine_flash : (s.setLine h b x).flash = s.flash := rfl
@[simp] theorem setLine_flashOps : (s.setLine h b x).flashOps = s.flashOps := rfl
@[simp] theorem setLine_otp : (s.setLine h b x).otp = s.otp := rfl
@[simp] theorem setLine_envLock : (s.setLine h b x).envLock = s.envLock := rfl
@[simp] theorem setLine_vcDue : (s.setLine h b x).vcDue = s.vcDue := rfl
@[simp] theorem setLine_vcLoading : (s.setLine h b x).vcLoading = s.vcLoading := rfl
@[simp] theorem setLine_vcEntry : (s.setLine h b x).vcEntry = s.vcEntry := rfl
@[simp] theorem setLine_ports : (s.setLine h b x).ports = s.ports := rfl
@[simp] theorem setLine_twBuses : (s.setLine h b x).twBuses = s.twBuses := rfl
@[simp] theorem setLine_pmbus : (s.setLine h b x).pmbus = s.pmbus := rfl
@[simp] theorem setLine_power : (s.setLine h b x).power = s.power := rfl
@[simp] theorem setLine_gpPins : (s.setLine h b x).gpPins = s.gpPins := rfl
@[simp] theorem setLine_jtag : (s.setLine h b x).jtag = s.jtag := rfl
@[simp] theorem setLine_pending : (s.setLine h b x).pending = s.pending := rfl

end

/-! ## setEngine -/

section

variable (s : State) (h : Half) (b : Nat) (x : Engine)

@[simp] theorem setEngine_regs : (s.setEngine h b x).regs = s.regs := rfl
@[simp] theorem setEngine_staging : (s.setEngine h b x).staging = s.staging := rfl
@[simp] theorem setEngine_snaps : (s.setEngine h b x).snaps = s.snaps := rfl
@[simp] theorem setEngine_seats : (s.setEngine h b x).seats = s.seats := rfl
@[simp] theorem setEngine_orphans : (s.setEngine h b x).orphans = s.orphans := rfl
@[simp] theorem setEngine_gaps : (s.setEngine h b x).gaps = s.gaps := rfl
@[simp] theorem setEngine_owners : (s.setEngine h b x).owners = s.owners := rfl
@[simp] theorem setEngine_halfA : (s.setEngine h b x).halfA = s.halfA := rfl
@[simp] theorem setEngine_halfB : (s.setEngine h b x).halfB = s.halfB := rfl
@[simp] theorem setEngine_referee : (s.setEngine h b x).referee = s.referee := rfl
@[simp] theorem setEngine_profile : (s.setEngine h b x).profile = s.profile := rfl
@[simp] theorem setEngine_profileTarget : (s.setEngine h b x).profileTarget = s.profileTarget := rfl
@[simp] theorem setEngine_tref : (s.setEngine h b x).tref = s.tref := rfl
@[simp] theorem setEngine_stood : (s.setEngine h b x).stood = s.stood := rfl
@[simp] theorem setEngine_lockAt : (s.setEngine h b x).lockAt = s.lockAt := rfl
@[simp] theorem setEngine_trefRuns : (s.setEngine h b x).trefRuns = s.trefRuns := rfl
@[simp] theorem setEngine_consumers : (s.setEngine h b x).consumers = s.consumers := rfl
@[simp] theorem setEngine_timebases : (s.setEngine h b x).timebases = s.timebases := rfl
@[simp] theorem setEngine_slots : (s.setEngine h b x).slots = s.slots := rfl
@[simp] theorem setEngine_pads : (s.setEngine h b x).pads = s.pads := rfl
@[simp] theorem setEngine_sars : (s.setEngine h b x).sars = s.sars := rfl
@[simp] theorem setEngine_mirrors : (s.setEngine h b x).mirrors = s.mirrors := rfl
@[simp] theorem setEngine_fabricTime : (s.setEngine h b x).fabricTime = s.fabricTime := rfl
@[simp] theorem setEngine_banks : (s.setEngine h b x).banks = s.banks := rfl
@[simp] theorem setEngine_bankMarks : (s.setEngine h b x).bankMarks = s.bankMarks := rfl
@[simp] theorem setEngine_imem : (s.setEngine h b x).imem = s.imem := rfl
@[simp] theorem setEngine_imemMarks : (s.setEngine h b x).imemMarks = s.imemMarks := rfl
@[simp] theorem setEngine_vmem : (s.setEngine h b x).vmem = s.vmem := rfl
@[simp] theorem setEngine_vmemMarks : (s.setEngine h b x).vmemMarks = s.vmemMarks := rfl
@[simp] theorem setEngine_lines : (s.setEngine h b x).lines = s.lines := rfl
@[simp] theorem setEngine_synths : (s.setEngine h b x).synths = s.synths := rfl
@[simp] theorem setEngine_lineBlanked : (s.setEngine h b x).lineBlanked = s.lineBlanked := rfl
@[simp] theorem setEngine_freeCount : (s.setEngine h b x).freeCount = s.freeCount := rfl
@[simp] theorem setEngine_progs : (s.setEngine h b x).progs = s.progs := rfl
@[simp] theorem setEngine_pollEntries : (s.setEngine h b x).pollEntries = s.pollEntries := rfl
@[simp] theorem setEngine_pipes : (s.setEngine h b x).pipes = s.pipes := rfl
@[simp] theorem setEngine_recogs : (s.setEngine h b x).recogs = s.recogs := rfl
@[simp] theorem setEngine_coders : (s.setEngine h b x).coders = s.coders := rfl
@[simp] theorem setEngine_codeHalves : (s.setEngine h b x).codeHalves = s.codeHalves := rfl
@[simp] theorem setEngine_chans : (s.setEngine h b x).chans = s.chans := rfl
@[simp] theorem setEngine_chanCfgs : (s.setEngine h b x).chanCfgs = s.chanCfgs := rfl
@[simp] theorem setEngine_bushels : (s.setEngine h b x).bushels = s.bushels := rfl
@[simp] theorem setEngine_meter : (s.setEngine h b x).meter = s.meter := rfl
@[simp] theorem setEngine_metLink : (s.setEngine h b x).metLink = s.metLink := rfl
@[simp] theorem setEngine_archive : (s.setEngine h b x).archive = s.archive := rfl
@[simp] theorem setEngine_links : (s.setEngine h b x).links = s.links := rfl
@[simp] theorem setEngine_routes : (s.setEngine h b x).routes = s.routes := rfl
@[simp] theorem setEngine_offers : (s.setEngine h b x).offers = s.offers := rfl
@[simp] theorem setEngine_router : (s.setEngine h b x).router = s.router := rfl
@[simp] theorem setEngine_stewards : (s.setEngine h b x).stewards = s.stewards := rfl
@[simp] theorem setEngine_flash : (s.setEngine h b x).flash = s.flash := rfl
@[simp] theorem setEngine_flashOps : (s.setEngine h b x).flashOps = s.flashOps := rfl
@[simp] theorem setEngine_otp : (s.setEngine h b x).otp = s.otp := rfl
@[simp] theorem setEngine_envLock : (s.setEngine h b x).envLock = s.envLock := rfl
@[simp] theorem setEngine_vcDue : (s.setEngine h b x).vcDue = s.vcDue := rfl
@[simp] theorem setEngine_vcLoading : (s.setEngine h b x).vcLoading = s.vcLoading := rfl
@[simp] theorem setEngine_vcEntry : (s.setEngine h b x).vcEntry = s.vcEntry := rfl
@[simp] theorem setEngine_ports : (s.setEngine h b x).ports = s.ports := rfl
@[simp] theorem setEngine_twBuses : (s.setEngine h b x).twBuses = s.twBuses := rfl
@[simp] theorem setEngine_pmbus : (s.setEngine h b x).pmbus = s.pmbus := rfl
@[simp] theorem setEngine_power : (s.setEngine h b x).power = s.power := rfl
@[simp] theorem setEngine_gpPins : (s.setEngine h b x).gpPins = s.gpPins := rfl
@[simp] theorem setEngine_jtag : (s.setEngine h b x).jtag = s.jtag := rfl
@[simp] theorem setEngine_pending : (s.setEngine h b x).pending = s.pending := rfl

end

/-! ## setSynth -/

section

variable (s : State) (j : Nat) (x : Synth)

@[simp] theorem setSynth_regs : (s.setSynth j x).regs = s.regs := rfl
@[simp] theorem setSynth_staging : (s.setSynth j x).staging = s.staging := rfl
@[simp] theorem setSynth_snaps : (s.setSynth j x).snaps = s.snaps := rfl
@[simp] theorem setSynth_seats : (s.setSynth j x).seats = s.seats := rfl
@[simp] theorem setSynth_orphans : (s.setSynth j x).orphans = s.orphans := rfl
@[simp] theorem setSynth_gaps : (s.setSynth j x).gaps = s.gaps := rfl
@[simp] theorem setSynth_owners : (s.setSynth j x).owners = s.owners := rfl
@[simp] theorem setSynth_halfA : (s.setSynth j x).halfA = s.halfA := rfl
@[simp] theorem setSynth_halfB : (s.setSynth j x).halfB = s.halfB := rfl
@[simp] theorem setSynth_referee : (s.setSynth j x).referee = s.referee := rfl
@[simp] theorem setSynth_profile : (s.setSynth j x).profile = s.profile := rfl
@[simp] theorem setSynth_profileTarget : (s.setSynth j x).profileTarget = s.profileTarget := rfl
@[simp] theorem setSynth_tref : (s.setSynth j x).tref = s.tref := rfl
@[simp] theorem setSynth_stood : (s.setSynth j x).stood = s.stood := rfl
@[simp] theorem setSynth_lockAt : (s.setSynth j x).lockAt = s.lockAt := rfl
@[simp] theorem setSynth_trefRuns : (s.setSynth j x).trefRuns = s.trefRuns := rfl
@[simp] theorem setSynth_consumers : (s.setSynth j x).consumers = s.consumers := rfl
@[simp] theorem setSynth_timebases : (s.setSynth j x).timebases = s.timebases := rfl
@[simp] theorem setSynth_slots : (s.setSynth j x).slots = s.slots := rfl
@[simp] theorem setSynth_pads : (s.setSynth j x).pads = s.pads := rfl
@[simp] theorem setSynth_sars : (s.setSynth j x).sars = s.sars := rfl
@[simp] theorem setSynth_mirrors : (s.setSynth j x).mirrors = s.mirrors := rfl
@[simp] theorem setSynth_fabricTime : (s.setSynth j x).fabricTime = s.fabricTime := rfl
@[simp] theorem setSynth_banks : (s.setSynth j x).banks = s.banks := rfl
@[simp] theorem setSynth_bankMarks : (s.setSynth j x).bankMarks = s.bankMarks := rfl
@[simp] theorem setSynth_imem : (s.setSynth j x).imem = s.imem := rfl
@[simp] theorem setSynth_imemMarks : (s.setSynth j x).imemMarks = s.imemMarks := rfl
@[simp] theorem setSynth_vmem : (s.setSynth j x).vmem = s.vmem := rfl
@[simp] theorem setSynth_vmemMarks : (s.setSynth j x).vmemMarks = s.vmemMarks := rfl
@[simp] theorem setSynth_lines : (s.setSynth j x).lines = s.lines := rfl
@[simp] theorem setSynth_lineBlanked : (s.setSynth j x).lineBlanked = s.lineBlanked := rfl
@[simp] theorem setSynth_freeCount : (s.setSynth j x).freeCount = s.freeCount := rfl
@[simp] theorem setSynth_engines : (s.setSynth j x).engines = s.engines := rfl
@[simp] theorem setSynth_progs : (s.setSynth j x).progs = s.progs := rfl
@[simp] theorem setSynth_pollEntries : (s.setSynth j x).pollEntries = s.pollEntries := rfl
@[simp] theorem setSynth_pipes : (s.setSynth j x).pipes = s.pipes := rfl
@[simp] theorem setSynth_recogs : (s.setSynth j x).recogs = s.recogs := rfl
@[simp] theorem setSynth_coders : (s.setSynth j x).coders = s.coders := rfl
@[simp] theorem setSynth_codeHalves : (s.setSynth j x).codeHalves = s.codeHalves := rfl
@[simp] theorem setSynth_chans : (s.setSynth j x).chans = s.chans := rfl
@[simp] theorem setSynth_chanCfgs : (s.setSynth j x).chanCfgs = s.chanCfgs := rfl
@[simp] theorem setSynth_bushels : (s.setSynth j x).bushels = s.bushels := rfl
@[simp] theorem setSynth_meter : (s.setSynth j x).meter = s.meter := rfl
@[simp] theorem setSynth_metLink : (s.setSynth j x).metLink = s.metLink := rfl
@[simp] theorem setSynth_archive : (s.setSynth j x).archive = s.archive := rfl
@[simp] theorem setSynth_links : (s.setSynth j x).links = s.links := rfl
@[simp] theorem setSynth_routes : (s.setSynth j x).routes = s.routes := rfl
@[simp] theorem setSynth_offers : (s.setSynth j x).offers = s.offers := rfl
@[simp] theorem setSynth_router : (s.setSynth j x).router = s.router := rfl
@[simp] theorem setSynth_stewards : (s.setSynth j x).stewards = s.stewards := rfl
@[simp] theorem setSynth_flash : (s.setSynth j x).flash = s.flash := rfl
@[simp] theorem setSynth_flashOps : (s.setSynth j x).flashOps = s.flashOps := rfl
@[simp] theorem setSynth_otp : (s.setSynth j x).otp = s.otp := rfl
@[simp] theorem setSynth_envLock : (s.setSynth j x).envLock = s.envLock := rfl
@[simp] theorem setSynth_vcDue : (s.setSynth j x).vcDue = s.vcDue := rfl
@[simp] theorem setSynth_vcLoading : (s.setSynth j x).vcLoading = s.vcLoading := rfl
@[simp] theorem setSynth_vcEntry : (s.setSynth j x).vcEntry = s.vcEntry := rfl
@[simp] theorem setSynth_ports : (s.setSynth j x).ports = s.ports := rfl
@[simp] theorem setSynth_twBuses : (s.setSynth j x).twBuses = s.twBuses := rfl
@[simp] theorem setSynth_pmbus : (s.setSynth j x).pmbus = s.pmbus := rfl
@[simp] theorem setSynth_power : (s.setSynth j x).power = s.power := rfl
@[simp] theorem setSynth_gpPins : (s.setSynth j x).gpPins = s.gpPins := rfl
@[simp] theorem setSynth_jtag : (s.setSynth j x).jtag = s.jtag := rfl
@[simp] theorem setSynth_pending : (s.setSynth j x).pending = s.pending := rfl

end

/-! ## setEntryOf -/

section

variable (s : State) (h : Half) (b e : Nat) (x : PollEntry)

@[simp] theorem setEntryOf_regs : (s.setEntryOf h b e x).regs = s.regs := rfl
@[simp] theorem setEntryOf_staging : (s.setEntryOf h b e x).staging = s.staging := rfl
@[simp] theorem setEntryOf_snaps : (s.setEntryOf h b e x).snaps = s.snaps := rfl
@[simp] theorem setEntryOf_seats : (s.setEntryOf h b e x).seats = s.seats := rfl
@[simp] theorem setEntryOf_orphans : (s.setEntryOf h b e x).orphans = s.orphans := rfl
@[simp] theorem setEntryOf_gaps : (s.setEntryOf h b e x).gaps = s.gaps := rfl
@[simp] theorem setEntryOf_owners : (s.setEntryOf h b e x).owners = s.owners := rfl
@[simp] theorem setEntryOf_halfA : (s.setEntryOf h b e x).halfA = s.halfA := rfl
@[simp] theorem setEntryOf_halfB : (s.setEntryOf h b e x).halfB = s.halfB := rfl
@[simp] theorem setEntryOf_referee : (s.setEntryOf h b e x).referee = s.referee := rfl
@[simp] theorem setEntryOf_profile : (s.setEntryOf h b e x).profile = s.profile := rfl
@[simp] theorem setEntryOf_profileTarget : (s.setEntryOf h b e x).profileTarget = s.profileTarget := rfl
@[simp] theorem setEntryOf_tref : (s.setEntryOf h b e x).tref = s.tref := rfl
@[simp] theorem setEntryOf_stood : (s.setEntryOf h b e x).stood = s.stood := rfl
@[simp] theorem setEntryOf_lockAt : (s.setEntryOf h b e x).lockAt = s.lockAt := rfl
@[simp] theorem setEntryOf_trefRuns : (s.setEntryOf h b e x).trefRuns = s.trefRuns := rfl
@[simp] theorem setEntryOf_consumers : (s.setEntryOf h b e x).consumers = s.consumers := rfl
@[simp] theorem setEntryOf_timebases : (s.setEntryOf h b e x).timebases = s.timebases := rfl
@[simp] theorem setEntryOf_slots : (s.setEntryOf h b e x).slots = s.slots := rfl
@[simp] theorem setEntryOf_pads : (s.setEntryOf h b e x).pads = s.pads := rfl
@[simp] theorem setEntryOf_sars : (s.setEntryOf h b e x).sars = s.sars := rfl
@[simp] theorem setEntryOf_mirrors : (s.setEntryOf h b e x).mirrors = s.mirrors := rfl
@[simp] theorem setEntryOf_fabricTime : (s.setEntryOf h b e x).fabricTime = s.fabricTime := rfl
@[simp] theorem setEntryOf_banks : (s.setEntryOf h b e x).banks = s.banks := rfl
@[simp] theorem setEntryOf_bankMarks : (s.setEntryOf h b e x).bankMarks = s.bankMarks := rfl
@[simp] theorem setEntryOf_imem : (s.setEntryOf h b e x).imem = s.imem := rfl
@[simp] theorem setEntryOf_imemMarks : (s.setEntryOf h b e x).imemMarks = s.imemMarks := rfl
@[simp] theorem setEntryOf_vmem : (s.setEntryOf h b e x).vmem = s.vmem := rfl
@[simp] theorem setEntryOf_vmemMarks : (s.setEntryOf h b e x).vmemMarks = s.vmemMarks := rfl
@[simp] theorem setEntryOf_lines : (s.setEntryOf h b e x).lines = s.lines := rfl
@[simp] theorem setEntryOf_synths : (s.setEntryOf h b e x).synths = s.synths := rfl
@[simp] theorem setEntryOf_lineBlanked : (s.setEntryOf h b e x).lineBlanked = s.lineBlanked := rfl
@[simp] theorem setEntryOf_freeCount : (s.setEntryOf h b e x).freeCount = s.freeCount := rfl
@[simp] theorem setEntryOf_engines : (s.setEntryOf h b e x).engines = s.engines := rfl
@[simp] theorem setEntryOf_progs : (s.setEntryOf h b e x).progs = s.progs := rfl
@[simp] theorem setEntryOf_pipes : (s.setEntryOf h b e x).pipes = s.pipes := rfl
@[simp] theorem setEntryOf_recogs : (s.setEntryOf h b e x).recogs = s.recogs := rfl
@[simp] theorem setEntryOf_coders : (s.setEntryOf h b e x).coders = s.coders := rfl
@[simp] theorem setEntryOf_codeHalves : (s.setEntryOf h b e x).codeHalves = s.codeHalves := rfl
@[simp] theorem setEntryOf_chans : (s.setEntryOf h b e x).chans = s.chans := rfl
@[simp] theorem setEntryOf_chanCfgs : (s.setEntryOf h b e x).chanCfgs = s.chanCfgs := rfl
@[simp] theorem setEntryOf_bushels : (s.setEntryOf h b e x).bushels = s.bushels := rfl
@[simp] theorem setEntryOf_meter : (s.setEntryOf h b e x).meter = s.meter := rfl
@[simp] theorem setEntryOf_metLink : (s.setEntryOf h b e x).metLink = s.metLink := rfl
@[simp] theorem setEntryOf_archive : (s.setEntryOf h b e x).archive = s.archive := rfl
@[simp] theorem setEntryOf_links : (s.setEntryOf h b e x).links = s.links := rfl
@[simp] theorem setEntryOf_routes : (s.setEntryOf h b e x).routes = s.routes := rfl
@[simp] theorem setEntryOf_offers : (s.setEntryOf h b e x).offers = s.offers := rfl
@[simp] theorem setEntryOf_router : (s.setEntryOf h b e x).router = s.router := rfl
@[simp] theorem setEntryOf_stewards : (s.setEntryOf h b e x).stewards = s.stewards := rfl
@[simp] theorem setEntryOf_flash : (s.setEntryOf h b e x).flash = s.flash := rfl
@[simp] theorem setEntryOf_flashOps : (s.setEntryOf h b e x).flashOps = s.flashOps := rfl
@[simp] theorem setEntryOf_otp : (s.setEntryOf h b e x).otp = s.otp := rfl
@[simp] theorem setEntryOf_envLock : (s.setEntryOf h b e x).envLock = s.envLock := rfl
@[simp] theorem setEntryOf_vcDue : (s.setEntryOf h b e x).vcDue = s.vcDue := rfl
@[simp] theorem setEntryOf_vcLoading : (s.setEntryOf h b e x).vcLoading = s.vcLoading := rfl
@[simp] theorem setEntryOf_vcEntry : (s.setEntryOf h b e x).vcEntry = s.vcEntry := rfl
@[simp] theorem setEntryOf_ports : (s.setEntryOf h b e x).ports = s.ports := rfl
@[simp] theorem setEntryOf_twBuses : (s.setEntryOf h b e x).twBuses = s.twBuses := rfl
@[simp] theorem setEntryOf_pmbus : (s.setEntryOf h b e x).pmbus = s.pmbus := rfl
@[simp] theorem setEntryOf_power : (s.setEntryOf h b e x).power = s.power := rfl
@[simp] theorem setEntryOf_gpPins : (s.setEntryOf h b e x).gpPins = s.gpPins := rfl
@[simp] theorem setEntryOf_jtag : (s.setEntryOf h b e x).jtag = s.jtag := rfl
@[simp] theorem setEntryOf_pending : (s.setEntryOf h b e x).pending = s.pending := rfl

end

/-! ## setPipe -/

section

variable (s : State) (h : Half) (b : Nat) (x : BayPipe)

@[simp] theorem setPipe_regs : (s.setPipe h b x).regs = s.regs := rfl
@[simp] theorem setPipe_staging : (s.setPipe h b x).staging = s.staging := rfl
@[simp] theorem setPipe_snaps : (s.setPipe h b x).snaps = s.snaps := rfl
@[simp] theorem setPipe_seats : (s.setPipe h b x).seats = s.seats := rfl
@[simp] theorem setPipe_orphans : (s.setPipe h b x).orphans = s.orphans := rfl
@[simp] theorem setPipe_gaps : (s.setPipe h b x).gaps = s.gaps := rfl
@[simp] theorem setPipe_owners : (s.setPipe h b x).owners = s.owners := rfl
@[simp] theorem setPipe_halfA : (s.setPipe h b x).halfA = s.halfA := rfl
@[simp] theorem setPipe_halfB : (s.setPipe h b x).halfB = s.halfB := rfl
@[simp] theorem setPipe_referee : (s.setPipe h b x).referee = s.referee := rfl
@[simp] theorem setPipe_profile : (s.setPipe h b x).profile = s.profile := rfl
@[simp] theorem setPipe_profileTarget : (s.setPipe h b x).profileTarget = s.profileTarget := rfl
@[simp] theorem setPipe_tref : (s.setPipe h b x).tref = s.tref := rfl
@[simp] theorem setPipe_stood : (s.setPipe h b x).stood = s.stood := rfl
@[simp] theorem setPipe_lockAt : (s.setPipe h b x).lockAt = s.lockAt := rfl
@[simp] theorem setPipe_trefRuns : (s.setPipe h b x).trefRuns = s.trefRuns := rfl
@[simp] theorem setPipe_consumers : (s.setPipe h b x).consumers = s.consumers := rfl
@[simp] theorem setPipe_timebases : (s.setPipe h b x).timebases = s.timebases := rfl
@[simp] theorem setPipe_slots : (s.setPipe h b x).slots = s.slots := rfl
@[simp] theorem setPipe_pads : (s.setPipe h b x).pads = s.pads := rfl
@[simp] theorem setPipe_sars : (s.setPipe h b x).sars = s.sars := rfl
@[simp] theorem setPipe_mirrors : (s.setPipe h b x).mirrors = s.mirrors := rfl
@[simp] theorem setPipe_fabricTime : (s.setPipe h b x).fabricTime = s.fabricTime := rfl
@[simp] theorem setPipe_banks : (s.setPipe h b x).banks = s.banks := rfl
@[simp] theorem setPipe_bankMarks : (s.setPipe h b x).bankMarks = s.bankMarks := rfl
@[simp] theorem setPipe_imem : (s.setPipe h b x).imem = s.imem := rfl
@[simp] theorem setPipe_imemMarks : (s.setPipe h b x).imemMarks = s.imemMarks := rfl
@[simp] theorem setPipe_vmem : (s.setPipe h b x).vmem = s.vmem := rfl
@[simp] theorem setPipe_vmemMarks : (s.setPipe h b x).vmemMarks = s.vmemMarks := rfl
@[simp] theorem setPipe_lines : (s.setPipe h b x).lines = s.lines := rfl
@[simp] theorem setPipe_synths : (s.setPipe h b x).synths = s.synths := rfl
@[simp] theorem setPipe_lineBlanked : (s.setPipe h b x).lineBlanked = s.lineBlanked := rfl
@[simp] theorem setPipe_freeCount : (s.setPipe h b x).freeCount = s.freeCount := rfl
@[simp] theorem setPipe_engines : (s.setPipe h b x).engines = s.engines := rfl
@[simp] theorem setPipe_progs : (s.setPipe h b x).progs = s.progs := rfl
@[simp] theorem setPipe_pollEntries : (s.setPipe h b x).pollEntries = s.pollEntries := rfl
@[simp] theorem setPipe_recogs : (s.setPipe h b x).recogs = s.recogs := rfl
@[simp] theorem setPipe_coders : (s.setPipe h b x).coders = s.coders := rfl
@[simp] theorem setPipe_codeHalves : (s.setPipe h b x).codeHalves = s.codeHalves := rfl
@[simp] theorem setPipe_chans : (s.setPipe h b x).chans = s.chans := rfl
@[simp] theorem setPipe_chanCfgs : (s.setPipe h b x).chanCfgs = s.chanCfgs := rfl
@[simp] theorem setPipe_bushels : (s.setPipe h b x).bushels = s.bushels := rfl
@[simp] theorem setPipe_meter : (s.setPipe h b x).meter = s.meter := rfl
@[simp] theorem setPipe_metLink : (s.setPipe h b x).metLink = s.metLink := rfl
@[simp] theorem setPipe_archive : (s.setPipe h b x).archive = s.archive := rfl
@[simp] theorem setPipe_links : (s.setPipe h b x).links = s.links := rfl
@[simp] theorem setPipe_routes : (s.setPipe h b x).routes = s.routes := rfl
@[simp] theorem setPipe_offers : (s.setPipe h b x).offers = s.offers := rfl
@[simp] theorem setPipe_router : (s.setPipe h b x).router = s.router := rfl
@[simp] theorem setPipe_stewards : (s.setPipe h b x).stewards = s.stewards := rfl
@[simp] theorem setPipe_flash : (s.setPipe h b x).flash = s.flash := rfl
@[simp] theorem setPipe_flashOps : (s.setPipe h b x).flashOps = s.flashOps := rfl
@[simp] theorem setPipe_otp : (s.setPipe h b x).otp = s.otp := rfl
@[simp] theorem setPipe_envLock : (s.setPipe h b x).envLock = s.envLock := rfl
@[simp] theorem setPipe_vcDue : (s.setPipe h b x).vcDue = s.vcDue := rfl
@[simp] theorem setPipe_vcLoading : (s.setPipe h b x).vcLoading = s.vcLoading := rfl
@[simp] theorem setPipe_vcEntry : (s.setPipe h b x).vcEntry = s.vcEntry := rfl
@[simp] theorem setPipe_ports : (s.setPipe h b x).ports = s.ports := rfl
@[simp] theorem setPipe_twBuses : (s.setPipe h b x).twBuses = s.twBuses := rfl
@[simp] theorem setPipe_pmbus : (s.setPipe h b x).pmbus = s.pmbus := rfl
@[simp] theorem setPipe_power : (s.setPipe h b x).power = s.power := rfl
@[simp] theorem setPipe_gpPins : (s.setPipe h b x).gpPins = s.gpPins := rfl
@[simp] theorem setPipe_jtag : (s.setPipe h b x).jtag = s.jtag := rfl
@[simp] theorem setPipe_pending : (s.setPipe h b x).pending = s.pending := rfl

end

/-! ## setRecog -/

section

variable (s : State) (h : Half) (b i : Nat) (x : Recog)

@[simp] theorem setRecog_regs : (s.setRecog h b i x).regs = s.regs := rfl
@[simp] theorem setRecog_staging : (s.setRecog h b i x).staging = s.staging := rfl
@[simp] theorem setRecog_snaps : (s.setRecog h b i x).snaps = s.snaps := rfl
@[simp] theorem setRecog_seats : (s.setRecog h b i x).seats = s.seats := rfl
@[simp] theorem setRecog_orphans : (s.setRecog h b i x).orphans = s.orphans := rfl
@[simp] theorem setRecog_gaps : (s.setRecog h b i x).gaps = s.gaps := rfl
@[simp] theorem setRecog_owners : (s.setRecog h b i x).owners = s.owners := rfl
@[simp] theorem setRecog_halfA : (s.setRecog h b i x).halfA = s.halfA := rfl
@[simp] theorem setRecog_halfB : (s.setRecog h b i x).halfB = s.halfB := rfl
@[simp] theorem setRecog_referee : (s.setRecog h b i x).referee = s.referee := rfl
@[simp] theorem setRecog_profile : (s.setRecog h b i x).profile = s.profile := rfl
@[simp] theorem setRecog_profileTarget : (s.setRecog h b i x).profileTarget = s.profileTarget := rfl
@[simp] theorem setRecog_tref : (s.setRecog h b i x).tref = s.tref := rfl
@[simp] theorem setRecog_stood : (s.setRecog h b i x).stood = s.stood := rfl
@[simp] theorem setRecog_lockAt : (s.setRecog h b i x).lockAt = s.lockAt := rfl
@[simp] theorem setRecog_trefRuns : (s.setRecog h b i x).trefRuns = s.trefRuns := rfl
@[simp] theorem setRecog_consumers : (s.setRecog h b i x).consumers = s.consumers := rfl
@[simp] theorem setRecog_timebases : (s.setRecog h b i x).timebases = s.timebases := rfl
@[simp] theorem setRecog_slots : (s.setRecog h b i x).slots = s.slots := rfl
@[simp] theorem setRecog_pads : (s.setRecog h b i x).pads = s.pads := rfl
@[simp] theorem setRecog_sars : (s.setRecog h b i x).sars = s.sars := rfl
@[simp] theorem setRecog_mirrors : (s.setRecog h b i x).mirrors = s.mirrors := rfl
@[simp] theorem setRecog_fabricTime : (s.setRecog h b i x).fabricTime = s.fabricTime := rfl
@[simp] theorem setRecog_banks : (s.setRecog h b i x).banks = s.banks := rfl
@[simp] theorem setRecog_bankMarks : (s.setRecog h b i x).bankMarks = s.bankMarks := rfl
@[simp] theorem setRecog_imem : (s.setRecog h b i x).imem = s.imem := rfl
@[simp] theorem setRecog_imemMarks : (s.setRecog h b i x).imemMarks = s.imemMarks := rfl
@[simp] theorem setRecog_vmem : (s.setRecog h b i x).vmem = s.vmem := rfl
@[simp] theorem setRecog_vmemMarks : (s.setRecog h b i x).vmemMarks = s.vmemMarks := rfl
@[simp] theorem setRecog_lines : (s.setRecog h b i x).lines = s.lines := rfl
@[simp] theorem setRecog_synths : (s.setRecog h b i x).synths = s.synths := rfl
@[simp] theorem setRecog_lineBlanked : (s.setRecog h b i x).lineBlanked = s.lineBlanked := rfl
@[simp] theorem setRecog_freeCount : (s.setRecog h b i x).freeCount = s.freeCount := rfl
@[simp] theorem setRecog_engines : (s.setRecog h b i x).engines = s.engines := rfl
@[simp] theorem setRecog_progs : (s.setRecog h b i x).progs = s.progs := rfl
@[simp] theorem setRecog_pollEntries : (s.setRecog h b i x).pollEntries = s.pollEntries := rfl
@[simp] theorem setRecog_pipes : (s.setRecog h b i x).pipes = s.pipes := rfl
@[simp] theorem setRecog_coders : (s.setRecog h b i x).coders = s.coders := rfl
@[simp] theorem setRecog_codeHalves : (s.setRecog h b i x).codeHalves = s.codeHalves := rfl
@[simp] theorem setRecog_chans : (s.setRecog h b i x).chans = s.chans := rfl
@[simp] theorem setRecog_chanCfgs : (s.setRecog h b i x).chanCfgs = s.chanCfgs := rfl
@[simp] theorem setRecog_bushels : (s.setRecog h b i x).bushels = s.bushels := rfl
@[simp] theorem setRecog_meter : (s.setRecog h b i x).meter = s.meter := rfl
@[simp] theorem setRecog_metLink : (s.setRecog h b i x).metLink = s.metLink := rfl
@[simp] theorem setRecog_archive : (s.setRecog h b i x).archive = s.archive := rfl
@[simp] theorem setRecog_links : (s.setRecog h b i x).links = s.links := rfl
@[simp] theorem setRecog_routes : (s.setRecog h b i x).routes = s.routes := rfl
@[simp] theorem setRecog_offers : (s.setRecog h b i x).offers = s.offers := rfl
@[simp] theorem setRecog_router : (s.setRecog h b i x).router = s.router := rfl
@[simp] theorem setRecog_stewards : (s.setRecog h b i x).stewards = s.stewards := rfl
@[simp] theorem setRecog_flash : (s.setRecog h b i x).flash = s.flash := rfl
@[simp] theorem setRecog_flashOps : (s.setRecog h b i x).flashOps = s.flashOps := rfl
@[simp] theorem setRecog_otp : (s.setRecog h b i x).otp = s.otp := rfl
@[simp] theorem setRecog_envLock : (s.setRecog h b i x).envLock = s.envLock := rfl
@[simp] theorem setRecog_vcDue : (s.setRecog h b i x).vcDue = s.vcDue := rfl
@[simp] theorem setRecog_vcLoading : (s.setRecog h b i x).vcLoading = s.vcLoading := rfl
@[simp] theorem setRecog_vcEntry : (s.setRecog h b i x).vcEntry = s.vcEntry := rfl
@[simp] theorem setRecog_ports : (s.setRecog h b i x).ports = s.ports := rfl
@[simp] theorem setRecog_twBuses : (s.setRecog h b i x).twBuses = s.twBuses := rfl
@[simp] theorem setRecog_pmbus : (s.setRecog h b i x).pmbus = s.pmbus := rfl
@[simp] theorem setRecog_power : (s.setRecog h b i x).power = s.power := rfl
@[simp] theorem setRecog_gpPins : (s.setRecog h b i x).gpPins = s.gpPins := rfl
@[simp] theorem setRecog_jtag : (s.setRecog h b i x).jtag = s.jtag := rfl
@[simp] theorem setRecog_pending : (s.setRecog h b i x).pending = s.pending := rfl

end

/-! ## setCoder -/

section

variable (s : State) (h : Half) (e : Nat) (x : Coder)

@[simp] theorem setCoder_regs : (s.setCoder h e x).regs = s.regs := rfl
@[simp] theorem setCoder_staging : (s.setCoder h e x).staging = s.staging := rfl
@[simp] theorem setCoder_snaps : (s.setCoder h e x).snaps = s.snaps := rfl
@[simp] theorem setCoder_seats : (s.setCoder h e x).seats = s.seats := rfl
@[simp] theorem setCoder_orphans : (s.setCoder h e x).orphans = s.orphans := rfl
@[simp] theorem setCoder_gaps : (s.setCoder h e x).gaps = s.gaps := rfl
@[simp] theorem setCoder_owners : (s.setCoder h e x).owners = s.owners := rfl
@[simp] theorem setCoder_halfA : (s.setCoder h e x).halfA = s.halfA := rfl
@[simp] theorem setCoder_halfB : (s.setCoder h e x).halfB = s.halfB := rfl
@[simp] theorem setCoder_referee : (s.setCoder h e x).referee = s.referee := rfl
@[simp] theorem setCoder_profile : (s.setCoder h e x).profile = s.profile := rfl
@[simp] theorem setCoder_profileTarget : (s.setCoder h e x).profileTarget = s.profileTarget := rfl
@[simp] theorem setCoder_tref : (s.setCoder h e x).tref = s.tref := rfl
@[simp] theorem setCoder_stood : (s.setCoder h e x).stood = s.stood := rfl
@[simp] theorem setCoder_lockAt : (s.setCoder h e x).lockAt = s.lockAt := rfl
@[simp] theorem setCoder_trefRuns : (s.setCoder h e x).trefRuns = s.trefRuns := rfl
@[simp] theorem setCoder_consumers : (s.setCoder h e x).consumers = s.consumers := rfl
@[simp] theorem setCoder_timebases : (s.setCoder h e x).timebases = s.timebases := rfl
@[simp] theorem setCoder_slots : (s.setCoder h e x).slots = s.slots := rfl
@[simp] theorem setCoder_pads : (s.setCoder h e x).pads = s.pads := rfl
@[simp] theorem setCoder_sars : (s.setCoder h e x).sars = s.sars := rfl
@[simp] theorem setCoder_mirrors : (s.setCoder h e x).mirrors = s.mirrors := rfl
@[simp] theorem setCoder_fabricTime : (s.setCoder h e x).fabricTime = s.fabricTime := rfl
@[simp] theorem setCoder_banks : (s.setCoder h e x).banks = s.banks := rfl
@[simp] theorem setCoder_bankMarks : (s.setCoder h e x).bankMarks = s.bankMarks := rfl
@[simp] theorem setCoder_imem : (s.setCoder h e x).imem = s.imem := rfl
@[simp] theorem setCoder_imemMarks : (s.setCoder h e x).imemMarks = s.imemMarks := rfl
@[simp] theorem setCoder_vmem : (s.setCoder h e x).vmem = s.vmem := rfl
@[simp] theorem setCoder_vmemMarks : (s.setCoder h e x).vmemMarks = s.vmemMarks := rfl
@[simp] theorem setCoder_lines : (s.setCoder h e x).lines = s.lines := rfl
@[simp] theorem setCoder_synths : (s.setCoder h e x).synths = s.synths := rfl
@[simp] theorem setCoder_lineBlanked : (s.setCoder h e x).lineBlanked = s.lineBlanked := rfl
@[simp] theorem setCoder_freeCount : (s.setCoder h e x).freeCount = s.freeCount := rfl
@[simp] theorem setCoder_engines : (s.setCoder h e x).engines = s.engines := rfl
@[simp] theorem setCoder_progs : (s.setCoder h e x).progs = s.progs := rfl
@[simp] theorem setCoder_pollEntries : (s.setCoder h e x).pollEntries = s.pollEntries := rfl
@[simp] theorem setCoder_pipes : (s.setCoder h e x).pipes = s.pipes := rfl
@[simp] theorem setCoder_recogs : (s.setCoder h e x).recogs = s.recogs := rfl
@[simp] theorem setCoder_codeHalves : (s.setCoder h e x).codeHalves = s.codeHalves := rfl
@[simp] theorem setCoder_chans : (s.setCoder h e x).chans = s.chans := rfl
@[simp] theorem setCoder_chanCfgs : (s.setCoder h e x).chanCfgs = s.chanCfgs := rfl
@[simp] theorem setCoder_bushels : (s.setCoder h e x).bushels = s.bushels := rfl
@[simp] theorem setCoder_meter : (s.setCoder h e x).meter = s.meter := rfl
@[simp] theorem setCoder_metLink : (s.setCoder h e x).metLink = s.metLink := rfl
@[simp] theorem setCoder_archive : (s.setCoder h e x).archive = s.archive := rfl
@[simp] theorem setCoder_links : (s.setCoder h e x).links = s.links := rfl
@[simp] theorem setCoder_routes : (s.setCoder h e x).routes = s.routes := rfl
@[simp] theorem setCoder_offers : (s.setCoder h e x).offers = s.offers := rfl
@[simp] theorem setCoder_router : (s.setCoder h e x).router = s.router := rfl
@[simp] theorem setCoder_stewards : (s.setCoder h e x).stewards = s.stewards := rfl
@[simp] theorem setCoder_flash : (s.setCoder h e x).flash = s.flash := rfl
@[simp] theorem setCoder_flashOps : (s.setCoder h e x).flashOps = s.flashOps := rfl
@[simp] theorem setCoder_otp : (s.setCoder h e x).otp = s.otp := rfl
@[simp] theorem setCoder_envLock : (s.setCoder h e x).envLock = s.envLock := rfl
@[simp] theorem setCoder_vcDue : (s.setCoder h e x).vcDue = s.vcDue := rfl
@[simp] theorem setCoder_vcLoading : (s.setCoder h e x).vcLoading = s.vcLoading := rfl
@[simp] theorem setCoder_vcEntry : (s.setCoder h e x).vcEntry = s.vcEntry := rfl
@[simp] theorem setCoder_ports : (s.setCoder h e x).ports = s.ports := rfl
@[simp] theorem setCoder_twBuses : (s.setCoder h e x).twBuses = s.twBuses := rfl
@[simp] theorem setCoder_pmbus : (s.setCoder h e x).pmbus = s.pmbus := rfl
@[simp] theorem setCoder_power : (s.setCoder h e x).power = s.power := rfl
@[simp] theorem setCoder_gpPins : (s.setCoder h e x).gpPins = s.gpPins := rfl
@[simp] theorem setCoder_jtag : (s.setCoder h e x).jtag = s.jtag := rfl
@[simp] theorem setCoder_pending : (s.setCoder h e x).pending = s.pending := rfl

end

/-! ## setCodeHalf -/

section

variable (s : State) (h : Half) (x : CodeHalf)

@[simp] theorem setCodeHalf_regs : (s.setCodeHalf h x).regs = s.regs := rfl
@[simp] theorem setCodeHalf_staging : (s.setCodeHalf h x).staging = s.staging := rfl
@[simp] theorem setCodeHalf_snaps : (s.setCodeHalf h x).snaps = s.snaps := rfl
@[simp] theorem setCodeHalf_seats : (s.setCodeHalf h x).seats = s.seats := rfl
@[simp] theorem setCodeHalf_orphans : (s.setCodeHalf h x).orphans = s.orphans := rfl
@[simp] theorem setCodeHalf_gaps : (s.setCodeHalf h x).gaps = s.gaps := rfl
@[simp] theorem setCodeHalf_owners : (s.setCodeHalf h x).owners = s.owners := rfl
@[simp] theorem setCodeHalf_halfA : (s.setCodeHalf h x).halfA = s.halfA := rfl
@[simp] theorem setCodeHalf_halfB : (s.setCodeHalf h x).halfB = s.halfB := rfl
@[simp] theorem setCodeHalf_referee : (s.setCodeHalf h x).referee = s.referee := rfl
@[simp] theorem setCodeHalf_profile : (s.setCodeHalf h x).profile = s.profile := rfl
@[simp] theorem setCodeHalf_profileTarget : (s.setCodeHalf h x).profileTarget = s.profileTarget := rfl
@[simp] theorem setCodeHalf_tref : (s.setCodeHalf h x).tref = s.tref := rfl
@[simp] theorem setCodeHalf_stood : (s.setCodeHalf h x).stood = s.stood := rfl
@[simp] theorem setCodeHalf_lockAt : (s.setCodeHalf h x).lockAt = s.lockAt := rfl
@[simp] theorem setCodeHalf_trefRuns : (s.setCodeHalf h x).trefRuns = s.trefRuns := rfl
@[simp] theorem setCodeHalf_consumers : (s.setCodeHalf h x).consumers = s.consumers := rfl
@[simp] theorem setCodeHalf_timebases : (s.setCodeHalf h x).timebases = s.timebases := rfl
@[simp] theorem setCodeHalf_slots : (s.setCodeHalf h x).slots = s.slots := rfl
@[simp] theorem setCodeHalf_pads : (s.setCodeHalf h x).pads = s.pads := rfl
@[simp] theorem setCodeHalf_sars : (s.setCodeHalf h x).sars = s.sars := rfl
@[simp] theorem setCodeHalf_mirrors : (s.setCodeHalf h x).mirrors = s.mirrors := rfl
@[simp] theorem setCodeHalf_fabricTime : (s.setCodeHalf h x).fabricTime = s.fabricTime := rfl
@[simp] theorem setCodeHalf_banks : (s.setCodeHalf h x).banks = s.banks := rfl
@[simp] theorem setCodeHalf_bankMarks : (s.setCodeHalf h x).bankMarks = s.bankMarks := rfl
@[simp] theorem setCodeHalf_imem : (s.setCodeHalf h x).imem = s.imem := rfl
@[simp] theorem setCodeHalf_imemMarks : (s.setCodeHalf h x).imemMarks = s.imemMarks := rfl
@[simp] theorem setCodeHalf_vmem : (s.setCodeHalf h x).vmem = s.vmem := rfl
@[simp] theorem setCodeHalf_vmemMarks : (s.setCodeHalf h x).vmemMarks = s.vmemMarks := rfl
@[simp] theorem setCodeHalf_lines : (s.setCodeHalf h x).lines = s.lines := rfl
@[simp] theorem setCodeHalf_synths : (s.setCodeHalf h x).synths = s.synths := rfl
@[simp] theorem setCodeHalf_lineBlanked : (s.setCodeHalf h x).lineBlanked = s.lineBlanked := rfl
@[simp] theorem setCodeHalf_freeCount : (s.setCodeHalf h x).freeCount = s.freeCount := rfl
@[simp] theorem setCodeHalf_engines : (s.setCodeHalf h x).engines = s.engines := rfl
@[simp] theorem setCodeHalf_progs : (s.setCodeHalf h x).progs = s.progs := rfl
@[simp] theorem setCodeHalf_pollEntries : (s.setCodeHalf h x).pollEntries = s.pollEntries := rfl
@[simp] theorem setCodeHalf_pipes : (s.setCodeHalf h x).pipes = s.pipes := rfl
@[simp] theorem setCodeHalf_recogs : (s.setCodeHalf h x).recogs = s.recogs := rfl
@[simp] theorem setCodeHalf_coders : (s.setCodeHalf h x).coders = s.coders := rfl
@[simp] theorem setCodeHalf_chans : (s.setCodeHalf h x).chans = s.chans := rfl
@[simp] theorem setCodeHalf_chanCfgs : (s.setCodeHalf h x).chanCfgs = s.chanCfgs := rfl
@[simp] theorem setCodeHalf_bushels : (s.setCodeHalf h x).bushels = s.bushels := rfl
@[simp] theorem setCodeHalf_meter : (s.setCodeHalf h x).meter = s.meter := rfl
@[simp] theorem setCodeHalf_metLink : (s.setCodeHalf h x).metLink = s.metLink := rfl
@[simp] theorem setCodeHalf_archive : (s.setCodeHalf h x).archive = s.archive := rfl
@[simp] theorem setCodeHalf_links : (s.setCodeHalf h x).links = s.links := rfl
@[simp] theorem setCodeHalf_routes : (s.setCodeHalf h x).routes = s.routes := rfl
@[simp] theorem setCodeHalf_offers : (s.setCodeHalf h x).offers = s.offers := rfl
@[simp] theorem setCodeHalf_router : (s.setCodeHalf h x).router = s.router := rfl
@[simp] theorem setCodeHalf_stewards : (s.setCodeHalf h x).stewards = s.stewards := rfl
@[simp] theorem setCodeHalf_flash : (s.setCodeHalf h x).flash = s.flash := rfl
@[simp] theorem setCodeHalf_flashOps : (s.setCodeHalf h x).flashOps = s.flashOps := rfl
@[simp] theorem setCodeHalf_otp : (s.setCodeHalf h x).otp = s.otp := rfl
@[simp] theorem setCodeHalf_envLock : (s.setCodeHalf h x).envLock = s.envLock := rfl
@[simp] theorem setCodeHalf_vcDue : (s.setCodeHalf h x).vcDue = s.vcDue := rfl
@[simp] theorem setCodeHalf_vcLoading : (s.setCodeHalf h x).vcLoading = s.vcLoading := rfl
@[simp] theorem setCodeHalf_vcEntry : (s.setCodeHalf h x).vcEntry = s.vcEntry := rfl
@[simp] theorem setCodeHalf_ports : (s.setCodeHalf h x).ports = s.ports := rfl
@[simp] theorem setCodeHalf_twBuses : (s.setCodeHalf h x).twBuses = s.twBuses := rfl
@[simp] theorem setCodeHalf_pmbus : (s.setCodeHalf h x).pmbus = s.pmbus := rfl
@[simp] theorem setCodeHalf_power : (s.setCodeHalf h x).power = s.power := rfl
@[simp] theorem setCodeHalf_gpPins : (s.setCodeHalf h x).gpPins = s.gpPins := rfl
@[simp] theorem setCodeHalf_jtag : (s.setCodeHalf h x).jtag = s.jtag := rfl
@[simp] theorem setCodeHalf_pending : (s.setCodeHalf h x).pending = s.pending := rfl

end

/-! ## setChan -/

section

variable (s : State) (c : Nat) (x : Chan)

@[simp] theorem setChan_regs : (s.setChan c x).regs = s.regs := rfl
@[simp] theorem setChan_staging : (s.setChan c x).staging = s.staging := rfl
@[simp] theorem setChan_snaps : (s.setChan c x).snaps = s.snaps := rfl
@[simp] theorem setChan_seats : (s.setChan c x).seats = s.seats := rfl
@[simp] theorem setChan_orphans : (s.setChan c x).orphans = s.orphans := rfl
@[simp] theorem setChan_gaps : (s.setChan c x).gaps = s.gaps := rfl
@[simp] theorem setChan_owners : (s.setChan c x).owners = s.owners := rfl
@[simp] theorem setChan_halfA : (s.setChan c x).halfA = s.halfA := rfl
@[simp] theorem setChan_halfB : (s.setChan c x).halfB = s.halfB := rfl
@[simp] theorem setChan_referee : (s.setChan c x).referee = s.referee := rfl
@[simp] theorem setChan_profile : (s.setChan c x).profile = s.profile := rfl
@[simp] theorem setChan_profileTarget : (s.setChan c x).profileTarget = s.profileTarget := rfl
@[simp] theorem setChan_tref : (s.setChan c x).tref = s.tref := rfl
@[simp] theorem setChan_stood : (s.setChan c x).stood = s.stood := rfl
@[simp] theorem setChan_lockAt : (s.setChan c x).lockAt = s.lockAt := rfl
@[simp] theorem setChan_trefRuns : (s.setChan c x).trefRuns = s.trefRuns := rfl
@[simp] theorem setChan_consumers : (s.setChan c x).consumers = s.consumers := rfl
@[simp] theorem setChan_timebases : (s.setChan c x).timebases = s.timebases := rfl
@[simp] theorem setChan_slots : (s.setChan c x).slots = s.slots := rfl
@[simp] theorem setChan_pads : (s.setChan c x).pads = s.pads := rfl
@[simp] theorem setChan_sars : (s.setChan c x).sars = s.sars := rfl
@[simp] theorem setChan_mirrors : (s.setChan c x).mirrors = s.mirrors := rfl
@[simp] theorem setChan_fabricTime : (s.setChan c x).fabricTime = s.fabricTime := rfl
@[simp] theorem setChan_banks : (s.setChan c x).banks = s.banks := rfl
@[simp] theorem setChan_bankMarks : (s.setChan c x).bankMarks = s.bankMarks := rfl
@[simp] theorem setChan_imem : (s.setChan c x).imem = s.imem := rfl
@[simp] theorem setChan_imemMarks : (s.setChan c x).imemMarks = s.imemMarks := rfl
@[simp] theorem setChan_vmem : (s.setChan c x).vmem = s.vmem := rfl
@[simp] theorem setChan_vmemMarks : (s.setChan c x).vmemMarks = s.vmemMarks := rfl
@[simp] theorem setChan_lines : (s.setChan c x).lines = s.lines := rfl
@[simp] theorem setChan_synths : (s.setChan c x).synths = s.synths := rfl
@[simp] theorem setChan_lineBlanked : (s.setChan c x).lineBlanked = s.lineBlanked := rfl
@[simp] theorem setChan_freeCount : (s.setChan c x).freeCount = s.freeCount := rfl
@[simp] theorem setChan_engines : (s.setChan c x).engines = s.engines := rfl
@[simp] theorem setChan_progs : (s.setChan c x).progs = s.progs := rfl
@[simp] theorem setChan_pollEntries : (s.setChan c x).pollEntries = s.pollEntries := rfl
@[simp] theorem setChan_pipes : (s.setChan c x).pipes = s.pipes := rfl
@[simp] theorem setChan_recogs : (s.setChan c x).recogs = s.recogs := rfl
@[simp] theorem setChan_coders : (s.setChan c x).coders = s.coders := rfl
@[simp] theorem setChan_codeHalves : (s.setChan c x).codeHalves = s.codeHalves := rfl
@[simp] theorem setChan_chanCfgs : (s.setChan c x).chanCfgs = s.chanCfgs := rfl
@[simp] theorem setChan_bushels : (s.setChan c x).bushels = s.bushels := rfl
@[simp] theorem setChan_meter : (s.setChan c x).meter = s.meter := rfl
@[simp] theorem setChan_metLink : (s.setChan c x).metLink = s.metLink := rfl
@[simp] theorem setChan_archive : (s.setChan c x).archive = s.archive := rfl
@[simp] theorem setChan_links : (s.setChan c x).links = s.links := rfl
@[simp] theorem setChan_routes : (s.setChan c x).routes = s.routes := rfl
@[simp] theorem setChan_offers : (s.setChan c x).offers = s.offers := rfl
@[simp] theorem setChan_router : (s.setChan c x).router = s.router := rfl
@[simp] theorem setChan_stewards : (s.setChan c x).stewards = s.stewards := rfl
@[simp] theorem setChan_flash : (s.setChan c x).flash = s.flash := rfl
@[simp] theorem setChan_flashOps : (s.setChan c x).flashOps = s.flashOps := rfl
@[simp] theorem setChan_otp : (s.setChan c x).otp = s.otp := rfl
@[simp] theorem setChan_envLock : (s.setChan c x).envLock = s.envLock := rfl
@[simp] theorem setChan_vcDue : (s.setChan c x).vcDue = s.vcDue := rfl
@[simp] theorem setChan_vcLoading : (s.setChan c x).vcLoading = s.vcLoading := rfl
@[simp] theorem setChan_vcEntry : (s.setChan c x).vcEntry = s.vcEntry := rfl
@[simp] theorem setChan_ports : (s.setChan c x).ports = s.ports := rfl
@[simp] theorem setChan_twBuses : (s.setChan c x).twBuses = s.twBuses := rfl
@[simp] theorem setChan_pmbus : (s.setChan c x).pmbus = s.pmbus := rfl
@[simp] theorem setChan_power : (s.setChan c x).power = s.power := rfl
@[simp] theorem setChan_gpPins : (s.setChan c x).gpPins = s.gpPins := rfl
@[simp] theorem setChan_jtag : (s.setChan c x).jtag = s.jtag := rfl
@[simp] theorem setChan_pending : (s.setChan c x).pending = s.pending := rfl

end

/-! ## setChanCfg -/

section

variable (s : State) (h : Half) (c : Nat) (x : ChanCfg)

@[simp] theorem setChanCfg_regs : (s.setChanCfg h c x).regs = s.regs := rfl
@[simp] theorem setChanCfg_staging : (s.setChanCfg h c x).staging = s.staging := rfl
@[simp] theorem setChanCfg_snaps : (s.setChanCfg h c x).snaps = s.snaps := rfl
@[simp] theorem setChanCfg_seats : (s.setChanCfg h c x).seats = s.seats := rfl
@[simp] theorem setChanCfg_orphans : (s.setChanCfg h c x).orphans = s.orphans := rfl
@[simp] theorem setChanCfg_gaps : (s.setChanCfg h c x).gaps = s.gaps := rfl
@[simp] theorem setChanCfg_owners : (s.setChanCfg h c x).owners = s.owners := rfl
@[simp] theorem setChanCfg_halfA : (s.setChanCfg h c x).halfA = s.halfA := rfl
@[simp] theorem setChanCfg_halfB : (s.setChanCfg h c x).halfB = s.halfB := rfl
@[simp] theorem setChanCfg_referee : (s.setChanCfg h c x).referee = s.referee := rfl
@[simp] theorem setChanCfg_profile : (s.setChanCfg h c x).profile = s.profile := rfl
@[simp] theorem setChanCfg_profileTarget : (s.setChanCfg h c x).profileTarget = s.profileTarget := rfl
@[simp] theorem setChanCfg_tref : (s.setChanCfg h c x).tref = s.tref := rfl
@[simp] theorem setChanCfg_stood : (s.setChanCfg h c x).stood = s.stood := rfl
@[simp] theorem setChanCfg_lockAt : (s.setChanCfg h c x).lockAt = s.lockAt := rfl
@[simp] theorem setChanCfg_trefRuns : (s.setChanCfg h c x).trefRuns = s.trefRuns := rfl
@[simp] theorem setChanCfg_consumers : (s.setChanCfg h c x).consumers = s.consumers := rfl
@[simp] theorem setChanCfg_timebases : (s.setChanCfg h c x).timebases = s.timebases := rfl
@[simp] theorem setChanCfg_slots : (s.setChanCfg h c x).slots = s.slots := rfl
@[simp] theorem setChanCfg_pads : (s.setChanCfg h c x).pads = s.pads := rfl
@[simp] theorem setChanCfg_sars : (s.setChanCfg h c x).sars = s.sars := rfl
@[simp] theorem setChanCfg_mirrors : (s.setChanCfg h c x).mirrors = s.mirrors := rfl
@[simp] theorem setChanCfg_fabricTime : (s.setChanCfg h c x).fabricTime = s.fabricTime := rfl
@[simp] theorem setChanCfg_banks : (s.setChanCfg h c x).banks = s.banks := rfl
@[simp] theorem setChanCfg_bankMarks : (s.setChanCfg h c x).bankMarks = s.bankMarks := rfl
@[simp] theorem setChanCfg_imem : (s.setChanCfg h c x).imem = s.imem := rfl
@[simp] theorem setChanCfg_imemMarks : (s.setChanCfg h c x).imemMarks = s.imemMarks := rfl
@[simp] theorem setChanCfg_vmem : (s.setChanCfg h c x).vmem = s.vmem := rfl
@[simp] theorem setChanCfg_vmemMarks : (s.setChanCfg h c x).vmemMarks = s.vmemMarks := rfl
@[simp] theorem setChanCfg_lines : (s.setChanCfg h c x).lines = s.lines := rfl
@[simp] theorem setChanCfg_synths : (s.setChanCfg h c x).synths = s.synths := rfl
@[simp] theorem setChanCfg_lineBlanked : (s.setChanCfg h c x).lineBlanked = s.lineBlanked := rfl
@[simp] theorem setChanCfg_freeCount : (s.setChanCfg h c x).freeCount = s.freeCount := rfl
@[simp] theorem setChanCfg_engines : (s.setChanCfg h c x).engines = s.engines := rfl
@[simp] theorem setChanCfg_progs : (s.setChanCfg h c x).progs = s.progs := rfl
@[simp] theorem setChanCfg_pollEntries : (s.setChanCfg h c x).pollEntries = s.pollEntries := rfl
@[simp] theorem setChanCfg_pipes : (s.setChanCfg h c x).pipes = s.pipes := rfl
@[simp] theorem setChanCfg_recogs : (s.setChanCfg h c x).recogs = s.recogs := rfl
@[simp] theorem setChanCfg_coders : (s.setChanCfg h c x).coders = s.coders := rfl
@[simp] theorem setChanCfg_codeHalves : (s.setChanCfg h c x).codeHalves = s.codeHalves := rfl
@[simp] theorem setChanCfg_chans : (s.setChanCfg h c x).chans = s.chans := rfl
@[simp] theorem setChanCfg_bushels : (s.setChanCfg h c x).bushels = s.bushels := rfl
@[simp] theorem setChanCfg_meter : (s.setChanCfg h c x).meter = s.meter := rfl
@[simp] theorem setChanCfg_metLink : (s.setChanCfg h c x).metLink = s.metLink := rfl
@[simp] theorem setChanCfg_archive : (s.setChanCfg h c x).archive = s.archive := rfl
@[simp] theorem setChanCfg_links : (s.setChanCfg h c x).links = s.links := rfl
@[simp] theorem setChanCfg_routes : (s.setChanCfg h c x).routes = s.routes := rfl
@[simp] theorem setChanCfg_offers : (s.setChanCfg h c x).offers = s.offers := rfl
@[simp] theorem setChanCfg_router : (s.setChanCfg h c x).router = s.router := rfl
@[simp] theorem setChanCfg_stewards : (s.setChanCfg h c x).stewards = s.stewards := rfl
@[simp] theorem setChanCfg_flash : (s.setChanCfg h c x).flash = s.flash := rfl
@[simp] theorem setChanCfg_flashOps : (s.setChanCfg h c x).flashOps = s.flashOps := rfl
@[simp] theorem setChanCfg_otp : (s.setChanCfg h c x).otp = s.otp := rfl
@[simp] theorem setChanCfg_envLock : (s.setChanCfg h c x).envLock = s.envLock := rfl
@[simp] theorem setChanCfg_vcDue : (s.setChanCfg h c x).vcDue = s.vcDue := rfl
@[simp] theorem setChanCfg_vcLoading : (s.setChanCfg h c x).vcLoading = s.vcLoading := rfl
@[simp] theorem setChanCfg_vcEntry : (s.setChanCfg h c x).vcEntry = s.vcEntry := rfl
@[simp] theorem setChanCfg_ports : (s.setChanCfg h c x).ports = s.ports := rfl
@[simp] theorem setChanCfg_twBuses : (s.setChanCfg h c x).twBuses = s.twBuses := rfl
@[simp] theorem setChanCfg_pmbus : (s.setChanCfg h c x).pmbus = s.pmbus := rfl
@[simp] theorem setChanCfg_power : (s.setChanCfg h c x).power = s.power := rfl
@[simp] theorem setChanCfg_gpPins : (s.setChanCfg h c x).gpPins = s.gpPins := rfl
@[simp] theorem setChanCfg_jtag : (s.setChanCfg h c x).jtag = s.jtag := rfl
@[simp] theorem setChanCfg_pending : (s.setChanCfg h c x).pending = s.pending := rfl

end

/-! ## setOpen -/

section

variable (s : State) (h : Half) (c : Nat) (x : Bushel)

@[simp] theorem setOpen_regs : (s.setOpen h c x).regs = s.regs := rfl
@[simp] theorem setOpen_staging : (s.setOpen h c x).staging = s.staging := rfl
@[simp] theorem setOpen_snaps : (s.setOpen h c x).snaps = s.snaps := rfl
@[simp] theorem setOpen_seats : (s.setOpen h c x).seats = s.seats := rfl
@[simp] theorem setOpen_orphans : (s.setOpen h c x).orphans = s.orphans := rfl
@[simp] theorem setOpen_gaps : (s.setOpen h c x).gaps = s.gaps := rfl
@[simp] theorem setOpen_owners : (s.setOpen h c x).owners = s.owners := rfl
@[simp] theorem setOpen_halfA : (s.setOpen h c x).halfA = s.halfA := rfl
@[simp] theorem setOpen_halfB : (s.setOpen h c x).halfB = s.halfB := rfl
@[simp] theorem setOpen_referee : (s.setOpen h c x).referee = s.referee := rfl
@[simp] theorem setOpen_profile : (s.setOpen h c x).profile = s.profile := rfl
@[simp] theorem setOpen_profileTarget : (s.setOpen h c x).profileTarget = s.profileTarget := rfl
@[simp] theorem setOpen_tref : (s.setOpen h c x).tref = s.tref := rfl
@[simp] theorem setOpen_stood : (s.setOpen h c x).stood = s.stood := rfl
@[simp] theorem setOpen_lockAt : (s.setOpen h c x).lockAt = s.lockAt := rfl
@[simp] theorem setOpen_trefRuns : (s.setOpen h c x).trefRuns = s.trefRuns := rfl
@[simp] theorem setOpen_consumers : (s.setOpen h c x).consumers = s.consumers := rfl
@[simp] theorem setOpen_timebases : (s.setOpen h c x).timebases = s.timebases := rfl
@[simp] theorem setOpen_slots : (s.setOpen h c x).slots = s.slots := rfl
@[simp] theorem setOpen_pads : (s.setOpen h c x).pads = s.pads := rfl
@[simp] theorem setOpen_sars : (s.setOpen h c x).sars = s.sars := rfl
@[simp] theorem setOpen_mirrors : (s.setOpen h c x).mirrors = s.mirrors := rfl
@[simp] theorem setOpen_fabricTime : (s.setOpen h c x).fabricTime = s.fabricTime := rfl
@[simp] theorem setOpen_banks : (s.setOpen h c x).banks = s.banks := rfl
@[simp] theorem setOpen_bankMarks : (s.setOpen h c x).bankMarks = s.bankMarks := rfl
@[simp] theorem setOpen_imem : (s.setOpen h c x).imem = s.imem := rfl
@[simp] theorem setOpen_imemMarks : (s.setOpen h c x).imemMarks = s.imemMarks := rfl
@[simp] theorem setOpen_vmem : (s.setOpen h c x).vmem = s.vmem := rfl
@[simp] theorem setOpen_vmemMarks : (s.setOpen h c x).vmemMarks = s.vmemMarks := rfl
@[simp] theorem setOpen_lines : (s.setOpen h c x).lines = s.lines := rfl
@[simp] theorem setOpen_synths : (s.setOpen h c x).synths = s.synths := rfl
@[simp] theorem setOpen_lineBlanked : (s.setOpen h c x).lineBlanked = s.lineBlanked := rfl
@[simp] theorem setOpen_freeCount : (s.setOpen h c x).freeCount = s.freeCount := rfl
@[simp] theorem setOpen_engines : (s.setOpen h c x).engines = s.engines := rfl
@[simp] theorem setOpen_progs : (s.setOpen h c x).progs = s.progs := rfl
@[simp] theorem setOpen_pollEntries : (s.setOpen h c x).pollEntries = s.pollEntries := rfl
@[simp] theorem setOpen_pipes : (s.setOpen h c x).pipes = s.pipes := rfl
@[simp] theorem setOpen_recogs : (s.setOpen h c x).recogs = s.recogs := rfl
@[simp] theorem setOpen_coders : (s.setOpen h c x).coders = s.coders := rfl
@[simp] theorem setOpen_codeHalves : (s.setOpen h c x).codeHalves = s.codeHalves := rfl
@[simp] theorem setOpen_chans : (s.setOpen h c x).chans = s.chans := rfl
@[simp] theorem setOpen_chanCfgs : (s.setOpen h c x).chanCfgs = s.chanCfgs := rfl
@[simp] theorem setOpen_meter : (s.setOpen h c x).meter = s.meter := rfl
@[simp] theorem setOpen_metLink : (s.setOpen h c x).metLink = s.metLink := rfl
@[simp] theorem setOpen_archive : (s.setOpen h c x).archive = s.archive := rfl
@[simp] theorem setOpen_links : (s.setOpen h c x).links = s.links := rfl
@[simp] theorem setOpen_routes : (s.setOpen h c x).routes = s.routes := rfl
@[simp] theorem setOpen_offers : (s.setOpen h c x).offers = s.offers := rfl
@[simp] theorem setOpen_router : (s.setOpen h c x).router = s.router := rfl
@[simp] theorem setOpen_stewards : (s.setOpen h c x).stewards = s.stewards := rfl
@[simp] theorem setOpen_flash : (s.setOpen h c x).flash = s.flash := rfl
@[simp] theorem setOpen_flashOps : (s.setOpen h c x).flashOps = s.flashOps := rfl
@[simp] theorem setOpen_otp : (s.setOpen h c x).otp = s.otp := rfl
@[simp] theorem setOpen_envLock : (s.setOpen h c x).envLock = s.envLock := rfl
@[simp] theorem setOpen_vcDue : (s.setOpen h c x).vcDue = s.vcDue := rfl
@[simp] theorem setOpen_vcLoading : (s.setOpen h c x).vcLoading = s.vcLoading := rfl
@[simp] theorem setOpen_vcEntry : (s.setOpen h c x).vcEntry = s.vcEntry := rfl
@[simp] theorem setOpen_ports : (s.setOpen h c x).ports = s.ports := rfl
@[simp] theorem setOpen_twBuses : (s.setOpen h c x).twBuses = s.twBuses := rfl
@[simp] theorem setOpen_pmbus : (s.setOpen h c x).pmbus = s.pmbus := rfl
@[simp] theorem setOpen_power : (s.setOpen h c x).power = s.power := rfl
@[simp] theorem setOpen_gpPins : (s.setOpen h c x).gpPins = s.gpPins := rfl
@[simp] theorem setOpen_jtag : (s.setOpen h c x).jtag = s.jtag := rfl
@[simp] theorem setOpen_pending : (s.setOpen h c x).pending = s.pending := rfl

end

/-! ## setMeter -/

section

variable (s : State) (x : Meter)

@[simp] theorem setMeter_regs : (s.setMeter x).regs = s.regs := rfl
@[simp] theorem setMeter_staging : (s.setMeter x).staging = s.staging := rfl
@[simp] theorem setMeter_snaps : (s.setMeter x).snaps = s.snaps := rfl
@[simp] theorem setMeter_seats : (s.setMeter x).seats = s.seats := rfl
@[simp] theorem setMeter_orphans : (s.setMeter x).orphans = s.orphans := rfl
@[simp] theorem setMeter_gaps : (s.setMeter x).gaps = s.gaps := rfl
@[simp] theorem setMeter_owners : (s.setMeter x).owners = s.owners := rfl
@[simp] theorem setMeter_halfA : (s.setMeter x).halfA = s.halfA := rfl
@[simp] theorem setMeter_halfB : (s.setMeter x).halfB = s.halfB := rfl
@[simp] theorem setMeter_referee : (s.setMeter x).referee = s.referee := rfl
@[simp] theorem setMeter_profile : (s.setMeter x).profile = s.profile := rfl
@[simp] theorem setMeter_profileTarget : (s.setMeter x).profileTarget = s.profileTarget := rfl
@[simp] theorem setMeter_tref : (s.setMeter x).tref = s.tref := rfl
@[simp] theorem setMeter_stood : (s.setMeter x).stood = s.stood := rfl
@[simp] theorem setMeter_lockAt : (s.setMeter x).lockAt = s.lockAt := rfl
@[simp] theorem setMeter_trefRuns : (s.setMeter x).trefRuns = s.trefRuns := rfl
@[simp] theorem setMeter_consumers : (s.setMeter x).consumers = s.consumers := rfl
@[simp] theorem setMeter_timebases : (s.setMeter x).timebases = s.timebases := rfl
@[simp] theorem setMeter_slots : (s.setMeter x).slots = s.slots := rfl
@[simp] theorem setMeter_pads : (s.setMeter x).pads = s.pads := rfl
@[simp] theorem setMeter_sars : (s.setMeter x).sars = s.sars := rfl
@[simp] theorem setMeter_mirrors : (s.setMeter x).mirrors = s.mirrors := rfl
@[simp] theorem setMeter_fabricTime : (s.setMeter x).fabricTime = s.fabricTime := rfl
@[simp] theorem setMeter_banks : (s.setMeter x).banks = s.banks := rfl
@[simp] theorem setMeter_bankMarks : (s.setMeter x).bankMarks = s.bankMarks := rfl
@[simp] theorem setMeter_imem : (s.setMeter x).imem = s.imem := rfl
@[simp] theorem setMeter_imemMarks : (s.setMeter x).imemMarks = s.imemMarks := rfl
@[simp] theorem setMeter_vmem : (s.setMeter x).vmem = s.vmem := rfl
@[simp] theorem setMeter_vmemMarks : (s.setMeter x).vmemMarks = s.vmemMarks := rfl
@[simp] theorem setMeter_lines : (s.setMeter x).lines = s.lines := rfl
@[simp] theorem setMeter_synths : (s.setMeter x).synths = s.synths := rfl
@[simp] theorem setMeter_lineBlanked : (s.setMeter x).lineBlanked = s.lineBlanked := rfl
@[simp] theorem setMeter_freeCount : (s.setMeter x).freeCount = s.freeCount := rfl
@[simp] theorem setMeter_engines : (s.setMeter x).engines = s.engines := rfl
@[simp] theorem setMeter_progs : (s.setMeter x).progs = s.progs := rfl
@[simp] theorem setMeter_pollEntries : (s.setMeter x).pollEntries = s.pollEntries := rfl
@[simp] theorem setMeter_pipes : (s.setMeter x).pipes = s.pipes := rfl
@[simp] theorem setMeter_recogs : (s.setMeter x).recogs = s.recogs := rfl
@[simp] theorem setMeter_coders : (s.setMeter x).coders = s.coders := rfl
@[simp] theorem setMeter_codeHalves : (s.setMeter x).codeHalves = s.codeHalves := rfl
@[simp] theorem setMeter_chans : (s.setMeter x).chans = s.chans := rfl
@[simp] theorem setMeter_chanCfgs : (s.setMeter x).chanCfgs = s.chanCfgs := rfl
@[simp] theorem setMeter_bushels : (s.setMeter x).bushels = s.bushels := rfl
@[simp] theorem setMeter_metLink : (s.setMeter x).metLink = s.metLink := rfl
@[simp] theorem setMeter_archive : (s.setMeter x).archive = s.archive := rfl
@[simp] theorem setMeter_links : (s.setMeter x).links = s.links := rfl
@[simp] theorem setMeter_routes : (s.setMeter x).routes = s.routes := rfl
@[simp] theorem setMeter_offers : (s.setMeter x).offers = s.offers := rfl
@[simp] theorem setMeter_router : (s.setMeter x).router = s.router := rfl
@[simp] theorem setMeter_stewards : (s.setMeter x).stewards = s.stewards := rfl
@[simp] theorem setMeter_flash : (s.setMeter x).flash = s.flash := rfl
@[simp] theorem setMeter_flashOps : (s.setMeter x).flashOps = s.flashOps := rfl
@[simp] theorem setMeter_otp : (s.setMeter x).otp = s.otp := rfl
@[simp] theorem setMeter_envLock : (s.setMeter x).envLock = s.envLock := rfl
@[simp] theorem setMeter_vcDue : (s.setMeter x).vcDue = s.vcDue := rfl
@[simp] theorem setMeter_vcLoading : (s.setMeter x).vcLoading = s.vcLoading := rfl
@[simp] theorem setMeter_vcEntry : (s.setMeter x).vcEntry = s.vcEntry := rfl
@[simp] theorem setMeter_ports : (s.setMeter x).ports = s.ports := rfl
@[simp] theorem setMeter_twBuses : (s.setMeter x).twBuses = s.twBuses := rfl
@[simp] theorem setMeter_pmbus : (s.setMeter x).pmbus = s.pmbus := rfl
@[simp] theorem setMeter_power : (s.setMeter x).power = s.power := rfl
@[simp] theorem setMeter_gpPins : (s.setMeter x).gpPins = s.gpPins := rfl
@[simp] theorem setMeter_jtag : (s.setMeter x).jtag = s.jtag := rfl
@[simp] theorem setMeter_pending : (s.setMeter x).pending = s.pending := rfl
@[simp] theorem setMeter_meter : (s.setMeter x).meter = x := rfl

end

/-! ## setMetLink -/

section

variable (s : State) (x : MetLink)

@[simp] theorem setMetLink_regs : (s.setMetLink x).regs = s.regs := rfl
@[simp] theorem setMetLink_staging : (s.setMetLink x).staging = s.staging := rfl
@[simp] theorem setMetLink_snaps : (s.setMetLink x).snaps = s.snaps := rfl
@[simp] theorem setMetLink_seats : (s.setMetLink x).seats = s.seats := rfl
@[simp] theorem setMetLink_orphans : (s.setMetLink x).orphans = s.orphans := rfl
@[simp] theorem setMetLink_gaps : (s.setMetLink x).gaps = s.gaps := rfl
@[simp] theorem setMetLink_owners : (s.setMetLink x).owners = s.owners := rfl
@[simp] theorem setMetLink_halfA : (s.setMetLink x).halfA = s.halfA := rfl
@[simp] theorem setMetLink_halfB : (s.setMetLink x).halfB = s.halfB := rfl
@[simp] theorem setMetLink_referee : (s.setMetLink x).referee = s.referee := rfl
@[simp] theorem setMetLink_profile : (s.setMetLink x).profile = s.profile := rfl
@[simp] theorem setMetLink_profileTarget : (s.setMetLink x).profileTarget = s.profileTarget := rfl
@[simp] theorem setMetLink_tref : (s.setMetLink x).tref = s.tref := rfl
@[simp] theorem setMetLink_stood : (s.setMetLink x).stood = s.stood := rfl
@[simp] theorem setMetLink_lockAt : (s.setMetLink x).lockAt = s.lockAt := rfl
@[simp] theorem setMetLink_trefRuns : (s.setMetLink x).trefRuns = s.trefRuns := rfl
@[simp] theorem setMetLink_consumers : (s.setMetLink x).consumers = s.consumers := rfl
@[simp] theorem setMetLink_timebases : (s.setMetLink x).timebases = s.timebases := rfl
@[simp] theorem setMetLink_slots : (s.setMetLink x).slots = s.slots := rfl
@[simp] theorem setMetLink_pads : (s.setMetLink x).pads = s.pads := rfl
@[simp] theorem setMetLink_sars : (s.setMetLink x).sars = s.sars := rfl
@[simp] theorem setMetLink_mirrors : (s.setMetLink x).mirrors = s.mirrors := rfl
@[simp] theorem setMetLink_fabricTime : (s.setMetLink x).fabricTime = s.fabricTime := rfl
@[simp] theorem setMetLink_banks : (s.setMetLink x).banks = s.banks := rfl
@[simp] theorem setMetLink_bankMarks : (s.setMetLink x).bankMarks = s.bankMarks := rfl
@[simp] theorem setMetLink_imem : (s.setMetLink x).imem = s.imem := rfl
@[simp] theorem setMetLink_imemMarks : (s.setMetLink x).imemMarks = s.imemMarks := rfl
@[simp] theorem setMetLink_vmem : (s.setMetLink x).vmem = s.vmem := rfl
@[simp] theorem setMetLink_vmemMarks : (s.setMetLink x).vmemMarks = s.vmemMarks := rfl
@[simp] theorem setMetLink_lines : (s.setMetLink x).lines = s.lines := rfl
@[simp] theorem setMetLink_synths : (s.setMetLink x).synths = s.synths := rfl
@[simp] theorem setMetLink_lineBlanked : (s.setMetLink x).lineBlanked = s.lineBlanked := rfl
@[simp] theorem setMetLink_freeCount : (s.setMetLink x).freeCount = s.freeCount := rfl
@[simp] theorem setMetLink_engines : (s.setMetLink x).engines = s.engines := rfl
@[simp] theorem setMetLink_progs : (s.setMetLink x).progs = s.progs := rfl
@[simp] theorem setMetLink_pollEntries : (s.setMetLink x).pollEntries = s.pollEntries := rfl
@[simp] theorem setMetLink_pipes : (s.setMetLink x).pipes = s.pipes := rfl
@[simp] theorem setMetLink_recogs : (s.setMetLink x).recogs = s.recogs := rfl
@[simp] theorem setMetLink_coders : (s.setMetLink x).coders = s.coders := rfl
@[simp] theorem setMetLink_codeHalves : (s.setMetLink x).codeHalves = s.codeHalves := rfl
@[simp] theorem setMetLink_chans : (s.setMetLink x).chans = s.chans := rfl
@[simp] theorem setMetLink_chanCfgs : (s.setMetLink x).chanCfgs = s.chanCfgs := rfl
@[simp] theorem setMetLink_bushels : (s.setMetLink x).bushels = s.bushels := rfl
@[simp] theorem setMetLink_meter : (s.setMetLink x).meter = s.meter := rfl
@[simp] theorem setMetLink_archive : (s.setMetLink x).archive = s.archive := rfl
@[simp] theorem setMetLink_links : (s.setMetLink x).links = s.links := rfl
@[simp] theorem setMetLink_routes : (s.setMetLink x).routes = s.routes := rfl
@[simp] theorem setMetLink_offers : (s.setMetLink x).offers = s.offers := rfl
@[simp] theorem setMetLink_router : (s.setMetLink x).router = s.router := rfl
@[simp] theorem setMetLink_stewards : (s.setMetLink x).stewards = s.stewards := rfl
@[simp] theorem setMetLink_flash : (s.setMetLink x).flash = s.flash := rfl
@[simp] theorem setMetLink_flashOps : (s.setMetLink x).flashOps = s.flashOps := rfl
@[simp] theorem setMetLink_otp : (s.setMetLink x).otp = s.otp := rfl
@[simp] theorem setMetLink_envLock : (s.setMetLink x).envLock = s.envLock := rfl
@[simp] theorem setMetLink_vcDue : (s.setMetLink x).vcDue = s.vcDue := rfl
@[simp] theorem setMetLink_vcLoading : (s.setMetLink x).vcLoading = s.vcLoading := rfl
@[simp] theorem setMetLink_vcEntry : (s.setMetLink x).vcEntry = s.vcEntry := rfl
@[simp] theorem setMetLink_ports : (s.setMetLink x).ports = s.ports := rfl
@[simp] theorem setMetLink_twBuses : (s.setMetLink x).twBuses = s.twBuses := rfl
@[simp] theorem setMetLink_pmbus : (s.setMetLink x).pmbus = s.pmbus := rfl
@[simp] theorem setMetLink_power : (s.setMetLink x).power = s.power := rfl
@[simp] theorem setMetLink_gpPins : (s.setMetLink x).gpPins = s.gpPins := rfl
@[simp] theorem setMetLink_jtag : (s.setMetLink x).jtag = s.jtag := rfl
@[simp] theorem setMetLink_pending : (s.setMetLink x).pending = s.pending := rfl
@[simp] theorem setMetLink_metLink : (s.setMetLink x).metLink = x := rfl

end

/-! ## setArchive -/

section

variable (s : State) (x : Archive)

@[simp] theorem setArchive_regs : (s.setArchive x).regs = s.regs := rfl
@[simp] theorem setArchive_staging : (s.setArchive x).staging = s.staging := rfl
@[simp] theorem setArchive_snaps : (s.setArchive x).snaps = s.snaps := rfl
@[simp] theorem setArchive_seats : (s.setArchive x).seats = s.seats := rfl
@[simp] theorem setArchive_orphans : (s.setArchive x).orphans = s.orphans := rfl
@[simp] theorem setArchive_gaps : (s.setArchive x).gaps = s.gaps := rfl
@[simp] theorem setArchive_owners : (s.setArchive x).owners = s.owners := rfl
@[simp] theorem setArchive_halfA : (s.setArchive x).halfA = s.halfA := rfl
@[simp] theorem setArchive_halfB : (s.setArchive x).halfB = s.halfB := rfl
@[simp] theorem setArchive_referee : (s.setArchive x).referee = s.referee := rfl
@[simp] theorem setArchive_profile : (s.setArchive x).profile = s.profile := rfl
@[simp] theorem setArchive_profileTarget : (s.setArchive x).profileTarget = s.profileTarget := rfl
@[simp] theorem setArchive_tref : (s.setArchive x).tref = s.tref := rfl
@[simp] theorem setArchive_stood : (s.setArchive x).stood = s.stood := rfl
@[simp] theorem setArchive_lockAt : (s.setArchive x).lockAt = s.lockAt := rfl
@[simp] theorem setArchive_trefRuns : (s.setArchive x).trefRuns = s.trefRuns := rfl
@[simp] theorem setArchive_consumers : (s.setArchive x).consumers = s.consumers := rfl
@[simp] theorem setArchive_timebases : (s.setArchive x).timebases = s.timebases := rfl
@[simp] theorem setArchive_slots : (s.setArchive x).slots = s.slots := rfl
@[simp] theorem setArchive_pads : (s.setArchive x).pads = s.pads := rfl
@[simp] theorem setArchive_sars : (s.setArchive x).sars = s.sars := rfl
@[simp] theorem setArchive_mirrors : (s.setArchive x).mirrors = s.mirrors := rfl
@[simp] theorem setArchive_fabricTime : (s.setArchive x).fabricTime = s.fabricTime := rfl
@[simp] theorem setArchive_banks : (s.setArchive x).banks = s.banks := rfl
@[simp] theorem setArchive_bankMarks : (s.setArchive x).bankMarks = s.bankMarks := rfl
@[simp] theorem setArchive_imem : (s.setArchive x).imem = s.imem := rfl
@[simp] theorem setArchive_imemMarks : (s.setArchive x).imemMarks = s.imemMarks := rfl
@[simp] theorem setArchive_vmem : (s.setArchive x).vmem = s.vmem := rfl
@[simp] theorem setArchive_vmemMarks : (s.setArchive x).vmemMarks = s.vmemMarks := rfl
@[simp] theorem setArchive_lines : (s.setArchive x).lines = s.lines := rfl
@[simp] theorem setArchive_synths : (s.setArchive x).synths = s.synths := rfl
@[simp] theorem setArchive_lineBlanked : (s.setArchive x).lineBlanked = s.lineBlanked := rfl
@[simp] theorem setArchive_freeCount : (s.setArchive x).freeCount = s.freeCount := rfl
@[simp] theorem setArchive_engines : (s.setArchive x).engines = s.engines := rfl
@[simp] theorem setArchive_progs : (s.setArchive x).progs = s.progs := rfl
@[simp] theorem setArchive_pollEntries : (s.setArchive x).pollEntries = s.pollEntries := rfl
@[simp] theorem setArchive_pipes : (s.setArchive x).pipes = s.pipes := rfl
@[simp] theorem setArchive_recogs : (s.setArchive x).recogs = s.recogs := rfl
@[simp] theorem setArchive_coders : (s.setArchive x).coders = s.coders := rfl
@[simp] theorem setArchive_codeHalves : (s.setArchive x).codeHalves = s.codeHalves := rfl
@[simp] theorem setArchive_chans : (s.setArchive x).chans = s.chans := rfl
@[simp] theorem setArchive_chanCfgs : (s.setArchive x).chanCfgs = s.chanCfgs := rfl
@[simp] theorem setArchive_bushels : (s.setArchive x).bushels = s.bushels := rfl
@[simp] theorem setArchive_meter : (s.setArchive x).meter = s.meter := rfl
@[simp] theorem setArchive_metLink : (s.setArchive x).metLink = s.metLink := rfl
@[simp] theorem setArchive_links : (s.setArchive x).links = s.links := rfl
@[simp] theorem setArchive_routes : (s.setArchive x).routes = s.routes := rfl
@[simp] theorem setArchive_offers : (s.setArchive x).offers = s.offers := rfl
@[simp] theorem setArchive_router : (s.setArchive x).router = s.router := rfl
@[simp] theorem setArchive_stewards : (s.setArchive x).stewards = s.stewards := rfl
@[simp] theorem setArchive_flash : (s.setArchive x).flash = s.flash := rfl
@[simp] theorem setArchive_flashOps : (s.setArchive x).flashOps = s.flashOps := rfl
@[simp] theorem setArchive_otp : (s.setArchive x).otp = s.otp := rfl
@[simp] theorem setArchive_envLock : (s.setArchive x).envLock = s.envLock := rfl
@[simp] theorem setArchive_vcDue : (s.setArchive x).vcDue = s.vcDue := rfl
@[simp] theorem setArchive_vcLoading : (s.setArchive x).vcLoading = s.vcLoading := rfl
@[simp] theorem setArchive_vcEntry : (s.setArchive x).vcEntry = s.vcEntry := rfl
@[simp] theorem setArchive_ports : (s.setArchive x).ports = s.ports := rfl
@[simp] theorem setArchive_twBuses : (s.setArchive x).twBuses = s.twBuses := rfl
@[simp] theorem setArchive_pmbus : (s.setArchive x).pmbus = s.pmbus := rfl
@[simp] theorem setArchive_power : (s.setArchive x).power = s.power := rfl
@[simp] theorem setArchive_gpPins : (s.setArchive x).gpPins = s.gpPins := rfl
@[simp] theorem setArchive_jtag : (s.setArchive x).jtag = s.jtag := rfl
@[simp] theorem setArchive_pending : (s.setArchive x).pending = s.pending := rfl
@[simp] theorem setArchive_archive : (s.setArchive x).archive = x := rfl

end

/-! ## setLink -/

section

variable (s : State) (l : Nat) (x : Link)

@[simp] theorem setLink_regs : (s.setLink l x).regs = s.regs := rfl
@[simp] theorem setLink_staging : (s.setLink l x).staging = s.staging := rfl
@[simp] theorem setLink_snaps : (s.setLink l x).snaps = s.snaps := rfl
@[simp] theorem setLink_seats : (s.setLink l x).seats = s.seats := rfl
@[simp] theorem setLink_orphans : (s.setLink l x).orphans = s.orphans := rfl
@[simp] theorem setLink_gaps : (s.setLink l x).gaps = s.gaps := rfl
@[simp] theorem setLink_owners : (s.setLink l x).owners = s.owners := rfl
@[simp] theorem setLink_halfA : (s.setLink l x).halfA = s.halfA := rfl
@[simp] theorem setLink_halfB : (s.setLink l x).halfB = s.halfB := rfl
@[simp] theorem setLink_referee : (s.setLink l x).referee = s.referee := rfl
@[simp] theorem setLink_profile : (s.setLink l x).profile = s.profile := rfl
@[simp] theorem setLink_profileTarget : (s.setLink l x).profileTarget = s.profileTarget := rfl
@[simp] theorem setLink_tref : (s.setLink l x).tref = s.tref := rfl
@[simp] theorem setLink_stood : (s.setLink l x).stood = s.stood := rfl
@[simp] theorem setLink_lockAt : (s.setLink l x).lockAt = s.lockAt := rfl
@[simp] theorem setLink_trefRuns : (s.setLink l x).trefRuns = s.trefRuns := rfl
@[simp] theorem setLink_consumers : (s.setLink l x).consumers = s.consumers := rfl
@[simp] theorem setLink_timebases : (s.setLink l x).timebases = s.timebases := rfl
@[simp] theorem setLink_slots : (s.setLink l x).slots = s.slots := rfl
@[simp] theorem setLink_pads : (s.setLink l x).pads = s.pads := rfl
@[simp] theorem setLink_sars : (s.setLink l x).sars = s.sars := rfl
@[simp] theorem setLink_mirrors : (s.setLink l x).mirrors = s.mirrors := rfl
@[simp] theorem setLink_fabricTime : (s.setLink l x).fabricTime = s.fabricTime := rfl
@[simp] theorem setLink_banks : (s.setLink l x).banks = s.banks := rfl
@[simp] theorem setLink_bankMarks : (s.setLink l x).bankMarks = s.bankMarks := rfl
@[simp] theorem setLink_imem : (s.setLink l x).imem = s.imem := rfl
@[simp] theorem setLink_imemMarks : (s.setLink l x).imemMarks = s.imemMarks := rfl
@[simp] theorem setLink_vmem : (s.setLink l x).vmem = s.vmem := rfl
@[simp] theorem setLink_vmemMarks : (s.setLink l x).vmemMarks = s.vmemMarks := rfl
@[simp] theorem setLink_lines : (s.setLink l x).lines = s.lines := rfl
@[simp] theorem setLink_synths : (s.setLink l x).synths = s.synths := rfl
@[simp] theorem setLink_lineBlanked : (s.setLink l x).lineBlanked = s.lineBlanked := rfl
@[simp] theorem setLink_freeCount : (s.setLink l x).freeCount = s.freeCount := rfl
@[simp] theorem setLink_engines : (s.setLink l x).engines = s.engines := rfl
@[simp] theorem setLink_progs : (s.setLink l x).progs = s.progs := rfl
@[simp] theorem setLink_pollEntries : (s.setLink l x).pollEntries = s.pollEntries := rfl
@[simp] theorem setLink_pipes : (s.setLink l x).pipes = s.pipes := rfl
@[simp] theorem setLink_recogs : (s.setLink l x).recogs = s.recogs := rfl
@[simp] theorem setLink_coders : (s.setLink l x).coders = s.coders := rfl
@[simp] theorem setLink_codeHalves : (s.setLink l x).codeHalves = s.codeHalves := rfl
@[simp] theorem setLink_chans : (s.setLink l x).chans = s.chans := rfl
@[simp] theorem setLink_chanCfgs : (s.setLink l x).chanCfgs = s.chanCfgs := rfl
@[simp] theorem setLink_bushels : (s.setLink l x).bushels = s.bushels := rfl
@[simp] theorem setLink_meter : (s.setLink l x).meter = s.meter := rfl
@[simp] theorem setLink_metLink : (s.setLink l x).metLink = s.metLink := rfl
@[simp] theorem setLink_archive : (s.setLink l x).archive = s.archive := rfl
@[simp] theorem setLink_routes : (s.setLink l x).routes = s.routes := rfl
@[simp] theorem setLink_offers : (s.setLink l x).offers = s.offers := rfl
@[simp] theorem setLink_router : (s.setLink l x).router = s.router := rfl
@[simp] theorem setLink_stewards : (s.setLink l x).stewards = s.stewards := rfl
@[simp] theorem setLink_flash : (s.setLink l x).flash = s.flash := rfl
@[simp] theorem setLink_flashOps : (s.setLink l x).flashOps = s.flashOps := rfl
@[simp] theorem setLink_otp : (s.setLink l x).otp = s.otp := rfl
@[simp] theorem setLink_envLock : (s.setLink l x).envLock = s.envLock := rfl
@[simp] theorem setLink_vcDue : (s.setLink l x).vcDue = s.vcDue := rfl
@[simp] theorem setLink_vcLoading : (s.setLink l x).vcLoading = s.vcLoading := rfl
@[simp] theorem setLink_vcEntry : (s.setLink l x).vcEntry = s.vcEntry := rfl
@[simp] theorem setLink_ports : (s.setLink l x).ports = s.ports := rfl
@[simp] theorem setLink_twBuses : (s.setLink l x).twBuses = s.twBuses := rfl
@[simp] theorem setLink_pmbus : (s.setLink l x).pmbus = s.pmbus := rfl
@[simp] theorem setLink_power : (s.setLink l x).power = s.power := rfl
@[simp] theorem setLink_gpPins : (s.setLink l x).gpPins = s.gpPins := rfl
@[simp] theorem setLink_jtag : (s.setLink l x).jtag = s.jtag := rfl
@[simp] theorem setLink_pending : (s.setLink l x).pending = s.pending := rfl

end

/-! ## setRouter -/

section

variable (s : State) (x : Router)

@[simp] theorem setRouter_regs : (s.setRouter x).regs = s.regs := rfl
@[simp] theorem setRouter_staging : (s.setRouter x).staging = s.staging := rfl
@[simp] theorem setRouter_snaps : (s.setRouter x).snaps = s.snaps := rfl
@[simp] theorem setRouter_seats : (s.setRouter x).seats = s.seats := rfl
@[simp] theorem setRouter_orphans : (s.setRouter x).orphans = s.orphans := rfl
@[simp] theorem setRouter_gaps : (s.setRouter x).gaps = s.gaps := rfl
@[simp] theorem setRouter_owners : (s.setRouter x).owners = s.owners := rfl
@[simp] theorem setRouter_halfA : (s.setRouter x).halfA = s.halfA := rfl
@[simp] theorem setRouter_halfB : (s.setRouter x).halfB = s.halfB := rfl
@[simp] theorem setRouter_referee : (s.setRouter x).referee = s.referee := rfl
@[simp] theorem setRouter_profile : (s.setRouter x).profile = s.profile := rfl
@[simp] theorem setRouter_profileTarget : (s.setRouter x).profileTarget = s.profileTarget := rfl
@[simp] theorem setRouter_tref : (s.setRouter x).tref = s.tref := rfl
@[simp] theorem setRouter_stood : (s.setRouter x).stood = s.stood := rfl
@[simp] theorem setRouter_lockAt : (s.setRouter x).lockAt = s.lockAt := rfl
@[simp] theorem setRouter_trefRuns : (s.setRouter x).trefRuns = s.trefRuns := rfl
@[simp] theorem setRouter_consumers : (s.setRouter x).consumers = s.consumers := rfl
@[simp] theorem setRouter_timebases : (s.setRouter x).timebases = s.timebases := rfl
@[simp] theorem setRouter_slots : (s.setRouter x).slots = s.slots := rfl
@[simp] theorem setRouter_pads : (s.setRouter x).pads = s.pads := rfl
@[simp] theorem setRouter_sars : (s.setRouter x).sars = s.sars := rfl
@[simp] theorem setRouter_mirrors : (s.setRouter x).mirrors = s.mirrors := rfl
@[simp] theorem setRouter_fabricTime : (s.setRouter x).fabricTime = s.fabricTime := rfl
@[simp] theorem setRouter_banks : (s.setRouter x).banks = s.banks := rfl
@[simp] theorem setRouter_bankMarks : (s.setRouter x).bankMarks = s.bankMarks := rfl
@[simp] theorem setRouter_imem : (s.setRouter x).imem = s.imem := rfl
@[simp] theorem setRouter_imemMarks : (s.setRouter x).imemMarks = s.imemMarks := rfl
@[simp] theorem setRouter_vmem : (s.setRouter x).vmem = s.vmem := rfl
@[simp] theorem setRouter_vmemMarks : (s.setRouter x).vmemMarks = s.vmemMarks := rfl
@[simp] theorem setRouter_lines : (s.setRouter x).lines = s.lines := rfl
@[simp] theorem setRouter_synths : (s.setRouter x).synths = s.synths := rfl
@[simp] theorem setRouter_lineBlanked : (s.setRouter x).lineBlanked = s.lineBlanked := rfl
@[simp] theorem setRouter_freeCount : (s.setRouter x).freeCount = s.freeCount := rfl
@[simp] theorem setRouter_engines : (s.setRouter x).engines = s.engines := rfl
@[simp] theorem setRouter_progs : (s.setRouter x).progs = s.progs := rfl
@[simp] theorem setRouter_pollEntries : (s.setRouter x).pollEntries = s.pollEntries := rfl
@[simp] theorem setRouter_pipes : (s.setRouter x).pipes = s.pipes := rfl
@[simp] theorem setRouter_recogs : (s.setRouter x).recogs = s.recogs := rfl
@[simp] theorem setRouter_coders : (s.setRouter x).coders = s.coders := rfl
@[simp] theorem setRouter_codeHalves : (s.setRouter x).codeHalves = s.codeHalves := rfl
@[simp] theorem setRouter_chans : (s.setRouter x).chans = s.chans := rfl
@[simp] theorem setRouter_chanCfgs : (s.setRouter x).chanCfgs = s.chanCfgs := rfl
@[simp] theorem setRouter_bushels : (s.setRouter x).bushels = s.bushels := rfl
@[simp] theorem setRouter_meter : (s.setRouter x).meter = s.meter := rfl
@[simp] theorem setRouter_metLink : (s.setRouter x).metLink = s.metLink := rfl
@[simp] theorem setRouter_archive : (s.setRouter x).archive = s.archive := rfl
@[simp] theorem setRouter_links : (s.setRouter x).links = s.links := rfl
@[simp] theorem setRouter_routes : (s.setRouter x).routes = s.routes := rfl
@[simp] theorem setRouter_offers : (s.setRouter x).offers = s.offers := rfl
@[simp] theorem setRouter_stewards : (s.setRouter x).stewards = s.stewards := rfl
@[simp] theorem setRouter_flash : (s.setRouter x).flash = s.flash := rfl
@[simp] theorem setRouter_flashOps : (s.setRouter x).flashOps = s.flashOps := rfl
@[simp] theorem setRouter_otp : (s.setRouter x).otp = s.otp := rfl
@[simp] theorem setRouter_envLock : (s.setRouter x).envLock = s.envLock := rfl
@[simp] theorem setRouter_vcDue : (s.setRouter x).vcDue = s.vcDue := rfl
@[simp] theorem setRouter_vcLoading : (s.setRouter x).vcLoading = s.vcLoading := rfl
@[simp] theorem setRouter_vcEntry : (s.setRouter x).vcEntry = s.vcEntry := rfl
@[simp] theorem setRouter_ports : (s.setRouter x).ports = s.ports := rfl
@[simp] theorem setRouter_twBuses : (s.setRouter x).twBuses = s.twBuses := rfl
@[simp] theorem setRouter_pmbus : (s.setRouter x).pmbus = s.pmbus := rfl
@[simp] theorem setRouter_power : (s.setRouter x).power = s.power := rfl
@[simp] theorem setRouter_gpPins : (s.setRouter x).gpPins = s.gpPins := rfl
@[simp] theorem setRouter_jtag : (s.setRouter x).jtag = s.jtag := rfl
@[simp] theorem setRouter_pending : (s.setRouter x).pending = s.pending := rfl
@[simp] theorem setRouter_router : (s.setRouter x).router = x := rfl

end

/-! ## setPort -/

section

variable (s : State) (p : Nat) (x : Port)

@[simp] theorem setPort_regs : (s.setPort p x).regs = s.regs := rfl
@[simp] theorem setPort_staging : (s.setPort p x).staging = s.staging := rfl
@[simp] theorem setPort_snaps : (s.setPort p x).snaps = s.snaps := rfl
@[simp] theorem setPort_seats : (s.setPort p x).seats = s.seats := rfl
@[simp] theorem setPort_orphans : (s.setPort p x).orphans = s.orphans := rfl
@[simp] theorem setPort_gaps : (s.setPort p x).gaps = s.gaps := rfl
@[simp] theorem setPort_owners : (s.setPort p x).owners = s.owners := rfl
@[simp] theorem setPort_halfA : (s.setPort p x).halfA = s.halfA := rfl
@[simp] theorem setPort_halfB : (s.setPort p x).halfB = s.halfB := rfl
@[simp] theorem setPort_referee : (s.setPort p x).referee = s.referee := rfl
@[simp] theorem setPort_profile : (s.setPort p x).profile = s.profile := rfl
@[simp] theorem setPort_profileTarget : (s.setPort p x).profileTarget = s.profileTarget := rfl
@[simp] theorem setPort_tref : (s.setPort p x).tref = s.tref := rfl
@[simp] theorem setPort_stood : (s.setPort p x).stood = s.stood := rfl
@[simp] theorem setPort_lockAt : (s.setPort p x).lockAt = s.lockAt := rfl
@[simp] theorem setPort_trefRuns : (s.setPort p x).trefRuns = s.trefRuns := rfl
@[simp] theorem setPort_consumers : (s.setPort p x).consumers = s.consumers := rfl
@[simp] theorem setPort_timebases : (s.setPort p x).timebases = s.timebases := rfl
@[simp] theorem setPort_slots : (s.setPort p x).slots = s.slots := rfl
@[simp] theorem setPort_pads : (s.setPort p x).pads = s.pads := rfl
@[simp] theorem setPort_sars : (s.setPort p x).sars = s.sars := rfl
@[simp] theorem setPort_mirrors : (s.setPort p x).mirrors = s.mirrors := rfl
@[simp] theorem setPort_fabricTime : (s.setPort p x).fabricTime = s.fabricTime := rfl
@[simp] theorem setPort_banks : (s.setPort p x).banks = s.banks := rfl
@[simp] theorem setPort_bankMarks : (s.setPort p x).bankMarks = s.bankMarks := rfl
@[simp] theorem setPort_imem : (s.setPort p x).imem = s.imem := rfl
@[simp] theorem setPort_imemMarks : (s.setPort p x).imemMarks = s.imemMarks := rfl
@[simp] theorem setPort_vmem : (s.setPort p x).vmem = s.vmem := rfl
@[simp] theorem setPort_vmemMarks : (s.setPort p x).vmemMarks = s.vmemMarks := rfl
@[simp] theorem setPort_lines : (s.setPort p x).lines = s.lines := rfl
@[simp] theorem setPort_synths : (s.setPort p x).synths = s.synths := rfl
@[simp] theorem setPort_lineBlanked : (s.setPort p x).lineBlanked = s.lineBlanked := rfl
@[simp] theorem setPort_freeCount : (s.setPort p x).freeCount = s.freeCount := rfl
@[simp] theorem setPort_engines : (s.setPort p x).engines = s.engines := rfl
@[simp] theorem setPort_progs : (s.setPort p x).progs = s.progs := rfl
@[simp] theorem setPort_pollEntries : (s.setPort p x).pollEntries = s.pollEntries := rfl
@[simp] theorem setPort_pipes : (s.setPort p x).pipes = s.pipes := rfl
@[simp] theorem setPort_recogs : (s.setPort p x).recogs = s.recogs := rfl
@[simp] theorem setPort_coders : (s.setPort p x).coders = s.coders := rfl
@[simp] theorem setPort_codeHalves : (s.setPort p x).codeHalves = s.codeHalves := rfl
@[simp] theorem setPort_chans : (s.setPort p x).chans = s.chans := rfl
@[simp] theorem setPort_chanCfgs : (s.setPort p x).chanCfgs = s.chanCfgs := rfl
@[simp] theorem setPort_bushels : (s.setPort p x).bushels = s.bushels := rfl
@[simp] theorem setPort_meter : (s.setPort p x).meter = s.meter := rfl
@[simp] theorem setPort_metLink : (s.setPort p x).metLink = s.metLink := rfl
@[simp] theorem setPort_archive : (s.setPort p x).archive = s.archive := rfl
@[simp] theorem setPort_links : (s.setPort p x).links = s.links := rfl
@[simp] theorem setPort_routes : (s.setPort p x).routes = s.routes := rfl
@[simp] theorem setPort_offers : (s.setPort p x).offers = s.offers := rfl
@[simp] theorem setPort_router : (s.setPort p x).router = s.router := rfl
@[simp] theorem setPort_stewards : (s.setPort p x).stewards = s.stewards := rfl
@[simp] theorem setPort_flash : (s.setPort p x).flash = s.flash := rfl
@[simp] theorem setPort_flashOps : (s.setPort p x).flashOps = s.flashOps := rfl
@[simp] theorem setPort_otp : (s.setPort p x).otp = s.otp := rfl
@[simp] theorem setPort_envLock : (s.setPort p x).envLock = s.envLock := rfl
@[simp] theorem setPort_vcDue : (s.setPort p x).vcDue = s.vcDue := rfl
@[simp] theorem setPort_vcLoading : (s.setPort p x).vcLoading = s.vcLoading := rfl
@[simp] theorem setPort_vcEntry : (s.setPort p x).vcEntry = s.vcEntry := rfl
@[simp] theorem setPort_twBuses : (s.setPort p x).twBuses = s.twBuses := rfl
@[simp] theorem setPort_pmbus : (s.setPort p x).pmbus = s.pmbus := rfl
@[simp] theorem setPort_power : (s.setPort p x).power = s.power := rfl
@[simp] theorem setPort_gpPins : (s.setPort p x).gpPins = s.gpPins := rfl
@[simp] theorem setPort_jtag : (s.setPort p x).jtag = s.jtag := rfl
@[simp] theorem setPort_pending : (s.setPort p x).pending = s.pending := rfl

end

/-! ## setFlashQueue -/

section

variable (s : State) (f : Nat) (x : List FlashOp)

@[simp] theorem setFlashQueue_regs : (s.setFlashQueue f x).regs = s.regs := rfl
@[simp] theorem setFlashQueue_staging : (s.setFlashQueue f x).staging = s.staging := rfl
@[simp] theorem setFlashQueue_snaps : (s.setFlashQueue f x).snaps = s.snaps := rfl
@[simp] theorem setFlashQueue_seats : (s.setFlashQueue f x).seats = s.seats := rfl
@[simp] theorem setFlashQueue_orphans : (s.setFlashQueue f x).orphans = s.orphans := rfl
@[simp] theorem setFlashQueue_gaps : (s.setFlashQueue f x).gaps = s.gaps := rfl
@[simp] theorem setFlashQueue_owners : (s.setFlashQueue f x).owners = s.owners := rfl
@[simp] theorem setFlashQueue_halfA : (s.setFlashQueue f x).halfA = s.halfA := rfl
@[simp] theorem setFlashQueue_halfB : (s.setFlashQueue f x).halfB = s.halfB := rfl
@[simp] theorem setFlashQueue_referee : (s.setFlashQueue f x).referee = s.referee := rfl
@[simp] theorem setFlashQueue_profile : (s.setFlashQueue f x).profile = s.profile := rfl
@[simp] theorem setFlashQueue_profileTarget : (s.setFlashQueue f x).profileTarget = s.profileTarget := rfl
@[simp] theorem setFlashQueue_tref : (s.setFlashQueue f x).tref = s.tref := rfl
@[simp] theorem setFlashQueue_stood : (s.setFlashQueue f x).stood = s.stood := rfl
@[simp] theorem setFlashQueue_lockAt : (s.setFlashQueue f x).lockAt = s.lockAt := rfl
@[simp] theorem setFlashQueue_trefRuns : (s.setFlashQueue f x).trefRuns = s.trefRuns := rfl
@[simp] theorem setFlashQueue_consumers : (s.setFlashQueue f x).consumers = s.consumers := rfl
@[simp] theorem setFlashQueue_timebases : (s.setFlashQueue f x).timebases = s.timebases := rfl
@[simp] theorem setFlashQueue_slots : (s.setFlashQueue f x).slots = s.slots := rfl
@[simp] theorem setFlashQueue_pads : (s.setFlashQueue f x).pads = s.pads := rfl
@[simp] theorem setFlashQueue_sars : (s.setFlashQueue f x).sars = s.sars := rfl
@[simp] theorem setFlashQueue_mirrors : (s.setFlashQueue f x).mirrors = s.mirrors := rfl
@[simp] theorem setFlashQueue_fabricTime : (s.setFlashQueue f x).fabricTime = s.fabricTime := rfl
@[simp] theorem setFlashQueue_banks : (s.setFlashQueue f x).banks = s.banks := rfl
@[simp] theorem setFlashQueue_bankMarks : (s.setFlashQueue f x).bankMarks = s.bankMarks := rfl
@[simp] theorem setFlashQueue_imem : (s.setFlashQueue f x).imem = s.imem := rfl
@[simp] theorem setFlashQueue_imemMarks : (s.setFlashQueue f x).imemMarks = s.imemMarks := rfl
@[simp] theorem setFlashQueue_vmem : (s.setFlashQueue f x).vmem = s.vmem := rfl
@[simp] theorem setFlashQueue_vmemMarks : (s.setFlashQueue f x).vmemMarks = s.vmemMarks := rfl
@[simp] theorem setFlashQueue_lines : (s.setFlashQueue f x).lines = s.lines := rfl
@[simp] theorem setFlashQueue_synths : (s.setFlashQueue f x).synths = s.synths := rfl
@[simp] theorem setFlashQueue_lineBlanked : (s.setFlashQueue f x).lineBlanked = s.lineBlanked := rfl
@[simp] theorem setFlashQueue_freeCount : (s.setFlashQueue f x).freeCount = s.freeCount := rfl
@[simp] theorem setFlashQueue_engines : (s.setFlashQueue f x).engines = s.engines := rfl
@[simp] theorem setFlashQueue_progs : (s.setFlashQueue f x).progs = s.progs := rfl
@[simp] theorem setFlashQueue_pollEntries : (s.setFlashQueue f x).pollEntries = s.pollEntries := rfl
@[simp] theorem setFlashQueue_pipes : (s.setFlashQueue f x).pipes = s.pipes := rfl
@[simp] theorem setFlashQueue_recogs : (s.setFlashQueue f x).recogs = s.recogs := rfl
@[simp] theorem setFlashQueue_coders : (s.setFlashQueue f x).coders = s.coders := rfl
@[simp] theorem setFlashQueue_codeHalves : (s.setFlashQueue f x).codeHalves = s.codeHalves := rfl
@[simp] theorem setFlashQueue_chans : (s.setFlashQueue f x).chans = s.chans := rfl
@[simp] theorem setFlashQueue_chanCfgs : (s.setFlashQueue f x).chanCfgs = s.chanCfgs := rfl
@[simp] theorem setFlashQueue_bushels : (s.setFlashQueue f x).bushels = s.bushels := rfl
@[simp] theorem setFlashQueue_meter : (s.setFlashQueue f x).meter = s.meter := rfl
@[simp] theorem setFlashQueue_metLink : (s.setFlashQueue f x).metLink = s.metLink := rfl
@[simp] theorem setFlashQueue_archive : (s.setFlashQueue f x).archive = s.archive := rfl
@[simp] theorem setFlashQueue_links : (s.setFlashQueue f x).links = s.links := rfl
@[simp] theorem setFlashQueue_routes : (s.setFlashQueue f x).routes = s.routes := rfl
@[simp] theorem setFlashQueue_offers : (s.setFlashQueue f x).offers = s.offers := rfl
@[simp] theorem setFlashQueue_router : (s.setFlashQueue f x).router = s.router := rfl
@[simp] theorem setFlashQueue_stewards : (s.setFlashQueue f x).stewards = s.stewards := rfl
@[simp] theorem setFlashQueue_flash : (s.setFlashQueue f x).flash = s.flash := rfl
@[simp] theorem setFlashQueue_otp : (s.setFlashQueue f x).otp = s.otp := rfl
@[simp] theorem setFlashQueue_envLock : (s.setFlashQueue f x).envLock = s.envLock := rfl
@[simp] theorem setFlashQueue_vcDue : (s.setFlashQueue f x).vcDue = s.vcDue := rfl
@[simp] theorem setFlashQueue_vcLoading : (s.setFlashQueue f x).vcLoading = s.vcLoading := rfl
@[simp] theorem setFlashQueue_vcEntry : (s.setFlashQueue f x).vcEntry = s.vcEntry := rfl
@[simp] theorem setFlashQueue_ports : (s.setFlashQueue f x).ports = s.ports := rfl
@[simp] theorem setFlashQueue_twBuses : (s.setFlashQueue f x).twBuses = s.twBuses := rfl
@[simp] theorem setFlashQueue_pmbus : (s.setFlashQueue f x).pmbus = s.pmbus := rfl
@[simp] theorem setFlashQueue_power : (s.setFlashQueue f x).power = s.power := rfl
@[simp] theorem setFlashQueue_gpPins : (s.setFlashQueue f x).gpPins = s.gpPins := rfl
@[simp] theorem setFlashQueue_jtag : (s.setFlashQueue f x).jtag = s.jtag := rfl
@[simp] theorem setFlashQueue_pending : (s.setFlashQueue f x).pending = s.pending := rfl

end

/-! ## setTw -/

section

variable (s : State) (b : Nat) (x : TwBus)

@[simp] theorem setTw_regs : (s.setTw b x).regs = s.regs := rfl
@[simp] theorem setTw_staging : (s.setTw b x).staging = s.staging := rfl
@[simp] theorem setTw_snaps : (s.setTw b x).snaps = s.snaps := rfl
@[simp] theorem setTw_seats : (s.setTw b x).seats = s.seats := rfl
@[simp] theorem setTw_orphans : (s.setTw b x).orphans = s.orphans := rfl
@[simp] theorem setTw_gaps : (s.setTw b x).gaps = s.gaps := rfl
@[simp] theorem setTw_owners : (s.setTw b x).owners = s.owners := rfl
@[simp] theorem setTw_halfA : (s.setTw b x).halfA = s.halfA := rfl
@[simp] theorem setTw_halfB : (s.setTw b x).halfB = s.halfB := rfl
@[simp] theorem setTw_referee : (s.setTw b x).referee = s.referee := rfl
@[simp] theorem setTw_profile : (s.setTw b x).profile = s.profile := rfl
@[simp] theorem setTw_profileTarget : (s.setTw b x).profileTarget = s.profileTarget := rfl
@[simp] theorem setTw_tref : (s.setTw b x).tref = s.tref := rfl
@[simp] theorem setTw_stood : (s.setTw b x).stood = s.stood := rfl
@[simp] theorem setTw_lockAt : (s.setTw b x).lockAt = s.lockAt := rfl
@[simp] theorem setTw_trefRuns : (s.setTw b x).trefRuns = s.trefRuns := rfl
@[simp] theorem setTw_consumers : (s.setTw b x).consumers = s.consumers := rfl
@[simp] theorem setTw_timebases : (s.setTw b x).timebases = s.timebases := rfl
@[simp] theorem setTw_slots : (s.setTw b x).slots = s.slots := rfl
@[simp] theorem setTw_pads : (s.setTw b x).pads = s.pads := rfl
@[simp] theorem setTw_sars : (s.setTw b x).sars = s.sars := rfl
@[simp] theorem setTw_mirrors : (s.setTw b x).mirrors = s.mirrors := rfl
@[simp] theorem setTw_fabricTime : (s.setTw b x).fabricTime = s.fabricTime := rfl
@[simp] theorem setTw_banks : (s.setTw b x).banks = s.banks := rfl
@[simp] theorem setTw_bankMarks : (s.setTw b x).bankMarks = s.bankMarks := rfl
@[simp] theorem setTw_imem : (s.setTw b x).imem = s.imem := rfl
@[simp] theorem setTw_imemMarks : (s.setTw b x).imemMarks = s.imemMarks := rfl
@[simp] theorem setTw_vmem : (s.setTw b x).vmem = s.vmem := rfl
@[simp] theorem setTw_vmemMarks : (s.setTw b x).vmemMarks = s.vmemMarks := rfl
@[simp] theorem setTw_lines : (s.setTw b x).lines = s.lines := rfl
@[simp] theorem setTw_synths : (s.setTw b x).synths = s.synths := rfl
@[simp] theorem setTw_lineBlanked : (s.setTw b x).lineBlanked = s.lineBlanked := rfl
@[simp] theorem setTw_freeCount : (s.setTw b x).freeCount = s.freeCount := rfl
@[simp] theorem setTw_engines : (s.setTw b x).engines = s.engines := rfl
@[simp] theorem setTw_progs : (s.setTw b x).progs = s.progs := rfl
@[simp] theorem setTw_pollEntries : (s.setTw b x).pollEntries = s.pollEntries := rfl
@[simp] theorem setTw_pipes : (s.setTw b x).pipes = s.pipes := rfl
@[simp] theorem setTw_recogs : (s.setTw b x).recogs = s.recogs := rfl
@[simp] theorem setTw_coders : (s.setTw b x).coders = s.coders := rfl
@[simp] theorem setTw_codeHalves : (s.setTw b x).codeHalves = s.codeHalves := rfl
@[simp] theorem setTw_chans : (s.setTw b x).chans = s.chans := rfl
@[simp] theorem setTw_chanCfgs : (s.setTw b x).chanCfgs = s.chanCfgs := rfl
@[simp] theorem setTw_bushels : (s.setTw b x).bushels = s.bushels := rfl
@[simp] theorem setTw_meter : (s.setTw b x).meter = s.meter := rfl
@[simp] theorem setTw_metLink : (s.setTw b x).metLink = s.metLink := rfl
@[simp] theorem setTw_archive : (s.setTw b x).archive = s.archive := rfl
@[simp] theorem setTw_links : (s.setTw b x).links = s.links := rfl
@[simp] theorem setTw_routes : (s.setTw b x).routes = s.routes := rfl
@[simp] theorem setTw_offers : (s.setTw b x).offers = s.offers := rfl
@[simp] theorem setTw_router : (s.setTw b x).router = s.router := rfl
@[simp] theorem setTw_stewards : (s.setTw b x).stewards = s.stewards := rfl
@[simp] theorem setTw_flash : (s.setTw b x).flash = s.flash := rfl
@[simp] theorem setTw_flashOps : (s.setTw b x).flashOps = s.flashOps := rfl
@[simp] theorem setTw_otp : (s.setTw b x).otp = s.otp := rfl
@[simp] theorem setTw_envLock : (s.setTw b x).envLock = s.envLock := rfl
@[simp] theorem setTw_vcDue : (s.setTw b x).vcDue = s.vcDue := rfl
@[simp] theorem setTw_vcLoading : (s.setTw b x).vcLoading = s.vcLoading := rfl
@[simp] theorem setTw_vcEntry : (s.setTw b x).vcEntry = s.vcEntry := rfl
@[simp] theorem setTw_ports : (s.setTw b x).ports = s.ports := rfl
@[simp] theorem setTw_pmbus : (s.setTw b x).pmbus = s.pmbus := rfl
@[simp] theorem setTw_power : (s.setTw b x).power = s.power := rfl
@[simp] theorem setTw_gpPins : (s.setTw b x).gpPins = s.gpPins := rfl
@[simp] theorem setTw_jtag : (s.setTw b x).jtag = s.jtag := rfl
@[simp] theorem setTw_pending : (s.setTw b x).pending = s.pending := rfl

end

/-! ## setPower -/

section

variable (s : State) (x : Power)

@[simp] theorem setPower_regs : (s.setPower x).regs = s.regs := rfl
@[simp] theorem setPower_staging : (s.setPower x).staging = s.staging := rfl
@[simp] theorem setPower_snaps : (s.setPower x).snaps = s.snaps := rfl
@[simp] theorem setPower_seats : (s.setPower x).seats = s.seats := rfl
@[simp] theorem setPower_orphans : (s.setPower x).orphans = s.orphans := rfl
@[simp] theorem setPower_gaps : (s.setPower x).gaps = s.gaps := rfl
@[simp] theorem setPower_owners : (s.setPower x).owners = s.owners := rfl
@[simp] theorem setPower_halfA : (s.setPower x).halfA = s.halfA := rfl
@[simp] theorem setPower_halfB : (s.setPower x).halfB = s.halfB := rfl
@[simp] theorem setPower_referee : (s.setPower x).referee = s.referee := rfl
@[simp] theorem setPower_profile : (s.setPower x).profile = s.profile := rfl
@[simp] theorem setPower_profileTarget : (s.setPower x).profileTarget = s.profileTarget := rfl
@[simp] theorem setPower_tref : (s.setPower x).tref = s.tref := rfl
@[simp] theorem setPower_stood : (s.setPower x).stood = s.stood := rfl
@[simp] theorem setPower_lockAt : (s.setPower x).lockAt = s.lockAt := rfl
@[simp] theorem setPower_trefRuns : (s.setPower x).trefRuns = s.trefRuns := rfl
@[simp] theorem setPower_consumers : (s.setPower x).consumers = s.consumers := rfl
@[simp] theorem setPower_timebases : (s.setPower x).timebases = s.timebases := rfl
@[simp] theorem setPower_slots : (s.setPower x).slots = s.slots := rfl
@[simp] theorem setPower_pads : (s.setPower x).pads = s.pads := rfl
@[simp] theorem setPower_sars : (s.setPower x).sars = s.sars := rfl
@[simp] theorem setPower_mirrors : (s.setPower x).mirrors = s.mirrors := rfl
@[simp] theorem setPower_fabricTime : (s.setPower x).fabricTime = s.fabricTime := rfl
@[simp] theorem setPower_banks : (s.setPower x).banks = s.banks := rfl
@[simp] theorem setPower_bankMarks : (s.setPower x).bankMarks = s.bankMarks := rfl
@[simp] theorem setPower_imem : (s.setPower x).imem = s.imem := rfl
@[simp] theorem setPower_imemMarks : (s.setPower x).imemMarks = s.imemMarks := rfl
@[simp] theorem setPower_vmem : (s.setPower x).vmem = s.vmem := rfl
@[simp] theorem setPower_vmemMarks : (s.setPower x).vmemMarks = s.vmemMarks := rfl
@[simp] theorem setPower_lines : (s.setPower x).lines = s.lines := rfl
@[simp] theorem setPower_synths : (s.setPower x).synths = s.synths := rfl
@[simp] theorem setPower_lineBlanked : (s.setPower x).lineBlanked = s.lineBlanked := rfl
@[simp] theorem setPower_freeCount : (s.setPower x).freeCount = s.freeCount := rfl
@[simp] theorem setPower_engines : (s.setPower x).engines = s.engines := rfl
@[simp] theorem setPower_progs : (s.setPower x).progs = s.progs := rfl
@[simp] theorem setPower_pollEntries : (s.setPower x).pollEntries = s.pollEntries := rfl
@[simp] theorem setPower_pipes : (s.setPower x).pipes = s.pipes := rfl
@[simp] theorem setPower_recogs : (s.setPower x).recogs = s.recogs := rfl
@[simp] theorem setPower_coders : (s.setPower x).coders = s.coders := rfl
@[simp] theorem setPower_codeHalves : (s.setPower x).codeHalves = s.codeHalves := rfl
@[simp] theorem setPower_chans : (s.setPower x).chans = s.chans := rfl
@[simp] theorem setPower_chanCfgs : (s.setPower x).chanCfgs = s.chanCfgs := rfl
@[simp] theorem setPower_bushels : (s.setPower x).bushels = s.bushels := rfl
@[simp] theorem setPower_meter : (s.setPower x).meter = s.meter := rfl
@[simp] theorem setPower_metLink : (s.setPower x).metLink = s.metLink := rfl
@[simp] theorem setPower_archive : (s.setPower x).archive = s.archive := rfl
@[simp] theorem setPower_links : (s.setPower x).links = s.links := rfl
@[simp] theorem setPower_routes : (s.setPower x).routes = s.routes := rfl
@[simp] theorem setPower_offers : (s.setPower x).offers = s.offers := rfl
@[simp] theorem setPower_router : (s.setPower x).router = s.router := rfl
@[simp] theorem setPower_stewards : (s.setPower x).stewards = s.stewards := rfl
@[simp] theorem setPower_flash : (s.setPower x).flash = s.flash := rfl
@[simp] theorem setPower_flashOps : (s.setPower x).flashOps = s.flashOps := rfl
@[simp] theorem setPower_otp : (s.setPower x).otp = s.otp := rfl
@[simp] theorem setPower_envLock : (s.setPower x).envLock = s.envLock := rfl
@[simp] theorem setPower_vcDue : (s.setPower x).vcDue = s.vcDue := rfl
@[simp] theorem setPower_vcLoading : (s.setPower x).vcLoading = s.vcLoading := rfl
@[simp] theorem setPower_vcEntry : (s.setPower x).vcEntry = s.vcEntry := rfl
@[simp] theorem setPower_ports : (s.setPower x).ports = s.ports := rfl
@[simp] theorem setPower_twBuses : (s.setPower x).twBuses = s.twBuses := rfl
@[simp] theorem setPower_pmbus : (s.setPower x).pmbus = s.pmbus := rfl
@[simp] theorem setPower_gpPins : (s.setPower x).gpPins = s.gpPins := rfl
@[simp] theorem setPower_jtag : (s.setPower x).jtag = s.jtag := rfl
@[simp] theorem setPower_pending : (s.setPower x).pending = s.pending := rfl
@[simp] theorem setPower_power : (s.setPower x).power = x := rfl

end

/-! ## Halves -/

@[simp] theorem setHalf_regs (s : State) (h : Half) (x : HalfState) : (s.setHalf h x).regs = s.regs := by
  cases h <;> rfl
@[simp] theorem setHalf_staging (s : State) (h : Half) (x : HalfState) : (s.setHalf h x).staging = s.staging := by
  cases h <;> rfl
@[simp] theorem setHalf_snaps (s : State) (h : Half) (x : HalfState) : (s.setHalf h x).snaps = s.snaps := by
  cases h <;> rfl
@[simp] theorem setHalf_seats (s : State) (h : Half) (x : HalfState) : (s.setHalf h x).seats = s.seats := by
  cases h <;> rfl
@[simp] theorem setHalf_orphans (s : State) (h : Half) (x : HalfState) : (s.setHalf h x).orphans = s.orphans := by
  cases h <;> rfl
@[simp] theorem setHalf_gaps (s : State) (h : Half) (x : HalfState) : (s.setHalf h x).gaps = s.gaps := by
  cases h <;> rfl
@[simp] theorem setHalf_owners (s : State) (h : Half) (x : HalfState) : (s.setHalf h x).owners = s.owners := by
  cases h <;> rfl
@[simp] theorem setHalf_referee (s : State) (h : Half) (x : HalfState) : (s.setHalf h x).referee = s.referee := by
  cases h <;> rfl
@[simp] theorem setHalf_profile (s : State) (h : Half) (x : HalfState) : (s.setHalf h x).profile = s.profile := by
  cases h <;> rfl
@[simp] theorem setHalf_profileTarget (s : State) (h : Half) (x : HalfState) : (s.setHalf h x).profileTarget = s.profileTarget := by
  cases h <;> rfl
@[simp] theorem setHalf_tref (s : State) (h : Half) (x : HalfState) : (s.setHalf h x).tref = s.tref := by
  cases h <;> rfl
@[simp] theorem setHalf_stood (s : State) (h : Half) (x : HalfState) : (s.setHalf h x).stood = s.stood := by
  cases h <;> rfl
@[simp] theorem setHalf_lockAt (s : State) (h : Half) (x : HalfState) : (s.setHalf h x).lockAt = s.lockAt := by
  cases h <;> rfl
@[simp] theorem setHalf_trefRuns (s : State) (h : Half) (x : HalfState) : (s.setHalf h x).trefRuns = s.trefRuns := by
  cases h <;> rfl
@[simp] theorem setHalf_consumers (s : State) (h : Half) (x : HalfState) : (s.setHalf h x).consumers = s.consumers := by
  cases h <;> rfl
@[simp] theorem setHalf_timebases (s : State) (h : Half) (x : HalfState) : (s.setHalf h x).timebases = s.timebases := by
  cases h <;> rfl
@[simp] theorem setHalf_slots (s : State) (h : Half) (x : HalfState) : (s.setHalf h x).slots = s.slots := by
  cases h <;> rfl
@[simp] theorem setHalf_pads (s : State) (h : Half) (x : HalfState) : (s.setHalf h x).pads = s.pads := by
  cases h <;> rfl
@[simp] theorem setHalf_sars (s : State) (h : Half) (x : HalfState) : (s.setHalf h x).sars = s.sars := by
  cases h <;> rfl
@[simp] theorem setHalf_mirrors (s : State) (h : Half) (x : HalfState) : (s.setHalf h x).mirrors = s.mirrors := by
  cases h <;> rfl
@[simp] theorem setHalf_fabricTime (s : State) (h : Half) (x : HalfState) : (s.setHalf h x).fabricTime = s.fabricTime := by
  cases h <;> rfl
@[simp] theorem setHalf_banks (s : State) (h : Half) (x : HalfState) : (s.setHalf h x).banks = s.banks := by
  cases h <;> rfl
@[simp] theorem setHalf_bankMarks (s : State) (h : Half) (x : HalfState) : (s.setHalf h x).bankMarks = s.bankMarks := by
  cases h <;> rfl
@[simp] theorem setHalf_imem (s : State) (h : Half) (x : HalfState) : (s.setHalf h x).imem = s.imem := by
  cases h <;> rfl
@[simp] theorem setHalf_imemMarks (s : State) (h : Half) (x : HalfState) : (s.setHalf h x).imemMarks = s.imemMarks := by
  cases h <;> rfl
@[simp] theorem setHalf_vmem (s : State) (h : Half) (x : HalfState) : (s.setHalf h x).vmem = s.vmem := by
  cases h <;> rfl
@[simp] theorem setHalf_vmemMarks (s : State) (h : Half) (x : HalfState) : (s.setHalf h x).vmemMarks = s.vmemMarks := by
  cases h <;> rfl
@[simp] theorem setHalf_lines (s : State) (h : Half) (x : HalfState) : (s.setHalf h x).lines = s.lines := by
  cases h <;> rfl
@[simp] theorem setHalf_synths (s : State) (h : Half) (x : HalfState) : (s.setHalf h x).synths = s.synths := by
  cases h <;> rfl
@[simp] theorem setHalf_lineBlanked (s : State) (h : Half) (x : HalfState) : (s.setHalf h x).lineBlanked = s.lineBlanked := by
  cases h <;> rfl
@[simp] theorem setHalf_freeCount (s : State) (h : Half) (x : HalfState) : (s.setHalf h x).freeCount = s.freeCount := by
  cases h <;> rfl
@[simp] theorem setHalf_engines (s : State) (h : Half) (x : HalfState) : (s.setHalf h x).engines = s.engines := by
  cases h <;> rfl
@[simp] theorem setHalf_progs (s : State) (h : Half) (x : HalfState) : (s.setHalf h x).progs = s.progs := by
  cases h <;> rfl
@[simp] theorem setHalf_pollEntries (s : State) (h : Half) (x : HalfState) : (s.setHalf h x).pollEntries = s.pollEntries := by
  cases h <;> rfl
@[simp] theorem setHalf_pipes (s : State) (h : Half) (x : HalfState) : (s.setHalf h x).pipes = s.pipes := by
  cases h <;> rfl
@[simp] theorem setHalf_recogs (s : State) (h : Half) (x : HalfState) : (s.setHalf h x).recogs = s.recogs := by
  cases h <;> rfl
@[simp] theorem setHalf_coders (s : State) (h : Half) (x : HalfState) : (s.setHalf h x).coders = s.coders := by
  cases h <;> rfl
@[simp] theorem setHalf_codeHalves (s : State) (h : Half) (x : HalfState) : (s.setHalf h x).codeHalves = s.codeHalves := by
  cases h <;> rfl
@[simp] theorem setHalf_chans (s : State) (h : Half) (x : HalfState) : (s.setHalf h x).chans = s.chans := by
  cases h <;> rfl
@[simp] theorem setHalf_chanCfgs (s : State) (h : Half) (x : HalfState) : (s.setHalf h x).chanCfgs = s.chanCfgs := by
  cases h <;> rfl
@[simp] theorem setHalf_bushels (s : State) (h : Half) (x : HalfState) : (s.setHalf h x).bushels = s.bushels := by
  cases h <;> rfl
@[simp] theorem setHalf_meter (s : State) (h : Half) (x : HalfState) : (s.setHalf h x).meter = s.meter := by
  cases h <;> rfl
@[simp] theorem setHalf_metLink (s : State) (h : Half) (x : HalfState) : (s.setHalf h x).metLink = s.metLink := by
  cases h <;> rfl
@[simp] theorem setHalf_archive (s : State) (h : Half) (x : HalfState) : (s.setHalf h x).archive = s.archive := by
  cases h <;> rfl
@[simp] theorem setHalf_links (s : State) (h : Half) (x : HalfState) : (s.setHalf h x).links = s.links := by
  cases h <;> rfl
@[simp] theorem setHalf_routes (s : State) (h : Half) (x : HalfState) : (s.setHalf h x).routes = s.routes := by
  cases h <;> rfl
@[simp] theorem setHalf_offers (s : State) (h : Half) (x : HalfState) : (s.setHalf h x).offers = s.offers := by
  cases h <;> rfl
@[simp] theorem setHalf_router (s : State) (h : Half) (x : HalfState) : (s.setHalf h x).router = s.router := by
  cases h <;> rfl
@[simp] theorem setHalf_stewards (s : State) (h : Half) (x : HalfState) : (s.setHalf h x).stewards = s.stewards := by
  cases h <;> rfl
@[simp] theorem setHalf_flash (s : State) (h : Half) (x : HalfState) : (s.setHalf h x).flash = s.flash := by
  cases h <;> rfl
@[simp] theorem setHalf_flashOps (s : State) (h : Half) (x : HalfState) : (s.setHalf h x).flashOps = s.flashOps := by
  cases h <;> rfl
@[simp] theorem setHalf_otp (s : State) (h : Half) (x : HalfState) : (s.setHalf h x).otp = s.otp := by
  cases h <;> rfl
@[simp] theorem setHalf_envLock (s : State) (h : Half) (x : HalfState) : (s.setHalf h x).envLock = s.envLock := by
  cases h <;> rfl
@[simp] theorem setHalf_vcDue (s : State) (h : Half) (x : HalfState) : (s.setHalf h x).vcDue = s.vcDue := by
  cases h <;> rfl
@[simp] theorem setHalf_vcLoading (s : State) (h : Half) (x : HalfState) : (s.setHalf h x).vcLoading = s.vcLoading := by
  cases h <;> rfl
@[simp] theorem setHalf_vcEntry (s : State) (h : Half) (x : HalfState) : (s.setHalf h x).vcEntry = s.vcEntry := by
  cases h <;> rfl
@[simp] theorem setHalf_ports (s : State) (h : Half) (x : HalfState) : (s.setHalf h x).ports = s.ports := by
  cases h <;> rfl
@[simp] theorem setHalf_twBuses (s : State) (h : Half) (x : HalfState) : (s.setHalf h x).twBuses = s.twBuses := by
  cases h <;> rfl
@[simp] theorem setHalf_pmbus (s : State) (h : Half) (x : HalfState) : (s.setHalf h x).pmbus = s.pmbus := by
  cases h <;> rfl
@[simp] theorem setHalf_power (s : State) (h : Half) (x : HalfState) : (s.setHalf h x).power = s.power := by
  cases h <;> rfl
@[simp] theorem setHalf_gpPins (s : State) (h : Half) (x : HalfState) : (s.setHalf h x).gpPins = s.gpPins := by
  cases h <;> rfl
@[simp] theorem setHalf_jtag (s : State) (h : Half) (x : HalfState) : (s.setHalf h x).jtag = s.jtag := by
  cases h <;> rfl
@[simp] theorem setHalf_pending (s : State) (h : Half) (x : HalfState) : (s.setHalf h x).pending = s.pending := by
  cases h <;> rfl

@[simp] theorem half_setHalf_same (s : State) (h : Half) (x : HalfState) : (s.setHalf h x).half h = x := by
  cases h <;> rfl

@[simp] theorem half_setHalf_other (s : State) (h : Half) (x : HalfState) :
    (s.setHalf h x).half h.other = s.half h.other := by
  cases h <;> rfl

/-! ## A structure read after its own update -/

@[simp] theorem consumer_setConsumer (s : State) (i : Nat) (x : Consumer) : (s.setConsumer i x).consumer i = x :=
  tblGet_tblSet_same _ _ _ _

theorem consumer_setConsumer_other (s : State) {i j : Nat} (x : Consumer) (h : j ≠ i) :
    (s.setConsumer i x).consumer j = s.consumer j :=
  tblGet_tblSet_other _ _ _ h

@[simp] theorem timebase_setTimebase (s : State) (i : Nat) (x : Timebase) : (s.setTimebase i x).timebase i = x :=
  tblGet_tblSet_same _ _ _ _

theorem timebase_setTimebase_other (s : State) {i j : Nat} (x : Timebase) (h : j ≠ i) :
    (s.setTimebase i x).timebase j = s.timebase j :=
  tblGet_tblSet_other _ _ _ h

@[simp] theorem pad_setPad (s : State) (i : Nat) (x : Pad) : (s.setPad i x).pad i = x :=
  tblGet_tblSet_same _ _ _ _

theorem pad_setPad_other (s : State) {i j : Nat} (x : Pad) (h : j ≠ i) :
    (s.setPad i x).pad j = s.pad j :=
  tblGet_tblSet_other _ _ _ h

@[simp] theorem steward_setSteward (s : State) (i : Nat) (x : Steward) : (s.setSteward i x).steward i = x :=
  tblGet_tblSet_same _ _ _ _

theorem steward_setSteward_other (s : State) {i j : Nat} (x : Steward) (h : j ≠ i) :
    (s.setSteward i x).steward j = s.steward j :=
  tblGet_tblSet_other _ _ _ h

@[simp] theorem sar_setSar (s : State) (i : Nat) (x : Sar) : (s.setSar i x).sar i = x :=
  tblGet_tblSet_same _ _ _ _

theorem sar_setSar_other (s : State) {i j : Nat} (x : Sar) (h : j ≠ i) :
    (s.setSar i x).sar j = s.sar j :=
  tblGet_tblSet_other _ _ _ h

@[simp] theorem synth_setSynth (s : State) (i : Nat) (x : Synth) : (s.setSynth i x).synth i = x :=
  tblGet_tblSet_same _ _ _ _

theorem synth_setSynth_other (s : State) {i j : Nat} (x : Synth) (h : j ≠ i) :
    (s.setSynth i x).synth j = s.synth j :=
  tblGet_tblSet_other _ _ _ h

@[simp] theorem chan_setChan (s : State) (i : Nat) (x : Chan) : (s.setChan i x).chan i = x :=
  tblGet_tblSet_same _ _ _ _

theorem chan_setChan_other (s : State) {i j : Nat} (x : Chan) (h : j ≠ i) :
    (s.setChan i x).chan j = s.chan j :=
  tblGet_tblSet_other _ _ _ h

@[simp] theorem link_setLink (s : State) (i : Nat) (x : Link) : (s.setLink i x).link i = x :=
  tblGet_tblSet_same _ _ _ _

theorem link_setLink_other (s : State) {i j : Nat} (x : Link) (h : j ≠ i) :
    (s.setLink i x).link j = s.link j :=
  tblGet_tblSet_other _ _ _ h

@[simp] theorem port_setPort (s : State) (i : Nat) (x : Port) : (s.setPort i x).port i = x :=
  tblGet_tblSet_same _ _ _ _

theorem port_setPort_other (s : State) {i j : Nat} (x : Port) (h : j ≠ i) :
    (s.setPort i x).port j = s.port j :=
  tblGet_tblSet_other _ _ _ h

@[simp] theorem tw_setTw (s : State) (i : Nat) (x : TwBus) : (s.setTw i x).tw i = x :=
  tblGet_tblSet_same _ _ _ _

theorem tw_setTw_other (s : State) {i j : Nat} (x : TwBus) (h : j ≠ i) :
    (s.setTw i x).tw j = s.tw j :=
  tblGet_tblSet_other _ _ _ h

@[simp] theorem flashQueue_setFlashQueue (s : State) (i : Nat) (x : List FlashOp) : (s.setFlashQueue i x).flashQueue i = x :=
  tblGet_tblSet_same _ _ _ _

theorem flashQueue_setFlashQueue_other (s : State) {i j : Nat} (x : List FlashOp) (h : j ≠ i) :
    (s.setFlashQueue i x).flashQueue j = s.flashQueue j :=
  tblGet_tblSet_other _ _ _ h

@[simp] theorem slot_setSlot (s : State) (h : Half) (i : Nat) (x : Slot) : (s.setSlot h i x).slot h i = x :=
  tblGet_tblSet_same _ _ _ _

@[simp] theorem line_setLine (s : State) (h : Half) (i : Nat) (x : Line) : (s.setLine h i x).line h i = x :=
  tblGet_tblSet_same _ _ _ _

@[simp] theorem engine_setEngine (s : State) (h : Half) (i : Nat) (x : Engine) : (s.setEngine h i x).engine h i = x :=
  tblGet_tblSet_same _ _ _ _

@[simp] theorem pipe_setPipe (s : State) (h : Half) (i : Nat) (x : BayPipe) : (s.setPipe h i x).pipe h i = x :=
  tblGet_tblSet_same _ _ _ _

@[simp] theorem coder_setCoder (s : State) (h : Half) (i : Nat) (x : Coder) : (s.setCoder h i x).coder h i = x :=
  tblGet_tblSet_same _ _ _ _

@[simp] theorem chanCfg_setChanCfg (s : State) (h : Half) (i : Nat) (x : ChanCfg) : (s.setChanCfg h i x).chanCfg h i = x :=
  tblGet_tblSet_same _ _ _ _

@[simp] theorem entryOf_setEntryOf (s : State) (h : Half) (b i : Nat) (x : PollEntry) :
    (s.setEntryOf h b i x).entryOf h b i = x :=
  tblGet_tblSet_same _ _ _ _

@[simp] theorem recog_setRecog (s : State) (h : Half) (b i : Nat) (x : Recog) :
    (s.setRecog h b i x).recog h b i = x :=
  tblGet_tblSet_same _ _ _ _

@[simp] theorem codeHalf_setCodeHalf (s : State) (h : Half) (x : CodeHalf) : (s.setCodeHalf h x).codeHalf h = x :=
  tblGet_tblSet_same _ _ _ _


end Sys2Proof.Machine.State
end

