-- ==== Sys2Proof/Laws/Registers.lean ====
section
/-! SUPPORT. Laws of registers and their fields: what a register or a field holds after a write of it or of another one, and
what the shared register operations change. -/

namespace Sys2Proof.Machine

/-! ## Fields of a word (R4) -/

/-- Bit by bit: the field's bits are the value's, every other bit is the word's. -/
theorem testBit_setBits (w : Word) (hi lo v i : Nat) (h20 : hi < 20) (hlo : lo ≤ hi) :
    (setBits w hi lo v).toNat.testBit i
      = if lo ≤ i ∧ i ≤ hi then v.testBit (i - lo) else w.toNat.testBit i := by
  have hw : w.toNat < 2 ^ 20 := w.isLt
  set a := w.toNat with ha
  set n := hi + 1 - lo with hn
  have hr : a % 2 ^ lo < 2 ^ lo := Nat.mod_lt _ (by positivity)
  have e1 : a = 2 ^ lo * (2 ^ n * (a / 2 ^ lo / 2 ^ n) + a / 2 ^ lo % 2 ^ n) + a % 2 ^ lo := by
    rw [Nat.div_add_mod, Nat.div_add_mod]
  have e2 : a - bits w hi lo * 2 ^ lo + v % 2 ^ n * 2 ^ lo
      = 2 ^ lo * (2 ^ n * (a / 2 ^ lo / 2 ^ n) + v % 2 ^ n) + a % 2 ^ lo := by
    have hb : bits w hi lo = a / 2 ^ lo % 2 ^ n := by rw [bits, Nat.shiftRight_eq_div_pow]
    rw [hb]
    have hle : a / 2 ^ lo % 2 ^ n * 2 ^ lo ≤ a :=
      le_trans (Nat.mul_le_mul_right _ (Nat.mod_le _ _)) (Nat.div_mul_le_self _ _)
    have : a - a / 2 ^ lo % 2 ^ n * 2 ^ lo = 2 ^ lo * (2 ^ n * (a / 2 ^ lo / 2 ^ n)) + a % 2 ^ lo := by
      apply Nat.sub_eq_of_eq_add
      conv_lhs => rw [e1]
      ring
    rw [this]; ring
  have hm : v % 2 ^ n < 2 ^ n := Nat.mod_lt _ (by positivity)
  have hbit : ∀ c : Nat, c < 2 ^ n → (2 ^ lo * (2 ^ n * (a / 2 ^ lo / 2 ^ n) + c) + a % 2 ^ lo).testBit i
      = if i < lo then (a % 2 ^ lo).testBit i
        else if i - lo < n then c.testBit (i - lo) else (a / 2 ^ lo / 2 ^ n).testBit (i - lo - n) := by
    intro c hc
    rw [Nat.testBit_two_pow_mul_add _ hr, Nat.testBit_two_pow_mul_add _ hc]
  have hA := hbit _ (Nat.mod_lt (a / 2 ^ lo) (show 0 < 2 ^ n by positivity))
  rw [← e1] at hA
  have hlt : ∀ i, 20 ≤ i → a.testBit i = false := fun i hi =>
    Nat.testBit_lt_two_pow (lt_of_lt_of_le hw (Nat.pow_le_pow_right (by norm_num) hi))
  rw [setBits, BitVec.toNat_ofNat, Nat.testBit_mod_two_pow, ← ha, ← hn, e2, hbit _ hm]
  by_cases h1 : i < lo
  · have h3 : ¬ (lo ≤ i ∧ i ≤ hi) := by omega
    have h4 : i < 20 := by omega
    rw [if_pos h1] at hA ⊢
    rw [if_neg h3, decide_eq_true h4, Bool.true_and, ← hA]
  · by_cases h2 : i - lo < n
    · have h3 : lo ≤ i ∧ i ≤ hi := by omega
      have h4 : i < 20 := by omega
      simp [h1, h2, h3, h4, Nat.testBit_mod_two_pow]
    · have h3 : ¬ (lo ≤ i ∧ i ≤ hi) := by omega
      rw [if_neg h1, if_neg h2] at hA ⊢
      rw [if_neg h3, ← hA]
      by_cases h4 : i < 20
      · simp [h4]
      · simp [h4, hlt i (by omega)]

/-- The bits of a field, one by one. -/
theorem testBit_bits (w : Word) (hi lo i : Nat) :
    (bits w hi lo).testBit i = (decide (i < hi + 1 - lo) && w.toNat.testBit (lo + i)) := by
  rw [bits, Nat.testBit_mod_two_pow, Nat.testBit_shiftRight]

/-- A field holds what was put into it, cut to its width. -/
theorem bits_setBits_same (w : Word) (hi lo v : Nat) (h20 : hi < 20) (hlo : lo ≤ hi) :
    bits (setBits w hi lo v) hi lo = v % 2 ^ (hi + 1 - lo) := by
  apply Nat.eq_of_testBit_eq
  intro i
  rw [testBit_bits, testBit_setBits _ _ _ _ _ h20 hlo, Nat.testBit_mod_two_pow]
  by_cases h : i < hi + 1 - lo
  · have : lo ≤ lo + i ∧ lo + i ≤ hi := by omega
    simp [h, this]
  · simp [h]

/-- A field apart from the one written keeps what it held. -/
theorem bits_setBits_apart (w : Word) (hi lo v hi' lo' : Nat) (h20 : hi < 20) (hlo : lo ≤ hi)
    (h : hi < lo' ∨ hi' < lo) : bits (setBits w hi lo v) hi' lo' = bits w hi' lo' := by
  apply Nat.eq_of_testBit_eq
  intro i
  rw [testBit_bits, testBit_bits, testBit_setBits _ _ _ _ _ h20 hlo]
  by_cases hw : i < hi' + 1 - lo'
  · rw [if_neg (by omega)]
  · simp [hw]

theorem bits_lt (w : Word) (hi lo : Nat) : bits w hi lo < 2 ^ (hi + 1 - lo) := Nat.mod_lt _ (by positivity)

/-! ## Registers (R9, R11) -/

/-- A register holds what it was set to. -/
@[simp] theorem State.reg_setReg (s : State) (k : Nat) (w : Word) : (s.setReg k w).reg k = w :=
  tblGet_tblSet_same _ _ _ _

/-- Every other register keeps what it held. -/
theorem State.reg_setReg_other (s : State) {k j : Nat} (w : Word) (h : j ≠ k) : (s.setReg k w).reg j = s.reg j :=
  tblGet_tblSet_other _ _ _ h

theorem State.reg_setReg_if (s : State) (k j : Nat) (w : Word) :
    (s.setReg k w).reg j = if j = k then w else s.reg j := by
  split
  · subst_vars; simp
  · exact s.reg_setReg_other w ‹_›

/-- A counter counts up to its maximum. -/
theorem State.reg_count (s : State) (k n : Nat) :
    ((s.count k n).reg k).toNat = min 0xFFFFF ((s.reg k).toNat + n) := by
  rw [State.count, State.reg_setReg, BitVec.toNat_ofNat, Nat.mod_eq_of_lt]
  exact lt_of_le_of_lt (Nat.min_le_left _ _) (by norm_num)

theorem State.reg_count_other (s : State) {k j : Nat} (n : Nat) (h : j ≠ k) : (s.count k n).reg j = s.reg j :=
  s.reg_setReg_other _ h

/-- A field holds what was put into it, cut to its width. -/
theorem State.get_put (s : State) (b v : Nat) (f : Fld) (h20 : f.hi < 20) (hlo : f.lo ≤ f.hi) :
    (s.put b f v).get b f = v % 2 ^ (f.hi + 1 - f.lo) := by
  simp [State.get, State.put, bits_setBits_same _ _ _ _ h20 hlo]

/-- A field of another register keeps what it held. -/
theorem State.get_put_other (s : State) (b c v : Nat) (f g : Fld) (h : c + g.addr ≠ b + f.addr) :
    (s.put b f v).get c g = s.get c g := by
  simp [State.get, State.put, State.reg_setReg_other _ _ h]

/-- A field of the same register apart from the one written keeps what it held. -/
theorem State.get_put_apart (s : State) (b v : Nat) (f g : Fld) (h20 : f.hi < 20) (hlo : f.lo ≤ f.hi)
    (ha : g.addr = f.addr) (h : f.hi < g.lo ∨ g.hi < f.lo) : (s.put b f v).get b g = s.get b g := by
  simp [State.get, State.put, ha, bits_setBits_apart _ _ _ _ _ _ h20 hlo h]

theorem State.reg_put_other (s : State) (b v : Nat) (f : Fld) {j : Nat} (h : j ≠ b + f.addr) :
    (s.put b f v).reg j = s.reg j :=
  s.reg_setReg_other _ h

/-- A refused write counts once and records its address; no other register changes (R43, R44). -/
theorem State.reg_refuseWrite_other (s : State) (h : Half) (a : Nat) {j : Nat}
    (h1 : j ≠ halfKey h + Reg.DEV_REFUSED) (h2 : j ≠ halfKey h + Reg.DEV_REFUSED_LAST) :
    (s.refuseWrite h a).reg j = s.reg j := by
  rw [State.refuseWrite, State.reg_setReg_other _ _ h2, State.reg_count_other _ _ h1]

theorem State.reg_refuseWrite_last (s : State) (h : Half) (a : Nat) :
    (s.refuseWrite h a).reg (halfKey h + Reg.DEV_REFUSED_LAST) = BitVec.ofNat 20 a := by
  simp [State.refuseWrite]

/-- A wide value changes only the registers of its words (R12). -/
theorem State.reg_setWide_other (n : Nat) : ∀ (s : State) (k v : Nat) {j : Nat}, j < k ∨ k + n ≤ j →
    (s.setWide k n v).reg j = s.reg j := by
  induction n with
  | zero => intros; rfl
  | succ n ih =>
    intro s k v j h
    rw [State.setWide, ih _ _ _ (by omega), State.reg_setReg_other _ _ (by omega)]

/-- A wide value reads back, cut to the bits of its words (R12). -/
theorem State.wide_setWide (n : Nat) : ∀ (s : State) (k v : Nat),
    (s.setWide k n v).wide k n = v % 0x100000 ^ n := by
  induction n with
  | zero => intro s k v; simp [State.wide, Nat.mod_one]
  | succ n ih =>
    intro s k v
    rw [State.wide, State.setWide, ih, State.reg_setWide_other n _ _ _ (by omega), State.reg_setReg, BitVec.toNat_ofNat,
      Nat.pow_succ' (m := 0x100000) (n := n), Nat.mod_mul (x := v) (a := 0x100000) (b := 0x100000 ^ n)]

end Sys2Proof.Machine
end

