-- ==== Sys2Proof/Laws/Memory.lean ====
section
/-! SUPPORT. Laws of the memories: a word reads as it was last written, a write leaves every other word as it was, and every
operation on the memories keeps their canonical form. -/

namespace Sys2Proof.Machine

/-! ## Words -/

@[simp] theorem bank_setBank_same (s : State) (h : Half) (a : Nat) (w : Word) : (s.setBank h a w).bank h a = w :=
  tblGet_tblSet_same _ _ _ _

/-- A write of a bank word leaves every other word as it was. -/
theorem bank_setBank_other (s : State) {h g : Half} {a b : Nat} (w : Word) (hne : bankIx g b ≠ bankIx h a) :
    (s.setBank h a w).bank g b = s.bank g b :=
  tblGet_tblSet_other _ _ _ hne

@[simp] theorem imemWord_setImem_same (s : State) (h : Half) (a : Nat) (w : Word) :
    (s.setImem h a w).imemWord h a = w :=
  tblGet_tblSet_same _ _ _ _

theorem imemWord_setImem_other (s : State) {h g : Half} {a b : Nat} (w : Word) (hne : imemIx g b ≠ imemIx h a) :
    (s.setImem h a w).imemWord g b = s.imemWord g b :=
  tblGet_tblSet_other _ _ _ hne

/-- The banks of the two halves share no word. -/
theorem bankIx_half (a b : Nat) : bankIx .A a ≠ bankIx .B b := by
  simp only [bankIx, Half.num]
  omega

/-! ## The canonical form -/

theorem memWf_iff (s : State) :
    s.memWf = true ↔ tblWf 0 s.banks = true ∧ tblWf 0 s.bankMarks = true ∧ tblWf 0 s.imem = true
      ∧ tblWf 0 s.imemMarks = true ∧ tblWf 0 s.vmem = true ∧ tblWf 0 s.vmemMarks = true ∧ tblWf 0xFF s.flash = true := by
  simp [State.memWf, and_assoc]

/-- Only the seven memory fields decide the canonical form. -/
theorem memWf_congr {s t : State} (h1 : t.banks = s.banks) (h2 : t.bankMarks = s.bankMarks) (h3 : t.imem = s.imem)
    (h4 : t.imemMarks = s.imemMarks) (h5 : t.vmem = s.vmem) (h6 : t.vmemMarks = s.vmemMarks) (h7 : t.flash = s.flash) :
    t.memWf = s.memWf := by
  simp only [State.memWf, h1, h2, h3, h4, h5, h6, h7]

/-- The device comes out of reset with every memory at its default throughout. -/
theorem reset_memories : State.reset.banks = [] ∧ State.reset.bankMarks = [] ∧ State.reset.imem = []
    ∧ State.reset.imemMarks = [] ∧ State.reset.vmem = [] ∧ State.reset.vmemMarks = [] ∧ State.reset.flash = [] :=
  ⟨rfl, rfl, rfl, rfl, rfl, rfl, rfl⟩

@[simp] theorem setReg_memWf (s : State) (k : Nat) (w : Word) : (s.setReg k w).memWf = s.memWf :=
  memWf_congr rfl rfl rfl rfl rfl rfl rfl
@[simp] theorem put_memWf (s : State) (b : Nat) (f : Fld) (v : Nat) : (s.put b f v).memWf = s.memWf := setReg_memWf _ _ _
@[simp] theorem count_memWf (s : State) (k n : Nat) : (s.count k n).memWf = s.memWf := setReg_memWf _ _ _
@[simp] theorem refuseWrite_memWf (s : State) (h : Half) (a : Nat) : (s.refuseWrite h a).memWf = s.memWf :=
  (setReg_memWf _ _ _).trans (count_memWf _ _ _)
@[simp] theorem stage_memWf (s : State) (m : Master) (a : Nat) (w : Word) : (s.stage m a w).memWf = s.memWf :=
  memWf_congr rfl rfl rfl rfl rfl rfl rfl
@[simp] theorem unstage_memWf (s : State) (m : Master) (a : Nat) : (s.unstage m a).memWf = s.memWf :=
  memWf_congr rfl rfl rfl rfl rfl rfl rfl
@[simp] theorem setConsumer_memWf (s : State) (c : Nat) (x : Consumer) : (s.setConsumer c x).memWf = s.memWf :=
  memWf_congr rfl rfl rfl rfl rfl rfl rfl
@[simp] theorem setTimebase_memWf (s : State) (i : Nat) (x : Timebase) : (s.setTimebase i x).memWf = s.memWf :=
  memWf_congr rfl rfl rfl rfl rfl rfl rfl
@[simp] theorem setSlot_memWf (s : State) (h : Half) (t : Nat) (x : Slot) : (s.setSlot h t x).memWf = s.memWf :=
  memWf_congr rfl rfl rfl rfl rfl rfl rfl
@[simp] theorem setPad_memWf (s : State) (t : Nat) (x : Pad) : (s.setPad t x).memWf = s.memWf :=
  memWf_congr rfl rfl rfl rfl rfl rfl rfl
@[simp] theorem setSteward_memWf (s : State) (k : Nat) (x : Steward) : (s.setSteward k x).memWf = s.memWf :=
  memWf_congr rfl rfl rfl rfl rfl rfl rfl
@[simp] theorem setSar_memWf (s : State) (b : Nat) (x : Sar) : (s.setSar b x).memWf = s.memWf :=
  memWf_congr rfl rfl rfl rfl rfl rfl rfl
@[simp] theorem setLine_memWf (s : State) (h : Half) (b : Nat) (x : Line) : (s.setLine h b x).memWf = s.memWf :=
  memWf_congr rfl rfl rfl rfl rfl rfl rfl
@[simp] theorem setEngine_memWf (s : State) (h : Half) (b : Nat) (x : Engine) : (s.setEngine h b x).memWf = s.memWf :=
  memWf_congr rfl rfl rfl rfl rfl rfl rfl
@[simp] theorem setSynth_memWf (s : State) (j : Nat) (x : Synth) : (s.setSynth j x).memWf = s.memWf :=
  memWf_congr rfl rfl rfl rfl rfl rfl rfl
@[simp] theorem setEntryOf_memWf (s : State) (h : Half) (b e : Nat) (x : PollEntry) : (s.setEntryOf h b e x).memWf = s.memWf :=
  memWf_congr rfl rfl rfl rfl rfl rfl rfl
@[simp] theorem setPipe_memWf (s : State) (h : Half) (b : Nat) (x : BayPipe) : (s.setPipe h b x).memWf = s.memWf :=
  memWf_congr rfl rfl rfl rfl rfl rfl rfl
@[simp] theorem setRecog_memWf (s : State) (h : Half) (b i : Nat) (x : Recog) : (s.setRecog h b i x).memWf = s.memWf :=
  memWf_congr rfl rfl rfl rfl rfl rfl rfl
@[simp] theorem setCoder_memWf (s : State) (h : Half) (e : Nat) (x : Coder) : (s.setCoder h e x).memWf = s.memWf :=
  memWf_congr rfl rfl rfl rfl rfl rfl rfl
@[simp] theorem setCodeHalf_memWf (s : State) (h : Half) (x : CodeHalf) : (s.setCodeHalf h x).memWf = s.memWf :=
  memWf_congr rfl rfl rfl rfl rfl rfl rfl
@[simp] theorem setChan_memWf (s : State) (c : Nat) (x : Chan) : (s.setChan c x).memWf = s.memWf :=
  memWf_congr rfl rfl rfl rfl rfl rfl rfl
@[simp] theorem setChanCfg_memWf (s : State) (h : Half) (c : Nat) (x : ChanCfg) : (s.setChanCfg h c x).memWf = s.memWf :=
  memWf_congr rfl rfl rfl rfl rfl rfl rfl
@[simp] theorem setOpen_memWf (s : State) (h : Half) (c : Nat) (x : Bushel) : (s.setOpen h c x).memWf = s.memWf :=
  memWf_congr rfl rfl rfl rfl rfl rfl rfl
@[simp] theorem setMeter_memWf (s : State) (x : Meter) : (s.setMeter x).memWf = s.memWf :=
  memWf_congr rfl rfl rfl rfl rfl rfl rfl
@[simp] theorem setMetLink_memWf (s : State) (x : MetLink) : (s.setMetLink x).memWf = s.memWf :=
  memWf_congr rfl rfl rfl rfl rfl rfl rfl
@[simp] theorem setArchive_memWf (s : State) (x : Archive) : (s.setArchive x).memWf = s.memWf :=
  memWf_congr rfl rfl rfl rfl rfl rfl rfl
@[simp] theorem setLink_memWf (s : State) (l : Nat) (x : Link) : (s.setLink l x).memWf = s.memWf :=
  memWf_congr rfl rfl rfl rfl rfl rfl rfl
@[simp] theorem setRouter_memWf (s : State) (x : Router) : (s.setRouter x).memWf = s.memWf :=
  memWf_congr rfl rfl rfl rfl rfl rfl rfl
@[simp] theorem setPort_memWf (s : State) (p : Nat) (x : Port) : (s.setPort p x).memWf = s.memWf :=
  memWf_congr rfl rfl rfl rfl rfl rfl rfl
@[simp] theorem setFlashQueue_memWf (s : State) (f : Nat) (x : List FlashOp) : (s.setFlashQueue f x).memWf = s.memWf :=
  memWf_congr rfl rfl rfl rfl rfl rfl rfl
@[simp] theorem setTw_memWf (s : State) (b : Nat) (x : TwBus) : (s.setTw b x).memWf = s.memWf :=
  memWf_congr rfl rfl rfl rfl rfl rfl rfl
@[simp] theorem setPower_memWf (s : State) (x : Power) : (s.setPower x).memWf = s.memWf :=
  memWf_congr rfl rfl rfl rfl rfl rfl rfl
@[simp] theorem setHalf_memWf (s : State) (h : Half) (x : HalfState) : (s.setHalf h x).memWf = s.memWf := by
  cases h <;> rfl

theorem mem_tblCut {α : Type} (t : Tbl α) (a n : Nat) {p : Nat × α} (h : p ∈ tblCut t a n) : p ∈ t :=
  List.mem_of_mem_filter h

/-- A cut keeps the canonical form. -/
theorem tblWf_tblCut {α : Type} [DecidableEq α] (d : α) (t : Tbl α) (a n : Nat) (h : tblWf d t = true) :
    tblWf d (tblCut t a n) = true := by
  rw [tblWf_iff] at *
  exact ⟨h.1.filter _, fun p hp => h.2 p (mem_tblCut t a n hp)⟩

/-- What a fold of steps does keeps the canonical form, if every step does. -/
theorem foldl_memWf {β : Type} (f : State → β → State) (hf : ∀ s x, s.memWf = true → (f s x).memWf = true) (l : List β) :
    ∀ s : State, s.memWf = true → (l.foldl f s).memWf = true := by
  induction l with
  | nil => exact fun _ h => h
  | cons x l ih => exact fun s h => ih _ (hf s x h)

theorem setBank_memWf (s : State) (h : Half) (a : Nat) (w : Word) (hw : s.memWf = true) :
    (s.setBank h a w).memWf = true := by
  rw [memWf_iff] at *
  obtain ⟨h1, h2, h3⟩ := hw
  exact ⟨tblWf_tblSet _ _ (bankIx h a) w h1, tblWf_tblSet _ _ (bankIx h a) 0 h2, h3⟩

theorem setBankRun_memWf (h : Half) (l : List Word) : ∀ (s : State) (a : Nat), s.memWf = true →
    (s.setBankRun h a l).memWf = true := by
  induction l with
  | nil => exact fun _ _ hw => hw
  | cons w l ih => exact fun s a hw => ih _ _ (setBank_memWf s h a w hw)

theorem setImem_memWf (s : State) (h : Half) (a : Nat) (w : Word) (hw : s.memWf = true) :
    (s.setImem h a w).memWf = true := by
  rw [memWf_iff] at *
  obtain ⟨h1, h2, h3, h4, h5⟩ := hw
  exact ⟨h1, h2, tblWf_tblSet _ _ (imemIx h a) w h3, tblWf_tblSet _ _ (imemIx h a) 0 h4, h5⟩

theorem setVigil_memWf (s : State) (a : Nat) (w : Word) (hw : s.memWf = true) : (s.setVigil a w).memWf = true := by
  have key : ({ s with vmem := tblSet s.vmem 0 a w, vmemMarks := tblSet s.vmemMarks 0 a 0 } : State).memWf = true := by
    rw [memWf_iff] at *
    obtain ⟨h1, h2, h3, h4, h5, h6, h7⟩ := hw
    exact ⟨h1, h2, h3, h4, tblWf_tblSet _ _ a w h5, tblWf_tblSet _ _ a 0 h6, h7⟩
  unfold State.setVigil
  dsimp only
  split
  · split
    · exact key
    · exact key
  · exact key

/-! ## Reads with error correction -/

@[simp] theorem logCorrected_memWf (h : Half) (s : State) : (logCorrected h s).memWf = s.memWf := by
  simp [logCorrected]

@[simp] theorem logUncorrectable_memWf (h : Half) (a space port : Nat) (s : State) :
    (logUncorrectable h a space port s).memWf = s.memWf := by
  simp [logUncorrectable]

theorem bankMarks_memWf (s : State) (i v : Nat) (hw : s.memWf = true) :
    ({ s with bankMarks := tblSet s.bankMarks 0 i v } : State).memWf = true := by
  rw [memWf_iff] at *
  exact ⟨hw.1, tblWf_tblSet _ _ _ _ hw.2.1, hw.2.2⟩

theorem imemMarks_memWf (s : State) (i v : Nat) (hw : s.memWf = true) :
    ({ s with imemMarks := tblSet s.imemMarks 0 i v } : State).memWf = true := by
  rw [memWf_iff] at *
  exact ⟨hw.1, hw.2.1, hw.2.2.1, tblWf_tblSet _ _ _ _ hw.2.2.2.1, hw.2.2.2.2⟩

theorem vmemMarks_memWf (s : State) (i v : Nat) (hw : s.memWf = true) :
    ({ s with vmemMarks := tblSet s.vmemMarks 0 i v } : State).memWf = true := by
  rw [memWf_iff] at *
  obtain ⟨h1, h2, h3, h4, h5, h6, h7⟩ := hw
  exact ⟨h1, h2, h3, h4, h5, tblWf_tblSet _ _ _ _ h6, h7⟩

theorem readBank_memWf (h : Half) (a port : Nat) (s : State) (hw : s.memWf = true) :
    (readBank h a port s).2.memWf = true := by
  unfold readBank
  dsimp only
  split
  · exact hw
  · rw [logCorrected_memWf]; exact bankMarks_memWf s _ _ hw
  · rw [logUncorrectable_memWf]; exact hw

theorem readBankRun_memWf (h : Half) (port n : Nat) : ∀ (a : Nat) (s : State), s.memWf = true →
    (readBankRun h a port n s).2.memWf = true := by
  induction n with
  | zero => exact fun _ _ hw => hw
  | succ n ih => exact fun a s hw => ih _ _ (readBank_memWf h a port s hw)

theorem readImem_memWf (h : Half) (a port : Nat) (s : State) (hw : s.memWf = true) :
    (readImem h a port s).2.memWf = true := by
  unfold readImem
  split
  · exact hw
  · rw [logCorrected_memWf]; exact imemMarks_memWf s _ _ hw
  · rw [logUncorrectable_memWf]; exact hw

theorem copyWindow_memWf (h : Half) (l : List Nat) (s : State) (hw : s.memWf = true) :
    (copyWindow h l s).memWf = true := by
  refine foldl_memWf _ (fun s a hw => ?_) l s hw
  split
  · rw [logCorrected_memWf]; exact bankMarks_memWf s _ _ hw
  · exact hw

/-- A steward's data read, from its own half, over the cross-half port, or of Vigil memory. -/
theorem dataRead_memWf (k a : Nat) (s : State) (hw : s.memWf = true) : (dataRead k a s).2.memWf = true := by
  unfold dataRead
  split
  · split
    · split
      · exact hw
      · exact vmemMarks_memWf s _ _ hw
      · exact hw
    · exact hw
  · dsimp only
    split
    · exact readBank_memWf _ _ _ s hw
    · split
      · exact readBank_memWf _ _ _ s hw
      · simpa using hw

/-- A steward's data write. -/
theorem dataWrite_memWf (k a : Nat) (w : Word) (s t : State) (ht : dataWrite k a w s = some t) (hw : s.memWf = true) :
    t.memWf = true := by
  unfold dataWrite at ht
  split at ht
  · split at ht
    · cases ht; exact setVigil_memWf s a w hw
    · cases ht
  · cases ht
    split
    · exact setBank_memWf s _ _ w hw
    · simpa using hw

/-! ## The boot flashes and the boot of a half -/

theorem programFlash_memWf (f a : Nat) (l : List Byte) (s : State) (hw : s.memWf = true) :
    (programFlash f a l s).memWf = true := by
  refine foldl_memWf _ (fun s e hw => ?_) _ s hw
  rw [memWf_iff] at *
  obtain ⟨h1, h2, h3, h4, h5, h6, h7⟩ := hw
  exact ⟨h1, h2, h3, h4, h5, h6, tblWf_tblSet _ _ _ _ h7⟩

theorem eraseFlash_memWf (f a : Nat) (s : State) (hw : s.memWf = true) : (eraseFlash f a s).memWf = true := by
  rw [memWf_iff] at *
  obtain ⟨h1, h2, h3, h4, h5, h6, h7⟩ := hw
  exact ⟨h1, h2, h3, h4, h5, h6, tblWf_tblCut _ _ _ _ h7⟩

theorem clearMemories_memWf (h : Half) (s : State) (hw : s.memWf = true) : (clearMemories h s).memWf = true := by
  rw [memWf_iff] at *
  obtain ⟨h1, h2, h3, h4, h5⟩ := hw
  exact ⟨tblWf_tblCut _ _ _ _ h1, tblWf_tblCut _ _ _ _ h2, tblWf_tblCut _ _ _ _ h3, tblWf_tblCut _ _ _ _ h4, h5⟩

theorem loadImage_memWf (h : Half) (slot : Nat) (s : State) (hw : s.memWf = true) :
    (loadImage h slot s).memWf = true :=
  foldl_memWf _ (fun s e hw => setImem_memWf s h _ e.1 hw) _ s hw

theorem vmemWord_memWf (s : State) (a : Nat) (w : Word) (hw : s.memWf = true) :
    ({ s with vmem := tblSet s.vmem 0 a w } : State).memWf = true := by
  rw [memWf_iff] at *
  obtain ⟨h1, h2, h3, h4, h5, h6⟩ := hw
  exact ⟨h1, h2, h3, h4, tblWf_tblSet _ _ _ _ h5, h6⟩

theorem voidVigil_memWf (s : State) (hw : s.memWf = true) : (voidVigil s).memWf = true := by
  refine foldl_memWf _ (fun s a hw => vmemWord_memWf s a _ hw) _ _ ?_
  rw [memWf_iff] at *
  obtain ⟨h1, h2, h3, h4, -, -, h7⟩ := hw
  exact ⟨h1, h2, h3, h4, rfl, rfl, h7⟩

theorem applyFlip_memWf (f : Flip) (s : State) (hw : s.memWf = true) : (applyFlip f s).memWf = true := by
  unfold applyFlip
  split
  · exact imemMarks_memWf s _ _ hw
  · exact bankMarks_memWf s _ _ hw

end Sys2Proof.Machine
end

