-- ==== Sys2Proof/Laws/Frames.lean ====
section
/-! SUPPORT. What the shared operations can do, one lemma each: which fields of the state may differ after it. -/

namespace Sys2Proof.Machine

/-- A relation that holds of a state and itself and composes holds across a fold, if it holds across every step of it. -/
theorem foldl_rel {β : Type} (R : State → State → Prop) (refl : ∀ s, R s s) (trans : ∀ s t u, R s t → R t u → R s u)
    (f : State → β → State) (hf : ∀ s x, R s (f s x)) (l : List β) : ∀ s : State, R s (l.foldl f s) := by
  induction l with
  | nil => exact refl
  | cons x l ih => exact fun s => trans _ _ _ (hf s x) (ih _)

/-- A bay event does to the state what its effect on one copy can do, at most twice (R23, R24). -/
theorem onCopies_rel (R : State → State → Prop) (refl : ∀ s, R s s) (trans : ∀ s t u, R s t → R t u → R s u)
    (f : Half → State → State) (hf : ∀ h s, R s (f h s)) (s : State) : R s (s.onCopies f) := by
  unfold State.onCopies
  dsimp only
  split <;> split
  · exact trans _ _ _ (hf _ _) (hf _ _)
  · exact hf _ _
  · exact hf _ _
  · exact refl _

/-! ## Registers -/

theorem putIf_only (set : Bool) (b v : Nat) (f : Fld) (s : State) : ∃ r, putIf set b f v s = { s with regs := r } := by
  unfold putIf
  split <;> exact ⟨_, rfl⟩

theorem refuseWrite_only (s : State) (h : Half) (a : Nat) : ∃ r, s.refuseWrite h a = { s with regs := r } := by
  obtain ⟨r, hr⟩ : ∃ r, s.count (halfKey h + Reg.DEV_REFUSED) 1 = { s with regs := r } := ⟨_, rfl⟩
  rw [State.refuseWrite, hr]
  exact ⟨_, rfl⟩

theorem setWide_only (n : Nat) : ∀ (s : State) (k v : Nat), ∃ r, s.setWide k n v = { s with regs := r } := by
  induction n with
  | zero => exact fun s _ _ => ⟨s.regs, rfl⟩
  | succ n ih =>
    intro s k v
    obtain ⟨r, h⟩ := ih (s.setReg k (BitVec.ofNat 20 v)) (k + 1) (v / 0x100000)
    exact ⟨r, h⟩

theorem setRegs_only (l : List (Nat × Word)) : ∀ s : State, ∃ r, s.setRegs l = { s with regs := r } := by
  induction l with
  | nil => exact fun s => ⟨s.regs, rfl⟩
  | cons e l ih =>
    intro s
    obtain ⟨r, h⟩ := ih (s.setReg e.1 e.2)
    exact ⟨r, h⟩

/-- A write of a shared block: its effect, or a refused write (R26). -/
theorem blockWrite_cases (s : State) (m : Master) (blk a : Nat) (f : State → State) :
    s.blockWrite m blk a f = f s ∨ s.blockWrite m blk a f = s.refuseWrite (s.masterHalf m) a := by
  unfold State.blockWrite
  split
  · exact .inl rfl
  · exact .inr rfl

/-- A bay write: its effect on the copies, or a refused write (R24). -/
theorem bayWrite_cases (s : State) (m : Master) (b a : Nat) (f : Half → State → State) :
    s.bayWrite m b a f = s.onCopies f ∨ s.bayWrite m b a f = s.refuseWrite (s.masterHalf m) a := by
  unfold State.bayWrite
  split
  · exact .inl rfl
  · exact .inr rfl

/-! ## The event matrix (R541 to R549) -/

theorem captureRise_only (i c : Nat) (s : State) :
    ∃ r t, captureRise i c s = { s with regs := r, timebases := t } := by
  unfold captureRise
  dsimp only
  split <;> exact ⟨_, _, rfl⟩

theorem captureFall_only (i c : Nat) (s : State) :
    ∃ r t, captureFall i c s = { s with regs := r, timebases := t } := by
  unfold captureFall
  split
  · exact ⟨_, _, rfl⟩
  · exact ⟨s.regs, s.timebases, rfl⟩

theorem captureEvent_only (i : Nat) (s : State) :
    ∃ r t, captureEvent i s = { s with regs := r, timebases := t } := by
  unfold captureEvent
  split
  · split
    · exact captureFall_only i 1 s
    · exact captureRise_only i 1 s
  · exact ⟨s.regs, s.timebases, rfl⟩

/-- A pulse changes registers, consumers, timebases and the wake request of the matrix, and nothing else. -/
abbrev EventOnly (s t : State) : Prop :=
  ∃ r c b w, t = { s with regs := r, consumers := c, timebases := b, power := { s.power with matrixWake := w } }

theorem EventOnly.refl (s : State) : EventOnly s s := ⟨s.regs, s.consumers, s.timebases, s.power.matrixWake, rfl⟩

theorem EventOnly.trans (s t u : State) (h1 : EventOnly s t) (h2 : EventOnly t u) : EventOnly s u := by
  obtain ⟨_, _, _, _, rfl⟩ := h1
  obtain ⟨r, c, b, w, rfl⟩ := h2
  exact ⟨r, c, b, w, rfl⟩

theorem captureEvent_event (i : Nat) (s : State) : EventOnly s (captureEvent i s) := by
  obtain ⟨r, t, h⟩ := captureEvent_only i s
  exact ⟨r, s.consumers, t, s.power.matrixWake, h⟩

theorem setConsumer_event (s : State) (c : Nat) (x : Consumer) : EventOnly s (s.setConsumer c x) :=
  ⟨s.regs, _, s.timebases, s.power.matrixWake, rfl⟩

theorem consumerAct_event (c : Nat) (s : State) : EventOnly s (consumerAct c s) := by
  unfold consumerAct
  dsimp only
  split
  · exact onCopies_rel _ EventOnly.refl EventOnly.trans _ (fun _ s => captureEvent_event _ s) s
  split
  · exact captureEvent_event _ s
  split
  · split <;> first | exact setConsumer_event _ _ _ | exact EventOnly.refl s
  split
  · exact setConsumer_event _ _ _
  split
  · split
    · exact ⟨s.regs, _, s.timebases, true, rfl⟩
    · exact EventOnly.refl s
  · exact EventOnly.refl s

theorem dropEvents_event (c n : Nat) (s : State) : EventOnly s (dropEvents c n s) := setConsumer_event _ _ _

theorem deliver_event (ps : List Nat) (c : Nat) (s : State) : EventOnly s (deliver ps c s) := by
  unfold deliver
  dsimp only
  split
  · split
    · exact dropEvents_event _ _ s
    · exact EventOnly.trans _ _ _ (dropEvents_event _ _ s) (consumerAct_event c _)
  · exact EventOnly.refl s

/-- What pulses of producers that meet can do (R545). -/
theorem raiseEvents_only (ps : List Nat) (s : State) : EventOnly s (raiseEvents ps s) := by
  unfold raiseEvents
  dsimp only
  split
  · exact EventOnly.refl s
  · exact foldl_rel _ EventOnly.refl EventOnly.trans _ (fun s c => deliver_event _ c s) _ s

/-- What a pulse of a producer can do. -/
theorem raiseEvent_only (p : Nat) (s : State) : EventOnly s (raiseEvent p s) := raiseEvents_only [p] s

/-! ## Pads -/

/-- No pulse is held where the slot does not drive its pad, or its rise is allowed. -/
theorem holdPulse_idle {t : Nat} {s : State}
    (h : (s.slot (s.livePath t) t).drive = false ∨ s.onAllowed t = true) : holdPulse t s = s := by
  unfold holdPulse
  rw [if_neg]
  rcases h with h | h <;> simp [h]

/-- Once the interlock has had its say, a pad that takes its level changes itself and the line's blanking alone. -/
theorem syncPad_only (t : Nat) (s : State) :
    ∃ p b, syncPad t s = { holdPulse t s with pads := p, lineBlanked := b } := by
  unfold syncPad
  dsimp only
  generalize holdPulse t s = u
  split
  · exact ⟨u.pads, u.lineBlanked, rfl⟩
  split
  · exact ⟨_, u.lineBlanked, rfl⟩
  split
  · split
    · exact ⟨_, _, rfl⟩
    · exact ⟨_, u.lineBlanked, rfl⟩
  · exact ⟨_, u.lineBlanked, rfl⟩

/-! ## Stewards: boundaries and completion -/

/-- What the end of an instruction can do: the registers of the steward's block, the stewards, and the active sources of its
half's interrupt controller. -/
abbrev StewOnly (s t : State) : Prop :=
  ∃ r a b w, t = { s with regs := r, halfA := { s.halfA with active := a }, halfB := { s.halfB with active := b }, stewards := w }

theorem StewOnly.refl (s : State) : StewOnly s s := ⟨s.regs, s.halfA.active, s.halfB.active, s.stewards, rfl⟩

theorem StewOnly.trans (s t u : State) (h1 : StewOnly s t) (h2 : StewOnly t u) : StewOnly s u := by
  obtain ⟨_, _, _, _, rfl⟩ := h1
  obtain ⟨r, a, b, w, rfl⟩ := h2
  exact ⟨r, a, b, w, rfl⟩

theorem setSteward_only (s : State) (k : Nat) (x : Steward) : StewOnly s (s.setSteward k x) :=
  ⟨s.regs, s.halfA.active, s.halfB.active, _, rfl⟩

theorem setReg_steward (s : State) (k : Nat) (w : Word) : StewOnly s (s.setReg k w) :=
  ⟨_, s.halfA.active, s.halfB.active, s.stewards, rfl⟩

theorem put_steward (s : State) (b v : Nat) (f : Fld) : StewOnly s (s.put b f v) := setReg_steward s _ _

theorem endStack_only (k : Nat) (s : State) : StewOnly s (endStack k s) := by
  unfold endStack
  dsimp only
  refine StewOnly.trans _ _ _ ?_ (setSteward_only _ _ _)
  split
  · cases stewHalf k
    · exact ⟨s.regs, _, s.halfB.active, s.stewards, rfl⟩
    · exact ⟨s.regs, s.halfA.active, _, s.stewards, rfl⟩
  · exact StewOnly.refl s

theorem stopNow_only (k : Nat) (s : State) : StewOnly s (stopNow k s) :=
  StewOnly.trans _ _ _ (endStack_only k s) (setSteward_only _ _ _)

theorem haltNow_only (k c : Nat) (s : State) : StewOnly s (haltNow k c s) :=
  StewOnly.trans _ _ _ (setSteward_only s _ _) (put_steward _ _ _ _)

/-- What a boundary can do (R471, R487, R491). -/
theorem boundary_only (k : Nat) (s : State) : StewOnly s (boundary k s) := by
  unfold boundary
  dsimp only
  split
  · exact StewOnly.refl s
  split
  · exact stopNow_only k s
  split
  · exact haltNow_only _ _ s
  split
  · exact haltNow_only _ _ s
  · exact StewOnly.refl s

theorem retire_only (k : Nat) (f : Fetched) (wr : List (Nat × Word)) (ld : Option (Nat × Word)) (jump : Option Word)
    (upd : Steward → Steward) (s : State) :
    ∃ r w, retire k f wr ld jump upd s = { s with regs := r, stewards := w } := by
  unfold retire countRet
  dsimp only
  exact ⟨_, _, (setWide_only 2 _ _ _).choose_spec⟩

/-- What the completion of an instruction can do. -/
theorem complete_only (k : Nat) (f : Fetched) (wr : List (Nat × Word)) (ld : Option (Nat × Word)) (jump : Option Word)
    (upd : Steward → Steward) (s : State) : StewOnly s (complete k f wr ld jump upd s) := by
  refine StewOnly.trans _ _ _ ?_ (boundary_only _ _)
  obtain ⟨r, w, h⟩ := retire_only k f wr ld jump upd s
  exact ⟨r, s.halfA.active, s.halfB.active, w, h⟩

/-- What a fetch can do: a corrected word is counted and its mark cleared, a lost one is logged. -/
abbrev FetchOnly (s t : State) : Prop :=
  ∃ r i v n, t = { s with regs := r, imemMarks := i, vmemMarks := v, freeCount := n }

theorem FetchOnly.refl (s : State) : FetchOnly s s := ⟨s.regs, s.imemMarks, s.vmemMarks, s.freeCount, rfl⟩

theorem FetchOnly.trans (s t u : State) (h1 : FetchOnly s t) (h2 : FetchOnly t u) : FetchOnly s u := by
  obtain ⟨_, _, _, _, rfl⟩ := h1
  obtain ⟨r, i, v, n, rfl⟩ := h2
  exact ⟨r, i, v, n, rfl⟩

theorem logCorrected_only (h : Half) (s : State) : ∃ r, logCorrected h s = { s with regs := r } := by
  obtain ⟨r, hr⟩ : ∃ r, s.count (halfKey h + Reg.MC_CNT) 1 = { s with regs := r } := ⟨_, rfl⟩
  rw [logCorrected, hr]
  exact ⟨_, rfl⟩

theorem logUncorrectable_only (h : Half) (a space port : Nat) (s : State) :
    ∃ r, logUncorrectable h a space port s = { s with regs := r } := by
  obtain ⟨r, hr⟩ : ∃ r, s.count (halfKey h + Reg.MC_CNT + 1) 1 = { s with regs := r } := ⟨_, rfl⟩
  rw [logUncorrectable, hr]
  obtain ⟨r2, hr2⟩ : ∃ r2, State.put { s with regs := r } (halfKey h) Reg.MC_STAT_UNCORR 1 = { s with regs := r2 } :=
    ⟨_, rfl⟩
  rw [hr2]
  obtain ⟨r3, hr3⟩ : ∃ r3, State.setReg { s with regs := r2 } (halfKey h + Reg.MC_ELOG) (BitVec.ofNat 20 a)
      = { s with regs := r3 } := ⟨_, rfl⟩
  rw [hr3]
  exact ⟨_, rfl⟩

theorem readImem_only (h : Half) (a port : Nat) (s : State) : FetchOnly s (readImem h a port s).2 := by
  unfold readImem
  split
  · exact FetchOnly.refl s
  · obtain ⟨r, hr⟩ := logCorrected_only h { s with imemMarks := tblSet s.imemMarks 0 (imemIx h a) 0 }
    exact ⟨r, _, s.vmemMarks, s.freeCount, hr⟩
  · obtain ⟨r, hr⟩ := logUncorrectable_only h (a % 0x40000) 1 port s
    exact ⟨r, s.imemMarks, s.vmemMarks, s.freeCount, hr⟩

theorem fetchWord_only (k a : Nat) (s : State) : FetchOnly s (fetchWord k a s).2 := by
  unfold fetchWord
  split
  · dsimp only
    split
    · exact readImem_only _ _ _ s
    split <;> exact FetchOnly.refl s
  split
  · split
    · exact FetchOnly.refl s
    · exact ⟨s.regs, s.imemMarks, _, s.freeCount, rfl⟩
    · exact FetchOnly.refl s
  · exact FetchOnly.refl s

theorem freeCount_fetch {s t : State} (n : Nat) (h : FetchOnly s t) : FetchOnly s { t with freeCount := n } := by
  obtain ⟨r, i, v, _, rfl⟩ := h
  exact ⟨r, i, v, n, rfl⟩

/-- What the fetch of an instruction can do. -/
theorem fetchAt_only (k : Nat) (pc : Word) (s : State) : FetchOnly s (fetchAt k pc s).2 := by
  have h1 := fetchWord_only k pc.toNat s
  have h2 := FetchOnly.trans _ _ _ h1 (fetchWord_only k (pc + 1).toNat (fetchWord k pc.toNat s).2)
  unfold fetchAt
  dsimp only
  split
  · exact freeCount_fetch _ (FetchOnly.refl s)
  · exact freeCount_fetch _ h1
  split
  · split
    · exact h2
    · exact freeCount_fetch _ h1
    · exact freeCount_fetch _ h2
  · exact h1

/-! ## Links and ports -/

theorem drainLink_only (l n : Nat) : ∀ s : State, ∃ x, drainLink l n s = { s with links := x } := by
  induction n with
  | zero => exact fun s => ⟨s.links, rfl⟩
  | succ n ih =>
    intro s
    unfold drainLink
    dsimp only
    split
    · obtain ⟨x, h⟩ := ih _
      exact ⟨x, h⟩
    · exact ⟨s.links, rfl⟩

/-- What sending a packet on a link can do (R425). -/
theorem egress_only (l : Nat) (p : Packet) (s : State) : ∃ x, egress l p s = { s with links := x } := by
  unfold egress
  dsimp only
  split
  · obtain ⟨x, h⟩ := drainLink_only l _ (s.setLink l _)
    exact ⟨x, h⟩
  · exact ⟨s.links, rfl⟩

/-! ## Accesses and injection (R84 to R90, R426) -/

/-- What an access and the packets it lets out can change: registers, the governors, what a pulse changes, the count of free
values, links, the router and the ports. -/
abbrev SendOnly (s t : State) : Prop :=
  ∃ r a b c i w n l q p, t = { s with
    regs := r, halfA := { s.halfA with budget := a }, halfB := { s.halfB with budget := b }, consumers := c, timebases := i
    power := { s.power with matrixWake := w }, freeCount := n, links := l, router := q, ports := p }

theorem SendOnly.refl (s : State) : SendOnly s s :=
  ⟨s.regs, s.halfA.budget, s.halfB.budget, s.consumers, s.timebases, s.power.matrixWake, s.freeCount, s.links, s.router,
    s.ports, rfl⟩

theorem SendOnly.trans (s t u : State) (h1 : SendOnly s t) (h2 : SendOnly t u) : SendOnly s u := by
  obtain ⟨_, _, _, _, _, _, _, _, _, _, rfl⟩ := h1
  obtain ⟨r, a, b, c, i, w, n, l, q, p, rfl⟩ := h2
  exact ⟨r, a, b, c, i, w, n, l, q, p, rfl⟩

theorem regs_send (s : State) (r : Tbl Word) : SendOnly s { s with regs := r } :=
  ⟨r, s.halfA.budget, s.halfB.budget, s.consumers, s.timebases, s.power.matrixWake, s.freeCount, s.links, s.router,
    s.ports, rfl⟩

theorem links_send (s : State) (l : Tbl Link) : SendOnly s { s with links := l } :=
  ⟨s.regs, s.halfA.budget, s.halfB.budget, s.consumers, s.timebases, s.power.matrixWake, s.freeCount, l, s.router,
    s.ports, rfl⟩

theorem setRouter_send (s : State) (q : Router) : SendOnly s (s.setRouter q) :=
  ⟨s.regs, s.halfA.budget, s.halfB.budget, s.consumers, s.timebases, s.power.matrixWake, s.freeCount, s.links, q,
    s.ports, rfl⟩

theorem setPort_send (s : State) (p : Nat) (x : Port) : SendOnly s (s.setPort p x) :=
  ⟨s.regs, s.halfA.budget, s.halfB.budget, s.consumers, s.timebases, s.power.matrixWake, s.freeCount, s.links, s.router,
    _, rfl⟩

theorem freeCount_send (s : State) (n : Nat) : SendOnly s { s with freeCount := n } :=
  ⟨s.regs, s.halfA.budget, s.halfB.budget, s.consumers, s.timebases, s.power.matrixWake, n, s.links, s.router,
    s.ports, rfl⟩

theorem setBudget_send (s : State) (h : Half) (x : Budget) : SendOnly s (s.setBudget h x) := by
  cases h
  · exact ⟨s.regs, x, s.halfB.budget, s.consumers, s.timebases, s.power.matrixWake, s.freeCount, s.links, s.router,
      s.ports, rfl⟩
  · exact ⟨s.regs, s.halfA.budget, x, s.consumers, s.timebases, s.power.matrixWake, s.freeCount, s.links, s.router,
      s.ports, rfl⟩

theorem EventOnly.send {s t : State} (h : EventOnly s t) : SendOnly s t := by
  obtain ⟨r, c, i, w, rfl⟩ := h
  exact ⟨r, s.halfA.budget, s.halfB.budget, c, i, w, s.freeCount, s.links, s.router, s.ports, rfl⟩

theorem takeFromOthers_only (h : Half) (place : Nat) (l : List Nat) :
    ∀ (n : Nat) (s : State), SendOnly s (takeFromOthers h place l n s) := by
  induction l with
  | nil => exact fun _ s => SendOnly.refl s
  | cons p l ih => exact fun _ s => SendOnly.trans _ _ _ (setBudget_send s h _) (ih _ _)

/-- What a charge can do (R84, R87). -/
theorem chargeTransfer_only (h : Half) (place hold : Nat) (s : State) : SendOnly s (chargeTransfer h place hold s) := by
  unfold chargeTransfer
  split
  · exact SendOnly.refl s
  dsimp only
  split
  · refine SendOnly.trans _ _ _ ?_ (raiseEvent_only evBudgetFloor _).send
    refine SendOnly.trans _ _ _ ?_ (regs_send _ _)
    exact SendOnly.trans _ _ _ (setBudget_send s h _)
      (SendOnly.trans _ _ _ (setBudget_send _ h _) (takeFromOthers_only h place _ _ _))
  · exact setBudget_send s h _

theorem admitTransfer_only {h : Half} {place : Nat} {s t : State} (ht : admitTransfer h place s = some t) : SendOnly s t := by
  unfold admitTransfer at ht
  split at ht
  · cases ht
    exact SendOnly.refl s
  split at ht
  · cases ht
    exact setBudget_send s h _
  · cases ht

/-- What an acknowledged access can do (R89). -/
theorem access_only {h : Half} {a r : Nat} {s t : State} (ht : s.access h a r = some t) : SendOnly s t := by
  obtain ⟨u, hu, rfl⟩ := Option.map_eq_some_iff.mp ht
  refine SendOnly.trans _ u _ ?_ (SendOnly.trans _ _ _ (freeCount_send u _) (chargeTransfer_only _ _ _ _))
  unfold State.admitted at hu
  dsimp only at hu
  split at hu
  · split at hu
    · obtain ⟨v, hv, rfl⟩ := Option.map_eq_some_iff.mp hu
      exact SendOnly.trans _ _ _ (admitTransfer_only hv) (SendOnly.trans _ _ _ (setBudget_send v h _) (regs_send _ _))
    · cases hu
  · exact admitTransfer_only hu

/-- An access that is acknowledged has its effect; any other waits. -/
theorem withAccess_of {h : Half} {a r : Nat} {s t : State} (f : State → State) (ht : s.access h a r = some t) :
    withAccess h a r f s = f t := by
  rw [withAccess, ht]

theorem withAccess_none {h : Half} {a r : Nat} {s : State} (f : State → State) (ht : s.access h a r = none) :
    withAccess h a r f s = awaitAccess h a r s := by
  rw [withAccess, ht]

theorem awaitAccess_only (h : Half) (a r : Nat) (s : State) : SendOnly s (awaitAccess h a r s) := by
  unfold awaitAccess
  split
  · exact SendOnly.refl s
  · exact setBudget_send s h _

theorem egress_send (l : Nat) (p : Packet) (s : State) : SendOnly s (egress l p s) := by
  obtain ⟨x, h⟩ := egress_only l p s
  rw [h]
  exact links_send s x

theorem queueAlarm_only (n : Nat) (p : Packet) (s : State) : SendOnly s (queueAlarm n p s) := by
  unfold queueAlarm
  dsimp only
  split
  · split
    · exact setPort_send s n _
    · exact SendOnly.trans _ _ _ (setPort_send s n _) (SendOnly.trans _ _ _ (regs_send _ _) (regs_send _ _))
  · exact SendOnly.refl s

theorem passAlarm_only (p : Packet) (s : State) : SendOnly s (passAlarm 8 p s) := by
  unfold passAlarm
  split
  · exact SendOnly.trans _ _ _ (queueAlarm_only 0 p s) (queueAlarm_only 1 p _)
  rw [if_pos rfl]
  split
  · exact egress_send _ p s
  · exact SendOnly.trans _ _ _ (regs_send s _) (regs_send _ _)

theorem handleAlarm_only (p : Packet) (s : State) : SendOnly s (handleAlarm 8 p s) := by
  unfold handleAlarm
  dsimp only
  split
  · exact SendOnly.trans _ _ _ (setRouter_send s _) (regs_send _ _)
  split
  · exact SendOnly.trans _ _ _ (setRouter_send s _) (passAlarm_only _ _)
  · refine SendOnly.trans _ _ _ ?_ (passAlarm_only _ _)
    exact SendOnly.trans _ _ _ (regs_send s _) (regs_send _ _)

/-- What the injection of one packet can do. -/
theorem sendNow_only (p : Packet) (s : State) : SendOnly s (sendNow p s) := by
  unfold sendNow
  split
  · exact handleAlarm_only p s
  split
  · exact passAlarm_only p s
  split
  · exact egress_send _ p s
  · exact SendOnly.refl s

theorem tryInject_only (acc : List (Nat × Packet) × State) (e : Nat × Packet) : SendOnly acc.2 (tryInject acc e).2 := by
  unfold tryInject
  dsimp only
  split
  · exact SendOnly.refl acc.2
  split
  · exact sendNow_only e.2 acc.2
  split
  · exact SendOnly.trans _ _ _ (access_only ‹_›) (sendNow_only e.2 _)
  · exact awaitAccess_only _ _ _ acc.2

theorem tryInjects_only (l : List (Nat × Packet)) :
    ∀ acc : List (Nat × Packet) × State, SendOnly acc.2 (l.foldl tryInject acc).2 := by
  induction l with
  | nil => exact fun acc => SendOnly.refl acc.2
  | cons e l ih => exact fun acc => SendOnly.trans _ _ _ (tryInject_only acc e) (ih _)

/-- What an injection can do: what waits goes out as far as grants allow. -/
theorem injectAll_only (ps : List (Nat × Packet)) (s : State) : SendOnly s (injectAll ps s) :=
  SendOnly.trans _ _ _ (setRouter_send s _)
    (SendOnly.trans _ _ _ (setRouter_send _ _) (SendOnly.trans _ _ _ (tryInjects_only _ _) (setRouter_send _ _)))

theorem sendTo_only (kind cls dst tag : Nat) (b : List Byte) (s : State) : SendOnly s (sendTo kind cls dst tag b s) := by
  unfold sendTo
  split
  · exact injectAll_only _ s
  · exact SendOnly.refl s

/-- What the answer to a command can do: a reply joins its port's replies, or a packet waits for injection (R447, R594). -/
theorem answerCmd_only (p : Nat) (c : Cmd) (st : Nat) (res : List Byte) (s : State) :
    SendOnly s (answerCmd p c st res s) := by
  unfold answerCmd
  split
  · exact sendTo_only 7 2 _ _ _ s
  · exact setPort_send s p _

/-- What the end of a command can do (R592). -/
theorem endCmd_only (p st : Nat) (res : List Byte) (s : State) : SendOnly s (endCmd p st res s) := by
  unfold endCmd
  split
  · exact SendOnly.trans _ _ _ (setPort_send s p _) (answerCmd_only p _ st res _)
  · exact SendOnly.refl s

end Sys2Proof.Machine
end

