-- ==== Sys2Proof/Laws/Step.lean ====
section
/-! SUPPORT. Laws of a command's answer. -/

namespace Sys2Proof.Machine

theorem Gives.intro {c : Instr} {s t : State} {P : State → Prop} (h : exec c s = .next t) (p : P t) : Gives c s P :=
  ⟨t, h, p⟩

/-- What a command gives holds of the state it answers. -/
theorem Gives.of_next {c : Instr} {s t : State} {P : State → Prop} (g : Gives c s P) (h : exec c s = .next t) : P t := by
  obtain ⟨u, hu, p⟩ := g
  rw [h] at hu
  cases hu
  exact p

theorem Gives.mono {c : Instr} {s : State} {P Q : State → Prop} (g : Gives c s P) (h : ∀ t, P t → Q t) : Gives c s Q := by
  obtain ⟨t, ht, p⟩ := g
  exact ⟨t, ht, h t p⟩

/-- Two facts of one answer hold of it together. -/
theorem Gives.and {c : Instr} {s : State} {P Q : State → Prop} (g : Gives c s P) (h : Gives c s Q) :
    Gives c s (fun t => P t ∧ Q t) := by
  obtain ⟨t, ht, p⟩ := g
  exact ⟨t, ht, p, h.of_next ht⟩

/-- A command that gives something is executed by the step that takes it from the queue. -/
theorem Gives.step {c : Instr} {s : State} {rest : List Instr} {P : State → Prop} (hp : s.pending = c :: rest)
    (g : Gives c { s with pending := rest } P) : ∃ t, Machine.step s = .next t ∧ P t := by
  obtain ⟨t, ht, p⟩ := g
  refine ⟨t, ?_, p⟩
  rw [Machine.step, hp]
  exact ht

end Sys2Proof.Machine
end

