-- ==== Sys2Proof/Tests/Slice0.lean ====
section
/-! SUPPORT. Tests: the spec's worked examples, an ill-formed term for every check of well-formedness, and for every claim
with hypotheses a state and operands that meet them, clause by clause. -/

open Sys2Proof Sys2Proof.Machine

namespace Sys2Proof.Tests

set_option Elab.async false

/-- A half that runs and is healthy. -/
def liveHalf : HalfState :=
  { HalfState.reset with inReset := false, beatSeen := true, beatSynced := true, bootWait := false, cold := false, synced := BitVec.allOnes 64 }
/-- Both halves run and are healthy. -/
def up : State :=
  ({ State.reset with
      trefRuns := true, halfA := liveHalf, halfB := liveHalf, orphans := 0,
      power := { Power.reset with xref := true, lfx := true } }.put 0 Reg.HLT_STAT_SYNCED 1).put 0x100000 Reg.HLT_STAT_SYNCED 1

/-- The state after a command, where it completes. -/
def after (c : Instr) (s : State) : State :=
  match exec c s with
  | .next t => t
  | _ => s

/-! ## The spec's worked examples -/

theorem test_crc16_of_digits : crc16 [0x31, 0x32, 0x33, 0x34, 0x35, 0x36, 0x37, 0x38, 0x39] = 0x29B1 := by decide +kernel

theorem test_peek_crc : crc16 [0x01, 0x0F, 0x80, 0x04, 0x02] = 0xB86F := by decide +kernel

/-- The status byte of an idle port is RDY and bit 0 (the example after R597). -/
theorem test_status_byte_idle : up.statusByte 0 = 0x41 := by decide +kernel

/-- PEEK of FAB_STAT with VALID and TSYNC sends the bytes of the example after R597. -/
theorem test_peek_of_fab_stat :
    ((after (.peek 0 (some 0x0F) 5) (((up.put oneKey Reg.FAB_STAT_VALID 1).put oneKey Reg.FAB_STAT_TSYNC 1).put oneKey
      Reg.CP_CFG_QUAD 0)).port 0).out = [0x41, 0x41, 0x80, 0x04, 0x02, 0xB8, 0x6F] := by decide +kernel

/-- READ_ID and its reply (R154, R157). -/
theorem test_talk_frames : talkFrame 1 0 = 0x1000F ∧ talkGood 0x00C17 = true ∧ crc4 0xC1 = 7 ∧ crc4 0 = 0xD := by decide +kernel

theorem test_idcode : (after .idcode up).jtag.out = 0x104005CB#32 := by decide +kernel

/-- Terminals 83 and 1,000 are the balls B12 and W5 (R673, R674); rows A, B, … without I, O, Q, S, X, Z. -/
theorem test_balls : ball 5 3 = (1, 12) ∧ ball 62 8 = (17, 5) ∧ ball 45 18 = (36, 20) ∧ ball 20 20 = (8, 36) := by
  decide +kernel

/-- The group command for Night at N = −9 (R630). -/
theorem test_pmbus_night :
    ((sendVout (profileMv .night) true (((({ up with pmbus := { Pmbus.reset with modesRead := true } }.put oneKey
      Reg.TW7_PMB_ADDR_A 0x40).put oneKey Reg.TW7_PMB_ADDR_B 0x41).put oneKey Reg.TW7_PMB_EXP_N_A 23).put oneKey
      Reg.TW7_PMB_EXP_N_B 23)).pmbus.sent)
      = [0x80, 0x21, 0x3D, 0x01, 0x82, 0x21, 0x3D, 0x01] := by decide +kernel

/-- Noon sends 0x01CD and Dusk 0x0180. -/
theorem test_vout_codes : vout 900 23 = 0x1CD ∧ vout 750 23 = 0x180 := by decide +kernel

/-- The words of the FIR example decode to its instructions, with its fields (R465, R466, R490). -/
theorem test_fir_words :
    decodeStew 0x20040 = some .mta ∧ decodeStew 0xB8020 = some .loop ∧ decodeStew 0x3A900 = some .ld
      ∧ decodeStew 0x3B180 = some .ld ∧ decodeStew 0x29101 = some .addi ∧ decodeStew 0x29981 = some .addi
      ∧ decodeStew 0x182B3 = some .mac ∧ decodeStew 0x23812 = some .rdacc ∧ isLong 0xB8020 = true
      ∧ isLong 0x20040 = false := by decide +kernel

/-- 0x4_1235 lies in window 16,677 (R568). -/
theorem test_window_of_a_word : 0x41235 ∈ windowWords 16677 := by decide +kernel

def exSet : CodeSet := { CodeSet.zero with e := 2, order := 1, sgn := true, step := 4000000000 }
def exItem (v t : Nat) : Item :=
  ⟨3092, some (BitVec.ofNat 20 v), 0, 1, 1, (1102791 + t) * 1000000000, exSet, false, false, 0⟩
def exBushel : Bushel :=
  { Bushel.reset with chan := 3092, set := exSet, k0 := 2, k := 2, acc := 64, t0 := 1102791000000000, flags0 := 1 }

/-- The body of the coding example: 2,231, 2,236, 2,240, 2,239, 2,247 at E = 2 (R331 to R341). -/
theorem test_bushel_body :
    (([exItem 2231 0, exItem 2236 4, exItem 2240 8, exItem 2239 12, exItem 2247 16].foldl Bushel.addItem
      exBushel).finish.body none) = [0xFF, 0xFF, 0xFE, 0x00, 0x03, 0x7C, 0x08, 0x20, 0x02, 0xFF, 0xFF, 0xFF, 0xE0] := by
  decide +kernel

/-- The session example of R619: the envelope of terminals 100 and 101. -/
def exTerms : Cmd :=
  ⟨0x73, 0x23, false, [0x00, 0x64, 0x0B, 0x02, 0x58, 0x10, 0x00, 0x80, 0x65, 0x32, 0x00,
    0x00, 0x65, 0x03, 0x02, 0x58, 0x10, 0x00, 0x00, 0x00, 0x00, 0x00], none⟩
def exConflict : Cmd :=
  ⟨0x73, 0x23, false, [0x00, 0x64, 0x0B, 0x02, 0x58, 0x10, 0x00, 0x80, 0x65, 0x32, 0x00,
    0x00, 0x65, 0x07, 0x02, 0x58, 0x10, 0x01, 0x00, 0x00, 0x00, 0x00], none⟩
def running (c : Cmd) (s : State) : State := s.setPort 0 { s.port 0 with exec := some c }

theorem test_envelope_example :
    (let t := after (.envTerm 0) (running exTerms up)
     t.get (envKey 100) Reg.TS_ENV_MAXD = 600 ∧ t.get (envKey 100) Reg.TS_ENV_SLEW = 16
       ∧ t.get (envKey 100) Reg.TS_ILK_DEAD = 0x32 ∧ t.flag (envKey 100) Reg.TS_ILK_ILK = true
       ∧ t.get (envKey 100) Reg.TS_ILK_PARTNER = 5 ∧ t.get (envKey 101) Reg.TS_ILK_PARTNER = 4
       ∧ t.get (envKey 101) Reg.TS_ILK_DEAD = 0x32 ∧ t.get (envKey 101) Reg.TS_ENV_MAXD = 600) := by decide +kernel

theorem test_envelope_conflict :
    (let t := after (.envTerm 0) (running exConflict up)
     (t.port 0).replies = [replyBytes exConflict St.ENVELOPE_CONFLICT [0, 1]]
       ∧ t.get (envKey 100) Reg.TS_ENV_MAXD = up.get (envKey 100) Reg.TS_ENV_MAXD) := by decide +kernel

/-- The squeeze example of R92: Half B holds 64 bays, and STEW 4,500 becomes 4,321. -/
def squeezed : State :=
  squeeze .B 0 (updateFloors .B ({ up with seats := BitVec.allOnes 64 }.setReg (halfKey .B + Reg.BG_GRANT + 32) 4500))

theorem test_squeeze_example :
    [32].map (fun p => (squeezed.reg (halfKey .B + Reg.BG_GRANT + p)).toNat)
      = [4321] := by decide +kernel

/-- An hour's cycle of the feeder example: L1 and L2 import, L3 exports, the total imports (R355), in 10⁻⁶ mWh. -/
def exCycle : FeederCycle :=
  ⟨5, ⟨40000, 48555556, 0, 51111111⟩, ⟨40000, 48555556, 0, 51111111⟩, ⟨9150, -11111111, 0, 11695906⟩⟩

theorem test_feeder_cycle :
    (let m := ({ up.meter with on := true, energy := [] } : Meter).bookFeeder exCycle
     tblGet m.energy 0 120 = 48555556 ∧ tblGet m.energy 0 126 = 11111111 ∧ tblGet m.energy 0 123 = 86000001
       ∧ tblGet m.energy 0 142 = 11695906 ∧ tblGet m.energy 0 136 = 51111111) := by decide +kernel

/-- The interrupt example after R538, SPLIT 2: in step 1 360 (level 4) pairs with S5 and 232 (level 6) with S4; in step 3 384
(level 0) with S6, which runs at 9; in step 6 114 (level 10, group 2) with none (R531). -/
theorem test_interrupt_pairs :
    pairOffers (· / 4) (fun c => if c = 360 then 4 else 6) (fun i => if i = 1 ∨ i = 0 then 16 else 9) [360, 232] [1, 0, 2, 3]
        = [(1, 360), (0, 232)]
      ∧ pairOffers (· / 4) (fun _ => 0) (fun i => if i = 2 then 9 else 6) [384] [2, 0, 3, 1] = [(2, 384)]
      ∧ pairOffers (· / 4) (fun _ => 10) (fun i => if i = 2 then 9 else 6) [114] [2, 0, 3, 1] = [] := by decide +kernel

/-- A nested acceptance reads as IC_STW 0x0_1580 (step 3), and after the next as 0x3_9529 (step 5). -/
theorem test_ic_stw_values :
    (up.setSteward 6 { Steward.reset with runPri := 0, stack := [(9, 384), (16, 1)] }).icStw 6 = 0x01580
      ∧ (up.setSteward 6 { Steward.reset with runPri := 7, stack := [(9, 297), (16, 1)] }).icStw 6 = 0x39529 := by
  decide +kernel

/-! ## Ill-formed terms -/

/-- A packet of a kind with a payload of n bytes. -/
def packetKind (kind n : Nat) : Packet := ⟨kind, 64, 3, 77, 5, 9, List.replicate n 0⟩

theorem test_ill_register_write : (Instr.registerWrite (.port 0) 0x100000 0).wf = false := by decide +kernel

theorem test_ill_watch_boundary : (Instr.watchBoundary [5, 5]).wf = false := by decide +kernel

theorem test_ill_transfer_request : (Instr.transferRequest .A 3 0 0).wf = false := by decide +kernel

theorem test_ill_calibration_payloads :
    (Instr.getId (List.replicate 65 0) true).wf = false ∧ (Instr.getParam (List.replicate 65 0) true).wf = false
      ∧ (Instr.getLog (List.replicate 65 0) true).wf = false ∧ (Instr.getEnergy (List.replicate 65 0) true).wf = false
      ∧ (Instr.setParam (List.replicate 65 0) true).wf = false
      ∧ (Instr.commitParams (List.replicate 65 0) true).wf = false
      ∧ (Instr.discardParams (List.replicate 65 0) true).wf = false := by decide +kernel

theorem test_ill_samples_frame :
    (Instr.samplesFrame 0 0 []).wf = false ∧ (Instr.samplesFrame 0 0 (List.replicate 97 0)).wf = false := by decide +kernel

/-- A packet that no frame carries: a kind beyond 8 bits, a TTL beyond 8 bits, a payload beyond 4,112 bytes. -/
theorem test_ill_packets :
    (Instr.packetTransit 0 (packetKind 256 0) .whole).wf = false
      ∧ (Instr.packetTransit 0 { packetKind 6 0 with ttl := 256 } .whole).wf = false
      ∧ (Instr.packetTransit 0 (packetKind 6 4113) .whole).wf = false := by decide +kernel

/-- A packet of another kind is none of the row's. -/
theorem test_ill_kinds :
    (Instr.replReceived 0 (packetKind 11 60) 0 0).wf = false ∧ (Instr.helloReceived 0 (packetKind 2 32)).wf = false
      ∧ (Instr.claimReceived 0 (packetKind 1 16)).wf = false ∧ (Instr.routeReceived 0 (packetKind 4 1026)).wf = false
      ∧ (Instr.alarmReceived 0 (packetKind 5 20)).wf = false ∧ (Instr.alsumReceived 0 (packetKind 4 16)).wf = false
      ∧ (Instr.cmdReceived 0 (packetKind 7 8)).wf = false ∧ (Instr.replyReceived 0 (packetKind 6 8)).wf = false
      ∧ (Instr.areqReceived 0 (packetKind 9 12) 0 0 0 0).wf = false
      ∧ (Instr.adataReceived 0 (packetKind 8 12)).wf = false
      ∧ (Instr.unreachReceived 0 (packetKind 11 8)).wf = false := by decide +kernel

/-- Nor is one of another length. -/
theorem test_ill_lengths :
    (Instr.replReceived 0 (packetKind 10 59) 0 0).wf = false ∧ (Instr.helloReceived 0 (packetKind 1 33)).wf = false
      ∧ (Instr.claimReceived 0 (packetKind 2 15)).wf = false ∧ (Instr.routeReceived 0 (packetKind 3 1025)).wf = false
      ∧ (Instr.alarmReceived 0 (packetKind 4 21)).wf = false ∧ (Instr.alsumReceived 0 (packetKind 5 15)).wf = false
      ∧ (Instr.unreachReceived 0 (packetKind 12 9)).wf = false := by decide +kernel

theorem test_ill_sync_received : (Instr.syncReceived 0 0 0 100001).wf = false := by decide +kernel

theorem test_ill_tw_transfer_done : (Instr.twTransferDone 0 0 64 (List.replicate 65 0)).wf = false := by decide +kernel

theorem test_ill_return_to_run :
    (Instr.returnToRun [⟨.A, true, 0x40000⟩]).wf = false ∧ (Instr.returnToRun [⟨.B, false, 0x80000⟩]).wf = false := by
  decide +kernel

/-- An ill-formed term is stopped by name. -/
theorem test_ill_formed_faults : exec (.transferRequest .A 3 0 0) up = .fault .illFormed := rfl

/-! ## States that meet the hypotheses of the claims: one conjunct for each clause that has hypotheses -/

/-- A command answers a state, so that the claims about every command and its next state are about something. -/
theorem meets_CommandsKeepTheQueue :
    exec .tdAgeTick { up with pending := [.pageProgram] }
      = .next (after .tdAgeTick { up with pending := [.pageProgram] }) := rfl

theorem meets_EveryStepKeepsMemoriesCanonical :
    up.memWf = true ∧ step { up with pending := [.instructionMemoryWrite .B 0x12345] }
      = .next (after (.instructionMemoryWrite .B 0x12345) up) := ⟨rfl, rfl⟩

theorem meets_MeterAndTestPortCommandsLeaveTheRest :
    (groupOf .xmetFail = .meterDie ∧ exec .xmetFail up = .next (after .xmetFail up))
      ∧ (groupOf .idcode = .testPort ∧ exec .idcode up = .next (after .idcode up)) :=
  ⟨⟨rfl, rfl⟩, rfl, rfl⟩

theorem meets_StewardInstructionsLeaveTheRest :
    (groupOf (.nop 7) = .steward ∧ exec (.nop 7) up = .next (after (.nop 7) up))
      ∧ (groupOf (.ld 7) = .stewardMemory ∧ exec (.ld 7) up = .next (after (.ld 7) up)) :=
  ⟨⟨rfl, rfl⟩, rfl, rfl⟩

theorem meets_LineCommandsLeaveTheRest :
    (groupOf (.leStart (.steward 7) 63) = .engine
        ∧ exec (.leStart (.steward 7) 63) up = .next (after (.leStart (.steward 7) 63) up))
      ∧ (groupOf (.leStop (.steward 7) 63) = .engineEnd
        ∧ exec (.leStop (.steward 7) 63) up = .next (after (.leStop (.steward 7) 63) up))
      ∧ (groupOf (.synthCalRequest (.steward 7) 7) = .synth
        ∧ exec (.synthCalRequest (.steward 7) 7) up = .next (after (.synthCalRequest (.steward 7) 7) up)) :=
  ⟨⟨rfl, rfl⟩, ⟨rfl, rfl⟩, rfl, rfl⟩

theorem meets_SamplingAndCodingCommandsLeaveTheRest :
    (groupOf (.pollInstant 63) = .sampling ∧ exec (.pollInstant 63) up = .next (after (.pollInstant 63) up))
      ∧ (groupOf (.sealDeadline .B 16511) = .coding
        ∧ exec (.sealDeadline .B 16511) up = .next (after (.sealDeadline .B 16511) up)) :=
  ⟨⟨rfl, rfl⟩, rfl, rfl⟩

theorem meets_ArchiveAndBusCommandsLeaveTheRest :
    (groupOf .pageProgram = .archive ∧ exec .pageProgram up = .next (after .pageProgram up))
      ∧ (groupOf (.twBusStop 7) = .twoWire ∧ exec (.twBusStop 7) up = .next (after (.twBusStop 7) up)) :=
  ⟨⟨rfl, rfl⟩, rfl, rfl⟩

theorem meets_FabricAndPortCommandsLeaveTheRest :
    (groupOf .rootExpiry = .fabric ∧ exec .rootExpiry up = .next (after .rootExpiry up))
      ∧ (groupOf (.cmdNop 2) = .port ∧ exec (.cmdNop 2) up = .next (after (.cmdNop 2) up)) :=
  ⟨⟨rfl, rfl⟩, rfl, rfl⟩

theorem meets_TerminalAndTimebaseCommandsLeaveTheRest :
    (groupOf .tdAgeTick = .terminal ∧ exec .tdAgeTick up = .next (after .tdAgeTick up))
      ∧ (groupOf (.softwareEvent 0xFF) = .timebase
        ∧ exec (.softwareEvent 0xFF) up = .next (after (.softwareEvent 0xFF) up))
      ∧ (groupOf (.lendRelease .B) = .budget ∧ exec (.lendRelease .B) up = .next (after (.lendRelease .B) up)) :=
  ⟨⟨rfl, rfl⟩, ⟨rfl, rfl⟩, rfl, rfl⟩

theorem meets_AnEmptyQueueTicksTheClock :
    (up.pending = [] ∧ up.power.vaon = true ∧ up.power.mode = .run ∧ up.trefRuns = true)
      ∧ ((fun s : State => s.pending = [] ∧ (s.power.vaon = false ∨ s.power.mode = .off))
        { up with power := { up.power with mode := .off } }) := by decide +kernel

theorem meets_OnlyTheirCommandsChangeFusesAndFlash :
    (exec .idcode up = .next (after .idcode up) ∧ changesOtp .idcode = false)
      ∧ (exec (.otpDbgoff 0) up = .next (after (.otpDbgoff 0) up))
      ∧ (exec .idcode up = .next (after .idcode up) ∧ ∀ (f : Fin 2) (reads : Bool), Instr.idcode ≠ .flashOperationDone f reads) :=
  ⟨⟨rfl, rfl⟩, rfl, rfl, fun _ _ h => by cases h⟩

theorem meets_TheMainDieCannotReachTheMeasurement :
    (exec (.tdAgeTick) up = .next (after .tdAgeTick up) ∧ groupOf .tdAgeTick ≠ .meterDie)
      ∧ (exec (.metTariff .good) up = .next (after (.metTariff .good) up) ∧ linkCommand (.metTariff .good) = true) :=
  ⟨⟨rfl, by decide⟩, rfl, rfl⟩

namespace S02

def phs : State := { (((up.setReg (tbKey 63 + Reg.TB_COUNT) (BitVec.ofNat 20 (up.tbPhase 63 15))).put (tbKey 63) Reg.TB_CTL_EN 1)) with seats := 0 }

theorem meets_HealthCommandsTakeEffect :
    ((fun (h : Half) (q : BitVec 8) (s : State) => s.computes h = true ∧
      q.toNat = s.get (halfKey h) Reg.HLT_WATCH_SEQ) .B 0 up) ∧
    ((fun (h : Half) (q : BitVec 8) (s : State) => q.toNat ≠ s.get (halfKey h) Reg.HLT_WATCH_SEQ) .A 1 up) ∧
    ((fun (h : Half) (s : State) => s.computes h = true ∧ (s.half h).yielded = false) .A up) ∧
    ((fun (s : State) => s.mayYield .A = true ∧ s.mayYield .B = true) up) ∧
    ((fun (key : Word) => key ≠ 0x0FA17) 0x0FA16) ∧
    ((fun (s : State) => s.referee.question ≠ []) ({ up with referee := { up.referee with question := [5] } })) ∧
    ((fun (s : State) => s.referee.question ≠ []) ({ up with referee := { up.referee with question := [40] } })) ∧
    ((fun (h : Half) (s : State) => (s.half h).yielded = false ∧ (s.half h).supplyOk = true ∧
      s.power.mode = .run) .A ({ up with halfA := { liveHalf with inReset := true } })) ∧
    ((fun (s : State) => s.halfA.supplyOk = true ∧ s.halfB.supplyOk = true ∧ s.halfA.yielded = false ∧
      s.halfB.yielded = false ∧ s.power.mode = .run) up) ∧
    ((fun (h : Half) (s : State) => (s.half h).inReset = true ∧ (s.half h).held = false ∧ s.trefRuns = true ∧
      s.power.vaon = true ∧ s.power.resetLow = false ∧ s.power.mode = .run ∧
      s.power.testN = true) .A ({ up with halfA := HalfState.reset })) ∧
    ((fun (h : Half) (s : State) => s.computes h = true ∧ (s.half h).yielded = true) .A
      ({ up with halfA := { liveHalf with yielded := true } })) ∧
    ((fun (h : Half) (s : State) => s.computes h = true ∧ (s.half h).bootWait = true) .B
      ({ up with halfB := { liveHalf with bootWait := true, beatSeen := false } })) := by
  refine ⟨?_, ?_, ?_, ?_, ?_, ?_, ?_, ?_, ?_, ?_, ?_, ?_⟩ <;> decide +kernel

theorem meets_SeatRequestsAreAnswered :
    ((fun (k : Fin 8) (b : Fin 64) (s : State) => s.coincides (.steward k) = false ∧
      s.holder b.val = stewHalf k.val ∧ s.healthy (stewHalf k.val).other = true) 0 31 up) ∧
    ((fun (k : Fin 8) (b : Fin 64) (s : State) => s.coincides (.steward k) = false ∧
      s.holder b.val = stewHalf k.val ∧ s.healthy (stewHalf k.val).other = false) 7 32
      ({ up with halfA := HalfState.reset })) ∧
    ((fun (k : Fin 8) (b : Fin 64) (s : State) => s.coincides (.steward k) = false ∧
      s.holder b.val ≠ stewHalf k.val) 3 63 up) ∧
    ((fun (k : Fin 8) (s : State) => s.coincides (.steward k) = true) 3
      ({ up with halfA := { liveHalf with yielded := true } })) ∧
    ((fun (k : Fin 8) (b : Fin 64) (s : State) => s.coincides (.steward k) = false ∧
      s.holder b.val = stewHalf k.val) 0 0 up) ∧
    ((fun (k : Fin 8) (b : Fin 64) (s : State) => s.holder b.val ≠ stewHalf k.val ∧ s.orphaned b.val = true ∧
      s.healthy (stewHalf k.val) = true) 4 31 ({ up with halfA := HalfState.reset })) ∧
    ((fun (k : Fin 8) (b : Fin 64) (s : State) => s.coincides (.steward k) = false ∧
      s.holder b.val ≠ stewHalf k.val ∧ (s.orphaned b.val = false ∨ s.healthy (stewHalf k.val) = false)) 4 0 up) ∧
    ((fun (k : Fin 8) (s : State) => s.coincides (.steward k) = true) 3
      ({ up with halfA := { liveHalf with yielded := true } })) ∧
    ((fun (h : Half) (s : State) => s.computes h = true ∧ (s.half h).yielded = false ∧
      s.healthy h.other = false) .A ({ up with halfA := { liveHalf with synced := 0 }, halfB := HalfState.reset })) ∧
    ((fun (n : Fin 1024) (s : State) => s.onPhase n.val = true ∧ s.livePath n.val ≠ s.holder (n.val / 16) ∧
      (∀ r : TalkReq, (s.slot (s.livePath n.val) n.val).talk = some r → r.running = false)) 1023 phs) := by
  refine ⟨?_, ?_, ?_, ?_, ?_, ?_, ?_, ?_, ?_, ?_⟩ <;> decide +kernel

theorem meets_BudgetCommandsTakeEffect :
    ((fun (h : Half) (a : Fin 16) (r : Fin 4) (hold : Nat) (s : State) => a.val < 12 ∧ 0 < hold ∧
      s.computes h = true ∧ (∀ w ∈ (s.budget h).waiting, w.1 ≠ 4 * a.val + r.val) ∧
      (a.val < 3 ∨ 200 ≤ s.unspent h (4 * a.val + r.val))) .A 0 3 200 up) ∧
    ((fun (h : Half) (a : Fin 16) (r : Fin 4) (hold : Nat) (s : State) => 0 < hold ∧ s.computes h = true ∧
      s.neverWithheld h (4 * a.val + r.val) = false ∧ s.unspent h (4 * a.val + r.val) < 200 ∧
      tblGet (s.budget h).pool 0 r.val = 0) .A 11 1 1 up) ∧
    ((fun (h : Half) (a : Fin 16) (r : Fin 4) (hold : Nat) (since : Nat) (rest : List (Nat × Nat × Nat)) (s : State)
      => a.val < 12 ∧ (s.budget h).waiting = (4 * a.val + r.val, hold, since) :: rest ∧
      200 ≤ s.unspent h (4 * a.val + r.val) ∧ s.router.inject = []) .A 11 0 7 3 ([]) (up.setBudget .A
      { up.budget .A with waiting := [(44, 7, 3)] })) ∧
    ((fun (h : Half) (s : State) => s.computes h = true ∧ s.trefRuns = true ∧
      s.get (halfKey h) Reg.BG_CTL_LATE ≠ 0) .A up) ∧
    ((fun (h : Half) (s : State) => s.computes h = true) .A up) ∧
    ((fun (h : Half) (us : Word) (s : State) => s.computes h = true ∧ 250 ≤ us.toNat ∧ us.toNat ≤ 10000) .A 250 up) ∧
    ((fun (h : Half) (us : Word) (s : State) => s.computes h = true ∧ (us.toNat < 250 ∨ (10000 < us.toNat ∧
      us.toNat < 16384))) .A 10001 up) ∧
    ((fun (bays : List (Fin 64)) (h : Half) (s : State) => bays.Nodup ∧ s.trefRuns = true ∧
      s.computes h = true) ([0, 63]) .B up) := by
  refine ⟨?_, ?_, ?_, ?_, ?_, ?_, ?_, ?_⟩ <;> decide +kernel

theorem meets_ProfileChangesAndRegisterWrites :
    ((fun (m : Master) (p : BitVec 2) (s : State) => s.blockWriteOk m (blkTw 7) = true ∧ p.toNat < 3 ∧
      profileOf p.toNat ≠ s.profile ∧ s.flag (halfKey (s.runner (blkTw 7))) Reg.PRF_STAT_BUSY = false ∧
      s.flag oneKey Reg.TW7_PMB_EN = true ∧ (knowModes s).flag oneKey Reg.TW7_PMB_BADMODE = false) (.steward 0) 2
      ({ up.put oneKey Reg.TW7_PMB_EN 1 with pmbus := { up.pmbus with modesRead := true } })) ∧
    ((fun (p : Profile) (a : BitVec 16) (b : BitVec 16) (s : State) => s.profileTarget = some p ∧
      s.voutsNear (some a) (some b) (profileMv p) = true) .night 317 317
      ({ (up.put oneKey Reg.TW7_PMB_EXP_N_A 23).put oneKey Reg.TW7_PMB_EXP_N_B 23 with profileTarget := some .night })) ∧
    ((fun (s : State) => s.profileTarget.isSome = true) ({ up with profileTarget := some .night })) ∧
    ((fun (k : Fin 8) (p : Fin 32) (s : State) => s.runner (blkGp p.val) ≠ stewHalf k.val) 0 31 up) := by
  refine ⟨?_, ?_, ?_, ?_⟩ <;> decide +kernel

end S02

namespace S03

def gt0 : State := (((up.put (tbKey 128) Reg.TB_CTL_EN 1).setReg (tbKey 128 + Reg.TB_COUNT) 0xFFFFF).setTimebase 128
  { Timebase.reset with left := 1, stagedPre := some 5, stagedPer := some 7, due := true }).put (tbKey 129)
  Reg.TB_CTL_SRC 2
def bay5 : State := ((up.put (tbKey 69) Reg.TB_CTL_EN 1).setReg (tbKey 69 + Reg.TB_COUNT) 0x1387F).setTimebase 69
  { Timebase.reset with due := true }
def gpl : State := ((gt0.put (tbKey 128) Reg.TB_CTL_SRC 3).setReg (tbKey 128 + Reg.TB_COUNT) 0)
def sl : State := { gpl with power := { gpl.power with mode := .sleep }, trefRuns := false }
def cmpS : State := ((up.put (tbKey 5) Reg.TB_CTL_EN 1).put (tbKey 5) Reg.TB_STAT_ARMED 1).setTimebase 5
  { Timebase.reset with ticked := true }
def capS : State := ((up.put (capKey 5 1) Reg.TB_CAP_CFG_EN 1).setReg (tbKey 5 + Reg.TB_COUNT) 9).setReg (capKey 5 1
  + Reg.TB_CAP_RISE) 79999

theorem meets_TimebasesCountAndStage :
    ((fun (u : TbUnit) (i : Nat) (s : State) => i ∈ s.tbCopies u ∧ (s.timebase i).due = true ∧
      (s.timebase i).overdue = 0) (.gt 0) 128 gt0) ∧
    ((fun (m : Master) (u : TbUnit) (i : Nat) (v : Word) (s : State) => i ∈ s.tbCopies u ∧ s.tbWriteOk m u = true ∧
      s.tbEn i = true ∧ v ≠ 1) (.steward 0) (.gt 0) 128 0 gt0) ∧
    ((fun (m : Master) (u : TbUnit) (i : Nat) (s : State) => i ∈ s.tbCopies u ∧
      s.tbWriteOk m u = true) (.port 1) (.bay 63) 127 up) ∧
    ((fun (m : Master) (u : TbUnit) (i : Nat) (s : State) => i ∈ s.tbCopies u ∧ s.tbWriteOk m u = true ∧
      s.tbEn i = false) (.port 1) (.bay 63) 127 up) ∧
    ((fun (g : Fin 8) (s : State) => g.val < 7 ∧ s.tbSrc (129 + g.val) = 2) 0 gt0) ∧
    ((fun (g : Fin 8) (s : State) => s.power.mode = .sleep ∧ s.tbRuns (128 + g.val) = true ∧
      s.tbSrc (128 + g.val) = 3 ∧ (s.timebase (128 + g.val)).left = 1 ∧
      s.tbCount (128 + g.val) + 1 ≠ s.tbModulus (128 + g.val)) 0 sl) := by
  refine ⟨?_, ?_, ?_, ?_, ?_, ?_⟩ <;> decide +kernel

theorem meets_ComparesCapturesAndPins :
    ((fun (m : Master) (u : TbUnit) (i : Nat) (s : State) => i ∈ s.tbCopies u ∧
      s.tbWriteOk m u = true) (.steward 0) (.bay 0) 64 up) ∧
    ((fun (u : TbUnit) (i : Nat) (s : State) => i ∈ s.tbCopies u ∧ s.tbRuns i = true ∧ s.tbMatches i = true ∧
      (s.timebase i).ticked = true ∧ s.flag (tbKey i) Reg.TB_CTL_CMP_AUTO = false) (.bay 5) 5 cmpS) ∧
    ((fun (u : TbUnit) (i : Nat) (c : Fin 2) (rise : Bool) (s : State) => i ∈ s.tbCopies u ∧ s.pinsSampled = true ∧
      (c.val = 1 → s.flag (capKey i 1) Reg.TB_CAP_CFG_SEL = false) ∧
      s.flag (capKey i c.val) Reg.TB_CAP_CFG_EN = true ∧ rise ≠ s.flag (capKey i c.val) Reg.TB_CAP_CFG_POL) (.bay 5)
      5 1 true capS) ∧
    ((fun (u : TbUnit) (i : Nat) (c : Fin 2) (rise : Bool) (s : State) => i ∈ s.tbCopies u ∧ s.pinsSampled = true ∧
      (c.val = 1 → s.flag (capKey i 1) Reg.TB_CAP_CFG_SEL = false) ∧
      s.flag (capKey i c.val) Reg.TB_CAP_CFG_EN = true ∧ rise = s.flag (capKey i c.val) Reg.TB_CAP_CFG_POL ∧
      (s.timebase i).risen c.val = true ∧ (s.reg (capKey i c.val + Reg.TB_CAP_RISE)).toNat < s.tbModulus i ∧
      s.tbCount i < s.tbModulus i) (.bay 5) 5 1 false (capS.setTimebase 5 ((capS.timebase 5).setRisen 1 true))) ∧
    ((fun (s : State) => s.pinsSampled = false)
      ({ up with trefRuns := false, power := { up.power with mode := .deep } })) ∧
    ((fun (s : State) => s.pinsSampled = true) (up.put (oneKey + 31) Reg.GP_CFG_IEDGE 1)) := by
  refine ⟨?_, ?_, ?_, ?_, ?_, ?_⟩ <;> decide +kernel

end S03

namespace S05

def n0 : Fin 1024 := 1023
def tm : State := (((up.put (tbKey 127) Reg.TB_CTL_EN 1).setReg (tbKey 127 + Reg.TB_COUNT) 75000).put (termKey .B
  1023) Reg.TS_CTL_EN 1).setReg (termKey .B 1023 + Reg.TS_ON) 50000
def tmE : State := tm.put (envKey 1023) Reg.TS_ENV_MAXD 500
def due : State := tmE.setSlot .B 1023 { Slot.reset with riseDue := true, applied := 40000 }
def ilk : State := ((due.put (envKey 1023) Reg.TS_ILK_ILK 1).put (envKey 1023) Reg.TS_ILK_PARTNER 0).setPad 1008
  { Pad.reset with level := .on }
def at_ (n : Nat) (s : State) : State := { s with tref := n }
def onn : State := at_ 100 (due.setPad 1023 { Pad.reset with level := .on, armed := true })
def fal : State := ((onn.setSlot .B 1023
  { (onn.slot .B 1023) with drive := true, sample := some (2368, false, 77) }).setReg (tbKey 127 + Reg.TB_COUNT)
  35000).setTimebase 127 { Timebase.reset with tickAt := 100 }
def tel : State := at_ 150 (fal.setSlot .B 1023 { (fal.slot .B 1023) with telReq := some (0, 200), sample := none })
def rq : TalkReq := ⟨1, 0, false, 0, 0, false, 0, false, false, false, none, none⟩
def tk : State := tm.setSlot .B 1023 { Slot.reset with talk := some rq }
def tkr : State := tm.setSlot .B 1023
  { Slot.reset with talk := some { rq with running := true, turnaround := some 448 } }

theorem meets_PulsesAndSamplesTakeEffect :
    ((fun (h : Half) (n : Fin 1024) (s : State) => s.computes h = true ∧ s.atPeriodStart h n.val = true ∧
      s.flag (termKey h n.val) Reg.TS_CTL_EN = true ∧ s.flag (termKey h n.val) Reg.TS_STAT_TRIP = false ∧
      (s.slot h n.val).talk = none ∧ (s.slot h n.val).talkAt = none ∧ (s.slot h n.val).repay = .none ∧
      (s.slot h n.val).drive = false ∧ s.get (envKey n.val) Reg.TS_ENV_SLEW = 0 ∧ s.piv h n.val = 0) .B 1023 tmE) ∧
    ((fun (n : Fin 1024) (s : State) => s.computes (s.livePath n.val) = true ∧ s.orphaned (n.val / 16) = false ∧
      s.riseNow (s.livePath n.val) n.val = true ∧ s.interlocked n.val = false ∧ s.lowerRises n.val = false ∧
      s.power.vaon = true ∧ s.power.xref = true ∧ s.scanDrives = false ∧ (s.pad n.val).latch = none ∧
      (s.pad n.val).cut = false) 1023 due) ∧
    ((fun (h : Half) (n : Fin 1024) (s : State) => s.computes h = true ∧ s.riseNow h n.val = true ∧
      s.interlocked n.val = true) .B 1023 ilk) ∧
    ((fun (n : Fin 1024) (s : State) => (s.pad n.val).level = .on ∧ (s.pad n.val).riseAt + 100 ≤ s.tref) 1023 onn) ∧
    ((fun (h : Half) (n : Fin 1024) (code : Nat) (at_ : Nat) (bad : Bool) (s : State) => s.computes h = true ∧
      s.fallNow h n.val = true ∧ (s.slot h n.val).sample = some (code, bad, at_)) .B 1023 2368 77 false fal) ∧
    ((fun (h : Half) (b : Fin 64) (c : Nat) (s : State) => s.sarCycle = some c ∧ c % 8 = 0 ∧
      (s.sar b.val).done ≠ some s.onTref ∧ s.computes h = true) .B 63 8 (at_ 850 up)) ∧
    ((fun (h : Half) (b : Fin 64) (n : Nat) (c : Nat) (s : State) => s.sarCycle = some c ∧ c % 4 ≠ 0 ∧
      (s.sar b.val).done ≠ some s.onTref ∧ s.computes h = true ∧
      (∀ k : Nat, k < 16 → s.turnaroundDue h (16 * b.val + k) = false) ∧
      s.earliest h b.val = some (n, false)) .B 63 1023 1 tel) ∧
    ((fun (h : Half) (b : Fin 64) (k : Fin 18) (code : BitVec 12) (c : Nat) (s : State) => s.sarCycle = some c ∧
      c % 4 ≠ 0 ∧ (s.sar b.val).done ≠ some s.onTref ∧ s.readbackDue b.val k.val = true ∧
      (∀ g : Half, s.computes g = true → s.cycleTaken g b.val = false) ∧ s.computes h = true ∧ k.val < 16 ∧
      (code.toNat + 32 < 16 * s.thresholdCode (16 * b.val + k.val) ∨ 16 * s.thresholdCode (16 * b.val + k.val) + 32
      < code.toNat)) .B 63 15 4095 20001 (at_ 2000150 up)) ∧
    ((fun (h : Half) (b : Fin 64) (k : Fin 18) (s : State) => s.readbackStale b.val k.val = true ∧
      s.computes h = true ∧ k.val < 16) .B 63 15 (at_ 20000000 up)) ∧
    ((fun (h : Half) (s : State) => s.computes h = true) .B up) ∧
    ((fun (h : Half) (n : Fin 1024) (s : State) => s.computes h = true ∧
      s.reg (ageKey h n.val) ≠ 0xFFFFF) .B 1023 (up.setReg (ageKey .B 1023) 0xFFFFE)) := 
  ⟨by decide +kernel, by decide +kernel, by decide +kernel, by decide +kernel, by decide +kernel, by decide +kernel, by decide +kernel, ⟨by decide +kernel, by decide +kernel, by decide +kernel, by decide +kernel, fun g _ => by cases g <;> decide +kernel, by decide +kernel, by decide +kernel, by decide +kernel⟩, by decide +kernel, by decide +kernel, by decide +kernel⟩

theorem meets_TripsAndTalkTakeEffect :
    ((fun (h : Half) (n : Fin 1024) (s : State) => s.computes h = true ∧ (s.pad n.val).armed = true ∧
      (s.pad n.val).level = .on) .B 1023 onn) ∧
    ((fun (m : Master) (h : Half) (n : Fin 1024) (s : State) => s.computes h = true ∧
      s.bayWriteOk m (n.val / 16) = true) (.steward 4) .B 1023 onn) ∧
    ((fun (m : Master) (h : Half) (n : Fin 1024) (op : BitVec 4) (s : State) => s.computes h = true ∧
      s.bayWriteOk m (n.val / 16) = true ∧ op ≠ 5 ∧ (s.slot h n.val).talk = none) (.steward 4) .A 1023 15 up) ∧
    ((fun (m : Master) (h : Half) (n : Fin 1024) (op : BitVec 4) (s : State) => s.computes h = true ∧
      s.bayWriteOk m (n.val / 16) = true ∧ op ≠ 5 ∧ (s.slot h n.val).talk.isSome = true) (.port 0) .B 1023 4 tk) ∧
    ((fun (k : Fin 8) (h : Half) (n : Fin 1024) (s : State) => s.computes h = true ∧
      s.holder (n.val / 16) = stewHalf k.val) 4 .B 1023 up) ∧
    ((fun (p : Fin 3) (h : Half) (n : Fin 1024) (s : State) => s.computes h = true ∧
      s.bayWriteOk (.port p) (n.val / 16) = true) 0 .B 1023 up) ∧
    ((fun (m : Master) (h : Half) (n : Fin 1024) (r : TalkReq) (s : State) => s.computes h = true ∧
      s.bayWriteOk m (n.val / 16) = true ∧ (s.slot h n.val).talk = some r ∧
      r.running = false) (.steward 7) .B 1023 rq tk) ∧
    ((fun (n : Fin 1024) (r : TalkReq) (s : State) => s.computes (s.livePath n.val) = true ∧
      s.talkWindow (s.livePath n.val) n.val = true ∧ (s.slot (s.livePath n.val) n.val).talk = some r) 1023 rq (at_
      1000000 tk)) ∧
    ((fun (h : Half) (n : Fin 1024) (r : TalkReq) (c : Nat) (reply : Word) (s : State) => s.computes h = true ∧
      (s.slot h n.val).talk = some r ∧ s.talkOver h n.val = true ∧ r.turnaround = some c ∧ 448 ≤ c ∧ c ≤ 1088 ∧
      talkGood reply = true ∧ bits reply 19 16 = 0) .B 1023 ({ rq with running := true, turnaround := some 448 })
      448 0x00C17 (at_ 9600 tkr)) ∧
    ((fun (h : Half) (n : Fin 1024) (r : TalkReq) (s : State) => s.computes h = true ∧
      (s.slot h n.val).talk = some r ∧ r.running = false ∧ r.marked = false ∧ r.accepted + 200000000 ≤ s.onTref ∧
      s.canBorrow h n.val = false) .B 1023 rq (at_ 200000000 (tk.put (termKey .B 1023) Reg.TS_CTL_BORROW 0))) ∧
    ((fun (h : Half) (n : Fin 1024) (r : TalkReq) (s : State) => s.computes h = true ∧
      (s.slot h n.val).talk = some r ∧ r.running = false ∧ r.marked = false ∧ r.accepted + 200000000 ≤ s.onTref ∧
      s.canBorrow h n.val = true) .B 1023 rq (at_ 200000000 tk)) := by
  refine ⟨?_, ?_, ?_, ?_, ?_, ?_, ?_, ?_, ?_, ?_, ?_⟩ <;> decide +kernel

end S05

namespace S07

def ev (off : Nat) : Nat := bayKey .A 63 + off
def enB : State := [Half.A, .B].foldl (fun s h => (s.put (bayKey h 63) Reg.LN_CFG_EN 1).put (bayKey h 63)
  Reg.LE_CFG_FE 1) (up.put (padKey 63) Reg.LN_ENV_TXMAX 200)
def pw : State := (enB.put (padKey 63) Reg.LN_ENV_PWR_EN 1).put (padKey 63) Reg.LN_ENV_PWR_SLOT 15
def bl : State := { pw with lineBlanked := BitVec.twoPow 64 63, tref := 5100000 }
def trp : State := (enB.put (bayKey .A 63) Reg.LN_STAT_VTRIP 1).put (bayKey .A 63) Reg.LN_STAT_ITRIP 1
def ent : TxEntry := { TxEntry.reset with id := 0x1050, len := 2, busy := true }
def wt : State := (((enB.setLine .B 63 ((Line.reset).setEntry 7 { ent with settle := 40001 })).setEngine .B 63
  { Engine.reset with mode := .idle, waiting := some 0 })) 
def wt2 : State := { wt with progs := tblSet wt.progs 0 (progIx .B 63 0 0) 0xD8000000 }
def sofS : State := enB.setLine .B 63 { (Line.reset).setEntry 7 ent with attempt := some 7, sof := true }
def syn (x : Synth) : State := enB.setSynth 7 x
def lk : Synth := { Synth.reset with mode := .locked, calibrated := true, freq := 132 }

theorem meets_LineTripsAndQueueTakeEffect :
    ((fun (h : Half) (s : State) => s.computes h = true) .B sofS) ∧
    ((fun (h : Half) (b : Fin 64) (n : Nat) (s : State) => s.computes h = true ∧
      s.lineBlanked.getLsbD b.val = false ∧ s.flag (padKey b.val) Reg.LN_ENV_PWR_EN = true ∧
      s.powerSlot b.val = n) .B 63 1023 pw) ∧
    ((fun (b : Fin 64) (s : State) => s.lineBlanked.getLsbD b.val = true ∧
      s.blankOver b.val = false) 63 ({ bl with tref := 0 })) ∧
    ((fun (h : Half) (b : Fin 64) (s : State) => s.computes h = true ∧ s.lineBlanked.getLsbD b.val = true ∧
      s.blankOver b.val = true) .B 63 bl) ∧
    ((fun (b : Fin 64) (s : State) => s.lineBlanked.getLsbD b.val = true ∧ s.blankOver b.val = true) 63 bl) ∧
    ((fun (h : Half) (m : Master) (b : Fin 64) (s : State) => s.computes h = true ∧
      s.bayWriteOk m b.val = true) .A (.steward 7) 63 trp) ∧
    ((fun (h : Half) (b : Fin 64) (e : Nat) (s : State) => s.computes h = true ∧ s.leTurn h b.val = some e ∧ e < 8 ∧
      (40000 < ((s.line h b.val).entry e).settle ∨ 500000 < ((s.line h b.val).entry e).cal)) .B 63 7 wt2) ∧
    ((fun (h : Half) (m : Master) (b : Fin 64) (a : Nat) (s : State) => s.computes h = true ∧
      s.bayWriteOk m b.val = true ∧ a = s.get (bayKey h b.val) Reg.LN_TXA_ADDR ∧
      ((s.line h b.val).entry (a / 32)).busy = false) .B (.steward 4) 63 255 ((enB.put (bayKey .B 63)
      Reg.LN_TXA_ADDR 255))) ∧
    ((fun (h : Half) (m : Master) (b : Fin 64) (s : State) => s.computes h = true ∧ s.bayWriteOk m b.val = true ∧
      ((s.line h b.val).entry (s.get (bayKey h b.val) Reg.LN_TXA_ADDR / 32)).busy = true) .B (.steward 4) 63
      (((sofS).put (bayKey .B 63) Reg.LN_TXA_ADDR 255))) ∧
    ((fun (h : Half) (m : Master) (b : Fin 64) (id : BitVec 16) (e : Nat) (s : State) => s.computes h = true ∧
      s.bayWriteOk m b.val = true ∧ e = s.get (bayKey h b.val) Reg.LN_TXC_ENTRY ∧
      s.submitStatus h b.val id.toNat = St.OK) .A (.steward 4) 63 0xFFE0 0 enB) ∧
    ((fun (h : Half) (m : Master) (b : Fin 64) (id : BitVec 16) (s : State) => s.computes h = true ∧
      s.bayWriteOk m b.val = true ∧ s.submitStatus h b.val id.toNat ≠ St.OK) .A (.steward 4) 63 0xFFF0 enB) ∧
    ((fun (h : Half) (m : Master) (b : Fin 64) (mask : BitVec 8) (e : Nat) (s : State) => s.computes h = true ∧
      s.bayWriteOk m b.val = true ∧ mask.getLsbD e = true ∧ ((s.line h b.val).entry e).busy = true) .B (.port 0) 63
      0xFF 7 sofS) ∧
    ((fun (h : Half) (m : Master) (b : Fin 64) (s : State) => s.computes h = true ∧ s.bayWriteOk m b.val = true ∧
      s.flag (bayKey h b.val) Reg.LN_CFG_EN = true) .B (.port 2) 63 wt) ∧
    ((fun (h : Half) (m : Master) (b : Fin 64) (s : State) => s.computes h = true ∧
      s.bayWriteOk m b.val = true) .B (.port 2) 63 (enB.setLine .B 63
      { Line.reset with fifo := [⟨1, false, false, false, [], 0⟩] })) ∧
    ((fun (h : Half) (m : Master) (b : Fin 64) (s : State) => s.computes h = true ∧
      s.bayWriteOk m b.val = true) .B (.port 2) 63 ((enB.put (bayKey .B 63) Reg.LN_RXA_ADDR 31))) := by
  refine ⟨?_, ?_, ?_, ?_, ?_, ?_, ?_, ?_, ?_, ?_, ?_, ?_, ?_, ?_, ?_⟩ <;> decide +kernel

theorem meets_SynthesisersTakeTheirStates :
    ((fun (h : Half) (m : Master) (j : Fin 8) (freq : BitVec 9) (s : State) => s.computes h = true ∧
      s.bayWriteOk m (8 * j.val) = true ∧ (freq.toNat < 95 ∨ 480 < freq.toNat)) .B (.port 2) 7 481 (syn lk)) ∧
    ((fun (h : Half) (m : Master) (j : Fin 8) (freq : BitVec 9) (s : State) => s.computes h = true ∧
      s.bayWriteOk m (8 * j.val) = true ∧ 95 ≤ freq.toNat ∧ freq.toNat ≤ 480) .B (.port 2) 7 480 (syn lk)) ∧
    ((fun (m : Master) (j : Fin 8) (s : State) => s.bayWriteOk m (8 * j.val) = true) (.port 2) 7 (syn lk)) ∧
    ((fun (j : Fin 8) (s : State) => s.octetQuiet j.val = true ∧ (s.synth j.val).mode = .locked ∧
      (s.synth j.val).gated = true ∧ (s.synth j.val).staged = none) 7 (syn {lk with pendFreq := some 99})) ∧
    ((fun (h : Half) (j : Fin 8) (s : State) => s.computes h = true ∧ (s.synth j.val).mode = .cal ∧
      (s.synth j.val).staged = none) .B 7 ((syn {lk with mode := .cal}).put (bayKey .B 56) Reg.LS_TEMP_NOW 90)) ∧
    ((fun (h : Half) (j : Fin 8) (s : State) => s.computes h = true ∧
      (s.synth j.val).mode = .cal) .B 7 (syn {lk with mode := .cal, staged := some 480})) ∧
    ((fun (j : Fin 8) (s : State) => (s.synth j.val).mode = .settle ∧ (s.synth j.val).staged = none ∧
      (s.synth j.val).pendFreq = none ∧ (s.synth j.val).heldCal = false) 7 (syn {lk with mode := .settle})) ∧
    ((fun (h : Half) (j : Fin 8) (s : State) => s.computes h = true ∧ (s.synth j.val).mode = .locked) .B 7 (syn lk)) ∧
    ((fun (j : Fin 8) (s : State) => (s.synth j.val).mode = .stopped ∧ (s.synth j.val).failed = true ∧
      s.octetEnabled j.val = true) 7 (syn {lk with mode := .stopped, failed := true})) ∧
    ((fun (h : Half) (j : Fin 8) (s : State) => s.computes h = true ∧ s.holder (8 * j.val) = h) .B 7 (syn lk)) := by
  refine ⟨?_, ?_, ?_, ?_, ?_, ?_, ?_, ?_, ?_, ?_⟩ <;> decide +kernel

end S07

namespace S08

def enB : State := [Half.A, .B].foldl (fun s h => (s.put (bayKey h 63) Reg.LN_CFG_EN 1).put (bayKey h 63)
  Reg.LE_CFG_FE 1) (up.put (padKey 63) Reg.LN_ENV_TXMAX 200)
def eng : Engine := { Engine.reset with mode := .active, pc := 255, cells := [(7, 0xFFFF)], links := [254], rsr := 0x12345678, assembly := some ⟨5, 0, List.replicate 63 1, 77, 9, false⟩, crc := 0x81 }
def ent : TxEntry := { TxEntry.reset with id := 0x1050, len := 2, busy := true, retry := 3, tries := 3 }
/-- The word at the PC of both copies of bay 63's engine. -/
def at_ (w : BitVec 32) (e : Engine) (s : State) : State :=
  [Half.A, .B].foldl (fun s h => { s.setEngine h 63 e with progs := tblSet s.progs 0 (progIx h 63 0 e.pc) w }) s
def w (w : BitVec 32) : State := at_ w eng enB
def ln (l : Line) (s : State) : State := [Half.A, .B].foldl (fun s h => s.setLine h 63 l) s
def tx : Line := { (Line.reset).setEntry 7 ent with attempt := some 7, sof := true }
def txb : Line := { tx with buf := [(64 * 7, 0xAB), (64*7+1, 0xCD)] }
def bt (b : Option (Nat × Nat)) (w : BitVec 32) : State :=
  { at_ w { eng with bit := b, edge := some (900, 5000), edgeF := true } enB with tref := 1000 }
def wtg (w : BitVec 32) (e : Bool) : State :=
  { at_ w { eng with waiting := some 600, mode := .idle, edgeF := e } enB with tref := 1000 }
def fin (w : BitVec 32) : State := ln tx (at_ w { eng with attempt := true } enB)
def asm : Assembly := ⟨5, 0, List.replicate 63 1, 77, 9, false⟩
def finA (w : BitVec 32) : State := (fin w).setEngine .B 63 { (fin w).engine .B 63 with assembly := some asm }
def stp : State := at_ 0x6E00ABCD { eng with mode := .stopped } enB
def hlt : State := at_ 0x6E00ABCD { eng with mode := .halted, swap := some (true, true), stalled := 2000000 } enB

theorem meets_EngineInstructionsCompute :
    ((fun (h : Half) (b : Fin 64) (s : State) => s.computes h = true ∧ s.leAt h b.val 0 = true) .B 63 (w 0x00000007)) ∧
    ((fun (h : Half) (b : Fin 64) (s : State) => s.computes h = true ∧ s.leAt h b.val 1 = true) .B 63 (w 0x10000009)) ∧
    ((fun (h : Half) (b : Fin 64) (s : State) => s.computes h = true ∧ s.leAt h b.val 6 = true) .A 63 (w 0x6E00ABCD)) ∧
    ((fun (h : Half) (b : Fin 64) (a : BitVec 16) (y : BitVec 16) (s : State) => s.computes h = true ∧
      s.leAt h b.val 7 = true ∧ isField 21 19 0 (s.leWord h b.val) = true ∧
      a = (s.engine h b.val).cell (wbits (s.leWord h b.val) 27 25) ∧
      y = (if isField 18 18 1 (s.leWord h b.val) = true then BitVec.ofNat 16 (wbits (s.leWord h b.val) 15 0) else
      (s.engine h b.val).cell (wbits (s.leWord h b.val) 24 22))) .B 63 0xFFFF 1 (w 0x7E040001)) ∧
    ((fun (h : Half) (b : Fin 64) (a : BitVec 16) (y : BitVec 16) (s : State) => s.computes h = true ∧
      s.leAt h b.val 7 = true ∧ isField 21 19 1 (s.leWord h b.val) = true ∧
      a = (s.engine h b.val).cell (wbits (s.leWord h b.val) 27 25) ∧
      y = (if isField 18 18 1 (s.leWord h b.val) = true then BitVec.ofNat 16 (wbits (s.leWord h b.val) 15 0) else
      (s.engine h b.val).cell (wbits (s.leWord h b.val) 24 22))) .B 63 0 1 (w 0x700C0001)) ∧
    ((fun (h : Half) (b : Fin 64) (v : BitVec 16) (s : State) => s.computes h = true ∧ s.leAt h b.val 8 = true ∧
      v = (s.engine h b.val).cell (wbits (s.leWord h b.val) 27 25) - 1) .B 63 0xFFFE (w 0x8E000033)) ∧
    ((fun (h : Half) (b : Fin 64) (s : State) => s.computes h = true ∧ s.leAt h b.val 9 = true ∧
      isField 27 27 0 (s.leWord h b.val) = true) .B 63 (w 0x97180000)) ∧
    ((fun (h : Half) (b : Fin 64) (s : State) => s.computes h = true ∧ s.leAt h b.val 9 = true ∧
      isField 27 27 1 (s.leWord h b.val) = true ∧ isField 23 20 0 (s.leWord h b.val) = true) .B 63 (w 0x9F080000)) ∧
    ((fun (h : Half) (b : Fin 64) (c : Nat) (n : Nat) (s : State) => s.computes h = true ∧
      s.leAt h b.val 10 = true ∧ c = wbits (s.leWord h b.val) 27 25 ∧
      n = wbits (s.leWord h b.val) 24 23 + 1) .B 63 0 4 (ln txb (w 0xA1A00000))) ∧
    ((fun (h : Half) (b : Fin 64) (a : Assembly) (l : List Byte) (s : State) => s.computes h = true ∧
      s.leAt h b.val 11 = true ∧ (s.engine h b.val).assembly = some a ∧
      l = a.bytes ++ rsrBytes (isField 22 22 1 (s.leWord h b.val)) (wbits (s.leWord h b.val) 24 23 + 1) (s.engine h
      b.val).rsr) .B 63 (⟨5, 0, List.replicate 63 1, 77, 9, false⟩) (List.replicate 63 1 ++ [0x12, 0x34, 0x56,
      0x78]) (w 0xB1800000)) ∧
    ((fun (h : Half) (b : Fin 64) (s : State) => s.computes h = true ∧ s.leAt h b.val 12 = true ∧
      isField 27 26 0 (s.leWord h b.val) = true) .B 63 ((w 0xC0000000).setReg (bayKey .B 63 + Reg.LE_CRC_INIT)
      0xFFFFF)) ∧
    ((fun (h : Half) (b : Fin 64) (s : State) => s.computes h = true ∧ s.leAt h b.val 12 = true ∧
      isField 27 26 1 (s.leWord h b.val) = true) .B 63 ((w 0xC4000000))) ∧
    ((fun (h : Half) (b : Fin 64) (s : State) => s.computes h = true ∧ s.leAt h b.val 12 = true ∧
      isField 27 26 2 (s.leWord h b.val) = true) .B 63 ((w 0xC8000000).put (bayKey .B 63) Reg.LE_CRC_CFG_W 24)) := by
  refine ⟨?_, ?_, ?_, ?_, ?_, ?_, ?_, ?_, ?_, ?_, ?_, ?_, ?_⟩ <;> decide +kernel

theorem meets_EngineBitsAndWaits :
    ((fun (h : Half) (b : Fin 64) (s : State) => s.computes h = true ∧ s.leAt h b.val 2 = true ∧
      s.leBoundary h b.val = true ∧ (s.engine h b.val).late = 0 ∧ isField 17 17 0 (s.leWord h b.val) = true ∧
      isField 25 23 2 (s.leWord h b.val) = true ∧ (s.engine h b.val).live = []) .B 63 (bt (some (800, 200))
      0x2D400000)) ∧
    ((fun (h : Half) (b : Fin 64) (s : State) => s.computes h = true ∧
      s.leBoundary h b.val = false) .B 63 (bt (some (800, 201)) 0x2D400000)) ∧
    ((fun (h : Half) (b : Fin 64) (s : State) => s.computes h = true ∧ s.leAt h b.val 3 = true ∧
      wbits (s.leWord h b.val) 15 0 ≤ s.leBt h b.val ∧ s.flag (bayKey h b.val) Reg.LE_CFG_LOOP = false ∧
      isField 24 21 8 (s.leWord h b.val) = true) .B 63 (bt (some (800, 200)) 0x3B0000C8)) ∧
    ((fun (h : Half) (b : Fin 64) (s : State) => s.computes h = true ∧ s.leAt h b.val 4 = true) .B 63 (w 0x40000000)) ∧
    ((fun (h : Half) (b : Fin 64) (s : State) => s.computes h = true ∧ s.leWaits h b.val 4 = true ∧
      (s.leTest h b.val (s.leWord h b.val) = true ∨ (isField 21 20 2 (s.leWord h b.val) = true ∧
      (s.engine h b.val).waiting.getD s.onTref + 200 * wbits (s.leWord h b.val) 15 0 ≤ s.onTref))) .B 63 (wtg
      0x40000000 false)) ∧
    ((fun (h : Half) (b : Fin 64) (s : State) => s.computes h = true ∧ s.leAt h b.val 5 = true ∧
      isField 27 26 0 (s.leWord h b.val) = true ∧ s.leBoundary h b.val = true) .B 63 (bt (some (800, 200))
      0x50000000)) ∧
    ((fun (h : Half) (b : Fin 64) (e : Nat) (s : State) => s.computes h = true ∧ s.leAt h b.val 5 = true ∧
      isField 27 26 1 (s.leWord h b.val) = true ∧ s.leEdgeStart h b.val = some e) .B 63 900 (bt (some (800, 200))
      0x57000000)) ∧
    ((fun (h : Half) (b : Fin 64) (e : Nat) (u : Nat) (p : Nat) (s : State) => s.computes h = true ∧
      s.leAt h b.val 5 = true ∧ isField 27 26 2 (s.leWord h b.val) = true ∧ s.leEdgeStart h b.val = some e ∧
      (s.engine h b.val).bit = some (u, p)) .B 63 900 850 200 (bt (some (850, 200)) 0x58000032)) ∧
    ((fun (h : Half) (b : Fin 64) (s : State) => s.computes h = true ∧
      s.leAt h b.val 13 = true) .B 63 (ln tx (at_ 0xD8000000 { eng with attempt := true } enB))) ∧
    ((fun (h : Half) (b : Fin 64) (s : State) => s.computes h = true ∧ s.leWaits h b.val 13 = true ∧
      (s.engine h b.val).edgeF = true ∧ isField 26 26 1 (s.leWord h b.val) = true) .B 63 (wtg 0xDC000000 true)) ∧
    ((fun (h : Half) (b : Fin 64) (e : Nat) (s : State) => s.computes h = true ∧ s.leWaits h b.val 13 = true ∧
      (s.engine h b.val).edgeF = false ∧ s.leTurn h b.val = some e ∧ s.lineTripped h b.val = false ∧
      s.lockOk h b.val = true ∧ (s.synth (b.val / 8)).gated = false) .B 63 7 (ln ((Line.reset).setEntry 7 ent) (wtg
      0xDC000000 false))) ∧
    ((fun (h : Half) (b : Fin 64) (u : Nat) (p : Nat) (s : State) => s.computes h = true ∧
      (s.engine h b.val).bit = some (u, p) ∧ (s.engine h b.val).late = 0 ∧ (u + p < s.onTref ∨ u + p = s.onTref ∧
      s.leAt h b.val 2 = false ∧ s.leAt h b.val 5 = false) ∧ s.reg (bayKey h b.val + Reg.LE_CNT_LATE) ≠ 0xFFFFF) .B
      63 800 200 (bt (some (800, 200)) 0)) ∧
    ((fun (h : Half) (b : Fin 64) (u : Nat) (p : Nat) (s : State) => s.computes h = true ∧
      (s.engine h b.val).bit = some (u, p) ∧ (s.engine h b.val).late = 1 ∧
      u + 2 * p ≤ s.onTref) .B 63 800 200
      ({ at_ 0 { eng with bit := some (800, 200), late := 1, sym := some true } enB with tref := 1200 })) ∧
    ((fun (h : Half) (b : Fin 64) (rise : Bool) (s : State) => s.computes h = true ∧
      s.flag (bayKey h b.val) Reg.LE_CFG_LOOP = false ∧ (s.engine h b.val).level ≠ rise) .B 63 true (w 0)) := by
  refine ⟨?_, ?_, ?_, ?_, ?_, ?_, ?_, ?_, ?_, ?_, ?_, ?_, ?_, ?_⟩ <;> decide +kernel

theorem meets_EngineFrameEndsTakeEffect :
    ((fun (h : Half) (b : Fin 64) (e : Nat) (s : State) => s.computes h = true ∧ s.leAt h b.val 14 = true ∧
      isField 27 24 0 (s.leWord h b.val) = true ∧ (s.line h b.val).attempt = some e ∧ e < 8) .B 63 7 (fin 0xE0800000)) ∧
    ((fun (h : Half) (b : Fin 64) (e : Nat) (c : Instr) (code : Nat) (st : Nat) (s : State) => (c, code, st) ∈
      [(.finNoack b, 1, St.LINE_NOACK), (.finColl b, 3, St.LINE_COLLISION), (.finTxabort b, 4, St.LINE_ABORTED)] ∧
      s.computes h = true ∧ s.leAt h b.val 14 = true ∧ isField 27 24 code (s.leWord h b.val) = true ∧
      (s.line h b.val).attempt = some e ∧ e < 8 ∧ ((s.line h b.val).entry e).cpend = false) .B 63 7 (.finNoack 63) 1
      St.LINE_NOACK (fin 0xE1000000)) ∧
    ((fun (h : Half) (b : Fin 64) (e : Nat) (s : State) => s.computes h = true ∧ s.leAt h b.val 14 = true ∧
      isField 27 24 2 (s.leWord h b.val) = true ∧ (s.line h b.val).attempt = some e ∧ e < 8 ∧
      s.get (bayKey h b.val) Reg.LN_CFG_ARB_MAX = 0) .B 63 7 ((fin 0xE2000000).put (bayKey .B 63) Reg.LN_CFG_ARB_MAX
      0)) ∧
    ((fun (h : Half) (b : Fin 64) (s : State) => s.computes h = true ∧ s.leAt h b.val 14 = true ∧
      isField 27 24 5 (s.leWord h b.val) = true) .B 63 (fin 0xE5000000)) ∧
    ((fun (h : Half) (b : Fin 64) (s : State) => s.computes h = true ∧ s.leAt h b.val 14 = true ∧
      isField 27 24 8 (s.leWord h b.val) = true) .B 63 (fin 0xE8000000)) ∧
    ((fun (h : Half) (b : Fin 64) (a : Assembly) (s : State) => s.computes h = true ∧ s.leAt h b.val 14 = true ∧
      isField 27 24 9 (s.leWord h b.val) = true ∧ (s.engine h b.val).assembly = some a ∧ a.lost = false ∧
      a.flags / 128 % 2 = 0 ∧ s.flag (bayKey h b.val) Reg.LE_CFG_LOOP = true ∧
      (s.line h b.val).fifo.length < 8) .B 63 (⟨5, 0, List.replicate 63 1, 77, 9, false⟩) ((fin 0xE9000000).put
      (bayKey .B 63) Reg.LE_CFG_LOOP 1)) ∧
    ((fun (h : Half) (b : Fin 64) (c : Instr) (code : Nat) (a : Assembly) (s : State) => (c, code) ∈ [(.finBadcrc b,
      10), (.finBadfmt b, 11)] ∧ s.computes h = true ∧ s.leAt h b.val 14 = true ∧
      isField 27 24 code (s.leWord h b.val) = true ∧ (s.engine h b.val).assembly = some a ∧
      a.lost = false) .B 63 (.finBadcrc 63) 10 asm (finA 0xEA000000)) ∧
    ((fun (h : Half) (b : Fin 64) (s : State) => s.computes h = true ∧ s.leAt h b.val 15 = true) .B 63 (w 0xF8000000)) ∧
    ((fun (h : Half) (b : Fin 64) (s : State) => s.computes h = true ∧
      s.leBreaks h b.val = true) .B 63 (((w 0).put (bayKey .B 63) Reg.LE_DBG_BRK_EN 1).put (bayKey .B 63)
      Reg.LE_DBG_ADDR 255)) ∧
    ((fun (h : Half) (b : Fin 64) (code : Nat) (s : State) => s.computes h = true ∧ s.leExecutes h b.val = true ∧
      s.leFaultCode h b.val (s.leWord h b.val) = some code ∧ (s.engine h b.val).pc < 256) .B 63 0xFF (fin 0xF000007F)) := by
  refine ⟨?_, ?_, ?_, ?_, ?_, ?_, ?_, ?_, ?_, ?_⟩ <;> decide +kernel

theorem meets_EngineControlTakesEffect :
    ((fun (h : Half) (m : Master) (b : Fin 64) (s : State) => s.computes h = true ∧ s.bayWriteOk m b.val = true ∧
      (s.engine h b.val).mode = .stopped ∧ s.flag (bayKey h b.val) Reg.LN_CFG_EN = true) .B (.port 0) 63 stp) ∧
    ((fun (h : Half) (m : Master) (b : Fin 64) (s : State) => s.computes h = true ∧
      s.bayWriteOk m b.val = true) .B (.port 0) 63 (fin 0)) ∧
    ((fun (h : Half) (m : Master) (b : Fin 64) (s : State) => s.computes h = true ∧ s.bayWriteOk m b.val = true ∧
      (s.engine h b.val).mode ≠ .stopped ∧ s.reg (bayKey h b.val + Reg.LE_CNT_ABORT) ≠ 0xFFFFF) .B (.port 0) 63 hlt) ∧
    ((fun (h : Half) (m : Master) (b : Fin 64) (s : State) => s.computes h = true ∧ s.bayWriteOk m b.val = true ∧
      (s.engine h b.val).mode = .halted ∧ (s.engine h b.val).waiting = none ∧
      isField 31 28 6 (s.leWord h b.val) = true ∧ leEncodingOk (s.leWord h b.val) = true ∧
      s.power.mode = .run) .B (.port 0) 63 hlt) ∧
    ((fun (h : Half) (m : Master) (b : Fin 64) (s : State) => s.computes h = true ∧ s.bayWriteOk m b.val = true ∧
      (s.engine h b.val).mode = .halted) .B (.steward 7) 63 hlt) ∧
    ((fun (h : Half) (m : Master) (b : Fin 64) (s : State) => s.computes h = true ∧ s.bayWriteOk m b.val = true ∧
      (s.engine h b.val).swap = none) .B (.steward 7) 63 stp) ∧
    ((fun (h : Half) (m : Master) (b : Fin 64) (r : Bool) (f : Bool) (s : State) => s.computes h = true ∧
      s.bayWriteOk m b.val = true ∧ (s.engine h b.val).swap = some (r, f)) .B (.steward 7) 63 true true hlt) ∧
    ((fun (h : Half) (b : Fin 64) (f : Bool) (s : State) => s.computes h = true ∧ s.leShift h b.val = true ∧
      (s.engine h b.val).swap = some (false, f)) .B 63 true
      ({ at_ 0 { eng with bit := some (1000, 200), swap := some (false, true) } enB with tref := 1000})) ∧
    ((fun (h : Half) (b : Fin 64) (f : Bool) (s : State) => s.computes h = true ∧ (s.engine h b.val).mode = .idle ∧
      (s.engine h b.val).attempt = false ∧ (s.engine h b.val).assembly = none ∧
      (s.engine h b.val).swap = some (true, f)) .B 63 true (at_ 0
      { eng with mode := .idle, assembly := none, swap := some (true, true) } enB)) ∧
    ((fun (h : Half) (b : Fin 64) (r : Bool) (f : Bool) (s : State) => s.computes h = true ∧
      (s.engine h b.val).mode = .halted ∧ (s.engine h b.val).swap = some (r, f) ∧
      4 * s.leUnit h b.val ≤ (s.engine h b.val).stalled ∧ (s.engine h b.val).swapLate = false ∧
      s.leShift h b.val = false) .B 63 true true hlt) ∧
    ((fun (h : Half) (m : Master) (b : Fin 64) (lo : Word) (s : State) => s.computes h = true ∧
      s.bayWriteOk m b.val = true ∧ (s.engine h b.val).swap = none ∧
      s.get (bayKey h b.val) Reg.LE_PA_BANK ≠ (s.engine h b.val).bank ∧
      tblFind s.staging (stageKey m (0x10000 + 0x400 * b.val + Reg.LE_PD_LO)) = some lo) .B (.steward 7) 63 0xABCDE
      ((((fin 0).put (bayKey .B 63) Reg.LE_PA_BANK 1).put (bayKey .B 63) Reg.LE_PA_ADDR 255).stage (.steward 7)
      (0x10000 + 0x400 * 63 + Reg.LE_PD_LO) 0xABCDE)) ∧
    ((fun (h : Half) (m : Master) (b : Fin 64) (s : State) => s.computes h = true ∧ s.bayWriteOk m b.val = true ∧
      (s.engine h b.val).mode ≠ .stopped ∧ s.get (bayKey h b.val) Reg.LE_PA_BANK = (s.engine h b.val).bank) .B
      (.steward 7) 63 (fin 0)) := by
  refine ⟨?_, ?_, ?_, ?_, ?_, ?_, ?_, ?_, ?_, ?_, ?_, ?_⟩ <;> decide +kernel

end S08

namespace S09

def en : State := [Half.A, .B].foldl (fun s h => ((s.put (bayKey h 63) Reg.LN_CFG_EN 1).put (bayKey h 63)
  Reg.PL_CFG_EN 1)) (up.put (padKey 63) Reg.LN_ENV_TXMAX 200)
def ent (k : Nat) : PollEntry :=
  { PollEntry.reset with w0 := inField 19 17 k + inField 16 10 (if k = 1 then 127 else 0), due := 1000 }
def ents : State := { ((en.setEntryOf .B 63 255 (ent 1)).setEntryOf .B 63 254 (ent 1)).setEntryOf .B 63 0 (ent 4) with fabricTime := 2000 * 2 ^ 32, tref := 5000000 }
def pl : Poll := ⟨false, 1000, 127, 8, [(255, 3, 9)], 1, .waiting, 0⟩
def withPolls (l : List Poll) : State := ents.setPipe .B 63 { ents.pipe .B 63 with polls := l }
def pin (v : Option Word) (m : Nat) : PInput := ⟨255, 9, 1000, v, m, 1, false, 1000, false⟩
def withQ (l : List PInput) : State := ents.setPipe .B 63 { ents.pipe .B 63 with queue := l, polls := [pl] }
def ta (e : Nat) : State := (ents.put (bayKey .B 63) Reg.PL_TA_WORD 2).put (bayKey .B 63) Reg.PL_TA_ENTRY e
def xTa (w2 : Word) : PollEntry := ((ta 255).entryOf .B 63 255).staged ((ta 255).stagedTd (.steward 7) 63 255 0)
  ((ta 255).stagedTd (.steward 7) 63 255 1) w2
def stg (a : Nat) (w : Word) : State := { ents with staging := [(tableKey (.steward 7) (0x10000 + a), w)] }
def st0 : State := stg (126 * 64 + 31) 0xFFFFF
def st1 : State := stg (127 * 64 + 32) 0x00016

theorem meets_PollingTakesEffect :
    ((fun (h : Half) (b : Fin 64) (e : Nat) (s : State) => s.computes h = true ∧ s.plTakes h b.val = true ∧
      e < 256 ∧ (s.entryOf h b.val e).kind = 1 ∧ (s.entryOf h b.val e).due ≤ s.timeNs ∧
      (s.pipe h b.val).polls = []) .B 63 255 ents) ∧
    ((fun (h : Half) (b : Fin 64) (e : Nat) (s : State) => s.computes h = true ∧ s.plTakes h b.val = true ∧
      e < 256 ∧ 2 ≤ (s.entryOf h b.val e).kind ∧ (s.entryOf h b.val e).due ≤ s.timeNs) .B 63 0 ents) ∧
    ((fun (h : Half) (b : Fin 64) (p : Poll) (s : State) => s.computes h = true ∧ s.nextPoll h b.val = some p ∧
      (p.ident || s.plRuns h b.val) = true ∧ (s.line h b.val).pEnd = none ∧
      s.flag (bayKey h b.val) Reg.LN_CFG_EN = true ∧ s.get (padKey b.val) Reg.LN_ENV_TXMAX ≠ 0 ∧
      s.lineTripped h b.val = false) .B 63 pl (withPolls [pl])) ∧
    ((fun (h : Half) (b : Fin 64) (p : Poll) (s : State) => s.computes h = true ∧ (s.pipe h b.val).polls = [p] ∧
      p.ident = false ∧ p.phase = .awaiting ∧ s.replyBy h b.val p < s.onTref ∧
      s.replyComing h b.val p = false) .B 63 ({ pl with phase := .awaiting }) (withPolls
      [{ pl with phase := .awaiting }])) ∧
    ((fun (h : Half) (b : Fin 64) (i : PInput) (rest : List PInput) (w : Word) (s : State) => s.computes h = true ∧
      h = s.viewOf b.val ∧ s.plTakes h b.val = true ∧ (s.access h actPipe 0).isSome = true ∧
      (s.pipe h b.val).queue = i :: rest ∧ (s.pipe h b.val).lost = [] ∧ (s.pipe h b.val).held = [] ∧ i.e < 256 ∧
      i.value = some w) .B 63 (pin (some 0xFFFFF) 0) ([pin none 1]) 0xFFFFF (withQ [pin (some 0xFFFFF) 0, pin none
      1])) ∧
    ((fun (h : Half) (b : Fin 64) (i : PInput) (rest : List PInput) (s : State) => s.computes h = true ∧
      h = s.viewOf b.val ∧ s.plTakes h b.val = true ∧ (s.access h actPipe 0).isSome = true ∧
      (s.pipe h b.val).queue = i :: rest ∧ (s.pipe h b.val).lost = [] ∧ (s.pipe h b.val).held = [] ∧ i.e < 256 ∧
      i.value = none) .B 63 (pin none 7) ([]) (withQ [pin none 7])) ∧
    ((fun (h : Half) (m : Master) (b : Fin 64) (s : State) => s.computes h = true ∧
      s.bayWriteOk m b.val = true) .B (.port 0) 63 ents) ∧
    ((fun (h : Half) (m : Master) (b : Fin 64) (s : State) => s.computes h = true ∧ s.bayWriteOk m b.val = true ∧
      s.plRuns h b.val = false) .B (.port 0) 63 (ents.put (bayKey .B 63) Reg.PL_CFG_EN 0)) ∧
    ((fun (h : Half) (m : Master) (b : Fin 64) (s : State) => s.computes h = true ∧ s.bayWriteOk m b.val = true ∧
      s.plRuns h b.val = true) .B (.port 0) 63 (withQ [pin none 7])) := by
  refine ⟨?_, ?_, ?_, ?_, ?_, ?_, ?_, ?_, ?_⟩ <;> decide +kernel

theorem meets_PipelineSettingsTakeEffect :
    ((fun (h : Half) (m : Master) (b : Fin 64) (e : Nat) (value : Word) (x : PollEntry) (s : State) => s.computes h
      = true ∧ h = s.viewOf b.val ∧ s.bayWriteOk m b.val = true ∧ s.get (bayKey h b.val) Reg.PL_TA_WORD = 2 ∧
      e = s.get (bayKey h b.val) Reg.PL_TA_ENTRY ∧ x = (s.entryOf h b.val e).staged (s.stagedTd m b.val e 0)
      (s.stagedTd m b.val e 1) value ∧ x.refused = true) .B (.steward 7) 63 255 1000 (xTa 1000) (ta 255)) ∧
    ((fun (h : Half) (m : Master) (b : Fin 64) (e : Nat) (value : Word) (x : PollEntry) (s : State) => s.computes h
      = true ∧ h = s.viewOf b.val ∧ s.bayWriteOk m b.val = true ∧ s.get (bayKey h b.val) Reg.PL_TA_WORD = 2 ∧
      e = s.get (bayKey h b.val) Reg.PL_TA_ENTRY ∧ x = (s.entryOf h b.val e).staged (s.stagedTd m b.val e 0)
      (s.stagedTd m b.val e 1) value ∧ x.refused = false) .B (.steward 7) 63 255 999 (xTa 999) (ta 255)) ∧
    ((fun (h : Half) (m : Master) (b : Fin 64) (f : FirSet) (s : State) => s.computes h = true ∧
      s.bayWriteOk m b.val = true ∧ f = s.stagedSet m b.val 0 (s.pipe h b.val).set0.now ∧ 3 ≤ f.k ∧ f.k ≤ 5 ∧
      1 ≤ f.logD ∧ f.logD ≤ 5 ∧ s.setFading h b.val 0 = false) .B (.steward 7) 63 (st0.stagedSet (.steward 7) 63 0
      (st0.pipe .B 63).set0.now) st0) ∧
    ((fun (h : Half) (m : Master) (b : Fin 64) (f : FirSet) (s : State) => s.computes h = true ∧
      s.bayWriteOk m b.val = true ∧ f = s.stagedSet m b.val 1 (s.pipe h b.val).set1.now ∧
      (f.k < 3 ∨ 5 < f.k ∨ f.logD < 1 ∨ 5 < f.logD)) .B (.steward 7) 63 (st1.stagedSet (.steward 7) 63 1 (st1.pipe
      .B 63).set1.now) st1) ∧
    ((fun (h : Half) (m : Master) (b : Fin 64) (i : Nat) (s : State) => s.computes h = true ∧
      s.bayWriteOk m b.val = true ∧ i = s.get (bayKey h b.val) Reg.RG_SEL_SEL) .B (.steward 7) 63 63 (ents.put
      (bayKey .B 63) Reg.RG_SEL_SEL 63)) ∧
    ((fun (h : Half) (m : Master) (b : Fin 64) (value : Word) (i : Nat) (s : State) => s.computes h = true ∧
      s.bayWriteOk m b.val = true ∧ i < 64 ∧ (bits value 6 6 = 1 ∨ bits value 5 0 = i)) .B (.steward 7) 63 63 63
      (ents.setRecog .B 63 63 { Recog.reset with pend := true })) ∧
    ((fun (r : Recog) => r.active = false ∧ max 1 (bits r.pc 19 12) ≤ r.n + 1)
      ({ Recog.reset with pc := 0x03050, n := 2 })) ∧
    ((fun (r : Recog) => r.active = true ∧ max 1 (bits r.pc 11 4) ≤ r.n + 1)
      ({ Recog.reset with pc := 0x03050, n := 4, active := true })) := by
  refine ⟨?_, ?_, ?_, ?_, ?_, ?_, ?_, ?_⟩ <;> decide +kernel

end S09

namespace S10

def cs : CodeSet := { CodeSet.zero with e := 2, order := 1, sgn := true, step := 4000000000 }
def it (c : Nat) : Item := ⟨c, some 2231, 0, 1, 1, 5000, cs, false, false, 0⟩
def cd (x : Coder) : State := up.setCoder .B 3 x
def bu : Bushel := { Bushel.reset with chan := 16128, seq := 9, set := cs, k0 := 2, k := 2, acc := 64, t0 := 5000 }
def op (s : State) : State := { s.setOpen .B 16128 bu with tref := 100 }
def rc : Rec := ⟨16447, 1, List.replicate 255 0xFF, 7000, 3, 0⟩
def pf : State := let s := op up; { s with power := { s.power with pfail := true } }
def ca : State := (up.put (bayKey .B 63) Reg.CC_A_WORD 1).put (bayKey .B 63) Reg.CC_A_ENTRY 255
def cst (w : Word) : State := { ca with staging := [(tableKey (.steward 7) (0x20000 + 16383), w)] }

theorem meets_CodingTakesEffect :
    ((fun (h : Half) (e : Fin 4) (i : Item) (rest : List Item) (s : State) => s.computes h = true ∧
      s.power.mode = .run ∧ (s.access h actCode 0).isSome = true ∧ (s.coder h e.val).records = [] ∧
      (s.coder h e.val).waiting = [] ∧ (s.coder h e.val).samples = i :: rest ∧ engineOf i.chan = e.val ∧
      s.chanBlocked h i.chan = false ∧ s.openBushel h i.chan = none) .B 3 (it 16383) ([it 0]) (cd ⟨[it 16383, it 0],
      [], []⟩)) ∧
    ((fun (h : Half) (e : Fin 4) (i : Item) (rest : List Item) (x : Bushel) (s : State) => s.computes h = true ∧
      s.power.mode = .run ∧ (s.access h actCode 0).isSome = true ∧ (s.coder h e.val).records = [] ∧
      (s.coder h e.val).waiting = [] ∧ (s.coder h e.val).samples = i :: rest ∧ engineOf i.chan = e.val ∧
      s.openBushel h i.chan = some x ∧ i.chg = false ∧ x.set = i.set ∧ (x.bare = true ∨ i.enter < x.deadline) ∧
      (x.addItem i).size ≤ 4096) .B 3 (it 16128) ([it 0]) bu ((op (cd ⟨[it 16128, it 0], [], []⟩)).setCoder .B 3
      ⟨[it 16128, it 0], [], []⟩)) ∧
    ((fun (h : Half) (e : Fin 4) (r : Rec) (rest : List Rec) (s : State) => s.computes h = true ∧
      s.power.mode = .run ∧ (s.access h actCode 0).isSome = true ∧ (s.coder h e.val).waiting = [] ∧
      (s.coder h e.val).records = r :: rest ∧ engineOf r.chan = e.val ∧ s.chanBlocked h r.chan = false ∧
      s.openBushel h r.chan = none) .B 3 rc ([rc]) (cd ⟨[], [rc, rc], []⟩)) ∧
    ((fun (h : Half) (c : Fin 16512) (cmd : Instr) (flush : Bool) (x : Bushel) (s : State) => ((cmd = .sealDeadline
      h c ∧ flush = false ∧ x.deadline ≤ s.tref) ∨ (cmd = .pfailSeal h c ∧ flush = true ∧
      s.power.pfail = true) ∨ (cmd = .takeoverSeal h c ∧ flush = false ∧ (s.chan c.val).gaps ≠ s.gapsOf c.val)) ∧
      s.openBushel h c.val = some x) .B 16128 (.sealDeadline .B 16128) false bu (op up)) ∧
    ((fun (h : Half) (c : Fin 16512) (x : Bushel) (s : State) => s.power.pfail = true ∧
      s.openBushel h c.val = some x ∧ s.nothingWaits h c.val = true ∧
      128 ≤ s.sealQueue h) .B 16128 bu (pf.setCodeHalf .B { pf.codeHalf .B with out := List.replicate 128 bu })) ∧
    ((fun (h : Half) (m : Master) (b : Fin 64) (entry : Fin 512) (x : Bushel) (s : State) => s.bayWriteOk m b.val =
      true ∧ s.holder b.val = h ∧ entry.val < 256 ∧ s.openBushel h (256 * b.val + entry.val) = some x) .B (.steward
      7) 63 0 bu (op up)) ∧
    ((fun (h : Half) (m : Master) (b : Fin 64) (c : Nat) (s : State) => s.bayWriteOk m b.val = true ∧
      s.holder b.val = h ∧ (c / 256 = b.val ∨ c = 16384 + b.val)) .B (.steward 7) 63 16128 (op up)) ∧
    ((fun (h : Half) (m : Master) (b : Fin 64) (a : Nat) (w0 : Word) (s : State) => s.computes h = true ∧
      h = s.viewOf b.val ∧ s.bayWriteOk m b.val = true ∧ s.get (bayKey h b.val) Reg.CC_A_WORD = 1 ∧
      a = s.get (bayKey h b.val) Reg.CC_A_ENTRY ∧ a < 256 ∧ w0 = (s.stagedCc m (256 * b.val + a)).getD (s.chanCfg h
      (256 * b.val + a)).w0) .B (.steward 7) 63 255 ChanCfg.reset.w0 ca) ∧
    ((fun (value : Word) => bits value 1 0 ≠ 3 ∧ bits value 5 2 < 11) 0xFFFEA) ∧
    ((fun (value : Word) => (bits value 1 0 = 3 ∨ 11 ≤ bits value 5 2)) 0x00003) ∧
    ((fun (h : Half) (e : Fin 4) (x : Bushel) (rest : List Bushel) (s : State) => (s.coder h e.val).waiting = x ::
      rest ∧ s.sealQueue h < 128) .B 3 bu ([bu]) (cd ⟨[], [], [bu, bu]⟩)) := by
  refine ⟨?_, ?_, ?_, ?_, ?_, ?_, ?_, ?_, ?_, ?_, ?_⟩ <;> decide +kernel

theorem meets_CodedValuesStayWithinTheTolerance :
    ((fun (x : Bushel) (v : Int) => (x.set.sgn = true → -524288 ≤ v ∧ v ≤ 524287) ∧ (x.set.sgn = false → 0 ≤ v ∧
      v ≤ 1048575)) bu (-524288)) := by
  decide +kernel

end S10

namespace S11

def on : Meter := { Meter.reset with on := true }
def w (m : Meter) : State := up.setMeter m
def ph (p : Int) : PhaseCycle := ⟨100000, p, 5, 9⟩
def fc (p q r : Int) : FeederCycle := ⟨7, ph p, ph q, ph r⟩
def ts : MetTests := ⟨true, true, true, true, true⟩
def cp (k : Nat) : MetCopy := ⟨[(3, 7)], 52000117, 2, k⟩
def cm (l : List Byte) : State := w { on with command := some l }
def pf (s : State) : State := { s with power := { s.power with pfail := true } }
def st : MetStatus := ⟨9, 8, false, false, 1, some (0, 0), 0, 0, 0, 0, 3, false, 17, 0⟩

theorem meets_TheMeterKeepsItsRegisters :
    ((fun (b : Fin 2) (x : FeederCycle) (s : State) => s.meter.on = true ∧ s.meter.counts = true ∧
      (s.meter.param 0x40).testBit x.feeder.val = decide (b.val = 1) ∧ s.meter.param 0x42 ≤ x.l1.irms ∧
      s.meter.param 0x42 ≤ x.l2.irms ∧ s.meter.param 0x42 ≤ x.l3.irms) 1 (fc 48556 48556 (-20000)) (w
      { on with tariff := 3 })) ∧
    ((fun (s : State) => s.meter.on = true) (w
      { on with msec := 4294967295, nextTariff := some 2, copyA := some (cp 5), copyB := some (cp 4) })) ∧
    ((fun (s : State) => s.meter.on = true) (w { on with msec := 59, copyB := some (cp 4) })) ∧
    ((fun (s : State) => s.meter.on = true) (w { on with msec := 59, copyB := some (cp 4) })) ∧
    ((fun (tests : MetTests) (i : Nat) (x : MetCopy) (s : State) => s.meter.on = false ∧
      newerCopy (if tests.copyA = true then s.meter.copyA else none) (if tests.copyB = true then s.meter.copyB else
      none) = some (i, x)) ts 1 (cp 4) (w { on with on := false, copyA := some (cp 3), copyB := some (cp 4) })) ∧
    ((fun (s : State) => s.meter.on = true) (w { on with streams := [(3, 1)], starts := 65535 })) ∧
    ((fun (o : Bool) (s : State) => s.meter.on = true ∧ s.meter.unsealed ≠ o) false (w
      { on with unsealed := true, staged := [(0, 5)] })) ∧
    ((fun (c : Instr) (k : Nat) (s : State) => (c, k) ∈ [(.selftestRom false, 1), (.selftestLrp false, 2),
      (.xmetFail, 4)] ∧ s.meter.on = true) (.selftestRom false) 1 (w on)) ∧
    ((fun (c : Instr) => c ∈ [.selftestRom true, .selftestLrp true]) (.selftestLrp true)) ∧
    ((fun (s : State) => s.meter.on = true) (w { on with fails := [4, 1, 4] })) ∧
    ((fun (s : State) => s.meter.on = true) (w on)) ∧
    ((fun (s : State) => s.meter.on = true) (w { on with lostPhases := [5] })) ∧
    ((fun (s : State) => s.meter.on = true) (w { on with fails := [1] })) ∧
    ((fun (p : Nat) (u : Nat) (s : State) => s.meter.on = true ∧ s.meter.page = some (p, u) ∧
      u + 60 ≤ s.meter.msec) 5 100 (w { on with msec := 160, page := some (5, 100) })) ∧
    ((fun (s : State) => s.meter.on = true ∧ 10 ^ 12 ≤ s.meter.pulseP) (w { on with pulseP := 1000000000000 })) ∧
    ((fun (s : State) => s.meter.on = true ∧ 10 ^ 12 ≤ s.meter.pulseQ) (w { on with pulseQ := 1000000000001 })) := by
  refine ⟨?_, ?_, ?_, ?_, ?_, ?_, ?_, ?_, ?_, ?_, ?_, ?_, ?_, ?_, ?_, ?_⟩ <;> decide +kernel

theorem meets_TheCalibrationPortAnswers :
    ((fun (p : List Byte) (c : Instr) => p.length ≤ 64 ∧ c ∈ [.getId p false, .getParam p false, .getLog p false,
      .getEnergy p false, .setParam p false, .commitParams p false, .discardParams p false]) ([1, 2]) (.commitParams
      [1, 2] false)) ∧
    ((fun (s : State) => s.meter.on = true) (w on)) ∧
    ((fun (id : Byte) (s : State) => s.meter.on = true ∧ id.toNat ∈ paramIds ∧
      tblFind s.meter.staged id.toNat = none) 0x49 (w on)) ∧
    ((fun (i : Byte) (j : Byte) (e : LogEntry) (s : State) => s.meter.on = true ∧
      tblFind s.meter.log (256 * i.toNat + j.toNat) = some e) 3 0xFF (⟨1, 2, 3, 4, 5, []⟩) (w
      { on with log := [(1023, ⟨1, 2, 3, 4, 5, []⟩)] })) ∧
    ((fun (f : Byte) (s : State) => s.meter.on = true ∧ f.toNat < 8) 7 (w on)) ∧
    ((fun (id : Byte) (a : Byte) (b : Byte) (c : Byte) (d : Byte) (v : Nat) (s : State) => s.meter.on = true ∧
      s.meter.unsealed = true ∧ id.toNat ∈ paramIds ∧ v = ((a.toNat * 256 + b.toNat) * 256 + c.toNat) * 256 +
      d.toNat ∧ paramOk id.toNat v = true) 0x20 0xFF 0xFF 0xEC 0x78 0xFFFFEC78 (w { on with unsealed := true })) ∧
    ((fun (p : List Byte) (c : Instr) (k : Nat) (s : State) => s.meter.on = true ∧ s.meter.unsealed = false ∧
      (c, k, p.length) ∈ [(.setParam p true, 0x10, 5), (.commitParams p true, 0x11, 0), (.discardParams p true,
      0x12, 0)]) ([1, 2, 3, 4, 5]) (.setParam [1, 2, 3, 4, 5] true) 0x10 (w on)) ∧
    ((fun (id : Nat) (v : Nat) (s : State) => s.meter.on = true ∧ s.meter.unsealed = true ∧
      s.meter.logFull = false ∧ s.meter.chg ≠ 0xFFFFFFFF ∧ s.meter.committed = none ∧ s.meter.staged = [(id, v)] ∧
      s.meter.param id ≠ v) 0x41 60 (w { on with unsealed := true, staged := [(0x41, 60)] })) ∧
    ((fun (s : State) => s.meter.on = true ∧ s.meter.unsealed = true) (w
      { on with unsealed := true, staged := [(0x41, 60)] })) ∧
    ((fun (p : List Byte) (s : State) => s.meter.on = true ∧ p.length ≤ 64 ∧ p ≠ []) ([1]) (w on)) := by
  refine ⟨?_, ?_, ?_, ?_, ?_, ?_, ?_, ?_, ?_, ?_⟩ <;> decide +kernel

theorem meets_TheMetrologyLinkCarries :
    ((fun (s : State) => s.meter.on = true) (w on)) ∧
    ((fun (input : Fin 30) (values : List Word) (s : State) => s.meter.on = true ∧ 1 ≤ values.length ∧
      values.length ≤ 96 ∧ tblGet s.meter.streams 0 input.val ≠ 0 ∧
      1 ∉ s.meter.fails) 29 (List.replicate 96 5) (w { on with streams := [(29, 1)], seq := 65535 })) ∧
    ((fun (r : MetRec) (rest : List MetRec) (s : State) => s.meter.on = true ∧ s.meter.dropped = (0, 0) ∧
      s.meter.reqs = [] ∧ s.meter.due = r :: rest) (⟨0x20, [1]⟩) ([]) (w { on with due := [⟨0x20, [1]⟩] })) ∧
    ((fun (s : State) => s.meter.on = true ∧ s.meter.unacked ≠ []) (w
      { on with unacked := [⟨1, .empty⟩], arrived := 1 })) ∧
    ((fun (s : State) => s.meter.on = true ∧ s.flag oneKey Reg.MET_CTL_RX_EN = true ∧ s.power.mode = .run ∧
      s.computes (s.runner blkMet) = true ∧ (s.access (s.runner blkMet) actMet 0).isSome = true) (pf
      { w { on with unacked := [⟨65535, .empty⟩, ⟨0, .empty⟩, ⟨1, .empty⟩], arrived := 3 } with metLink := { MetLink.reset with accepted := 0 } })) ∧
    ((fun (f : MetFrame) (s : State) => s.meter.on = true ∧ s.meter.unacked[s.meter.arrived]? = some f ∧
      s.flag oneKey Reg.MET_CTL_RX_EN = true ∧ s.power.mode = .run ∧ f.seq = (s.metLink.accepted + 1) % 65536 ∧
      s.frameFits f.body = true) (⟨1, .record ⟨0x26, List.replicate 36 9⟩⟩) (w
      { on with unacked := [⟨1, .record ⟨0x26, List.replicate 36 9⟩⟩] })) ∧
    ((fun (x : MetStatus) (s : State) => s.meter.status = some x ∧ s.power.mode = .run ∧
      s.flag oneKey Reg.MET_CST_BUSY = true ∧ x.result = some (s.get oneKey Reg.MET_CST_SER, 0)) st ((w
      { on with status := some st }).put oneKey Reg.MET_CST_BUSY 1)) ∧
    ((fun (s : State) => s.metLink.lastAt + 1000000 ≤ s.tref)
      ({ up.put oneKey Reg.MET_STAT_UP 1 with tref := 1000000 })) ∧
    ((fun (m : Master) (a : Word) (s : State) => s.blockWriteOk m blkMet = true ∧
      s.flag oneKey Reg.MET_CST_BUSY = false ∧ s.staged m Reg.MET_CMD0 (s.reg (oneKey + Reg.MET_CMD0)) = a ∧
      metCmdListed (bits a 15 8 % 16) = true ∧ s.meter.on = true) (.steward 0) 0xFF902 ((w on).stage (.steward 0)
      Reg.MET_CMD0 0xFF902)) ∧
    ((fun (m : Master) (s : State) => s.blockWriteOk m blkMet = true ∧
      s.flag oneKey Reg.MET_CST_BUSY = true) (.steward 0) ((w on).put oneKey Reg.MET_CST_BUSY 1)) ∧
    ((fun (s : State) => s.flag oneKey Reg.MET_CST_BUSY = true ∧
      s.metLink.sentAt + 1000000 ≤ s.tref) ({ (w on).put oneKey Reg.MET_CST_BUSY 1 with tref := 1000000 })) ∧
    ((fun (c : Instr) (k : Nat) (b : List Byte) (s : State) => (c, k) ∈ [(.metRead .badCrc, 2), (.metReport .badCrc,
      3), (.metStream .badCrc, 4), (.metLogread .badCrc, 5), (.metDisplay .badCrc, 8), (.metTariff .badCrc, 9)] ∧
      s.meter.on = true ∧ s.meter.command = some b ∧ payloadField b 0 1 % 16 = k) (.metTariff .badCrc) 9 ([0x19, 2,
      0, 0, 0, 0]) (cm [0x19, 2, 0, 0, 0, 0])) ∧
    ((fun (b : List Byte) (s : State) => s.meter.on = true ∧ s.meter.command = some b ∧
      payloadField b 0 1 % 16 = 2 ∧ zeroFrom b 5 = true ∧ 0x20 ≤ payloadField b 1 1 ∧ payloadField b 1 1 ≤ 0x26 ∧
      payloadField b 2 1 < sourcesOf (payloadField b 1 1) ∧ s.meter.reqs.length < 8) ([0x12, 0x24, 29, 1, 2, 0]) (cm
      [0x12, 0x24, 29, 1, 2, 0])) ∧
    ((fun (b : List Byte) (s : State) => s.meter.on = true ∧ s.meter.command = some b ∧
      payloadField b 0 1 % 16 = 3 ∧ zeroFrom b 3 = true ∧ 0x20 ≤ payloadField b 1 1 ∧ payloadField b 1 1 ≤ 0x24 ∧
      payloadField b 2 1 ≤ 9) ([0x13, 0x24, 9, 0, 0, 0]) (cm [0x13, 0x24, 9, 0, 0, 0])) ∧
    ((fun (b : List Byte) (s : State) => s.meter.on = true ∧ s.meter.command = some b ∧
      payloadField b 0 1 % 16 = 4 ∧ zeroFrom b 3 = true ∧ payloadField b 1 1 < 30 ∧ payloadField b 2 1 ≤ 5 ∧
      streamTotal (tblSet s.meter.streams 0 (payloadField b 1 1) (payloadField b 2 1)) ≤ 256) ([0x14, 29, 5, 0, 0,
      0]) (cm [0x14, 29, 5, 0, 0, 0])) ∧
    ((fun (b : List Byte) (s : State) => s.meter.on = true ∧ s.meter.command = some b ∧
      payloadField b 0 1 % 16 = 5 ∧ zeroFrom b 5 = true ∧ payloadField b 1 2 ≤ 1023 ∧ 1 ≤ payloadField b 3 2 ∧
      payloadField b 3 2 ≤ 1024 ∧ s.meter.reqs.length < 8) ([0x15, 3, 0xFF, 4, 0, 0]) (cm [0x15, 3, 0xFF, 4, 0, 0])) ∧
    ((fun (b : List Byte) (s : State) => s.meter.on = true ∧ s.meter.command = some b ∧
      payloadField b 0 1 % 16 = 8 ∧ zeroFrom b 2 = true ∧ payloadField b 1 1 < 0x40) ([0x18, 0x3F, 0, 0, 0, 0]) (cm
      [0x18, 0x3F, 0, 0, 0, 0])) ∧
    ((fun (b : List Byte) (s : State) => s.meter.on = true ∧ s.meter.command = some b ∧
      payloadField b 0 1 % 16 = 9 ∧ zeroFrom b 2 = true ∧ payloadField b 1 1 ≤ 3 ∧
      s.meter.param 0x43 ≠ 1) ([0x19, 3, 0, 0, 0, 0]) (cm [0x19, 3, 0, 0, 0, 0])) := by
  refine ⟨?_, ?_, ?_, ?_, ?_, ?_, ?_, ?_, ?_, ?_, ?_, ?_, ?_, ?_, ?_, ?_, ?_, ?_⟩ <;> decide +kernel

end S11

namespace S12

def cs : CodeSet := { CodeSet.zero with e := 2, order := 1, sgn := true, step := 4000000000 }
def bu : Bushel := { Bushel.reset with chan := 16128, seq := 9, set := cs, k0 := 2, k := 2, acc := 64, t0 := 5000, last := 77 }
def ar : Archive := { Archive.reset with formatted := true, ces := 1, page := 8192, pages := 4, map := [5, 6, 7], spares := [9], erased := 65536, head := 40000, prog := 32768, safe := 32768 }
def rdy : State := ((up.put oneKey Reg.AR_CTL_EN 1).put oneKey Reg.AR_STAT_READY 1).setArchive ar
def wa (a : Archive) : State := rdy.setArchive a
def nw (s : State) : State := s.put oneKey Reg.AR_CTL_OVERWRITE 0
def bq (s : State) : State := s.setCodeHalf .B { s.codeHalf .B with out := [bu, bu] }
def la : Landed := ⟨32768, some .A, 5, List.replicate 48 7⟩
def lb : Landed := ⟨65536, some .A, 6, List.replicate 48 8⟩
def ow (s : State) : State := s.put oneKey Reg.AR_CTL_OVERWRITE 1
def ch : NandChip := ⟨8192, 1024, 4, 2048, [0, 7]⟩
def m : Master := .steward 4
def rq : ArcReq := ⟨.steward .B, 0, 32768, 2, 0, 0x1C000⟩
def rp (a : Archive) : State := (wa a).put oneKey Reg.AR_REPL_EN 1
def lup (s : State) : State :=
  { (s.put oneKey Reg.FAB_ADDR_STATE 2).put oneKey Reg.FAB_ADDR_ADDR 77 with links := [(7, { Link.reset with mode := .up, credit := fullCredit })] }
def pk : Packet := ⟨10, 64, 3, 77, 5, 9, List.replicate 70 6⟩
def rl (a : Archive) : State :=
  { lup ((rp a).put oneKey Reg.AR_REPL_ADDR 88) with routes := [(88, { Route.reset with mode := 1, next := 7 })], tref := 10000005 }
def sn : Archive := { ar with landed := [la, lb], sent := [(2 * ar.cap + 5, 9)], rptr := 2 * ar.cap + 5 }

theorem meets_TheRingIsCommittedProgrammedAndErased :
    ((fun (h : Half) (x : Bushel) (rest : List Bushel) (bytes : List Byte) (s : State) => s.arcCommits = true ∧
      s.power.mode = .run ∧ (s.codeHalf h).out = x :: rest ∧ x.tko = false ∧ bytes = x.bytes none ∧
      (s.archive.landed.filter (fun l => decide (l.half = some h) && decide (s.archive.prog ≤ l.pos))).length < 128
      ∧ s.archive.fits bytes.length = true) .B bu ([bu]) (bu.bytes none) (bq rdy)) ∧
    ((fun (h : Half) (x : Bushel) (rest : List Bushel) (s : State) => s.arcCommits = true ∧ s.power.mode = .run ∧
      (s.codeHalf h).out = x :: rest ∧ x.tko = false ∧ s.flag oneKey Reg.AR_CTL_OVERWRITE = false ∧
      (s.archive.landed.filter (fun l => decide (l.half = some h) && decide (s.archive.prog ≤ l.pos))).length < 128
      ∧ s.archive.erased < s.archive.place (x.bytes none).length + (x.bytes none).length) .B bu ([bu]) (bq (nw <| wa
      { ar with erased := 40000 }))) ∧
    ((fun (s : State) => s.arcReady = true ∧ s.power.pfail = false ∧ s.nandFree = true ∧
      s.archive.programming = none ∧ 0 < s.archive.page ∧ s.archive.skip s.archive.prog + s.archive.page ≤
      s.archive.head ∧ (s.access (s.runner blkArchive) actArchW 2).isSome = true) (wa { ar with head := 40960 })) ∧
    ((fun (p : Nat) (s : State) => s.archive.programming = some p ∧
      s.flag oneKey Reg.AR_PAIR_MODE = false) 32768 ((wa { ar with programming := some 32768 }).put oneKey
      Reg.AR_PAIR_MODE 0)) ∧
    ((fun (p : Nat) (spare : Nat) (rest : List Nat) (s : State) => s.archive.programming = some p ∧
      s.archive.spares = spare :: rest) 32768 9 ([]) (wa { ar with programming := some 32768 })) ∧
    ((fun (p : Nat) (s : State) => s.archive.programming = some p ∧
      s.archive.spares = []) 32768 (wa { ar with programming := some 32768, spares := [], landed := [la, lb] })) ∧
    ((fun (p : Nat) (s : State) => s.arcReady = true ∧ s.power.pfail = false ∧ s.nandFree = true ∧
      s.archive.erasing = none ∧ 0 < s.archive.cap ∧ p = s.archive.skip s.archive.erased ∧
      p < s.archive.head / s.archive.slotBytes * s.archive.slotBytes + 2 * s.archive.slotBytes ∧
      (s.flag oneKey Reg.AR_CTL_OVERWRITE = true ∨ s.archive.holdsOld p = false)) 131072 (wa
      { ar with erased := 131072, head := 110000, landed := [la, lb] })) ∧
    ((fun (p : Nat) (s : State) => s.archive.erasing = some p) 65536 (wa { ar with erasing := some 65536 })) ∧
    ((fun (p : Nat) (spare : Nat) (rest : List Nat) (s : State) => s.archive.erasing = some p ∧
      s.archive.spares = spare :: rest) 65536 9 ([]) (wa { ar with erasing := some 65536 })) ∧
    ((fun (p : Nat) (s : State) => s.archive.erasing = some p ∧
      s.archive.spares = []) 65536 (wa { ar with erasing := some 65536, spares := [] })) ∧
    ((fun (slot : Nat) (spare : Nat) (bad : Bool) (more : List (Nat × Bool)) (rest : List Nat) (s : State) =>
      s.arcReady = true ∧ s.power.pfail = false ∧ s.nandFree = true ∧ s.archive.copying = none ∧
      s.archive.refresh = (slot, bad) :: more ∧ s.archive.spares = spare :: rest) 2 9 true ([(1, false)]) ([]) (wa
      { ar with refresh := [(2, true), (1, false)] })) ∧
    ((fun (slot : Nat) (spare : Nat) (s : State) => s.archive.copying = some (slot, false, spare)) 2 9 (wa
      { ar with copying := some (2, false, 9) })) := 
  ⟨⟨by decide +kernel, by decide +kernel, by decide +kernel, by decide +kernel, rfl, by decide +kernel, by decide +kernel⟩, by decide +kernel, by decide +kernel, by decide +kernel, by decide +kernel, by decide +kernel, by decide +kernel, by decide +kernel, by decide +kernel, by decide +kernel, by decide +kernel, by decide +kernel⟩

theorem meets_TheArchiveStartsReadsAndReplicates :
    ((fun (m : Master) (s : State) => s.blockWriteOk m blkArchive = true ∧ s.flag oneKey Reg.AR_STAT_READY = false ∧
      s.flag oneKey Reg.AR_STAT_RECOVER = false ∧ s.flag oneKey Reg.AR_STAT_NOFMT = false) m (up.setArchive ar)) ∧
    ((fun (s : State) => s.arcEn = true ∧ s.flag oneKey Reg.AR_STAT_RECOVER = true ∧
      s.archive.programming = none) (rdy.put oneKey Reg.AR_STAT_RECOVER 1)) ∧
    ((fun (m : Master) (s : State) => s.blockWriteOk m blkArchive = true ∧
      s.arcEn = true) m (wa { ar with requests := [rq, rq], landed := [la] })) ∧
    ((fun (m : Master) (s : State) => s.blockWriteOk m blkArchive = true ∧ s.arcEn = false) m up) ∧
    ((fun (chips : List NandChip) (s : State) => s.flag oneKey Reg.AR_STAT_FORMAT = true ∧
      nandOk chips = true) ([{ ch with blocks := 40 }]) ((wa { ar with landed := [la] }).put oneKey
      Reg.AR_STAT_FORMAT 1)) ∧
    ((fun (m : Master) (parm : BitVec 15) (c : Instr) (op : Nat) (arg : Nat) (s : State) => s.blockWriteOk m
      blkArchive = true ∧ (c, op, arg) ∈ [(.archiveRead m parm, 0, s.wide (oneKey + Reg.AR_REQ_ARG) 2),
      (.archiveFind m parm, 1, (s.wide (oneKey + Reg.AR_REQ_ARG) 2 + 2 ^ 40 * (s.reg (oneKey +
      Reg.AR_REQ_TIME)).toNat) % 2 ^ 60)] ∧ (op = 0 → parm.toNat ≤ 4095) ∧
      (s.reg (oneKey + Reg.AR_REQ_ORIGIN)).toNat ≤ 4) m 4095 (.archiveRead m 4095) 0 0 rdy) ∧
    ((fun (m : Master) (s : State) => s.blockWriteOk m blkArchive = true ∧ s.arcCommits = true ∧
      s.flag oneKey Reg.AR_REQ_ST_BUSY = false ∧ (s.reg (oneKey + Reg.AR_REQ_ORIGIN)).toNat ≤ 4) m rdy) ∧
    ((fun (corr : Nat) (h : Half) (r : ArcReq) (rest : List ArcReq) (p : Nat) (bytes : List Byte) (s : State) =>
      s.archive.requests = r :: rest ∧ s.nandFree = true ∧ s.arcReady = true ∧ r.src = .steward h ∧ r.op = 0 ∧
      s.archive.read r.arg (r.parm + 1) = some (p, bytes) ∧ (s.archive.safe ≤ p ∨ corr ≤ 72 ∧
      corr ≤ s.get oneKey Reg.AR_CFG0_REFRESH) ∧ r.parm ≤ 4095 ∧ r.dst + 2048 ≤ 0x80000 ∧
      (s.access (s.runner blkArchive) actArchR (if s.usesNand 0 r.arg = true then 2 else 0)).isSome = true) 24 .B rq
      ([rq]) 32768 ([7, 7, 7]) (wa { ar with requests := [rq, rq], landed := [la] })) ∧
    ((fun (h : Half) (r : ArcReq) (rest : List ArcReq) (s : State) => s.archive.requests = r :: rest ∧
      s.nandFree = true ∧ s.arcReady = true ∧ r.src = .steward h ∧ r.op = 0 ∧
      s.archive.read r.arg (r.parm + 1) = none ∧ (s.access (s.runner blkArchive) actArchR (if s.usesNand 0 r.arg =
      true then 2 else 0)).isSome = true) .B ({ rq with arg := 40000 }) ([rq]) (wa
      { ar with requests := [{ rq with arg := 40000 }, rq], landed := [la] })) ∧
    ((fun (x : Landed) (c : Instr) (l : Nat) (a : Nat) (u : Nat) (s : State) => s.replicates = true ∧
      (c = .replicaSend ∧ s.archive.sent = [] ∧ s.archive.acked = [] ∧
      s.archive.landed.find? (fun y => decide (s.archive.rptr ≤ y.pos)) = some x ∨ c = .replicaResend ∧
      s.archive.sent = [(x.pos, u)] ∧ u + 10000000 ≤ s.tref ∧
      s.archive.landed.find? (fun y => decide (y.pos = x.pos)) = some x) ∧
      (s.access (s.runner blkFabric) actFabTx 3).isSome = true ∧ s.ownAddr = some a ∧
      s.nextHop (s.get oneKey Reg.AR_REPL_ADDR) = some l ∧ (s.link l).mode = .up ∧
      (s.link l).queue = []) la .replicaSend 7 77 0 (rl { ar with landed := [la, lb], rptr := 32768 })) ∧
    ((fun (l : Fin 8) (lap : Nat) (off : Nat) (u : Nat) (s : State) => (s.link l.val).mode = .up ∧
      s.archive.sent = [(lap * s.archive.cap + off, u)]) 7 2 5 9 (lup (rp sn))) ∧
    ((fun (l : Fin 8) (s : State) => (s.link l.val).mode = .up) 7 (lup (rp sn))) ∧
    ((fun (l : Fin 8) (p : Packet) (i : Nat) (b : List Byte) (s : State) => p.wf = true ∧ p.kind = 10 ∧
      60 ≤ p.payload.length ∧ (s.link l.val).mode = .up ∧ s.isFor p = true ∧ b = p.payload.drop 16 ∧
      s.flag oneKey Reg.AR_REPL_ACCEPT = true ∧ s.archive.originIx (bushelUid b) = some i ∧
      tblFind s.archive.origins i = none ∧ s.arcCommits = true ∧
      s.archive.fits b.length = true) 7 pk 1 (List.replicate 54 6) (lup ((wa ar).put oneKey Reg.AR_REPL_ACCEPT 1))) ∧
    ((fun (m : Master) (value : Word) (i : Nat) (s : State) => s.blockWriteOk m blkArchive = true ∧
      i = bits value 2 0 ∧ 1 ≤ i ∧ i ≤ 4) m 4 4 (wa { ar with origins := [(4, ⟨1, 2, 3, 4⟩)] })) := by
  refine ⟨?_, ?_, ?_, ?_, ?_, ?_, ?_, ?_, ?_, ?_, ?_, ?_, ?_, ?_⟩ <;> decide +kernel

end S12

namespace S13

def lk (x : Link) (s : State) : State := { s with links := [(7, x)], tref := 3000000000 }
def L : Link := { Link.reset with mode := .up, credit := fullCredit, role := 1 }
def lup (s : State) : State := lk L s
def adr (st : Nat) (s : State) : State := (s.put oneKey Reg.FAB_ADDR_STATE st).put oneKey Reg.FAB_ADDR_ADDR 77
def hb (uid : Nat) (w : Nat) : List Byte := bigEndian 8 uid ++ bigEndian 2 w ++ List.replicate 22 0
def hello (uid w : Nat) : Packet := ⟨1, 1, 0, 0, 5, 0, hb uid w⟩
def en (s : State) : State := ((s.put oneKey Reg.FAB_CTL_EN 1).put (linkKey 7) Reg.LK_CTL_EN 1)
def upq : State := en (lk { L with queue := [(hello 3 4, 0)], hellos := [0], req := some (1, 2) } up)
def pk (k : Nat) (l : List Byte) : Packet := ⟨k, 64, 3, 77, 5, 9, l⟩
def claim (uid w q : Nat) : Packet := pk 2 (bigEndian 8 uid ++ bigEndian 2 w ++ bigEndian 2 q ++ bigEndian 4 0)
def page : Packet := pk 3 (3 :: 0 :: (List.replicate 1023 (0 : Byte) ++ [62]))
def off : State := { lup up with offers := [(8 * 4095 + 7, (1, 2930000000))], routes := [(4095, ⟨1, 5, 2, 7, none, 0⟩)] }
def ch : State := { lk { L with role := 2, seq := 63, t12 := 10437, t3 := 20000 } up with router := { Router.reset with parent := some 7 } }
def aup : State := adr 2 (lup up)
def al : Packet := pk 4 (List.replicate 20 0xFF)
def su : Packet := pk 5 (List.replicate 16 0xFF)
def ca (k : AlarmKey) : State := { aup with router := { Router.reset with cache := [(k, 3)] }, fabricTime := 2 ^ 91 }
def ky : AlarmKey := ⟨77, 8, 0x3FFFFFF, 255, 5⟩
def cp : Packet := pk 6 (packetOf 0x01 3 true (bigEndian 2 77 ++ [1, 2]))
def cc : Cmd := ⟨1, 3, true, bigEndian 2 77 ++ [1, 2], some (5, 9)⟩
def rt (p : Nat) (s : State) : State := s.setPort p { s.port p with routed := [(cc, 9, 3)] }

/-- A unique ID that is not this device's. -/
def farUid : Nat := if ownUid = 9 then 10 else 9

theorem farUid_lt : farUid < 256 ^ 8 := by unfold farUid; split <;> decide

theorem farUid_ne : farUid ≠ ownUid := by unfold farUid; split <;> omega

theorem uid_front (u : Nat) (h : u < 256 ^ 8) (l : List Byte) : u = payloadField (bigEndian 8 u ++ l) 0 8 := by
  rw [payloadField_bigEndian, Nat.mod_eq_of_lt h]

theorem ownUid_lt : ownUid < 256 ^ 8 := Config.uid.isLt

theorem after_uid (u : Nat) (l : List Byte) (i n : Nat) :
    payloadField (bigEndian 8 u ++ l) (8 + i) n = payloadField l i n := by
  have h : (bigEndian 8 u ++ l).drop 8 = l := List.drop_left' rfl
  simp only [payloadField]
  rw [← List.drop_drop, h]

theorem meets_LinksFollowTheirNeighbours :
    ((fun (l : Fin 8) (s : State) => (s.link l.val).mode = .locking) 7 (lk { Link.reset with mode := .locking } up)) ∧
    ((fun (l : Fin 8) (s : State) => (s.link l.val).mode = .locked) 7 (lk { Link.reset with mode := .locked } up)) ∧
    ((fun (c : Instr) (into : LinkMode) (l : Fin 8) (u : Nat) (rest : List Nat) (s : State) => (s.link l.val).mode =
      .up ∧ (s.link l.val).hellos = u :: rest ∧ u + 8000000 ≤ s.tref ∧ s.linkEnabled l.val = true ∧
      (c, into) ∈ [(Instr.blockLockLost l, LinkMode.locking), (.linkDown l, .locked), (.helloTimeout l, .locked)])
      (.linkDown 7) .locked 7 0 ([]) upq) ∧
    ((fun (l : Fin 8) (s : State) => ((s.link l.val).mode = .locked ∨ (s.link l.val).mode = .up ∨ (s.link
      l.val).mode = .loop)) 7 upq) ∧
    ((fun (l : Fin 8) (p : Packet) (u : Nat) (v : Nat) (uid : Nat) (s : State) => p.wf = true ∧ p.kind = 1 ∧
      p.payload.length = 32 ∧ (s.link l.val).mode = .locked ∧ (s.link l.val).hellos = [v, u] ∧
      s.tref ≤ u + 6000000 ∧ uid = payloadField p.payload 0 8 ∧ uid ≠ ownUid ∧
      payloadField p.payload 8 2 < 0x2000) 7 (hello farUid 0x1FFF) 2994000000 2999999990 farUid (lk
      { Link.reset with mode := .locked, hellos := [2999999990, 2994000000] } up)) ∧
    ((fun (l : Fin 8) (p : Packet) (s : State) => p.wf = true ∧ p.kind = 1 ∧ p.payload.length = 32 ∧
      (s.link l.val).mode = .locked ∧ payloadField p.payload 0 8 = ownUid) 7 (hello ownUid 0x1FFF) (lk
      { Link.reset with mode := .locked } up)) ∧
    ((fun (l : Fin 8) (s : State) => (s.link l.val).mode = .up ∧
      (s.link l.val).queue = []) 7 (lk { L with credit := [(3, 500)] } up)) ∧
    ((fun (l : Fin 8) (p : Packet) (u : Nat) (s : State) => (s.link l.val).mode = .up ∧
      (s.link l.val).queue = [(p, u)] ∧ u + 2000000 ≤ s.tref) 7 (pk 5 []) 2998000000 (lk
      { L with queue := [(pk 5 [], 2998000000)], credit := [] } up)) ∧
    ((fun (s : State) => s.flag oneKey Reg.FAB_CTL_EN = true) (en up)) := 
  ⟨by decide +kernel, by decide +kernel, by decide +kernel, by decide +kernel, ⟨rfl, rfl, rfl, rfl, rfl, by decide +kernel, uid_front _ farUid_lt _, farUid_ne, (after_uid _ _ 0 2).trans_lt (by decide +kernel)⟩, ⟨rfl, rfl, rfl, rfl, (uid_front _ ownUid_lt _).symm⟩, by decide +kernel, by decide +kernel, by decide +kernel⟩

theorem meets_AddressesAndRoutesFollowTheRules :
    ((fun (l : Fin 8) (p : Packet) (a : Nat) (uid : Nat) (q : Nat) (s : State) => p.wf = true ∧ p.kind = 2 ∧
      p.payload.length = 16 ∧ (s.link l.val).mode = .up ∧ uid = payloadField p.payload 0 8 ∧ uid ≠ ownUid ∧
      payloadField p.payload 8 2 = 0x8000 + a ∧ a < 4096 ∧ q = payloadField p.payload 10 2 ∧ s.router.seen = [] ∧
      s.get oneKey Reg.FAB_ADDR_STATE = 0 ∧ (s.route a).mode = 0) 7 (claim farUid (0x8000 + 4095) 65535) 4095 farUid
      65535 (lup up)) ∧
    ((fun (s : State) => s.get oneKey Reg.FAB_ADDR_STATE = 1) (adr 1 (lup up))) ∧
    ((fun (a : Nat) (s : State) => s.get oneKey Reg.FAB_ADDR_STATE = 1 ∧ s.router.since + 40000000 ≤ s.tref ∧
      a = s.get oneKey Reg.FAB_ADDR_ADDR) 77 (adr 1 (lup up))) ∧
    ((fun (a : Nat) (s : State) => s.flag oneKey Reg.FAB_CTL_EN = true ∧ s.get oneKey Reg.FAB_ADDR_STATE = 0 ∧
      s.router.since + 2000000000 ≤ s.tref ∧ s.flag oneKey Reg.FAB_CLAIM_USE_PREF = true ∧
      a = s.get oneKey Reg.FAB_CLAIM_PREF ∧ (s.route a).mode = 0) 4095 (((en (lup up)).put oneKey
      Reg.FAB_CLAIM_USE_PREF 1).put oneKey Reg.FAB_CLAIM_PREF 4095)) ∧
    ((fun (l : Fin 8) (p : Packet) (a : Nat) (j : Nat) (m : Nat) (s : State) => p.wf = true ∧ p.kind = 3 ∧
      p.payload.length = 1026 ∧ (s.link l.val).mode = .up ∧ j < 1024 ∧
      a = payloadField p.payload 0 1 % 4 * 1024 + j ∧ m = payloadField p.payload (2 + j) 1 ∧ 0 < m ∧
      m + s.linkCost l.val < 64 ∧ (s.route a).mode ≠ 3) 7 page 4095 1023 62 (lup up)) ∧
    ((fun (l : Fin 8) (s : State) => s.ownAddr.isSome = true ∧ (s.link l.val).mode = .up ∧
      (s.link l.val).queue = [] ∧ (s.link l.val).credit = fullCredit ∧
      (∀ k : Nat, k < 4 → s.pageFree k l.val = true)) 7 (adr 2 (lup up))) ∧
    ((fun (l : Fin 8) (page : Nat) (s : State) => s.ownAddr.isSome = true ∧ (s.link l.val).mode = .up ∧
      (s.link l.val).queue = [] ∧ (s.link l.val).credit = fullCredit ∧ s.router.dirty = [page] ∧
      (∀ k ∈ s.upLinks, s.pageFree page k = true)) 7 3 (adr 2
      { lup up with router := { Router.reset with dirty := [3] } })) ∧
    ((fun (a : BitVec 12) (l : Fin 8) (m : Nat) (u : Nat) (s : State) => s.upLinks = [l.val] ∧
      tblFind s.offers (8 * a.toNat + l.val) = some (m, u) ∧ u + 70000000 ≤ s.tref ∧
      (s.route a.toNat).mode = 1) 4095 7 1 2930000000 off) ∧
    ((fun (a : BitVec 12) (s : State) => (s.route a.toNat).mode = 2 ∧
      (s.route a.toNat).changed + 120000000000 ≤ s.tref) 4095
      ({ lup up with routes := [(4095, ⟨2, 5, 64, 7, none, 0⟩)], tref := 120000000000 })) ∧
    ((fun (s : State) => s.isRoot = false ∧ s.flag oneKey Reg.FAB_STAT_TSYNC = true ∧
      s.router.exchangeAt + 20000000 ≤ s.tref) (((lup up).put oneKey Reg.FAB_STAT_TSYNC 1).put oneKey
      Reg.FAB_STAT_ROOT 0)) := 
  ⟨⟨rfl, rfl, rfl, rfl, uid_front _ farUid_lt _, farUid_ne, (after_uid _ _ 0 2).trans (by decide +kernel), by decide, ((after_uid _ _ 2 2).trans (by decide +kernel)).symm, rfl, rfl, rfl⟩, by decide +kernel, by decide +kernel, by decide +kernel, by decide +kernel, by decide +kernel, by decide +kernel, by decide +kernel, by decide +kernel, by decide +kernel⟩

theorem meets_FabricTimeAndRolesFollowTheExchanges :
    ((fun (l : Fin 8) (s : State) => (s.link l.val).mode = .up ∧
      (s.link l.val).role = 1) 7 (lk { L with seq := 63 } up)) ∧
    ((fun (l : Fin 8) (turn : Nat) (s : State) => turn ≤ 100000 ∧ (s.link l.val).mode = .up ∧
      (s.link l.val).role = 2) 7 100000 (lk { L with role := 2 } up)) ∧
    ((fun (l : Fin 8) (seq : Fin 64) (s : State) => (s.link l.val).mode = .up ∧ (s.link l.val).role = 1 ∧
      (s.link l.val).seq = seq.val) 7 63 (lk { L with seq := 63, t12 := 2 ^ 50 + 3 } up)) ∧
    ((fun (l : Fin 8) (seq : Fin 64) (t1 : BitVec 48) (t4 : BitVec 48) (a : Int) (b : Int) (s : State) => (s.link
      l.val).mode = .up ∧ (s.link l.val).role = 2 ∧ (s.link l.val).seq = seq.val ∧
      a = ((s.link l.val).t12 : Int) - (s.timeNs / 2 ^ 48 * 2 ^ 48 + t1.toNat : Nat) ∧
      b = ((s.timeNs / 2 ^ 48 * 2 ^ 48 + t4.toNat : Nat) : Int) - ((s.link l.val).t3 : Int) ∧ 0 ≤ (a + b).tdiv 2 ∧
      (a + b).tdiv 2 < 0x100000 ∧ s.reg (linkKey l.val + Reg.LK_ASYM) = 0 ∧ s.router.parent = some l.val ∧
      -500000 < (a - b).tdiv 2 ∧ (a - b).tdiv 2 < 500000) 7 63 5000 24563 5437 4563 ({ ch with freeCount := 3 })) ∧
    ((fun (m : Master) (hi : Word) (ns : Nat) (s : State) => s.blockWriteOk m blkFabric = true ∧
      ns = (s.staged m Reg.FAB_TSET (s.reg (oneKey + Reg.FAB_TSET))).toNat + 0x100000 * (s.staged m (Reg.FAB_TSET +
      1) (s.reg (oneKey + Reg.FAB_TSET + 1))).toNat + 0x10000000000 * hi.toNat) (.port 0) 0xFFFFF 0xFFFFF0000000000
      (lup (up.put oneKey Reg.FAB_STAT_ROOT 1))) ∧
    ((fun (l : Fin 8) (m : Master) (s : State) => s.blockWriteOk m blkFabric = true ∧
      (s.link l.val).backoff = none) 7 (.port 0) (lk { L with roleSeq := 255 } up)) ∧
    ((fun (l : Fin 8) (s : State) => (s.link l.val).mode = .up ∧ (s.link l.val).role ≠ 0 ∧
      3 ≤ (s.link l.val).wrong ∧ (s.link l.val).req = none ∧ (s.link l.val).backoff = none) 7 (lk
      { L with wrong := 3 } up)) ∧
    ((fun (l : Fin 8) (s : State) => (s.link l.val).mode = .up ∧ (s.link l.val).req = none) 7 (lup up)) ∧
    ((fun (l : Fin 8) (seq : Byte) (s : State) => (s.link l.val).asked seq.toNat = true) 7 255 (lk
      { L with req := some (255, 2) } up)) ∧
    ((fun (l : Fin 8) (seq : Byte) (s : State) => (s.link l.val).asked seq.toNat = true) 7 255 (lk
      { L with req := some (255, 2) } up)) ∧
    ((fun (l : Fin 8) (seq : Byte) (s : State) => (s.link l.val).asked seq.toNat = true) 7 255 (lk
      { L with req := some (255, 2) } up)) ∧
    ((fun (l : Fin 8) (q : Nat) (u : Nat) (s : State) => (s.link l.val).req = some (q, u) ∧
      u + 1000000 ≤ s.tref) 7 255 2 (lk { L with req := some (255, 2) } up)) ∧
    ((fun (l : Fin 8) (u : Nat) (s : State) => (s.link l.val).backoff = some u ∧ u ≤ s.tref ∧
      (s.link l.val).fwReq = false ∧ (s.link l.val).wrong < 3) 7 3000000000 (lk
      { L with backoff := some 3000000000 } up)) := by
  refine ⟨?_, ?_, ?_, ?_, ?_, ?_, ?_, ?_, ?_, ?_, ?_, ?_, ?_⟩ <;> decide +kernel

theorem meets_PacketsGoWhereTheyAreSent :
    ((fun (l : Fin 8) (p : Packet) (s : State) => p.wf = true ∧ (s.link l.val).mode = .up) 7 (pk 6 []) aup) ∧
    ((fun (l : Fin 8) (p : Packet) (s : State) => p.wf = true ∧ (s.link l.val).mode = .up ∧
      (p.known = false ∨ (5 < p.kind ∧ s.isFor p = false ∧ p.ttl ≤ 1))) 7 ({ pk 6 [] with ttl := 1, dst := 5 }) aup) ∧
    ((fun (l : Fin 8) (p : Packet) (k : Nat) (s : State) => p.wf = true ∧ (s.link l.val).mode = .up ∧
      p.known = true ∧ 5 < p.kind ∧ s.isFor p = false ∧ 1 < p.ttl ∧
      s.nextHop p.dst.toNat = some k) 7 ({ pk 6 [] with dst := 4095 }) 7
      ({ aup with routes := [(4095, ⟨1, 5, 2, 7, none, 0⟩)] })) ∧
    ((fun (l : Fin 8) (p : Packet) (k : AlarmKey) (s : State) => p.wf = true ∧ p.kind = 4 ∧ p.payload.length = 20 ∧
      (s.link l.val).mode = .up ∧ k = alarmKey l.val p ∧ s.router.cache = []) 7 al (alarmKey 7 al) aup) ∧
    ((fun (l : Fin 8) (p : Packet) (k : AlarmKey) (n : Nat) (s : State) => p.wf = true ∧ p.kind = 4 ∧
      p.payload.length = 20 ∧ (s.link l.val).mode = .up ∧ k = alarmKey l.val p ∧
      s.suppressed k = some n) 7 al (alarmKey 7 al) 3 (ca (alarmKey 7 al))) ∧
    ((fun (l : Fin 8) (p : Packet) (k : AlarmKey) (n : Nat) (s : State) => p.wf = true ∧ p.kind = 5 ∧
      p.payload.length = 16 ∧ (s.link l.val).mode = .up ∧ k = alsumKey l.val p ∧
      s.suppressed k = some n) 7 su (alsumKey 7 su) 3 (ca (alsumKey 7 su))) ∧
    ((fun (k : AlarmKey) (n : Nat) (s : State) => s.suppressed k = some n ∧ s.summaryTime k ≤ s.timeNs ∧
      s.router.inject = []) ky 3 (ca ky)) ∧
    ((fun (l : Fin 8) (p : Packet) (c : Cmd) (a : Nat) (s : State) => p.wf = true ∧ p.kind = 6 ∧
      (s.link l.val).mode = .up ∧ s.ownAddr = some a ∧ s.isFor p = true ∧
      parseCmd (some (p.src.toNat, p.tag.toNat)) p.payload = some c ∧ c.routed = true ∧ 2 ≤ c.params.length ∧
      payloadField c.params 0 2 % 4096 = a ∧ (s.port 2).queue.length < 16) 7 cp cc 77 (aup.put oneKey
      Reg.FAB_CTL_RCMD 1)) ∧
    ((fun (l : Fin 8) (p : Packet) (c : Cmd) (u : Nat) (s : State) => p.wf = true ∧ p.kind = 7 ∧
      (s.link l.val).mode = .up ∧ s.isFor p = true ∧ (s.port 0).routed = [(c, p.tag.toNat, u)]) 7 (pk 7 [1, 2, 3])
      cc 3 (rt 0 aup)) ∧
    ((fun (l : Fin 8) (p : Packet) (s : State) => p.wf = true ∧ p.kind = 7 ∧ (s.link l.val).mode = .up ∧
      s.isFor p = true ∧ (s.port 0).routed = [] ∧ (s.port 1).routed = []) 7 (pk 7 [1, 2, 3]) aup) ∧
    ((fun (l : Fin 8) (p : Packet) (op : Fin 3) (parm : BitVec 15) (origin : BitVec 20) (s : State) => p.wf = true ∧
      p.kind = 8 ∧ (s.link l.val).mode = .up ∧ s.isFor p = true ∧ s.arcCommits = true ∧
      (op = 0 → parm.toNat ≤ 4095) ∧ origin.toNat ≤ 4) 7 (pk 8 []) 0 4095 4 ((aup.put oneKey Reg.AR_CTL_EN 1).put
      oneKey Reg.AR_STAT_READY 1)) ∧
    ((fun (l : Fin 8) (p : Packet) (s : State) => p.wf = true ∧ p.kind = 9 ∧ (s.link l.val).mode = .up ∧
      s.isFor p = true) 7 (pk 9 []) aup) ∧
    ((fun (l : Fin 8) (p : Packet) (c : Cmd) (tag : Nat) (st : Nat) (u : Nat) (s : State) => p.wf = true ∧
      p.kind = 12 ∧ p.payload.length = 8 ∧ (s.link l.val).mode = .up ∧ s.isFor p = true ∧
      payloadField p.payload 0 1 = 6 ∧ tag = payloadField p.payload 4 4 ∧ st = payloadField p.payload 1 1 ∧
      (s.port 0).routed = [(c, tag, u)] ∧ (s.port 1).routed = []) 7 (pk 12 [6, 200, 0, 5, 0, 0, 0, 9]) cc 9 200 3
      (rt 0 aup)) ∧
    ((fun (p : Fin 2) (tag : BitVec 32) (c : Cmd) (u : Nat) (s : State) => (s.port p.val).routed = [(c, tag.toNat,
      u)] ∧ u + 200000 * max 1 (s.get oneKey Reg.FAB_CMD_TMO_MS) ≤ s.tref) 1 9 cc 3 (rt 1 aup)) := by
  refine ⟨?_, ?_, ?_, ?_, ?_, ?_, ?_, ?_, ?_, ?_, ?_, ?_, ?_, ?_⟩ <;> decide +kernel

end S13

namespace S14

def ws : Tbl Word := [(1, 0x7FFFF), (2, 0x80000), (3, 5), (4, 0xFFFFF), (5, 0x12345), (15, 0x80000)]
def sw : Steward := { Steward.reset with mode := .running, w := ws, pc := 0x3FFFE, acc := 0x80FFFFF12345#48, load := some (3, 0x55) }
def mem (w x : Word) : State :=
  { (up.setSteward 7 { sw with load := none }) with imem := [(0x7FFFE, w), (0x7FFFF, x)].filter (fun e => e.2 ≠ 0) }
def memL (w x : Word) : State :=
  { (up.setSteward 7 sw) with imem := [(0x7FFFE, w), (0x7FFFF, x)].filter (fun e => e.2 ≠ 0) }
def fw (w x : Word) : Fetched := ⟨0x3FFFE, w, x, isLong w⟩
def ad : Word := 0x08000 + 4 * 2048 + 1 * 128 + 2 * 8
def bk (a : Nat) (s : State) : State := s.setBank .B a 0x777
def bkA (a : Nat) (s : State) : State := s.setBank .A a 0x777
def nt (s : State) : State := { s with trefRuns := false }
def rv (a : Word) (s : State) : State := s.setSteward 7 { s.steward 7 with rsv := some a }
def sr (v : Word) (s : State) : State := s.setSteward 7 { s.steward 7 with cr := tblSet (s.steward 7).cr 0 0 v }
def mo (v : StewMode) (s : State) : State := s.setSteward 7 { s.steward 7 with mode := v }
def loo (l n : Nat) (s : State) : State := s.setSteward 7
  { s.steward 7 with cr := tblSet (tblSet (tblSet (s.steward 7).cr 0 (crLE l) 0x3FFFE) 0 (crLS l) 0x77) 0 (crLC l) (BitVec.ofNat 20 n) }
def fw0 (w : Word) : Fetched := ⟨0x10, w, 0, false⟩
def vc (w a : Word) : State :=
  { up.setSteward 8 { sw with load := none, pc := 0x10, w := [(1, a), (5, 0x12345)] } with vmem := [(0x10, w)] }.put
  oneKey Reg.VC_SPLIT_SPLIT 0x2000
def dn (s : State) : State := { s with halfA := HalfState.reset }
def fx (w x : Word) : State := (fetchAt 7 0x3FFFE (memL w x)).2

theorem some_getD {o : Option State} (h : o.isSome = true) (d : State) : o = some (o.getD d) := by
  cases o with
  | some x => rfl
  | none => cases h

theorem meets_ArithmeticInstructionsWriteTheirResult :
    ((fun (k : Fin 9) (f : Fetched) (c : Instr) (a : Word) (b : Word) (v : Word) (s : State) => s.runsNext k.val f =
      true ∧ a = wreg (s.steward k.val) (bits f.w 10 7) ∧ b = wreg (s.steward k.val) (bits f.w 6 3) ∧
      (c, bits f.w 19 15, bits f.w 2 0, v) ∈ [ (Instr.add k, 1, 0, a + b), (.sub k, 1, 1, a - b), (.andRR k, 1, 2, a
      &&& b), (.orRR k, 1, 3, a ||| b), (.xorRR k, 1, 4, a ^^^ b), (.slt k, 1, 5, if a.toInt < b.toInt then 1 else
      0), (.sltu k, 1, 6, if a.toNat < b.toNat then 1 else 0), (.andn k, 1, 7, a &&& ~~~b), (.sll k, 2, 0, a <<<
      (b.toNat % 32)), (.srl k, 2, 1, a >>> (b.toNat % 32)), (.sra k, 2, 2, a.sshiftRight (b.toNat % 32)), (.adds k,
      2, 3, BitVec.ofInt 20 (max (-0x80000) (min 0x7FFFF (a.toInt + b.toInt)))), (.subs k, 2, 4, BitVec.ofInt 20
      (max (-0x80000) (min 0x7FFFF (a.toInt - b.toInt)))), (.addus k, 2, 5, BitVec.ofNat 20 (min (a.toNat + b.toNat)
      0xFFFFF)), (.subus k, 2, 6, BitVec.ofNat 20 (a.toNat - b.toNat))]) 7 (fw 41104 0) (.add 7) 524287 524288
      1048575 (memL 41104 0)) ∧
    ((fun (k : Fin 9) (f : Fetched) (c : Instr) (a : Word) (v : Word) (s : State) => s.runsNext k.val f = true ∧
      a = wreg (s.steward k.val) (bits f.w 10 7) ∧ (c, bits f.w 19 15, v) ∈ [ (Instr.addi k, 5, a + BitVec.ofInt 20
      (signed 7 (bits f.w 6 0))), (.movi k, 14, BitVec.ofInt 20 (signed 11 (bits f.w 10 0)))]) 7 (fw 172480 0)
      (.addi 7) 5 1048517 (memL 172480 0)) ∧
    ((fun (k : Fin 9) (f : Fetched) (c : Instr) (a : Word) (v : Word) (s : State) => s.runsNext k.val f = true ∧
      a = wreg (s.steward k.val) (bits f.w 10 7) ∧ bits f.w 19 15 = 6 ∧
      (c, bits f.w 6 5, v) ∈ [ (Instr.slli k, 0, a <<< bits f.w 4 0), (.srli k, 1, a >>> bits f.w 4 0), (.srai k, 2,
      a.sshiftRight (bits f.w 4 0))]) 7 (fw 205075 0) (.slli 7) 524288 0 (memL 205075 0)) ∧
    ((fun (k : Fin 9) (f : Fetched) (c : Instr) (a : Word) (x : Word) (v : Word) (s : State) => s.runsNext k.val f =
      true ∧ a = wreg (s.steward k.val) (bits f.w 10 7) ∧ x = f.ext ∧ bits f.w 19 15 = 16 ∧ bits f.w 3 0 = 0 ∧
      (c, bits f.w 6 4, v) ∈ [ (Instr.addiLong k, 0, a + x), (.andi k, 1, a &&& x), (.ori k, 2, a ||| x), (.xori k,
      3, a ^^^ x), (.slti k, 4, if a.toInt < x.toInt then 1 else 0), (.sltiu k, 5, if a.toNat < x.toNat then 1 else
      0), (.addsi k, 6, BitVec.ofInt 20 (max (-0x80000) (min 0x7FFFF (a.toInt + x.toInt))))]) 7 (fw 532736 1048575)
      (.addiLong 7) 524288 1048575 524287 (memL 532736 1048575)) ∧
    ((fun (w : Word) => (bits w 19 15 = 2 ∧ bits w 2 0 = 7) ∨ (bits w 19 15 = 6 ∧
      bits w 6 5 = 3) ∨ (bits w 19 15 = 16 ∧ bits w 6 4 = 7)) 65543) := by
  refine ⟨?_, ?_, ?_, ?_, ?_⟩ <;> decide +kernel

theorem meets_MultiplierAndAccumulatorFollowTheirTables :
    ((fun (k : Fin 9) (f : Fetched) (c : Instr) (a : Word) (b : Word) (v : Word) (s : State) => s.runsNext k.val f =
      true ∧ a = wreg (s.steward k.val) (bits f.w 10 7) ∧ b = wreg (s.steward k.val) (bits f.w 6 3) ∧
      bits f.w 19 15 = 3 ∧ (c, bits f.w 2 0, v) ∈ [ (Instr.mul k, 0, BitVec.ofInt 20 (a.toInt * b.toInt)), (.mulh k,
      1, BitVec.ofInt 20 (a.toInt * b.toInt / 2 ^ 20)), (.mulhu k, 2, BitVec.ofNat 20 (a.toNat * b.toNat / 2 ^
      20))]) 7 (fw 107024 0) (.mul 7) 1048575 524288 524288 (memL 107024 0)) ∧
    ((fun (k : Fin 9) (f : Fetched) (c : Instr) (a : Word) (b : Word) (acc : BitVec 48) (v : BitVec 48) (s : State)
      => s.runsNext k.val f = true ∧ a = wreg (s.steward k.val) (bits f.w 10 7) ∧
      b = wreg (s.steward k.val) (bits f.w 6 3) ∧ acc = (s.steward k.val).acc ∧ bits f.w 19 15 = 3 ∧
      bits f.w 14 11 = 0 ∧ (c, bits f.w 2 0, v) ∈ [ (Instr.mac k, 3, acc + BitVec.ofInt 48 (a.toInt * b.toInt)),
      (.macu k, 4, acc + BitVec.ofNat 48 (a.toNat * b.toNat)), (.msu k, 5, acc - BitVec.ofInt 48 (a.toInt *
      b.toInt)), (.macs k, 6, BitVec.ofInt 48 (max (-(2 ^ 47)) (min (2 ^ 47 - 1) (acc.toInt + a.toInt *
      b.toInt))))]) 7 (fw 98835 0) (.mac 7) 1048575 524288 (0x80FFFFF12345#48) (0x80FFFFF92345#48) (memL 98835 0)) ∧
    ((fun (k : Fin 9) (f : Fetched) (n : Nat) (acc : BitVec 48) (s : State) => s.runsNext k.val f = true ∧
      acc = (s.steward k.val).acc ∧ bits f.w 19 15 = 4 ∧ bits f.w 6 5 = 0 ∧
      n = bits f.w 4 0) 7 (fw 139264 0) 0 (0x80FFFFF12345#48) (memL 139264 0)) ∧
    ((fun (k : Fin 9) (f : Fetched) (acc : BitVec 48) (v : Word) (s : State) => s.runsNext k.val f = true ∧
      acc = (s.steward k.val).acc ∧ bits f.w 19 15 = 4 ∧ bits f.w 6 5 = 1 ∧
      (bits f.w 4 0, v) ∈ [(0, acc.extractLsb' 0 20), (1, acc.extractLsb' 20 20), (2, (acc.extractLsb' 40
      8).signExtend 20)]) 7 (fw 139296 0) (0x80FFFFF12345#48) 74565 (memL 139296 0)) ∧
    ((fun (k : Fin 9) (f : Fetched) (acc : BitVec 48) (v : BitVec 48) (a : Word) (s : State) => s.runsNext k.val f =
      true ∧ acc = (s.steward k.val).acc ∧ a = wreg (s.steward k.val) (bits f.w 10 7) ∧ bits f.w 19 15 = 4 ∧
      bits f.w 6 5 = 2 ∧ bits f.w 14 11 = 0 ∧ (bits f.w 4 0, v) ∈ [(0, a.signExtend 48), (1, acc.extractLsb' 20 28
      ++ a), (2, acc.extractLsb' 40 8 ++ a ++ acc.extractLsb' 0 20), (3, a.extractLsb' 0 8 ++ acc.extractLsb' 0
      40)]) 7 (fw 131392 0) (0x80FFFFF12345#48) (0xFFFFFFF80000#48) 524288 (memL 131392 0)) ∧
    ((fun (w : Word) => (bits w 19 15 = 3 ∧ (bits w 2 0 = 7 ∨ (3 ≤ bits w 2 0 ∧
      bits w 14 11 ≠ 0))) ∨ (bits w 19 15 = 4 ∧ (bits w 6 5 = 3 ∨ (bits w 6 5 = 1 ∧
      bits w 4 0 = 3) ∨ (bits w 6 5 = 2 ∧ (4 ≤ bits w 4 0 ∨ bits w 14 11 ≠ 0))))) 98311) := by
  refine ⟨?_, ?_, ?_, ?_, ?_, ?_⟩ <;> decide +kernel

theorem meets_LoadsStoresAndAtomicsReachTheirWord :
    ((fun (k : Fin 9) (f : Fetched) (c : Instr) (a : Word) (w : Word) (s : State) => s.runsNext k.val f = true ∧
      (c, bits f.w 19 15, a) ∈ [ (Instr.ld k, 7, wreg (s.steward k.val) (bits f.w 10 7) + BitVec.ofInt 20 (signed 7
      (bits f.w 6 0))), (.ldx k, 17, wreg (s.steward k.val) (bits f.w 10 7) + f.ext)] ∧
      (bits f.w 19 15 = 17 → bits f.w 6 0 = 0) ∧ s.stewHeld k.val a.toNat = false ∧
      (dataRead k.val a.toNat s).1 = .word w) 7 (fw 236287 0) (.ld 7) 74564 0x777 (bk 0x12344 <| memL 236287 0)) ∧
    ((fun (k : Fin 8) (f : Fetched) (c : Instr) (a : Word) (v : Word) (s : State) => s.runsNext k.val f = true ∧
      (c, bits f.w 19 15, a) ∈ [ (Instr.st ⟨k.val, by omega⟩ false, 8, wreg (s.steward k.val) (bits f.w 10 7) +
      BitVec.ofInt 20 (signed 7 (bits f.w 6 0))), (.stx ⟨k.val, by omega⟩ false, 18, wreg (s.steward k.val) (bits
      f.w 10 7) + f.ext)] ∧ (bits f.w 19 15 = 18 → bits f.w 6 0 = 0) ∧ s.stewHeld k.val a.toNat = false ∧
      (a.toNat < 0x80000 ∨ s.memoryUp (stewHalf k.val).other = true) ∧
      v = wreg (s.steward k.val) (bits f.w 14 11)) 7 (fw 273151 0) (.st 7 false) 74564 74565 (memL 273151 0)) ∧
    ((fun (k : Fin 8) (f : Fetched) (c : Instr) (a : Word) (s : State) => s.runsNext k.val f = true ∧
      (c, bits f.w 19 15, a) ∈ [ (Instr.st ⟨k.val, by omega⟩ true, 8, wreg (s.steward k.val) (bits f.w 10 7) +
      BitVec.ofInt 20 (signed 7 (bits f.w 6 0))), (.stx ⟨k.val, by omega⟩ true, 18, wreg (s.steward k.val) (bits f.w
      10 7) + f.ext)] ∧ (bits f.w 19 15 = 18 → bits f.w 6 0 = 0) ∧ s.stewHeld k.val a.toNat = false ∧
      (a.toNat < 0x80000 ∨ s.memoryUp (stewHalf k.val).other = true)) 7 (fw 273151 0) (.st 7 true) 74564 (memL
      273151 0)) ∧
    ((fun (k : Fin 8) (clash : Bool) (f : Fetched) (c : Instr) (a : Word) (s : State) => s.runsNext k.val f = true ∧
      (c, bits f.w 19 15, a) ∈ [ (Instr.st ⟨k.val, by omega⟩ clash, 8, wreg (s.steward k.val) (bits f.w 10 7) +
      BitVec.ofInt 20 (signed 7 (bits f.w 6 0))), (.stx ⟨k.val, by omega⟩ clash, 18, wreg (s.steward k.val) (bits
      f.w 10 7) + f.ext)] ∧ (bits f.w 19 15 = 18 → bits f.w 6 0 = 0) ∧ s.stewHeld k.val a.toNat = false ∧
      0x80000 ≤ a.toNat ∧ s.memoryUp (stewHalf k.val).other = false) 7 false (fw 600704 524288) (.stx 7 false)
      598853 (dn (memL 600704 524288))) ∧
    ((fun (clash : Bool) (f : Fetched) (c : Instr) (a : Word) (v : Word) (s : State) => s.runsNext 8 f = true ∧
      (c, bits f.w 19 15, a) ∈ [ (Instr.st 8 clash, 8, wreg (s.steward 8) (bits f.w 10 7) + BitVec.ofInt 20 (signed
      7 (bits f.w 6 0))), (.stx 8 clash, 18, wreg (s.steward 8) (bits f.w 10 7) + f.ext)] ∧
      (bits f.w 19 15 = 18 → bits f.w 6 0 = 0) ∧ a.toNat < 0x4000 ∧ s.vcSplit ≤ a.toNat ∧
      v = wreg (s.steward 8) (bits f.w 14 11)) false (fw0 272639) (.st 8 false) 16382 0x12345 (vc 272639 0x3FFF)) ∧
    ((fun (k : Fin 9) (f : Fetched) (c : Instr) (a : Word) (s : State) (x : State) (u : State) => s.runsNext k.val f
      = true ∧ (c, bits f.w 19 15, a) ∈ [ (Instr.inShort k, 9, wreg (s.steward k.val) (bits f.w 10 7) + BitVec.ofInt
      20 (signed 7 (bits f.w 6 0))), (.inx k, 19, wreg (s.steward k.val) (bits f.w 10 7) + f.ext)] ∧
      (bits f.w 19 15 = 19 → bits f.w 6 0 = 0) ∧ x = (fetchAt k.val (s.steward k.val).pc s).2 ∧ (if k.val < 8 ∧
      0x80000 ≤ a.toNat then x.admitted (stewHalf k.val) actStew 1 else x.stewAck k.val a.toNat) = some u) 7 (fw
      305281 0) (.inShort 7) 524288 (memL 305281 0) (fx 305281 0) (((fx 305281 0).admitted .B actStew 1).getD up)) ∧
    ((fun (k : Fin 9) (f : Fetched) (c : Instr) (a : Word) (v : Word) (s : State) (u : State) => s.runsNext k.val f
      = true ∧ (c, bits f.w 19 15, a) ∈ [ (Instr.out k, 10, wreg (s.steward k.val) (bits f.w 10 7) + BitVec.ofInt 20
      (signed 7 (bits f.w 6 0))), (.outx k, 20, wreg (s.steward k.val) (bits f.w 10 7) + f.ext)] ∧
      (bits f.w 19 15 = 20 → bits f.w 6 0 = 0) ∧ (fetchAt k.val (s.steward k.val).pc s).2.stewAck k.val a.toNat =
      some u ∧ v = wreg (s.steward k.val) (bits f.w 14 11)) 7 (fw 665984 3072) (.outx 7) 3077 74565 (memL 665984
      3072) (((fx 665984 3072).stewAck 7 3077).getD up)) ∧
    ((fun (k : Fin 9) (f : Fetched) (a : Word) (w : Word) (s : State) => s.runsNext k.val f = true ∧
      bits f.w 19 15 = 12 ∧ bits f.w 2 0 = 0 ∧ bits f.w 6 3 = 0 ∧ a = wreg (s.steward k.val) (bits f.w 10 7) ∧
      s.stewHeld k.val a.toNat = false ∧ (dataRead k.val a.toNat s).1 = .word w) 7 (fw 402048 0) 74565 0x777 (bk
      0x12345 <| memL 402048 0)) ∧
    ((fun (k : Fin 8) (f : Fetched) (a : Word) (s : State) => s.runsNext k.val f = true ∧ bits f.w 19 15 = 12 ∧
      bits f.w 2 0 = 1 ∧ a = wreg (s.steward k.val) (bits f.w 10 7) ∧ s.stewHeld k.val a.toNat = false ∧
      (s.steward k.val).rsv = some a ∧ (a.toNat < 0x80000 ∨ s.memoryUp (stewHalf k.val).other = true)) 7 (fw 402081
      0) 74565 (rv 0x12345 <| memL 402081 0)) ∧
    ((fun (k : Fin 9) (clash : Bool) (f : Fetched) (a : Word) (s : State) => s.runsNext k.val f = true ∧
      bits f.w 19 15 = 12 ∧ bits f.w 2 0 = 1 ∧ a = wreg (s.steward k.val) (bits f.w 10 7) ∧
      s.stewHeld k.val a.toNat = false ∧ ((s.steward k.val).rsv ≠ some a ∨ clash = true)) 7 true (fw 402081 0) 74565
      (rv 0x12345 <| memL 402081 0)) ∧
    ((fun (k : Fin 8) (f : Fetched) (a : Word) (w : Word) (s : State) => s.runsNext k.val f = true ∧
      bits f.w 19 15 = 12 ∧ bits f.w 2 0 = 2 ∧ bits f.w 6 3 = 0 ∧ a = wreg (s.steward k.val) (bits f.w 10 7) ∧
      s.stewHeld k.val a.toNat = false ∧ (dataRead k.val a.toNat s).1 = .word w ∧
      (a.toNat < 0x80000 ∨ s.memoryUp (stewHalf k.val).other = true)) 7 (fw 402050 0) 74565 0x777 (bk 0x12345 <|
      memL 402050 0)) := 
  ⟨by decide +kernel, by decide +kernel, by decide +kernel, by decide +kernel, by decide +kernel, by decide +kernel, ⟨by decide +kernel, by decide +kernel, by decide +kernel, some_getD (by decide +kernel) up, by decide +kernel⟩, by decide +kernel, by decide +kernel, by decide +kernel, by decide +kernel⟩

theorem meets_BlockInstructionsGoWordByWord :
    ((fun (k : Fin 8) (f : Fetched) (d : Nat) (r : Nat) (c : Nat) (n : Word) (w : Word) (s : State) => s.runsNext
      k.val f = true ∧ bits f.w 19 15 = 13 ∧ bits f.w 2 0 = 0 ∧ d = bits f.w 14 11 ∧ r = bits f.w 10 7 ∧
      c = bits f.w 6 3 ∧ d ≠ 0 ∧ r ≠ 0 ∧ c ≠ 0 ∧ d ≠ r ∧ d ≠ c ∧ r ≠ c ∧ n = s.settled k.val c ∧ n ≠ 0 ∧
      s.stewHeldBoth k.val (s.settled k.val r).toNat (s.settled k.val d).toNat = false ∧
      (dataRead k.val (s.settled k.val r).toNat s).1 = .word w ∧
      ((s.settled k.val d).toNat < 0x80000 ∨ s.memoryUp (stewHalf k.val).other = true)) 7 (fw 436760 0) 5 4 3 0x55
      0x777 (nt <| bkA 0x7FFFF <| memL 436760 0)) ∧
    ((fun (k : Fin 8) (f : Fetched) (d : Nat) (r : Nat) (c : Nat) (n : Word) (s : State) => s.runsNext k.val f =
      true ∧ bits f.w 19 15 = 13 ∧ bits f.w 2 0 = 1 ∧ d = bits f.w 14 11 ∧ r = bits f.w 10 7 ∧ c = bits f.w 6 3 ∧
      d ≠ 0 ∧ c ≠ 0 ∧ d ≠ r ∧ d ≠ c ∧ r ≠ c ∧ n = s.settled k.val c ∧ n ≠ 0 ∧
      s.stewHeld k.val (s.settled k.val d).toNat = false ∧ ((s.settled k.val d).toNat < 0x80000 ∨ s.memoryUp
      (stewHalf k.val).other = true)) 7 (fw 436377 0) 5 1 3 0x55 (memL 436377 0)) ∧
    ((fun (k : Fin 9) (f : Fetched) (r : Nat) (c : Nat) (n : Word) (w : Word) (s : State) => s.runsNext k.val f =
      true ∧ bits f.w 19 15 = 13 ∧ bits f.w 2 0 = 2 ∧ bits f.w 14 11 ≤ 2 ∧ r = bits f.w 10 7 ∧ c = bits f.w 6 3 ∧
      r ≠ 0 ∧ c ≠ 0 ∧ r ≠ c ∧ n = s.settled k.val c ∧ n ≠ 0 ∧ s.stewHeld k.val (s.settled k.val r).toNat = false ∧
      (dataRead k.val (s.settled k.val r).toNat s).1 = .word w) 7 (fw 426522 0) 4 3 5 0x777 (bkA 0x7FFFF <| mem
      426522 0)) ∧
    ((fun (k : Fin 9) (clash : Bool) (f : Fetched) (c : Instr) (d : Nat) (r : Nat) (n : Nat) (s : State) =>
      s.runsNext k.val f = true ∧ bits f.w 19 15 = 13 ∧ (bits f.w 2 0 = 2 → bits f.w 14 11 ≤ 2) ∧
      d = bits f.w 14 11 ∧ r = bits f.w 10 7 ∧ n = bits f.w 6 3 ∧
      (c, bits f.w 2 0, false) ∈ [ (Instr.blkmov k clash, 0, decide (d = 0 ∨ r = 0 ∨ n = 0 ∨ d = r ∨ d = n ∨ r =
      n)), (.blkfill k clash, 1, decide (d = 0 ∨ n = 0 ∨ d = r ∨ d = n ∨ r = n)), (.blkcrc k, 2, decide (r = 0 ∨ n =
      0 ∨ r = n))] ∧ s.settled k.val n = 0) 7 false (fw 436808 0) (.blkmov 7 false) 5 4 9 (memL 436808 0)) ∧
    ((fun (k : Fin 9) (clash : Bool) (f : Fetched) (c : Instr) (d : Nat) (r : Nat) (n : Nat) (s : State) =>
      s.runsNext k.val f = true ∧ bits f.w 19 15 = 13 ∧ (bits f.w 2 0 = 2 → bits f.w 14 11 ≤ 2) ∧
      d = bits f.w 14 11 ∧ r = bits f.w 10 7 ∧ n = bits f.w 6 3 ∧
      (c, bits f.w 2 0, true) ∈ [ (Instr.blkmov k clash, 0, decide (d = 0 ∨ r = 0 ∨ n = 0 ∨ d = r ∨ d = n ∨ r = n)),
      (.blkfill k clash, 1, decide (d = 0 ∨ n = 0 ∨ d = r ∨ d = n ∨ r = n)), (.blkcrc k, 2, decide (r = 0 ∨ n = 0 ∨
      r = n))] ∧ srTH (s.steward k.val) = false) 7 false (fw 436776 0) (.blkmov 7 false) 5 4 5 (memL 436776 0)) := by
  refine ⟨?_, ?_, ?_, ?_, ?_⟩ <;> decide +kernel

theorem meets_ControlTransfersGoWhereTheySay :
    ((fun (k : Fin 9) (f : Fetched) (a : Word) (s : State) => s.runsNext k.val f = true ∧ bits f.w 19 15 = 11 ∧
      a = wreg (s.steward k.val) (bits f.w 11 8) ∧ bits f.w 14 12 < 6 ∧
      srLD (s.steward k.val) = 0) 7 (fw 360576 0) 0 (memL 360576 0)) ∧
    ((fun (k : Fin 9) (f : Fetched) (a : Word) (b : Word) (s : State) => s.runsNext k.val f = true ∧
      bits f.w 19 15 = 21 ∧ bits f.w 3 0 = 0 ∧ a = wreg (s.steward k.val) (bits f.w 11 8) ∧
      b = wreg (s.steward k.val) (bits f.w 7 4) ∧ bits f.w 14 12 < 6 ∧
      srLD (s.steward k.val) = 0) 7 (fw 688416 524288) 524287 524288 (memL 688416 524288)) ∧
    ((fun (k : Fin 9) (f : Fetched) (c : Instr) (target : Word) (s : State) => s.runsNext k.val f = true ∧
      (c, bits f.w 19 10, target) ∈ [(Instr.j k, 0x2C0, f.ext), (.jr k, 0x008, wreg (s.steward k.val) (bits f.w 9
      6))] ∧ bits f.w 5 0 = 0 ∧ (bits f.w 19 10 = 0x2C0 → bits f.w 9 6 = 0)) 7 (fw 720896 18) (.j 7) 18 (memL 720896
      18)) ∧
    ((fun (k : Fin 8) (f : Fetched) (c : Instr) (target : Word) (sp : Word) (back : Word) (s : State) => s.runsNext
      k.val f = true ∧ (c, bits f.w 19 10, target, back) ∈ [(Instr.call ⟨k.val, by omega⟩ false, 0x2C8, f.ext,
      f.addr + 2), (.callr ⟨k.val, by omega⟩ false, 0x009, wreg (s.steward k.val) (bits f.w 9 6), f.addr + 1)] ∧
      bits f.w 5 0 = 0 ∧ (bits f.w 19 10 = 0x2C8 → bits f.w 9 6 = 0) ∧ sp = wreg (s.steward k.val) 15 - 1 ∧
      s.stewHeld k.val sp.toNat = false ∧ (sp.toNat < 0x80000 ∨ s.memoryUp (stewHalf k.val).other = true)) 7 (fw
      729088 18) (.call 7 false) 18 0x7FFFF 0x40000 (memL 729088 18)) ∧
    ((fun (k : Fin 9) (f : Fetched) (sp : Word) (w : Word) (s : State) => s.runsNext k.val f = true ∧
      f.w = 0x00400#20 ∧ sp = wreg (s.steward k.val) 15 ∧ s.stewHeld k.val sp.toNat = false ∧
      (dataRead k.val sp.toNat s).1 = .word w) 7 (fw 1024 0) 0x80000 0x777 (bkA 0 <| memL 1024 0)) ∧
    ((fun (k : Fin 9) (f : Fetched) (sp : Word) (w : Word) (v : Word) (s : State) => s.runsNext k.val f = true ∧
      f.w = 0x00800#20 ∧ sp = wreg (s.steward k.val) 15 ∧ s.stewHeldBoth k.val sp.toNat (sp + 1).toNat = false ∧
      (dataRead k.val sp.toNat s).1 = .word w ∧ (dataRead k.val (sp + 1).toNat s).1 = .word v) 7 (fw 2048 0) 0x80000
      0x777 0x0 (nt <| bkA 0 <| memL 2048 0)) ∧
    ((fun (k : Fin 9) (f : Fetched) (c : Word) (l : Nat) (s : State) => s.runsNext k.val f = true ∧
      bits f.w 19 15 = 23 ∧ c = (if bits f.w 14 11 = 0 then BitVec.ofNat 20 (bits f.w 10 0) else wreg (s.steward
      k.val) (bits f.w 14 11)) ∧ 2 ≤ f.ext.toNat ∧ l = srLD (s.steward k.val) ∧
      l < 3) 7 (fw 759808 2) 5 0 (mem 759808 2)) ∧
    ((fun (k : Fin 9) (f : Fetched) (l : Nat) (s : State) => s.runsNext k.val f = true ∧ f.w = 0x01400#20 ∧
      srLD (s.steward k.val) = l + 1 ∧ (1 ≤ l → creg (s.steward k.val) (crLE (l - 1)) ≠ f.addr)) 7 (fw 5120 0) 1 (sr
      4 <| memL 5120 0)) ∧
    ((fun (k : Fin 9) (f : Fetched) (l : Nat) (s : State) => s.runsNext k.val f = true ∧ f.w = 0x00000#20 ∧
      srLD (s.steward k.val) = l + 1 ∧ creg (s.steward k.val) (crLE l) = f.addr ∧
      (1 ≤ l → creg (s.steward k.val) (crLE (l - 1)) ≠ f.addr)) 7 (fw 0 0) 0 (loo 0 0 <| sr 2 <| memL 0 0)) ∧
    ((fun (k : Fin 9) (f : Fetched) (c : Instr) (s : State) => s.runsNext k.val f = true ∧
      (c, f.w) ∈ [(Instr.nop k, 0x00000#20), (.fence k, 0x01800#20)]) 7 (fw 0 0) (.nop 7) (memL 0 0)) ∧
    ((fun (k : Fin 9) (f : Fetched) (c : Instr) (ie : Bool) (s : State) => s.runsNext k.val f = true ∧
      (c, f.w, ie) ∈ [(Instr.ei k, 0x03000#20, true), (.di k, 0x03400#20, false)]) 7 (fw 12288 0) (.ei 7) true (memL
      12288 0)) ∧
    ((fun (k : Fin 9) (f : Fetched) (v : Word) (s : State) => s.runsNext k.val f = true ∧ bits f.w 19 10 = 0x00A ∧
      bits f.w 5 5 = 0 ∧ readCreg (s.steward k.val) (bits f.w 4 0) = some v) 7 (fw 10496 0) 0 (memL 10496 0)) ∧
    ((fun (k : Fin 9) (f : Fetched) (v : Word) (s : State) => s.runsNext k.val f = true ∧ bits f.w 19 10 = 0x00B ∧
      bits f.w 5 0 = 1 ∧ v = wreg (s.steward k.val) (bits f.w 9 6)) 7 (fw 11521 0) 1048575 (memL 11521 0)) ∧
    ((fun (k : Fin 9) (f : Fetched) (s : State) => s.runsNext k.val f = true ∧ f.w = 0x00C00#20 ∧
      (s.steward k.val).stopDue = false ∧ (s.steward k.val).haltDue = none) 7 (fw 3072 0) (memL 3072 0)) ∧
    ((fun (k : Fin 9) (f : Fetched) (s : State) => s.runsNext k.val f = true ∧ f.w = 0x01000#20 ∧
      s.flag (stewKey k.val) Reg.STW_CTL_BRK_DBG = true ∧ srLD (s.steward k.val) = 0) 7 (fw 4096 0) ((memL 4096
      0).put (stewKey 7) Reg.STW_CTL_BRK_DBG 1)) := by
  refine ⟨?_, ?_, ?_, ?_, ?_, ?_, ?_, ?_, ?_, ?_, ?_, ?_, ?_, ?_, ?_⟩ <;> decide +kernel

theorem meets_TrapsAndDebugControlStewards :
    ((fun (k : Fin 9) (f : Fetched) (s : State) => s.runsNext k.val f = true ∧ bits f.w 19 10 = 0x007 ∧
      bits f.w 9 6 = 0 ∧ srTH (s.steward k.val) = false) 7 (fw 7231 0) (memL 7231 0)) ∧
    ((fun (k : Fin 9) (f : Fetched) (s : State) => s.runsNext k.val f = true ∧ decodeStew f.w = none ∧
      srTH (s.steward k.val) = false) 7 (fw 1048575 3) (memL 1048575 3)) ∧
    ((fun (k : Fin 9) (code : Nat) (f : Fetched) (s : State) => s.stewardRuns k.val = true ∧
      breakAt k.val s = none ∧ (fetchAt k.val (s.steward k.val).pc s).1 = .fails code f ∧
      srTH (s.steward k.val) = false) 7 6 (⟨0x40000, Config.lostWord 0, 0, false⟩) ((let s := memL 0 0; s.setSteward
      7 { s.steward 7 with pc := 0x40000 }))) ∧
    ((fun (k : Fin 9) (f : Fetched) (c : Instr) (code : Nat) (s : State) => s.runsNext k.val f = true ∧
      srTH (s.steward k.val) = false ∧ (c, f.w, code) ∈ [(Instr.brk k, 0x01000#20, 0x03), (.lpop k, 0x01400#20,
      0x05)] ∧ s.flag (stewKey k.val) Reg.STW_CTL_BRK_DBG = false ∧
      srLD (s.steward k.val) = 0) 7 (fw 4096 0) (.brk 7) 3 (memL 4096 0)) ∧
    ((fun (k : Fin 9) (f : Fetched) (s : State) => s.runsNext k.val f = true ∧ bits f.w 19 15 = 23 ∧
      srTH (s.steward k.val) = false ∧ (f.ext.toNat < 2 ∨ srLD (s.steward k.val) = 3)) 7 (fw 753671 1) (memL 753671
      1)) ∧
    ((fun (k : Fin 9) (f : Fetched) (s : State) => s.runsNext k.val f = true ∧ bits f.w 19 10 = 0x007 ∧
      bits f.w 9 6 = 0 ∧ srTH (s.steward k.val) = true) 7 (fw 7231 0) (sr 8 <| memL 7231 0)) ∧
    ((fun (k : Fin 9) (s : State) => s.stewardUp k.val = true ∧
      s.flag (stewKey k.val) Reg.STW_CTL_RUN = false) 7 (mo .lockup <| memL 0 0)) ∧
    ((fun (k : Fin 9) (s : State) => s.stewardUp k.val = true ∧ s.flag (stewKey k.val) Reg.STW_CTL_RUN = true ∧
      (s.steward k.val).mode ≠ .lockup ∧ (s.steward k.val).load = none) 7 ((fun s => s.put (stewKey 7)
      Reg.STW_CTL_RUN 1) <| mo .running <| mem 0 0)) ∧
    ((fun (k : Fin 9) (s : State) => s.stewardUp k.val = true ∧ (s.steward k.val).mode.runs = true ∧
      (s.steward k.val).load = none ∧ (s.steward k.val).stopDue = false) 7 ((fun s => s.put (stewKey 7)
      Reg.STW_CTL_RUN 1) <| mo .running <| mem 0 0)) ∧
    ((fun (k : Fin 9) (s : State) => s.stewardRuns k.val = true ∧ (s.steward k.val).load = none ∧
      (s.steward k.val).skipBreak = false ∧ s.flag (stewKey k.val) Reg.STW_CTL_BKP0_EN = true ∧
      s.reg (stewKey k.val + Reg.STW_BKP0) = (s.steward k.val).pc) 7 (((mem 0 0).put (stewKey 7) Reg.STW_CTL_BKP0_EN
      1).setReg (stewKey 7 + Reg.STW_BKP0) 0x3FFFE)) ∧
    ((fun (k : Fin 9) (c : Instr) (step : Bool) (s : State) => s.stewardUp k.val = true ∧
      (s.steward k.val).mode = .halted ∧ (c, step) ∈ [(Instr.stewardResume k, false), (.stewardStep k, true)]) 7
      (.stewardResume 7) false (mo .halted <| mem 0 0)) ∧
    ((fun (k : Fin 9) (s : State) => s.stewardUp k.val = true ∧ (s.steward k.val).mode.runs = false ∧
      s.flag (stewKey k.val) Reg.STW_RSEL_CR = false) 7 (((mo .halted <| memL 0 0).put (stewKey 7) Reg.STW_RSEL_NUM
      16))) ∧
    ((fun (k : Fin 9) (s : State) => s.stewardUp k.val = true ∧ (s.steward k.val).mode.runs = true) 7 (mem 0 0)) := 
  ⟨by decide +kernel, by decide +kernel, ⟨by decide +kernel, by decide +kernel, rfl, by decide +kernel⟩, by decide +kernel, by decide +kernel, by decide +kernel, by decide +kernel, by decide +kernel, by decide +kernel, by decide +kernel, by decide +kernel, by decide +kernel, by decide +kernel⟩

end S14

namespace S15

def halfImg : List Byte := [81, 83, 70, 49, 1, 1, 0, 0, 0, 0, 0, 0, 0, 0, 0, 3, 0, 3, 255, 253, 0, 3, 255, 255, 0,
  0, 0, 0, 0, 0, 0, 0, 0, 0, 0, 0, 107, 23, 209, 242, 225, 44, 66, 71, 248, 188, 230, 229, 99, 164, 64, 242, 119, 3,
  125, 129, 45, 235, 51, 160, 244, 161, 57, 69, 216, 152, 194, 150, 79, 227, 66, 226, 254, 26, 127, 155, 142, 231,
  235, 74, 124, 15, 158, 22, 43, 206, 51, 87, 107, 49, 94, 206, 203, 182, 64, 104, 55, 191, 81, 245, 0, 0, 0, 0, 0,
  0, 0, 0, 0, 0, 0, 0, 0, 0, 0, 0, 0, 0, 0, 0, 0, 0, 0, 0, 0, 0, 0, 0, 58, 144, 15, 255, 255, 0, 0, 80, 0, 0, 107,
  23, 209, 242, 225, 44, 66, 71, 248, 188, 230, 229, 99, 164, 64, 242, 119, 3, 125, 129, 45, 235, 51, 160, 244, 161,
  57, 69, 216, 152, 194, 150, 101, 79, 58, 143, 254, 5, 171, 47, 2, 248, 74, 185, 181, 66, 190, 46, 136, 161, 225,
  231, 62, 220, 156, 183, 201, 65, 188, 34, 91, 184, 157, 202]
def vcImg : List Byte := [81, 83, 70, 49, 1, 2, 0, 0, 0, 0, 0, 0, 0, 0, 0, 3, 0, 0, 0, 0, 0, 0, 0, 4, 0, 0, 0, 5, 0,
  0, 0, 0, 0, 0, 0, 0, 107, 23, 209, 242, 225, 44, 66, 71, 248, 188, 230, 229, 99, 164, 64, 242, 119, 3, 125, 129,
  45, 235, 51, 160, 244, 161, 57, 69, 216, 152, 194, 150, 79, 227, 66, 226, 254, 26, 127, 155, 142, 231, 235, 74,
  124, 15, 158, 22, 43, 206, 51, 87, 107, 49, 94, 206, 203, 182, 64, 104, 55, 191, 81, 245, 0, 0, 0, 0, 0, 0, 0, 0,
  0, 0, 0, 0, 0, 0, 0, 0, 0, 0, 0, 0, 0, 0, 0, 0, 0, 0, 0, 0, 58, 144, 15, 255, 255, 0, 0, 80, 0, 0, 107, 23, 209,
  242, 225, 44, 66, 71, 248, 188, 230, 229, 99, 164, 64, 242, 119, 3, 125, 129, 45, 235, 51, 160, 244, 161, 57, 69,
  216, 152, 194, 150, 5, 74, 179, 121, 68, 239, 165, 91, 199, 239, 99, 239, 183, 255, 42, 119, 20, 62, 86, 178, 156,
  68, 230, 12, 24, 94, 240, 33, 66, 188, 37, 59]
def keyHash : List Byte := [216, 117, 219, 125, 239, 35, 34, 54, 174, 199, 56, 198, 176, 187, 62, 128, 20, 47, 93,
  15, 216, 244, 223, 36, 254, 214, 238, 245, 203, 181, 13, 159]
def put (f a : Nat) (l : List Byte) (s : State) : State :=
  { s with flash := s.flash ++ l.zipIdx.map (fun e => (f * 0x1000000 + a + e.2, e.1)) }
def otp : Otp := { Otp.reset with keys := [(1, keyHash)], prog := 2 }
def bootA : State := { put 1 0x100000 halfImg up with otp := otp, halfB := { liveHalf with booting := true, bootCause := 3 }, vcDue := false }
def bs : State := ((bootA.put (bootKey .B) Reg.BOOT_SEL_PREF 1).put (bootKey .B) Reg.BOOT_SEL_TRIES 1).setBank .B 7 9
def key (c : Bool) : Nat := bfKey .B c
def op (c : Bool) (op n a : Nat) : FlashOp := ⟨if c then .cross .B else .own .B, op, a, n, 0x20000, []⟩
def fl (c : Bool) (n a : Nat) (s : State) : State := ((s.setWide (key c + Reg.BF_ADDR) 2 a).put (key c)
  Reg.BF_LEN_LEN (n - 1)).put (key c) Reg.BF_DST_DST 0x20000
def q (o : FlashOp) (s : State) : State := s.setFlashQueue 1 [o, op true 0 1 1]
def vs : State := { put 1 0x1E0000 vcImg up with otp := otp, vcLoading := some (1, 1), vmem := [(7, 7)] }
def bare : State := { up with seats := 0, owners := 0, power := { up.power with vaon := true, testN := true } }
def snp : State := ((bare.setWide (oneKey + Reg.RU_MAP) 4 0xF0F0F0F0F0F0F0F5).setReg (oneKey + Reg.RU_LATCHES)
  0x14E12).put oneKey Reg.RU_STAT_SNAP 1

theorem meets_HalvesBootTheirImages_0 :
    ((fun (h : Half) (reads0 : Bool) (reads1 : Bool) (slot : Nat) (base : Nat) (i : Image) (s : State) => (s.half
      h).inReset = false ∧ (s.half h).booting = true ∧ s.vcDue = false ∧
      slot = s.get (bootKey h) Reg.BOOT_SEL_PREF ∧ (s.flag (bootKey h) Reg.BOOT_SEL_CONFIRMED = true ∨ s.get
      (bootKey h) Reg.BOOT_SEL_TRIES < 2) ∧ base = slotBase slot false ∧ i = s.imageAt h.num base ∧
      s.imageCheck h.num base false (if slot = 0 then reads0 else reads1) = St.OK) .B true true 1 0x100000
      (bs.imageAt 1 0x100000) bs) := by
  decide +kernel

theorem meets_HalvesBootTheirImages_1 :
    ((fun (h : Half) (reads0 : Bool) (reads1 : Bool) (s : State) => (s.half h).inReset = false ∧
      (s.half h).booting = true ∧ s.imageCheck h.num (slotBase 0 false) false reads0 ≠ St.OK ∧
      s.imageCheck h.num (slotBase 1 false) false reads1 ≠ St.OK) .B true true ({ bs with flash := [] })) := by
  decide +kernel

theorem meets_HalvesBootTheirImages_3 :
    ((fun (h : Half) (cross : Bool) (c : Instr) (op : Nat) (key : Nat) (f : Nat) (o : FlashOp) (s : State) =>
      s.computes h = true ∧ (c, op) ∈ [(Instr.flashRead h cross, 0), (.flashProgram h cross, 1), (.flashErase h
      cross, 2), (.flashVerify h cross, 3)] ∧ key = bfKey h cross ∧ f = (if cross = true then h.other else h).num ∧
      o = ⟨if cross = true then .cross h else .own h, op, s.wide (key + Reg.BF_ADDR) 2 % 0x1000000, s.get key
      Reg.BF_LEN_LEN + 1, s.get key Reg.BF_DST_DST, []⟩) .B false (.flashRead .B false) 0 (key false) 1 (op false 0
      4096 0x1FF000) (fl false 4096 0x1FF000 up)) := by
  decide +kernel

theorem meets_HalvesBootTheirImages_4 :
    ((fun (h : Half) (o : FlashOp) (rest : List FlashOp) (s : State) => s.flashQueue h.num = o :: rest ∧
      o.src = .own h ∧ o.op = 0) .B (op false 0 3 0x100000) ([op true 0 1 1]) (q (op false 0 3 0x100000) bs)) := by
  decide +kernel

theorem meets_HalvesBootTheirImages_5 :
    ((fun (f : Fin 2) (o : FlashOp) (rest : List FlashOp) (s : State) => s.flashQueue f.val = o :: rest ∧
      o.op = 1) 1 (op false 1 3 0x100000) ([op true 0 1 1]) (q (op false 1 3 0x100000) (bs.setBankRun .B 0x20000
      [0x1234, 0x5678]))) := by
  decide +kernel

theorem meets_HalvesBootTheirImages_6 :
    ((fun (f : Fin 2) (o : FlashOp) (rest : List FlashOp) (s : State) => s.flashQueue f.val = o :: rest ∧ o.op = 2 ∧
      o.addr < 0x200000 ∧ o.addr % 4096 = 0) 1 (op false 2 3 0x100000) ([op true 0 1 1]) (q (op false 2 3 0x100000)
      bs)) := by
  decide +kernel

theorem meets_HalvesBootTheirImages_7 :
    ((fun (h : Half) (o : FlashOp) (rest : List FlashOp) (s : State) => s.flashQueue h.num = o :: rest ∧
      o.src = .own h ∧ o.op = 3) .B (op false 3 3 0x100000) ([op true 0 1 1]) (q (op false 3 3 0x100000) bs)) := by
  decide +kernel

theorem meets_HalvesBootTheirImages_9 :
    ((fun (reads : Bool) (f : Nat) (slot : Nat) (base : Nat) (i : Image) (s : State) => s.vcLoading = some (f, slot)
      ∧ base = slotBase slot true ∧ i = s.imageAt f base ∧ s.imageCheck f base true reads = St.OK) true 1 1 0x1E0000
      (vs.imageAt 1 0x1E0000) vs) := by
  decide +kernel

theorem meets_HalvesBootTheirImages_10 :
    ((fun (reads : Bool) (f : Nat) (slot : Nat) (s : State) => s.vcLoading = some (f, slot) ∧
      s.imageCheck f (slotBase slot true) true reads ≠ St.OK) true 1 1 ({ vs with flash := [] })) := by
  decide +kernel

theorem meets_RollingUpdatesMoveSeatsAndHalves :
    ((fun (x : Half) (s : State) => s.healthy x.other = true ∧ s.flag oneKey (vacFlag x.other) = false) .B up) ∧
    ((fun (x : Half) (s : State) => s.healthy x.other = false) .B
      ({ up with halfA := { liveHalf with beatSeen := false } })) ∧
    ((fun (x : Half) (s : State) => s.healthy x.other = true ∧
      s.flag oneKey (vacFlag x.other) = true) .B (bare.put oneKey (vacFlag .A) 1)) ∧
    ((fun (x : Half) (s : State) => s.holdsNothing x = true ∧ (s.half x).supplyOk = true ∧ s.trefRuns = true ∧
      s.power.vaon = true ∧ s.power.resetLow = false ∧ s.power.mode = .run ∧ s.power.testN = true) .B bare) ∧
    ((fun (x : Half) (s : State) => s.holdsNothing x = true) .B bare) ∧
    ((fun (x : Half) (c : Instr) (s : State) => c ∈ [.restart x, .hold x] ∧
      s.holdsNothing x = false) .B (.restart .B) up) ∧
    ((fun (x : Half) (s : State) => (s.half x).held = true ∧ (s.half x).inReset = true ∧
      (s.half x).supplyOk = true ∧ s.trefRuns = true ∧ s.power.vaon = true ∧ s.power.resetLow = false ∧
      s.power.mode = .run ∧ s.power.testN = true) .B ({ bare with halfB := { HalfState.reset with held := true } })) ∧
    ((fun (x : Half) (s : State) => (s.half x).held = false) .B up) ∧
    ((fun (s : State) => s.flag oneKey Reg.RU_STAT_SNAP = true ∧
      (∀ h : Half, s.mapGives h = true → s.healthy h = true)) snp) ∧
    ((fun (h : Half) (s : State) => (s.flag oneKey Reg.RU_STAT_SNAP = false ∨ (s.mapGives h = true ∧
      s.healthy h = false))) .B up) ∧
    ((fun (s : State) => s.envLock.last + 200000000 ≤ s.tref) ({ up with tref := 200000000 })) ∧
    ((fun (path : Fin 4098) (s : State) => tblGet s.envLock.issued 0 path.val + 200000000 ≤ s.tref) 4097
      ({ up with tref := 200000000 })) ∧
    ((fun (s : State) => s.envLock.backoffAt + 2000000000 ≤ s.tref)
      ({ up.put oneKey Reg.ENV_STAT_BACKOFF 1 with tref := 2000000000 })) := 
  ⟨by decide +kernel, by decide +kernel, by decide +kernel, by decide +kernel, by decide +kernel, by decide +kernel, by decide +kernel, by decide +kernel, ⟨by decide +kernel, fun h _ => by cases h <;> decide +kernel⟩, by decide +kernel, by decide +kernel, by decide +kernel, by decide +kernel⟩

end S15

namespace S16

def run5 (k : Nat) (ie : Bool) (md : StewMode) (s : State) : State :=
  s.setSteward k { setIE { Steward.reset with mode := md, pc := 0x123, w := [(15, 0x1000)], cr := [(crVBASE, 0x400)], rsv := some 5 } ie with runPri := 16 }
def en (h : Half) (src l : Nat) (s : State) : State := (s.put (irqKey h src) Reg.IC_SRC_EN 1).put (irqKey h src)
  Reg.IC_SRC_LEVEL l
def lat (h : Half) (src : Nat) (s : State) : State := s.setHalf h { s.half h with latched := [src] }
def acc (k : Nat) (s : State) : State := s.put (halfKey (stewHalf k) + 4 * (k % 4)) Reg.IC_SCTL_ACCEPT 1
def I (k : Nat) (ie : Bool) (md : StewMode) : State := acc k (lat (stewHalf k) 450 (en (stewHalf k) 450 3 (run5 k ie
  md up)))
def act (s : State) : State := (s.setHalf .B { s.halfB with active := [450] }).setSteward 5
  { s.steward 5 with stack := [(9, 450)], runPri := 3 }
def cons (c : Nat) (x : Consumer) (s : State) : State := s.setConsumer c x
def evc : Consumer := { up.consumer 110 with en := true, enables := BitVec.twoPow 256 251, pend := false }

theorem meets_InterruptsAreOfferedAcceptedAndEnded :
    ((fun (k : Fin 8) (c : Nat) (s : State) => (s.steward k.val).mode = .running ∧ s.mayAccept k.val = true ∧
      s.offerTo k.val = some c) 5 450 (I 5 true .running)) ∧
    ((fun (k : Fin 8) (c : Nat) (s : State) => (s.steward k.val).mode = .waiting ∧ s.mayAccept k.val = true ∧
      s.offerTo k.val = some c ∧ srIE (s.steward k.val) = false ∧ srLD (s.steward k.val) = 0 ∧
      (s.steward k.val).stepping = false) 5 450 (I 5 false .waiting)) ∧
    ((fun (k : Fin 8) (c : Nat) (s : State) => (s.steward k.val).mode = .waiting ∧ s.mayAccept k.val = true ∧
      s.offerTo k.val = some c ∧ srIE (s.steward k.val) = true ∧ srLD (s.steward k.val) = 0 ∧
      (s.steward k.val).stepping = false ∧ 2 ≤ (wreg (s.steward k.val) 15).toNat ∧
      (wreg (s.steward k.val) 15).toNat ≤ 0x80000) 5 450 (I 5 true .waiting)) ∧
    ((fun (h : Half) (k : Fin 4) (src : BitVec 9) (p : Nat) (rest : List (Nat × Nat)) (s : State) => s.computes h =
      true ∧ (s.steward (4 * h.num + k.val)).stack = (p, src.toNat) :: rest) .B 1 450 9 ([]) (act (I 5 true
      .running))) ∧
    ((fun (h : Half) (k : Fin 4) (src : BitVec 9) (s : State) => s.computes h = true ∧
      ((s.steward (4 * h.num + k.val)).stack.head?.map Prod.snd) ≠ some src.toNat) .B 1 451 (act (I 5 true .running))) ∧
    ((fun (m : Master) (other : Bool) (h : Half) (s : State) => h = (if other = true then (s.masterHalf m).other
      else s.masterHalf m) ∧ (s.half h).inReset = false) (.steward 0) false .A (lat .A 450 up)) ∧
    ((fun (pulse : BitVec 8) (i : Fin 8) (c : Nat) (s : State) => s.power.mode = .run ∧
      pulse = BitVec.twoPow 8 i.val ∧ 104 ≤ c ∧ c < 136 ∧ (s.consumer c).en = true ∧
      (s.consumer c).enables.getLsbD (248 + i.val) = true ∧ (s.consumer c).pend = false ∧
      (s.consumers.map Prod.fst).Nodup) 8 3 110 (cons 110 evc up)) ∧
    ((fun (p : Fin 32) (s : State) => (s.consumer (72 + p.val)).busy = true ∧
      ((s.consumer (72 + p.val)).since + 8 * ((s.consumer (72 + p.val)).pw + 1) ≤ s.tref ∨ s.power.mode = .sleep)) 4
      (cons 76 { up.consumer 76 with busy := true, since := 100, pw := 2, out := true } { up with tref := 124 })) ∧
    ((fun (s : State) => (s.half .A).inReset = false ∧ (s.half .B).inReset = false) up) := by
  refine ⟨?_, ?_, ?_, ?_, ?_, ?_, ?_, ?_, ?_⟩ <;> decide +kernel

end S16

namespace S17

def tst (s : State) : State := s.put (halfKey .B) Reg.MC_CTL_TST_EN 1
def win (i : Nat) (s : State) : State := s.put (halfKey .B) Reg.MC_TPOS_WIN i
def busy (s : State) : State := s.put (halfKey .B) Reg.MC_STAT_TST_BUSY 1
def dry (s : State) : State := s.setBudget .B { s.budget .B with waiting := [(40, 5, 0)] }

theorem meets_MemoryWindowsAndTestsTakeEffect :
    ((fun (h : Half) (s : State) => s.computes h = true ∧ s.trefRuns = true ∧
      s.flag (halfKey h) Reg.MC_CTL_TST_EN = true ∧ s.flag (halfKey h) Reg.MC_STAT_TST_BUSY = false ∧
      (s.access h actTest 0).isSome = true) .B (win 9
      { tst up with bankMarks := [(bankIx .B 129, 1), (bankIx .B 130, 2)] })) ∧
    ((fun (h : Half) (s : State) => s.computes h = true ∧ s.trefRuns = true ∧
      s.flag (halfKey h) Reg.MC_CTL_TST_EN = true ∧ s.flag (halfKey h) Reg.MC_STAT_TST_BUSY = false ∧
      s.access h actTest 0 = none) .B (dry (win 9 (tst up)))) ∧
    ((fun (h : Half) (s : State) => s.flag (halfKey h) Reg.MC_STAT_TST_BUSY = true) .B (win 0x7FFF (busy up))) ∧
    ((fun (h : Half) (s : State) => s.flag (halfKey h) Reg.MC_STAT_TST_BUSY = true) .B (win 0x7FFF (busy up))) ∧
    ((fun (h : Half) (a : Nat) (s : State) => s.computes h = true ∧
      a = s.get (halfKey h) Reg.IM_A_ADDR) .A 0x3FFFF ((up.put (halfKey .A) Reg.IM_A_ADDR 0x3FFFF))) ∧
    ((fun (a : Nat) (s : State) => a = s.get oneKey Reg.VM_A_ADDR) 0x3FFF ((up.put oneKey Reg.VM_A_ADDR 0x3FFF))) := by
  refine ⟨?_, ?_, ?_, ?_, ?_, ?_⟩ <;> decide +kernel

end S17

namespace S18

def prt (f : Port → Port) (s : State) : State := s.setPort 1 (f (s.port 1))
def U : State := { up with power := { up.power with vaon := true, mode := .run } }
def SL : State := { U with power := { U.power with mode := .sleep } }
def qd (s : State) : State := s.put (portKey 1) Reg.CP_CFG_QUAD 1
def rp (s : State) : State := prt (fun x =>
  { x with replies := [[1,2,3],[4]], alarms := [[7,8],[9]], dropped := true, removed := some [5,6] , nak := true}) s
def pkt : List Byte := packetOf 0x10 5 false []
def c0 (op : Nat) : Cmd := ⟨op, 5, false, [1, 2], none⟩
def qu (p op : Nat) : State := U.setPort p { U.port p with queue := [c0 op, c0 0x11] }
def hf (p op : Nat) : Half := (qu p op).cmdHalf p (c0 op)
def gr (p op : Nat) : State := ((qu p op).access (hf p op) actHost 0).getD (qu p op)

theorem some_getD {o : Option State} (h : o.isSome = true) (d : State) : o = some (o.getD d) := by
  cases o with
  | some x => rfl
  | none => cases h

theorem meets_TransactionsAnswerAndQueue :
    ((fun (s : State) => s.portAlive = true) U) ∧
    ((fun (s : State) => s.portAlive = true ∧ s.asleep = false) (qd U)) ∧
    ((fun (p : Fin 2) (host : List Byte) (r : List Byte) (rest : List (List Byte)) (s : State) => s.portAlive = true
      ∧ s.asleep = false ∧ (s.port p.val).replies = r :: rest ∧
      r.length = host.length) 1 ([0,0,0]) ([1,2,3]) ([[4]]) (rp U)) ∧
    ((fun (p : Fin 2) (host : List Byte) (r : List Byte) (rest : List (List Byte)) (s : State) => s.portAlive = true
      ∧ s.asleep = false ∧ (s.port p.val).replies = r :: rest ∧
      host.length < r.length) 1 ([0,0]) ([1,2,3]) ([[4]]) (rp U)) ∧
    ((fun (p : Fin 2) (host : List Byte) (r : List Byte) (s : State) => s.portAlive = true ∧ s.asleep = false ∧
      (s.port p.val).removed = some r ∧ r.length = host.length) 1 ([0,0]) ([5,6]) (rp U)) ∧
    ((fun (p : Fin 2) (host : List Byte) (r : List Byte) (rest : List (List Byte)) (s : State) => s.portAlive = true
      ∧ s.asleep = false ∧ (s.port p.val).alarms = r :: rest ∧
      r.length = host.length) 1 ([0,0]) ([7,8]) ([[9]]) (rp U)) ∧
    ((fun (m : Byte) (s : State) => s.portAlive = true ∧ s.asleep = false ∧ (m = 1 ∨ m = 4)) 4 U) ∧
    ((fun (m : Byte) (c : Byte) (s : State) => s.portAlive = true ∧ s.asleep = false ∧ (¬ ((m = 1 ∨ m = 4) ∧
      c = m ^^^ 0xFF))) 4 0 U) ∧
    ((fun (p : Fin 2) (b : List Byte) (c : Cmd) (s : State) => s.portAlive = true ∧ 0x10 ≤ payloadField b 0 1 ∧
      payloadField b 0 1 ≠ 0xFF ∧ b.length = packetNeed b ∧ s.packetRefusal p.val b b.length = none ∧
      parseCmd none b = some c) 1 pkt (⟨0x10, 5, false, [], none⟩) (rp U)) ∧
    ((fun (p : Fin 2) (b : List Byte) (st : Nat) (s : State) => s.portAlive = true ∧ s.asleep = false ∧
      0x10 ≤ payloadField b 0 1 ∧ payloadField b 0 1 ≠ 0xFF ∧ s.packetRefusal p.val b b.length = some st ∧
      0 < b.length) 1 (pkt.take 5) St.TRUNCATED U) ∧
    ((fun (p : Fin 2) (q : Option Byte) (n : Nat) (b : List Byte) (host : List Byte) (c : Instr) (s : State) =>
      s.portAlive = true ∧ s.asleep = true ∧ c ∈ [.peek p q n, .fetch p host, .refetch p host, .alarms p host,
      .lanes p b]) 1 (some 3) 5 ([]) ([]) (.peek 1 (some 3) 5) (rp SL)) ∧
    ((fun (p : Fin 3) (c : Cmd) (rest : List Cmd) (h : Half) (s : State) (u : State) => s.power.mode = .run ∧
      (s.port p.val).queue = c :: rest ∧ s.isLocal p.val c = true ∧ s.mayStart p.val = true ∧
      h = s.cmdHalf p.val c ∧ (if s.computes h = true then s.access h actHost 0 else some s) = some u ∧
      s.pathRefusal p.val c = none ∧ c.op ≠ 0x60 ∧ c.op ≠ 0x61 ∧
      c.op ≠ 0x22) 1 (c0 0x10) ([c0 0x11]) (hf 1 0x10) (qu 1 0x10) (gr 1 0x10)) ∧
    ((fun (p : Fin 3) (c : Cmd) (rest : List Cmd) (st : Nat) (h : Half) (s : State) (u : State) => s.power.mode =
      .run ∧ (s.port p.val).queue = c :: rest ∧ s.isLocal p.val c = true ∧ s.mayStart p.val = true ∧
      h = s.cmdHalf p.val c ∧ (if s.computes h = true then s.access h actHost 0 else some s) = some u ∧
      s.pathRefusal p.val c = some st ∧ c.origin = none) 1 (c0 0x73) ([c0 0x11]) St.ENVELOPE_LOCKED (hf 1 0x73) (qu
      1 0x73) (gr 1 0x73)) := 
  ⟨by decide +kernel, by decide +kernel, by decide +kernel, by decide +kernel, by decide +kernel, by decide +kernel, by decide +kernel, by decide +kernel, by decide +kernel, by decide +kernel, by decide +kernel, ⟨by decide +kernel, rfl, by decide +kernel, by decide +kernel, rfl, by rw [if_pos (by decide +kernel)]; exact some_getD (by decide +kernel) _, by decide +kernel, by decide +kernel, by decide +kernel, by decide +kernel⟩, ⟨by decide +kernel, rfl, by decide +kernel, by decide +kernel, rfl, by rw [if_pos (by decide +kernel)]; exact some_getD (by decide +kernel) _, by decide +kernel, by decide +kernel⟩⟩

end S18

namespace S19

def cm (op : Nat) (b : List Byte) : Cmd := ⟨op, 5, false, b, none⟩
def ex (c : Cmd) (s : State) : State := s.setPort 1 { s.port 1 with exec := some c, replies := [[1]] }
def bg (c : Cmd) (r : Option (Nat × List Byte)) (s : State) : State := s.setPort 1
  { s.port 1 with exec := some c, begun := true, result := r, replies := [[1]] }
def rr : List Byte := [0, 0, 0x10, 0, 0, 3]
def rw (v a : Nat) : List Byte := [BitVec.ofNat 8 v] ++ bigEndian 3 a ++ [0, 2] ++ [0, 0, 7, 1, 2, 3]
def mr : List Byte := [1, 7, 0xFF, 0xFE, 0, 2]
def mw : List Byte := mr ++ [0, 0, 7, 1, 2, 3]
def ob (s : State) : State := s.setOpen (s.chanHome 0x1234) 0x1234 { Bushel.reset with chan := 0x1234 }
def ar (s : State) : State := (s.put oneKey Reg.AR_CTL_EN 1).put oneKey Reg.AR_STAT_READY 1
def tset : Cmd := cm 0x50 [0x0F,2,3,4,5,6,7,8]
def opn : Cmd := cm 0x71 ([0x12, 0x34, 0xED, 0xCB] ++ bigEndian 4 (Config.uid.toNat % 2^32))
def nn (n : Nat) (s : State) : State := { s with envLock := { s.envLock with nonces := [(1, n)] } }
def ses (s : State) : State := (s.put oneKey Reg.ENV_STAT_OPEN 1).put oneKey Reg.ENV_STAT_PATH 1
def tr1 : List Byte := [3, 0xF1, 0x1F, 1, 0x2C, 77, 0, 0x83, 0xF2, 9, 0x55]
def tr2 : List Byte := [0, 5, 0x17, 3, 0xE8, 200, 1, 0, 0, 0, 0xAA]
def tc : Cmd := cm 0x73 (tr1 ++ tr2)
def td : Cmd := cm 0x73 (tr1 ++ tr1)
def l1 : List Byte := [63, 0x1F, 200, 0x8F, 1, 2, 3]
def lc : Cmd := cm 0x74 l1
def ld : Cmd := cm 0x74 (l1 ++ l1)
def rg : Cmd := cm 0x75 [3, 0xFF, 3]
def kc : Cmd := cm 0x77 (2 :: List.replicate 32 0x5A)
def img (v : Byte) (f : Nat) : Tbl Byte := ((List.range 64).map (fun i => (f * 0x1000000 + i, (v : Byte)))).filter
  (fun e => e.2 ≠ 0xFF)
def cf (v : Byte) (c : Cmd) : State := ((ex c (ses { up with flash := img v 0 ++ img v 1 })).put (bootKey .A)
  Reg.BOOT_SEL_CONFIRMED 1).put (bootKey .B) Reg.BOOT_SEL_CONFIRMED 1

theorem opn_uid : payloadField (cmdParams opn) 4 4 = Config.uid.toNat % 2 ^ 32 := by
  have h := payloadField_append [0x12, 0x34, 0xED, 0xCB] (bigEndian 4 (Config.uid.toNat % 2 ^ 32)) 4
  have h2 := payloadField_bigEndian 4 (Config.uid.toNat % 2 ^ 32) []
  rw [List.append_nil] at h2
  exact (h.trans h2).trans (Nat.mod_eq_of_lt (Nat.mod_lt _ (by norm_num)))

theorem opn_matches (s : State) (ho : s.flag oneKey Reg.ENV_STAT_OPEN = false) :
    s.openMatches (some 0x1234) (cmdParams opn) = true := by
  have h1 : payloadField (cmdParams opn) 0 2 = 0x1234 := by decide +kernel
  have h2 : payloadField (cmdParams opn) 2 2 = 0xEDCB := by decide +kernel
  simp [State.openMatches, ho, h1, h2, opn_uid]

theorem opn_executes : (nn 0x1234 (ex opn (up.put oneKey Reg.ENV_STAT_FAILS 5))).executes 1 opn 0x71 = true := by
  have h1 : ((nn 0x1234 (ex opn (up.put oneKey Reg.ENV_STAT_FAILS 5))).port 1).exec = some opn := rfl
  have h2 : ((nn 0x1234 (ex opn (up.put oneKey Reg.ENV_STAT_FAILS 5))).port 1).begun = false := by decide +kernel
  have h3 : opn.op = 0x71 := rfl
  have h4 : opn.origin = none := rfl
  simp [State.executes, h1, h2, h3, h4]

theorem meets_HostCommandsAnswer :
    ((fun (p : Fin 3) (c : Cmd) (s : State) => s.executes p.val c 0x10 = true) 1 (cm 0x10 [1,2]) (ex (cm 0x10 [1,2])
      up)) ∧
    ((fun (p : Fin 3) (c : Cmd) (s : State) => s.executes p.val c 0x11 = true ∧
      cmdParams c = []) 1 (cm 0x11 []) (ex (cm 0x11 []) up)) ∧
    ((fun (p : Fin 3) (c : Cmd) (v : Option Half) (a : Nat) (n : Nat) (s : State) => s.executes p.val c 0x12 = true
      ∧ regArgs (cmdParams c) = some (v, a, n) ∧ (cmdParams c).length = 6 ∧
      s.computes (s.cmdHalf p.val c) = true) 1 (cm 0x12 rr) none 0x1000 3 (ex (cm 0x12 rr) up)) ∧
    ((fun (p : Fin 3) (c : Cmd) (v : Option Half) (a : Nat) (n : Nat) (l : List Word) (s : State) => s.executes
      p.val c 0x13 = true ∧ regArgs (cmdParams c) = some (v, a, n) ∧ 6 ≤ (cmdParams c).length ∧
      byteWords ((cmdParams c).drop 6) = some l ∧ l.length = n ∧ s.regRefusal p false v a l = none ∧
      s.computes (s.cmdHalf p.val c) = true) 1 (cm 0x13 (rw 0 Reg.GP_OUT)) none Reg.GP_OUT 2 ([7, 0x10203]) (ex (cm
      0x13 (rw 0 Reg.GP_OUT)) up)) ∧
    ((fun (p : Fin 3) (c : Cmd) (v : Option Half) (a : Nat) (n : Nat) (st : Nat) (l : List Word) (s : State) =>
      s.executes p.val c 0x13 = true ∧ regArgs (cmdParams c) = some (v, a, n) ∧ 6 ≤ (cmdParams c).length ∧
      byteWords ((cmdParams c).drop 6) = some l ∧ l.length = n ∧
      s.regRefusal p false v a l = some st) 1 (cm 0x13 (rw 2 Reg.GP_OUT)) (some .B) Reg.GP_OUT 2
      St.PARTNER_NOT_READY ([7, 0x10203]) (ex (cm 0x13 (rw 2 Reg.GP_OUT))
      { up with halfB := { liveHalf with inReset := true } })) ∧
    ((fun (p : Fin 3) (c : Cmd) (h : Half) (a : Nat) (n : Nat) (s : State) => s.executes p.val c 0x14 = true ∧
      memArgs (cmdParams c) = some (h, a, n) ∧ (cmdParams c).length = 6 ∧ s.computes h = true ∧
      (∀ i : Fin 1024, i.val < n → tblGet s.bankMarks 0 (bankIx h (a + i.val)) = 0)) 1 (cm 0x14 mr) .B 0x7FFFE 2
      ((ex (cm 0x14 mr) up).setBank .B 0x7FFFF 0x12345)) ∧
    ((fun (p : Fin 3) (c : Cmd) (h : Half) (a : Nat) (n : Nat) (l : List Word) (s : State) => s.executes p.val c
      0x15 = true ∧ memArgs (cmdParams c) = some (h, a, n) ∧ 6 ≤ (cmdParams c).length ∧
      byteWords ((cmdParams c).drop 6) = some l ∧ l.length = n ∧
      s.computes h = true) 1 (cm 0x15 mw) .B 0x7FFFE 2 ([7, 0x10203]) ((ex (cm 0x15 mw) up).setBank .B 0x7FFFF
      0x12345)) ∧
    ((fun (p : Fin 3) (c : Cmd) (bay : Fin 64) (h : Half) (s : State) => s.executes p.val c 0x20 = true ∧
      cmdParams c = [BitVec.ofNat 8 bay.val, BitVec.ofNat 8 h.num] ∧ s.holder bay.val = h.other ∧
      s.healthy h = true) 1 (cm 0x20 [9, 1]) 9 .B (ex (cm 0x20 [9, 1]) up)) ∧
    ((fun (p : Fin 3) (c : Cmd) (bay : Fin 64) (h : Half) (s : State) => s.executes p.val c 0x20 = true ∧
      cmdParams c = [BitVec.ofNat 8 bay.val, BitVec.ofNat 8 h.num] ∧ s.holder bay.val = h.other ∧
      s.healthy h = false) 1 (cm 0x20 [9, 1]) 9 .B (ex (cm 0x20 [9, 1])
      { up with halfB := { liveHalf with beatSeen := false } })) ∧
    ((fun (p : Fin 3) (c : Cmd) (mask : BitVec 17) (h : Half) (s : State) => s.executes p.val c 0x21 = true ∧
      cmdParams c = bigEndian 3 mask.toNat ++ [BitVec.ofNat 8 h.num] ∧
      s.healthy h = true) 1 (cm 0x21 [1, 0xFF, 0xFF, 1]) 0x1FFFF .B (ex (cm 0x21 [1, 0xFF, 0xFF, 1]) up)) ∧
    ((fun (p : Fin 3) (c : Cmd) (target : Fin 3) (s : State) => s.executes p.val c 0x23 = true ∧
      cmdParams c = [BitVec.ofNat 8 target.val] ∧ s.computes (s.cmdHalf p.val c) = true ∧
      s.flag (halfKey (s.runner (blkTw 7))) Reg.PRF_STAT_BUSY = false ∧
      profileOf target.val = s.profile) 1 (cm 0x23 [0]) 0 (ex (cm 0x23 [0]) { up with profile := profileOf 0 })) ∧
    ((fun (p : Fin 3) (c : Cmd) (target : Fin 3) (s : State) => s.executes p.val c 0x23 = true ∧
      cmdParams c = [BitVec.ofNat 8 target.val] ∧ s.computes (s.cmdHalf p.val c) = true ∧
      s.flag (halfKey (s.runner (blkTw 7))) Reg.PRF_STAT_BUSY = false ∧ profileOf target.val ≠ s.profile ∧
      s.flag oneKey Reg.TW7_PMB_EN = true ∧ (knowModes s).flag oneKey Reg.TW7_PMB_BADMODE = false ∧
      (s.port p.val).result = none) 1 (cm 0x23 [2]) 2 (ex (cm 0x23 [2])
      ({ up with profile := profileOf 0, pmbus := { up.pmbus with modesRead := true } }.put oneKey Reg.TW7_PMB_EN 1))) ∧
    ((fun (p : Fin 3) (c : Cmd) (r : Fin 1024) (op : Fin 16) (arg : BitVec 12) (h : Half) (s : State) => s.executes
      p.val c 0x30 = true ∧ cmdParams c = bigEndian 2 r.val ++ [BitVec.ofNat 8 op.val] ++ bigEndian 2 arg.toNat ∧
      s.computes (s.cmdHalf p.val c) = true ∧ op.val ≠ 5 ∧ (s.slot (s.holder (r.val / 16)) r.val).talk = none ∧
      h = s.holder (r.val / 16) ∧ s.computes h = true) 1 (cm 0x30 [3, 0xFF, 2, 0x0F, 0xFF]) 1023 2 0xFFF .B (ex (cm
      0x30 [3, 0xFF, 2, 0x0F, 0xFF]) up)) ∧
    ((fun (p : Fin 3) (c : Cmd) (chan : Fin 16512) (s : State) => s.executes p.val c 0x31 = true ∧
      cmdParams c = 0 :: bigEndian 2 chan.val ∧ (flushHalf 0 chan.val .B (flushHalf 0 chan.val .A s)).flushWaits 0
      chan.val = false) 1 (cm 0x31 [0, 0x40, 0x7F]) 0x407F (ex (cm 0x31 [0, 0x40, 0x7F]) up)) ∧
    ((fun (p : Fin 3) (c : Cmd) (o : Nat) (n : Nat) (s : State) => s.executes p.val c 0x40 = true ∧ o < 2 ^ 40 ∧
      1 ≤ n ∧ n ≤ 4064 ∧ cmdParams c = bigEndian 5 o ++ bigEndian 2 n ∧ s.computes (s.cmdHalf p.val c) = true ∧
      s.arcCommits = true ∧ (s.port p.val).result = none) 1 (cm 0x40 [1,2,3,4,5,0x0F,0xE0]) 0x0102030405 4064 (ar
      (ex (cm 0x40 [1,2,3,4,5,0x0F,0xE0]) up))) ∧
    ((fun (p : Fin 3) (c : Cmd) (chan : Fin 16512) (origin : Fin 5) (ns : Nat) (s : State) => s.executes p.val c
      0x41 = true ∧ ns < 2 ^ 60 ∧ cmdParams c = bigEndian 2 chan.val ++ [BitVec.ofNat 8 origin.val] ++ bigEndian 8
      ns ∧ s.computes (s.cmdHalf p.val c) = true ∧ s.arcCommits = true ∧
      (s.port p.val).result = none) 1 (cm 0x41 [0,9,4,0x0F,2,3,4,5,6,7,8]) 9 4 0x0F02030405060708 (ar (ex (cm 0x41
      [0,9,4,0x0F,2,3,4,5,6,7,8]) up))) ∧
    ((fun (p : Fin 3) (c : Cmd) (o : Nat) (s : State) => s.executes p.val c 0x42 = true ∧ o < 2 ^ 40 ∧
      cmdParams c = bigEndian 5 o ∧ s.computes (s.cmdHalf p.val c) = true ∧ s.arcCommits = true ∧
      (s.port p.val).result = none) 1 (cm 0x42 [1,2,3,4,5]) 0x0102030405 (ar (ex (cm 0x42 [1,2,3,4,5]) up))) ∧
    ((fun (p : Fin 3) (c : Cmd) (i : Instr) (st : Nat) (b : List Byte) (s : State) => (s.port p.val).exec = some c ∧
      c.origin = none ∧ (s.port p.val).begun = true ∧ (s.port p.val).result = some (st, b) ∧
      (c.op, i) ∈ [(0x23, Instr.cmdProfile p true), (0x23, Instr.cmdProfile p false), (0x40, Instr.cmdArcRead p),
      (0x41, Instr.cmdArcFind p), (0x42, Instr.cmdArcNext p), (0x58, Instr.cmdMetCmd p)]) 1 (cm 0x40 [])
      (.cmdArcRead 1) 7 ([8,9]) (bg (cm 0x40 []) (some (7, [8,9])) up)) ∧
    ((fun (p : Fin 3) (c : Cmd) (s : State) => s.executes p.val c 0x43 = true ∧ cmdParams c = [0, 0xA4, 0xC5] ∧
      s.computes (s.cmdHalf p.val c) = true ∧ s.arcEn = false ∧
      s.flag oneKey Reg.AR_STAT_FORMAT = false) 1 (cm 0x43 [0,0xA4,0xC5]) (ex (cm 0x43 [0,0xA4,0xC5]) up)) ∧
    ((fun (p : Fin 3) (c : Cmd) (ns : Nat) (s : State) => s.executes p.val c 0x50 = true ∧ ns < 2 ^ 60 ∧
      cmdParams c = bigEndian 8 ns ∧ s.computes (s.cmdHalf p.val c) = true) 1 tset 0x0F02030405060708 (ex tset up)) ∧
    ((fun (p : Fin 3) (c : Cmd) (b0 : Byte) (b : List Byte) (s : State) => s.executes p.val c 0x58 = true ∧
      b.length = 5 ∧ cmdParams c = b0 :: b ∧ b0.toNat % 16 ∈ [2, 3, 4, 5, 8, 9] ∧
      s.computes (s.cmdHalf p.val c) = true ∧ s.flag oneKey Reg.MET_CST_BUSY = false ∧
      (s.port p.val).result = none) 1 (cm 0x58 [0x13,2,3,4,5,6]) 0x13 ([2,3,4,5,6])
      ({ ex (cm 0x58 [0x13,2,3,4,5,6]) up with meter := { up.meter with on := true } })) ∧
    ((fun (p : Fin 3) (c : Cmd) (b0 : Byte) (b : List Byte) (s : State) => s.executes p.val c 0x58 = true ∧
      b.length = 5 ∧ cmdParams c = b0 :: b ∧ b0.toNat % 16 ∉ [2, 3, 4, 5, 8, 9] ∧
      s.computes (s.cmdHalf p.val c) = true ∧ s.flag oneKey Reg.MET_CST_BUSY = false) 1 (cm 0x58 [0x17,2,3,4,5,6])
      0x17 ([2,3,4,5,6]) (ex (cm 0x58 [0x17,2,3,4,5,6]) up)) ∧
    ((fun (p : Fin 3) (c : Cmd) (ty : Byte) (ix : Byte) (s : State) => s.executes p.val c 0x59 = true ∧
      cmdParams c = [ty, ix] ∧ 0x20 ≤ ty.toNat ∧ ty.toNat ≤ 0x28 ∧
      s.computes (s.cmdHalf p.val c) = true) 1 (cm 0x59 [0x21, 3]) 0x21 3 (ex (cm 0x59 [0x21, 3]) up)) := by
  refine ⟨?_, ?_, ?_, ?_, ?_, ?_, ?_, ?_, ?_, ?_, ?_, ?_, ?_, ?_, ?_, ?_, ?_, ?_, ?_, ?_, ?_, ?_, ?_⟩ <;> decide
    +kernel

theorem meets_EnvelopeAndOtpCommandsTakeEffect :
    ((fun (p : Fin 3) (c : Cmd) (s : State) => s.executes p.val c 0x70 = true ∧ cmdParams c = [] ∧
      s.flag oneKey Reg.ENV_STAT_BACKOFF = false) 1 (cm 0x70 []) (ex (cm 0x70 []) up)) ∧
    ((fun (p : Fin 3) (c : Cmd) (s : State) => s.executes p.val c 0x71 = true ∧ (cmdParams c).length = 8 ∧
      s.flag oneKey Reg.ENV_STAT_BACKOFF = false ∧ s.openMatches (s.nonceOf p.val) (cmdParams c) = true) 1 opn (nn
      0x1234 (ex opn (up.put oneKey Reg.ENV_STAT_FAILS 5)))) ∧
    ((fun (p : Fin 3) (c : Cmd) (s : State) => s.executes p.val c 0x71 = true ∧ (cmdParams c).length = 8 ∧
      s.flag oneKey Reg.ENV_STAT_BACKOFF = false ∧ s.flag oneKey Reg.ENV_STAT_OPEN = false ∧
      s.nonceOf p.val ≠ some (payloadField (cmdParams c) 0 2)) 1 (cm 0x71 [0x12, 0x34, 0xED, 0xCB, 0, 0, 0, 0]) (nn
      0x1235 (ex (cm 0x71 [0x12, 0x34, 0xED, 0xCB, 0, 0, 0, 0]) (up.put oneKey Reg.ENV_STAT_FAILS 6)))) ∧
    ((fun (p : Fin 3) (c : Cmd) (i : Instr) (s : State) => s.flag oneKey Reg.ENV_STAT_BACKOFF = true ∧
      s.executes p.val c c.op = true ∧ (c.op, i, (cmdParams c).length) ∈ [(0x70, Instr.envNonce p, 0), (0x71,
      Instr.envOpen p, 8)]) 1 (cm 0x70 []) (.envNonce 1) (ex (cm 0x70 []) (up.put oneKey Reg.ENV_STAT_BACKOFF 1))) ∧
    ((fun (p : Fin 3) (c : Cmd) (s : State) => s.executes p.val c 0x72 = true ∧
      cmdParams c = []) 1 (cm 0x72 []) (ex (cm 0x72 []) (ses up))) ∧
    ((fun (p : Fin 3) (c : Cmd) (l : List TermRec) (s : State) => s.executes p.val c 0x73 = true ∧
      l = (records 11 (cmdParams c)).map termRec ∧ (cmdParams c).length % 11 = 0 ∧ l ≠ [] ∧ l.length ≤ 256 ∧
      l.all (fun r => r.ok) = true ∧ (∀ i : Fin 256, i.val < l.length → termFault s l i.val = false)) 1 tc ([termRec
      tr1, termRec tr2]) (ex tc (ses up))) ∧
    ((fun (p : Fin 3) (c : Cmd) (l : List TermRec) (i : Nat) (s : State) => s.executes p.val c 0x73 = true ∧
      l = (records 11 (cmdParams c)).map termRec ∧ (cmdParams c).length % 11 = 0 ∧ l ≠ [] ∧ l.length ≤ 256 ∧
      l.all (fun r => r.ok) = true ∧ (List.range l.length).find? (fun j => termFault s l j) = some i) 1 td ([termRec
      tr1, termRec tr1]) 1 (ex td (ses up))) ∧
    ((fun (p : Fin 3) (c : Cmd) (l : List LineRec) (s : State) => s.executes p.val c 0x74 = true ∧
      l = (records 7 (cmdParams c)).map lineRec ∧ (cmdParams c).length % 7 = 0 ∧ l ≠ [] ∧ l.length ≤ 64 ∧
      l.all (fun r => r.ok) = true ∧ (∀ i : Fin 64, i.val < l.length → lineFault s l i.val = false)) 1 lc ([lineRec
      l1]) ((ex lc (ses up)).put (envKey 1023) Reg.TS_ENV_MAXD 1000)) ∧
    ((fun (p : Fin 3) (c : Cmd) (l : List LineRec) (i : Nat) (s : State) => s.executes p.val c 0x74 = true ∧
      l = (records 7 (cmdParams c)).map lineRec ∧ (cmdParams c).length % 7 = 0 ∧ l ≠ [] ∧ l.length ≤ 64 ∧
      l.all (fun r => r.ok) = true ∧ (List.range l.length).find? (fun j => lineFault s l j) = some i) 1 ld ([lineRec
      l1, lineRec l1]) 1 ((ex ld (ses up)).put (envKey 1023) Reg.TS_ENV_MAXD 1000)) ∧
    ((fun (p : Fin 3) (c : Cmd) (r : Fin 1024) (range : Fin 4) (h : Half) (s : State) => s.executes p.val c 0x75 =
      true ∧ cmdParams c = bigEndian 2 r.val ++ [BitVec.ofNat 8 range.val] ∧ s.computes (s.cmdHalf p.val c) = true ∧
      (s.slot (s.holder (r.val / 16)) r.val).talk = none ∧ h = s.holder (r.val / 16) ∧
      s.computes h = true) 1 rg 1023 3 .B (ex rg (ses up))) ∧
    ((fun (p : Fin 3) (c : Cmd) (st : Nat) (b : List Byte) (s : State) => (s.port p.val).exec = some c ∧
      c.op = 0x75 ∧ c.origin = none ∧ (s.port p.val).begun = true ∧
      (s.port p.val).result = some (st, b)) 1 rg 0 ([1]) (bg rg (some (0, [1])) (ses up))) ∧
    ((fun (p : Fin 3) (c : Cmd) (v : Fin 2) (s : State) => s.executes p.val c 0x76 = true ∧
      cmdParams c = [BitVec.ofNat 8 v.val]) 1 (cm 0x76 [1]) 1 (ex (cm 0x76 [1]) (ses up))) ∧
    ((fun (p : Fin 3) (c : Cmd) (k : Fin 4) (hash : List Byte) (s : State) => s.executes p.val c 0x77 = true ∧
      hash.length = 32 ∧ cmdParams c = BitVec.ofNat 8 k.val :: hash) 1 kc 2 (List.replicate 32 0x5A) (ex kc (ses up))) ∧
    ((fun (p : Fin 3) (c : Cmd) (k : Fin 4) (j : Fin 4) (s : State) => s.executes p.val c 0x78 = true ∧
      cmdParams c = [BitVec.ofNat 8 k.val] ∧ j ≠ k ∧ s.usableKey j.val = true) 1 (cm 0x78 [1]) 1 3 (ex (cm 0x78 [1])
      (ses { up with otp := { up.otp with prog := 15 } }))) ∧
    ((fun (p : Fin 3) (c : Cmd) (k : Fin 4) (s : State) => s.executes p.val c 0x78 = true ∧
      cmdParams c = [BitVec.ofNat 8 k.val] ∧ (∀ j : Fin 4, j ≠ k → s.usableKey j.val = false)) 1 (cm 0x78 [1]) 1 (ex
      (cm 0x78 [1]) (ses { up with otp := { up.otp with prog := 2 } }))) ∧
    ((fun (p : Fin 3) (c : Cmd) (v : Fin 64) (a : Nat) (b : Nat) (s : State) => s.executes p.val c 0x79 = true ∧
      cmdParams c = [BitVec.ofNat 8 v.val] ∧ s.confirmedSvn .A = some a ∧
      s.confirmedSvn .B = some b) 1 (cm 0x79 [5]) 5 9 9 (cf 9 (cm 0x79 [5]))) ∧
    ((fun (p : Fin 3) (c : Cmd) (s : State) => s.executes p.val c 0x7A = true ∧
      cmdParams c = [0xD0]) 1 (cm 0x7A [0xD0]) (ex (cm 0x7A [0xD0]) (ses up))) := 
  ⟨by decide +kernel, ⟨opn_executes, rfl, by decide +kernel, opn_matches _ (by decide +kernel)⟩, by decide +kernel, by decide +kernel, by decide +kernel, by decide +kernel, by decide +kernel, by decide +kernel, by decide +kernel, by decide +kernel, by decide +kernel, by decide +kernel, by decide +kernel, by decide +kernel, by decide +kernel, by decide +kernel, by decide +kernel⟩

end S19

namespace S20

def on (s : State) : State := (((s.put (twKey 3) Reg.TW_CFG_EN 1).put (twKey 3) Reg.TW_CFG_CTL_EN 1).put (twKey 3)
  Reg.TW_CFG_TGT_EN 1).put (twKey 3) Reg.TW_CA_ADDR 0x51
def tw (f : TwBus → TwBus) (s : State) : State := s.setTw 3 (f (s.tw 3))
def v : Word := BitVec.ofNat 20 (0x80000 + 0x40000 + 64 * 128 + 2)
def rn (h : Bool) (f : TwBus → TwBus) : State := tw (fun x => f { x with run := some (1, 3, h), waits := false })
  (on up)
def ta (s : State) : State := ((s.put (twKey 3 + 2) Reg.TW_TADDR_EN 1).put (twKey 3 + 2) Reg.TW_TADDR_ADDR 0x33)
def tg (rd : Bool) (f : TwBus → TwBus) : State := tw (fun x => f { x with target := some (2, rd), first := true })
  (on up)

theorem meets_TwoWireBusesTransfer :
    ((fun (m : Master) (b : Fin 8) (v : Word) (s : State) => s.blockWriteOk m (blkTw b.val) = true ∧
      v.getLsbD 19 = true ∧ (s.tw b.val).run = none ∧ s.pmbOwns b.val = false ∧ bits v 6 0 ≤ 64 ∧ bits v 13 7 ≤ 64 ∧
      0 < bits v 6 0 + bits v 13 7 ∧ s.flag (twKey b.val) Reg.TW_CFG_CTL_EN = true ∧
      s.flag (twKey b.val) Reg.TW_CFG_EN = true) (.steward 0) 3 v (tw (fun x => { x with buf := [(1, 9)] }) (on up))) ∧
    ((fun (m : Master) (b : Fin 8) (v : Word) (s : State) => s.blockWriteOk m (blkTw b.val) = true ∧
      v.getLsbD 19 = true ∧ ((s.tw b.val).run.isSome = true ∨ s.pmbOwns b.val = true)) (.port 1) 3 v (tw (fun x =>
      { x with run := some (1, 2, false) }) (on up))) ∧
    ((fun (b : Fin 8) (data : List Byte) (w : Nat) (r : Nat) (hold : Bool) (s : State) => data.length ≤ 64 ∧
      (s.tw b.val).run = some (w, r, hold) ∧ (s.tw b.val).waits = false) 3 ([1,2,3,4]) 1 3 true (rn true id)) ∧
    ((fun (b : Fin 8) (outcome : Fin 4) (data : List Byte) (w : Nat) (r : Nat) (hold : Bool) (s : State) =>
      data.length ≤ 64 ∧ outcome ≠ 0 ∧ (s.tw b.val).run = some (w, r, hold) ∧
      (s.tw b.val).waits = false) 3 1 ([1,0]) 1 3 false (rn false id)) ∧
    ((fun (b : Fin 8) (s : State) => s.flag (twKey b.val) Reg.TW_CFG_EN = true ∧
      s.flag (twKey b.val) Reg.TW_CFG_TGT_EN = true ∧ s.pmbOwns b.val = false) 3 (ta (on up))) ∧
    ((fun (b : Fin 8) (i : Nat) (s : State) => (s.tw b.val).target = some (i, false) ∧
      (s.tw b.val).stuck = none) 3 2 (tg false id)) ∧
    ((fun (b : Fin 8) (i : Nat) (v : Byte) (q : List Byte) (s : State) => (s.tw b.val).target = some (i, true) ∧
      (s.tw b.val).tx = v :: q) 3 2 4 ([5]) (tg true (fun x => { x with tx := [4, 5], starved := true }))) ∧
    ((fun (b : Fin 8) (i : Nat) (s : State) => (s.tw b.val).target = some (i, true) ∧
      (s.tw b.val).tx = []) 3 2 (tg true id)) ∧
    ((fun (b : Fin 8) (s : State) => (s.tw b.val).target.isSome = true) 3 (tg true id)) ∧
    ((fun (b : Fin 8) (s : State) => (s.tw b.val).held = false ∧ (s.tw b.val).run = none ∧
      (s.tw b.val).waits = false) 3 (up.put (twKey 3) Reg.TW_STAT_BUSBUSY 1)) ∧
    ((fun (b : Fin 8) (w : Nat) (r : Nat) (hold : Bool) (s : State) => (s.tw b.val).held = false ∧
      (s.tw b.val).run = some (w, r, hold) ∧ (s.tw b.val).waits = true) 3 1 3 true (rn true (fun x =>
      { x with waits := true }))) ∧
    ((fun (m : Master) (b : Fin 8) (e : Byte × Nat × Bool) (q : List (Byte × Nat × Bool)) (s : State) =>
      s.blockWriteOk m (blkTw b.val) = true ∧ (s.tw b.val).rx = e :: q ∧
      (s.tw b.val).stuck = none) (.steward 0) 3 ((7, 1, true)) ([(8, 1, false)]) (tg false (fun x =>
      { x with rx := [(7, 1, true), (8, 1, false)] }))) ∧
    ((fun (m : Master) (b : Fin 8) (e : Byte × Nat × Bool) (q : List (Byte × Nat × Bool)) (v : Byte) (i : Nat) (rd :
      Bool) (s : State) => s.blockWriteOk m (blkTw b.val) = true ∧ (s.tw b.val).rx = e :: q ∧ q.length < 32 ∧
      (s.tw b.val).stuck = some v ∧ (s.tw b.val).target = some (i, rd)) (.steward 0) 3 ((7, 1, true)) ([(8, 1,
      false)]) 9 2 false (tg false (fun x => { x with rx := [(7, 1, true), (8, 1, false)], stuck := some 9 }))) ∧
    ((fun (m : Master) (b : Fin 8) (s : State) => s.blockWriteOk m (blkTw b.val) = true) (.steward 0) 3 (tg true
      (fun x => { x with starved := true }))) ∧
    ((fun (b : Fin 8) (w : Nat) (r : Nat) (hold : Bool) (s : State) => (s.tw b.val).run = some (w, r, hold) ∧
      (s.tw b.val).waits = false) 3 1 3 true (rn true id)) := by
  refine ⟨?_, ?_, ?_, ?_, ?_, ?_, ?_, ?_, ?_, ?_, ?_, ?_, ?_, ?_, ?_⟩ <;> decide +kernel

end S20

namespace S21

def pw (f : Power → Power) (s : State) : State := s.setPower (f s.power)
def ob (s : State) : State := s.setOpen (s.chanHome 0x1234) 0x1234 { Bushel.reset with chan := 0x1234 }
def en (md : PwrMode) (s : State) : State := (pw (fun p =>
  { p with entering := some md, enteredAt := 5, requester := some .B, edgeLatch := true }) s).put oneKey
  Reg.PWR_ST_BUSY 1
def sl (md : PwrMode) (s : State) : State := pw (fun p => { p with mode := md, fullMode := false }) s
def wn (s : State) : State := (s.put oneKey Reg.PWR_CFG_WN_EN 1).put oneKey Reg.PWR_CFG_WN_EDGE 0
def rt (s : State) : State := pw (fun p => { p with returning := some 3, vcWake := true })
  { s with trefRuns := false }
def va (s : State) : State := ((s.put oneKey Reg.VA_STAT_EN 1).put oneKey Reg.VA_STAT_ARMED 1)
def full : State := { en .sleep up with banks := [(1, 2)], imem := [(3, 4)], vmem := [(5, 6)], flash := [(0, 1)], tref := 77, seats := 5, owners := 3, profile := profileOf 2, stewards := [(3, Steward.reset)] }

theorem meets_PowerStatesAreEnteredAndLeft :
    ((fun (m : Master) (c : Instr) (mode : PwrMode) (s : State) => s.power.mode = .run ∧ s.power.entering = none ∧
      (c, mode) ∈ [(.sleepRequest m, PwrMode.sleep), (.deepRequest m, .deep), (.offRequest m 0x0FF5, .off)])
      (.steward 5) (.sleepRequest (.steward 5)) .sleep (ob up)) ∧
    ((fun (key : BitVec 16) (s : State) => s.power.mode = .run ∧ s.power.entering = none ∧ key ≠ 0x0FF5) 0x0FF4 up) ∧
    ((fun (m : Master) (c : Instr) (s : State) => s.power.mode = .run ∧ s.power.entering.isSome = true ∧
      c ∈ [.sleepRequest m, .deepRequest m, .offRequest m 0x0FF5, .runRequest m]) (.port 0) (.sleepRequest (.port
      0)) (en .deep up)) ∧
    ((fun (s : State) => s.power.mode = .run ∧ s.power.entering = none) up) ∧
    ((fun (code : Nat) (s : State) => (s.power.mode = .sleep ∨ s.power.mode = .deep) ∧ s.power.returning = none ∧
      (s.setPower { s.power with vcWake := true }).wakeCode = some code) 7 (sl .deep up)) ∧
    ((fun (mode : PwrMode) (k : Nat) (s : State) => s.power.entering = some mode ∧
      firstBlock (fun j => s.refuses mode j) = some k) .sleep 12 (pw (fun p => { p with pfail := true }) (en .sleep
      up))) ∧
    ((fun (mode : PwrMode) (k : Nat) (s : State) => s.power.entering = some mode ∧
      s.power.enteredAt + 10000000 ≤ s.tref ∧ firstBlock (fun j => s.refuses mode j || s.holds j) = some k) .sleep 5
      ({ (en .sleep up).put (halfKey .B) Reg.MC_STAT_TST_BUSY 1 with tref := 10000005 })) ∧
    ((fun (mode : PwrMode) (s : State) => s.power.entering = some mode ∧ mode ≠ .run ∧ s.power.returning = none ∧
      firstBlock (fun j => s.refuses mode j || s.holds j) = none) .sleep ((en .sleep up).put oneKey
      Reg.ENV_STAT_OPEN 1)) ∧
    ((fun (s : State) => (s.power.mode = .sleep ∨ s.power.mode = .deep) ∧ s.power.returning = none ∧
      s.power.entering = none ∧ s.flag oneKey Reg.PWR_CFG_WN_EN = true ∧
      s.flag oneKey Reg.PWR_CFG_WN_EDGE = false) (wn (sl .deep up))) ∧
    ((fun (mode : PwrMode) (s : State) => s.power.mode = .run ∧ s.power.entering = some mode ∧
      s.flag oneKey Reg.PWR_CFG_WN_EN = true ∧ s.flag oneKey Reg.PWR_CFG_WN_EDGE = false) .off (wn (en .off up))) ∧
    ((fun (s : State) => s.power.mode = .off) (sl .off up)) ∧
    ((fun (flips : List Flip) (s : State) => flips.all Flip.wf = true ∧ s.power.returning = some 3 ∧
      s.power.xref = true) ([⟨.A, false, 7⟩]) (rt (sl .sleep up))) ∧
    ((fun (f : Flip) (s : State) => f.wf = true ∧ f.instr = false ∧ s.power.mode = .deep ∧
      s.power.returning = some 3 ∧ s.power.xref = true) (⟨.B, false, 7⟩) (rt (sl .deep
      { up with bankMarks := [(bankIx .B 7, 1)] }))) ∧
    ((fun (s : State) => s.power.returning = some 2) (pw (fun p => { p with returning := some 2 }) (sl .deep up))) := by
  refine ⟨?_, ?_, ?_, ?_, ?_, ?_, ?_, ?_, ?_, ?_, ?_, ?_, ?_, ?_⟩ <;> decide +kernel

theorem meets_ResetsSuppliesAndClocksTakeEffect :
    ((fun (s : State) => s.flag oneKey Reg.VA_STAT_EN = true ∧ s.flag oneKey Reg.VA_STAT_ARMED = true ∧
      (s.timeNs + (2 ^ 60 - s.wide (oneKey + Reg.VA_CMP) 3 % 2 ^ 60)) % 2 ^ 60 < 2 ^ 59) (va
      { up with fabricTime := 7 * 2^32 })) ∧
    ((fun (s : State) => s.power.mode = .run ∧ s.power.xref = true) ((up.put (tbKey 9) Reg.TB_CTL_EN 1))) ∧
    ((fun (s : State) => s.power.mode = .run ∧ s.power.xref = false ∧
      s.power.vaon = true) (pw (fun p => { p with xref := false, xrefGone := true }) { up with trefRuns := false })) ∧
    ((fun (s : State) => s.power.pfail = false) (ob (en .sleep up))) ∧
    ((fun (s : State) => s.power.mode ≠ .off ∧ s.power.vaon = true) full) ∧
    ((fun (h : Half) (s : State) => s.power.mode = .run ∧ s.power.vaon = true ∧ (s.half h).inReset = true ∧
      (s.half h).supplyOk = true ∧ (s.half h).held = false ∧ s.trefRuns = true ∧
      s.power.testN = true) .B
      ({ pw (fun p => { p with resetLow := true }) up with halfB := { liveHalf with inReset := true } })) := by
  refine ⟨?_, ?_, ?_, ?_, ?_, ?_⟩ <;> decide +kernel

end S21

namespace S22

def pw (f : Power → Power) (s : State) : State := s.setPower (f s.power)
def tn (s : State) : State := pw (fun p => { p with testN := false }) s
def st5 (md : StewMode) (s : State) : State := s.setSteward 5
  { Steward.reset with mode := md, w := [(3, 0x777), (15, 9)], pc := 8 }

theorem meets_TheTestPortScansAndDebugs :
    ((fun (s : State) => s.power.vaon = true ∧ s.power.mode ≠ .off) up) ∧
    ((fun (c : Instr) => c ∈ [.idcode, .trstN]) .idcode) ∧
    ((fun (s : State) => s.power.vaon = true ∧ s.power.mode ≠ .off)
      ({ up with jtag := { up.jtag with cells := BitVec.ofNat 3363 0x123456789ABCDEF0123456789 } })) ∧
    ((fun (s : State) => s.otp.dbgOff = true) ({ up with otp := { up.otp with dbgOff := true } })) ∧
    ((fun (k : Fin 9) (s : State) => s.otp.dbgOff = false ∧ s.debugReaches k.val = true ∧
      (s.steward k.val).mode = .running ∧ (s.steward k.val).load = none ∧
      (s.steward k.val).stopDue = false) 5 (st5 .running up)) ∧
    ((fun (k : Fin 9) (s : State) => s.otp.dbgOff = false ∧ s.debugReaches k.val = true) 5 (st5 .running up)) ∧
    ((fun (k : Fin 9) (s : State) => s.otp.dbgOff = false ∧ s.debugReaches k.val = true) 5 (st5 .running up)) ∧
    ((fun (k : Fin 9) (s : State) => s.otp.dbgOff = false ∧ s.debugReaches k.val = true ∧
      (s.steward k.val).mode.runs = false) 5 (st5 .halted up)) ∧
    ((fun (k : Fin 9) (s : State) => s.otp.dbgOff = false ∧ s.debugReaches k.val = true ∧
      (s.steward k.val).mode.runs = true) 5 (st5 .running up)) ∧
    ((fun (k : Fin 9) (s : State) => s.otp.dbgOff = false ∧ s.debugReaches k.val = true) 5 (st5 .halted up)) ∧
    ((fun (k : Fin 9) (s : State) => s.otp.dbgOff = false ∧ s.debugReaches k.val = true) 5 (st5 .running up)) ∧
    ((fun (k : Fin 8) (a : Word) (s : State) => s.otp.dbgOff = false ∧ s.debugReaches k.val = true ∧
      a.toNat < 0x80000 ∧ tblGet s.bankMarks 0 (bankIx (stewHalf k.val) a.toNat) = 0) 5 0x7FFFF (up.setBank .B
      0x7FFFF 0x999)) ∧
    ((fun (k : Fin 8) (a : Word) (s : State) => s.otp.dbgOff = false ∧ s.debugReaches k.val = true ∧
      a.toNat < 0x80000) 5 0x7FFFF (up.setBank .B 0x7FFFF 0x999)) ∧
    ((fun (k : Fin 8) (a : BitVec 18) (s : State) => s.otp.dbgOff = false ∧ s.debugReaches k.val = true ∧
      tblGet s.imemMarks 0 (imemIx (stewHalf k.val) a.toNat) = 0) 5 0x3FFFF (up.setImem .B 0x3FFFF 0x999)) ∧
    ((fun (k : Fin 8) (s : State) => s.otp.dbgOff = false ∧ s.debugReaches k.val = true) 5 (up.setImem .B 0x3FFFF
      0x999)) ∧
    ((fun (a : Word) (s : State) => s.otp.dbgOff = false ∧ s.debugReaches 8 = true ∧ a.toNat < 0x4000 ∧
      s.vcSplit ≤ a.toNat) 0x3FFF up) := by
  refine ⟨?_, ?_, ?_, ?_, ?_, ?_, ?_, ?_, ?_, ?_, ?_, ?_, ?_, ?_, ?_, ?_⟩ <;> decide +kernel

end S22

end Sys2Proof.Tests
end

section
/-! PROOF. Whether a command completes (O2): each meaning is the check of its operands, the one `Instr.wf` makes, in
front of a next state. -/

namespace Sys2Proof.Machine

/-- The answer is a next state where the check passes, and the fault for an ill-formed term where it fails. -/
def CompletesIf (check : Bool) (r : Result) : Prop := ∃ t, r = if check then .next t else .fault .illFormed

theorem CompletesIf.of_unchecked (t : State) : CompletesIf true (.next t) := ⟨t, rfl⟩

theorem CompletesIf.of_check (check : Bool) (t : State) :
    CompletesIf check (if check then .next t else .fault .illFormed) := ⟨t, rfl⟩

theorem CompletesIf.of_decide (p : Prop) [Decidable p] (t : State) :
    CompletesIf (decide p) (if p then .next t else .fault .illFormed) :=
  ⟨t, by simp only [decide_eq_true_eq]⟩

theorem CompletesIf.next {r : Result} (h : CompletesIf true r) : ∃ t, r = .next t := h

theorem CompletesIf.illFormed {r : Result} (h : CompletesIf false r) : r = .fault .illFormed := by
  obtain ⟨_, rfl⟩ := h
  rfl

/-- Every command's check is `Instr.wf`. The 26 commands named have operand ranges beyond their operands' types and check
them first (the meaning of WATCH_BOUNDARY checks the proposition, not its Boolean); every other command checks nothing. -/
theorem exec_completesIf_wf (c : Instr) (s : State) : CompletesIf c.wf (exec c s) := by
  cases c
  case watchBoundary => exact .of_decide _ _
  case registerWrite | transferRequest | getId | getParam | getLog | getEnergy | setParam | commitParams | discardParams
      | samplesFrame | replReceived | helloReceived | packetTransit | claimReceived | routeReceived | syncReceived
      | alarmReceived | alsumReceived | cmdReceived | replyReceived | areqReceived | adataReceived | unreachReceived
      | twTransferDone | returnToRun =>
    exact .of_check _ _
  all_goals exact .of_unchecked _

/-- Settles O2: by the command's check, which passes exactly on the well-formed terms. -/
theorem wellFormedCommandsAlwaysComplete : Obligations.WellFormedCommandsAlwaysComplete := by
  intro c s
  have h := exec_completesIf_wf c s
  constructor <;> intro hwf <;> rw [hwf] at h
  · exact h.next
  · exact h.illFormed

end Sys2Proof.Machine
end

section
/-! PROOF. The reset state (O6). -/

namespace Sys2Proof.Machine

/-- No register is listed at reset, so that each holds its reset value. -/
theorem reset_get (b : Nat) (f : Fld) : State.reset.get b f = bits (regReset (b + f.addr)) f.hi f.lo := rfl

/-- Settles O6: each part is read off the reset state, the 64 seats one by one. -/
theorem resetLeavesTheSpecifiedValues : Obligations.ResetLeavesTheSpecifiedValues := by
  have seats : ∀ b : Fin 64, State.reset.holder b.val = if b.val < 32 then .A else .B := by decide +kernel
  refine ⟨fun b hb => seats ⟨b, hb⟩, rfl, rfl, rfl, ?_, fun h => ⟨?_, ?_⟩, rfl⟩
  · rw [reset_get]
    decide +kernel
  · rw [reset_get]
    cases h <;> decide +kernel
  · cases h <;> rfl

end Sys2Proof.Machine
end

section
/-! SUPPORT. What the shared operations of bays, lines, pads and coders leave alone: the seats, the halves and the terminals'
paths. -/

namespace Sys2Proof.Machine

/-- What moves of seats and paths are about: the seats, the state of the two halves, and the terminals' paths. -/
def State.seatPart (s : State) : BitVec 64 × HalfState × HalfState × BitVec 1024 :=
  (s.seats, s.halfA, s.halfB, s.referee.termPath)

section

variable {s t : State} (h : t.seatPart = s.seatPart)
include h

theorem State.seats_of_seatPart : t.seats = s.seats := congrArg Prod.fst h

theorem State.half_of_seatPart (x : Half) : t.half x = s.half x := by
  cases x
  · exact congrArg (fun p => p.2.1) h
  · exact congrArg (fun p => p.2.2.1) h

theorem State.livePath_of_seatPart (n : Nat) : t.livePath n = s.livePath n :=
  congrArg (fun p : BitVec 64 × HalfState × HalfState × BitVec 1024 => Half.ofBit (p.2.2.2.getLsbD n)) h

end

theorem State.holder_of_seats {s t : State} (h : t.seats = s.seats) (b : Nat) : t.holder b = s.holder b := by
  rw [State.holder, h, State.holder]

theorem seatPart_foldl {β : Type} {f : State → β → State} (hf : ∀ s x, (f s x).seatPart = s.seatPart) (l : List β)
    (s : State) : (l.foldl f s).seatPart = s.seatPart :=
  foldl_rel (fun s t => t.seatPart = s.seatPart) (fun _ => rfl) (fun _ _ _ h1 h2 => h2.trans h1) f hf l s

theorem seatPart_onCopies {f : Half → State → State} (hf : ∀ h s, (f h s).seatPart = s.seatPart) (s : State) :
    (s.onCopies f).seatPart = s.seatPart :=
  onCopies_rel (fun s t => t.seatPart = s.seatPart) (fun _ => rfl) (fun _ _ _ h1 h2 => h2.trans h1) f hf s

/-! ## Writes of registers and of numbered structures. A proof written (rfl) keeps simp from replacing it by unfolding. -/

@[simp] theorem seatPart_setReg (s : State) (k : Nat) (w : Word) : (s.setReg k w).seatPart = s.seatPart := (rfl)
@[simp] theorem seatPart_put (s : State) (b v : Nat) (f : Fld) : (s.put b f v).seatPart = s.seatPart := seatPart_setReg _ _ _
@[simp] theorem seatPart_count (s : State) (k n : Nat) : (s.count k n).seatPart = s.seatPart := seatPart_setReg _ _ _
@[simp] theorem seatPart_setMirror (s : State) (h : Half) (b : Nat) (x : Mirror) :
    (s.setMirror h b x).seatPart = s.seatPart := (rfl)
@[simp] theorem seatPart_setSlot (s : State) (h : Half) (t : Nat) (x : Slot) : (s.setSlot h t x).seatPart = s.seatPart := (rfl)
@[simp] theorem seatPart_setLine (s : State) (h : Half) (b : Nat) (x : Line) : (s.setLine h b x).seatPart = s.seatPart := (rfl)
@[simp] theorem seatPart_setEngine (s : State) (h : Half) (b : Nat) (x : Engine) :
    (s.setEngine h b x).seatPart = s.seatPart := (rfl)
@[simp] theorem seatPart_setPipe (s : State) (h : Half) (b : Nat) (x : BayPipe) :
    (s.setPipe h b x).seatPart = s.seatPart := (rfl)
@[simp] theorem seatPart_setChan (s : State) (c : Nat) (x : Chan) : (s.setChan c x).seatPart = s.seatPart := (rfl)
@[simp] theorem seatPart_setCoder (s : State) (h : Half) (e : Nat) (x : Coder) :
    (s.setCoder h e x).seatPart = s.seatPart := (rfl)
@[simp] theorem seatPart_setCodeHalf (s : State) (h : Half) (x : CodeHalf) : (s.setCodeHalf h x).seatPart = s.seatPart := (rfl)
@[simp] theorem seatPart_setOpen (s : State) (h : Half) (c : Nat) (x : Bushel) :
    (s.setOpen h c x).seatPart = s.seatPart := (rfl)
@[simp] theorem seatPart_closeOpen (s : State) (h : Half) (c : Nat) : (s.closeOpen h c).seatPart = s.seatPart := (rfl)
@[simp] theorem seatPart_noteGap (g : Nat) (s : State) : (noteGap g s).seatPart = s.seatPart := (rfl)
@[simp] theorem seatPart_countLine (h : Half) (b k : Nat) (s : State) : (countLine h b k s).seatPart = s.seatPart := 
  seatPart_count _ _ _
@[simp] theorem seatPart_countPl (h : Half) (b k n : Nat) (s : State) : (countPl h b k n s).seatPart = s.seatPart := 
  seatPart_count _ _ _
@[simp] theorem seatPart_plMark (h : Half) (b : Nat) (f : Fld) (s : State) : (plMark h b f s).seatPart = s.seatPart := 
  seatPart_put _ _ _ _

/-! ## Events -/

theorem EventOnly.seatPart {s t : State} (h : EventOnly s t) : t.seatPart = s.seatPart := by
  obtain ⟨_, _, _, _, rfl⟩ := h
  rfl

@[simp] theorem seatPart_raiseEvent (p : Nat) (s : State) : (raiseEvent p s).seatPart = s.seatPart :=
  (raiseEvent_only p s).seatPart

@[simp] theorem seatPart_raiseBayEvent (h : Half) (b : Nat) (e : BayEvent) (s : State) :
    (raiseBayEvent h b e s).seatPart = s.seatPart := by
  unfold raiseBayEvent
  split
  · exact (raiseEvents_only _ s).seatPart
  · rfl

/-! ## Coding (R323 to R340) -/

@[simp] theorem seatPart_openChan (h : Half) (c : Nat) (records : Bool) (set : CodeSet) (chg : Bool) (t enter : Nat)
    (s : State) : (openChan h c records set chg t enter s).seatPart = s.seatPart := by
  unfold openChan State.opened
  dsimp only
  split <;> simp

@[simp] theorem seatPart_sealBushel (h : Half) (c : Nat) (flush full : Bool) (s : State) :
    (sealBushel h c flush full s).seatPart = s.seatPart := by
  unfold sealBushel
  split
  · rfl
  · dsimp only
    rw [apply_ite State.seatPart]
    simp

@[simp] theorem seatPart_storeItem (h : Half) (i : Item) (rest : List Item) (x : Bushel) (s : State) :
    (storeItem h i rest x s).seatPart = s.seatPart := by
  unfold storeItem countInput
  dsimp only
  split <;> simp

@[simp] theorem seatPart_storeRecord (h : Half) (r : Rec) (rest : List Rec) (x : Bushel) (s : State) :
    (storeRecord h r rest x s).seatPart = s.seatPart := by
  simp [storeRecord, countInput]

@[simp] theorem seatPart_codeItem (h : Half) (i : Item) (before after : List Item) (s : State) :
    (codeItem h i before after s).seatPart = s.seatPart := by
  unfold codeItem
  split
  · dsimp only
    split_ifs <;> simp
  · dsimp only
    split <;> simp

@[simp] theorem seatPart_codeRecord (h : Half) (r : Rec) (rest : List Rec) (s : State) :
    (codeRecord h r rest s).seatPart = s.seatPart := by
  unfold codeRecord
  split
  · dsimp only
    split_ifs <;> simp
  · dsimp only
    split <;> simp

@[simp] theorem seatPart_codeItems (h : Half) (c : Nat) (before : Option Nat) (force : Bool) (n : Nat) :
    ∀ s : State, (codeItems h c before force n s).seatPart = s.seatPart := by
  induction n with
  | zero => exact fun _ => rfl
  | succ n ih =>
    intro s
    rw [codeItems]
    split
    · rw [apply_ite State.seatPart, ih, seatPart_codeItem, ite_self]
    · rfl

@[simp] theorem seatPart_codeRecords (h : Half) (c : Nat) (before : Option Nat) (force : Bool) (n : Nat) :
    ∀ s : State, (codeRecords h c before force n s).seatPart = s.seatPart := by
  induction n with
  | zero => exact fun _ => rfl
  | succ n ih =>
    intro s
    rw [codeRecords]
    split
    · rw [apply_ite State.seatPart, ih, seatPart_codeRecord, ite_self]
    · rfl

@[simp] theorem seatPart_sealChan (h : Half) (c : Nat) (flush : Bool) (before : Option Nat) (force : Bool) (s : State) :
    (sealChan h c flush before force s).seatPart = s.seatPart := by
  simp [sealChan, codeWaiting]

@[simp] theorem seatPart_enterChan (h : Half) (c : Nat) (records : Bool) (set : CodeSet) (chg : Bool) (t : Nat) (s : State) :
    (enterChan h c records set chg t s).seatPart = s.seatPart := by
  unfold enterChan
  dsimp only
  split_ifs <;> simp

@[simp] theorem seatPart_pushRecord (h : Half) (c rtype : Nat) (payload : List Byte) (s : State) :
    (pushRecord h c rtype payload s).seatPart = s.seatPart := by
  unfold pushRecord
  dsimp only
  split <;> simp

@[simp] theorem seatPart_bayRecord (h : Half) (b : Nat) (en : Fld) (rtype : Nat) (payload : List Byte) (s : State) :
    (bayRecord h b en rtype payload s).seatPart = s.seatPart := by
  unfold bayRecord
  split <;> simp

/-! ## Pads and what holds a pulse (R46, R171) -/

@[simp] theorem seatPart_noteBand (h : Half) (t was : Nat) (s : State) : (noteBand h t was s).seatPart = s.seatPart := by
  unfold noteBand
  dsimp only
  split <;> simp

@[simp] theorem seatPart_dropProof (h : Half) (t : Nat) (s : State) : (dropProof h t s).seatPart = s.seatPart := by
  unfold dropProof
  dsimp only
  split
  · rfl
  · split <;> simp

@[simp] theorem seatPart_envelopeAction (h : Half) (t : Nat) (fs : List Fld) (cause : Nat) (s : State) :
    (envelopeAction h t fs cause s).seatPart = s.seatPart := by
  have marks : (fs.foldl (fun s f => s.put (termKey h t) f 1) s).seatPart = s.seatPart :=
    seatPart_foldl (fun s f => seatPart_put s (termKey h t) 1 f) fs s
  unfold envelopeAction
  dsimp only
  split_ifs <;> simp [marks]

@[simp] theorem seatPart_suppress (h : Half) (t : Nat) (s : State) : (suppress h t s).seatPart = s.seatPart := by
  simp [suppress]

@[simp] theorem seatPart_holdPulse (t : Nat) (s : State) : (holdPulse t s).seatPart = s.seatPart := by
  unfold holdPulse State.onSlot
  split
  · refine seatPart_onCopies (fun h s => ?_) s
    rw [seatPart_noteBand]
    dsimp only
    split <;> simp
  · rfl

@[simp] theorem seatPart_syncPad (t : Nat) (s : State) : (syncPad t s).seatPart = s.seatPart := by
  obtain ⟨p, b, h⟩ := syncPad_only t s
  rw [h]
  exact seatPart_holdPulse t s

@[simp] theorem seatPart_syncBayPads (b : Nat) (s : State) : (syncBayPads b s).seatPart = s.seatPart :=
  seatPart_foldl (fun s t => seatPart_syncPad t s) _ s

/-! ## Lines (R69) -/

@[simp] theorem seatPart_syncLinePath (b : Nat) (s : State) : (syncLinePath b s).seatPart = s.seatPart := by
  unfold syncLinePath
  dsimp only
  split <;> rfl

@[simp] theorem seatPart_muteEngine (h : Half) (b : Nat) (s : State) : (muteEngine h b s).seatPart = s.seatPart := by
  unfold muteEngine setOutput
  dsimp only
  split <;> simp

@[simp] theorem seatPart_setLineStat (h : Half) (b : Nat) (f : Fld) (s : State) :
    (setLineStat h b f s).seatPart = s.seatPart := by
  unfold setLineStat
  split <;> simp

@[simp] theorem seatPart_endEntry (h : Half) (b e st : Nat) (s : State) : (endEntry h b e st s).seatPart = s.seatPart := by
  unfold endEntry
  dsimp only
  split_ifs <;> simp

@[simp] theorem seatPart_failAttempt (h : Half) (b st : Nat) (s : State) : (failAttempt h b st s).seatPart = s.seatPart := by
  unfold failAttempt
  dsimp only
  split
  · rfl
  · split_ifs <;> simp

/-! ## What a poll of the pipeline leaves (R262) -/

@[simp] theorem seatPart_queueInput (h : Half) (b : Nat) (i : PInput) (s : State) :
    (queueInput h b i s).seatPart = s.seatPart := by
  unfold queueInput
  dsimp only
  split_ifs <;> simp

@[simp] theorem seatPart_pushInput (h : Half) (b : Nat) (i : PInput) (s : State) :
    (pushInput h b i s).seatPart = s.seatPart := by
  unfold pushInput
  dsimp only
  split <;> simp

@[simp] theorem seatPart_missParts (h : Half) (b : Nat) (p : Poll) (cause : Nat) (s : State) :
    (missParts h b p cause s).seatPart = s.seatPart := by
  unfold missParts freeHeld
  dsimp only
  rw [seatPart_foldl (fun s i => seatPart_pushInput h b i s), seatPart_setPipe,
    seatPart_foldl (fun s _ => seatPart_pushInput h b _ s)]

@[simp] theorem seatPart_endIdent (h : Half) (b st : Nat) (s : State) : (endIdent h b st s).seatPart = s.seatPart := by
  simp [endIdent]

@[simp] theorem seatPart_settleP (h : Half) (b : Nat) (s : State) : (settleP h b s).seatPart = s.seatPart := by
  unfold settleP
  dsimp only
  split
  · rfl
  · split
    · simp
    · split_ifs <;> simp

@[simp] theorem seatPart_abortLine (b : Nat) (s : State) : (abortLine b s).seatPart = s.seatPart := by
  refine seatPart_onCopies (fun h s => ?_) s
  dsimp only
  split <;> simp

/-! ## Orphans (R46) -/

theorem seatPart_setOrphans (s : State) (v : BitVec 64) : State.seatPart { s with orphans := v } = s.seatPart := rfl

/-- A change of the orphaned bays moves no seat, changes no half and switches no terminal's path. -/
@[simp] theorem seatPart_refreshOrphans (s : State) : (refreshOrphans s).seatPart = s.seatPart := by
  unfold refreshOrphans
  dsimp only
  split
  · rfl
  · rw [seatPart_foldl (fun s b => by simp), seatPart_foldl (fun s b => by simp)]
    rw [apply_ite State.seatPart, seatPart_put, ite_self, seatPart_setOrphans]

end Sys2Proof.Machine
end

section
/-! SUPPORT. What a pulse of the event matrix leaves alone: every register from those of the referee on. -/

namespace Sys2Proof.Machine

theorem tbKey_lt {i : Nat} (hi : i < 136) : tbKey i < 0x271100 := by
  unfold tbKey bayKey halfKey oneKey Half.num
  dsimp only
  split_ifs <;> omega

section

variable {k : Nat} (hk : 0x27E000 ≤ k)
include hk

theorem reg_captureRise {i : Nat} (hi : i < 136) (s : State) : (captureRise i 1 s).reg k = s.reg k := by
  have := tbKey_lt hi
  unfold captureRise
  dsimp only
  have rise : k ≠ capKey i 1 + Reg.TB_CAP_RISE := by unfold capKey Reg.TB_CAP_RISE; omega
  show (State.setReg _ _ _).reg k = _
  rw [State.reg_setReg_other _ _ rise]
  split
  · exact s.reg_put_other _ _ _ (by unfold capOvr; simp only [one_ne_zero, if_false]; omega)
  · rfl

theorem reg_captureFall {i : Nat} (hi : i < 136) (s : State) : (captureFall i 1 s).reg k = s.reg k := by
  have := tbKey_lt hi
  unfold captureFall
  have fall : k ≠ capKey i 1 + Reg.TB_CAP_FALL := by unfold capKey Reg.TB_CAP_FALL; omega
  have width : k ≠ capKey i 1 + Reg.TB_CAP_WIDTH := by unfold capKey Reg.TB_CAP_WIDTH; omega
  have mark : k ≠ tbKey i + (capDone 1).addr := by unfold capDone; simp only [one_ne_zero, if_false]; omega
  split
  · show (State.put _ _ _ _).reg k = _
    rw [State.reg_put_other _ _ _ _ mark, State.reg_setReg_other _ _ width, State.reg_setReg_other _ _ fall]
  · rfl

theorem reg_captureEvent {i : Nat} (hi : i < 136) (s : State) : (captureEvent i s).reg k = s.reg k := by
  unfold captureEvent
  split
  · split
    · exact reg_captureFall hk hi s
    · exact reg_captureRise hk hi s
  · rfl

theorem reg_consumerAct (c : Nat) (s : State) : (consumerAct c s).reg k = s.reg k := by
  by_cases bay : c < 64
  · rw [consumerAct]
    dsimp only
    rw [if_pos bay]
    refine onCopies_rel (fun s t => t.reg k = s.reg k) (fun _ => rfl) (fun _ _ _ h1 h2 => h2.trans h1) _ (fun h s => ?_) s
    exact reg_captureEvent hk (by unfold bayIx; cases h <;> simp only [Half.num] <;> omega) s
  by_cases timer : c < 72
  · rw [consumerAct]
    dsimp only
    rw [if_neg bay, if_pos timer]
    exact reg_captureEvent hk (by omega) s
  · unfold consumerAct
    dsimp only
    rw [if_neg bay, if_neg timer]
    split_ifs
    · split <;> rfl
    all_goals rfl

theorem reg_deliver (ps : List Nat) (c : Nat) (s : State) : (deliver ps c s).reg k = s.reg k := by
  unfold deliver
  dsimp only
  split_ifs
  · rfl
  · rw [reg_consumerAct hk]
    rfl
  · rfl

/-- A pulse changes no register of the referee, of the seat requests or beyond: a capture unit stores into its timebase. -/
theorem reg_raiseEvent (p : Nat) (s : State) : (raiseEvent p s).reg k = s.reg k := by
  unfold raiseEvent raiseEvents
  dsimp only
  split
  · rfl
  · exact foldl_rel (fun s t => t.reg k = s.reg k) (fun _ => rfl) (fun _ _ _ h1 h2 => h2.trans h1) _
      (fun s c => reg_deliver hk _ c s) _ s

theorem get_raiseEvent {b : Nat} {f : Fld} (h : b + f.addr = k) (p : Nat) (s : State) :
    (raiseEvent p s).get b f = s.get b f := by
  rw [State.get, h, reg_raiseEvent hk, State.get, h]

end

end Sys2Proof.Machine
end

section
/-! PROOF. Requests of seats, the synchronisation of a bay and the switch of a terminal's path (O8). -/

namespace Sys2Proof.Machine

/-! ## Seats (R46, R49) -/

@[simp] theorem refreshOrphans_seats (s : State) : (refreshOrphans s).seats = s.seats :=
  State.seats_of_seatPart (seatPart_refreshOrphans s)

/-- A move of one seat: that bay's holder is the half named, every other bay's is what it was. -/
theorem holder_setSeat {b c : Nat} (hb : b < 64) (hc : c < 64) (h : Half) (s : State) :
    (setSeat b h s).holder c = if c = b then h else s.holder c := by
  unfold setSeat
  dsimp only
  split
  · next held =>
    split
    · subst_vars; rfl
    · rfl
  · by_cases same : c = b
    · cases h <;> simp [State.holder, Half.ofBit, same, hb]
    · cases h <;> simp [State.holder, same, hc]

@[simp] theorem moveSeats_nil (h : Half) (cause bay : Nat) (s : State) : moveSeats [] h cause bay s = s := rfl

theorem moveSeats_seats (bs : List Nat) (h : Half) (cause bay : Nat) (s : State) :
    (moveSeats bs h cause bay s).seats = (bs.foldl (fun s b => setSeat b h s) s).seats := by
  unfold moveSeats
  dsimp only
  split
  · next none => rw [none]; rfl
  · rw [State.seats_of_seatPart (seatPart_foldl (fun s b => seatPart_syncLinePath b s) bs _)]
    rfl

theorem holder_moveSeat {b c : Nat} (hb : b < 64) (hc : c < 64) (h : Half) (cause bay : Nat) (s : State) :
    (moveSeats [b] h cause bay s).holder c = if c = b then h else s.holder c := by
  rw [State.holder_of_seats (moveSeats_seats [b] h cause bay s)]
  exact holder_setSeat hb hc h s

/-! ## The report of a request (R79) -/

section

variable (k : Fin 8) (bay st : Nat) (moved : Bool) (s : State)

theorem masterHalf_steward : s.masterHalf (.steward k) = stewHalf k.val := rfl

theorem resultKey_steward : resultKey s (.steward k) = resKey (stewHalf k.val) := rfl

@[simp] theorem reportSeat_seats : (reportSeat (.steward k) bay st moved s).seats = s.seats := by
  simp [reportSeat]

@[simp] theorem holder_reportSeat (c : Nat) : (reportSeat (.steward k) bay st moved s).holder c = s.holder c :=
  State.holder_of_seats (reportSeat_seats k bay st moved s) c

theorem reportSeat_status (hst : st < 256) :
    (reportSeat (.steward k) bay st moved s).get (resKey (stewHalf k.val)) Reg.SEAT_RES_STATUS = st := by
  unfold reportSeat
  dsimp only
  rw [resultKey_steward, State.get_put_apart _ _ _ Reg.SEAT_RES_PEND Reg.SEAT_RES_STATUS (by decide) (by decide) rfl
      (.inr (by decide)),
    State.get_put _ _ _ _ (by decide) (by decide)]
  exact Nat.mod_eq_of_lt hst

theorem reportSeat_pend :
    (reportSeat (.steward k) bay st moved s).flag (resKey (stewHalf k.val)) Reg.SEAT_RES_PEND = moved := by
  unfold reportSeat State.flag
  rw [resultKey_steward, State.get_put _ _ _ _ (by decide) (by decide)]
  cases moved <;> rfl

theorem reportSeat_flag (f : Fld) (hf : f.addr = Reg.REF_STAT) :
    (reportSeat (.steward k) bay st moved s).flag oneKey f = s.flag oneKey f := by
  have apart : ∀ g : Fld, g.addr = Reg.SEAT_RES → oneKey + f.addr ≠ resKey (stewHalf k.val) + g.addr := by
    intro g hg
    rw [hf, hg]
    cases stewHalf k.val <;> decide
  unfold reportSeat State.flag
  dsimp only
  rw [resultKey_steward, State.get_put_other _ _ _ _ _ _ (apart _ rfl), State.get_put_other _ _ _ _ _ _ (apart _ rfl),
    State.get_put_other _ _ _ _ _ _ (apart _ rfl)]

end

/-! ## Requests of a steward (R64, R65) -/

section

variable {k : Fin 8} {s : State}

theorem coincides_of_healthy (up : s.healthy (stewHalf k.val) = true) : s.coincides (.steward k) = false := by
  have yielded : (s.half (stewHalf k.val)).yielded = false := by
    simp only [State.healthy, Bool.and_eq_true, Bool.not_eq_true'] at up
    exact up.1.1.1.2
  exact yielded

theorem seatGive_coincides (all : Bool) (b : Nat) (late : s.coincides (.steward k) = true) :
    seatGive (.steward k) all b s = reportSeat (.steward k) (if all then 0 else b) St.OK true s := by
  rw [seatGive]
  dsimp only
  rw [if_neg (by simp [isVc]), if_pos late]

theorem seatClaim_coincides (all : Bool) (b : Nat) (late : s.coincides (.steward k) = true) :
    seatClaim (.steward k) all b s
      = reportSeat (.steward k) (if all then 0 else b) St.PARTNER_NOT_READY false s := by
  rw [seatClaim]
  dsimp only
  rw [if_neg (by simp [isVc]), if_pos late]

variable (free : s.coincides (.steward k) = false) {b : Nat}
include free

theorem seatGive_ready (held : s.holder b = stewHalf k.val) (ready : s.healthy (stewHalf k.val).other = true) :
    seatGive (.steward k) false b s
      = reportSeat (.steward k) b St.OK true (refreshOrphans (moveSeats [b] (stewHalf k.val).other 6 b s)) := by
  simp [seatGive, isVc, free, masterHalf_steward, held, giveSeats, ready]

theorem seatGive_unready (held : s.holder b = stewHalf k.val) (ready : s.healthy (stewHalf k.val).other = false) :
    seatGive (.steward k) false b s = reportSeat (.steward k) b St.PARTNER_NOT_READY false s := by
  simp [seatGive, isVc, free, masterHalf_steward, held, giveSeats, ready, St.OK, St.PARTNER_NOT_READY]

theorem seatGive_not_held (held : s.holder b ≠ stewHalf k.val) :
    seatGive (.steward k) false b s = reportSeat (.steward k) b St.NOT_HOLDER false s := by
  simp [seatGive, isVc, free, masterHalf_steward, held]

theorem seatClaim_held (held : s.holder b = stewHalf k.val) :
    seatClaim (.steward k) false b s = reportSeat (.steward k) b St.OK false (refreshOrphans s) := by
  simp [seatClaim, isVc, free, masterHalf_steward, held]

theorem seatClaim_won (held : s.holder b ≠ stewHalf k.val) (orphan : s.orphaned b = true)
    (up : s.healthy (stewHalf k.val) = true) :
    seatClaim (.steward k) false b s
      = reportSeat (.steward k) b St.OK true (refreshOrphans (moveSeats [b] (stewHalf k.val) 6 b s)) := by
  simp [seatClaim, isVc, free, masterHalf_steward, held, orphan, up]

theorem seatClaim_lost (held : s.holder b ≠ stewHalf k.val)
    (lost : s.orphaned b = false ∨ s.healthy (stewHalf k.val) = false) :
    seatClaim (.steward k) false b s
      = raiseEvent evDualClaim (reportSeat (.steward k) b St.DUAL_CLAIM false
          ((refreshOrphans s).put oneKey Reg.REF_STAT_DUAL_CLAIM 1)) := by
  have none : ([b].filter (fun b => s.orphaned b && s.healthy (stewHalf k.val))) = [] := by
    rcases lost with lost | lost <;> simp [lost]
  simp [seatClaim, isVc, free, masterHalf_steward, held, none]

end

/-! ## Synchronisation of a bay (R67) -/

theorem markSynced_bit (h : Half) {b : Nat} (hb : b < 64) (s : State) :
    ((markSynced h b s).half h).synced.getLsbD b = true := by
  have marked : ((s.half h).synced ||| BitVec.twoPow 64 b).getLsbD b = true := by simp [hb]
  unfold markSynced
  dsimp only
  split
  · rw [State.half_of_seatPart ((seatPart_refreshOrphans _).trans (seatPart_put _ _ _ _)), State.half_setHalf_same]
    exact marked
  · rw [State.half_setHalf_same]
    exact marked

section

variable {h : Half} {b : Fin 64} {agree : Bool} {s : State}

theorem exec_mirrorSyncBay_synced (synced : (s.half h).synced.getLsbD b.val = true) :
    exec (.mirrorSyncBay h b agree) s = .next s := by
  show execMirrorSyncBay h b agree s = _
  rw [execMirrorSyncBay, synced, Bool.not_true, Bool.and_false, if_neg (by decide)]

theorem exec_mirrorSyncBay_alone (runs : s.computes h = true) (stays : (s.half h).yielded = false)
    (undone : (s.half h).synced.getLsbD b.val = false) (alone : s.healthy h.other = false) :
    exec (.mirrorSyncBay h b agree) s = .next (markSynced h b.val s) := by
  show execMirrorSyncBay h b agree s = _
  rw [execMirrorSyncBay, runs, stays, undone, alone]
  rfl

end

/-! ## Terminal paths (R68) -/

theorem exec_terminalPathSwitch_onPhase {n : Fin 1024} {s : State} (phase : s.onPhase n.val = true) :
    exec (.terminalPathSwitch n) s = .next (syncPad n.val (takePath n.val s)) := by
  show execTerminalPathSwitch n s = _
  rw [execTerminalPathSwitch, phase, Bool.true_or, if_pos rfl]

theorem switchPath_seats (n : Nat) (s : State) : (switchPath n s).seats = s.seats := rfl

theorem switchPath_livePath {n : Nat} (hn : n < 1024) (s : State) : (switchPath n s).livePath n = s.holder (n / 16) := by
  unfold switchPath
  cases held : s.holder (n / 16) <;> simp [State.livePath, Half.ofBit, hn]

@[simp] theorem seatPart_loseExchange (n : Nat) (s : State) : (loseExchange n s).seatPart = s.seatPart := by
  refine seatPart_onCopies (fun h s => ?_) s
  dsimp only
  split <;> simp

/-- A path that does not follow its seat is switched at once where no exchange runs on it. -/
theorem takePath_switches {n : Nat} {s : State} (apart : s.livePath n ≠ s.holder (n / 16))
    (idle : ∀ r : TalkReq, (s.slot (s.livePath n) n).talk = some r → r.running = false) :
    ∃ u, takePath n s = switchPath n u ∧ u.seatPart = s.seatPart := by
  refine ⟨if s.computes (s.livePath n) then s else loseExchange n s, ?_, ?_⟩
  · cases talk : (s.slot (s.livePath n) n).talk with
    | none => simp [takePath, apart, talk]
    | some r => simp [takePath, apart, talk, idle r talk]
  · split <;> simp

/-! ## The statement, clause by clause -/

theorem exec_seatGive (m : Master) (all : Bool) (b : Fin 64) (s : State) :
    exec (.seatGive m all b) s = .next (seatGive m all b.val s) := rfl

theorem exec_seatClaim (m : Master) (all : Bool) (b : Fin 64) (s : State) :
    exec (.seatClaim m all b) s = .next (seatClaim m all b.val s) := rfl

/-- The holders after a request whose move was accepted: the bay has the new half, every other bay the one it had. -/
theorem holder_after_move (k : Fin 8) {b c : Nat} (hb : b < 64) (hc : c < 64) (h : Half) (s : State) :
    (reportSeat (.steward k) b St.OK true (refreshOrphans (moveSeats [b] h 6 b s))).holder c
      = if c = b then h else s.holder c := by
  rw [holder_reportSeat, State.holder_of_seats (refreshOrphans_seats _), holder_moveSeat hb hc]

theorem seatClaim_lost_gives {k : Fin 8} {b : Fin 64} {s : State} (free : s.coincides (.steward k) = false)
    (held : s.holder b.val ≠ stewHalf k.val) (lost : s.orphaned b.val = false ∨ s.healthy (stewHalf k.val) = false) :
    Gives (.seatClaim (.steward k) false b) s (fun t =>
      t.seats = s.seats ∧ t.get (resKey (stewHalf k.val)) Reg.SEAT_RES_STATUS = St.DUAL_CLAIM
        ∧ t.flag oneKey Reg.REF_STAT_DUAL_CLAIM = true) := by
  have res : 0x27E000 ≤ resKey (stewHalf k.val) + Reg.SEAT_RES_STATUS.addr := by cases stewHalf k.val <;> decide
  refine .intro (by rw [exec_seatClaim, seatClaim_lost free held lost]) ⟨?_, ?_, ?_⟩
  · rw [State.seats_of_seatPart (seatPart_raiseEvent _ _), reportSeat_seats, State.put_seats, refreshOrphans_seats]
  · rw [get_raiseEvent res rfl, reportSeat_status _ _ _ _ _ (by decide)]
  · rw [State.flag, get_raiseEvent (by decide) rfl, ← State.flag, reportSeat_flag _ _ _ _ _ _ rfl, State.flag, State.get_put]
      <;> decide

/-- Settles O8: what a steward's request comes to is one of six cases (coinciding with a yield; a give that is ready, is not,
or is another half's; a claim of a seat held, won or lost), and the report, the orphans and the events that follow move no
seat. -/
theorem seatRequestsAreAnswered : Obligations.SeatRequestsAreAnswered := by
  refine ⟨fun k b s free held ready => ?_, fun k b s free held unready => ?_, fun k b s free held => ?_,
    fun k all b s late => ?_, fun k b s free held => ?_, fun k b s held orphan up => ?_,
    fun k b s free held lost => seatClaim_lost_gives free held lost, fun k all b s late => ?_,
    fun h b agree s runs stays alone => ?_, fun n s phase apart idle => ?_⟩
  · refine .intro (by rw [exec_seatGive, seatGive_ready free held ready])
      ⟨?_, reportSeat_status _ _ _ _ _ (by decide), reportSeat_pend _ _ _ _ _, fun c hc other => ?_⟩
    · rw [holder_after_move k b.isLt b.isLt, if_pos rfl]
    · rw [holder_after_move k b.isLt hc, if_neg other]
  · exact .intro (by rw [exec_seatGive, seatGive_unready free held unready])
      ⟨reportSeat_seats _ _ _ _ _, reportSeat_status _ _ _ _ _ (by decide), reportSeat_pend _ _ _ _ _⟩
  · exact .intro (by rw [exec_seatGive, seatGive_not_held free held])
      ⟨reportSeat_seats _ _ _ _ _, reportSeat_status _ _ _ _ _ (by decide), reportSeat_pend _ _ _ _ _⟩
  · exact .intro (by rw [exec_seatGive, seatGive_coincides all b.val late])
      ⟨reportSeat_seats _ _ _ _ _, reportSeat_status _ _ _ _ _ (by decide)⟩
  · exact .intro (by rw [exec_seatClaim, seatClaim_held free held])
      ⟨(reportSeat_seats _ _ _ _ _).trans (refreshOrphans_seats s), reportSeat_status _ _ _ _ _ (by decide),
        reportSeat_pend _ _ _ _ _⟩
  · refine .intro (by rw [exec_seatClaim, seatClaim_won (coincides_of_healthy up) held orphan up])
      ⟨?_, reportSeat_status _ _ _ _ _ (by decide), reportSeat_pend _ _ _ _ _⟩
    rw [holder_after_move k b.isLt b.isLt, if_pos rfl]
  · exact .intro (by rw [exec_seatClaim, seatClaim_coincides all b.val late])
      ⟨reportSeat_seats _ _ _ _ _, reportSeat_status _ _ _ _ _ (by decide)⟩
  · cases synced : (s.half h).synced.getLsbD b.val with
    | true => exact .intro (exec_mirrorSyncBay_synced synced) synced
    | false => exact .intro (exec_mirrorSyncBay_alone runs stays synced alone) (markSynced_bit h b.isLt s)
  · obtain ⟨u, switched, same⟩ := takePath_switches apart idle
    refine .intro (by rw [exec_terminalPathSwitch_onPhase phase, switched]) ⟨?_, ?_⟩
    · rw [State.livePath_of_seatPart (seatPart_syncPad _ _), switchPath_livePath n.isLt]
      exact State.holder_of_seats (State.seats_of_seatPart same) _
    · rw [State.seats_of_seatPart (seatPart_syncPad _ _), switchPath_seats, State.seats_of_seatPart same]

end Sys2Proof.Machine
end

section
/-! PROOF. Health (O7): the failure of a half's supply where a packet waits under an activity that no half has. -/

namespace Sys2Proof.Machine

theorem State.flag_of_regs {s t : State} (h : t.regs = s.regs) (b : Nat) (f : Fld) : t.flag b f = s.flag b f := by
  rw [State.flag, State.flag, State.get, State.get, State.reg, State.reg, h]

/-- Where no slot differs from its reset value, none drives its pad: a pad takes its level without a word to any register. -/
theorem syncPad_of_no_slots (t : Nat) {s : State} (h : s.slots = []) :
    (syncPad t s).slots = [] ∧ (syncPad t s).regs = s.regs := by
  have idle : (s.slot (s.livePath t) t).drive = false := by
    rw [State.slot, h]
    rfl
  obtain ⟨p, b, only⟩ := syncPad_only t s
  rw [only, holdPulse_idle (.inl idle)]
  exact ⟨h, rfl⟩

theorem syncPads_regs_of_no_slots (h : Half) (l : List Nat) : ∀ s : State, s.slots = [] →
    (l.foldl (fun s t => if s.livePath t = h then syncPad t s else s) s).regs = s.regs := by
  induction l with
  | nil => exact fun _ _ => rfl
  | cons t l ih =>
    intro s none
    obtain ⟨noneAfter, same⟩ := syncPad_of_no_slots t none
    rw [List.foldl_cons]
    split
    · rw [ih _ noneAfter, same]
    · exact ih s none

/-- An activity number whose stall counter (R106) would lie at the place of REF_STAT. A half has 12 activities, and no command
lets a packet wait under another number; but a state may hold one. -/
def strayActivity : Nat := oneKey + Reg.REF_STAT - (halfKey .A + Reg.BG_STALL)

/-- Half A has its supply, and executes on port 0 a command that came over the fabric. A packet waits for injection under the
stray activity, its acknowledge withheld for 16 grains: the weight of SUPPLY_A in REF_STAT. -/
def strayInjection : State :=
  let s := State.reset.put oneKey Reg.FAB_ADDR_STATE 2
  { s with
    tref := 3200
    halfA := { s.halfA with budget := { s.halfA.budget with waiting := [(4 * strayActivity + 3, 0, 0)] } }
    router := { s.router with inject := [(strayActivity, ⟨6, 64, 3, 77, 5, 9, []⟩)] }
    ports := [(0, { Port.reset with exec := some ⟨0, 0, false, [], some (1, 1)⟩ })] }

theorem strayInjection_may_fail :
    (strayInjection.half .A).yielded = false ∧ (strayInjection.half .A).supplyOk = true
      ∧ strayInjection.power.mode = .run := by
  decide +kernel

/-- The failure sets SUPPLY_A and then ends the command on port 0, whose reply goes out with the packets that wait; counting
the 16 grains of the stray one carries SUPPLY_A into SUPPLY_B. -/
theorem failSupply_strayInjection :
    (failSupply .A strayInjection).flag oneKey (supplyFlag .A) = false := by
  rw [failSupply, if_pos strayInjection_may_fail.2.1, resetHalf]
  dsimp only
  rw [State.flag_of_regs (syncPads_regs_of_no_slots _ _ _ (by decide +kernel))]
  decide +kernel

theorem exec_supplyFail_of_run {h : Half} {s : State} (running : s.power.mode = .run) :
    exec (.supplyFail (.one h)) s = .next (failSupply h s) := by
  show execSupplyFail (.one h) s = _
  rw [execSupplyFail, running]
  rfl

/-- Refutes O7, by its clause on SUPPLY_FAIL of one half: the statement is about every state, and in `strayInjection` the
flag SUPPLY_A is lost again. (Where only activities 0 to 11 wait, the stall counters lie apart from REF_STAT.) -/
theorem not_healthCommandsTakeEffect : ¬ Obligations.HealthCommandsTakeEffect := by
  rintro ⟨-, -, -, -, -, -, -, supplyFails, -⟩
  obtain ⟨stays, supplied, running⟩ := strayInjection_may_fail
  obtain ⟨-, -, flagged, -⟩ :=
    (supplyFails .A strayInjection stays supplied running).of_next (exec_supplyFail_of_run running)
  exact Bool.false_ne_true (failSupply_strayInjection.symm.trans flagged)

end Sys2Proof.Machine
end

section
/-! PROOF. The budget (O9): a watch boundary where a grant is staged for a place that no half has. -/

namespace Sys2Proof.Machine

/-- What follows in a watch boundary once both halves have closed their books (R91, R52, R59, R66, R502). -/
def settleWatch (bays : List Nat) (s : State) : State :=
  let s1 := refreshOrphans (yieldMissed (compareMirrors bays (raiseEvent evWatch s)))
  drainInject (confirmBoot .B (confirmBoot .A (takeOrphans .B (takeOrphans .A s1))))

theorem exec_watchBoundary {bays : List (Fin 64)} {s : State} (distinct : bays.Nodup) (runs : s.trefRuns = true) :
    exec (.watchBoundary bays) s
      = .next (settleWatch (bays.map (fun b => b.val)) (halfBoundary .B (halfBoundary .A s))) := by
  show execWatchBoundary bays s = _
  rw [execWatchBoundary, if_pos distinct, if_pos runs]
  rfl

/-- A place whose grant register (R104) would be HLT_WATCH. A half has 48 places, and a write of BG_GRANT stages none beyond
the 64 addresses from BG_GRANT on; but a state may hold one. -/
def strayPlace : Nat := Reg.HLT_WATCH - Reg.BG_GRANT

/-- Half A computes alone, in its first watch, and has asked for a commit of a grant staged for the stray place. -/
def strayGrant : State :=
  let s := State.reset.put (halfKey .A) Reg.BG_STAT_PENDING 1
  { s with
    trefRuns := true
    halfA := { s.halfA with inReset := false, budget := { s.halfA.budget with staged := [(strayPlace, 5)] } } }

theorem strayGrant_may_close :
    strayGrant.trefRuns = true ∧ strayGrant.computes .A = true ∧ strayGrant.get (halfKey .A) Reg.HLT_WATCH_SEQ = 0 := by
  decide +kernel

/-- The grants in force and the stray one fit, so that the commit stores its 5 grains in HLT_WATCH; the watch number then
advances from there. -/
theorem settleWatch_strayGrant :
    (settleWatch [] (halfBoundary .B (halfBoundary .A strayGrant))).get (halfKey .A) Reg.HLT_WATCH_SEQ = 6 := by
  decide +kernel

/-- Refutes O9, by its clause on WATCH_BOUNDARY: the statement is about every state, and in `strayGrant` the boundary's commit
overwrites the watch number 0, which becomes 6 and not 1. (Where only the 48 places of R84 and R85 are staged, the grants lie
apart from HLT_WATCH.) -/
theorem not_budgetCommandsTakeEffect : ¬ Obligations.BudgetCommandsTakeEffect := by
  rintro ⟨-, -, -, -, -, -, -, boundary⟩
  obtain ⟨runs, computes, first⟩ := strayGrant_may_close
  obtain ⟨advanced, -⟩ :=
    (boundary [] .A strayGrant List.nodup_nil runs computes).of_next (exec_watchBoundary List.nodup_nil runs)
  rw [first] at advanced
  exact absurd (settleWatch_strayGrant.symm.trans advanced) (by decide)

end Sys2Proof.Machine
end

section
/-! SUPPORT. The registers of the halves' own system spaces: no pulse of the event matrix and no act of the PMBus sequencer
changes one of them. What else the sequencer leaves alone. -/

namespace Sys2Proof.Machine

theorem State.get_of_regs {s t : State} (h : t.regs = s.regs) (b : Nat) (f : Fld) : t.get b f = s.get b f := by
  rw [State.get, State.get, State.reg, State.reg, h]

/-- No register of an address below 0x1_0000 changes: those are the halves' own, and no bay's, timer's or bus's (R32). -/
def SystemRegsKept (s t : State) : Prop := ∀ k : Nat, k % 0x100000 < 0x10000 → t.reg k = s.reg k

theorem SystemRegsKept.refl (s : State) : SystemRegsKept s s := fun _ _ => rfl

theorem SystemRegsKept.trans (s t u : State) (h1 : SystemRegsKept s t) (h2 : SystemRegsKept t u) : SystemRegsKept s u :=
  fun k hk => (h2 k hk).trans (h1 k hk)

theorem SystemRegsKept.get {s t : State} (kept : SystemRegsKept s t) (b : Nat) (f : Fld)
    (hk : (b + f.addr) % 0x100000 < 0x10000) : t.get b f = s.get b f := by
  rw [State.get, kept _ hk, State.get]

theorem SystemRegsKept.of_regs {s t u : State} (h : u.regs = t.regs) (kept : SystemRegsKept s t) : SystemRegsKept s u :=
  fun k hk => by rw [State.reg, h, ← State.reg, kept k hk]

theorem setReg_systemRegs {k : Nat} (hk : 0x10000 ≤ k % 0x100000) (s : State) (w : Word) :
    SystemRegsKept s (s.setReg k w) :=
  fun _ hj => s.reg_setReg_other w (by rintro rfl; omega)

theorem put_systemRegs {b : Nat} {f : Fld} (hk : 0x10000 ≤ (b + f.addr) % 0x100000) (s : State) (v : Nat) :
    SystemRegsKept s (s.put b f v) :=
  setReg_systemRegs hk s _

/-! ## Pulses (R544) -/

section

variable {i : Nat} (hi : i < 136) (s : State)
include hi

theorem tbKey_beyond_system {o : Nat} (ho : o < 0x20) : 0x10000 ≤ (tbKey i + o) % 0x100000 := by
  unfold tbKey bayKey halfKey oneKey Half.num
  dsimp only
  split_ifs <;> omega

theorem setTimebaseReg_systemRegs {o : Nat} (ho : o < 0x20) (w : Word) : SystemRegsKept s (s.setReg (tbKey i + o) w) :=
  setReg_systemRegs (tbKey_beyond_system hi ho) s w

theorem captureRise_systemRegs : SystemRegsKept s (captureRise i 1 s) := by
  have overrun : SystemRegsKept s (if s.flag (tbKey i) (capDone 1) then s.put (tbKey i) (capOvr 1) 1 else s) := by
    split
    · exact setTimebaseReg_systemRegs hi s (o := (capOvr 1).addr) (by decide) _
    · exact .refl s
  exact .trans _ _ _ overrun (setTimebaseReg_systemRegs hi _ (o := 4 + Reg.TB_CAP_RISE) (by decide) _)

theorem captureFall_systemRegs : SystemRegsKept s (captureFall i 1 s) := by
  rw [captureFall]
  split
  · exact .trans _ _ _ (setTimebaseReg_systemRegs hi s (o := 4 + Reg.TB_CAP_FALL) (by decide) _)
      (.trans _ _ _ (setTimebaseReg_systemRegs hi _ (o := 4 + Reg.TB_CAP_WIDTH) (by decide) _)
        (setTimebaseReg_systemRegs hi _ (o := (capDone 1).addr) (by decide) _))
  · exact .refl s

theorem captureEvent_systemRegs : SystemRegsKept s (captureEvent i s) := by
  rw [captureEvent]
  split_ifs
  · exact captureFall_systemRegs hi s
  · exact captureRise_systemRegs hi s
  · exact .refl s

end

theorem consumerAct_systemRegs (c : Nat) (s : State) : SystemRegsKept s (consumerAct c s) := by
  unfold consumerAct
  dsimp only
  split_ifs
  · refine onCopies_rel SystemRegsKept .refl .trans _ (fun h s => captureEvent_systemRegs ?_ s) s
    unfold bayIx Half.num
    cases h <;> dsimp only <;> omega
  · exact captureEvent_systemRegs (by omega) s
  · split <;> exact .refl s
  all_goals exact .refl s

theorem deliver_systemRegs (ps : List Nat) (c : Nat) (s : State) : SystemRegsKept s (deliver ps c s) := by
  unfold deliver
  dsimp only
  split_ifs
  · exact .refl s
  · exact consumerAct_systemRegs c (dropEvents c _ s)
  · exact .refl s

theorem raiseEvent_systemRegs (p : Nat) (s : State) : SystemRegsKept s (raiseEvent p s) := by
  unfold raiseEvent raiseEvents
  dsimp only
  split
  · exact .refl s
  · exact foldl_rel SystemRegsKept .refl .trans _ (fun s c => deliver_systemRegs _ c s) _ s

/-! ## The PMBus sequencer (R629) -/

/-- Reading the modes stores the exponents and BADMODE. -/
theorem readModes_regs (s : State) : ∃ a b m, (readModes s).regs =
    (((s.put oneKey Reg.TW7_PMB_EXP_N_A a).put oneKey Reg.TW7_PMB_EXP_N_B b).put oneKey Reg.TW7_PMB_BADMODE m).regs := by
  unfold readModes
  dsimp only
  exact ⟨_, _, _, rfl⟩

theorem knowModes_systemRegs (s : State) : SystemRegsKept s (knowModes s) := by
  rw [knowModes]
  split
  · exact .refl s
  · obtain ⟨a, b, m, stored⟩ := readModes_regs s
    exact .of_regs stored (.trans _ _ _ (put_systemRegs (by decide) s a)
      (.trans _ _ _ (put_systemRegs (by decide) _ b) (put_systemRegs (by decide) _ m)))

theorem sendVout_systemRegs (mv : Nat) (acked : Bool) (s : State) : SystemRegsKept s (sendVout mv acked s) :=
  .of_regs rfl (knowModes_systemRegs s)

/-- Reading the modes leaves the sequencer enabled as it was. -/
theorem knowModes_enabled (s : State) : (knowModes s).flag oneKey Reg.TW7_PMB_EN = s.flag oneKey Reg.TW7_PMB_EN := by
  rw [knowModes]
  split
  · rfl
  · obtain ⟨a, b, m, stored⟩ := readModes_regs s
    rw [State.flag_of_regs stored, State.flag,
      State.get_put_apart _ _ _ Reg.TW7_PMB_BADMODE Reg.TW7_PMB_EN (by decide) (by decide) rfl (.inl (by decide)),
      State.get_put_other _ _ _ _ _ _ (by decide), State.get_put_other _ _ _ _ _ _ (by decide), State.flag]

@[simp] theorem knowModes_owners (s : State) : (knowModes s).owners = s.owners := by
  unfold knowModes readModes
  split <;> simp

@[simp] theorem knowModes_profile (s : State) : (knowModes s).profile = s.profile := by
  unfold knowModes readModes
  split <;> simp

@[simp] theorem knowModes_profileTarget (s : State) : (knowModes s).profileTarget = s.profileTarget := by
  unfold knowModes readModes
  split <;> simp

@[simp] theorem sendVout_profile (mv : Nat) (acked : Bool) (s : State) : (sendVout mv acked s).profile = s.profile :=
  knowModes_profile s

@[simp] theorem sendVout_profileTarget (mv : Nat) (acked : Bool) (s : State) :
    (sendVout mv acked s).profileTarget = s.profileTarget :=
  knowModes_profileTarget s

end Sys2Proof.Machine
end

section
/-! PROOF. Changes of the profile, and the writes of BG_CTL and of a general pin's GP_CFG (O10). -/

namespace Sys2Proof.Machine

/-! ## PRF_STAT (R109) -/

theorem prfStat_system (h : Half) {f : Fld} (hf : f.addr = Reg.PRF_STAT) :
    (halfKey h + f.addr) % 0x100000 < 0x10000 := by
  rw [hf]
  cases h <;> decide

/-- A field of PRF_STAT shows in both halves what it was set to. -/
theorem get_setPrf (h : Half) {f : Fld} (hf : f.addr = Reg.PRF_STAT) (h20 : f.hi < 20) (hlo : f.lo ≤ f.hi) (v : Nat)
    (s : State) : (setPrf f v s).get (halfKey h) f = v % 2 ^ (f.hi + 1 - f.lo) := by
  cases h with
  | A => rw [setPrf, State.get_put_other _ _ _ _ _ _ (by rw [hf]; decide), State.get_put _ _ _ _ h20 hlo]
  | B => rw [setPrf, State.get_put _ _ _ _ h20 hlo]

/-! ## The end of a request (R96, R526) -/

section

variable (s : State) (h : Half) (src : Nat)

@[simp] theorem pulseIrq_regs : (s.pulseIrq h src).regs = s.regs := by
  unfold State.pulseIrq
  dsimp only
  split <;> simp

@[simp] theorem pulseIrq_profile : (s.pulseIrq h src).profile = s.profile := by
  unfold State.pulseIrq
  dsimp only
  split <;> simp

@[simp] theorem pulseIrq_profileTarget : (s.pulseIrq h src).profileTarget = s.profileTarget := by
  unfold State.pulseIrq
  dsimp only
  split <;> simp

end

@[simp] theorem endProfile_profile (st : Nat) (s : State) : (endProfile st s).profile = s.profile :=
  pulseIrq_profile _ _ _

@[simp] theorem endProfile_profileTarget (st : Nat) (s : State) : (endProfile st s).profileTarget = none :=
  pulseIrq_profileTarget _ _ _

/-- A request ends with its status in both halves. -/
theorem endProfile_status (h : Half) {st : Nat} (hst : st < 256) (s : State) :
    (endProfile st s).get (halfKey h) Reg.PRF_STAT_STATUS = st := by
  have shown : (endProfile st s).regs = (setPrf Reg.PRF_STAT_STATUS st (setPrf Reg.PRF_STAT_BUSY 0 s)).regs :=
    pulseIrq_regs _ _ _
  rw [State.get_of_regs shown, get_setPrf h rfl (by decide) (by decide)]
  exact Nat.mod_eq_of_lt hst

/-! ## The clauses on a change of the profile (R96) -/

/-- A change to a profile is in progress, and shows so in both halves (R96, R109). -/
def beginProfile (p : Nat) (s : State) : State :=
  { setPrf Reg.PRF_STAT_BUSY 1 (setPrf Reg.PRF_STAT_TARGET p s) with profileTarget := some (profileOf p) }

theorem beginProfile_busy (h : Half) (p : Nat) (s : State) :
    (beginProfile p s).flag (halfKey h) Reg.PRF_STAT_BUSY = true := by
  have shown : (beginProfile p s).regs = (setPrf Reg.PRF_STAT_BUSY 1 (setPrf Reg.PRF_STAT_TARGET p s)).regs := rfl
  rw [State.flag_of_regs shown, State.flag, get_setPrf h rfl (by decide) (by decide)]
  rfl

/-- A request for another profile, with none in progress and the sequencer ready, starts a change. -/
theorem requestProfile_starts {p : Nat} {acked : Bool} {s : State} (hp : p < 3) (other : profileOf p ≠ s.profile)
    (idle : s.flag (halfKey (s.runner (blkTw 7))) Reg.PRF_STAT_BUSY = false)
    (enabled : s.flag oneKey Reg.TW7_PMB_EN = true)
    (linear : (knowModes s).flag oneKey Reg.TW7_PMB_BADMODE = false) :
    requestProfile p acked s = sendVout (profileMv (profileOf p)) acked (beginProfile p (knowModes s)) := by
  have runner : (knowModes s).runner (blkTw 7) = s.runner (blkTw 7) := by
    rw [State.runner, knowModes_owners, ← State.runner]
  have stillIdle : (knowModes s).flag (halfKey (s.runner (blkTw 7))) Reg.PRF_STAT_BUSY = false := by
    rw [State.flag, (knowModes_systemRegs s).get _ _ (prfStat_system _ rfl), ← State.flag, idle]
  have notReserved : p ≠ 3 := by omega
  simp [requestProfile, beginProfile, enabled, runner, stillIdle, notReserved, other, linear, knowModes_enabled]

theorem profileRequest_gives {m : Master} {p : BitVec 2} {acked : Bool} {s : State}
    (may : s.blockWriteOk m (blkTw 7) = true) (hp : p.toNat < 3) (other : profileOf p.toNat ≠ s.profile)
    (idle : s.flag (halfKey (s.runner (blkTw 7))) Reg.PRF_STAT_BUSY = false)
    (enabled : s.flag oneKey Reg.TW7_PMB_EN = true)
    (linear : (knowModes s).flag oneKey Reg.TW7_PMB_BADMODE = false) :
    Gives (.profileRequest m p acked) s (fun t =>
      t.profileTarget = some (profileOf p.toNat) ∧ t.profile = s.profile
        ∧ ∀ h : Half, t.flag (halfKey h) Reg.PRF_STAT_BUSY = true) := by
  have started : exec (.profileRequest m p acked) s = .next (requestProfile p.toNat acked s) := by
    show execProfileRequest m p acked s = _
    rw [execProfileRequest, writePrfReq, if_pos may]
  rw [requestProfile_starts hp other idle enabled linear] at started
  refine .intro started ⟨sendVout_profileTarget _ _ _, ?_, fun h => ?_⟩
  · rw [sendVout_profile]
    exact knowModes_profile s
  · rw [State.flag, (sendVout_systemRegs _ _ _).get _ _ (prfStat_system h rfl), ← State.flag]
    exact beginProfile_busy h _ _

/-- The profile's defaults are due in both halves at the next boundary. -/
def dueDefaults (s : State) : State :=
  { s with halfA := { s.halfA with defaultsDue := true }, halfB := { s.halfB with defaultsDue := true } }

theorem regulatorPoll_confirms {p : Profile} {a b : BitVec 16} {acked : Bool} {s : State}
    (asked : s.profileTarget = some p) (near : s.voutsNear (some a) (some b) (profileMv p) = true) :
    Gives (.regulatorPoll (some a) (some b) acked) s (fun t =>
      t.profile = p ∧ t.profileTarget = none ∧ (∀ h : Half, (t.half h).defaultsDue = true)
        ∧ ∀ h : Half, t.get (halfKey h) Reg.PRF_STAT_STATUS = St.OK) := by
  obtain ⟨u, confirmed⟩ : ∃ u : State, exec (.regulatorPoll (some a) (some b) acked) s
      = .next (raiseEvent evProfile (dueDefaults (endProfile St.OK { u with profile := p }))) := by
    refine ⟨if s.pmbus.acked then s else sendVout (profileMv p) acked s, ?_⟩
    show execRegulatorPoll (some a) (some b) acked s = _
    rw [execRegulatorPoll, asked]
    dsimp only
    rw [if_pos near]
    rfl
  have pulse := seatPart_raiseEvent evProfile (dueDefaults (endProfile St.OK { u with profile := p }))
  obtain ⟨_, _, _, _, raised⟩ := raiseEvent_only evProfile (dueDefaults (endProfile St.OK { u with profile := p }))
  refine .intro confirmed ⟨?_, ?_, fun h => ?_, fun h => ?_⟩
  · rw [raised]
    exact endProfile_profile _ _
  · rw [raised]
    exact endProfile_profileTarget _ _
  · rw [State.half_of_seatPart pulse]
    cases h <;> rfl
  · rw [(raiseEvent_systemRegs _ _).get _ _ (prfStat_system h rfl)]
    exact endProfile_status h (by decide) _

theorem profileTimeout_gives {s : State} (asked : s.profileTarget.isSome = true) :
    Gives .profileTimeout s (fun t =>
      t.profile = s.profile ∧ t.profileTarget = none
        ∧ ∀ h : Half, t.get (halfKey h) Reg.PRF_STAT_STATUS = St.PROFILE_TIMEOUT) := by
  have ended : exec .profileTimeout s
      = .next (sendVout (profileMv s.profile) true (endProfile St.PROFILE_TIMEOUT s)) := by
    show execProfileTimeout s = _
    rw [execProfileTimeout, if_pos asked]
  refine .intro ended ⟨by simp, by simp, fun h => ?_⟩
  rw [(sendVout_systemRegs _ _ _).get _ _ (prfStat_system h rfl), endProfile_status h (by decide)]

/-! ## Plain writes (R6, R7) -/

/-- A plain write, bit by bit: the bits a write stores are the written word's, the bits a write of 1 clears are clear where
that word is set, every other bit stays. -/
theorem getLsbD_plainWrite {key : Nat} {r : RegRow} (row : regRow? (key % 0x100000) = some r) (w : Word) {i : Nat}
    (hi : i < 20) (s : State) :
    ((s.plainWrite key w).reg key).getLsbD i
      = if r.rw.testBit i then w.getLsbD i else (s.reg key).getLsbD i && !(w.getLsbD i && r.w1c.testBit i) := by
  have full : Nat.testBit 0xFFFFF i = true := by
    rw [show 0xFFFFF = 2 ^ 20 - 1 from rfl, Nat.testBit_two_pow_sub_one]
    exact decide_eq_true hi
  unfold State.plainWrite
  rw [row]
  simp only [State.reg_setReg, BitVec.getLsbD_ofNat, Nat.testBit_or, Nat.testBit_and, Nat.testBit_xor, full,
    BitVec.testBit_toNat, decide_eq_true hi]
  cases r.rw.testBit i <;> cases w.getLsbD i <;> simp

theorem plainWrite_keeps (key : Nat) (w : Word) (s : State) : RegsKeptBut (fun k => k == key) s (s.plainWrite key w) := by
  intro k hk
  unfold State.plainWrite
  split
  · exact s.reg_setReg_other _ (by simpa using hk)
  · rfl

theorem bits_congr {u v : Word} {hi lo : Nat} (same : ∀ i, lo ≤ i → i ≤ hi → u.getLsbD i = v.getLsbD i) :
    bits u hi lo = bits v hi lo := by
  refine Nat.eq_of_testBit_eq (fun i => ?_)
  rw [testBit_bits, testBit_bits]
  by_cases hi' : i < hi + 1 - lo
  · rw [BitVec.testBit_toNat, BitVec.testBit_toNat, same _ (by omega) (by omega)]
  · rw [decide_eq_false hi', Bool.false_and, Bool.false_and]

/-- A field of 20 bits is its whole register. -/
theorem get_whole (s : State) (b a : Nat) : s.get b ⟨a, 19, 0⟩ = (s.reg (b + a)).toNat :=
  Nat.mod_eq_of_lt (s.reg (b + a)).isLt

/-! ## The clauses on register writes (R26, R43, R99) -/

theorem ioWrite_steward (k : Fin 8) {a : Nat} (ha : a < 0x80000) (w : Word) (s : State) :
    ioWrite (.steward k) a w s = writeIn (.steward k) (some (stewHalf k.val)) a w s := by
  simp [ioWrite, isHost, isVc, masterHalf_steward, Nat.not_le.mpr ha]

/-- A write among the shared blocks is a write of the block that the address lies in. -/
theorem writeIn_block {a blk : Nat} (lo : 0x30000 ≤ a) (hi : a < 0x7E000) (block : addrBlk a = some blk) (m : Master)
    (v : Option Half) (w : Word) (s : State) :
    writeIn m v a w s = s.blockWrite m blk a (writeBlock m v a w) := by
  unfold writeIn
  rw [if_neg (by omega), if_neg (by omega), if_neg (by omega), if_neg (by omega), if_neg (by omega), if_neg (by omega),
    block]

/-- A steward's write of BG_CTL is a plain write in its half. -/
theorem ioWrite_bgCtl (k : Fin 8) (w : Word) (s : State) :
    ioWrite (.steward k) Reg.BG_CTL w s = s.plainWrite (halfKey (stewHalf k.val) + Reg.BG_CTL) w := by
  rw [ioWrite_steward k (by decide)]
  simp [writeIn, writeHalf, Reg.BG_CTL, Reg.BF_OP]

theorem bgCtl_row (h : Half) :
    regRow? ((halfKey h + Reg.BG_CTL) % 0x100000) = some ⟨0x600, 1, 1, 1, 0x100000, 0x31, 0x0, 0x21⟩ := by
  cases h <;> decide

/-- A write of BG_CTL stores FOLLOW, bit 0, and LATE, bits 4 and 5 (R99), and keeps every other bit. -/
theorem getLsbD_bgCtl_write (h : Half) (w : Word) {i : Nat} (hi : i < 20) (s : State) :
    ((s.plainWrite (halfKey h + Reg.BG_CTL) w).reg (halfKey h + Reg.BG_CTL)).getLsbD i
      = if i = 0 ∨ i = 4 ∨ i = 5 then w.getLsbD i else (s.reg (halfKey h + Reg.BG_CTL)).getLsbD i := by
  have stored : ∀ j < 20, Nat.testBit 0x31 j = decide (j = 0 ∨ j = 4 ∨ j = 5) := by decide
  rw [getLsbD_plainWrite (bgCtl_row h) w hi s]
  simp [stored i hi]

theorem exec_registerWrite (m : Master) {a : Nat} (ha : a < 0x100000) (w : Word) (s : State) :
    exec (.registerWrite m a w) s = .next (ioWrite m a w s) := by
  show execRegisterWrite m a w s = _
  rw [execRegisterWrite, if_pos (decide_eq_true ha)]

theorem gpCfg_block (p : Fin 32) : addrBlk (Reg.GP_CFG + p.val) = some (blkGp p.val) := by
  decide +revert

theorem ioWrite_gpCfg_refused {k : Fin 8} {p : Fin 32} (w : Word) {s : State}
    (other : s.runner (blkGp p.val) ≠ stewHalf k.val) :
    ioWrite (.steward k) (Reg.GP_CFG + p.val) w s = s.refuseWrite (stewHalf k.val) (Reg.GP_CFG + p.val) := by
  have lo : 0x30000 ≤ Reg.GP_CFG + p.val := by unfold Reg.GP_CFG; omega
  have hi : Reg.GP_CFG + p.val < 0x7E000 := by unfold Reg.GP_CFG; omega
  rw [ioWrite_steward k (by omega), writeIn_block lo hi (gpCfg_block p), State.blockWrite, if_neg, masterHalf_steward]
  simp [State.blockWriteOk, isHost, masterHalf_steward, other.symm]

/-- A refused write of a GP_CFG shows in the half's own counter and address, and the register keeps what it held. -/
theorem refuseWrite_gpCfg (h : Half) (p : Fin 32) (s : State) :
    (s.refuseWrite h (Reg.GP_CFG + p.val)).get (halfKey h) Reg.DEV_REFUSED_COUNT
        = min 0xFFFFF (s.get (halfKey h) Reg.DEV_REFUSED_COUNT + 1)
      ∧ (s.refuseWrite h (Reg.GP_CFG + p.val)).get (halfKey h) Reg.DEV_REFUSED_LAST_ADDR = Reg.GP_CFG + p.val
      ∧ (s.refuseWrite h (Reg.GP_CFG + p.val)).reg (oneKey + Reg.GP_CFG + p.val)
        = s.reg (oneKey + Reg.GP_CFG + p.val) := by
  have inHalf : halfKey h ≤ 0x100000 := by cases h <;> decide
  refine ⟨?_, ?_, s.reg_refuseWrite_other _ _ ?_ ?_⟩
  · rw [get_whole, get_whole, State.refuseWrite, State.reg_setReg_other _ _ (by simp [Reg.DEV_REFUSED_LAST]),
      State.reg_count]
  · rw [get_whole, State.reg_refuseWrite_last, BitVec.toNat_ofNat]
    exact Nat.mod_eq_of_lt (by unfold Reg.GP_CFG; omega)
  · unfold oneKey Reg.GP_CFG Reg.DEV_REFUSED; omega
  · unfold oneKey Reg.GP_CFG Reg.DEV_REFUSED_LAST; omega

/-- What BG_CTL holds after a write of it: LATE and FOLLOW as written, its other bits as they were. -/
theorem plainWrite_bgCtl (h : Half) (w : Word) (s : State) :
    (s.plainWrite (halfKey h + Reg.BG_CTL) w).get (halfKey h) Reg.BG_CTL_LATE = bits w 5 4
      ∧ (s.plainWrite (halfKey h + Reg.BG_CTL) w).get (halfKey h) Reg.BG_CTL_FOLLOW = bits w 0 0
      ∧ (∀ i : Nat, i < 20 → i ≠ 0 → i ≠ 4 → i ≠ 5 →
          ((s.plainWrite (halfKey h + Reg.BG_CTL) w).reg (halfKey h + Reg.BG_CTL)).getLsbD i
            = (s.reg (halfKey h + Reg.BG_CTL)).getLsbD i) := by
  refine ⟨bits_congr (hi := 5) (lo := 4) fun i lo hi => ?_, bits_congr (hi := 0) (lo := 0) fun i lo hi => ?_,
    fun i hi i0 i4 i5 => ?_⟩
  · exact (getLsbD_bgCtl_write h w (by omega) s).trans (if_pos (by omega))
  · exact (getLsbD_bgCtl_write h w (by omega) s).trans (if_pos (by omega))
  · exact (getLsbD_bgCtl_write h w hi s).trans (if_neg (by omega))

/-- Settles O10: a change of the profile begins and ends in PRF_STAT of both halves, which neither the sequencer nor the pulse
that follows changes; a steward's write of BG_CTL is a plain write of its half's register, and one of a GP_CFG that its half
does not run is refused. -/
theorem profileChangesAndRegisterWrites : Obligations.ProfileChangesAndRegisterWrites := by
  refine ⟨fun m p acked s may hp other idle enabled linear => ?_, fun p a b acked s asked near => ?_,
    fun s asked => ?_, fun k w s => ?_, fun k p w s other => ?_⟩
  · exact (profileRequest_gives may hp other idle enabled linear).mono
      fun t ⟨target, kept, busy⟩ => ⟨target, kept, busy .A, busy .B⟩
  · exact (regulatorPoll_confirms asked near).mono
      fun t ⟨inForce, ended, due, ok⟩ => ⟨inForce, ended, due .A, due .B, ok .A, ok .B⟩
  · exact (profileTimeout_gives asked).mono fun t ⟨kept, ended, shown⟩ => ⟨kept, ended, shown .A, shown .B⟩
  · have written := exec_registerWrite (.steward k) (a := Reg.BG_CTL) (by decide) w s
    rw [ioWrite_bgCtl] at written
    obtain ⟨late, follow, others⟩ := plainWrite_bgCtl (stewHalf k.val) w s
    exact .intro written ⟨late, follow, others, plainWrite_keeps _ w s⟩
  · have written := exec_registerWrite (.steward k) (a := Reg.GP_CFG + p.val) (by unfold Reg.GP_CFG; omega) w s
    rw [ioWrite_gpCfg_refused w other] at written
    exact .intro written (refuseWrite_gpCfg _ p s)

end Sys2Proof.Machine
end

section
/-! SUPPORT. Timebases: each has its own registers and its own entry among the timebases, and a meaning that acts on the
copies of a timebase acts on each of them as if it were alone (R23, R111 to R124). -/

namespace Sys2Proof.Machine

theorem reg_setTimebase (s : State) (i k : Nat) (x : Timebase) : (s.setTimebase i x).reg k = s.reg k := rfl

theorem flag_setTimebase (s : State) (i b : Nat) (f : Fld) (x : Timebase) : (s.setTimebase i x).flag b f = s.flag b f := rfl

theorem tbCount_setTimebase (s : State) (i j : Nat) (x : Timebase) : (s.setTimebase i x).tbCount j = s.tbCount j := rfl

theorem tbModulus_setTimebase (s : State) (i j : Nat) (x : Timebase) :
    (s.setTimebase i x).tbModulus j = s.tbModulus j := rfl

/-! ## Flags -/

section

variable (s : State) (b : Nat) {f g : Fld}

theorem flag_put_one (h20 : f.hi < 20) (single : f.hi = f.lo) : (s.put b f 1).flag b f = true := by
  rw [State.flag, State.get_put _ _ _ _ h20 single.ge, single, Nat.add_sub_cancel_left]
  rfl

theorem flag_put_zero (h20 : f.hi < 20) (hlo : f.lo ≤ f.hi) : (s.put b f 0).flag b f = false := by
  rw [State.flag, State.get_put _ _ _ _ h20 hlo, Nat.zero_mod]
  rfl

theorem flag_put_apart (f g : Fld) (v : Nat) (h20 : f.hi < 20) (hlo : f.lo ≤ f.hi) (same : g.addr = f.addr)
    (apart : f.hi < g.lo ∨ g.hi < f.lo) : (s.put b f v).flag b g = s.flag b g := by
  rw [State.flag, s.get_put_apart _ _ _ _ h20 hlo same apart, State.flag]

theorem flag_setReg_other {o : Nat} (other : f.addr ≠ o) (w : Word) : (s.setReg (b + o) w).flag b f = s.flag b f := by
  rw [State.flag, State.get, s.reg_setReg_other w fun same => other (Nat.add_left_cancel same), State.flag, State.get]

end

/-! ## The registers of a timebase -/

/-- A bay's page holds the registers of its timebase (R32); a general timer has 32 addresses. -/
def tbBlock (i : Nat) : Set Nat := Set.Ico (tbKey i) (tbKey i + if i < 128 then 0x400 else 0x20)

theorem mem_tbBlock (i : Nat) {o : Nat} (ho : o < 0x20) : tbKey i + o ∈ tbBlock i := by
  unfold tbBlock
  rw [Set.mem_Ico]
  split <;> omega

theorem phase_mem_tbBlock {i k : Nat} (bay : i < 128) (hk : k < 16) : tbKey i + Reg.TB_PHASE + k ∈ tbBlock i := by
  unfold tbBlock Reg.TB_PHASE
  rw [Set.mem_Ico, if_pos bay]
  omega

theorem tbBlock_disjoint {i j k : Nat} (apart : i ≠ j) (hk : k ∈ tbBlock i) : k ∉ tbBlock j := by
  unfold tbBlock tbKey bayKey halfKey oneKey Half.num at *
  rw [Set.mem_Ico] at *
  dsimp only at *
  split_ifs at * <;> omega

theorem tbKey_add_inj {i j o p : Nat} (ho : o < 0x20) (hp : p < 0x20) (same : tbKey i + o = tbKey j + p) :
    i = j ∧ o = p := by
  have own : i = j := by
    by_contra apart
    exact tbBlock_disjoint apart (mem_tbBlock i ho) (same ▸ mem_tbBlock j hp)
  subst own
  exact ⟨rfl, by omega⟩

theorem modulus_le (per : Word) : modulus per ≤ 2 ^ 20 := by
  unfold modulus
  split
  · exact le_rfl
  · exact per.isLt.le

/-! ## What acts on some timebases alone -/

/-- Only timebases of P differ: their registers and their entries. -/
structure TimebasesOnly (P : Set Nat) (s t : State) : Prop where
  fields : ∃ r b, t = { s with regs := r, timebases := b }
  regs : ∀ k, (∀ i ∈ P, k ∉ tbBlock i) → t.reg k = s.reg k
  timebase : ∀ j, j ∉ P → t.timebase j = s.timebase j

namespace TimebasesOnly

variable {P Q : Set Nat} {i : Nat}

theorem refl (s : State) : TimebasesOnly P s s := ⟨⟨s.regs, s.timebases, rfl⟩, fun _ _ => rfl, fun _ _ => rfl⟩

theorem trans (s t u : State) (h1 : TimebasesOnly P s t) (h2 : TimebasesOnly P t u) : TimebasesOnly P s u := by
  refine ⟨?_, fun k hk => (h2.regs k hk).trans (h1.regs k hk), fun j hj => (h2.timebase j hj).trans (h1.timebase j hj)⟩
  obtain ⟨_, _, rfl⟩ := h1.fields
  obtain ⟨r, b, rfl⟩ := h2.fields
  exact ⟨r, b, rfl⟩

theorem mono {s t : State} (h : TimebasesOnly P s t) (sub : P ⊆ Q) : TimebasesOnly Q s t :=
  ⟨h.fields, fun k hk => h.regs k fun i hi => hk i (sub hi), fun j hj => h.timebase j fun m => hj (sub m)⟩

theorem setReg {k : Nat} (hk : k ∈ tbBlock i) (s : State) (w : Word) : TimebasesOnly {i} s (s.setReg k w) :=
  ⟨⟨_, s.timebases, rfl⟩, fun _ hj => s.reg_setReg_other w (by rintro rfl; exact hj i rfl hk), fun _ _ => rfl⟩

theorem put {f : Fld} (hf : f.addr < 0x20) (s : State) (v : Nat) : TimebasesOnly {i} s (s.put (tbKey i) f v) :=
  setReg (mem_tbBlock i hf) s _

theorem setTimebase (s : State) (x : Timebase) : TimebasesOnly {i} s (s.setTimebase i x) :=
  ⟨⟨s.regs, _, rfl⟩, fun _ _ => rfl, fun _ hj => s.timebase_setTimebase_other x hj⟩

theorem computes {s t : State} (h : TimebasesOnly P s t) (x : Half) : t.computes x = s.computes x := by
  obtain ⟨_, _, rfl⟩ := h.fields
  rfl

theorem fields_eq {s t : State} (h : TimebasesOnly P s t) : t = { s with regs := t.regs, timebases := t.timebases } := by
  obtain ⟨_, _, rfl⟩ := h.fields
  rfl

end TimebasesOnly

/-- Timebase i is the same: its registers and its entry. -/
structure TimebaseKept (i : Nat) (s t : State) : Prop where
  regs : ∀ k ∈ tbBlock i, t.reg k = s.reg k
  timebase : t.timebase i = s.timebase i

namespace TimebaseKept

variable {i : Nat} {s t : State}

theorem refl (s : State) : TimebaseKept i s s := ⟨fun _ _ => rfl, rfl⟩

theorem reg (h : TimebaseKept i s t) {o : Nat} (ho : o < 0x20) : t.reg (tbKey i + o) = s.reg (tbKey i + o) :=
  h.regs _ (mem_tbBlock i ho)

theorem get (h : TimebaseKept i s t) {f : Fld} (hf : f.addr < 0x20) : t.get (tbKey i) f = s.get (tbKey i) f := by
  rw [State.get, h.reg hf, State.get]

theorem flag (h : TimebaseKept i s t) {f : Fld} (hf : f.addr < 0x20) : t.flag (tbKey i) f = s.flag (tbKey i) f := by
  rw [State.flag, h.get hf, State.flag]

theorem tbCount (h : TimebaseKept i s t) : t.tbCount i = s.tbCount i := by
  rw [State.tbCount, h.reg (by decide), State.tbCount]

theorem tbModulus (h : TimebaseKept i s t) : t.tbModulus i = s.tbModulus i := by
  rw [State.tbModulus, h.reg (by decide), State.tbModulus]

theorem tbEn (h : TimebaseKept i s t) : t.tbEn i = s.tbEn i := h.flag (by decide)

theorem tbN (h : TimebaseKept i s t) : t.tbN i = s.tbN i := by rw [State.tbN, h.get (by decide), State.tbN]

end TimebaseKept

theorem TimebasesOnly.kept {P : Set Nat} {i : Nat} {s t : State} (h : TimebasesOnly P s t) (hi : i ∉ P) :
    TimebaseKept i s t :=
  ⟨fun k hk => h.regs k fun j hj => tbBlock_disjoint (by rintro rfl; exact hi hj) hk, h.timebase i hi⟩

/-! ## The copies of a timebase (R23) -/

theorem tbCopies_bay (n : Fin 64) (s : State) : s.tbCopies (.bay n) =
    (if s.computes .A then [n.val] else []) ++ (if s.computes .B then [64 + n.val] else []) := rfl

theorem mem_tbCopies_bay {n : Fin 64} {i : Nat} {s : State} (hi : i ∈ s.tbCopies (.bay n)) :
    i = n.val ∨ i = 64 + n.val := by
  rw [tbCopies_bay] at hi
  rcases List.mem_append.mp hi with hi | hi <;> split at hi
  · exact .inl (List.mem_singleton.mp hi)
  · exact absurd hi List.not_mem_nil
  · exact .inr (List.mem_singleton.mp hi)
  · exact absurd hi List.not_mem_nil

theorem lt_of_mem_tbCopies {u : TbUnit} {i : Nat} {s : State} (hi : i ∈ s.tbCopies u) : i < 136 := by
  cases u with
  | bay n =>
    have := mem_tbCopies_bay hi
    omega
  | gt g =>
    have := List.mem_singleton.mp hi
    omega

/-- What one copy of a timebase meets where a meaning acts on every copy: before its turn and after it, only the action on
the other copy of the bay. -/
theorem onTimebase_at {R : State → State → Prop} (refl : ∀ s, R s s) {u : TbUnit} {i : Nat} {s : State}
    {f : Nat → State → State} (hi : i ∈ s.tbCopies u) (hf : ∀ j ∈ s.tbCopies u, j ≠ i → ∀ v, R v (f j v)) :
    ∃ v, R s v ∧ R (f i v) (s.onTimebase u f) := by
  have alone (copies : s.tbCopies u = [i]) : ∃ v, R s v ∧ R (f i v) (s.onTimebase u f) := by
    rw [State.onTimebase, copies]
    exact ⟨s, refl s, refl _⟩
  cases u with
  | gt g =>
    obtain rfl := List.mem_singleton.mp hi
    exact alone rfl
  | bay n =>
    cases runsA : s.computes .A <;> cases runsB : s.computes .B
    case true.true =>
      have copies : s.tbCopies (.bay n) = [n.val, 64 + n.val] := by rw [tbCopies_bay, runsA, runsB]; rfl
      rw [copies] at hi hf
      rw [State.onTimebase, copies]
      have other {j : Nat} : j ∈ [n.val, 64 + n.val] ↔ j = n.val ∨ j = 64 + n.val := by simp
      rcases other.mp hi with rfl | rfl
      · exact ⟨s, refl s, hf _ (other.mpr (.inr rfl)) (by omega) _⟩
      · exact ⟨_, hf _ (other.mpr (.inl rfl)) (by omega) s, refl _⟩
    all_goals
      rw [tbCopies_bay, runsA, runsB] at hi
      simp only [if_true, if_false, Bool.false_eq_true, List.append_nil, List.nil_append, List.mem_singleton,
        List.not_mem_nil] at hi
    all_goals exact alone (by rw [tbCopies_bay, runsA, runsB, hi]; rfl)

/-- A write of a timebase that is accepted acts on every copy that counts (R24, R26). -/
theorem onTbWrite_accepted {m : Master} {u : TbUnit} {off : Nat} {f : Nat → State → State} {s : State}
    (ok : s.tbWriteOk m u = true) (kept : ∀ i v, (f i v).computes .B = v.computes .B) :
    onTbWrite m u off f s = s.onTimebase u f := by
  cases u with
  | gt g =>
    rw [onTbWrite, State.blockWrite, if_pos (show s.blockWriteOk m (blkGt g.val) = true from ok)]
    rfl
  | bay n =>
    rw [onTbWrite, State.bayWrite, if_pos (show s.bayWriteOk m n.val = true from ok), State.onCopies, State.onTimebase,
      tbCopies_bay]
    have a : bayIx .A n.val = n.val := by simp [bayIx, Half.num]
    have b : bayIx .B n.val = 64 + n.val := by simp [bayIx, Half.num]
    cases runsA : s.computes .A <;> cases runsB : s.computes .B <;> simp [kept, runsB, a, b]

/-- A meaning that acts on every copy of a timebase, each by itself, as one copy meets it. -/
theorem onTimebase_kept {u : TbUnit} {i : Nat} {s : State} {f : Nat → State → State} (hi : i ∈ s.tbCopies u)
    (hf : ∀ j v, TimebasesOnly {j} v (f j v)) :
    ∃ v, TimebaseKept i s v ∧ TimebaseKept i (f i v) (s.onTimebase u f) :=
  onTimebase_at .refl hi fun j _ other v => (hf j v).kept (Ne.symm other)

/-- All that an accepted write of a timebase changes is timebases. -/
theorem onTimebase_only {u : TbUnit} {s : State} {f : Nat → State → State} (hf : ∀ j v, TimebasesOnly {j} v (f j v)) :
    TimebasesOnly Set.univ s (s.onTimebase u f) :=
  foldl_rel (TimebasesOnly Set.univ) .refl .trans _ (fun s j => (hf j s).mono (Set.subset_univ _)) _ s

/-! ## Captures of a unit (R122) -/

section

variable {c : Nat} (hc : c < 2) (i : Nat) (s : State)
include hc

theorem capKey_mem_tbBlock {o : Nat} (ho : o < 0x1C) : capKey i c + o ∈ tbBlock i := by
  rw [capKey, Nat.add_assoc]
  exact mem_tbBlock i (by omega)

theorem captureRise_timebases : TimebasesOnly {i} s (captureRise i c s) := by
  unfold captureRise
  dsimp only
  refine .trans _ _ _ (.trans _ _ _ ?_ (.setReg (capKey_mem_tbBlock hc i (by decide)) _ _)) (.setTimebase _ _)
  split
  · exact .put (by unfold capOvr; split <;> decide) s 1
  · exact .refl s

theorem captureFall_timebases : TimebasesOnly {i} s (captureFall i c s) := by
  unfold captureFall
  split
  · refine .trans _ _ _ (.trans _ _ _ (.trans _ _ _ (.setReg (capKey_mem_tbBlock hc i (by decide)) _ _)
      (.setReg (capKey_mem_tbBlock hc i (by decide)) _ _)) (.put ?_ _ 1)) (.setTimebase _ _)
    unfold capDone
    split <;> decide
  · exact .refl s

theorem capturePin_timebases (rise : Bool) : TimebasesOnly {i} s (capturePin i c rise s) := by
  unfold capturePin
  split_ifs
  · exact captureFall_timebases hc i s
  · exact captureRise_timebases hc i s
  · exact .refl s

end

@[simp] theorem Timebase.risen_setRisen (t : Timebase) (c : Nat) (v : Bool) : (t.setRisen c v).risen c = v := by
  unfold Timebase.risen Timebase.setRisen
  split <;> rfl

/-- An opening edge latches the count. -/
theorem captureRise_rise (i c : Nat) (s : State) :
    (captureRise i c s).reg (capKey i c + Reg.TB_CAP_RISE) = s.reg (tbKey i + Reg.TB_COUNT) :=
  State.reg_setReg _ _ _

theorem captureRise_risen (i c : Nat) (s : State) : ((captureRise i c s).timebase i).risen c = true := by
  unfold captureRise
  dsimp only
  rw [State.timebase_setTimebase, Timebase.risen_setRisen]

/-- A closing edge after an opening one: the pulse's width, the unit's DONE, and no RISE held any more. -/
theorem captureFall_gives {i c : Nat} {s : State} (hc : c < 2) (risen : (s.timebase i).risen c = true) :
    (captureFall i c s).reg (capKey i c + Reg.TB_CAP_WIDTH) = BitVec.ofNat 20 ((s.tbCount i
        + (s.tbModulus i - (s.reg (capKey i c + Reg.TB_CAP_RISE)).toNat % s.tbModulus i)) % s.tbModulus i)
      ∧ (captureFall i c s).flag (tbKey i) (capDone c) = true
      ∧ ((captureFall i c s).timebase i).risen c = false := by
  have apart : capKey i c + Reg.TB_CAP_WIDTH ≠ tbKey i + (capDone c).addr := by
    unfold capKey capDone Reg.TB_CAP_WIDTH
    split <;> (dsimp only; omega)
  unfold captureFall
  rw [if_pos risen]
  dsimp only
  refine ⟨?_, ?_, ?_⟩
  · rw [reg_setTimebase, State.reg_put_other _ _ _ _ apart, State.reg_setReg]
  · rw [flag_setTimebase]
    exact flag_put_one _ _ (by unfold capDone; split <;> decide) (by unfold capDone; split <;> rfl)
  · rw [State.timebase_setTimebase, Timebase.risen_setRisen]

end Sys2Proof.Machine
end

section
/-! SUPPORT. What a pulse of the event matrix changes of registers and timebases: what unit 1 of a timebase captures
(R122, R544). What counting and comparing go by stays. -/

namespace Sys2Proof.Machine

/-- Among registers and timebases only captures of events show: the marks and the three registers of a unit 1, and whether
it holds a RISE. -/
structure EventCaptures (s t : State) : Prop where
  regs : ∀ k, (∀ i < 136, ∀ o ∈ [Reg.TB_STAT, 0x15, 0x16, 0x17], k ≠ tbKey i + o) → t.reg k = s.reg k
  stat : ∀ (i : Nat) (f : Fld), f.addr = Reg.TB_STAT → f.hi < 4 ∨ 6 < f.lo → t.get (tbKey i) f = s.get (tbKey i) f
  timebase : ∀ i, ∃ r, t.timebase i = { s.timebase i with rise1 := r }

namespace EventCaptures

theorem of_same {s t : State} (regs : t.regs = s.regs) (timebases : t.timebases = s.timebases) : EventCaptures s t :=
  ⟨fun _ _ => by rw [State.reg, regs, ← State.reg], fun _ _ _ _ => State.get_of_regs regs _ _,
    fun i => ⟨(s.timebase i).rise1, by rw [State.timebase, timebases, ← State.timebase]⟩⟩

theorem refl (s : State) : EventCaptures s s := of_same rfl rfl

theorem trans (s t u : State) (h1 : EventCaptures s t) (h2 : EventCaptures t u) : EventCaptures s u := by
  refine ⟨fun k hk => (h2.regs k hk).trans (h1.regs k hk), fun i f hf ha => (h2.stat i f hf ha).trans (h1.stat i f hf ha),
    fun i => ?_⟩
  obtain ⟨_, e1⟩ := h1.timebase i
  obtain ⟨r, e2⟩ := h2.timebase i
  exact ⟨r, by rw [e2, e1]⟩

section

variable {i : Nat} (hi : i < 136) (s : State)
include hi

theorem setReg {o : Nat} (ho : o ∈ [0x15, 0x16, 0x17]) (w : Word) : EventCaptures s (s.setReg (tbKey i + o) w) := by
  refine ⟨fun k hk => s.reg_setReg_other w (hk i hi o (List.mem_cons_of_mem _ ho)), fun j f hf _ => ?_,
    (of_same (s := s) rfl rfl).timebase⟩
  have small : o < 0x20 ∧ o ≠ Reg.TB_STAT := by
    revert o
    decide
  have apart : tbKey j + f.addr ≠ tbKey i + o := fun same =>
    small.2 ((tbKey_add_inj (by rw [hf]; decide) small.1 same).2.symm.trans hf)
  rw [State.get, State.reg_setReg_other _ _ apart, State.get]

theorem put {g : Fld} (hg : g.addr = Reg.TB_STAT) (lo : 4 ≤ g.lo) (mid : g.lo ≤ g.hi) (top : g.hi ≤ 6) (v : Nat) :
    EventCaptures s (s.put (tbKey i) g v) := by
  refine ⟨fun k hk => s.reg_put_other _ _ _ ?_, fun j f hf ha => ?_, (of_same (s := s) rfl rfl).timebase⟩
  · rw [hg]
    exact hk i hi _ List.mem_cons_self
  by_cases own : j = i
  · subst own
    exact s.get_put_apart _ _ _ _ (by omega) mid (hf.trans hg.symm) (by omega)
  · refine s.get_put_other _ _ _ _ _ fun same => own (tbKey_add_inj ?_ ?_ same).1
    · rw [hf]; decide
    · rw [hg]; decide

omit hi in
theorem setRisen (v : Bool) : EventCaptures s (s.setTimebase i ((s.timebase i).setRisen 1 v)) := by
  refine ⟨fun _ _ => rfl, fun _ _ _ _ => rfl, fun j => ?_⟩
  by_cases own : j = i
  · subst own
    exact ⟨v, State.timebase_setTimebase _ _ _⟩
  · exact ⟨(s.timebase j).rise1, State.timebase_setTimebase_other _ _ own⟩

end

end EventCaptures

section

variable {i : Nat} (hi : i < 136) (s : State)
include hi

theorem captureRise_captures : EventCaptures s (captureRise i 1 s) := by
  have latched {u : State} (same : u.timebase i = s.timebase i) :
      EventCaptures u (u.setTimebase i ((s.timebase i).setRisen 1 true)) := same ▸ .setRisen u true
  refine .trans _ _ _ (.trans _ _ _ ?_ (.setReg hi _ (o := 0x15) (by decide) _)) (latched ?_)
  · split
    · exact .put hi s rfl (by decide) (by decide) (by decide) 1
    · exact .refl s
  · split <;> rfl

theorem captureFall_captures : EventCaptures s (captureFall i 1 s) := by
  unfold captureFall
  split
  · exact .trans _ _ _ (.setReg hi s (o := 0x16) (by decide) _) (.trans _ _ _ (.setReg hi _ (o := 0x17) (by decide) _)
      (.trans _ _ _ (.put hi _ rfl (by decide) (by decide) (by decide) 1) (.setRisen _ false)))
  · exact .refl s

theorem captureEvent_captures : EventCaptures s (captureEvent i s) := by
  unfold captureEvent
  split_ifs
  · exact captureFall_captures hi s
  · exact captureRise_captures hi s
  · exact .refl s

end

theorem consumerAct_captures (c : Nat) (s : State) : EventCaptures s (consumerAct c s) := by
  unfold consumerAct
  dsimp only
  split_ifs
  · refine onCopies_rel EventCaptures .refl .trans _ (fun h s => captureEvent_captures ?_ s) s
    unfold bayIx Half.num
    cases h <;> dsimp only <;> omega
  · exact captureEvent_captures (by omega) s
  · split <;> exact .of_same rfl rfl
  all_goals exact .of_same rfl rfl

theorem deliver_captures (ps : List Nat) (c : Nat) (s : State) : EventCaptures s (deliver ps c s) := by
  unfold deliver
  dsimp only
  split_ifs
  · exact .of_same rfl rfl
  · exact .trans _ (dropEvents c _ s) _ (.of_same rfl rfl) (consumerAct_captures c _)
  · exact .refl s

theorem raiseEvents_captures (ps : List Nat) (s : State) : EventCaptures s (raiseEvents ps s) := by
  unfold raiseEvents
  dsimp only
  split
  · exact .refl s
  · exact foldl_rel EventCaptures .refl .trans _ (fun s c => deliver_captures _ c s) _ s

theorem raiseBayEvent_captures (h : Half) (b : Nat) (e : BayEvent) (s : State) :
    EventCaptures s (raiseBayEvent h b e s) := by
  unfold raiseBayEvent
  split
  · exact raiseEvents_captures _ s
  · exact .refl s

theorem raiseBayEvent_only (h : Half) (b : Nat) (e : BayEvent) (s : State) : EventOnly s (raiseBayEvent h b e s) := by
  unfold raiseBayEvent
  split
  · exact raiseEvents_only _ s
  · exact .refl s

/-- The compare pulse of a timebase is a pulse of the event matrix. -/
theorem tbEvent_pulse (i : Nat) (s : State) : EventOnly s (tbEvent i s) ∧ EventCaptures s (tbEvent i s) := by
  unfold tbEvent
  split_ifs
  · exact ⟨raiseBayEvent_only _ _ _ s, raiseBayEvent_captures _ _ _ s⟩
  · exact ⟨raiseBayEvent_only _ _ _ s, raiseBayEvent_captures _ _ _ s⟩
  · exact ⟨raiseEvents_only _ s, raiseEvents_captures _ s⟩

/-! ## Counting and comparing -/

/-- Whether a timebase counts goes by its control register, the clocks and the power state, and for a general timer by FREEZE,
which the model reads GT_CTL beyond the timer's base, and by the stewards of the half that runs it. -/
theorem tbRuns_congr {i : Nat} {s t : State} (ctl : t.reg (tbKey i) = s.reg (tbKey i))
    (freeze : 128 ≤ i → t.reg (tbKey i + Reg.GT_CTL) = s.reg (tbKey i + Reg.GT_CTL)) (mode : t.power.mode = s.power.mode)
    (clock : t.trefRuns = s.trefRuns) (stewards : t.stewards = s.stewards) (owners : t.owners = s.owners) :
    t.tbRuns i = s.tbRuns i := by
  have field (f : Fld) (hf : f.addr = 0) : t.get (tbKey i) f = s.get (tbKey i) f := by
    rw [State.get, hf, Nat.add_zero, ctl, State.get, hf, Nat.add_zero]
  have frozen : t.tbFrozen i = s.tbFrozen i := by
    unfold State.tbFrozen
    split
    · rfl
    · have stops : t.flag (tbKey i) Reg.GT_CTL_FREEZE = s.flag (tbKey i) Reg.GT_CTL_FREEZE := by
        rw [State.flag, State.get, freeze (by omega), State.flag, State.get]
      have steward (k : Nat) : t.steward k = s.steward k := by rw [State.steward, stewards, State.steward]
      have runner (blk : Nat) : t.runner blk = s.runner blk := by rw [State.runner, owners, State.runner]
      simp only [stops, steward, runner]
  unfold State.tbRuns State.tbEn State.tbSrc State.flag
  rw [frozen, mode, clock, field _ rfl, field _ rfl]

/-- What timebase i counts and compares by is the same: all but its capture units. -/
structure CountKept (i : Nat) (s t : State) : Prop where
  regs : ∀ o < 7, t.reg (tbKey i + o) = s.reg (tbKey i + o)
  stat : ∀ f : Fld, f.addr = Reg.TB_STAT → f.hi < 4 ∨ 6 < f.lo → t.get (tbKey i) f = s.get (tbKey i) f
  timebase : ∃ r, t.timebase i = { s.timebase i with rise1 := r }
  runs : t.tbRuns i = s.tbRuns i

namespace CountKept

variable {i : Nat}

theorem refl (s : State) : CountKept i s s := ⟨fun _ _ => rfl, fun _ _ _ => rfl, ⟨_, rfl⟩, rfl⟩

theorem trans (s t u : State) (h1 : CountKept i s t) (h2 : CountKept i t u) : CountKept i s u := by
  refine ⟨fun o ho => (h2.regs o ho).trans (h1.regs o ho), fun f hf ha => (h2.stat f hf ha).trans (h1.stat f hf ha), ?_,
    h2.runs.trans h1.runs⟩
  obtain ⟨_, e1⟩ := h1.timebase
  obtain ⟨r, e2⟩ := h2.timebase
  exact ⟨r, by rw [e2, e1]⟩

theorem of_only {P : Set Nat} {s t : State} (h : TimebasesOnly P s t) (bound : ∀ j ∈ P, j < 136) (hi : i ∉ P) :
    CountKept i s t := by
  have kept := h.kept hi
  refine ⟨fun o ho => kept.reg (by omega), fun f hf _ => kept.get (by rw [hf]; decide),
    ⟨_, kept.timebase⟩, tbRuns_congr (kept.reg (o := 0) (by decide)) (fun timer => ?_) ?_ ?_ ?_ ?_⟩
  · refine h.regs _ fun j hj => ?_
    have := bound j hj
    unfold tbBlock tbKey bayKey halfKey oneKey Half.num Reg.GT_CTL
    rw [Set.mem_Ico]
    dsimp only
    split_ifs <;> omega
  all_goals
    obtain ⟨_, _, rfl⟩ := h.fields
    rfl

theorem of_event {s t : State} (hi : i < 136) (only : EventOnly s t) (captures : EventCaptures s t) : CountKept i s t := by
  have reg (o : Nat) (ho : ∀ p ∈ [Reg.TB_STAT, 0x15, 0x16, 0x17], o ≠ p) (small : o < 0x20) :
      t.reg (tbKey i + o) = s.reg (tbKey i + o) := by
    refine captures.regs _ fun j _ p hp same => ho p hp (tbKey_add_inj small ?_ same).2
    clear same
    revert p
    decide
  refine ⟨fun o ho => reg o ?_ (by omega), captures.stat i, captures.timebase i,
    tbRuns_congr (reg 0 (by decide) (by decide)) (fun timer => captures.regs _ fun j hj o ho => ?_) ?_ ?_ ?_ ?_⟩
  · simp [Reg.TB_STAT]
    omega
  · have low := tbKey_lt hj
    have high : oneKey + 0x71000 ≤ tbKey i := by
      unfold tbKey
      rw [if_neg (by omega), if_neg (by omega)]
      omega
    have small : o < 0x20 := by
      revert o
      decide
    unfold oneKey at high
    dsimp only [Reg.GT_CTL]
    omega
  all_goals
    obtain ⟨_, _, _, _, rfl⟩ := only
    rfl

variable {s t : State} (h : CountKept i s t)
include h

theorem tbCount : t.tbCount i = s.tbCount i := by
  rw [State.tbCount, h.regs _ (by decide), State.tbCount]

theorem tbModulus : t.tbModulus i = s.tbModulus i := by
  rw [State.tbModulus, h.regs _ (by decide), State.tbModulus]

theorem get {f : Fld} (hf : f.addr < 7) : t.get (tbKey i) f = s.get (tbKey i) f := by
  rw [State.get, h.regs _ hf, State.get]

theorem tbSrc : t.tbSrc i = s.tbSrc i := h.get (by decide)

theorem flag {f : Fld} (hf : f.addr < 7) : t.flag (tbKey i) f = s.flag (tbKey i) f := by
  rw [State.flag, h.get hf, State.flag]

theorem mark {f : Fld} (hf : f.addr = Reg.TB_STAT) (apart : f.hi < 4 ∨ 6 < f.lo) :
    t.flag (tbKey i) f = s.flag (tbKey i) f := by
  rw [State.flag, h.stat f hf apart, State.flag]

theorem tbMatches : t.tbMatches i = s.tbMatches i := by
  unfold State.tbMatches
  rw [h.tbModulus, h.tbCount, h.regs _ (by decide), h.mark rfl (.inr (by decide))]

theorem ticked : (t.timebase i).ticked = (s.timebase i).ticked := by
  obtain ⟨_, same⟩ := h.timebase
  rw [same]

theorem left : (t.timebase i).left = (s.timebase i).left := by
  obtain ⟨_, same⟩ := h.timebase
  rw [same]

end CountKept

/-! ## The compare (R119, R120) -/

/-- The compare has matched, and its pulse is to come: CMP is set, and the compare waits for its next value or is
disarmed. -/
def afterMatch (i : Nat) (s : State) : State :=
  let s1 := (s.put (tbKey i) Reg.TB_STAT_CMP 1).setTimebase i { s.timebase i with ticked := false }
  if s.flag (tbKey i) Reg.TB_CTL_CMP_AUTO then
    let next := s1.setReg (tbKey i + Reg.TB_CMP) (BitVec.ofNat 20 (((s.reg (tbKey i + Reg.TB_CMP)).toNat
      + (s.reg (tbKey i + Reg.TB_CMP_STEP)).toNat) % s.tbModulus i))
    if (s.reg (tbKey i + Reg.TB_CMP_STEP)).toNat = 0 then next.put (tbKey i) Reg.TB_STAT_ARMED 0 else next
  else s1.put (tbKey i) Reg.TB_STAT_ARMED 0

theorem compareTick_eq (i : Nat) (s : State) :
    compareTick i s = if s.tbRuns i && s.tbMatches i then tbEvent i (afterMatch i s) else s := rfl

theorem afterMatch_timebases (i : Nat) (s : State) : TimebasesOnly {i} s (afterMatch i s) := by
  unfold afterMatch
  dsimp only
  have matched : TimebasesOnly {i} s ((s.put (tbKey i) Reg.TB_STAT_CMP 1).setTimebase i
      { s.timebase i with ticked := false }) :=
    .trans _ _ _ (.put (by decide) s 1) (.setTimebase _ _)
  split_ifs
  · exact .trans _ _ _ matched (.trans _ _ _ (.setReg (mem_tbBlock i (by decide)) _ _) (.put (by decide) _ 0))
  · exact .trans _ _ _ matched (.setReg (mem_tbBlock i (by decide)) _ _)
  · exact .trans _ _ _ matched (.put (by decide) _ 0)

/-- Without CMP_AUTO the compare is disarmed and keeps its value. -/
theorem afterMatch_once {i : Nat} {s : State} (once : s.flag (tbKey i) Reg.TB_CTL_CMP_AUTO = false) :
    (afterMatch i s).flag (tbKey i) Reg.TB_STAT_CMP = true
      ∧ (afterMatch i s).flag (tbKey i) Reg.TB_STAT_ARMED = false
      ∧ (afterMatch i s).reg (tbKey i + Reg.TB_CMP) = s.reg (tbKey i + Reg.TB_CMP) := by
  unfold afterMatch
  dsimp only
  rw [if_neg (by rw [once]; decide)]
  refine ⟨?_, ?_, ?_⟩
  · rw [flag_put_apart _ _ Reg.TB_STAT_ARMED Reg.TB_STAT_CMP 0 (by decide) (by decide) rfl (.inr (by decide)),
      flag_setTimebase]
    exact flag_put_one _ _ (by decide) rfl
  · exact flag_put_zero _ _ (by decide) (by decide)
  · rw [State.reg_put_other _ _ _ _ (by simp), reg_setTimebase, State.reg_put_other _ _ _ _ (by simp)]

/-- The compare of one timebase leaves what every other one counts and compares by. -/
theorem compareTick_countKept {i j : Nat} (hi : i < 136) (hj : j < 136) (apart : j ≠ i) (s : State) :
    CountKept j s (compareTick i s) := by
  rw [compareTick_eq]
  split
  · obtain ⟨only, captures⟩ := tbEvent_pulse i (afterMatch i s)
    refine .trans _ _ _ (.of_only (afterMatch_timebases i s) ?_ apart) (.of_event hj only captures)
    rintro _ rfl
    exact hi
  · exact .refl s

theorem tbEvent_countKept {i j : Nat} (hj : j < 136) (s : State) : CountKept j s (tbEvent i s) :=
  .of_event hj (tbEvent_pulse i s).1 (tbEvent_pulse i s).2

end Sys2Proof.Machine
end

section
/-! SUPPORT. Staging, ticks and wraps of a timebase (R111 to R113, R117): whose registers and entries they change, and what
a wrap leaves in the timebase that wraps. -/

namespace Sys2Proof.Machine

section

variable (i : Nat) (s : State)

/-! ## Staged values (R113, R124) -/

theorem applyPhases_timebases {i : Nat} (bay : i < 128) (m : Nat) (newPer : Bool) (s : State) :
    ∀ n ≤ 16, TimebasesOnly {i} s (applyPhases i m newPer s n)
  | 0, _ => .refl s
  | k + 1, hk => by
    have before := applyPhases_timebases bay m newPer s k (by omega)
    have offset (u : State) (w : Word) : TimebasesOnly {i} u (u.setReg (tbKey i + Reg.TB_PHASE + k) w) :=
      .setReg (phase_mem_tbBlock bay (by omega)) u w
    unfold applyPhases
    dsimp only
    split_ifs
    · exact .trans _ _ _ before (offset _ _)
    · exact before
    · exact .trans _ _ _ before (.trans _ _ _ (offset _ _) (.put (by decide) _ 1))
    · exact .trans _ _ _ before (offset _ _)

/-- The staged prescaler takes effect. -/
def takeStagedPre (i : Nat) (s : State) : State :=
  match (s.timebase i).stagedPre with | some w => s.setReg (tbKey i + Reg.TB_PRE) w | none => s

/-- The staged period takes effect with the prescaler. -/
def takeStagedPer (i : Nat) (s : State) : State :=
  let u := takeStagedPre i s
  match (s.timebase i).stagedPer with | some w => u.setReg (tbKey i + Reg.TB_PER) w | none => u

/-- The offsets of a bay's slots once the staged values take effect. -/
def takeStagedPhases (i : Nat) (s : State) : State :=
  let u := takeStagedPer i s
  if i < 128 then applyPhases i (u.tbModulus i) (s.timebase i).stagedPer.isSome u 16 else u

theorem applyStaged_eq : applyStaged i s =
    (((takeStagedPhases i s).setReg (tbKey i + Reg.TB_COUNT)
        (BitVec.ofNat 20 (s.tbCount i % (takeStagedPer i s).tbModulus i))).put (tbKey i) Reg.TB_STAT_PEND 0).setTimebase i
      { s.timebase i with
        stagedPre := none, stagedPer := none, stagedPhase := [], restagger := false
        acc := if (s.timebase i).stagedPre.isSome || (s.timebase i).stagedPer.isSome || !(s.timebase i).stagedPhase.isEmpty
          then 0 else (s.timebase i).acc } := rfl

theorem takeStagedPre_timebases : TimebasesOnly {i} s (takeStagedPre i s) := by
  unfold takeStagedPre
  split
  · exact .setReg (mem_tbBlock i (by decide)) s _
  · exact .refl s

theorem takeStagedPer_timebases : TimebasesOnly {i} s (takeStagedPer i s) := by
  unfold takeStagedPer
  split
  · exact .trans _ _ _ (takeStagedPre_timebases i s) (.setReg (mem_tbBlock i (by decide)) _ _)
  · exact takeStagedPre_timebases i s

theorem takeStagedPhases_timebases : TimebasesOnly {i} s (takeStagedPhases i s) := by
  unfold takeStagedPhases
  dsimp only
  split
  · exact .trans _ _ _ (takeStagedPer_timebases i s) (applyPhases_timebases ‹_› _ _ _ 16 le_rfl)
  · exact takeStagedPer_timebases i s

theorem applyStaged_timebases : TimebasesOnly {i} s (applyStaged i s) := by
  rw [applyStaged_eq]
  exact .trans _ _ _ (takeStagedPhases_timebases i s) (.trans _ _ _ (.setReg (mem_tbBlock i (by decide)) _ _)
    (.trans _ _ _ (.put (by decide) _ 0) (.setTimebase _ _)))

theorem stage_timebases (f : Timebase → Timebase) : TimebasesOnly {i} s (stage i f s) := by
  unfold stage
  dsimp only
  split
  · exact .trans _ _ _ (.setTimebase s _) (.put (by decide) _ 1)
  · exact .trans _ _ _ (.setTimebase s _) (applyStaged_timebases i _)

theorem writeStaged_timebases (r : TbStaged) (w : Word) : TimebasesOnly {i} s (writeStaged i r w s) := by
  unfold writeStaged
  split
  · exact stage_timebases i s _
  · split
    · exact .put (by decide) s 1
    · exact stage_timebases i s _
  · split_ifs
    · exact .refl s
    · exact .refl s
    · exact .put (by decide) s 1
    · exact stage_timebases i s _

theorem writeTbCmp_timebases (w : Word) : TimebasesOnly {i} s (writeTbCmp i w s) :=
  .trans _ _ _ (.setReg (mem_tbBlock i (by decide)) s w) (.trans _ _ _ (.put (by decide) _ 1) (.setTimebase _ _))

/-! ## Ticks and wraps -/

theorem tick_timebases : TimebasesOnly {i} s (tick i s) :=
  .trans _ _ _ (.setReg (mem_tbBlock i (by decide)) s _) (.trans _ _ _ (.setTimebase _ _) (.setTimebase _ _))

theorem wrapTick_timebases : TimebasesOnly {i} s (wrapTick i s) :=
  .trans _ _ _ (.setReg (mem_tbBlock i (by decide)) s _) (.trans _ _ _ (.put (by decide) _ 1)
    (.trans _ _ _ (applyStaged_timebases i _) (.setTimebase _ _)))

theorem sourceEdge_timebases : TimebasesOnly {i} s (sourceEdge i s) := by
  unfold sourceEdge
  dsimp only
  split_ifs
  · exact .setTimebase s _
  · exact .setTimebase s _
  · exact .setTimebase s _
  · exact tick_timebases i s
  · exact .refl s

theorem sourceEdges_timebases : ∀ (n : Nat) (s : State), TimebasesOnly {i} s (sourceEdges i n s)
  | 0, s => .refl s
  | n + 1, s => .trans _ _ _ (sourceEdge_timebases i s) (sourceEdges_timebases n _)

end

/-! ## A chain (R117) -/

/-- A timebase and those above it in its chain. -/
def chainFrom (i : Nat) : Set Nat := {j | i ≤ j ∧ (i < 64 → j < 64)}

theorem self_mem_chainFrom (i : Nat) : i ∈ chainFrom i := ⟨le_rfl, id⟩

theorem chainUpper_eq_some {i u : Nat} (above : chainUpper i = some u) : u = i + 1 ∧ (i < 64 → u < 64) := by
  unfold chainUpper at above
  split_ifs at above <;> simp only [Option.some.injEq] at above <;> omega

theorem chainFrom_upper {i u : Nat} (above : chainUpper i = some u) : chainFrom u ⊆ chainFrom i ∧ i ∉ chainFrom u := by
  obtain ⟨next, same⟩ := chainUpper_eq_some above
  refine ⟨fun j ⟨le, cap⟩ => ⟨by omega, fun low => cap (same low)⟩, fun ⟨le, _⟩ => by omega⟩

theorem wrapChain_timebases : ∀ (n i : Nat) (s : State), TimebasesOnly (chainFrom i) s (wrapChain n i s)
  | 0, _, s => .refl s
  | n + 1, i, s => by
    have self : ({i} : Set Nat) ⊆ chainFrom i := Set.singleton_subset_iff.mpr (self_mem_chainFrom i)
    have wrapped := (wrapTick_timebases i s).mono self
    rw [wrapChain]
    split
    · refine .trans _ _ _ (.trans _ _ _ wrapped ?_) ((sourceEdges_timebases i _ _).mono self)
      split
      · rename_i u above
        obtain ⟨sub, -⟩ := chainFrom_upper above
        split
        · have first : ({u} : Set Nat) ⊆ chainFrom i := Set.singleton_subset_iff.mpr (sub (self_mem_chainFrom u))
          exact .trans _ _ _ ((sourceEdge_timebases u _).mono first) ((wrapChain_timebases n u _).mono sub)
        · exact .refl _
      · exact .refl _
    · exact .refl s

/-- A wrap that is due, with no source edge since, is made; what follows in the chain leaves the timebase as it is. -/
theorem wrapTimebase_kept {i : Nat} {s : State} (due : (s.timebase i).due = true) (current : (s.timebase i).overdue = 0) :
    TimebaseKept i (wrapTick i s) (wrapTimebase i s) := by
  rw [wrapTimebase, wrapChain, if_pos due, current]
  dsimp only [sourceEdges]
  split
  · rename_i u above
    obtain ⟨-, apart⟩ := chainFrom_upper above
    split
    · exact (TimebasesOnly.trans _ _ _
        ((sourceEdge_timebases u _).mono (Set.singleton_subset_iff.mpr (self_mem_chainFrom u)))
        (wrapChain_timebases 63 u _)).kept apart
    · exact .refl _
  · exact .refl _

/-! ## What a wrap leaves (R112, R113) -/

section

variable {i : Nat} {s : State}

/-- Phase offsets that take effect leave the registers before them, but for the mark BAD. -/
theorem applyPhases_reg {o : Nat} (low : o < 0x20) (plain : o ≠ Reg.TB_STAT) (m : Nat) (newPer : Bool) :
    ∀ n, (applyPhases i m newPer s n).reg (tbKey i + o) = s.reg (tbKey i + o)
  | 0 => rfl
  | k + 1 => by
    have phase : tbKey i + o ≠ tbKey i + Reg.TB_PHASE + k := by dsimp only [Reg.TB_PHASE]; omega
    have mark : tbKey i + o ≠ tbKey i + Reg.TB_STAT_BAD.addr := fun same => plain (Nat.add_left_cancel same)
    unfold applyPhases
    dsimp only
    split_ifs
    · rw [State.reg_setReg_other _ _ phase, applyPhases_reg low plain]
    · exact applyPhases_reg low plain _ _ k
    · rw [State.reg_put_other _ _ _ _ mark, State.reg_setReg_other _ _ phase, applyPhases_reg low plain]
    · rw [State.reg_setReg_other _ _ phase, applyPhases_reg low plain]

theorem applyPhases_wrap (m : Nat) (newPer : Bool) :
    ∀ n, (applyPhases i m newPer s n).flag (tbKey i) Reg.TB_STAT_WRAP = s.flag (tbKey i) Reg.TB_STAT_WRAP
  | 0 => rfl
  | k + 1 => by
    have phase (u : State) (w : Word) : (u.setReg (tbKey i + Reg.TB_PHASE + k) w).flag (tbKey i) Reg.TB_STAT_WRAP
        = u.flag (tbKey i) Reg.TB_STAT_WRAP := by
      rw [Nat.add_assoc]
      exact flag_setReg_other u _ (by dsimp only [Reg.TB_PHASE]; omega) w
    unfold applyPhases
    dsimp only
    split_ifs
    · rw [phase, applyPhases_wrap]
    · exact applyPhases_wrap _ _ k
    · rw [flag_put_apart _ _ Reg.TB_STAT_BAD Reg.TB_STAT_WRAP 1 (by decide) (by decide) rfl (.inr (by decide)), phase,
        applyPhases_wrap]
    · rw [phase, applyPhases_wrap]

theorem takeStagedPhases_reg {o : Nat} (low : o < 0x20) (plain : o ≠ Reg.TB_STAT) :
    (takeStagedPhases i s).reg (tbKey i + o) = (takeStagedPer i s).reg (tbKey i + o) := by
  unfold takeStagedPhases
  dsimp only
  split
  · exact applyPhases_reg low plain _ _ 16
  · rfl

theorem takeStagedPhases_wrap :
    (takeStagedPhases i s).flag (tbKey i) Reg.TB_STAT_WRAP = s.flag (tbKey i) Reg.TB_STAT_WRAP := by
  have same : (takeStagedPer i s).flag (tbKey i) Reg.TB_STAT_WRAP = s.flag (tbKey i) Reg.TB_STAT_WRAP := by
    unfold takeStagedPer takeStagedPre
    dsimp only
    split <;> split <;> simp [flag_setReg_other]
  unfold takeStagedPhases
  dsimp only
  split
  · rw [applyPhases_wrap, same]
  · exact same

theorem takeStagedPer_per {w : Word} (staged : (s.timebase i).stagedPer = some w) :
    (takeStagedPer i s).reg (tbKey i + Reg.TB_PER) = w := by
  rw [takeStagedPer, staged]
  exact State.reg_setReg _ _ _

theorem takeStagedPer_pre {w : Word} (staged : (s.timebase i).stagedPre = some w) :
    (takeStagedPer i s).reg (tbKey i + Reg.TB_PRE) = w := by
  have pre : (takeStagedPre i s).reg (tbKey i + Reg.TB_PRE) = w := by
    rw [takeStagedPre, staged]
    exact State.reg_setReg _ _ _
  unfold takeStagedPer
  split
  · rw [State.reg_setReg_other _ _ (by simp), pre]
  · exact pre

/-- Every register but the count and the marks holds after the staged values take effect what it holds with the staged
prescaler, period and offsets. -/
theorem applyStaged_reg {o : Nat} (low : o < 0x20) (plain : o ≠ Reg.TB_STAT) (count : o ≠ Reg.TB_COUNT) :
    (applyStaged i s).reg (tbKey i + o) = (takeStagedPer i s).reg (tbKey i + o) := by
  rw [applyStaged_eq, reg_setTimebase, State.reg_put_other _ _ _ _ fun same => plain (Nat.add_left_cancel same),
    State.reg_setReg_other _ _ fun same => count (Nat.add_left_cancel same), takeStagedPhases_reg low plain]

theorem applyStaged_count (zero : s.reg (tbKey i + Reg.TB_COUNT) = 0) : (applyStaged i s).tbCount i = 0 := by
  have none : s.tbCount i = 0 := by rw [State.tbCount, zero]; rfl
  rw [State.tbCount, applyStaged_eq, reg_setTimebase, State.reg_put_other _ _ _ _ (by simp), State.reg_setReg, none,
    Nat.zero_mod]
  rfl

theorem applyStaged_pend : (applyStaged i s).flag (tbKey i) Reg.TB_STAT_PEND = false := by
  rw [applyStaged_eq, flag_setTimebase]
  exact flag_put_zero _ _ (by decide) (by decide)

theorem applyStaged_wrap : (applyStaged i s).flag (tbKey i) Reg.TB_STAT_WRAP = s.flag (tbKey i) Reg.TB_STAT_WRAP := by
  rw [applyStaged_eq, flag_setTimebase,
    flag_put_apart _ _ Reg.TB_STAT_PEND Reg.TB_STAT_WRAP 0 (by decide) (by decide) rfl (.inr (by decide)),
    flag_setReg_other _ _ (by decide), takeStagedPhases_wrap]

end

/-- The wrap itself: the count is 0, WRAP is set, and the staged values are in force. -/
theorem wrapTick_gives (i : Nat) (s : State) :
    (wrapTick i s).tbCount i = 0 ∧ ((wrapTick i s).timebase i).due = false
      ∧ (wrapTick i s).flag (tbKey i) Reg.TB_STAT_WRAP = true ∧ (wrapTick i s).flag (tbKey i) Reg.TB_STAT_PEND = false
      ∧ (∀ w : Word, (s.timebase i).stagedPre = some w → (wrapTick i s).reg (tbKey i + Reg.TB_PRE) = w)
      ∧ (∀ w : Word, (s.timebase i).stagedPer = some w → (wrapTick i s).reg (tbKey i + Reg.TB_PER) = w) := by
  have zero : ((s.setReg (tbKey i + Reg.TB_COUNT) 0).put (tbKey i) Reg.TB_STAT_WRAP 1).reg (tbKey i + Reg.TB_COUNT)
      = 0 := by
    rw [State.reg_put_other _ _ _ _ (by simp), State.reg_setReg]
  unfold wrapTick afterTick
  dsimp only
  refine ⟨?_, ?_, ?_, ?_, fun w staged => ?_, fun w staged => ?_⟩
  · rw [tbCount_setTimebase, applyStaged_count zero]
  · rw [State.timebase_setTimebase]
  · rw [flag_setTimebase, applyStaged_wrap]
    exact flag_put_one _ _ (by decide) rfl
  · rw [flag_setTimebase, applyStaged_pend]
  · rw [reg_setTimebase, applyStaged_reg (by decide) (by decide) (by decide)]
    exact takeStagedPer_pre staged
  · rw [reg_setTimebase, applyStaged_reg (by decide) (by decide) (by decide)]
    exact takeStagedPer_per staged

end Sys2Proof.Machine
end

section
/-! PROOF. Compares, captures and the edges of general pins (O12). -/

namespace Sys2Proof.Machine

/-! ## The compare (R119, R120) -/

theorem writeTbCmp_gives (i : Nat) (v : Word) (s : State) :
    (writeTbCmp i v s).reg (tbKey i + Reg.TB_CMP) = v ∧ (writeTbCmp i v s).flag (tbKey i) Reg.TB_STAT_ARMED = true
      ∧ (writeTbCmp i v s).tbCount i = s.tbCount i ∧ ((writeTbCmp i v s).timebase i).ticked = false := by
  unfold writeTbCmp
  refine ⟨?_, ?_, ?_, ?_⟩
  · rw [reg_setTimebase, State.reg_put_other _ _ _ _ (by simp), State.reg_setReg]
  · rw [flag_setTimebase]
    exact flag_put_one _ _ (by decide) rfl
  · rw [tbCount_setTimebase, State.tbCount, State.reg_put_other _ _ _ _ (by simp), State.reg_setReg_other _ _ (by simp),
      State.tbCount]
  · rw [State.timebase_setTimebase]

theorem compareArm_gives {m : Master} {u : TbUnit} {i : Nat} {s : State} (v : Word) (hi : i ∈ s.tbCopies u)
    (ok : s.tbWriteOk m u = true) :
    Gives (.compareArm m u v) s (fun t =>
      t.reg (tbKey i + Reg.TB_CMP) = v ∧ t.flag (tbKey i) Reg.TB_STAT_ARMED = true ∧ t.tbCount i = s.tbCount i
        ∧ (t.timebase i).ticked = false ∧ t = { s with regs := t.regs, timebases := t.timebases }) := by
  have own (j : Nat) (v' : State) := writeTbCmp_timebases j v' v
  have written : exec (.compareArm m u v) s = .next (s.onTimebase u fun i s => writeTbCmp i v s) := by
    show execCompareArm m u v s = _
    rw [execCompareArm, onTbWrite_accepted ok fun j v' => (own j v').computes .B]
  obtain ⟨before, kept, after⟩ := onTimebase_kept hi own
  obtain ⟨value, armed, count, waits⟩ := writeTbCmp_gives i v before
  refine .intro written ⟨?_, ?_, ?_, ?_, (onTimebase_only own).fields_eq⟩
  · rw [after.reg (by decide), value]
  · rw [after.flag (by decide), armed]
  · rw [after.tbCount, count, kept.tbCount]
  · rw [after.timebase, waits]

theorem compareMatch_gives {u : TbUnit} {i : Nat} {s : State} (hi : i ∈ s.tbCopies u) (runs : s.tbRuns i = true)
    (reached : s.tbMatches i = true) (ticked : (s.timebase i).ticked = true)
    (once : s.flag (tbKey i) Reg.TB_CTL_CMP_AUTO = false) :
    Gives (.compareMatch u) s (fun t =>
      t.flag (tbKey i) Reg.TB_STAT_CMP = true ∧ t.flag (tbKey i) Reg.TB_STAT_ARMED = false
        ∧ t.reg (tbKey i + Reg.TB_CMP) = s.reg (tbKey i + Reg.TB_CMP)) := by
  have low := lt_of_mem_tbCopies hi
  obtain ⟨before, kept, after⟩ := onTimebase_at (R := CountKept i) (f := fun i s =>
      if (s.timebase i).ticked then compareTick i s else s) .refl hi fun j hj other v => by
    split
    · exact compareTick_countKept (lt_of_mem_tbCopies hj) low (Ne.symm other) v
    · exact .refl v
  have stillOnce : before.flag (tbKey i) Reg.TB_CTL_CMP_AUTO = false := by rw [kept.flag (by decide), once]
  obtain ⟨cmp, disarmed, value⟩ := afterMatch_once stillOnce
  have pulse := tbEvent_countKept (i := i) low (afterMatch i before)
  have compared : (if (before.timebase i).ticked then compareTick i before else before)
      = tbEvent i (afterMatch i before) := by
    rw [kept.ticked, ticked, if_pos rfl, compareTick_eq, kept.runs, kept.tbMatches, runs, reached]
    rfl
  rw [compared] at after
  refine .intro rfl ⟨?_, ?_, ?_⟩
  · rw [after.mark rfl (.inl (by decide)), pulse.mark rfl (.inl (by decide)), cmp]
  · rw [after.mark rfl (.inr (by decide)), pulse.mark rfl (.inr (by decide)), disarmed]
  · rw [after.regs _ (by decide), pulse.regs _ (by decide), value, kept.regs _ (by decide)]

/-! ## Captures (R122) -/

section

variable {u : TbUnit} {i : Nat} {c : Fin 2} {rise : Bool} {s : State}

theorem exec_captureEdge (sampled : s.pinsSampled = true) :
    exec (.captureEdge u c rise) s = .next (s.onTimebase u fun i s => capturePin i c.val rise s) := by
  show execCaptureEdge u c rise s = _
  rw [execCaptureEdge, if_pos sampled]

/-- An enabled unit that takes pin edges closes at an edge of its polarity, and opens at the other. -/
theorem capturePin_enabled (pins : c.val = 1 → s.flag (capKey i 1) Reg.TB_CAP_CFG_SEL = false)
    (enabled : s.flag (capKey i c.val) Reg.TB_CAP_CFG_EN = true) :
    capturePin i c.val rise s = if rise = s.flag (capKey i c.val) Reg.TB_CAP_CFG_POL then captureFall i c.val s
      else captureRise i c.val s := by
  have events : (decide (c.val = 1) && s.flag (capKey i c.val) Reg.TB_CAP_CFG_SEL) = false := by
    by_cases second : c.val = 1
    · rw [second, pins second, Bool.and_false]
    · rw [decide_eq_false second, Bool.false_and]
  rw [capturePin, enabled, events]
  rfl

theorem TimebaseKept.capReg {t : State} (kept : TimebaseKept i s t) {o : Nat} (ho : o < 0x1C) :
    t.reg (capKey i c.val + o) = s.reg (capKey i c.val + o) :=
  kept.regs _ (capKey_mem_tbBlock c.isLt i ho)

theorem TimebaseKept.capFlag {t : State} (kept : TimebaseKept i s t) {f : Fld} (hf : f.addr < 0x1C) :
    t.flag (capKey i c.val) f = s.flag (capKey i c.val) f := by
  rw [State.flag, State.get, kept.capReg hf, State.flag, State.get]

/-- What one copy of an enabled unit that takes pin edges meets at an edge. -/
theorem capturePin_at (hi : i ∈ s.tbCopies u) (pins : c.val = 1 → s.flag (capKey i 1) Reg.TB_CAP_CFG_SEL = false)
    (enabled : s.flag (capKey i c.val) Reg.TB_CAP_CFG_EN = true) :
    ∃ v, TimebaseKept i s v ∧ TimebaseKept i
      (if rise = s.flag (capKey i c.val) Reg.TB_CAP_CFG_POL then captureFall i c.val v else captureRise i c.val v)
      (s.onTimebase u fun i s => capturePin i c.val rise s) := by
  obtain ⟨v, kept, after⟩ := onTimebase_kept hi fun j s => capturePin_timebases c.isLt j s rise
  refine ⟨v, kept, ?_⟩
  rw [capturePin_enabled (fun second => ?_) ((kept.capFlag (by decide)).trans enabled), kept.capFlag (by decide)] at after
  · exact after
  · exact (kept.capFlag (c := 1) (by decide)).trans (pins second)

theorem openingEdge_gives (hi : i ∈ s.tbCopies u) (sampled : s.pinsSampled = true)
    (pins : c.val = 1 → s.flag (capKey i 1) Reg.TB_CAP_CFG_SEL = false)
    (enabled : s.flag (capKey i c.val) Reg.TB_CAP_CFG_EN = true)
    (opens : rise ≠ s.flag (capKey i c.val) Reg.TB_CAP_CFG_POL) :
    Gives (.captureEdge u c rise) s (fun t =>
      t.reg (capKey i c.val + Reg.TB_CAP_RISE) = s.reg (tbKey i + Reg.TB_COUNT) ∧ (t.timebase i).risen c.val = true) := by
  obtain ⟨v, kept, after⟩ := capturePin_at (rise := rise) hi pins enabled
  rw [if_neg opens] at after
  refine .intro (exec_captureEdge sampled) ⟨?_, ?_⟩
  · rw [after.capReg (by decide), captureRise_rise, kept.reg (by decide)]
  · rw [after.timebase, captureRise_risen]

theorem closingEdge_gives (hi : i ∈ s.tbCopies u) (sampled : s.pinsSampled = true)
    (pins : c.val = 1 → s.flag (capKey i 1) Reg.TB_CAP_CFG_SEL = false)
    (enabled : s.flag (capKey i c.val) Reg.TB_CAP_CFG_EN = true)
    (closes : rise = s.flag (capKey i c.val) Reg.TB_CAP_CFG_POL) (risen : (s.timebase i).risen c.val = true)
    (inPeriod : (s.reg (capKey i c.val + Reg.TB_CAP_RISE)).toNat < s.tbModulus i) :
    Gives (.captureEdge u c rise) s (fun t =>
      (t.reg (capKey i c.val + Reg.TB_CAP_WIDTH)).toNat
          = (s.tbCount i + (s.tbModulus i - (s.reg (capKey i c.val + Reg.TB_CAP_RISE)).toNat)) % s.tbModulus i
        ∧ t.flag (tbKey i) (capDone c.val) = true ∧ (t.timebase i).risen c.val = false) := by
  obtain ⟨v, kept, after⟩ := capturePin_at (rise := rise) hi pins enabled
  rw [if_pos closes] at after
  obtain ⟨width, done, ended⟩ := captureFall_gives (s := v) c.isLt (by rw [kept.timebase, risen])
  have fits : ∀ n, n % s.tbModulus i < 2 ^ 20 := fun n =>
    lt_of_lt_of_le (Nat.mod_lt n (by omega)) (modulus_le _)
  refine .intro (exec_captureEdge sampled) ⟨?_, ?_, ?_⟩
  · rw [after.capReg (by decide), width, kept.tbCount, kept.tbModulus, kept.capReg (by decide), Nat.mod_eq_of_lt inPeriod,
      BitVec.toNat_ofNat, Nat.mod_eq_of_lt (fits _)]
  · rw [after.flag (by unfold capDone; split <;> decide), done]
  · rw [after.timebase, ended]

end

/-! ## General pins (R679) -/

section

variable {p : Nat} (hp : p < 32) (rise : Bool) (s : State)

theorem getLsbD_setBits_one (w : Word) {n : Nat} (hn : n < 16) (v : Bool) :
    (setBits w n n (if v then 1 else 0)).getLsbD n = v := by
  rw [← BitVec.testBit_toNat, testBit_setBits _ _ _ _ _ (by omega) le_rfl, if_pos ⟨le_rfl, le_rfl⟩, Nat.sub_self]
  cases v <;> rfl

/-- The level of a pin after an edge. -/
def setPinLevel (p : Nat) (rise : Bool) (s : State) : State :=
  { setGpIn p rise s with gpPins := if rise then s.gpPins ||| (1#32 <<< p) else s.gpPins &&& ~~~(1#32 <<< p) }

/-- The pin's flag is set where its edge selection names the edge. -/
def markEdge (p : Nat) (rise : Bool) (s : State) : State :=
  if edgeSelected (s.get (oneKey + p) Reg.GP_CFG_IEDGE) rise then
    s.setReg (gpGroup Reg.GP_FLAG p) (setBits (s.reg (gpGroup Reg.GP_FLAG p)) (p % 16) (p % 16) 1)
  else s

/-- The timebases and captures that an edge feeds. -/
def feedTimebases (p : Nat) (rise : Bool) (s : State) : State :=
  s.allTimebases.foldl (fun s i => pinEdgeAt p rise i s) s

theorem gpEdge_sampled {s : State} (sampled : s.pinsSampled = true) :
    gpEdge p rise s =
      if edgeSelected (bits ((feedTimebases p rise (markEdge p rise (setPinLevel p rise s))).reg
        (oneKey + Reg.EM_GPEDGE + p / 10)) (2 * (p % 10) + 1) (2 * (p % 10))) rise
      then raiseEvent (evGpin p) (feedTimebases p rise (markEdge p rise (setPinLevel p rise s)))
      else feedTimebases p rise (markEdge p rise (setPinLevel p rise s)) := by
  rw [gpEdge, sampled]
  rfl

theorem pinEdgeAt_timebases (i : Nat) : TimebasesOnly {i} s (pinEdgeAt p rise i s) := by
  have pin (c : Nat) (hc : c < 2) (q : Prop) [Decidable q] (u : State) :
      TimebasesOnly {i} u (if q then capturePin i c rise u else u) := by
    split
    · exact capturePin_timebases hc i u rise
    · exact .refl u
  unfold pinEdgeAt
  dsimp only
  refine .trans _ _ _ (.trans _ _ _ ?_ (pin 0 (by decide) _ _)) (pin 1 (by decide) _ _)
  split
  · exact sourceEdge_timebases i s
  · exact .refl s

theorem lt_of_mem_allTimebases {i : Nat} (hi : i ∈ s.allTimebases) : i < 136 := by
  simp only [State.allTimebases, List.mem_append, List.mem_map, List.mem_range] at hi
  rcases hi with (hi | hi) | ⟨g, hg, rfl⟩
  · split at hi
    · have := List.mem_range.mp hi
      omega
    · exact absurd hi List.not_mem_nil
  · split at hi
    · obtain ⟨g, hg, rfl⟩ := List.mem_map.mp hi
      have := List.mem_range.mp hg
      omega
    · exact absurd hi List.not_mem_nil
  · omega

theorem feedTimebases_only : TimebasesOnly {i | i < 136} s (feedTimebases p rise s) := by
  suffices feeds : ∀ l : List Nat, (∀ i ∈ l, i < 136) → ∀ s,
      TimebasesOnly {i | i < 136} s (l.foldl (fun s i => pinEdgeAt p rise i s) s) from
    feeds _ (fun _ => lt_of_mem_allTimebases s) s
  intro l
  induction l with
  | nil => exact fun _ s => .refl s
  | cons i l ih =>
    intro low s
    rw [List.foldl_cons]
    exact .trans _ _ _ ((pinEdgeAt_timebases rise s i).mono (Set.singleton_subset_iff.mpr (low i List.mem_cons_self)))
      (ih (fun j hj => low j (List.mem_cons_of_mem _ hj)) _)

/-- Past the pin's own registers an edge feeds timebases and pulses: the pins and their registers stay. -/
theorem gpEdge_keeps {s : State} (sampled : s.pinsSampled = true) :
    (gpEdge p rise s).gpPins = (setPinLevel p rise s).gpPins
      ∧ ∀ k, 0x271100 ≤ k → (gpEdge p rise s).reg k = (markEdge p rise (setPinLevel p rise s)).reg k := by
  set u := markEdge p rise (setPinLevel p rise s) with hu
  have pins : u.gpPins = (setPinLevel p rise s).gpPins := by
    rw [hu, markEdge]
    split <;> rfl
  have fed : (feedTimebases p rise u).gpPins = u.gpPins
      ∧ ∀ k, 0x271100 ≤ k → (feedTimebases p rise u).reg k = u.reg k := by
    have only := feedTimebases_only (p := p) rise u
    refine ⟨?_, fun k hk => only.regs k fun i hi => ?_⟩
    · obtain ⟨_, _, same⟩ := only.fields
      rw [same]
    · have low : i < 136 := hi
      unfold tbBlock tbKey bayKey halfKey oneKey Half.num
      rw [Set.mem_Ico]
      dsimp only
      split_ifs <;> omega
  rw [gpEdge_sampled rise sampled, ← hu]
  split
  · refine ⟨?_, fun k hk => ?_⟩
    · obtain ⟨_, _, _, _, same⟩ := raiseEvent_only (evGpin p) (feedTimebases p rise u)
      rw [same]
      exact fed.1.trans pins
    · refine ((raiseEvents_captures [evGpin p] (feedTimebases p rise u)).regs k fun i hi o ho => ?_).trans (fed.2 k hk)
      have low : tbKey i + 0x20 ≤ 0x271100 := by
        unfold tbKey bayKey halfKey oneKey Half.num
        dsimp only
        split_ifs <;> omega
      have small : o < 0x20 := by
        revert o
        decide
      omega
  · exact ⟨fed.1.trans pins, fed.2⟩

include hp in
theorem gpEdge_gives {s : State} (sampled : s.pinsSampled = true) :
    (gpEdge p rise s).gpPins.getLsbD p = rise
      ∧ ((gpEdge p rise s).reg (oneKey + Reg.GP_IN + p / 16)).getLsbD (p % 16) = rise
      ∧ (edgeSelected (s.get (oneKey + p) Reg.GP_CFG_IEDGE) rise = true →
          ((gpEdge p rise s).reg (oneKey + Reg.GP_FLAG + p / 16)).getLsbD (p % 16) = true) := by
  obtain ⟨pins, regs⟩ := gpEdge_keeps (p := p) rise sampled
  have level (k : Nat) : (setPinLevel p rise s).reg k = (setGpIn p rise s).reg k := rfl
  have inFlag : gpGroup Reg.GP_IN p ≠ gpGroup Reg.GP_FLAG p := by unfold gpGroup Reg.GP_IN Reg.GP_FLAG; omega
  have high (a : Nat) (ha : 0x72000 ≤ a) : 0x271100 ≤ oneKey + a + p / 16 := by unfold oneKey; omega
  refine ⟨?_, ?_, fun selected => ?_⟩
  · rw [pins]
    unfold setPinLevel
    cases rise <;> simp [hp]
  · have read : (markEdge p rise (setPinLevel p rise s)).reg (gpGroup Reg.GP_IN p)
        = setBits (s.reg (gpGroup Reg.GP_IN p)) (p % 16) (p % 16) (if rise then 1 else 0) := by
      unfold markEdge
      split
      · rw [State.reg_setReg_other _ _ inFlag, level, setGpIn, State.reg_setReg]
      · rw [level, setGpIn, State.reg_setReg]
    rw [regs _ (high _ (by decide))]
    exact (congrArg (·.getLsbD (p % 16)) read).trans (getLsbD_setBits_one _ (Nat.mod_lt _ (by decide)) rise)
  · have config : (setPinLevel p rise s).get (oneKey + p) Reg.GP_CFG_IEDGE = s.get (oneKey + p) Reg.GP_CFG_IEDGE := by
      rw [State.get, level, setGpIn, State.reg_setReg_other _ _ (by dsimp only [gpGroup, Reg.GP_IN]; omega), State.get]
    rw [regs _ (high _ (by decide)), markEdge, config, if_pos selected]
    exact (congrArg (·.getLsbD (p % 16)) (State.reg_setReg _ _ _)).trans
      (getLsbD_setBits_one _ (Nat.mod_lt _ (by decide)) true)

end

/-- Settles O12: a compare and a capture act on each copy of their timebase as if it were alone, the pulse of a match
changing no more of a timebase than an event's captures do; an edge of a pin stores its level and its flag, which the
timebases it feeds and the pulse leave as they are. -/
theorem comparesCapturesAndPins : Obligations.ComparesCapturesAndPins := by
  refine ⟨fun m u i v s hi ok => compareArm_gives v hi ok,
    fun u i s hi runs reached ticked once => compareMatch_gives hi runs reached ticked once,
    fun u i c rise s hi sampled pins enabled opens => openingEdge_gives hi sampled pins enabled opens,
    fun u i c rise s hi sampled pins enabled closes risen inPeriod _ =>
      closingEdge_gives hi sampled pins enabled closes risen inPeriod,
    fun p rise s still => ?_, fun p rise s sampled => .intro rfl (gpEdge_gives p.isLt rise sampled)⟩
  show execGpInputEdge p rise s = _
  rw [execGpInputEdge, gpEdge, still]
  rfl

end Sys2Proof.Machine
end

section
/-! SUPPORT. The registers beyond the bays' pages: what a terminal's bands, pads and records in SLEEP leave alone of them
(R125, R126). A pulse changes no more than an event's captures do. -/

namespace Sys2Proof.Machine

/-- A register that belongs to no half and to no bay, and into which no capture unit stores. -/
def BeyondBays (k : Nat) : Prop :=
  0x220000 ≤ k ∧ ∀ i < 136, ∀ o ∈ [Reg.TB_STAT, 0x15, 0x16, 0x17], k ≠ tbKey i + o

theorem halfKey_le (h : Half) : halfKey h ≤ 0x100000 := by cases h <;> decide

theorem termKey_lt (h : Half) {t : Nat} (ht : t < 1024) : termKey h t + 0x10 ≤ 0x120000 := by
  have := halfKey_le h
  unfold termKey bayKey
  omega

section

variable {k : Nat} (hk : BeyondBays k)

/-! ## Writes -/

section

variable (s : State) (h : Half)

@[simp] theorem reg_setSlot (t : Nat) (x : Slot) : (s.setSlot h t x).reg k = s.reg k := (rfl)
@[simp] theorem reg_setMirror (b : Nat) (x : Mirror) : (s.setMirror h b x).reg k = s.reg k := (rfl)
@[simp] theorem reg_setChan (c : Nat) (x : Chan) : (s.setChan c x).reg k = s.reg k := (rfl)
@[simp] theorem reg_setCoder (e : Nat) (x : Coder) : (s.setCoder h e x).reg k = s.reg k := (rfl)
@[simp] theorem reg_setCodeHalf (x : CodeHalf) : (s.setCodeHalf h x).reg k = s.reg k := (rfl)
@[simp] theorem reg_setOpen (c : Nat) (x : Bushel) : (s.setOpen h c x).reg k = s.reg k := (rfl)
@[simp] theorem reg_closeOpen (c : Nat) : (s.closeOpen h c).reg k = s.reg k := (rfl)

theorem reg_onCopies {f : Half → State → State} (hf : ∀ h s, (f h s).reg k = s.reg k) :
    (s.onCopies f).reg k = s.reg k :=
  onCopies_rel (fun s t => t.reg k = s.reg k) (fun _ => rfl) (fun _ _ _ h1 h2 => h2.trans h1) _ hf s

end

include hk

theorem reg_setReg_low {j : Nat} (hj : j < 0x220000) (s : State) (w : Word) : (s.setReg j w).reg k = s.reg k :=
  s.reg_setReg_other w (by have := hk.1; omega)

@[simp] theorem reg_setReg_term {h : Half} {t o : Nat} (ht : t < 1024) (ho : o < 0x10) (s : State) (w : Word) :
    (s.setReg (termKey h t + o) w).reg k = s.reg k :=
  reg_setReg_low hk (by have := termKey_lt h ht; omega) s w

theorem reg_put_term {h : Half} {t : Nat} {f : Fld} (ht : t < 1024) (hf : f.addr < 0x10) (s : State) (v : Nat) :
    (s.put (termKey h t) f v).reg k = s.reg k :=
  reg_setReg_term hk ht hf s _

theorem reg_setReg_half {h : Half} {o : Nat} (ho : o < 0x10000) (s : State) (w : Word) :
    (s.setReg (halfKey h + o) w).reg k = s.reg k :=
  reg_setReg_low hk (by have := halfKey_le h; omega) s w

theorem reg_count_coding {h : Half} {o : Nat} (ho : o < 0x10) (s : State) (n : Nat) :
    (s.count (halfKey h + Reg.CE_CNT + o) n).reg k = s.reg k :=
  reg_setReg_low hk (by have := halfKey_le h; dsimp only [Reg.CE_CNT]; omega) s _

/-! ## Events -/

@[simp] theorem reg_raiseBayEvent (h : Half) (b : Nat) (e : BayEvent) (s : State) :
    (raiseBayEvent h b e s).reg k = s.reg k :=
  (raiseBayEvent_captures h b e s).regs k hk.2

/-! ## Coding (R323 to R340) -/

omit hk in
@[simp] theorem reg_openChan (h : Half) (c : Nat) (records : Bool) (set : CodeSet) (chg : Bool) (t enter : Nat)
    (s : State) : (openChan h c records set chg t enter s).reg k = s.reg k := by
  unfold openChan State.opened
  dsimp only
  split <;> simp

omit hk in
@[simp] theorem reg_storeItem (h : Half) (i : Item) (rest : List Item) (x : Bushel) (s : State) :
    (storeItem h i rest x s).reg k = s.reg k := by
  unfold storeItem countInput
  dsimp only
  split <;> simp

omit hk in
@[simp] theorem reg_storeRecord (h : Half) (r : Rec) (rest : List Rec) (x : Bushel) (s : State) :
    (storeRecord h r rest x s).reg k = s.reg k := by
  simp [storeRecord, countInput]

@[simp] theorem reg_sealBushel (h : Half) (c : Nat) (flush full : Bool) (s : State) :
    (sealBushel h c flush full s).reg k = s.reg k := by
  have sealed (u : State) (n : Nat) : (u.count (halfKey h + Reg.CE_CNT) n).reg k = u.reg k :=
    reg_setReg_half hk (o := Reg.CE_CNT) (by decide) u _
  have raw (u : State) (n : Nat) : (u.count (halfKey h + Reg.CE_CNT + 3) n).reg k = u.reg k :=
    reg_count_coding hk (by decide) u n
  have waits (u : State) : (u.put (halfKey h) Reg.CE_STAT_SQFULL 1).reg k = u.reg k :=
    reg_setReg_half hk (by decide) u _
  unfold sealBushel
  split
  · rfl
  · dsimp only
    rw [apply_ite (State.reg · k)]
    simp [sealed, raw, waits]

@[simp] theorem reg_codeItem (h : Half) (i : Item) (before after : List Item) (s : State) :
    (codeItem h i before after s).reg k = s.reg k := by
  unfold codeItem
  split
  · dsimp only
    split_ifs <;> simp [hk]
  · dsimp only
    split <;> simp

@[simp] theorem reg_codeRecord (h : Half) (r : Rec) (rest : List Rec) (s : State) :
    (codeRecord h r rest s).reg k = s.reg k := by
  unfold codeRecord
  split
  · dsimp only
    split_ifs <;> simp [hk]
  · dsimp only
    split <;> simp

@[simp] theorem reg_codeItems (h : Half) (c : Nat) (before : Option Nat) (force : Bool) (n : Nat) :
    ∀ s : State, (codeItems h c before force n s).reg k = s.reg k := by
  induction n with
  | zero => exact fun _ => rfl
  | succ n ih =>
    intro s
    rw [codeItems]
    split
    · rw [apply_ite (State.reg · k), ih, reg_codeItem hk, ite_self]
    · rfl

@[simp] theorem reg_codeRecords (h : Half) (c : Nat) (before : Option Nat) (force : Bool) (n : Nat) :
    ∀ s : State, (codeRecords h c before force n s).reg k = s.reg k := by
  induction n with
  | zero => exact fun _ => rfl
  | succ n ih =>
    intro s
    rw [codeRecords]
    split
    · rw [apply_ite (State.reg · k), ih, reg_codeRecord hk, ite_self]
    · rfl

@[simp] theorem reg_enterChan (h : Half) (c : Nat) (records : Bool) (set : CodeSet) (chg : Bool) (t : Nat) (s : State) :
    (enterChan h c records set chg t s).reg k = s.reg k := by
  unfold enterChan sealChan codeWaiting
  dsimp only
  split_ifs <;> simp [hk]

@[simp] theorem reg_bayRecord (h : Half) (b : Nat) (en : Fld) (rtype : Nat) (payload : List Byte) (s : State) :
    (bayRecord h b en rtype payload s).reg k = s.reg k := by
  have lost (u : State) : (u.count (halfKey h + Reg.CE_CNT + 2) 1).reg k = u.reg k :=
    reg_count_coding hk (by decide) u 1
  have drop (u : State) : (u.put (halfKey h) Reg.CE_STAT_RECDROP 1).reg k = u.reg k :=
    reg_setReg_half hk (by decide) u _
  unfold bayRecord pushRecord
  dsimp only
  split_ifs <;> simp [hk, lost, drop]

/-! ## Envelopes, proofs and pads (R171, R182, R188, R190) -/

section

variable (h : Half) {t : Nat} (ht : t < 1024) (s : State)

omit hk in
@[simp] theorem reg_noteBand (t was : Nat) : (noteBand h t was s).reg k = s.reg k := by
  unfold noteBand
  dsimp only
  split <;> simp

include ht

theorem reg_setReg_pad {o : Nat} (ho : o < 0x400) (w : Word) : (s.setReg (padKey (t / 16) + o) w).reg k = s.reg k :=
  reg_setReg_low hk (by unfold padKey oneKey; omega) s w

theorem reg_setReg_excess (w : Word) : (s.setReg (excessKey h t) w).reg k = s.reg k := by
  refine reg_setReg_low hk ?_ s w
  have := halfKey_le h
  unfold excessKey bayKey Reg.TD_EXCESS
  omega

theorem reg_setReg_age (w : Word) : (s.setReg (ageKey h t) w).reg k = s.reg k := by
  refine reg_setReg_low hk ?_ s w
  have := halfKey_le h
  unfold ageKey bayKey Reg.TD_AGE
  omega

@[simp] theorem reg_dropProof : (dropProof h t s).reg k = s.reg k := by
  have excess (u : State) (n : Nat) : (u.count (excessKey h t) n).reg k = u.reg k := reg_setReg_excess hk h ht u _
  unfold dropProof
  dsimp only
  split
  · rfl
  · split <;> simp [excess, reg_put_term hk ht]

@[simp] theorem reg_envelopeAction {fs : List Fld} (hfs : ∀ f ∈ fs, f.addr < 0x10) (cause : Nat) :
    (envelopeAction h t fs cause s).reg k = s.reg k := by
  have marks : (fs.foldl (fun s f => s.put (termKey h t) f 1) s).reg k = s.reg k := by
    induction fs generalizing s with
    | nil => rfl
    | cons f fs ih =>
      rw [List.foldl_cons, ih _ fun g hg => hfs g (List.mem_cons_of_mem _ hg),
        reg_put_term hk ht (hfs f List.mem_cons_self)]
  have count (u : State) : (u.count (padKey (t / 16) + Reg.ENV_BAYCNT) 1).reg k = u.reg k :=
    reg_setReg_pad hk ht u (by decide) _
  have last (u : State) (w : Word) : (u.setReg (padKey (t / 16) + Reg.ENV_LAST) w).reg k = u.reg k :=
    reg_setReg_pad hk ht u (by decide) w
  unfold envelopeAction
  dsimp only
  split_ifs <;> simp [hk, marks, count, last]

@[simp] theorem reg_suppress : (suppress h t s).reg k = s.reg k := by
  unfold suppress
  dsimp only
  rw [reg_setSlot, reg_envelopeAction hk h ht _ (by simp), reg_dropProof hk h ht]

omit h in
@[simp] theorem reg_syncPad : (syncPad t s).reg k = s.reg k := by
  obtain ⟨p, b, same⟩ := syncPad_only t s
  have held : (syncPad t s).reg k = (holdPulse t s).reg k := by rw [same]; rfl
  rw [held]
  unfold holdPulse State.onSlot
  split
  · refine reg_onCopies s fun h s => ?_
    rw [reg_noteBand]
    dsimp only
    split
    · exact reg_suppress hk h ht s
    · rfl
  · rfl

/-! ## Telemetry (R161, R176, R177) -/

@[simp] theorem reg_refreshHealth : (refreshHealth h t s).reg k = s.reg k := by
  unfold refreshHealth
  dsimp only
  split
  · rfl
  · rw [reg_raiseBayEvent hk, reg_bayRecord hk, reg_put_term hk ht (by decide), reg_put_term hk ht (by decide)]

@[simp] theorem reg_closeSample : (closeSample h t s).reg k = s.reg k := by
  have commit : (commitSample h t s).reg k = s.reg k := by
    unfold commitSample takeEvidence
    dsimp only
    split
    · rfl
    · rw [reg_refreshHealth hk h ht, reg_setReg_age hk h ht, reg_put_term hk ht (by decide), reg_setSlot]
      split <;> simp [reg_put_term hk ht]
  unfold closeSample missTelemetry
  dsimp only
  split
  · rw [reg_setSlot, reg_put_term hk ht (by decide), commit]
  · exact commit

/-! ## Bands in SLEEP (R126) -/

@[simp] theorem reg_dropDrive : (dropDrive h t s).reg k = s.reg k := by
  unfold dropDrive
  dsimp only
  split <;> simp [hk, ht]

@[simp] theorem reg_raiseDrive : (raiseDrive h t s).reg k = s.reg k := by
  unfold raiseDrive
  dsimp only
  split_ifs <;> simp [hk, ht]

theorem reg_limitOn (on prev : Nat) : (limitOn h t on prev s).2.reg k = s.reg k := by
  have marks (duty slew : Bool) : ∀ f ∈ (if duty then [Reg.TD_STAT_CLIP_DUTY] else [])
      ++ (if slew then [Reg.TD_STAT_CLIP_SLEW] else []), f.addr < 0x10 := by
    cases duty <;> cases slew <;> decide
  unfold limitOn
  dsimp only
  rw [apply_ite (State.reg · k), reg_envelopeAction hk h ht s (marks _ _), ite_self]

theorem reg_coarseLedger (cmd maxon : Nat) : (coarseLedger h t cmd maxon s).2.reg k = s.reg k := by
  have ledger (u : State) (v : Int) : (u.setLedger h t v).reg k = u.reg k := reg_setReg_term hk ht (by decide) u _
  have lost (u : State) (n : Nat) : (u.count (termKey h t + Reg.TS_LOST) n).reg k = u.reg k :=
    reg_setReg_term hk ht (by decide) u _
  have excess (u : State) (n : Nat) : (u.count (excessKey h t) n).reg k = u.reg k := reg_setReg_excess hk h ht u _
  unfold coarseLedger
  split
  · unfold repayBorrow
    dsimp only
    split_ifs <;> simp [ledger, lost, reg_put_term hk ht]
  · unfold repayProof
    dsimp only
    split_ifs <;> simp [ledger, excess, reg_put_term hk ht]
  · rfl

theorem reg_coarseBand : (coarseBand h t s).reg k = s.reg k := by
  have start (u : State) : (coarseStart h t u).reg k = u.reg k := by
    unfold coarseStart
    dsimp only
    rw [reg_setSlot, reg_coarseLedger hk h ht, reg_setSlot, reg_limitOn hk h ht]
  unfold coarseBand
  dsimp only
  split_ifs <;> simp [hk, ht, start]

theorem reg_staticBand (entry live : Bool) : (staticBand entry h t live s).reg k = s.reg k := by
  have clamp (u : State) : (u.put (tbKey (tbOf h t)) Reg.TB_STAT_SLP_CLAMP 1).reg k = u.reg k := by
    refine reg_setReg_low hk ?_ u _
    unfold tbKey tbOf bayIx bayKey halfKey Half.num
    cases h <;> (dsimp only; split_ifs <;> omega)
  unfold staticBand
  dsimp only
  split_ifs <;> simp [hk, ht, clamp]

theorem reg_sleepBand (entry : Bool) : (sleepBand entry h t s).reg k = s.reg k := by
  unfold sleepBand
  dsimp only
  split_ifs
  · rw [reg_coarseBand hk h ht, reg_dropProof hk h ht]
  · rw [reg_setSlot, reg_dropDrive hk h ht, reg_dropProof hk h ht]
  · rw [reg_staticBand hk h ht, reg_dropProof hk h ht]

omit hk ht in
theorem reg_takePath (t : Nat) : (takePath t s).reg k = s.reg k := by
  have lose : (loseExchange t s).reg k = s.reg k := by
    refine reg_onCopies s fun h s => ?_
    dsimp only
    split <;> rfl
  have switch (u : State) : (switchPath t u).reg k = u.reg k := rfl
  unfold takePath
  dsimp only
  split_ifs
  · rfl
  · rfl
  · exact switch s
  · rw [switch, lose]

end

/-- An LFX edge in SLEEP, or its entry: the bands of every terminal. -/
theorem reg_sleepBands (entry : Bool) (s : State) : (sleepBands entry s).reg k = s.reg k := by
  have bands {t : Nat} (ht : t < 1024) (u : State) : (u.onCopies fun h s => sleepBand entry h t s).reg k = u.reg k :=
    reg_onCopies u fun h s => reg_sleepBand hk h ht s entry
  have envelope (t : Nat) (u : State) : (takeEnvelope t u).reg k = u.reg k := rfl
  suffices each : ∀ l : List Nat, (∀ t ∈ l, t < 1024) → ∀ s : State, (l.foldl (fun s t =>
      let s1 := if (s.computes .A && s.coarseBegins .A t) || (s.computes .B && s.coarseBegins .B t) then
        takePath t (takeEnvelope t s) else s
      syncPad t (s1.onCopies (fun h s => sleepBand entry h t s))) s).reg k = s.reg k from
    each _ (fun _ => List.mem_range.mp) s
  intro l
  induction l with
  | nil => exact fun _ _ => rfl
  | cons t l ih =>
    intro low s
    have ht := low t List.mem_cons_self
    rw [List.foldl_cons, ih fun t m => low t (List.mem_cons_of_mem _ m)]
    dsimp only
    rw [reg_syncPad hk ht, bands ht]
    split
    · rw [reg_takePath, envelope]
    · rfl

end

end Sys2Proof.Machine
end

section
/-! SUPPORT. Coarse counting at an LFX edge in SLEEP (R125, R132): each timebase counts as if the others did not. -/

namespace Sys2Proof.Machine

section

variable (i : Nat)

theorem advance_timebases (n : Nat) (s : State) : TimebasesOnly {i} s (advance i n s).1 := by
  unfold advance
  dsimp only
  split
  · exact .trans _ _ _ (.setReg (mem_tbBlock i (by decide)) s _)
      (.trans _ _ _ (.put (by decide) _ 1) (applyStaged_timebases i _))
  · exact .setReg (mem_tbBlock i (by decide)) s _

theorem coarseEdges_timebases : ∀ (n : Nat) (r : State × Nat), TimebasesOnly {i} r.1 (coarseEdges i n r).1
  | 0, r => .refl r.1
  | n + 1, (s, w) => by
    rw [coarseEdges]
    dsimp only
    split_ifs
    · exact .trans _ _ _ (.setTimebase s _) (coarseEdges_timebases n (_, _))
    · exact .trans _ _ _ (wrapTick_timebases i s) (coarseEdges_timebases n (_, _))
    · exact .trans _ _ _ (tick_timebases i s) (coarseEdges_timebases n (_, _))

/-- A number of edges counted, and the ticks they moved the timebase by. -/
def edgesCounted (n : Nat) (s : State) : State :=
  let r := coarseEdges i n (s.setTimebase i { s.timebase i with ticked := false }, 0)
  r.1.setTimebase i { r.1.timebase i with moved := r.2 * s.tbModulus i + r.1.tbCount i - s.tbCount i }

theorem edgesCounted_timebases (n : Nat) (s : State) : TimebasesOnly {i} s (edgesCounted i n s) :=
  .trans _ _ _ (.setTimebase s _) (.trans _ _ _ (coarseEdges_timebases i n (_, 0)) (.setTimebase _ _))

/-- The ticks of an LFX period of a timebase on TREF. -/
def periodCounted (s : State) : State :=
  let p := coarseTicks (s.tbN i) (s.tbF i) (s.timebase i).frac
  (advance i p.1 (s.setTimebase i { s.timebase i with frac := p.2, moved := p.1 })).1

theorem periodCounted_timebases (s : State) : TimebasesOnly {i} s (periodCounted i s) :=
  .trans _ _ _ (.setTimebase s _) (advance_timebases i _ _)

/-- The step of a timebase at an LFX edge: none where it does not count; on TREF a period's ticks, and the compare; else the
edges, and the compare where one was a tick. -/
theorem coarseStep_eq (below : Nat) (s : State) : (coarseStep i below s).1 =
    if s.tbRuns i then
      if s.tbOnTref i then compareTick i (periodCounted i s)
      else
        let u := edgesCounted i (if s.tbSrc i = 2 then below else 1) s
        if (u.timebase i).ticked then compareTick i u else u
    else s := by
  unfold coarseStep
  split
  · split <;> rfl
  · rfl

variable {i} {j : Nat} (hi : i < 136)
include hi

theorem TimebasesOnly.countKept {s t : State} (h : TimebasesOnly {i} s t) (apart : j ≠ i) : CountKept j s t :=
  .of_only h (by rintro _ rfl; exact hi) apart

theorem coarseStep_countKept (hj : j < 136) (apart : j ≠ i) (below : Nat) (s : State) :
    CountKept j s (coarseStep i below s).1 := by
  have compared (u : State) := compareTick_countKept hi hj apart u
  rw [coarseStep_eq]
  dsimp only
  generalize (if s.tbSrc i = 2 then below else 1) = n
  split_ifs
  · exact .trans _ _ _ ((periodCounted_timebases i s).countKept hi apart) (compared _)
  · exact .trans _ _ _ ((edgesCounted_timebases i _ s).countKept hi apart) (compared _)
  · exact (edgesCounted_timebases i _ s).countKept hi apart
  · exact .refl s

end

/-- The counting of other timebases. -/
theorem coarseChain_countKept {j : Nat} (hj : j < 136) :
    ∀ (n i below : Nat) (s : State), i + n ≤ 136 → j < i ∨ i + n ≤ j → CountKept j s (coarseChain s i below n)
  | 0, _, _, s, _, _ => .refl s
  | n + 1, i, below, s, fits, apart => by
    rw [coarseChain]
    exact .trans _ _ _ (coarseStep_countKept (by omega) hj (by omega) _ s)
      (coarseChain_countKept hj n (i + 1) _ _ (by omega) (by omega))

/-- A timebase among those counted: before its own step and after it, only others count. -/
theorem coarseChain_at {j : Nat} (hj : j < 136) :
    ∀ (n i below : Nat) (s : State), i + n ≤ 136 → i ≤ j → j < i + n →
      ∃ v b, CountKept j s v ∧ CountKept j (coarseStep j b v).1 (coarseChain s i below n)
  | 0, _, _, _, _, le, lt => by omega
  | n + 1, i, below, s, fits, le, lt => by
    rw [coarseChain]
    by_cases own : i = j
    · subst own
      exact ⟨s, _, .refl s, coarseChain_countKept hj n (i + 1) _ _ (by omega) (.inl (by omega))⟩
    · obtain ⟨v, b, before, after⟩ := coarseChain_at hj n (i + 1) _
        (coarseStep i (if chainLowest i then 0 else below) s).1 (by omega) (by omega) (by omega)
      exact ⟨v, b, .trans _ _ _ (coarseStep_countKept (by omega) hj (Ne.symm own) _ s) before, after⟩

/-! ## The step of a general timer on LFX (R130, R132) -/

theorem afterMatch_count (i : Nat) (s : State) : (afterMatch i s).tbCount i = s.tbCount i := by
  have put (u : State) {f : Fld} (hf : f.addr = Reg.TB_STAT) (v : Nat) : (u.put (tbKey i) f v).tbCount i = u.tbCount i := by
    rw [State.tbCount, u.reg_put_other _ _ _ (by rw [hf]; simp), State.tbCount]
  have cmp (u : State) (w : Word) : (u.setReg (tbKey i + Reg.TB_CMP) w).tbCount i = u.tbCount i := by
    rw [State.tbCount, u.reg_setReg_other _ (by simp), State.tbCount]
  unfold afterMatch
  dsimp only
  split_ifs
  · rw [put _ rfl, cmp, tbCount_setTimebase, put _ rfl]
  · rw [cmp, tbCount_setTimebase, put _ rfl]
  · rw [put _ rfl, tbCount_setTimebase, put _ rfl]

theorem compareTick_count {i : Nat} (hi : i < 136) (s : State) : (compareTick i s).tbCount i = s.tbCount i := by
  rw [compareTick_eq]
  split
  · rw [(tbEvent_countKept hi _).tbCount, afterMatch_count]
  · rfl

theorem tick_count (i : Nat) (s : State) : (tick i s).tbCount i = (s.tbCount i + 1) % 0x100000 := by
  unfold tick afterTick State.stampTick
  dsimp only
  rw [tbCount_setTimebase, tbCount_setTimebase, State.tbCount, State.reg_setReg, BitVec.toNat_ofNat]

/-- An LFX edge at the prescaler's last edge, short of a wrap, is a tick. -/
theorem coarseStep_lfx {i : Nat} {s : State} (timer : 128 ≤ i) (hi : i < 136) (runs : s.tbRuns i = true)
    (lfx : s.tbSrc i = 3) (last : (s.timebase i).left = 1) (short : s.tbCount i + 1 ≠ s.tbModulus i) (below : Nat) :
    (coarseStep i below s).1.tbCount i = (s.tbCount i + 1) % 0x100000 := by
  have edges : s.tbOnTref i = false := by
    unfold State.tbOnTref
    rw [lfx, decide_eq_false (show ¬ i < 128 by omega)]
    rfl
  have count : (edgesCounted i 1 s).tbCount i = (s.tbCount i + 1) % 0x100000 := by
    unfold edgesCounted
    dsimp only
    rw [tbCount_setTimebase, coarseEdges, State.timebase_setTimebase, last, if_neg (by decide), tbCount_setTimebase,
      tbModulus_setTimebase, if_neg short, coarseEdges, tick_count, tbCount_setTimebase]
  rw [coarseStep_eq, if_pos runs, edges, if_neg Bool.false_ne_true, lfx, if_neg (show ¬ 3 = 2 by decide)]
  dsimp only
  split
  · rw [compareTick_count hi, count]
  · exact count

/-! ## Time passes (R436, R656) -/

theorem powerState_le (s : State) : s.powerState ≤ 5 := by
  unfold State.powerState
  split
  · decide
  split
  · decide
  split
  · split <;> decide
  all_goals decide

theorem resState_le {s : State} {k : Nat} (known : s.resState = some k) : k ≤ 3 := by
  have := powerState_le s
  unfold State.resState at known
  split_ifs at known <;> (obtain rfl := Option.some.inj known; omega)

/-- What leaves the timebases and their registers, and what their counting goes by, is no matter to them. -/
theorem CountKept.of_apart {i : Nat} (hi : i < 136) {s t : State}
    (regs : ∀ k, k < 0x27E000 ∨ 0x280000 ≤ k → t.reg k = s.reg k) (timebases : t.timebases = s.timebases)
    (mode : t.power.mode = s.power.mode) (clock : t.trefRuns = s.trefRuns) (stewards : t.stewards = s.stewards)
    (owners : t.owners = s.owners) : CountKept i s t := by
  have low := tbKey_lt hi
  have reg {o : Nat} (ho : o < 0x20) : t.reg (tbKey i + o) = s.reg (tbKey i + o) := regs _ (.inl (by omega))
  refine ⟨fun o ho => reg (by omega), fun f hf _ => ?_, ⟨(s.timebase i).rise1, ?_⟩,
    tbRuns_congr (reg (o := 0) (by decide)) (fun timer => regs _ (.inr ?_)) mode clock stewards owners⟩
  · rw [State.get, reg (by rw [hf]; decide), State.get]
  · rw [State.timebase, timebases, ← State.timebase]
  · unfold tbKey oneKey Reg.GT_CTL
    rw [if_neg (by omega), if_neg (by omega)]
    omega

theorem countResidency_countKept {i : Nat} (hi : i < 136) (n : Nat) (s : State) : CountKept i s (countResidency n s) := by
  unfold countResidency
  split
  · exact .refl s
  · rename_i k known
    dsimp only
    set u := s.setPower { s.power with resFrac := (s.power.resFrac + n) % 12500000 } with hu
    have base : CountKept i s u := .of_apart hi (fun _ _ => rfl) rfl rfl rfl rfl rfl
    split
    · refine .trans _ _ _ base (.of_apart hi (fun j hj => ?_) ?_ ?_ ?_ ?_ ?_)
      · refine State.reg_setWide_other 2 u _ _ ?_
        have := resState_le known
        unfold oneKey Reg.PWR_RES
        omega
      all_goals
        obtain ⟨_, same⟩ := setWide_only 2 u (oneKey + Reg.PWR_RES + 2 * k)
          (min 0xFFFFFFFFFF (u.wide (oneKey + Reg.PWR_RES + 2 * k) 2 + (s.power.resFrac + n) / 12500000))
        rw [same]
    · exact base

theorem addTime_countKept {i : Nat} (hi : i < 136) (n : Nat) (s : State) : CountKept i s (addTime n s) :=
  .of_apart hi (fun _ _ => rfl) rfl rfl rfl rfl rfl

theorem lfxPass_countKept {i : Nat} (hi : i < 136) (s : State) : CountKept i s (lfxPass s) := by
  have clock (n p : Nat) : CountKept i s
      ({ s with tref := s.tref + n, stood := s.stood + n }.setPower { s.power with lfxPhase := p }) :=
    .of_apart hi (fun _ _ => rfl) rfl rfl rfl rfl rfl
  exact .trans _ _ _ (clock _ _) (countResidency_countKept hi _ _)

theorem timerCount_beyondBays {i : Nat} (timer : 128 ≤ i) : BeyondBays (tbKey i + Reg.TB_COUNT) := by
  refine ⟨?_, fun j _ o ho same => ?_⟩
  · unfold tbKey oneKey
    rw [if_neg (by omega), if_neg (by omega)]
    omega
  · have small : o < 0x20 ∧ o ≠ Reg.TB_COUNT := by
      clear same
      revert o
      decide
    exact small.2 (tbKey_add_inj (by decide) small.1 same).2.symm

end Sys2Proof.Machine
end

section
/-! PROOF. Timebases (O11). -/

namespace Sys2Proof.Machine

/-! ## Wraps (R112, R113) -/

/-- No copy of a timebase is in the chain of the other. -/
theorem not_mem_chainFrom {u : TbUnit} {i j : Nat} {s : State} (hi : i ∈ s.tbCopies u) (hj : j ∈ s.tbCopies u)
    (apart : j ≠ i) : i ∉ chainFrom j := by
  cases u with
  | gt g => exact absurd ((List.mem_singleton.mp hj).trans (List.mem_singleton.mp hi).symm) apart
  | bay n =>
    rintro ⟨le, cap⟩
    have := mem_tbCopies_bay hi
    have := mem_tbCopies_bay hj
    omega

theorem timebaseWrap_gives {u : TbUnit} {i : Nat} {s : State} (hi : i ∈ s.tbCopies u) (due : (s.timebase i).due = true)
    (current : (s.timebase i).overdue = 0) :
    Gives (.timebaseWrap u) s (fun t =>
      t.tbCount i = 0 ∧ (t.timebase i).due = false ∧ t.flag (tbKey i) Reg.TB_STAT_WRAP = true
        ∧ t.flag (tbKey i) Reg.TB_STAT_PEND = false
        ∧ (∀ w : Word, (s.timebase i).stagedPre = some w → t.reg (tbKey i + Reg.TB_PRE) = w)
        ∧ (∀ w : Word, (s.timebase i).stagedPer = some w → t.reg (tbKey i + Reg.TB_PER) = w)) := by
  obtain ⟨v, before, after⟩ := onTimebase_at (R := TimebaseKept i) (f := wrapTimebase) .refl hi
    fun j hj other v => (wrapChain_timebases 64 j v).kept (not_mem_chainFrom hi hj other)
  obtain ⟨count, made, wrap, pend, pre, per⟩ := wrapTick_gives i v
  have chain := wrapTimebase_kept (by rw [before.timebase, due]) (by rw [before.timebase, current])
  rw [before.timebase] at pre per
  refine .intro rfl ⟨?_, ?_, ?_, ?_, fun w staged => ?_, fun w staged => ?_⟩
  · rw [after.tbCount, chain.tbCount, count]
  · rw [after.timebase, chain.timebase, made]
  · rw [after.flag (by decide), chain.flag (by decide), wrap]
  · rw [after.flag (by decide), chain.flag (by decide), pend]
  · rw [after.reg (by decide), chain.reg (by decide), pre w staged]
  · rw [after.reg (by decide), chain.reg (by decide), per w staged]

/-! ## Staging (R113, R114) -/

section

variable {m : Master} {u : TbUnit} {i : Nat} {s : State} (hi : i ∈ s.tbCopies u) (ok : s.tbWriteOk m u = true)

theorem writePer_running {v : Word} (running : s.tbEn i = true) (other : v ≠ 1) :
    writeStaged i .per v s
      = (s.setTimebase i { s.timebase i with stagedPer := some v }).put (tbKey i) Reg.TB_STAT_PEND 1 := by
  rw [writeStaged, if_neg other, stage, running]
  rfl

theorem writePer_one : writeStaged i .per 1 s = s.put (tbKey i) Reg.TB_STAT_BAD 1 := rfl

include ok

theorem exec_timebaseStage (r : TbStaged) (v : Word) :
    exec (.timebaseStage m u r v) s = .next (s.onTimebase u fun i s => writeStaged i r v s) := by
  show execTimebaseStage m u r v s = _
  rw [execTimebaseStage, onTbWrite_accepted ok fun j w => (writeStaged_timebases j w r v).computes .B]

include hi

theorem stagePer_gives {v : Word} (running : s.tbEn i = true) (other : v ≠ 1) :
    Gives (.timebaseStage m u .per v) s (fun t =>
      (t.timebase i).stagedPer = some v ∧ t.flag (tbKey i) Reg.TB_STAT_PEND = true
        ∧ t.reg (tbKey i + Reg.TB_PER) = s.reg (tbKey i + Reg.TB_PER)) := by
  obtain ⟨w, before, after⟩ := onTimebase_kept hi fun j w => writeStaged_timebases j w .per v
  rw [writePer_running (before.tbEn.trans running) other] at after
  refine .intro (exec_timebaseStage ok .per v) ⟨?_, ?_, ?_⟩
  · rw [after.timebase, State.timebase, State.put_timebases, ← State.timebase, State.timebase_setTimebase]
  · rw [after.flag (by decide)]
    exact flag_put_one _ _ (by decide) rfl
  · rw [after.reg (by decide), State.reg_put_other _ _ _ _ (by simp), reg_setTimebase, before.reg (by decide)]

theorem stagePer_one_gives :
    Gives (.timebaseStage m u .per 1) s (fun t =>
      t.timebases = s.timebases ∧ t.flag (tbKey i) Reg.TB_STAT_BAD = true) := by
  obtain ⟨w, -, after⟩ := onTimebase_kept hi fun j w => writeStaged_timebases j w .per 1
  refine .intro (exec_timebaseStage ok .per 1) ⟨?_, ?_⟩
  · have bad (s : State) (j : Nat) : (writeStaged j .per 1 s).timebases = s.timebases := by
      rw [writePer_one, State.put_timebases]
    exact foldl_rel (fun s t => t.timebases = s.timebases) (fun _ => rfl) (fun _ _ _ h1 h2 => h2.trans h1) _ bad _ s
  · rw [after.flag (by decide), writePer_one]
    exact flag_put_one _ _ (by decide) rfl

end

/-! ## Enabling (R114, R115, R145) -/

section

variable (i : Nat) (s : State)

theorem setEnable_running {i : Nat} {s : State} (running : s.tbEn i = true) : setEnable i true s = s := by
  rw [setEnable, if_pos running.symm]

/-- A stopped timebase starts from its count, the first tick N source edges away. -/
theorem setEnable_stopped {i : Nat} {s : State} (stopped : s.tbEn i = false) :
    setEnable i true s =
      let started := (s.put (tbKey i) Reg.TB_CTL_EN 1).setTimebase i
        { s.timebase i with acc := 0, left := s.tbN i, frac := 0, due := false, overdue := 0, ticked := false,
                            tickAt := s.tref }
      if (decide (s.tbSrc i = 2) && chainLowest i) || (decide (i < 128) && decide (s.tbSrc i = 3)) then
        started.put (tbKey i) Reg.TB_STAT_BAD 1
      else started := by
  rw [setEnable, stopped]
  rfl

theorem setEnable_timebases : TimebasesOnly {i} s (setEnable i true s) := by
  cases running : s.tbEn i with
  | true => rw [setEnable_running running]; exact .refl s
  | false =>
    rw [setEnable_stopped running]
    dsimp only
    split
    · exact .trans _ _ _ (.put (by decide) s 1) (.trans _ _ _ (.setTimebase _ _) (.put (by decide) _ 1))
    · exact .trans _ _ _ (.put (by decide) s 1) (.setTimebase _ _)

theorem setEnable_gives {i : Nat} {s : State} (stopped : s.tbEn i = false) :
    (setEnable i true s).tbEn i = true ∧ ((setEnable i true s).timebase i).left = s.tbN i
      ∧ ((setEnable i true s).timebase i).acc = 0 ∧ (setEnable i true s).tbCount i = s.tbCount i := by
  set started := (s.put (tbKey i) Reg.TB_CTL_EN 1).setTimebase i
    { s.timebase i with acc := 0, left := s.tbN i, frac := 0, due := false, overdue := 0, ticked := false,
                        tickAt := s.tref } with hstarted
  have enabled : started.tbEn i = true := flag_put_one s (tbKey i) (f := Reg.TB_CTL_EN) (by decide) rfl
  have entry := State.timebase_setTimebase (s.put (tbKey i) Reg.TB_CTL_EN 1) i
    { s.timebase i with acc := 0, left := s.tbN i, frac := 0, due := false, overdue := 0, ticked := false,
                        tickAt := s.tref }
  rw [← hstarted] at entry
  have count : started.tbCount i = s.tbCount i := by
    rw [hstarted, tbCount_setTimebase, State.tbCount, State.reg_put_other _ _ _ _ (by simp), State.tbCount]
  rw [setEnable_stopped stopped]
  dsimp only
  rw [← hstarted]
  split
  · refine ⟨?_, ?_, ?_, ?_⟩
    · rw [State.tbEn, State.flag, State.get_put_other _ _ _ _ _ _ (by simp), ← State.flag, ← State.tbEn, enabled]
    · exact (congrArg Timebase.left entry :)
    · exact (congrArg Timebase.acc entry :)
    · rw [State.tbCount, State.reg_put_other _ _ _ _ (by simp), ← State.tbCount, count]
  · exact ⟨enabled, congrArg Timebase.left entry, congrArg Timebase.acc entry, count⟩

/-- The slots of a timebase that has just been enabled do not come to rest. -/
theorem restBay_setEnable : restBay i (setEnable i true s) = setEnable i true s := by
  have enabled : (setEnable i true s).tbEn i = true := by
    cases running : s.tbEn i with
    | true => rw [setEnable_running running, running]
    | false => exact (setEnable_gives running).1
  rw [restBay, enabled, if_neg (by simp)]

end

theorem timebaseEnable_gives {m : Master} {u : TbUnit} {i : Nat} {s : State} (hi : i ∈ s.tbCopies u)
    (ok : s.tbWriteOk m u = true) (stopped : s.tbEn i = false) :
    Gives (.timebaseEnable m u true) s (fun t =>
      t.tbEn i = true ∧ (t.timebase i).left = s.tbN i ∧ (t.timebase i).acc = 0 ∧ t.tbCount i = s.tbCount i) := by
  have enables : exec (.timebaseEnable m u true) s = .next (s.onTimebase u fun i s => setEnable i true s) := by
    show execTimebaseEnable m u true s = _
    simp only [execTimebaseEnable, restBay_setEnable]
    rw [onTbWrite_accepted ok fun j w => (setEnable_timebases j w).computes .B]
  obtain ⟨w, before, after⟩ := onTimebase_kept hi setEnable_timebases
  obtain ⟨enabled, left, acc, count⟩ := setEnable_gives (before.tbEn.trans stopped)
  refine .intro enables ⟨?_, ?_, ?_, ?_⟩
  · rw [after.tbEn, enabled]
  · rw [after.timebase, left, before.tbN]
  · rw [after.timebase, acc]
  · rw [after.tbCount, count, before.tbCount]

/-! ## The snapshot of a chain (R118) -/

theorem chainSnapshotRead_gives {m : Master} {g : Fin 8} {s : State} (below : g.val < 7)
    (chained : s.tbSrc (129 + g.val) = 2) :
    Gives (.chainSnapshotRead m (.gt g)) s (fun t =>
      t.reg (tbKey (129 + g.val) + Reg.TB_SNAP) = s.reg (tbKey (129 + g.val) + Reg.TB_COUNT)
        ∧ RegsKeptBut (fun k => k == tbKey (129 + g.val) + Reg.TB_SNAP) s t ∧ t = { s with regs := t.regs }) := by
  have above : chainUpper (128 + g.val) = some (129 + g.val) := by
    rw [chainUpper, if_neg (by omega), if_neg (by omega)]
    exact congrArg some (by omega)
  have read : exec (.chainSnapshotRead m (.gt g)) s
      = .next (s.setReg (tbKey (129 + g.val) + Reg.TB_SNAP) (s.reg (tbKey (129 + g.val) + Reg.TB_COUNT))) := by
    show execChainSnapshotRead m (.gt g) s = _
    rw [execChainSnapshotRead, State.tbRead, readCount, above]
    exact congrArg Host.Outcome.next (if_pos chained)
  refine .intro read ⟨State.reg_setReg _ _ _, fun k other => s.reg_setReg_other _ ?_, rfl⟩
  simpa using other

/-! ## An LFX edge in SLEEP (R130, R132) -/

/-- Past the steps of the general timers an LFX edge leaves the count of each. -/
theorem coarseEdge_count {i : Nat} (timer : 128 ≤ i) (hi : i < 136) (s : State) :
    ∃ v b, CountKept i s v ∧ (coarseEdge s).tbCount i = (coarseStep i b v).1.tbCount i := by
  have copies {h : Half} {n : Nat} (fits : n + 64 ≤ 128) (u : State) :
      CountKept i u (if u.computes h then coarseChain u n 0 64 else u) := by
    split
    · exact coarseChain_countKept hi 64 n 0 u (by omega) (.inr (by omega))
    · exact .refl u
  unfold coarseEdge
  dsimp only
  set a := if s.computes .A then coarseChain s 0 0 64 else s with ha
  set b := if a.computes .B then coarseChain a 64 0 64 else a with hb
  have bays : CountKept i s b := .trans _ _ _ (copies (by decide) s) (copies (by decide) a)
  obtain ⟨v, below, before, after⟩ := coarseChain_at hi 8 128 0 b (by decide) timer (by omega)
  refine ⟨v, below, .trans _ _ _ bays before, ?_⟩
  rw [State.tbCount, reg_sleepBands (timerCount_beyondBays timer), ← State.tbCount, after.tbCount]

theorem lfxEdgeCoarse_gives {i : Nat} {s : State} (timer : 128 ≤ i) (hi : i < 136) (sleeps : s.power.mode = .sleep)
    (runs : s.tbRuns i = true) (lfx : s.tbSrc i = 3) (last : (s.timebase i).left = 1)
    (short : s.tbCount i + 1 ≠ s.tbModulus i) :
    Gives .lfxEdgeCoarse s (fun t => t.tbCount i = (s.tbCount i + 1) % 0x100000) := by
  have passed : exec .lfxEdgeCoarse s = .next (coarseEdge (addTime lfxUnits (lfxPass s))) := by
    show execLfxEdgeCoarse s = _
    rw [execLfxEdgeCoarse, if_pos sleeps]
  obtain ⟨v, below, counted, count⟩ := coarseEdge_count timer hi (addTime lfxUnits (lfxPass s))
  have kept : CountKept i s v := .trans _ _ _ (.trans _ _ _ (lfxPass_countKept hi s) (addTime_countKept hi _ _)) counted
  refine .intro passed ?_
  rw [count, coarseStep_lfx timer hi (kept.runs.trans runs) (kept.tbSrc.trans lfx) (kept.left.trans last)
    (by rw [kept.tbCount, kept.tbModulus]; exact short), kept.tbCount]

/-- Settles O11: each copy of a timebase wraps, stages and starts as if it were alone, its chain having only timebases above
it; in SLEEP every timebase counts by itself, and neither a pulse nor a terminal's band changes a general timer's count. -/
theorem timebasesCountAndStage : Obligations.TimebasesCountAndStage :=
  ⟨fun _ _ _ hi due current => timebaseWrap_gives hi due current,
    fun _ _ _ _ _ hi ok running other => stagePer_gives hi ok running other,
    fun _ _ _ _ hi ok => stagePer_one_gives hi ok,
    fun _ _ _ _ hi ok stopped => timebaseEnable_gives hi ok stopped,
    fun _ _ _ below chained => chainSnapshotRead_gives below chained,
    fun _ _ sleeps runs lfx last short => lfxEdgeCoarse_gives (by omega) (by omega) sleeps runs lfx last short⟩

end Sys2Proof.Machine
end

section
/-! SUPPORT. What a record of a bay changes (R323 to R340): the engines' queues, the channels, the bushels and registers of the
engines' block. Everything else stays. -/

namespace Sys2Proof.Machine

/-- The registers of half h's compression engines, CE_STAT to the counters (R324, R343). -/
def codingKeys (h : Half) : Set Nat := Set.Ico (halfKey h + 0x800) (halfKey h + 0x820)

/-- What coding in half h leaves alone: the state without what it codes in, and a register that is none of the engines'. -/
def State.apartCoding (h : Half) (k : ((codingKeys h)ᶜ : Set Nat)) (s : State) : State × Word :=
  ({ s with regs := [], coders := [], codeHalves := [], chans := [], bushels := [] }, s.reg k)

section

variable (h : Half) (k : ((codingKeys h)ᶜ : Set Nat)) (s : State)

@[simp] theorem apartCoding_setChan (c : Nat) (x : Chan) : (s.setChan c x).apartCoding h k = s.apartCoding h k := (rfl)
@[simp] theorem apartCoding_setCoder (e : Nat) (x : Coder) : (s.setCoder h e x).apartCoding h k = s.apartCoding h k := (rfl)
@[simp] theorem apartCoding_setCodeHalf (x : CodeHalf) : (s.setCodeHalf h x).apartCoding h k = s.apartCoding h k := (rfl)
@[simp] theorem apartCoding_setOpen (c : Nat) (x : Bushel) : (s.setOpen h c x).apartCoding h k = s.apartCoding h k := (rfl)
@[simp] theorem apartCoding_closeOpen (c : Nat) : (s.closeOpen h c).apartCoding h k = s.apartCoding h k := (rfl)

theorem apartCoding_setReg {j : Nat} (hj : j ∈ codingKeys h) (w : Word) :
    (s.setReg j w).apartCoding h k = s.apartCoding h k :=
  congrArg (Prod.mk _) (s.reg_setReg_other w fun same => k.2 (same ▸ hj))

@[simp] theorem apartCoding_count (n : Nat) :
    (s.count (halfKey h + Reg.CE_CNT) n).apartCoding h k = s.apartCoding h k :=
  apartCoding_setReg h k s (by simp [codingKeys, Reg.CE_CNT]) _

@[simp] theorem apartCoding_count_add {o : Nat} (ho : o < 0x10) (n : Nat) :
    (s.count (halfKey h + Reg.CE_CNT + o) n).apartCoding h k = s.apartCoding h k :=
  apartCoding_setReg h k s (by simp only [codingKeys, Reg.CE_CNT, Set.mem_Ico]; omega) _

@[simp] theorem apartCoding_put {f : Fld} (hf : f.addr = 0x800) (v : Nat) :
    (s.put (halfKey h) f v).apartCoding h k = s.apartCoding h k :=
  apartCoding_setReg h k s (by simp [codingKeys, hf]) _

@[simp] theorem apartCoding_openChan (c : Nat) (records : Bool) (set : CodeSet) (chg : Bool) (t enter : Nat) :
    (openChan h c records set chg t enter s).apartCoding h k = s.apartCoding h k := by
  unfold openChan State.opened
  dsimp only
  split <;> simp

@[simp] theorem apartCoding_sealBushel (c : Nat) (flush full : Bool) :
    (sealBushel h c flush full s).apartCoding h k = s.apartCoding h k := by
  unfold sealBushel
  split
  · rfl
  · dsimp only
    rw [apply_ite (State.apartCoding h k)]
    simp

@[simp] theorem apartCoding_storeItem (i : Item) (rest : List Item) (x : Bushel) :
    (storeItem h i rest x s).apartCoding h k = s.apartCoding h k := by
  unfold storeItem countInput
  dsimp only
  split <;> simp

@[simp] theorem apartCoding_storeRecord (r : Rec) (rest : List Rec) (x : Bushel) :
    (storeRecord h r rest x s).apartCoding h k = s.apartCoding h k := by
  simp [storeRecord, countInput]

@[simp] theorem apartCoding_codeItem (i : Item) (before after : List Item) :
    (codeItem h i before after s).apartCoding h k = s.apartCoding h k := by
  unfold codeItem
  split
  · dsimp only
    split_ifs <;> simp
  · dsimp only
    split <;> simp

@[simp] theorem apartCoding_codeRecord (r : Rec) (rest : List Rec) :
    (codeRecord h r rest s).apartCoding h k = s.apartCoding h k := by
  unfold codeRecord
  split
  · dsimp only
    split_ifs <;> simp
  · dsimp only
    split <;> simp

@[simp] theorem apartCoding_codeItems (c : Nat) (before : Option Nat) (force : Bool) (n : Nat) :
    ∀ s : State, (codeItems h c before force n s).apartCoding h k = s.apartCoding h k := by
  induction n with
  | zero => exact fun _ => rfl
  | succ n ih =>
    intro s
    rw [codeItems]
    split
    · rw [apply_ite (State.apartCoding h k), ih, apartCoding_codeItem, ite_self]
    · rfl

@[simp] theorem apartCoding_codeRecords (c : Nat) (before : Option Nat) (force : Bool) (n : Nat) :
    ∀ s : State, (codeRecords h c before force n s).apartCoding h k = s.apartCoding h k := by
  induction n with
  | zero => exact fun _ => rfl
  | succ n ih =>
    intro s
    rw [codeRecords]
    split
    · rw [apply_ite (State.apartCoding h k), ih, apartCoding_codeRecord, ite_self]
    · rfl

@[simp] theorem apartCoding_enterChan (c : Nat) (records : Bool) (set : CodeSet) (chg : Bool) (t : Nat) :
    (enterChan h c records set chg t s).apartCoding h k = s.apartCoding h k := by
  unfold enterChan sealChan codeWaiting
  dsimp only
  split_ifs <;> simp

/-- A record of a bay changes what its half's engines code in, and their registers. -/
theorem apartCoding_bayRecord (b : Nat) (en : Fld) (rtype : Nat) (payload : List Byte) :
    (bayRecord h b en rtype payload s).apartCoding h k = s.apartCoding h k := by
  unfold bayRecord pushRecord
  dsimp only
  split_ifs <;> simp

end

end Sys2Proof.Machine
end

section
/-! SUPPORT. What the copy of a terminal changes in one half (R140 to R200), and so what it leaves of everything else: the other
half's copies, other terminals, pads, seats, clocks. -/

namespace Sys2Proof.Machine

/-- Registers that keep records, captures and the envelope's actions, and by which no terminal and no timebase goes: those of
the compression engines, the marks and the second capture unit of a timebase, ENV_LAST and ENV_BAYCNT of a bay. -/
def logKeys : Set Nat :=
  {k | (∃ h, k ∈ codingKeys h) ∨ (∃ i < 136, ∃ o ∈ [Reg.TB_STAT, 0x15, 0x16, 0x17], k = tbKey i + o)
    ∨ ∃ b < 64, k = padKey b + Reg.ENV_LAST ∨ k = padKey b + Reg.ENV_BAYCNT}

/-- The state without the parts in which terminals, their records and their events keep anything. -/
def State.bare (s : State) : State :=
  { s with
    regs := [], consumers := [], timebases := [], slots := [], mirrors := [], coders := [], codeHalves := [], chans := [],
    bushels := [], ports := [], power := { s.power with matrixWake := false } }

/-- What is left alone where only registers of P and slots of S are worked on, and where records and pulses follow: the other
parts of the state, the other registers and slots, and all of a timebase but whether its second unit holds a RISE. -/
def State.apart (P S : Set Nat) (s : State) :
    State × ({k // k ∉ P ∧ k ∉ logKeys} → Word) × (Nat → Timebase) × ({j // j ∉ S} → Slot) :=
  (s.bare, fun k => s.reg k.1, fun i => { s.timebase i with rise1 := false }, fun j => tblGet s.slots Slot.reset j.1)

section

variable {P S : Set Nat} {s t : State}

theorem apart_of_log (bare : t.bare = s.bare) (regs : ∀ k ∉ logKeys, t.reg k = s.reg k)
    (timebases : ∀ i, ∃ r, t.timebase i = { s.timebase i with rise1 := r }) (slots : t.slots = s.slots) :
    t.apart P S = s.apart P S := by
  refine Prod.ext bare (Prod.ext (funext fun k => regs _ k.2.2) (Prod.ext (funext fun i => ?_) ?_))
  · obtain ⟨r, same⟩ := timebases i
    show { t.timebase i with rise1 := false } = { s.timebase i with rise1 := false }
    rw [same]
  · show (fun j : {j // j ∉ S} => tblGet t.slots Slot.reset j.1) = fun j => tblGet s.slots Slot.reset j.1
    rw [slots]

/-! ## What follows from it -/

variable (h : t.apart P S = s.apart P S)
include h

theorem bare_of_apart : t.bare = s.bare := congrArg (fun v => v.1) h

theorem reg_of_apart {k : Nat} (other : k ∉ P) (plain : k ∉ logKeys) : t.reg k = s.reg k :=
  congrFun (congrArg (fun v => v.2.1) h) ⟨k, other, plain⟩

theorem timebase_of_apart (i : Nat) : { t.timebase i with rise1 := false } = { s.timebase i with rise1 := false } :=
  congrFun (congrArg (fun v => v.2.2.1) h) i

theorem slot_of_apart {x : Half} {n : Nat} (other : slotIx x n ∉ S) : t.slot x n = s.slot x n :=
  congrFun (congrArg (fun v => v.2.2.2) h) ⟨_, other⟩

theorem apart_mono {Q R : Set Nat} (regs : P ⊆ Q) (slots : S ⊆ R) : t.apart Q R = s.apart Q R := by
  refine Prod.ext (bare_of_apart h) (Prod.ext (funext fun k => ?_)
    (Prod.ext (funext (timebase_of_apart h)) (funext fun j => ?_)))
  · exact reg_of_apart h (fun m => k.2.1 (regs m)) k.2.2
  · exact congrFun (congrArg (fun v => v.2.2.2) h) ⟨_, fun m => j.2 (slots m)⟩

theorem get_of_apart {b : Nat} {f : Fld} (other : b + f.addr ∉ P) (plain : b + f.addr ∉ logKeys) :
    t.get b f = s.get b f := by
  rw [State.get, reg_of_apart h other plain, State.get]

theorem flag_of_apart {b : Nat} {f : Fld} (other : b + f.addr ∉ P) (plain : b + f.addr ∉ logKeys) :
    t.flag b f = s.flag b f := by
  rw [State.flag, get_of_apart h other plain, State.flag]

end

/-! ## Writes, records and pulses -/

section

variable {P S : Set Nat} (s : State)

theorem apart_setReg {k : Nat} (hk : k ∈ P ∨ k ∈ logKeys) (w : Word) : (s.setReg k w).apart P S = s.apart P S := by
  refine Prod.ext rfl (Prod.ext (funext fun j => s.reg_setReg_other w ?_) rfl)
  intro same
  rcases hk with hk | hk
  · exact j.2.1 (same ▸ hk)
  · exact j.2.2 (same ▸ hk)

theorem apart_put {b : Nat} {f : Fld} (hk : b + f.addr ∈ P) (v : Nat) : (s.put b f v).apart P S = s.apart P S :=
  apart_setReg s (.inl hk) _

theorem apart_count {k : Nat} (hk : k ∈ P) (n : Nat) : (s.count k n).apart P S = s.apart P S := apart_setReg s (.inl hk) _

theorem apart_setSlot {h : Half} {t : Nat} (own : slotIx h t ∈ S) (x : Slot) :
    (s.setSlot h t x).apart P S = s.apart P S := by
  refine Prod.ext rfl (Prod.ext rfl (Prod.ext rfl (funext fun j => ?_)))
  exact tblGet_tblSet_other _ _ _ fun same => j.2 (same ▸ own)

@[simp] theorem apart_noteBand (h : Half) (t was : Nat) : (noteBand h t was s).apart P S = s.apart P S := by
  unfold noteBand
  dsimp only
  split <;> rfl

@[simp] theorem apart_noteFrame (h : Half) (b : Nat) (w : Word) : (noteFrame h b w s).apart P S = s.apart P S := (rfl)

@[simp] theorem apart_noteRange (t st frame : Nat) : (noteRange t st frame s).apart P S = s.apart P S := (rfl)

@[simp] theorem apart_bayRecord (h : Half) (b : Nat) (en : Fld) (rtype : Nat) (payload : List Byte) :
    (bayRecord h b en rtype payload s).apart P S = s.apart P S := by
  have kept (k : ((codingKeys h)ᶜ : Set Nat)) := apartCoding_bayRecord h k s b en rtype payload
  have rest := congrArg Prod.fst (kept ⟨0, by simp [codingKeys]⟩)
  refine apart_of_log ?_ (fun k hk => congrArg Prod.snd (kept ⟨k, fun m => hk (.inl ⟨h, m⟩)⟩)) (fun i => ?_)
    (congrArg State.slots rest :)
  · exact (congrArg State.bare rest :)
  · exact ⟨(s.timebase i).rise1, (congrArg (fun u => State.timebase u i) rest :)⟩

@[simp] theorem apart_raiseBayEvent (h : Half) (b : Nat) (e : BayEvent) :
    (raiseBayEvent h b e s).apart P S = s.apart P S := by
  have captures := raiseBayEvent_captures h b e s
  obtain ⟨r, c, i, w, only⟩ := raiseBayEvent_only h b e s
  refine apart_of_log (by rw [only]; rfl) (fun k hk => captures.regs k fun i hi o ho same => ?_) captures.timebase
    (by rw [only])
  exact hk (.inr (.inl ⟨i, hi, o, ho, same⟩))

end

end Sys2Proof.Machine
end

section
/-! SUPPORT. What each act on a terminal's copy leaves: of its own registers an act writes few. -/

namespace Sys2Proof.Machine

/-- The registers in which a copy of a terminal keeps its books: TS_STAT, TS_LEDGER, TS_LOST, TD_STAT, TD_AGE, TD_EXCESS. -/
def books (h : Half) (t : Nat) : Set Nat :=
  {k | (∃ o ∈ [0x7, 0xB, 0xD, 0xF], k = termKey h t + o) ∨ k = ageKey h t ∨ k = excessKey h t}

/-- All registers of a copy of a terminal (R32, R178). -/
def termPage (h : Half) (t : Nat) : Set Nat :=
  {k | (∃ o < 0x10, k = termKey h t + o) ∨ k = ageKey h t ∨ k = excessKey h t}

theorem books_subset_termPage (h : Half) (t : Nat) : books h t ⊆ termPage h t := by
  rintro k (⟨o, ho, rfl⟩ | hk)
  · refine .inl ⟨o, ?_, rfl⟩
    revert o
    decide
  · exact .inr hk

/-- A request of a slot wants a window and has passed its 1 s mark (R157). -/
def State.wantsWindow (s : State) (h : Half) (t : Nat) : Bool :=
  match (s.slot h t).talk with
  | some r => (r.marked || decide (r.accepted + 200000000 ≤ s.onTref)) && !r.running
  | none => false

/-- The on-time of a period without a talk borrow: a repayment, a proof, or the commanded one (R158, R180, R182). -/
def repayOrProve (h : Half) (t cmd maxon : Nat) (s : State) : Nat × State :=
  match (s.slot h t).repay with
  | .borrow d n => if 0 < s.ledger h t then repayBorrow h t d n cmd maxon s else (cmd, s)
  | .proof e n => if s.ledger h t < 0 then repayProof h t e n cmd s else (cmd, s)
  | .none =>
    if s.proofDue h t cmd then
      if maxon < s.ticksUp (tbOf h t) 1200 then (cmd, s.put (termKey h t) Reg.TD_STAT_PRV_SKIP 1)
      else
        (max cmd (s.ticksUp (tbOf h t) 1200),
          (s.put (termKey h t) Reg.TD_STAT_PROVING 1).setSlot h t { s.slot h t with proving := some cmd })
    else (cmd, s)

theorem applyLedger_eq (h : Half) (t cmd maxon : Nat) (s : State) :
    applyLedger h t cmd maxon s =
      if s.wantsWindow h t && decide (s.ledger h t = 0) && decide (0 < s.borrowTicks h t cmd) && s.canBorrow h t then
        borrow h t (s.borrowTicks h t cmd) cmd s
      else repayOrProve h t cmd maxon s := rfl

section

variable {P S : Set Nat} {h : Half} {t : Nat} (s : State)

/-! ## Health and the envelope's actions (R176, R177, R193) -/

@[simp] theorem apart_refreshHealth (stat : termKey h t + Reg.TD_STAT ∈ P) :
    (refreshHealth h t s).apart P S = s.apart P S := by
  unfold refreshHealth
  dsimp only
  split
  · rfl
  · rw [apart_raiseBayEvent, apart_bayRecord, apart_put _ stat, apart_put _ stat]

/-- Beyond the marks in TD_STAT an action of the envelope shows in its log alone. -/
theorem apart_envelopeAction_marks (ht : t < 1024) (fs : List Fld) (cause : Nat) :
    (envelopeAction h t fs cause s).apart P S = (fs.foldl (fun s f => s.put (termKey h t) f 1) s).apart P S := by
  have logs (u : State) {o : Nat} (ho : o = Reg.ENV_LAST ∨ o = Reg.ENV_BAYCNT) (w : Word) :
      (u.setReg (padKey (t / 16) + o) w).apart P S = u.apart P S :=
    apart_setReg u (.inr (.inr (.inr ⟨t / 16, by omega, by rcases ho with rfl | rfl <;> simp⟩))) w
  have counts (u : State) : (u.count (padKey (t / 16) + Reg.ENV_BAYCNT) 1).apart P S = u.apart P S :=
    logs u (.inr rfl) _
  unfold envelopeAction
  dsimp only
  split_ifs
  · rw [apart_raiseBayEvent, apart_bayRecord, logs _ (.inl rfl), counts]
  · rw [logs _ (.inl rfl), counts]
  · rfl

@[simp] theorem apart_envelopeAction (ht : t < 1024) {fs : List Fld} (hfs : ∀ f ∈ fs, f.addr = Reg.TD_STAT)
    (stat : termKey h t + Reg.TD_STAT ∈ P) (cause : Nat) :
    (envelopeAction h t fs cause s).apart P S = s.apart P S := by
  rw [apart_envelopeAction_marks s ht]
  induction fs generalizing s with
  | nil => rfl
  | cons f fs ih =>
    rw [List.foldl_cons, ih _ fun g hg => hfs g (List.mem_cons_of_mem _ hg),
      apart_put _ (by rw [hfs f List.mem_cons_self]; exact stat)]

/-! ## Proofs and pulses held (R181, R185, R190) -/

@[simp] theorem apart_dropProof (stat : termKey h t + Reg.TD_STAT ∈ P) (excess : excessKey h t ∈ P)
    (own : slotIx h t ∈ S) : (dropProof h t s).apart P S = s.apart P S := by
  unfold dropProof
  dsimp only
  split
  · rfl
  · split
    · rw [apart_put _ stat, apart_count _ excess, apart_setSlot _ own, apart_put _ stat]
    · rw [apart_setSlot _ own, apart_put _ stat]

@[simp] theorem apart_suppress (ht : t < 1024) (stat : termKey h t + Reg.TD_STAT ∈ P) (excess : excessKey h t ∈ P)
    (own : slotIx h t ∈ S) : (suppress h t s).apart P S = s.apart P S := by
  unfold suppress
  dsimp only
  rw [apart_setSlot _ own, apart_envelopeAction _ ht (by simp) stat, apart_dropProof _ stat excess own]

/-! ## The books (R158, R176, R182) -/

section

variable (keeps : books h t ⊆ P)
include keeps

theorem book_mem {o : Nat} (ho : o ∈ [0x7, 0xB, 0xD, 0xF]) : termKey h t + o ∈ P := keeps (.inl ⟨o, ho, rfl⟩)

theorem age_mem : ageKey h t ∈ P := keeps (.inr (.inl rfl))

theorem excess_mem : excessKey h t ∈ P := keeps (.inr (.inr rfl))

theorem stat_mem : termKey h t + Reg.TD_STAT ∈ P := book_mem keeps (by decide)

theorem apart_put_book {f : Fld} (hf : f.addr ∈ [0x7, 0xB, 0xD, 0xF]) (v : Nat) :
    (s.put (termKey h t) f v).apart P S = s.apart P S :=
  apart_put s (book_mem keeps hf) v

theorem apart_setLedger (v : Int) : (s.setLedger h t v).apart P S = s.apart P S :=
  apart_setReg s (.inl (book_mem keeps (o := Reg.TS_LEDGER) (by decide))) _

theorem apart_count_lost (n : Nat) : (s.count (termKey h t + Reg.TS_LOST) n).apart P S = s.apart P S :=
  apart_count s (book_mem keeps (by decide)) n

theorem apart_count_excess (n : Nat) : (s.count (excessKey h t) n).apart P S = s.apart P S :=
  apart_count s (excess_mem keeps) n

theorem apart_takeEvidence (cls : Nat) : (takeEvidence h t cls s).apart P S = s.apart P S := by
  rw [takeEvidence, apart_refreshHealth _ (stat_mem keeps), apart_setReg _ (.inl (age_mem keeps)),
    apart_put_book _ keeps (by decide)]

theorem apart_limitOn (ht : t < 1024) (on prev : Nat) : (limitOn h t on prev s).2.apart P S = s.apart P S := by
  have marks (duty slew : Bool) : ∀ f ∈ (if duty then [Reg.TD_STAT_CLIP_DUTY] else [])
      ++ (if slew then [Reg.TD_STAT_CLIP_SLEW] else []), f.addr = Reg.TD_STAT := by
    cases duty <;> cases slew <;> decide
  unfold limitOn
  dsimp only
  rw [apply_ite (State.apart P S), apart_envelopeAction s ht (marks _ _) (stat_mem keeps), ite_self]

variable (own : slotIx h t ∈ S)
include own

theorem apart_missTelemetry : (missTelemetry h t s).apart P S = s.apart P S := by
  unfold missTelemetry
  dsimp only
  split
  · rw [apart_setSlot _ own, apart_put_book _ keeps (by decide)]
  · rfl

theorem apart_endProof : (endProof h t s).apart P S = s.apart P S := by
  unfold endProof
  dsimp only
  split
  · rfl
  · rw [apart_setSlot _ own, apart_put_book _ keeps (by decide), apart_count_excess _ keeps]
  · split
    · rw [apart_setSlot _ own, apart_setLedger _ keeps]
    · rw [apart_setSlot _ own, apart_put_book _ keeps (by decide)]

theorem apart_repayBorrow (d n cmd maxon : Nat) : (repayBorrow h t d n cmd maxon s).2.apart P S = s.apart P S := by
  unfold repayBorrow
  dsimp only
  split_ifs <;>
    simp [apart_setSlot _ own, apart_setLedger _ keeps, apart_count_lost _ keeps, apart_put_book _ keeps]

theorem apart_repayProof (e n cmd : Nat) : (repayProof h t e n cmd s).2.apart P S = s.apart P S := by
  unfold repayProof
  dsimp only
  split_ifs <;>
    simp [apart_setSlot _ own, apart_setLedger _ keeps, apart_count_excess _ keeps, apart_put_book _ keeps]

theorem apart_repayOrProve (cmd maxon : Nat) : (repayOrProve h t cmd maxon s).2.apart P S = s.apart P S := by
  unfold repayOrProve
  split
  · rw [apply_ite (fun r : Nat × State => r.2.apart P S), apart_repayBorrow s keeps own, ite_self]
  · rw [apply_ite (fun r : Nat × State => r.2.apart P S), apart_repayProof s keeps own, ite_self]
  · split_ifs
    · exact apart_put_book s keeps (by decide) _
    · rw [apart_setSlot _ own, apart_put_book _ keeps (by decide)]
    · rfl

theorem apart_applyLedger (cmd maxon : Nat) : (applyLedger h t cmd maxon s).2.apart P S = s.apart P S := by
  rw [applyLedger_eq]
  split
  · unfold borrow
    dsimp only
    rw [apart_setSlot _ own, apart_put_book _ keeps (by decide), apart_setLedger _ keeps]
  · exact apart_repayOrProve s keeps own cmd maxon

end

/-! ## Slots (R143, R149, R150) -/

section

variable (own : slotIx h t ∈ S)
include own

theorem apart_startPulse : (startPulse h t s).apart P S = s.apart P S := by
  unfold startPulse
  dsimp only
  split_ifs <;> exact apart_setSlot s own _

theorem apart_startOff : (startOff h t s).apart P S = s.apart P S := by
  unfold startOff
  dsimp only
  split_ifs <;> exact apart_setSlot s own _

theorem apart_delayProbe : (delayProbe h t s).apart P S = s.apart P S := apart_setSlot s own _

theorem apart_startTalk : (startTalk h t s).apart P S = s.apart P S := by
  unfold startTalk
  dsimp only
  split
  · rw [apart_noteFrame, apart_setSlot _ own]
  · rfl

end

/-! ## All that a copy of a terminal does -/

section

variable (page : termPage h t ⊆ P) (own : slotIx h t ∈ S)
include page

theorem term_mem {o : Nat} (ho : o < 0x10) : termKey h t + o ∈ P := page (.inl ⟨o, ho, rfl⟩)

theorem apart_put_term {f : Fld} (hf : f.addr < 0x10) (v : Nat) : (s.put (termKey h t) f v).apart P S = s.apart P S :=
  apart_put s (term_mem page hf) v

theorem books_subset : books h t ⊆ P := (books_subset_termPage h t).trans page

include own

theorem apart_commitSample : (commitSample h t s).apart P S = s.apart P S := by
  unfold commitSample
  dsimp only
  split
  · rfl
  · rw [apart_takeEvidence _ (books_subset page), apart_setSlot _ own]
    split <;> simp [apart_put_term _ page]

theorem apart_probeSample (code : Nat) : (probeSample h t code s).apart P S = s.apart P S := by
  unfold probeSample
  dsimp only
  rw [apart_takeEvidence _ (books_subset page), apart_setSlot _ own]
  split <;> simp [apart_put_term _ page]

theorem apart_closeSample : (closeSample h t s).apart P S = s.apart P S := by
  rw [closeSample, apart_missTelemetry _ (books_subset page) own, apart_commitSample s page own]

theorem apart_fallCopy : (fallCopy h t s).apart P S = s.apart P S := by
  rw [fallCopy, apart_startOff _ own, apart_setSlot _ own, apart_endProof _ (books_subset page) own,
    apart_closeSample s page own]

theorem apart_endTalk (st wait tries : Nat) : (endTalk h t st wait tries s).apart P S = s.apart P S := by
  unfold endTalk
  dsimp only
  rw [apart_setSlot _ own, apart_put_term _ page (by decide), apart_put_term _ page (by decide),
    apart_put_term _ page (by decide), apart_put_term _ page (by decide), apart_put_term _ page (by decide)]
  split <;> simp

theorem apart_requestTalk (host env : Bool) (op arg : Nat) :
    (requestTalk host env h t op arg s).apart P S = s.apart P S := by
  unfold requestTalk
  dsimp only
  split_ifs <;> simp [apart_setSlot _ own, apart_put_term _ page]

theorem apart_cancelTalk : (cancelTalk h t s).apart P S = s.apart P S := by
  unfold cancelTalk
  dsimp only
  split
  · rfl
  · split
    · exact apart_setSlot s own _
    · exact apart_endTalk s page own _ _ _

theorem apart_finishTalk (reply : Word) : (finishTalk h t reply s).apart P S = s.apart P S := by
  have rsp (u : State) : (u.setReg (termKey h t + Reg.TS_TALK_RSP) reply).apart P S = u.apart P S :=
    apart_setReg u (.inl (term_mem page (by decide))) _
  unfold finishTalk retryTalk closeTalk
  dsimp only
  split
  · rfl
  · split_ifs <;>
      simp [rsp, apart_setSlot _ own, apart_endTalk _ page own, apart_put_term _ page, apart_delayProbe _ own]

theorem apart_markTalk : (markTalk h t s).apart P S = s.apart P S := by
  unfold markTalk
  dsimp only
  split
  · rfl
  · split_ifs
    · rfl
    · exact apart_setSlot s own _
    · exact apart_endTalk s page own _ _ _

theorem apart_tripCopy : (tripCopy h t s).apart P S = s.apart P S := by
  have keeps := books_subset page
  unfold tripCopy
  dsimp only
  rw [apart_raiseBayEvent, apart_bayRecord, apart_refreshHealth _ (stat_mem keeps), apart_setSlot _ own,
    apart_dropProof _ (stat_mem keeps) (excess_mem keeps) own, apart_count _ (term_mem page (by decide)),
    apart_put_term _ page (by decide)]

variable (ht : t < 1024)
include ht

theorem apart_periodStart : (periodStart h t s).apart P S = s.apart P S := by
  have keeps := books_subset page
  unfold periodStart
  dsimp only
  split_ifs <;>
    simp [apart_startOff _ own, apart_startPulse _ own, apart_setSlot _ own, apart_applyLedger _ keeps own,
      apart_limitOn _ keeps ht, apart_endProof _ keeps own, apart_closeSample _ page own, stat_mem keeps, excess_mem keeps,
      own]

theorem apart_riseCopy (held : Bool) : (riseCopy held h t s).apart P S = s.apart P S := by
  have keeps := books_subset page
  unfold riseCopy
  split_ifs
  · exact apart_suppress s ht (stat_mem keeps) (excess_mem keeps) own
  · exact apart_startPulse s own
  · rfl

end

end

end Sys2Proof.Machine
end

section
/-! SUPPORT. A terminal's copy in one half goes by registers and slots that an act on the other half's copy leaves alone (R23,
R24): what a meaning that acts on every copy does to one of them. -/

namespace Sys2Proof.Machine

/-- The registers of half h's copies of the bays (R32). -/
def copyKeys (h : Half) : Set Nat := Set.Ico (halfKey h + 0x10000) (halfKey h + 0x20000)

/-- The slots of half h. -/
def copySlots (h : Half) : Set Nat := Set.Ico (1024 * h.num) (1024 * h.num + 1024)

/-- Only the other half's copies differ, and what keeps records, captures and pulses. -/
def Elsewhere (h : Half) (s t : State) : Prop :=
  t.apart (copyKeys h.other) (copySlots h.other) = s.apart (copyKeys h.other) (copySlots h.other)

/-- An act on a terminal's copy in any half changes that half's copies alone. -/
def ActsOnCopy (f : Half → State → State) : Prop :=
  ∀ g v, (f g v).apart (copyKeys g) (copySlots g) = v.apart (copyKeys g) (copySlots g)

/-- A timebase's marks and its second capture unit lie among its first registers. -/
theorem capture_lt {o : Nat} (ho : o ∈ [Reg.TB_STAT, 0x15, 0x16, 0x17]) : o < 0x20 := by
  revert o
  decide

theorem termPage_subset_copyKeys (h : Half) {t : Nat} (ht : t < 1024) : termPage h t ⊆ copyKeys h := by
  rintro k hk
  unfold termPage termKey ageKey excessKey bayKey Reg.TD_AGE Reg.TD_EXCESS at hk
  rw [copyKeys, Set.mem_Ico]
  rcases hk with ⟨o, ho, rfl⟩ | rfl | rfl <;> omega

theorem slotIx_mem_copySlots (h : Half) {t : Nat} (ht : t < 1024) : slotIx h t ∈ copySlots h := by
  simp only [copySlots, Set.mem_Ico, slotIx]
  omega

theorem slotIx_not_mem_other (h : Half) {t : Nat} (ht : t < 1024) : slotIx h t ∉ copySlots h.other := by
  cases h <;> simp [copySlots, slotIx, Half.other, Half.num, ht]

/-! ## Registers that a copy goes by -/

section

variable (h : Half) {b o : Nat} (hb : b < 64) (ho : o < 0x400)
include hb ho

theorem bay_not_mem_other : bayKey h b + o ∉ copyKeys h.other := by
  cases h <;> simp [copyKeys, bayKey, halfKey, Half.other, Half.num] <;> omega

theorem bay_not_mem_logKeys (plain : ∀ p ∈ [Reg.TB_STAT, 0x15, 0x16, 0x17], o ≠ p) : bayKey h b + o ∉ logKeys := by
  rintro (⟨g, hg⟩ | ⟨i, hi, p, hp, same⟩ | ⟨c, -, same⟩)
  · rw [codingKeys, Set.mem_Ico] at hg
    cases h <;> cases g <;> (unfold bayKey halfKey Half.num at hg; dsimp only at hg; omega)
  · have := capture_lt hp
    have := plain p hp
    unfold tbKey bayKey halfKey oneKey Half.num at same
    cases h <;> (dsimp only at same; split_ifs at same <;> omega)
  · unfold padKey bayKey halfKey oneKey Half.num Reg.ENV_LAST Reg.ENV_BAYCNT at same
    cases h <;> (dsimp only at same; omega)

omit h

theorem pad_not_mem_copyKeys (g : Half) : padKey b + o ∉ copyKeys g := by
  cases g <;> simp [copyKeys, padKey, oneKey, halfKey, Half.num] <;> omega

theorem pad_not_mem_logKeys (last : o ≠ Reg.ENV_LAST) (count : o ≠ Reg.ENV_BAYCNT) : padKey b + o ∉ logKeys := by
  rintro (⟨g, hg⟩ | ⟨i, hi, p, hp, same⟩ | ⟨c, -, same⟩)
  · rw [codingKeys, Set.mem_Ico] at hg
    cases g <;> (unfold padKey oneKey halfKey Half.num at hg; dsimp only at hg; omega)
  · have := capture_lt hp
    unfold tbKey padKey bayKey halfKey oneKey Half.num at same
    dsimp only at same
    split_ifs at same <;> omega
  · unfold padKey Reg.ENV_LAST Reg.ENV_BAYCNT at *
    omega

end

theorem tbKey_tbOf (h : Half) {n : Nat} (hn : n < 1024) : tbKey (tbOf h n) = bayKey h (n / 16) := by
  have low : n / 16 < 64 := by omega
  cases h with
  | A => rw [tbKey, show tbOf .A n = n / 16 by simp [tbOf, bayIx, Half.num], if_pos low]
  | B =>
    rw [tbKey, show tbOf .B n = 64 + n / 16 by simp [tbOf, bayIx, Half.num], if_neg (by omega), if_pos (by omega),
      Nat.add_sub_cancel_left]

theorem term_not_mem_logKeys (h : Half) {n o : Nat} (hn : n < 1024) (ho : o < 0x10) : termKey h n + o ∉ logKeys := by
  have := bay_not_mem_logKeys h (b := n / 16) (o := 0x80 + 16 * (n % 16) + o) (by omega) (by omega) fun p hp => by
    have := capture_lt hp
    omega
  rwa [← Nat.add_assoc, ← Nat.add_assoc] at this

theorem age_not_mem_logKeys (h : Half) {n : Nat} (hn : n < 1024) : ageKey h n ∉ logKeys := by
  have := bay_not_mem_logKeys h (b := n / 16) (o := Reg.TD_AGE + n % 16) (by omega) (by simp only [Reg.TD_AGE]; omega) fun p hp => by
    have := capture_lt hp
    simp only [Reg.TD_AGE]
    omega
  rwa [← Nat.add_assoc] at this

/-! ## What a copy goes by where only the other half's copies were worked on -/

theorem State.computes_of_bare {s t : State} (same : t.bare = s.bare) (x : Half) : t.computes x = s.computes x := by
  cases x with
  | A => exact (congrArg (fun u : State => !u.halfA.inReset) same :)
  | B => exact (congrArg (fun u : State => !u.halfB.inReset) same :)

theorem State.onTref_of_bare {s t : State} (same : t.bare = s.bare) : t.onTref = s.onTref :=
  (congrArg State.onTref same :)

namespace Elsewhere

variable {h : Half} {s t u : State} {n : Nat}

theorem refl (s : State) : Elsewhere h s s := rfl

theorem trans (first : Elsewhere h s t) (second : Elsewhere h t u) : Elsewhere h s u := Eq.trans second first

/-- Records, captures and pulses are no matter to a copy. -/
theorem of_apart (same : t.apart ∅ ∅ = s.apart ∅ ∅) : Elsewhere h s t :=
  apart_mono same (Set.empty_subset _) (Set.empty_subset _)

variable (e : Elsewhere h s t)
include e

theorem bare : t.bare = s.bare := bare_of_apart e

theorem bay {b o : Nat} (hb : b < 64) (ho : o < 0x400) (plain : ∀ p ∈ [Reg.TB_STAT, 0x15, 0x16, 0x17], o ≠ p) :
    t.reg (bayKey h b + o) = s.reg (bayKey h b + o) :=
  reg_of_apart e (bay_not_mem_other h hb ho) (bay_not_mem_logKeys h hb ho plain)

variable (hn : n < 1024)
include hn

theorem slot : t.slot h n = s.slot h n := slot_of_apart e (slotIx_not_mem_other h hn)

theorem beyond_captures {o : Nat} (lo : 0x20 ≤ o) (hi : o < 0x400) :
    t.reg (bayKey h (n / 16) + o) = s.reg (bayKey h (n / 16) + o) :=
  e.bay (by omega) hi fun p hp => by
    have := capture_lt hp
    omega

theorem term {o : Nat} (ho : o < 0x10) : t.reg (termKey h n + o) = s.reg (termKey h n + o) := by
  have same := e.beyond_captures hn (o := 0x80 + 16 * (n % 16) + o) (by omega) (by omega)
  rwa [← Nat.add_assoc, ← Nat.add_assoc] at same

theorem get {f : Fld} (hf : f.addr < 0x10) : t.get (termKey h n) f = s.get (termKey h n) f := by
  rw [State.get, e.term hn hf, State.get]

theorem flag {f : Fld} (hf : f.addr < 0x10) : t.flag (termKey h n) f = s.flag (termKey h n) f := by
  rw [State.flag, e.get hn hf, State.flag]

theorem age : t.reg (ageKey h n) = s.reg (ageKey h n) := by
  have same := e.beyond_captures hn (o := Reg.TD_AGE + n % 16) (by simp only [Reg.TD_AGE]; omega)
    (by simp only [Reg.TD_AGE]; omega)
  rwa [← Nat.add_assoc] at same

theorem env {f : Fld} (hf : f.addr = Reg.TS_ENV ∨ f.addr = Reg.TS_ILK) : t.get (envKey n) f = s.get (envKey n) f := by
  have same : t.reg (padKey (n / 16) + (2 * (n % 16) + f.addr)) = s.reg (padKey (n / 16) + (2 * (n % 16) + f.addr)) := by
    simp only [Reg.TS_ENV, Reg.TS_ILK] at hf
    exact reg_of_apart e (pad_not_mem_copyKeys (by omega) (by omega) _)
      (pad_not_mem_logKeys (by omega) (by omega) (by simp only [Reg.ENV_LAST]; omega) (by simp only [Reg.ENV_BAYCNT]; omega))
  rw [← Nat.add_assoc] at same
  exact congrArg (fun w => bits w f.hi f.lo) same

/-! ## The copy's timebase -/

theorem tbReg {o : Nat} (ho : o < 7) : t.reg (tbKey (tbOf h n) + o) = s.reg (tbKey (tbOf h n) + o) := by
  rw [tbKey_tbOf h hn]
  refine e.bay (by omega) (by omega) fun p hp => ?_
  have : 7 ≤ p := by
    revert p
    decide
  omega

theorem tbGet {f : Fld} (hf : f.addr < 7) : t.get (tbKey (tbOf h n)) f = s.get (tbKey (tbOf h n)) f := by
  rw [State.get, e.tbReg hn hf, State.get]

theorem tbModulus : t.tbModulus (tbOf h n) = s.tbModulus (tbOf h n) := by
  rw [State.tbModulus, e.tbReg hn (by decide), State.tbModulus]

theorem tbCount : t.tbCount (tbOf h n) = s.tbCount (tbOf h n) := by
  rw [State.tbCount, e.tbReg hn (by decide), State.tbCount]

theorem tbPhase {k : Nat} (hk : k < 16) : t.tbPhase (tbOf h n) k = s.tbPhase (tbOf h n) k := by
  have same := e.beyond_captures hn (o := Reg.TB_PHASE + k) (by simp only [Reg.TB_PHASE]; omega)
    (by simp only [Reg.TB_PHASE]; omega)
  rw [State.tbPhase, tbKey_tbOf h hn, Nat.add_assoc, same, State.tbPhase, tbKey_tbOf h hn, Nat.add_assoc]

theorem tbRuns : t.tbRuns (tbOf h n) = s.tbRuns (tbOf h n) := by
  have bay : tbOf h n < 128 := by
    unfold tbOf bayIx
    cases h <;> (simp only [Half.num]; omega)
  exact tbRuns_congr (e.tbReg hn (o := 0) (by decide)) (fun timer => absurd bay (by omega))
    (congrArg (fun u : State => u.power.mode) e.bare :) (congrArg State.trefRuns e.bare :)
    (congrArg State.stewards e.bare :) (congrArg State.owners e.bare :)

theorem atTick (count cyc : Nat) : t.atTick (tbOf h n) count cyc = s.atTick (tbOf h n) count cyc := by
  have timebase := timebase_of_apart e (tbOf h n)
  have due : (t.timebase (tbOf h n)).due = (s.timebase (tbOf h n)).due := (congrArg Timebase.due timebase :)
  have tickAt : (t.timebase (tbOf h n)).tickAt = (s.timebase (tbOf h n)).tickAt := (congrArg Timebase.tickAt timebase :)
  have mode : t.power.mode = s.power.mode := (congrArg (fun u : State => u.power.mode) e.bare :)
  have tref : t.tref = s.tref := (congrArg State.tref e.bare :)
  rw [State.atTick, e.tbRuns hn, e.tbCount hn, due, tickAt, mode, tref, State.atTick]

/-! ## The copy's slot -/

theorem atPeriodStart : t.atPeriodStart h n = s.atPeriodStart h n := by
  have tref : t.tref = s.tref := (congrArg State.tref e.bare :)
  unfold State.atPeriodStart
  dsimp only
  rw [e.slot hn, e.tbPhase hn (Nat.mod_lt _ (by decide)), e.atTick hn, tref]

theorem riseNow : t.riseNow h n = s.riseNow h n := by
  unfold State.riseNow
  dsimp only
  rw [e.slot hn, e.tbPhase hn (Nat.mod_lt _ (by decide)), e.atTick hn]

theorem fallNow : t.fallNow h n = s.fallNow h n := by
  unfold State.fallNow
  dsimp only
  rw [e.slot hn, e.tbModulus hn, e.tbPhase hn (Nat.mod_lt _ (by decide)), e.atTick hn]

theorem maxOn : t.maxOn h n = s.maxOn h n := by
  rw [State.maxOn, e.tbModulus hn, e.env hn (.inl rfl), State.maxOn]

theorem piv : t.piv h n = s.piv h n := by
  rw [State.piv, e.get hn (by decide), State.piv]

theorem canBorrow : t.canBorrow h n = s.canBorrow h n := by
  have tickLen : t.tickLen (tbOf h n) = s.tickLen (tbOf h n) := by
    unfold State.tickLen State.tbN State.tbF
    rw [e.tbGet hn (by decide), e.tbGet hn (by decide)]
  unfold State.canBorrow State.tbOnTref State.tbSrc
  dsimp only
  rw [e.tbModulus hn, tickLen, e.flag hn (by decide), e.tbRuns hn, e.tbGet hn (by decide)]

end Elsewhere

/-! ## Acts on every copy (R23) -/

section

variable {h : Half} {s : State} {f : Half → State → State}

/-- Where a copy is worked on, an act on every copy does to it what it does to it alone; what no act takes away still holds
as it is worked on. -/
theorem onCopies_elsewhere_keeping {R : State → Prop} (start : R s) (keeps : ∀ g v, R v → R (f g v))
    (runs : s.computes h = true) (acts : ActsOnCopy f) :
    ∃ v, R v ∧ Elsewhere h s v ∧ Elsewhere h (f h v) (s.onCopies f) := by
  have kept (g x : Half) (v : State) : (f g v).computes x = v.computes x :=
    State.computes_of_bare (bare_of_apart (acts g v)) x
  unfold State.onCopies
  dsimp only
  cases h with
  | A =>
    rw [if_pos runs]
    refine ⟨s, start, .refl s, ?_⟩
    split
    · exact acts .B _
    · exact .refl _
  | B =>
    have still : (if s.computes .A then f .A s else s).computes .B = true := by
      rw [apply_ite (State.computes · .B), kept, ite_self, runs]
    rw [if_pos still]
    refine ⟨_, ?_, ?_, .refl _⟩
    · split
      · exact keeps .A s start
      · exact start
    · split
      · exact acts .A s
      · exact .refl s

theorem onCopies_elsewhere (runs : s.computes h = true) (acts : ActsOnCopy f) :
    ∃ v, Elsewhere h s v ∧ Elsewhere h (f h v) (s.onCopies f) := by
  obtain ⟨v, -, before, after⟩ := onCopies_elsewhere_keeping (R := fun _ => True) trivial (fun _ _ _ => trivial) runs acts
  exact ⟨v, before, after⟩

theorem onSlot_elsewhere {n : Nat} (runs : s.computes h = true) (acts : ActsOnCopy f) :
    ∃ v, Elsewhere h s v ∧ Elsewhere h (f h v) (s.onSlot n f) := by
  obtain ⟨v, before, after⟩ := onCopies_elsewhere (f := fun g s => noteBand g n (s.slot g n).band (f g s)) runs
    fun g v => (apart_noteBand _ _ _ _).trans (acts g v)
  exact ⟨v, before, .trans (.of_apart (apart_noteBand _ _ _ _)) after⟩

theorem bayWrite_accepted {m : Master} {b a : Nat} (ok : s.bayWriteOk m b = true) : s.bayWrite m b a f = s.onCopies f := by
  rw [State.bayWrite, if_pos ok]

end

end Sys2Proof.Machine
end

section
/-! SUPPORT. What the pad of a terminal leaves of its copies as it takes its level, and what a change of its path does (R68,
R190). -/

namespace Sys2Proof.Machine

/-! ## Slots after writes of registers -/

section

variable (s : State) (h : Half) (n : Nat)

@[simp] theorem slot_setReg (k : Nat) (w : Word) : (s.setReg k w).slot h n = s.slot h n := (rfl)
@[simp] theorem slot_put (b v : Nat) (f : Fld) : (s.put b f v).slot h n = s.slot h n := (rfl)
@[simp] theorem slot_count (k m : Nat) : (s.count k m).slot h n = s.slot h n := (rfl)

/-- A proof given up shows in the slot's on-time and in that none is in progress. -/
theorem dropProof_slot : ∃ p a, (dropProof h n s).slot h n = { s.slot h n with proving := p, applied := a } := by
  unfold dropProof
  dsimp only
  split
  · exact ⟨(s.slot h n).proving, (s.slot h n).applied, rfl⟩
  · split
    · exact ⟨_, _, (by simp only [slot_put, slot_count, State.slot_setSlot]; rfl)⟩
    · exact ⟨_, _, State.slot_setSlot _ _ _ _⟩

end

/-! ## Halves -/

theorem Half.eq_other_of_ne {g h : Half} (ne : g ≠ h) : g = h.other := by
  cases g <;> cases h <;> simp_all [Half.other]

theorem half_of_slotIx {g h : Half} {n : Nat} (same : slotIx h n = slotIx g n) : h = g := by
  unfold slotIx at same
  cases g <;> cases h <;> simp_all [Half.num]

/-! ## Pads (R190) -/

/-- What holds of a state and what no act on a copy takes away holds after an act on every copy. -/
theorem onCopies_keeps {R : State → Prop} {f : Half → State → State} {s : State} (start : R s)
    (acts : ∀ g v, R v → R (f g v)) : R (s.onCopies f) := by
  unfold State.onCopies
  dsimp only
  split_ifs
  · exact acts _ _ (acts _ _ start)
  · exact acts _ _ start
  · exact acts _ _ start
  · exact start

section

variable {h : Half} {n : Nat} (hn : n < 1024) (s : State)
include hn

theorem suppress_actsOnCopy : ActsOnCopy fun g v => suppress g n v := fun g v =>
  have keeps := books_subset (termPage_subset_copyKeys g hn)
  apart_suppress v hn (stat_mem keeps) (excess_mem keeps) (slotIx_mem_copySlots g hn)

/-- A slot at rest loses nothing to the interlock, which holds the pulses of copies that drive. -/
theorem holdPulse_elsewhere (rests : (s.slot h n).drive = false) : Elsewhere h s (holdPulse n s) := by
  unfold holdPulse State.onSlot
  split
  · refine onCopies_keeps (R := Elsewhere h s) (.refl s) fun g v kept => .trans kept (.trans ?_ (.of_apart (apart_noteBand _ _ _ _)))
    dsimp only
    by_cases own : g = h
    · subst own
      rw [kept.slot hn, rests, if_neg (by decide)]
      exact .refl v
    · obtain rfl := Half.eq_other_of_ne own
      split
      · exact suppress_actsOnCopy hn _ v
      · exact .refl v
  · exact .refl s

omit hn in
theorem syncPad_reg (k : Nat) : (syncPad n s).reg k = (holdPulse n s).reg k := by
  obtain ⟨p, b, only⟩ := syncPad_only n s
  rw [only]
  rfl

omit hn in
theorem syncPad_slot : (syncPad n s).slot h n = (holdPulse n s).slot h n := by
  obtain ⟨p, b, only⟩ := syncPad_only n s
  rw [only]
  rfl

theorem syncPad_slot_of_rest (rests : (s.slot h n).drive = false) : (syncPad n s).slot h n = s.slot h n :=
  (syncPad_slot s).trans ((holdPulse_elsewhere hn s rests).slot hn)

theorem syncPad_term_of_rest (rests : (s.slot h n).drive = false) {o : Nat} (ho : o < 0x10) :
    (syncPad n s).reg (termKey h n + o) = s.reg (termKey h n + o) :=
  (syncPad_reg s _).trans ((holdPulse_elsewhere hn s rests).term hn ho)

theorem syncPad_get_of_rest (rests : (s.slot h n).drive = false) {f : Fld} (hf : f.addr < 0x10) :
    (syncPad n s).get (termKey h n) f = s.get (termKey h n) f := by
  rw [State.get, syncPad_term_of_rest hn s rests hf, State.get]

theorem syncPad_flag_of_rest (rests : (s.slot h n).drive = false) {f : Fld} (hf : f.addr < 0x10) :
    (syncPad n s).flag (termKey h n) f = s.flag (termKey h n) f := by
  rw [State.flag, syncPad_get_of_rest hn s rests hf, State.flag]

/-! ## A pulse held keeps the slot's request -/

theorem suppress_talk : ((suppress h n s).slot h n).talk = (s.slot h n).talk := by
  have envelope : (envelopeAction h n [Reg.TD_STAT_ILK_HOLD] 3 (dropProof h n s)).slot h n = (dropProof h n s).slot h n :=
    slot_of_apart (P := {termKey h n + Reg.TD_STAT}) (S := ∅) (apart_envelopeAction _ hn (by simp) (by simp) _) (by simp)
  obtain ⟨_, _, proof⟩ := dropProof_slot s h n
  unfold suppress
  dsimp only
  rw [State.slot_setSlot, envelope, proof]

end

/-- A change of path touches of a slot its request alone. -/
theorem takePath_slot (h : Half) (n : Nat) (s : State) :
    ∃ k, (takePath n s).slot h n = { s.slot h n with talk := k } := by
  have lose : ∃ k, (loseExchange n s).slot h n = { s.slot h n with talk := k } := by
    refine onCopies_keeps (R := fun v => ∃ k, v.slot h n = { s.slot h n with talk := k }) ⟨(s.slot h n).talk, rfl⟩ ?_
    rintro g v ⟨k, kept⟩
    dsimp only
    split
    · next r _ =>
      by_cases own : g = h
      · subst own
        exact ⟨some { r with running := false }, by rw [State.slot_setSlot, kept]⟩
      · exact ⟨k, Eq.trans (tblGet_tblSet_other _ _ _ fun same => own (half_of_slotIx same).symm) kept⟩
    · exact ⟨k, kept⟩
  have unchanged : ∃ k, s.slot h n = { s.slot h n with talk := k } := ⟨(s.slot h n).talk, rfl⟩
  unfold takePath
  dsimp only
  split_ifs
  · exact unchanged
  · exact unchanged
  · exact unchanged
  · exact lose

end Sys2Proof.Machine
end

section
/-! SUPPORT. The instants of a pulse period in one copy (R143, R144, R149, R161, R182, R188, R190). -/

namespace Sys2Proof.Machine

/-! ## What the books leave of a terminal's own copy -/

section

variable {S : Set Nat} {h : Half} {n : Nat} (hn : n < 1024) {s t : State}
variable (same : t.apart (books h n) S = s.apart (books h n) S)

theorem term_not_mem_books (h : Half) (n : Nat) {o : Nat} (ho : o < 0x10) (other : o ∉ [0x7, 0xB, 0xD, 0xF]) :
    termKey h n + o ∉ books h n := by
  rintro (⟨p, hp, same⟩ | same | same)
  · obtain rfl : o = p := by omega
    exact other hp
  · unfold termKey ageKey Reg.TD_AGE at same
    omega
  · unfold termKey excessKey Reg.TD_EXCESS at same
    omega

include hn same

theorem term_of_books {o : Nat} (ho : o < 0x10) (other : o ∉ [0x7, 0xB, 0xD, 0xF]) :
    t.reg (termKey h n + o) = s.reg (termKey h n + o) :=
  reg_of_apart same (term_not_mem_books h n ho other) (term_not_mem_logKeys h hn ho)

theorem get_of_books {f : Fld} (ho : f.addr < 0x10) (other : f.addr ∉ [0x7, 0xB, 0xD, 0xF]) :
    t.get (termKey h n) f = s.get (termKey h n) f := by
  rw [State.get, term_of_books hn same ho other, State.get]

theorem piv_of_books : t.piv h n = s.piv h n := by
  rw [State.piv, get_of_books hn same (by decide) (by decide), State.piv]

theorem env_of_books {f : Fld} (hf : f.addr = Reg.TS_ENV) : t.get (envKey n) f = s.get (envKey n) f := by
  have inCopy := (books_subset_termPage h n).trans (termPage_subset_copyKeys h hn)
  have env : t.reg (padKey (n / 16) + (2 * (n % 16) + f.addr)) = s.reg (padKey (n / 16) + (2 * (n % 16) + f.addr)) := by
    simp only [Reg.TS_ENV] at hf
    exact reg_of_apart same (fun m => pad_not_mem_copyKeys (by omega) (by omega) _ (inCopy m))
      (pad_not_mem_logKeys (by omega) (by omega) (by simp only [Reg.ENV_LAST]; omega) (by simp only [Reg.ENV_BAYCNT]; omega))
  rw [← Nat.add_assoc] at env
  exact congrArg (fun w => bits w f.hi f.lo) env

theorem maxOn_of_books : t.maxOn h n = s.maxOn h n := by
  have per : t.reg (bayKey h (n / 16) + Reg.TB_PER) = s.reg (bayKey h (n / 16) + Reg.TB_PER) := by
    refine reg_of_apart same ?_ (bay_not_mem_logKeys h (by omega) (by decide) (by decide))
    rintro (⟨p, -, at_⟩ | at_ | at_)
    · unfold termKey Reg.TB_PER at at_
      omega
    · unfold ageKey Reg.TB_PER Reg.TD_AGE at at_
      omega
    · unfold excessKey Reg.TB_PER Reg.TD_EXCESS at at_
      omega
  rw [State.maxOn, State.tbModulus, tbKey_tbOf h hn, per, env_of_books hn same rfl, State.maxOn, State.tbModulus,
    tbKey_tbOf h hn]

end

/-! ## The period start (R143, R144, R188) -/

theorem limitOn_unslewed {h : Half} {n on prev : Nat} {s : State} (noSlew : s.get (envKey n) Reg.TS_ENV_SLEW = 0) :
    (limitOn h n on prev s).1 = min on (s.maxOn h n) := by
  simp [limitOn, commandedOn, noSlew]

/-- A slot without a request, a repayment and a proof applies what it is commanded. -/
theorem applyLedger_plain {h : Half} {n cmd maxon : Nat} {s : State} (noTalk : (s.slot h n).talk = none)
    (noRepay : (s.slot h n).repay = .none) (noProof : s.piv h n = 0) : applyLedger h n cmd maxon s = (cmd, s) := by
  have wants : s.wantsWindow h n = false := by rw [State.wantsWindow, noTalk]
  have due : s.proofDue h n cmd = false := by simp [State.proofDue, noProof]
  rw [applyLedger_eq, wants, Bool.false_and, Bool.false_and, Bool.false_and, if_neg (by decide), repayOrProve, noRepay, due]
  rfl

theorem startOff_slot (h : Half) (n : Nat) (s : State) :
    ∃ r c, (startOff h n s).slot h n = { s.slot h n with fellAt := some s.tref, prbReq := r, prbCount := c } := by
  unfold startOff
  dsimp only
  split_ifs <;> exact ⟨_, _, State.slot_setSlot _ _ _ _⟩

/-- The period start of a slot at rest whose on-time nothing but the duty limits. -/
theorem periodStart_plain {h : Half} {n : Nat} (hn : n < 1024) {s : State} (begins : s.atPeriodStart h n = true)
    (enabled : s.flag (termKey h n) Reg.TS_CTL_EN = true) (untripped : s.flag (termKey h n) Reg.TS_STAT_TRIP = false)
    (noTalk : (s.slot h n).talk = none) (noExchange : (s.slot h n).talkAt = none) (noRepay : (s.slot h n).repay = .none)
    (rests : (s.slot h n).drive = false) (noSlew : s.get (envKey n) Reg.TS_ENV_SLEW = 0) (noProof : s.piv h n = 0) :
    let applied := min (s.get (termKey h n) Reg.TS_ON_ON) (s.maxOn h n)
    let x := (periodStart h n s).slot h n
    x.on = s.get (termKey h n) Reg.TS_ON_ON ∧ x.applied = applied ∧ x.riseDue = decide (applied ≠ 0) ∧ x.drive = false := by
  have notDeferred : s.riseDeferred h n = false := by simp [State.riseDeferred, noExchange]
  set s1 := dropProof h n s with hs1
  have dropped : s1.apart (books h n) {slotIx h n} = s.apart (books h n) {slotIx h n} :=
    apart_dropProof s (stat_mem subset_rfl) (excess_mem subset_rfl) (Set.mem_singleton _)
  obtain ⟨p, a, slot1⟩ := dropProof_slot s h n
  rw [← hs1] at slot1
  have onTime : s1.get (termKey h n) Reg.TS_ON_ON = s.get (termKey h n) Reg.TS_ON_ON :=
    get_of_books hn dropped (by decide) (by decide)
  set x := loadStaged h n s1 with hx
  have xOn : x.on = s.get (termKey h n) Reg.TS_ON_ON := onTime
  have xTalk : x.talk = none := by
    show (s1.slot h n).talk.map _ = none
    rw [slot1]
    exact congrArg (Option.map _) noTalk
  have xRepay : x.repay = .none := by
    show (s1.slot h n).repay = .none
    rw [slot1]
    exact noRepay
  have xDrive : x.drive = false := by
    show (s1.slot h n).drive = false
    rw [slot1]
    exact rests
  set limited := limitOn h n x.on x.prev s1 with hlimited
  have limit : limited.1 = min (s.get (termKey h n) Reg.TS_ON_ON) (s.maxOn h n) := by
    rw [hlimited, limitOn_unslewed ((env_of_books hn dropped rfl).trans noSlew), xOn, maxOn_of_books hn dropped]
  set y : Slot := { x with prev := limited.1, cmd := limited.1 } with hy
  have logged : (limited.2.setSlot h n y).apart (books h n) {slotIx h n} = s1.apart (books h n) {slotIx h n} :=
    (apart_setSlot limited.2 (Set.mem_singleton _) y).trans (apart_limitOn s1 subset_rfl hn x.on x.prev)
  have slotY : (limited.2.setSlot h n y).slot h n = y := State.slot_setSlot _ _ _ _
  have applied : applyLedger h n limited.1 (s.maxOn h n) (limited.2.setSlot h n y) = (limited.1, limited.2.setSlot h n y) :=
    applyLedger_plain (by rw [slotY]; exact xTalk) (by rw [slotY]; exact xRepay)
      ((piv_of_books hn logged).trans ((piv_of_books hn dropped).trans noProof))
  rw [← limit]
  unfold periodStart
  simp only [begins, notDeferred, rests, enabled, untripped, ← hs1, ← hx, ← hlimited, ← hy, applied, slotY,
    State.slot_setSlot, Bool.not_true, Bool.not_false, Bool.and_self, Bool.false_eq_true, if_true, if_false]
  split
  · next zero =>
    obtain ⟨r, c, off⟩ := startOff_slot h n (((limited.2.setSlot h n y).setSlot h n { y with applied := limited.1 }).setSlot
      h n { y with applied := limited.1, riseDue := false, drive := false })
    rw [off, State.slot_setSlot]
    exact ⟨xOn, rfl, by simp [zero], rfl⟩
  · next positive =>
    rw [State.slot_setSlot]
    exact ⟨xOn, rfl, by simp [positive], xDrive⟩

end Sys2Proof.Machine
end

section
/-! SUPPORT. Rises, falls, samples and conversions in one copy (R143, R148, R161, R165, R190). -/

namespace Sys2Proof.Machine

/-! ## The rise (R143, R190) -/

theorem startPulse_slot (h : Half) (n : Nat) (s : State) :
    ∃ x : Slot, startPulse h n s = s.setSlot h n x ∧ x.drive = true := by
  unfold startPulse
  dsimp only
  split_ifs <;> exact ⟨_, rfl, rfl⟩

theorem suppress_slot (h : Half) (n : Nat) (s : State) :
    ((suppress h n s).slot h n).drive = false ∧ ((suppress h n s).slot h n).riseDue = false := by
  unfold suppress
  dsimp only
  rw [State.slot_setSlot]
  exact ⟨rfl, rfl⟩

theorem suppress_ilkHold (h : Half) {n : Nat} (hn : n < 1024) (s : State) :
    (suppress h n s).flag (termKey h n) Reg.TD_STAT_ILK_HOLD = true := by
  have kept := apart_envelopeAction_marks (P := ∅) (S := ∅) (h := h) (dropProof h n s) hn [Reg.TD_STAT_ILK_HOLD] 3
  have marked := flag_of_apart kept (b := termKey h n) (f := Reg.TD_STAT_ILK_HOLD) (Set.notMem_empty _)
    (term_not_mem_logKeys h hn (by decide))
  exact marked.trans (flag_put_one _ _ (by decide) rfl)

theorem riseCopy_actsOnCopy {n : Nat} (hn : n < 1024) (held : Bool) : ActsOnCopy fun g v => riseCopy held g n v :=
  fun g v => apart_riseCopy v (termPage_subset_copyKeys g hn) (slotIx_mem_copySlots g hn) hn held

/-- An unheld rise touches slots, and the signatures of their bands. -/
theorem riseUnheld_slots (n : Nat) (s : State) :
    ∃ x m, s.onSlot n (fun h s => riseCopy false h n s) = { s with slots := x, mirrors := m } := by
  refine onCopies_keeps (R := fun v => ∃ x m, v = { s with slots := x, mirrors := m }) ⟨s.slots, s.mirrors, rfl⟩ ?_
  rintro g v ⟨x, m, rfl⟩
  have rise (u : State) : ∃ y, riseCopy false g n u = { u with slots := y } := by
    unfold riseCopy
    split
    · obtain ⟨y, pulse, -⟩ := startPulse_slot g n u
      exact ⟨_, pulse⟩
    · exact ⟨u.slots, rfl⟩
  obtain ⟨y, risen⟩ := rise { s with slots := x, mirrors := m }
  dsimp only
  rw [risen]
  unfold noteBand
  dsimp only
  split
  · exact ⟨y, m, rfl⟩
  · exact ⟨y, _, rfl⟩

/-- What a pad is after it has taken its level: the level wanted, its frame as it was. -/
theorem syncPad_pad (n : Nat) (s : State) :
    ((syncPad n s).pad n).level = (holdPulse n s).padWanted n
      ∧ ((syncPad n s).pad n).frame = ((holdPulse n s).pad n).frame := by
  unfold syncPad
  dsimp only
  generalize holdPulse n s = u
  have set (p : Pad) : (u.setPad n p).pad n = p := State.pad_setPad u n p
  split_ifs with same fell on blanks
  · exact ⟨same.symm, rfl⟩
  · rw [set]; exact ⟨rfl, rfl⟩
  · exact ⟨(congrArg Pad.level (set _) :), (congrArg Pad.frame (set _) :)⟩
  · rw [set]; exact ⟨rfl, rfl⟩
  · rw [set]; exact ⟨rfl, rfl⟩

/-! ## The fall (R143, R148, R161) -/

theorem missTelemetry_sample (h : Half) (n : Nat) (s : State) :
    ((missTelemetry h n s).slot h n).sample = (s.slot h n).sample := by
  unfold missTelemetry
  dsimp only
  split
  · rw [State.slot_setSlot]
  · rfl

theorem endProof_sample (h : Half) (n : Nat) (s : State) :
    ((endProof h n s).slot h n).sample = (s.slot h n).sample := by
  unfold endProof
  dsimp only
  split
  · rfl
  · rw [State.slot_setSlot]
  · split <;> rw [State.slot_setSlot]

theorem telClass_lt (code : Nat) (bad : Bool) : telClass code bad < 4 := by
  unfold telClass
  split_ifs <;> decide

/-- What a sample's commit stores before it is taken as evidence: TS_TEL, the mark of another class, a LAW code. -/
def storeSample (h : Half) (n code : Nat) (bad : Bool) (at_ : Nat) (s : State) : State :=
  let key := termKey h n
  let cls := telClass code bad
  let s1 := (((s.put key Reg.TS_TEL_CLS cls).put key Reg.TS_TEL_COMP (if bad then 1 else 0)).put key
    Reg.TS_TEL_SEQ ((s.get key Reg.TS_TEL_SEQ + 1) % 16)).put key Reg.TS_TEL_CODE code
  let s2 := if cls = s.get key Reg.TS_TEL_CLS then s1 else s1.put key Reg.TS_STAT_TEL_CLS 1
  s2.setSlot h n
    { s.slot h n with sample := none, lawSample := if cls = 0 then some (code, at_) else (s.slot h n).lawSample }

theorem storeSample_gives (h : Half) (n code : Nat) (bad : Bool) (at_ : Nat) (s : State) :
    ((storeSample h n code bad at_ s).slot h n).sample = none
      ∧ (storeSample h n code bad at_ s).get (termKey h n) Reg.TS_TEL_CODE = code % 4096
      ∧ (storeSample h n code bad at_ s).get (termKey h n) Reg.TS_TEL_CLS = telClass code bad := by
  have inSlot (u : State) (x : Slot) (f : Fld) : (u.setSlot h n x).get (termKey h n) f = u.get (termKey h n) f := rfl
  have changed (u : State) (p : Prop) [Decidable p] {f : Fld} (hf : f.addr = 4) :
      (if p then u else u.put (termKey h n) Reg.TS_STAT_TEL_CLS 1).get (termKey h n) f = u.get (termKey h n) f := by
    split
    · rfl
    · exact u.get_put_other _ _ _ _ _ (by rw [hf]; simp)
  unfold storeSample
  dsimp only
  refine ⟨?_, ?_, ?_⟩
  · rw [State.slot_setSlot]
  · rw [inSlot, changed _ _ rfl]
    exact State.get_put _ _ _ _ (by decide) (by decide)
  · rw [inSlot, changed _ _ rfl,
      State.get_put_apart _ _ _ Reg.TS_TEL_CODE Reg.TS_TEL_CLS (by decide) (by decide) rfl (.inl (by decide)),
      State.get_put_apart _ _ _ Reg.TS_TEL_SEQ Reg.TS_TEL_CLS (by decide) (by decide) rfl (.inl (by decide)),
      State.get_put_apart _ _ _ Reg.TS_TEL_COMP Reg.TS_TEL_CLS (by decide) (by decide) rfl (.inl (by decide)),
      State.get_put _ _ _ _ (by decide) (by decide)]
    exact Nat.mod_eq_of_lt (telClass_lt code bad)

/-- A sample committed is in TS_TEL, and the slot holds it no more. -/
theorem commitSample_gives {h : Half} {n : Nat} (hn : n < 1024) {s : State} {code at_ : Nat} {bad : Bool}
    (taken : (s.slot h n).sample = some (code, bad, at_)) :
    ((commitSample h n s).slot h n).sample = none
      ∧ (commitSample h n s).get (termKey h n) Reg.TS_TEL_CODE = code % 4096
      ∧ (commitSample h n s).get (termKey h n) Reg.TS_TEL_CLS = telClass code bad := by
  have commits : commitSample h n s = takeEvidence h n
      (telEvidence code (telClass code bad) (s.get (termKey h n) Reg.TD_CFG_LO) (s.get (termKey h n) Reg.TD_CFG_HI))
      (storeSample h n code bad at_ s) := by
    unfold commitSample
    dsimp only
    rw [taken]
    rfl
  have noted := apart_takeEvidence (P := books h n) (S := ∅) (storeSample h n code bad at_ s) subset_rfl
    (telEvidence code (telClass code bad) (s.get (termKey h n) Reg.TD_CFG_LO) (s.get (termKey h n) Reg.TD_CFG_HI))
  obtain ⟨gone, shown, cls⟩ := storeSample_gives h n code bad at_ s
  rw [commits]
  refine ⟨?_, ?_, ?_⟩
  · rw [slot_of_apart noted (Set.notMem_empty _), gone]
  · rw [get_of_books hn noted (by decide) (by decide), shown]
  · rw [get_of_books hn noted (by decide) (by decide), cls]

/-- The fall of a copy's pulse whose sample has been taken. -/
theorem fallCopy_gives {h : Half} {n : Nat} (hn : n < 1024) {s : State} {code at_ : Nat} {bad : Bool}
    (taken : (s.slot h n).sample = some (code, bad, at_)) :
    ((fallCopy h n s).slot h n).drive = false ∧ ((fallCopy h n s).slot h n).fellAt = some s.tref
      ∧ ((fallCopy h n s).slot h n).sample = none
      ∧ (fallCopy h n s).get (termKey h n) Reg.TS_TEL_CODE = code % 4096
      ∧ (fallCopy h n s).get (termKey h n) Reg.TS_TEL_CLS = telClass code bad := by
  obtain ⟨gone, shown, cls⟩ := commitSample_gives hn taken
  set closed := endProof h n (closeSample h n s) with hclosed
  set fallen := closed.setSlot h n { closed.slot h n with drive := false } with hfallen
  have falls : fallCopy h n s = startOff h n fallen := rfl
  have own : slotIx h n ∈ ({slotIx h n} : Set Nat) := Set.mem_singleton _
  have kept : (fallCopy h n s).apart (books h n) {slotIx h n} = (commitSample h n s).apart (books h n) {slotIx h n} := by
    rw [falls, apart_startOff _ own, hfallen, apart_setSlot _ own, hclosed, apart_endProof _ subset_rfl own, closeSample,
      apart_missTelemetry _ subset_rfl own]
  have stands : fallen.tref = s.tref := by
    have same : fallen.apart (termPage h n) {slotIx h n} = s.apart (termPage h n) {slotIx h n} := by
      rw [hfallen, apart_setSlot _ own, hclosed, apart_endProof _ (books_subset_termPage h n) own,
        apart_closeSample _ subset_rfl own]
    exact (congrArg State.tref (bare_of_apart same) :)
  obtain ⟨r, c, off⟩ := startOff_slot h n fallen
  rw [falls, off, ← falls]
  have slot : fallen.slot h n = { closed.slot h n with drive := false } := State.slot_setSlot _ _ _ _
  refine ⟨?_, ?_, ?_, ?_, ?_⟩
  · rw [slot]
  · rw [stands]
  · show (fallen.slot h n).sample = none
    rw [slot]
    exact (endProof_sample _ _ _).trans ((missTelemetry_sample _ _ _).trans gone)
  · rw [get_of_books hn kept (by decide) (by decide), shown]
  · rw [get_of_books hn kept (by decide) (by decide), cls]

theorem fallCopy_actsOnCopy {n : Nat} (hn : n < 1024) :
    ActsOnCopy fun g v => if v.fallNow g n then fallCopy g n v else v := fun g v => by
  dsimp only
  split
  · exact apart_fallCopy v (termPage_subset_copyKeys g hn) (slotIx_mem_copySlots g hn)
  · rfl

/-! ## Conversions of the bay SAR (R164, R165) -/

namespace Elsewhere

variable {h : Half} {s t : State} {n : Nat} (e : Elsewhere h s t) (hn : n < 1024)
include e hn

theorem turnaroundDue : t.turnaroundDue h n = s.turnaroundDue h n := by
  unfold State.turnaroundDue
  rw [e.slot hn, State.onTref_of_bare e.bare]

theorem sampleDue : t.sampleDue h n = s.sampleDue h n := by
  have tref : t.tref = s.tref := (congrArg State.tref e.bare :)
  unfold State.sampleDue
  dsimp only
  rw [e.slot hn, e.flag hn (by decide), e.flag hn (by decide), tref]

omit hn in
theorem earliest {b : Nat} (hb : b < 64) : t.earliest h b = s.earliest h b := by
  unfold State.earliest
  refine congrArg (Option.map _) (List.foldl_ext _ _ _ fun best k hk => ?_)
  rw [e.sampleDue (by have := List.mem_range.mp hk; omega)]

end Elsewhere

end Sys2Proof.Machine
end

section
/-! PROOF. Pulses, samples and the bay SAR (O13). -/

namespace Sys2Proof.Machine

/-! ## The period start and the rise (R143, R144, R188, R190) -/

section

variable {h : Half} {n : Fin 1024} {s : State}

theorem exec_slotPeriodStart (runs : s.computes h = true) (begins : s.atPeriodStart h n.val = true) :
    exec (.slotPeriodStart n) s = .next (syncPad n.val (takePath n.val
      ((unlatch n.val (takeEnvelope n.val s)).onSlot n.val (fun h s => periodStart h n.val s)))) := by
  have due : s.periodBegins n.val = true := by
    unfold State.periodBegins
    cases h <;> simp [runs, begins]
  show execSlotPeriodStart n s = _
  rw [execSlotPeriodStart, if_pos due]

theorem slotPeriodStart_gives (runs : s.computes h = true) (begins : s.atPeriodStart h n.val = true)
    (enabled : s.flag (termKey h n.val) Reg.TS_CTL_EN = true)
    (untripped : s.flag (termKey h n.val) Reg.TS_STAT_TRIP = false) (noTalk : (s.slot h n.val).talk = none)
    (noExchange : (s.slot h n.val).talkAt = none) (noRepay : (s.slot h n.val).repay = .none)
    (rests : (s.slot h n.val).drive = false) (noSlew : s.get (envKey n.val) Reg.TS_ENV_SLEW = 0)
    (noProof : s.piv h n.val = 0) :
    Gives (.slotPeriodStart n) s (fun t =>
      (t.slot h n.val).on = s.get (termKey h n.val) Reg.TS_ON_ON
        ∧ (t.slot h n.val).applied = min (s.get (termKey h n.val) Reg.TS_ON_ON) (s.maxOn h n.val)
        ∧ (t.slot h n.val).riseDue = decide (min (s.get (termKey h n.val) Reg.TS_ON_ON) (s.maxOn h n.val) ≠ 0)) := by
  obtain ⟨p, opened⟩ : ∃ p, unlatch n.val (takeEnvelope n.val s) = { s with pads := p } := by
    unfold unlatch
    split <;> exact ⟨_, rfl⟩
  have acts : ActsOnCopy fun g v => periodStart g n.val v := fun g v =>
    apart_periodStart v (termPage_subset_copyKeys g n.isLt) (slotIx_mem_copySlots g n.isLt) n.isLt
  obtain ⟨v, before, after⟩ := onSlot_elsewhere (s := { s with pads := p }) (n := n.val) runs acts
  have slot := before.slot n.isLt
  obtain ⟨on, applied, due, drive⟩ := periodStart_plain n.isLt ((before.atPeriodStart n.isLt).trans begins)
    ((before.flag n.isLt (by decide)).trans enabled) ((before.flag n.isLt (by decide)).trans untripped)
    (slot ▸ noTalk) (slot ▸ noExchange) (slot ▸ noRepay) (slot ▸ rests) ((before.env n.isLt (.inl rfl)).trans noSlew)
    ((before.piv n.isLt).trans noProof)
  rw [before.get n.isLt (by decide), before.maxOn n.isLt] at applied due
  rw [before.get n.isLt (by decide)] at on
  rw [← after.slot n.isLt] at on applied due drive
  obtain ⟨k, path⟩ := takePath_slot h n.val (State.onSlot { s with pads := p } n.val (fun h s => periodStart h n.val s))
  have atRest := syncPad_slot_of_rest n.isLt _ ((congrArg Slot.drive path).trans drive)
  refine .intro (exec_slotPeriodStart runs begins) ?_
  rw [opened, atRest, path]
  exact ⟨on, applied, due⟩

theorem mode_of_atTick {i count cyc : Nat} (now : s.atTick i count cyc = true) : s.power.mode = .run := by
  unfold State.atTick at now
  simp only [Bool.and_eq_true, decide_eq_true_eq] at now
  exact now.1.1.1.1

theorem mode_of_riseNow {k : Nat} (now : s.riseNow h k = true) : s.power.mode = .run := by
  unfold State.riseNow at now
  exact mode_of_atTick (Bool.and_eq_true_iff.mp now).2

/-- The pad of a slot that drives takes I_ON where nothing takes the pad from it. -/
theorem padWanted_on {k : Nat} (vaon : s.power.vaon = true) (running : s.power.mode = .run) (xref : s.power.xref = true)
    (noScan : s.scanDrives = false) (free : (s.pad k).latch = none) (held : s.orphaned (k / 16) = false)
    (runs : s.computes (s.livePath k) = true) (uncut : (s.pad k).cut = false) (allowed : s.onAllowed k = true)
    (drives : (s.slot (s.livePath k) k).drive = true) : s.padWanted k = .on := by
  simp [State.padWanted, State.slotWanted, vaon, running, xref, noScan, free, held, runs, uncut, allowed, drives]

theorem pulseRise_gives (runs : s.computes (s.livePath n.val) = true) (held : s.orphaned (n.val / 16) = false)
    (now : s.riseNow (s.livePath n.val) n.val = true) (free : s.interlocked n.val = false)
    (first : s.lowerRises n.val = false) (vaon : s.power.vaon = true) (xref : s.power.xref = true)
    (noScan : s.scanDrives = false) (unlatched : (s.pad n.val).latch = none) (uncut : (s.pad n.val).cut = false) :
    Gives (.pulseRise n) s (fun t =>
      (t.pad n.val).level = .on ∧ (t.slot (s.livePath n.val) n.val).drive = true) := by
  have running := mode_of_riseNow now
  have rises : exec (.pulseRise n) s = .next (syncPad n.val (s.onSlot n.val (fun h s => riseCopy false h n.val s))) := by
    show execPulseRise n s = _
    rw [execPulseRise, free, first]
    rfl
  obtain ⟨v, before, after⟩ := onSlot_elsewhere (n := n.val) runs (riseCopy_actsOnCopy n.isLt false)
  have drives : ((s.onSlot n.val fun h s => riseCopy false h n.val s).slot (s.livePath n.val) n.val).drive = true := by
    obtain ⟨x, pulse, on⟩ := startPulse_slot (s.livePath n.val) n.val v
    rw [after.slot n.isLt]
    unfold riseCopy
    rw [before.riseNow n.isLt, now, if_pos rfl, if_neg (by decide), pulse, State.slot_setSlot, on]
  obtain ⟨x, m, only⟩ := riseUnheld_slots n.val s
  rw [only] at drives
  have allowed : State.onAllowed { s with slots := x, mirrors := m } n.val = true := by
    show (decide ((s.pad n.val).level = .on) || !s.interlocked n.val) = true
    rw [free, Bool.not_false, Bool.or_true]
  have idle := holdPulse_idle (t := n.val) (s := { s with slots := x, mirrors := m }) (.inr allowed)
  refine .intro rises ?_
  rw [only]
  refine ⟨?_, ?_⟩
  · rw [(syncPad_pad _ _).1, idle]
    exact padWanted_on vaon running xref noScan unlatched held runs uncut allowed drives
  · rw [syncPad_slot, idle]
    exact drives

theorem pulseRise_held_gives (runs : s.computes h = true) (now : s.riseNow h n.val = true)
    (locked : s.interlocked n.val = true) :
    Gives (.pulseRise n) s (fun t =>
      (t.slot h n.val).riseDue = false ∧ (t.slot h n.val).drive = false
        ∧ t.flag (termKey h n.val) Reg.TD_STAT_ILK_HOLD = true) := by
  have rises : exec (.pulseRise n) s = .next (syncPad n.val (s.onSlot n.val (fun h s => riseCopy true h n.val s))) := by
    show execPulseRise n s = _
    rw [execPulseRise, locked]
    rfl
  obtain ⟨v, before, after⟩ := onSlot_elsewhere (n := n.val) runs (riseCopy_actsOnCopy n.isLt true)
  have suppressed : riseCopy true h n.val v = suppress h n.val v := by
    rw [riseCopy, before.riseNow n.isLt, now, if_pos rfl, if_pos rfl]
  rw [suppressed] at after
  obtain ⟨drive, due⟩ := suppress_slot h n.val v
  rw [← after.slot n.isLt] at drive due
  refine .intro rises ⟨?_, ?_, ?_⟩
  · rw [syncPad_slot_of_rest n.isLt _ drive, due]
  · rw [syncPad_slot_of_rest n.isLt _ drive, drive]
  · rw [syncPad_flag_of_rest n.isLt _ drive (by decide), after.flag n.isLt (by decide), suppress_ilkHold h n.isLt]

/-! ## The comparator and the fall (R143, R147, R148, R161) -/

theorem tripBlankEnd_gives (on : (s.pad n.val).level = .on) (passed : (s.pad n.val).riseAt + 100 ≤ s.tref) :
    Gives (.tripBlankEnd n) s (fun t => (t.pad n.val).armed = true ∧ t = { s with pads := t.pads }) := by
  have armed : exec (.tripBlankEnd n) s = .next (s.setPad n.val { s.pad n.val with armed := true }) := by
    show execTripBlankEnd n s = _
    rw [execTripBlankEnd, if_pos ⟨on, passed⟩]
  exact .intro armed ⟨by rw [State.pad_setPad], rfl⟩

theorem pulseFall_gives {code at_ : Nat} {bad : Bool} (runs : s.computes h = true) (now : s.fallNow h n.val = true)
    (taken : (s.slot h n.val).sample = some (code, bad, at_)) :
    Gives (.pulseFall n) s (fun t =>
      (t.slot h n.val).drive = false ∧ (t.slot h n.val).fellAt = some s.tref ∧ (t.slot h n.val).sample = none
        ∧ t.get (termKey h n.val) Reg.TS_TEL_CODE = code % 4096
        ∧ t.get (termKey h n.val) Reg.TS_TEL_CLS = telClass code bad) := by
  obtain ⟨v, before, after⟩ := onSlot_elsewhere (n := n.val) runs (fallCopy_actsOnCopy n.isLt)
  rw [before.fallNow n.isLt, now, if_pos rfl] at after
  have tref : v.tref = s.tref := (congrArg State.tref before.bare :)
  obtain ⟨drive, fell, gone, shown, cls⟩ := fallCopy_gives n.isLt (before.slot n.isLt ▸ taken)
  rw [← after.slot n.isLt] at drive fell gone
  refine .intro rfl ?_
  rw [syncPad_slot_of_rest n.isLt _ drive, syncPad_get_of_rest n.isLt _ drive (by decide),
    syncPad_get_of_rest n.isLt _ drive (by decide), after.get n.isLt (by decide), after.get n.isLt (by decide), ← tref]
  exact ⟨drive, fell, gone, shown, cls⟩

end

end Sys2Proof.Machine
end

section
/-! PROOF. Conversions of the bay SAR, readbacks, compliance and ages (O13). -/

namespace Sys2Proof.Machine

/-! ## Conversions (R165, R245) -/

theorem bits_sense (v : Nat) (code : BitVec 12) : bits (inField 15 12 v ||| inField 11 0 code.toNat) 11 0 = code.toNat := by
  refine Nat.eq_of_testBit_eq fun i => ?_
  rw [testBit_bits, BitVec.toNat_or, Nat.testBit_or, inField, inField, testBit_setBits _ _ _ _ _ (by decide) (by decide),
    testBit_setBits _ _ _ _ _ (by decide) (by decide)]
  by_cases hi : i < 12
  · have apart : ¬(12 ≤ i ∧ i ≤ 15) := by omega
    simp [hi, apart, show i ≤ 11 by omega]
  · have high : code.toNat.testBit i = false := Nat.testBit_lt_two_pow (lt_of_lt_of_le code.isLt (Nat.pow_le_pow_right (by decide) (by omega)))
    simp [hi, high]

section

variable {h : Half} {b : Fin 64} {code : BitVec 12} {c : Nat} {s : State}

/-- A SAR cycle whose sample instant is now and whose conversion has not been made. -/
theorem exec_sarCycle (instant : s.sarCycle = some c) (undone : (s.sar b.val).done ≠ some s.onTref) :
    exec (.sarCycle b code) s = .next
      (let s1 := if c % 4 = 0 then senseCycle b.val (decide (c % 8 = 0)) code.toNat s
        else s.onCopies (fun h s => terminalCycle h b.val code.toNat s)
      s1.setSar b.val { s1.sar b.val with done := some s.onTref }) := by
  show execSarCycle b code s = _
  rw [execSarCycle, instant]
  dsimp only
  rw [if_neg undone]

theorem sense_gives (instant : s.sarCycle = some c) (eighth : c % 8 = 0) (undone : (s.sar b.val).done ≠ some s.onTref)
    (runs : s.computes h = true) :
    Gives (.sarCycle b code) s (fun t =>
      (t.sar b.val).done = some s.onTref ∧ (t.sar b.val).lsv = some (code.toNat, s.timeNs)
        ∧ bits (t.reg (bayKey h b.val + Reg.LN_SNS_V)) 11 0 = code.toNat) := by
  have acts : ActsOnCopy fun g v => v.setReg (bayKey g b.val + Reg.LN_SNS_V)
      (inField 15 12 (bits (v.reg (bayKey g b.val + Reg.LN_SNS_V)) 15 12 + 1) ||| inField 11 0 code.toNat) := fun g v => by
    refine apart_setReg v (.inl ?_) _
    rw [copyKeys, Set.mem_Ico, bayKey, Reg.LN_SNS_V]
    omega
  obtain ⟨v, before, after⟩ := onCopies_elsewhere runs acts
  have converted := exec_sarCycle (code := code) instant undone
  rw [if_pos (by omega), decide_eq_true eighth] at converted
  refine .intro converted ⟨?_, ?_, ?_⟩
  · simp
  · simp [senseCycle]
  · refine (congrArg (bits · 11 0) (after.bay b.isLt (by decide) (by decide))).trans ?_
    rw [State.reg_setReg]
    exact bits_sense _ code

/-! ## Terminals' requests (R165) -/

/-- The request that comes first is of one of the bay's terminals. -/
theorem earliest_mem {n : Nat} {probe : Bool} (first : s.earliest h b.val = some (n, probe)) :
    16 * b.val ≤ n ∧ n < 16 * b.val + 16 := by
  unfold State.earliest at first
  rw [Option.map_eq_some_iff] at first
  obtain ⟨⟨d, m, p⟩, found, same⟩ := first
  obtain ⟨rfl, rfl⟩ := Prod.mk.inj same
  refine List.foldlRecOn (motive := fun best => ∀ d m p, best = some (d, m, p) → 16 * b.val ≤ m ∧ m < 16 * b.val + 16)
    (List.range 16) _ (by simp) (fun best ih k hk => ?_) d m p found
  have lt := List.mem_range.mp hk
  intro d m p took
  split at took
  · simp only [Option.some.injEq, Prod.mk.injEq] at took
    omega
  · split at took
    · simp only [Option.some.injEq, Prod.mk.injEq] at took
      omega
    · exact ih _ _ _ took
  · exact ih _ _ _ took

theorem terminalCycle_actsOnCopy (b : Fin 64) (code : Nat) : ActsOnCopy fun g v => terminalCycle g b.val code v := by
  intro g v
  have request {n : Nat} (lt : n < 16 * b.val + 16) : slotIx g n ∈ copySlots g := slotIx_mem_copySlots g (by omega)
  dsimp only
  unfold terminalCycle
  split
  · next k found =>
    have := List.mem_range.mp (List.mem_of_find?_eq_some found)
    exact apart_setSlot v (request (by omega)) _
  · split
    · next n first => exact apart_setSlot v (request (earliest_mem first).2) _
    · next n first =>
      have lt := (earliest_mem first).2
      exact apart_probeSample v (termPage_subset_copyKeys g (by omega)) (request lt) code
    · rfl

theorem terminalRequest_gives {n : Nat} (instant : s.sarCycle = some c) (other : c % 4 ≠ 0)
    (undone : (s.sar b.val).done ≠ some s.onTref) (runs : s.computes h = true)
    (noTurnaround : ∀ k : Nat, k < 16 → s.turnaroundDue h (16 * b.val + k) = false)
    (first : s.earliest h b.val = some (n, false)) :
    Gives (.sarCycle b code) s (fun t =>
      (t.slot h n).sample = some (code.toNat, (s.slot h n).noPath, s.timeNs) ∧ (t.slot h n).telReq = none
        ∧ (t.sar b.val).done = some s.onTref) := by
  obtain ⟨-, lt⟩ := earliest_mem first
  have hn : n < 1024 := by omega
  obtain ⟨v, before, after⟩ := onCopies_elsewhere runs (terminalCycle_actsOnCopy b code.toNat)
  have noneDue : (List.range 16).find? (fun k => v.turnaroundDue h (16 * b.val + k)) = none :=
    List.find?_eq_none.mpr fun k hk => by
      have hk := List.mem_range.mp hk
      rw [before.turnaroundDue (by omega), noTurnaround k hk]
      decide
  have takes : terminalCycle h b.val code.toNat v = v.setSlot h n
      { v.slot h n with telReq := none, noPath := false, sample := some (code.toNat, (v.slot h n).noPath, v.timeNs) } := by
    rw [terminalCycle, noneDue]
    dsimp only
    rw [before.earliest b.isLt, first]
  have slot := after.slot hn
  rw [takes, State.slot_setSlot] at slot
  have time : v.timeNs = s.timeNs := (congrArg State.timeNs before.bare :)
  have converted := exec_sarCycle (code := code) instant undone
  rw [if_neg other] at converted
  refine .intro converted ⟨?_, ?_, State.sar_setSar _ _ _ ▸ rfl⟩
  · show ((s.onCopies fun h s => terminalCycle h b.val code.toNat s).slot h n).sample = _
    rw [slot, ← before.slot hn, ← time]
  · show ((s.onCopies fun h s => terminalCycle h b.val code.toNat s).slot h n).telReq = _
    rw [slot]

end

/-! ## Readbacks of thresholds (R164) -/

section

variable {h : Half} {b : Fin 64} {which : Nat} {s : State}

theorem markThreshold_eq (g : Half) (low : which < 16) (v : State) :
    markThreshold g b.val which v = v.put (termKey g (16 * b.val + which)) Reg.TS_STAT_THR_BAD 1 := if_pos low

/-- THR_BAD of a terminal's converter, set in every copy that computes. -/
theorem markThreshold_thrBad (low : which < 16) (runs : s.computes h = true) :
    (s.onCopies fun g v => markThreshold g b.val which v).flag (termKey h (16 * b.val + which)) Reg.TS_STAT_THR_BAD
      = true := by
  have acts : ActsOnCopy fun g v => markThreshold g b.val which v := fun g v => by
    dsimp only
    rw [markThreshold_eq g low]
    exact apart_put_term v (termPage_subset_copyKeys g (by omega)) (by decide) _
  obtain ⟨v, -, after⟩ := onCopies_elsewhere runs acts
  rw [after.flag (by omega) (by decide), markThreshold_eq h low]
  exact flag_put_one _ _ (by decide) rfl

/-- A terminal's threshold and its readback exist once, apart from its flags. -/
theorem markThreshold_thr (low : which < 16) (u : State) {f : Fld} (hf : f.addr = 6) :
    (u.onCopies fun g v => markThreshold g b.val which v).get (thrKey (16 * b.val + which)) f
      = u.get (thrKey (16 * b.val + which)) f := by
  refine onCopies_keeps (R := fun v => v.get (thrKey (16 * b.val + which)) f = u.get (thrKey (16 * b.val + which)) f) rfl ?_
  intro g v kept
  rw [markThreshold_eq g low]
  refine (v.get_put_other _ _ _ _ _ ?_).trans kept
  have := b.isLt
  rw [hf]
  cases g <;> (unfold thrKey padKey oneKey termKey bayKey halfKey Half.num; dsimp only; omega)

theorem thresholdReadback_gives {k : Fin 18} {code : BitVec 12} {c : Nat} (instant : s.sarCycle = some c) (other : c % 4 ≠ 0)
    (undone : (s.sar b.val).done ≠ some s.onTref) (due : s.readbackDue b.val k.val = true)
    (untaken : ∀ g : Half, s.computes g = true → s.cycleTaken g b.val = false) (runs : s.computes h = true)
    (low : k.val < 16)
    (far : code.toNat + 32 < 16 * s.thresholdCode (16 * b.val + k.val)
      ∨ 16 * s.thresholdCode (16 * b.val + k.val) + 32 < code.toNat) :
    Gives (.thresholdReadback b k code) s (fun t =>
      t.get (thrKey (16 * b.val + k.val)) Reg.TS_THR_RB = code.toNat
        ∧ t.get (thrKey (16 * b.val + k.val)) Reg.TS_THR_THR = s.get (thrKey (16 * b.val + k.val)) Reg.TS_THR_THR
        ∧ t.flag (termKey h (16 * b.val + k.val)) Reg.TS_STAT_THR_BAD = true) := by
  have idle (g : Half) : (s.computes g && s.cycleTaken g b.val) = false := by
    cases works : s.computes g
    · rfl
    · exact untaken g works
  have bad : (decide (code.toNat + 32 < 16 * s.thresholdCode (16 * b.val + k.val))
      || decide (16 * s.thresholdCode (16 * b.val + k.val) + 32 < code.toNat)) = true := by simpa using far
  have read : readThreshold b.val k.val code.toNat s =
      (s.put (thrKey (16 * b.val + k.val)) Reg.TS_THR_RB code.toNat).onCopies
        (fun g v => markThreshold g b.val k.val v) := by
    unfold readThreshold
    simp only [low, if_true, bad]
  have takes : exec (.thresholdReadback b k code) s = .next
      (let s1 := (s.put (thrKey (16 * b.val + k.val)) Reg.TS_THR_RB code.toNat).onCopies
        (fun g v => markThreshold g b.val k.val v)
      s1.setSar b.val { s1.sar b.val with
        done := some s.onTref, readAt := tblPut (s1.sar b.val).readAt k.val s.onTref }) := by
    show execThresholdReadback b k code s = _
    rw [execThresholdReadback, instant, ← read]
    dsimp only
    rw [if_pos ⟨other, undone, due, by rw [idle .A, idle .B]; rfl⟩]
  refine .intro takes ⟨?_, ?_, ?_⟩
  · refine (markThreshold_thr low _ rfl).trans ?_
    rw [State.get_put _ _ _ _ (by decide) (by decide)]
    exact Nat.mod_eq_of_lt code.isLt
  · refine (markThreshold_thr low _ rfl).trans ?_
    exact State.get_put_apart _ _ _ Reg.TS_THR_RB Reg.TS_THR_THR (by decide) (by decide) rfl (.inr (by decide))
  · exact markThreshold_thrBad low runs

theorem thresholdStale_gives {k : Fin 18} (stale : s.readbackStale b.val k.val = true) (runs : s.computes h = true)
    (low : k.val < 16) :
    Gives (.thresholdStale b k) s (fun t => t.flag (termKey h (16 * b.val + k.val)) Reg.TS_STAT_THR_BAD = true) := by
  have takes : exec (.thresholdStale b k) s = .next (s.onCopies fun g v => markThreshold g b.val k.val v) := by
    show execThresholdStale b k s = _
    rw [execThresholdStale, if_pos stale]
  exact .intro takes (markThreshold_thrBad low runs)

end

/-! ## Compliance (R142) -/

theorem complianceLoss_gives {h : Half} {n : Fin 1024} {s : State} (runs : s.computes h = true) :
    Gives (.complianceLoss n) s (fun t =>
      t.flag (termKey h n.val) Reg.TS_STAT_COMP = true ∧ (t.slot h n.val).noPath = true) := by
  have acts : ActsOnCopy fun g v =>
      (v.put (termKey g n.val) Reg.TS_STAT_COMP 1).setSlot g n.val { v.slot g n.val with noPath := true } := fun g v =>
    (apart_setSlot _ (slotIx_mem_copySlots g n.isLt) _).trans
      (apart_put_term v (termPage_subset_copyKeys g n.isLt) (by decide) _)
  obtain ⟨v, -, after⟩ := onCopies_elsewhere runs acts
  have inSlot (u : State) (x : Slot) : (u.setSlot h n.val x).flag (termKey h n.val) Reg.TS_STAT_COMP
      = u.flag (termKey h n.val) Reg.TS_STAT_COMP := rfl
  refine .intro rfl ⟨?_, ?_⟩
  · rw [after.flag n.isLt (by decide), inSlot]
    exact flag_put_one _ _ (by decide) rfl
  · rw [after.slot n.isLt, State.slot_setSlot]

/-! ## Ages (R178) -/

/-- What a table finds it lists. -/
theorem mem_of_tblFind {α : Type} {l : Tbl α} {k : Nat} {v : α} (found : tblFind l k = some v) : (k, v) ∈ l := by
  induction l with
  | nil => simp at found
  | cons e l ih =>
    rw [tblFind] at found
    split at found
    · next same =>
      cases found
      exact same ▸ List.mem_cons_self
    · exact List.mem_cons_of_mem _ (ih found)

/-- The address of an age (R32, R196). -/
theorem ageKey_mod (h : Half) {n : Nat} (hn : n < 1024) :
    ageKey h n % 0x100000 = 0x10000 + 0x400 * (n / 16) + (0x50 + n % 16) := by
  cases h <;> (unfold ageKey bayKey halfKey Half.num Reg.TD_AGE; dsimp only; omega)

/-- Out of reset an age is at its maximum. -/
theorem regReset_age (h : Half) {n : Nat} (hn : n < 1024) : regReset (ageKey h n) = 0xFFFFF := by
  have rows : ∀ k < 16, (bayRows.find? (fun r => r.has (0x50 + k))).map (fun r => BitVec.ofNat 20 r.reset) = some 0xFFFFF := by
    decide
  have place := ageKey_mod h hn
  have row : regRow? (ageKey h n % 0x100000) = bayRows.find? (fun r => r.has (0x50 + n % 16)) := by
    rw [place, regRow?, rowsAt, if_neg (by omega), if_neg (by omega), if_neg (by omega), if_pos (by omega)]
    dsimp only
    rw [show (0x10000 + 0x400 * (n / 16) + (0x50 + n % 16) - 0x10000) % 0x400 = 0x50 + n % 16 by omega]
  obtain ⟨r, found, reset⟩ := Option.map_eq_some_iff.mp (rows (n % 16) (Nat.mod_lt _ (by decide)))
  unfold regReset
  dsimp only
  rw [row, found, if_neg (by omega), if_neg (by omega), if_neg (by omega), if_neg (by omega), if_neg (by omega)]
  exact reset

theorem ageOwner_ageKey (h : Half) {n : Nat} (hn : n < 1024) : ageOwner (ageKey h n) = some (h, n) := by
  have copy : ageKey h n = h.num * 0x100000 + ageKey h n % 0x100000 := by
    rw [ageKey_mod h hn, ageKey, bayKey, halfKey, Reg.TD_AGE]
    omega
  rw [ageKey_mod h hn] at copy
  unfold ageOwner
  dsimp only
  rw [ageKey_mod h hn]
  have index : 16 * ((0x10000 + 0x400 * (n / 16) + (0x50 + n % 16) - 0x10000) / 0x400)
      + ((0x10000 + 0x400 * (n / 16) + (0x50 + n % 16)) % 0x400 - Reg.TD_AGE) = n := by
    unfold Reg.TD_AGE
    omega
  rw [index]
  unfold Reg.TD_AGE
  cases h with
  | A =>
    rw [Half.num] at copy
    rw [if_pos (by omega), decide_eq_false (by omega)]
    rfl
  | B =>
    rw [Half.num] at copy
    rw [if_pos (by omega), decide_eq_true (by omega)]
    rfl

/-- An age below its maximum is listed. -/
theorem owner_listed {h : Half} {n : Nat} (hn : n < 1024) {s : State} (counts : s.reg (ageKey h n) ≠ 0xFFFFF) :
    (h, n) ∈ s.regs.filterMap (fun e => ageOwner e.1) := by
  cases found : tblFind s.regs (ageKey h n) with
  | none =>
    refine absurd ?_ counts
    rw [State.reg, tblGet, found, Option.getD_none, regReset_age h hn]
  | some w => exact List.mem_filterMap.mpr ⟨_, mem_of_tblFind found, ageOwner_ageKey h hn⟩

/-- The age that TD_AGE_TICK gives a copy's terminal. -/
def State.agedBy (s : State) (p : Half × Nat) : Word :=
  BitVec.ofNat 20 (min 0xFFFFF ((s.reg (ageKey p.1 p.2)).toNat + 1))

/-- One terminal's part of the tick: of the ages, it gives its own its new value. -/
theorem tick_reg (s u : State) (p : Half × Nat) (h : Half) {n : Nat} (hn : n < 1024) :
    (refreshHealth p.1 p.2 (u.setReg (ageKey p.1 p.2) (s.agedBy p))).reg (ageKey h n)
      = if ageKey h n = ageKey p.1 p.2 then s.agedBy p else u.reg (ageKey h n) := by
  have health := apart_refreshHealth (P := {termKey p.1 p.2 + Reg.TD_STAT}) (S := ∅) (h := p.1) (t := p.2)
    (u.setReg (ageKey p.1 p.2) (s.agedBy p)) (Set.mem_singleton _)
  rw [reg_of_apart health ?_ (age_not_mem_logKeys h hn), State.reg_setReg_if]
  rw [Set.mem_singleton_iff]
  unfold ageKey termKey bayKey halfKey Reg.TD_AGE Reg.TD_STAT
  omega

theorem ageTick_age {h : Half} {n : Nat} (hn : n < 1024) {s : State} (runs : s.computes h = true) (l : List (Half × Nat)) :
    ∀ u : State, (h, n) ∈ l ∨ u.reg (ageKey h n) = s.agedBy (h, n) →
      (l.foldl (fun u p => if s.computes p.1 then refreshHealth p.1 p.2 (u.setReg (ageKey p.1 p.2) (s.agedBy p)) else u) u).reg
        (ageKey h n) = s.agedBy (h, n) := by
  induction l with
  | nil => exact fun u stands => stands.resolve_left List.not_mem_nil
  | cons p l ih =>
    intro u stands
    refine ih _ ?_
    dsimp only
    by_cases own : ageKey h n = ageKey p.1 p.2 ∧ s.computes p.1 = true
    · obtain ⟨same, works⟩ := own
      right
      rw [if_pos works, tick_reg s u p h hn, if_pos same, State.agedBy, State.agedBy, same]
    · have kept : (if s.computes p.1 then refreshHealth p.1 p.2 (u.setReg (ageKey p.1 p.2) (s.agedBy p)) else u).reg
          (ageKey h n) = u.reg (ageKey h n) := by
        split
        · next works => rw [tick_reg s u p h hn, if_neg fun same => own ⟨same, works⟩]
        · rfl
      rw [kept]
      refine stands.imp_left fun listed => (List.mem_cons.mp listed).resolve_left ?_
      rintro rfl
      exact own ⟨rfl, runs⟩

theorem tdAgeTick_gives {h : Half} {n : Fin 1024} {s : State} (runs : s.computes h = true)
    (counts : s.reg (ageKey h n.val) ≠ 0xFFFFF) :
    Gives .tdAgeTick s (fun t => (t.reg (ageKey h n.val)).toNat = (s.reg (ageKey h n.val)).toNat + 1) := by
  refine .intro rfl ?_
  have aged : (ageTick s).reg (ageKey h n.val) = s.agedBy (h, n.val) :=
    ageTick_age n.isLt runs _ s (.inl (owner_listed n.isLt counts))
  have below : (s.reg (ageKey h n.val)).toNat < 0xFFFFF := by bv_omega
  rw [aged, State.agedBy, BitVec.toNat_ofNat]
  dsimp only
  omega

/-! ## The obligation -/

/-- Settles O13: every meaning acts on one copy of the terminal at a time, goes by that copy's own registers and slot, and
leaves the other copy's alone; what the pad's level then takes from a copy, only a pulse that drives can lose. -/
theorem pulsesAndSamplesTakeEffect : Obligations.PulsesAndSamplesTakeEffect :=
  ⟨fun _ _ _ runs begins enabled untripped noTalk noExchange noRepay rests noSlew noProof =>
      slotPeriodStart_gives runs begins enabled untripped noTalk noExchange noRepay rests noSlew noProof,
    fun _ _ runs held now free first vaon xref noScan unlatched uncut =>
      pulseRise_gives runs held now free first vaon xref noScan unlatched uncut,
    fun _ _ _ runs now locked => pulseRise_held_gives runs now locked,
    fun _ _ on passed => tripBlankEnd_gives on passed,
    fun _ _ _ _ _ _ runs now taken => pulseFall_gives runs now taken,
    fun _ _ _ _ _ instant eighth undone runs => sense_gives instant eighth undone runs,
    fun _ _ _ _ _ _ instant other undone runs noTurnaround first =>
      terminalRequest_gives instant other undone runs noTurnaround first,
    fun _ _ _ _ _ _ instant other undone due untaken runs low far =>
      thresholdReadback_gives instant other undone due untaken runs low far,
    fun _ _ _ _ stale runs low => thresholdStale_gives stale runs low,
    fun _ _ _ runs => complianceLoss_gives runs,
    fun _ _ _ runs counts => tdAgeTick_gives runs counts⟩

end Sys2Proof.Machine
end

section
/-! SUPPORT. Trips, requests and exchanges in one copy (R153 to R157, R161, R162, R173, R176). -/

namespace Sys2Proof.Machine

/-! ## Trips (R161, R162, R176) -/

theorem flag_setPad (s : State) (t b : Nat) (p : Pad) (f : Fld) : (s.setPad t p).flag b f = s.flag b f := rfl

theorem slots_bayRecord (h : Half) (b : Nat) (en : Fld) (rtype : Nat) (payload : List Byte) (s : State) :
    (bayRecord h b en rtype payload s).slots = s.slots :=
  (congrArg (fun v => v.1.slots) (apartCoding_bayRecord h ⟨0, by simp [codingKeys]⟩ s b en rtype payload) :)

theorem slots_raiseBayEvent (h : Half) (b : Nat) (e : BayEvent) (s : State) : (raiseBayEvent h b e s).slots = s.slots := by
  obtain ⟨r, c, i, w, only⟩ := raiseBayEvent_only h b e s
  rw [only]

theorem refreshHealth_slots (h : Half) (t : Nat) (s : State) : (refreshHealth h t s).slots = s.slots := by
  unfold refreshHealth
  dsimp only
  split
  · rfl
  · rw [slots_raiseBayEvent, slots_bayRecord, State.put_slots, State.put_slots]

section

variable {h : Half} {n : Nat} (hn : n < 1024) {s : State}
include hn

/-- While TRIP is set HEALTH reads TRIPPED. -/
theorem refreshHealth_of_trip (tripped : s.flag (termKey h n) Reg.TS_STAT_TRIP = true) :
    (refreshHealth h n s).get (termKey h n) Reg.TD_STAT_HEALTH = 8 := by
  have now : s.healthNow h n = 8 := by rw [State.healthNow, if_pos tripped]
  unfold refreshHealth
  dsimp only
  rw [now]
  split
  · assumption
  · rw [get_of_apart (P := ∅) (S := ∅) ((apart_raiseBayEvent _ h (n / 16) _).trans (apart_bayRecord _ h (n / 16) _ _ _))
        (Set.notMem_empty _) (term_not_mem_logKeys h hn (by decide)),
      State.get_put_apart _ _ _ Reg.TD_STAT_HCHG Reg.TD_STAT_HEALTH (by decide) (by decide) rfl (.inl (by decide)),
      State.get_put _ _ _ _ (by decide) (by decide)]
    rfl

theorem tripCopy_gives :
    ((tripCopy h n s).slot h n).drive = false ∧ ((tripCopy h n s).slot h n).sample = none
      ∧ (tripCopy h n s).flag (termKey h n) Reg.TS_STAT_TRIP = true
      ∧ (tripCopy h n s).get (termKey h n) Reg.TD_STAT_HEALTH = 8
      ∧ ((tripCopy h n s).reg (termKey h n + Reg.TS_TRIPS)).toNat
        = min 0xFFFFF ((s.reg (termKey h n + Reg.TS_TRIPS)).toNat + 1) := by
  set marked := (s.put (termKey h n) Reg.TS_STAT_TRIP 1).count (termKey h n + Reg.TS_TRIPS) 1 with hmarked
  set dropped := dropProof h n marked with hdropped
  set cut := dropped.setSlot h n { dropped.slot h n with
    drive := false, riseDue := false, sample := none, telReq := none, prev := 0, fellAt := some s.tref } with hcut
  set P : Set Nat := {termKey h n + Reg.TD_STAT, excessKey h n} with hP
  have plain {o : Nat} (ho : o < 0x10) := term_not_mem_logKeys h hn ho
  have other {o : Nat} (ho : o < 0xF) : termKey h n + o ∉ P := by
    simp only [hP, Set.mem_insert_iff, Set.mem_singleton_iff]
    unfold termKey excessKey Reg.TD_STAT Reg.TD_EXCESS
    omega
  have ofMarked : cut.apart P {slotIx h n} = marked.apart P {slotIx h n} := by
    rw [hcut, apart_setSlot _ (Set.mem_singleton _), hdropped,
      apart_dropProof marked (.inl rfl) (.inr rfl) (Set.mem_singleton _)]
  have logged : (tripCopy h n s).apart ∅ ∅ = (refreshHealth h n cut).apart ∅ ∅ := by
    unfold tripCopy
    dsimp only
    rw [apart_raiseBayEvent, apart_bayRecord]
  have ofCut : (tripCopy h n s).apart P ∅ = cut.apart P ∅ :=
    (apart_mono logged (Set.empty_subset _) subset_rfl).trans (apart_refreshHealth cut (.inl rfl))
  have trip : cut.flag (termKey h n) Reg.TS_STAT_TRIP = true := by
    rw [flag_of_apart ofMarked (other (by decide)) (plain (by decide)), hmarked, State.count,
      flag_setReg_other _ _ (by decide), flag_put_one _ _ (by decide) rfl]
  have slot : (tripCopy h n s).slot h n = cut.slot h n := slot_of_apart ofCut (Set.notMem_empty _)
  rw [hcut, State.slot_setSlot] at slot
  refine ⟨by rw [slot], by rw [slot], ?_, ?_, ?_⟩
  · rw [flag_of_apart ofCut (other (by decide)) (plain (by decide)), trip]
  · rw [get_of_apart logged (Set.notMem_empty _) (plain (by decide)), refreshHealth_of_trip hn trip]
  · rw [reg_of_apart ofCut (other (by decide)) (plain (by decide)), reg_of_apart ofMarked (other (by decide)) (plain (by decide)),
      hmarked, State.reg_count, State.reg_put_other _ _ _ _ (by simp)]

theorem tripCopy_actsOnCopy : ActsOnCopy fun g v => tripCopy g n v := fun g v =>
  apart_tripCopy v (termPage_subset_copyKeys g hn) (slotIx_mem_copySlots g hn)

omit hn in
/-- Of a cleared trip's copy HEALTH alone follows. -/
theorem clearTrip_health {P S : Set Nat} (stat : termKey h n + Reg.TD_STAT ∈ P) :
    (refreshHealth h n (s.put (termKey h n) Reg.TS_STAT_TRIP 0)).apart P S
      = (s.put (termKey h n) Reg.TS_STAT_TRIP 0).apart P S := apart_refreshHealth _ stat

/-- A trip cleared: its bit, and the hold on the pad. -/
theorem clearTrip_gives :
    (clearTrip h n s).flag (termKey h n) Reg.TS_STAT_TRIP = false ∧ ((clearTrip h n s).pad n).cut = false := by
  have kept := clearTrip_health (P := {termKey h n + Reg.TD_STAT}) (S := ∅) (h := h) (n := n) (s := s) (Set.mem_singleton _)
  unfold clearTrip
  dsimp only
  rw [flag_setPad, State.pad_setPad, flag_of_apart kept (by simp) (term_not_mem_logKeys h hn (by decide)),
    flag_put_zero _ _ (by decide) (by decide)]
  exact ⟨rfl, rfl⟩

/-- The other half's trip is cleared apart from this half's copy. -/
theorem clearTrip_other :
    (clearTrip h.other n s).flag (termKey h n) Reg.TS_STAT_TRIP = s.flag (termKey h n) Reg.TS_STAT_TRIP := by
  have page := termPage_subset_copyKeys h.other hn
  have kept : Elsewhere h s (refreshHealth h.other n (s.put (termKey h.other n) Reg.TS_STAT_TRIP 0)) :=
    (clearTrip_health (term_mem page (by decide))).trans (apart_put_term s page (by decide) _)
  unfold clearTrip
  dsimp only
  rw [flag_setPad, kept.flag hn (by decide)]

omit hn in
theorem clearTrip_slots : (clearTrip h n s).slots = s.slots := by
  unfold clearTrip
  dsimp only
  rw [State.setPad_slots, refreshHealth_slots, State.put_slots]

omit hn in
theorem clearTrip_computes (x : Half) : (clearTrip h n s).computes x = s.computes x := by
  have pads (u : State) (p : Pad) : (u.setPad n p).computes x = u.computes x := by cases x <;> rfl
  have written : (s.put (termKey h n) Reg.TS_STAT_TRIP 0).apart Set.univ ∅ = s.apart Set.univ ∅ :=
    apart_put s (Set.mem_univ _) _
  unfold clearTrip
  dsimp only
  rw [pads, State.computes_of_bare (bare_of_apart (clearTrip_health (P := Set.univ) (S := ∅) (Set.mem_univ _))),
    State.computes_of_bare (bare_of_apart written)]

end

/-- What an act on this half's copy brings about, and no act on the other's takes away, holds after an act on every copy. -/
theorem onCopies_reaches {R : State → Prop} {h : Half} {f : Half → State → State} {s : State} (runs : s.computes h = true)
    (still : ∀ g v x, (f g v).computes x = v.computes x) (reaches : ∀ v, R (f h v)) (keeps : ∀ v, R v → R (f h.other v)) :
    R (s.onCopies f) := by
  unfold State.onCopies
  dsimp only
  cases h with
  | A =>
    rw [if_pos runs]
    split
    · exact keeps _ (reaches s)
    · exact reaches s
  | B =>
    rw [if_pos (by rw [apply_ite (State.computes · .B), still, ite_self, runs])]
    exact reaches _

/-! ## Requests (R156, R160, R173) -/

section

variable {h : Half} {n : Nat} {s : State}

theorem requestTalk_locked (host : Bool) (g : Half) (t arg : Nat) (v : State) :
    requestTalk host false g t 5 arg v
      = (v.put (termKey g t) Reg.TS_TALK_ST_STATUS St.ENVELOPE_LOCKED).put (termKey g t) Reg.TS_STAT_TALK_DONE 1 := by
  rw [requestTalk, if_pos ⟨rfl, rfl⟩]

theorem requestTalk_occupied (host : Bool) {op : Nat} (arg : Nat) (other : op ≠ 5) (busy : (s.slot h n).talk.isSome = true) :
    requestTalk host false h n op arg s
      = (s.put (termKey h n) Reg.TS_TALK_ST_STATUS St.BUSY).put (termKey h n) Reg.TS_STAT_TALK_DONE 1 := by
  rw [requestTalk, if_neg fun locked => other locked.1, if_pos busy]

theorem requestTalk_free (host : Bool) {op : Nat} (arg : Nat) (other : op ≠ 5) (free : (s.slot h n).talk = none) :
    requestTalk host false h n op arg s
      = ((s.put (termKey h n) Reg.TS_TALK_ST_BUSY 1).put (termKey h n) Reg.TS_TALK_ST_TRIES 0).setSlot h n
        { s.slot h n with talk := some ⟨op, arg, host, s.onTref, 0, false, 0, false, false, false, none, none⟩ } := by
  rw [requestTalk, if_neg fun locked => other locked.1, if_neg (by rw [free]; decide)]

/-- The outcome of a request that is not taken. -/
theorem get_status_put_done {st : Nat} (fits : st < 256) :
    ((s.put (termKey h n) Reg.TS_TALK_ST_STATUS st).put (termKey h n) Reg.TS_STAT_TALK_DONE 1).get (termKey h n)
      Reg.TS_TALK_ST_STATUS = st := by
  rw [State.get_put_other _ _ _ _ _ _ (by simp), State.get_put _ _ _ _ (by decide) (by decide)]
  exact Nat.mod_eq_of_lt fits

theorem requestTalk_actsOnCopy (hn : n < 1024) (host env : Bool) (op arg : Nat) :
    ActsOnCopy fun g v => requestTalk host env g n op arg v := fun g v =>
  apart_requestTalk v (termPage_subset_copyKeys g hn) (slotIx_mem_copySlots g hn) host env op arg

theorem cancelTalk_actsOnCopy (hn : n < 1024) : ActsOnCopy fun g v => cancelTalk g n v := fun g v =>
  apart_cancelTalk v (termPage_subset_copyKeys g hn) (slotIx_mem_copySlots g hn)

theorem finishTalk_actsOnCopy (hn : n < 1024) (reply : Word) : ActsOnCopy fun g v => finishTalk g n reply v := fun g v =>
  apart_finishTalk v (termPage_subset_copyKeys g hn) (slotIx_mem_copySlots g hn) reply

theorem markTalk_actsOnCopy (hn : n < 1024) : ActsOnCopy fun g v => markTalk g n v := fun g v =>
  apart_markTalk v (termPage_subset_copyKeys g hn) (slotIx_mem_copySlots g hn)

theorem endTalk_gives {st : Nat} (fits : st < 256) (wait tries : Nat) :
    ((endTalk h n st wait tries s).slot h n).talk = none
      ∧ (endTalk h n st wait tries s).get (termKey h n) Reg.TS_TALK_ST_STATUS = st
      ∧ (endTalk h n st wait tries s).flag (termKey h n) Reg.TS_TALK_ST_BUSY = false
      ∧ (endTalk h n st wait tries s).flag (termKey h n) Reg.TS_STAT_TALK_DONE = true
      ∧ (endTalk h n st wait tries s).reg (termKey h n + Reg.TS_TALK_RSP) = s.reg (termKey h n + Reg.TS_TALK_RSP) := by
  unfold endTalk
  dsimp only
  set noted := if s.holder (n / 16) = h then noteRange n st (s.reg (termKey h n + Reg.TS_TALK_RSP)).toNat s else s with hnoted
  set written := ((((noted.put (termKey h n) Reg.TS_TALK_ST_STATUS st).put (termKey h n) Reg.TS_TALK_ST_BUSY 0).put
    (termKey h n) Reg.TS_TALK_ST_TRIES tries).put (termKey h n) Reg.TS_TALK_ST_WAIT wait).put (termKey h n)
    Reg.TS_STAT_TALK_DONE 1 with hwritten
  refine ⟨by rw [State.slot_setSlot], ?_, ?_, ?_, ?_⟩
  · rw [State.get, reg_setSlot, ← State.get, hwritten, State.get_put_other _ _ _ _ _ _ (by simp),
      State.get_put_apart _ _ _ Reg.TS_TALK_ST_WAIT Reg.TS_TALK_ST_STATUS (by decide) (by decide) rfl (.inl (by decide)),
      State.get_put_apart _ _ _ Reg.TS_TALK_ST_TRIES Reg.TS_TALK_ST_STATUS (by decide) (by decide) rfl (.inl (by decide)),
      State.get_put_apart _ _ _ Reg.TS_TALK_ST_BUSY Reg.TS_TALK_ST_STATUS (by decide) (by decide) rfl (.inl (by decide)),
      State.get_put _ _ _ _ (by decide) (by decide)]
    exact Nat.mod_eq_of_lt fits
  · rw [State.flag, State.get, reg_setSlot, ← State.get, hwritten, State.get_put_other _ _ _ _ _ _ (by simp), ← State.flag,
      flag_put_apart _ _ Reg.TS_TALK_ST_WAIT Reg.TS_TALK_ST_BUSY _ (by decide) (by decide) rfl (.inl (by decide)),
      flag_put_apart _ _ Reg.TS_TALK_ST_TRIES Reg.TS_TALK_ST_BUSY _ (by decide) (by decide) rfl (.inl (by decide)),
      flag_put_zero _ _ (by decide) (by decide)]
  · rw [State.flag, State.get, reg_setSlot, ← State.get, ← State.flag, hwritten, flag_put_one _ _ (by decide) rfl]
  · have asked : noted.reg (termKey h n + Reg.TS_TALK_RSP) = s.reg (termKey h n + Reg.TS_TALK_RSP) := by
      rw [hnoted]
      split <;> rfl
    have other (u : State) {f : Fld} (v : Nat) (hf : Reg.TS_TALK_RSP ≠ f.addr) :
        (u.put (termKey h n) f v).reg (termKey h n + Reg.TS_TALK_RSP) = u.reg (termKey h n + Reg.TS_TALK_RSP) :=
      u.reg_put_other _ _ _ fun same => hf (Nat.add_left_cancel same)
    rw [reg_setSlot, hwritten, other _ _ (by decide), other _ _ (by decide), other _ _ (by decide), other _ _ (by decide),
      other _ _ (by decide), asked]

/-! ## The start of an exchange (R153, R155) -/

/-- A window goes by the slots of its bay in its half; what else it goes by no slot tells. -/
theorem talkWindow_congr (hn : n < 1024) {x : Tbl Slot} {m : Tbl Mirror}
    (same : ∀ k < 1024, State.slot { s with slots := x, mirrors := m } h k = s.slot h k) :
    State.talkWindow { s with slots := x, mirrors := m } h n = s.talkWindow h n := by
  have near : State.borrowNear { s with slots := x, mirrors := m } h n = s.borrowNear h n := by
    unfold State.borrowNear
    rw [Bool.eq_iff_iff, List.any_eq_true, List.any_eq_true]
    refine exists_congr fun k => and_congr_right fun hk => ?_
    have hk := List.mem_range.mp hk
    dsimp only
    rw [same _ (by omega)]
    rfl
  have turn : State.turnOf { s with slots := x, mirrors := m } h n = s.turnOf h n := by
    rw [State.turnOf, near, same n hn]
    rfl
  have rise : State.beforeRise { s with slots := x, mirrors := m } h n = s.beforeRise h n := by
    rw [State.beforeRise, same n hn]
    rfl
  rw [State.talkWindow, turn, rise, same n hn]
  rfl

end

end Sys2Proof.Machine
end

section
/-! PROOF. Trips and TALK requests (O14). -/

namespace Sys2Proof.Machine

/-! ## Trips (R161, R162) -/

section

variable {m : Master} {h : Half} {n : Fin 1024} {s : State}

theorem trip_gives (runs : s.computes h = true) (armed : (s.pad n.val).armed = true) (on : (s.pad n.val).level = .on) :
    Gives (.trip n) s (fun t =>
      (t.pad n.val).level = .rest ∧ (t.pad n.val).cut = true ∧ (t.slot h n.val).drive = false
        ∧ (t.slot h n.val).sample = none ∧ t.flag (termKey h n.val) Reg.TS_STAT_TRIP = true
        ∧ t.get (termKey h n.val) Reg.TD_STAT_HEALTH = 8
        ∧ (t.reg (termKey h n.val + Reg.TS_TRIPS)).toNat
          = min 0xFFFFF ((s.reg (termKey h n.val + Reg.TS_TRIPS)).toNat + 1)) := by
  have acts := tripCopy_actsOnCopy n.isLt
  obtain ⟨v, before, after⟩ := onSlot_elsewhere (n := n.val) runs acts
  have bare := after.bare.trans ((bare_of_apart (acts h v)).trans before.bare)
  have pad : (s.onSlot n.val fun h s => tripCopy h n.val s).pad n.val = s.pad n.val :=
    (congrArg (fun u : State => u.pad n.val) bare :)
  obtain ⟨drive, sample, trip, health, trips⟩ := tripCopy_gives (h := h) n.isLt (s := v)
  rw [← after.slot n.isLt] at drive sample
  rw [← after.flag n.isLt (by decide)] at trip
  rw [← after.get n.isLt (by decide)] at health
  rw [← after.term n.isLt (by decide), before.term n.isLt (by decide)] at trips
  have cuts : exec (.trip n) s = .next (cutPad n.val s) := by
    show execTrip n s = _
    rw [execTrip, armed, on]
    rfl
  refine .intro cuts ⟨?_, ?_, drive, sample, trip, health, trips⟩
  · rw [cutPad, State.pad_setPad, pad, on]
    rfl
  · rw [cutPad, State.pad_setPad]

theorem tripClear_gives (runs : s.computes h = true) (ok : s.bayWriteOk m (n.val / 16) = true) :
    Gives (.tripClear m n) s (fun t =>
      t.flag (termKey h n.val) Reg.TS_STAT_TRIP = false ∧ (t.pad n.val).cut = false ∧ t.slots = s.slots) := by
  have cleared := onCopies_reaches (f := fun g v => clearTrip g n.val v)
    (R := fun v => v.flag (termKey h n.val) Reg.TS_STAT_TRIP = false ∧ (v.pad n.val).cut = false) runs
    (fun _ _ x => clearTrip_computes x) (fun _ => clearTrip_gives n.isLt)
    (fun _ stands => ⟨(clearTrip_other n.isLt).trans stands.1, (clearTrip_gives n.isLt).2⟩)
  have clears : exec (.tripClear m n) s = .next (s.onCopies fun g v => clearTrip g n.val v) := by
    show execTripClear m n s = _
    rw [execTripClear, bayWrite_accepted ok]
  refine .intro clears ⟨cleared.1, cleared.2, ?_⟩
  exact onCopies_keeps (R := fun v => v.slots = s.slots) rfl fun _ _ kept => clearTrip_slots.trans kept

/-! ## Requests (R153, R156, R160) -/

/-- A request that is no SET_RANGE, or a command port's. -/
theorem exec_talkRequest {op : BitVec 4} {arg : BitVec 12} (ok : s.bayWriteOk m (n.val / 16) = true)
    (uncounted : op ≠ 5 ∨ isHost m = true) :
    exec (.talkRequest m n op arg) s
      = .next (s.onCopies fun g v => requestTalk (isHost m) false g n.val op.toNat arg.toNat v) := by
  have plain : ¬(op.toNat = 5 ∧ isHost m = false ∧ s.bayWriteOk m (n.val / 16) = true) := by
    rintro ⟨range, port, -⟩
    rcases uncounted with other | host
    · exact other (BitVec.eq_of_toNat_eq range)
    · exact absurd (host.symm.trans port) (by decide)
  show execTalkRequest m n op arg s = _
  rw [execTalkRequest, writeTalk, if_neg plain, bayWrite_accepted ok]

section

variable {op : BitVec 4} {arg : BitVec 12} (runs : s.computes h = true) (ok : s.bayWriteOk m (n.val / 16) = true)
include runs ok

theorem talkRequest_free_gives (other : op ≠ 5) (free : (s.slot h n.val).talk = none) :
    Gives (.talkRequest m n op arg) s (fun t =>
      (t.slot h n.val).talk.map (fun r => (r.op, r.arg, r.accepted, r.running)) = some (op.toNat, arg.toNat, s.onTref, false)
        ∧ t.flag (termKey h n.val) Reg.TS_TALK_ST_BUSY = true) := by
  have noRange : op.toNat ≠ 5 := fun same => other (BitVec.eq_of_toNat_eq same)
  obtain ⟨v, before, after⟩ := onCopies_elsewhere runs (requestTalk_actsOnCopy n.isLt (isHost m) false op.toNat arg.toNat)
  rw [requestTalk_free _ _ noRange (before.slot n.isLt ▸ free)] at after
  refine .intro (exec_talkRequest ok (.inl other)) ⟨?_, ?_⟩
  · rw [after.slot n.isLt, State.slot_setSlot, ← State.onTref_of_bare before.bare]
    rfl
  · rw [after.flag n.isLt (by decide), State.flag, State.get, reg_setSlot, ← State.get, ← State.flag,
      flag_put_apart _ _ Reg.TS_TALK_ST_TRIES Reg.TS_TALK_ST_BUSY _ (by decide) (by decide) rfl (.inl (by decide)),
      flag_put_one _ _ (by decide) rfl]

theorem talkRequest_busy_gives (other : op ≠ 5) (busy : (s.slot h n.val).talk.isSome = true) :
    Gives (.talkRequest m n op arg) s (fun t =>
      t.slot h n.val = s.slot h n.val ∧ t.get (termKey h n.val) Reg.TS_TALK_ST_STATUS = St.BUSY) := by
  have noRange : op.toNat ≠ 5 := fun same => other (BitVec.eq_of_toNat_eq same)
  obtain ⟨v, before, after⟩ := onCopies_elsewhere runs (requestTalk_actsOnCopy n.isLt (isHost m) false op.toNat arg.toNat)
  rw [requestTalk_occupied _ _ noRange (before.slot n.isLt ▸ busy)] at after
  refine .intro (exec_talkRequest ok (.inl other)) ⟨?_, ?_⟩
  · rw [after.slot n.isLt, slot_put, slot_put, before.slot n.isLt]
  · rw [after.get n.isLt (by decide), get_status_put_done (by decide)]

omit ok in
/-- SET_RANGE of a register write leaves every slot and answers ST_ENVELOPE_LOCKED in each copy (R160). -/
theorem setRange_locked (host : Bool) (arg : Nat) :
    (s.onCopies fun g v => requestTalk host false g n.val 5 arg v).slots = s.slots
      ∧ (s.onCopies fun g v => requestTalk host false g n.val 5 arg v).get (termKey h n.val) Reg.TS_TALK_ST_STATUS
        = St.ENVELOPE_LOCKED := by
  obtain ⟨v, -, after⟩ := onCopies_elsewhere runs (requestTalk_actsOnCopy n.isLt host false 5 arg)
  refine ⟨onCopies_keeps (R := fun v => v.slots = s.slots) rfl fun g v kept => ?_, ?_⟩
  · rw [requestTalk_locked, State.put_slots, State.put_slots, kept]
  · rw [after.get n.isLt (by decide), requestTalk_locked, get_status_put_done (by decide)]

theorem setRange_port_gives (host : isHost m = true) :
    Gives (.talkRequest m n 5 arg) s (fun t =>
      t.slots = s.slots ∧ t.get (termKey h n.val) Reg.TS_TALK_ST_STATUS = St.ENVELOPE_LOCKED) :=
  .intro (exec_talkRequest ok (.inr host)) (setRange_locked runs (isHost m) arg.toNat)

theorem talkCancel_gives {r : TalkReq} (waits : (s.slot h n.val).talk = some r) (idle : r.running = false) :
    Gives (.talkCancel m n) s (fun t =>
      (t.slot h n.val).talk = none ∧ t.get (termKey h n.val) Reg.TS_TALK_ST_STATUS = St.TALK_CANCELLED
        ∧ t.flag (termKey h n.val) Reg.TS_STAT_TALK_DONE = true) := by
  obtain ⟨v, before, after⟩ := onCopies_elsewhere runs (cancelTalk_actsOnCopy n.isLt)
  have ends : cancelTalk h n.val v = endTalk h n.val St.TALK_CANCELLED (wait10ms v r.accepted) r.tries v := by
    rw [cancelTalk, before.slot n.isLt, waits]
    dsimp only
    rw [idle, if_neg (by decide)]
  rw [ends] at after
  obtain ⟨free, status, -, done, -⟩ := endTalk_gives (h := h) (n := n.val) (s := v) (st := St.TALK_CANCELLED) (by decide)
    (wait10ms v r.accepted) r.tries
  have cancels : exec (.talkCancel m n) s = .next (s.onCopies fun g v => cancelTalk g n.val v) := by
    show execTalkCancel m n s = _
    rw [execTalkCancel, bayWrite_accepted ok]
  refine .intro cancels ⟨?_, ?_, ?_⟩
  · rw [after.slot n.isLt, free]
  · rw [after.get n.isLt (by decide), status]
  · rw [after.flag n.isLt (by decide), done]

end

/-- A half's count of refused writes is no terminal's register. -/
theorem setRange_refused (g : Half) (host : Bool) (arg : Nat) :
    (s.onCopies fun x v => requestTalk host false x n.val 5 arg v).reg (halfKey g + Reg.DEV_REFUSED)
      = s.reg (halfKey g + Reg.DEV_REFUSED) := by
  refine onCopies_keeps (R := fun v => v.reg (halfKey g + Reg.DEV_REFUSED) = s.reg (halfKey g + Reg.DEV_REFUSED))
    (Eq.refl _) fun x v kept => ?_
  have apart {o : Nat} (ho : o < 0x10) : halfKey g + Reg.DEV_REFUSED ≠ termKey x n.val + o := by
    have := n.isLt
    cases g <;> cases x <;> (unfold termKey bayKey halfKey Half.num Reg.DEV_REFUSED; dsimp only; omega)
  rw [requestTalk_locked, State.reg_put_other _ _ _ _ (apart (by decide)), State.reg_put_other _ _ _ _ (apart (by decide)),
    kept]

theorem setRange_steward_gives {k : Fin 8} {arg : BitVec 12} (runs : s.computes h = true)
    (holds : s.holder (n.val / 16) = stewHalf k.val) :
    Gives (.talkRequest (.steward k) n 5 arg) s (fun t =>
      t.slots = s.slots ∧ t.get (termKey h n.val) Reg.TS_TALK_ST_STATUS = St.ENVELOPE_LOCKED
        ∧ t.get (halfKey (stewHalf k.val)) Reg.DEV_REFUSED_COUNT
            = min 0xFFFFF (s.get (halfKey (stewHalf k.val)) Reg.DEV_REFUSED_COUNT + 1)) := by
  have ok : s.bayWriteOk (.steward k) (n.val / 16) = true := by
    rw [State.bayWriteOk, masterHalf_steward, holds, decide_eq_true rfl, Bool.or_true]
  obtain ⟨slots, status⟩ := setRange_locked (h := h) (n := n) runs false arg.toNat
  have count := setRange_refused (n := n) (s := s) (stewHalf k.val) false arg.toNat
  have refuses : exec (.talkRequest (.steward k) n 5 arg) s
      = .next ((s.onCopies fun g v => requestTalk false false g n.val 5 arg.toNat v).refuseWrite (stewHalf k.val)
        (0x10000 + 0x400 * (n.val / 16) + 0x80 + 16 * (n.val % 16) + Reg.TS_TALK_CMD)) := by
    show execTalkRequest (.steward k) n 5 arg s = _
    rw [execTalkRequest, writeTalk, if_pos ⟨rfl, rfl, ok⟩, bayWrite_accepted ok, masterHalf_steward]
    rfl
  have apart {o : Nat} (ho : o < 0x10000) : termKey h n.val + Reg.TS_TALK_ST ≠ halfKey (stewHalf k.val) + o := by
    have := n.isLt
    cases h <;> cases stewHalf k.val <;> (unfold termKey bayKey halfKey Half.num Reg.TS_TALK_ST; dsimp only; omega)
  refine .intro refuses ⟨(State.refuseWrite_slots _ _ _).trans slots, ?_, ?_⟩
  · refine (congrArg (fun w => bits w 19 12) ?_).trans status
    exact State.reg_refuseWrite_other _ _ _ (apart (by decide)) (apart (by decide))
  · rw [get_whole, get_whole, State.refuseWrite,
      State.reg_setReg_other _ _ (by simp [Reg.DEV_REFUSED_LAST]), State.reg_count, count]

/-! ## Exchanges (R155 to R157) -/

section

variable {r : TalkReq} (runs : s.computes h = true) (waits : (s.slot h n.val).talk = some r) (idle : r.running = false)
  (unmarked : r.marked = false) (passed : r.accepted + 200000000 ≤ s.onTref)
include runs waits idle unmarked passed

/-- The 1 s mark of a request that waits, unmarked. -/
theorem talkOneSecondMark_elsewhere :
    ∃ v, Elsewhere h s v ∧ Elsewhere h
      (if s.canBorrow h n.val = true then v.setSlot h n.val { v.slot h n.val with talk := some { r with marked := true } }
        else endTalk h n.val St.TALK_NOWINDOW (wait10ms v r.accepted) r.tries v)
      (s.onCopies fun g v => markTalk g n.val v) := by
  obtain ⟨v, before, after⟩ := onCopies_elsewhere runs (markTalk_actsOnCopy n.isLt)
  have now : decide (v.onTref < r.accepted + 200000000) = false := by
    rw [State.onTref_of_bare before.bare, decide_eq_false (Nat.not_lt.mpr passed)]
  have mark : markTalk h n.val v = if s.canBorrow h n.val = true then
        v.setSlot h n.val { v.slot h n.val with talk := some { r with marked := true } }
      else endTalk h n.val St.TALK_NOWINDOW (wait10ms v r.accepted) r.tries v := by
    rw [markTalk, before.slot n.isLt, waits]
    dsimp only
    rw [unmarked, now, idle, Bool.false_or, Bool.false_or, if_neg (by decide), before.canBorrow n.isLt]
  exact ⟨v, before, mark ▸ after⟩

theorem talkOneSecondMark_refused_gives (no : s.canBorrow h n.val = false) :
    Gives (.talkOneSecondMark n) s (fun t =>
      (t.slot h n.val).talk = none ∧ t.get (termKey h n.val) Reg.TS_TALK_ST_STATUS = St.TALK_NOWINDOW) := by
  obtain ⟨v, -, after⟩ := talkOneSecondMark_elsewhere runs waits idle unmarked passed
  rw [no, if_neg (by decide)] at after
  obtain ⟨free, status, -⟩ := endTalk_gives (h := h) (n := n.val) (s := v) (st := St.TALK_NOWINDOW) (by decide)
    (wait10ms v r.accepted) r.tries
  refine .intro rfl ⟨?_, ?_⟩
  · rw [after.slot n.isLt, free]
  · rw [after.get n.isLt (by decide), status]

theorem talkOneSecondMark_marked_gives (yes : s.canBorrow h n.val = true) :
    Gives (.talkOneSecondMark n) s (fun t => (t.slot h n.val).talk = some { r with marked := true }) := by
  obtain ⟨v, -, after⟩ := talkOneSecondMark_elsewhere runs waits idle unmarked passed
  rw [if_pos yes] at after
  refine .intro rfl ?_
  rw [after.slot n.isLt, State.slot_setSlot]

end

/-- What an exchange's start changes of the state it starts in: slots, and the signatures of bands and frames. -/
def SlotsOnly (s t : State) : Prop := ∃ x m, t = { s with slots := x, mirrors := m }

theorem startTalk_slotsOnly (g : Half) (t : Nat) (v : State) : SlotsOnly v (startTalk g t v) := by
  unfold startTalk
  dsimp only
  split
  · exact ⟨_, _, rfl⟩
  · exact ⟨v.slots, v.mirrors, rfl⟩

/-- A copy starts its exchange where its window is open. -/
def openExchange (t : Nat) (g : Half) (v : State) : State :=
  noteBand g t (v.slot g t).band (if v.talkWindow g t then startTalk g t v else v)

theorem openExchange_slotsOnly (g : Half) (t : Nat) (v : State) : SlotsOnly s v → SlotsOnly s (openExchange t g v) := by
  rintro ⟨x, m, rfl⟩
  have start : SlotsOnly s (if State.talkWindow { s with slots := x, mirrors := m } g t
      then startTalk g t { s with slots := x, mirrors := m } else { s with slots := x, mirrors := m }) := by
    split
    · obtain ⟨y, k, started⟩ := startTalk_slotsOnly g t { s with slots := x, mirrors := m }
      exact ⟨y, k, started⟩
    · exact ⟨x, m, rfl⟩
  obtain ⟨y, k, started⟩ := start
  unfold openExchange
  rw [started]
  unfold noteBand
  dsimp only
  split
  · exact ⟨y, k, rfl⟩
  · exact ⟨y, _, rfl⟩

theorem openExchange_actsOnCopy (hn : n.val < 1024) : ActsOnCopy (openExchange n.val) := fun g v => by
  unfold openExchange
  rw [apart_noteBand]
  split
  · exact apart_startTalk v (slotIx_mem_copySlots g hn)
  · rfl

theorem startTalk_slot {r : TalkReq} (g : Half) (t : Nat) (v : State) (waits : (v.slot g t).talk = some r) :
    ((startTalk g t v).slot g t).talk
        = some { r with running := true, started := v.onTref, borrowed := r.planned.isSome, planned := none,
                        turnaround := none }
      ∧ ((startTalk g t v).slot g t).drive = (v.slot g t).drive := by
  have frame (u : State) (w : Word) : (noteFrame g (t / 16) w u).slot g t = u.slot g t := rfl
  rw [startTalk, waits]
  dsimp only
  rw [frame, State.slot_setSlot]
  exact ⟨rfl, rfl⟩

theorem rests_of_talkWindow {t : Nat} (window : s.talkWindow h t = true) : (s.slot h t).drive = false := by
  unfold State.talkWindow at window
  simp only [Bool.and_eq_true, Bool.not_eq_true'] at window
  exact window.1.1.1.1.1.1.1.2

/-- The live copy's exchange, started in every copy whose window is open. -/
theorem openExchange_gives {r : TalkReq} (runs : s.computes h = true) (window : s.talkWindow h n.val = true)
    (waits : (s.slot h n.val).talk = some r) :
    SlotsOnly s (s.onCopies (openExchange n.val))
      ∧ ((s.onCopies (openExchange n.val)).slot h n.val).drive = false
      ∧ ((s.onCopies (openExchange n.val)).slot h n.val).talk.any
          (fun q => q.running && decide (q.started = s.onTref)) = true := by
  have start : SlotsOnly s s := ⟨s.slots, s.mirrors, rfl⟩
  have keeps (g v) : SlotsOnly s v → SlotsOnly s (openExchange n.val g v) := openExchange_slotsOnly g n.val v
  obtain ⟨v, ⟨x, m, only⟩, before, after⟩ :=
    onCopies_elsewhere_keeping start keeps runs (openExchange_actsOnCopy n.isLt)
  have stands : v.talkWindow h n.val = true := by
    subst only
    rw [talkWindow_congr n.isLt fun k hk => before.slot hk, window]
  have starts : Elsewhere h (startTalk h n.val v) (s.onCopies (openExchange n.val)) := by
    unfold openExchange at after
    rw [stands, if_pos rfl] at after
    exact .trans (.of_apart (apart_noteBand _ _ _ _)) after
  obtain ⟨talk, drive⟩ := startTalk_slot h n.val v (before.slot n.isLt ▸ waits)
  refine ⟨onCopies_keeps start keeps, ?_, ?_⟩
  · rw [starts.slot n.isLt, drive, before.slot n.isLt, rests_of_talkWindow window]
  · rw [starts.slot n.isLt, talk, Option.any_some, State.onTref_of_bare before.bare, decide_eq_true rfl]
    rfl

theorem talkExchangeStart_gives {r : TalkReq} (runs : s.computes (s.livePath n.val) = true)
    (window : s.talkWindow (s.livePath n.val) n.val = true) (waits : (s.slot (s.livePath n.val) n.val).talk = some r) :
    Gives (.talkExchangeStart n) s (fun t =>
      (t.slot (s.livePath n.val) n.val).talk.any (fun q => q.running && decide (q.started = s.onTref)) = true
        ∧ (t.pad n.val).frame = talkFrame r.op r.arg ∧ (t.sar (n.val / 16)).lastTalk = some s.onTref) := by
  obtain ⟨⟨x, m, only⟩, drive, talk⟩ := openExchange_gives runs window waits
  have starts : exec (.talkExchangeStart n) s = .next
      (let s1 := s.onCopies (openExchange n.val)
      let s2 := s1.setSar (n.val / 16) { s1.sar (n.val / 16) with lastTalk := some s.onTref }
      syncPad n.val (s2.setPad n.val { s2.pad n.val with frame := talkFrame r.op r.arg })) := by
    show execTalkExchangeStart n s = _
    rw [execTalkExchangeStart]
    dsimp only
    rw [window, if_pos rfl, waits]
    rfl
  set started := s.onCopies (openExchange n.val) with hstarted
  have path : started.livePath n.val = s.livePath n.val := by rw [only]; rfl
  set ready := (started.setSar (n.val / 16) { started.sar (n.val / 16) with lastTalk := some s.onTref }) with hready
  have idle (p : Pad) : holdPulse n.val (ready.setPad n.val p) = ready.setPad n.val p :=
    holdPulse_idle (.inl ((congrArg (fun g => (started.slot g n.val).drive) path).trans drive))
  refine .intro starts ⟨?_, ?_, ?_⟩
  · rw [syncPad_slot, idle]
    exact talk
  · rw [(syncPad_pad _ _).2, idle, State.pad_setPad]
  · obtain ⟨p, b, synced⟩ := syncPad_only n.val
      (ready.setPad n.val { ready.pad n.val with frame := talkFrame r.op r.arg })
    have others (u : State) (q : Pad) : State.sar { u.setPad n.val q with pads := p, lineBlanked := b } (n.val / 16)
        = u.sar (n.val / 16) := rfl
    rw [synced, idle, others, hready, State.sar_setSar]

/-! ## The end of an exchange (R155, R156) -/

/-- The outcome of an exchange whose reply is good (R155, R156). -/
theorem finishTalk_good {r : TalkReq} {c : Nat} {reply : Word} {v : State} (waits : (v.slot h n.val).talk = some r)
    (elapsed : v.talkOver h n.val = true) (sampled : r.turnaround = some c) (low : 448 ≤ c) (high : c ≤ 1088)
    (good : talkGood reply = true) (taken : bits reply 19 16 = 0) :
    finishTalk h n.val reply v = closeTalk h n.val St.OK r
      ((delayProbe h n.val v).setReg (termKey h n.val + Reg.TS_TALK_RSP) reply) := by
  have outcome : talkOutcome r.turnaround reply = St.OK := by
    unfold talkOutcome
    rw [sampled]
    dsimp only
    rw [if_pos ⟨low, high⟩, if_pos good, if_pos taken]
  have final : talkRetried St.OK reply = false := rfl
  rw [finishTalk, waits]
  dsimp only
  rw [if_pos elapsed, outcome, final, if_neg (by decide), if_neg (by decide)]

/-- A pulse that the interlock holds as the pad takes its level keeps the request and its registers. -/
theorem holdPulse_talk (n : Fin 1024) (u : State) :
    ((holdPulse n.val u).slot h n.val).talk = (u.slot h n.val).talk
      ∧ ∀ o < 0x10, o ∉ [0x7, 0xB, 0xD, 0xF] →
        (holdPulse n.val u).reg (termKey h n.val + o) = u.reg (termKey h n.val + o) := by
  unfold holdPulse State.onSlot
  split
  · refine onCopies_keeps (R := fun v => (v.slot h n.val).talk = (u.slot h n.val).talk
      ∧ ∀ o < 0x10, o ∉ [0x7, 0xB, 0xD, 0xF] → v.reg (termKey h n.val + o) = u.reg (termKey h n.val + o))
      ⟨rfl, fun _ _ _ => rfl⟩ fun g v kept => ?_
    obtain ⟨talk, regs⟩ := kept
    have noted (w : State) (was : Nat) : Elsewhere h w (noteBand g n.val was w) := .of_apart (apart_noteBand _ _ _ _)
    dsimp only
    rw [(noted _ _).slot n.isLt]
    split
    · by_cases own : g = h
      · subst own
        have kept := apart_suppress (P := books g n.val) (S := {slotIx g n.val}) v n.isLt (stat_mem subset_rfl)
          (excess_mem subset_rfl) (Set.mem_singleton _)
        refine ⟨(suppress_talk n.isLt v).trans talk, fun o ho other => ?_⟩
        rw [(noted _ _).term n.isLt ho, term_of_books n.isLt kept ho other, regs o ho other]
      · obtain rfl := Half.eq_other_of_ne own
        have kept : Elsewhere h v (suppress h.other n.val v) := suppress_actsOnCopy n.isLt _ v
        refine ⟨(congrArg Slot.talk (kept.slot n.isLt)).trans talk, fun o ho other => ?_⟩
        rw [(noted _ _).term n.isLt ho, kept.term n.isLt ho, regs o ho other]
    · exact ⟨talk, fun o ho other => ((noted _ _).term n.isLt ho).trans (regs o ho other)⟩
  · exact ⟨rfl, fun _ _ _ => rfl⟩

theorem talkExchangeEnd_gives {r : TalkReq} {c : Nat} {reply : Word} (runs : s.computes h = true)
    (waits : (s.slot h n.val).talk = some r) (elapsed : s.talkOver h n.val = true) (sampled : r.turnaround = some c)
    (low : 448 ≤ c) (high : c ≤ 1088) (good : talkGood reply = true) (taken : bits reply 19 16 = 0) :
    Gives (.talkExchangeEnd n reply) s (fun t =>
      (t.slot h n.val).talk = none ∧ t.reg (termKey h n.val + Reg.TS_TALK_RSP) = reply
        ∧ t.get (termKey h n.val) Reg.TS_TALK_ST_STATUS = St.OK
        ∧ t.flag (termKey h n.val) Reg.TS_TALK_ST_BUSY = false) := by
  obtain ⟨v, before, after⟩ := onSlot_elsewhere (n := n.val) runs (finishTalk_actsOnCopy n.isLt reply)
  have still : v.talkOver h n.val = true := by
    rw [State.talkOver, before.slot n.isLt, State.onTref_of_bare before.bare]
    exact elapsed
  rw [finishTalk_good (before.slot n.isLt ▸ waits) still sampled low high good taken] at after
  obtain ⟨free, status, busy, -, response⟩ := endTalk_gives (h := h) (n := n.val)
    (s := (delayProbe h n.val v).setReg (termKey h n.val + Reg.TS_TALK_RSP) reply) (st := St.OK) (by decide)
    (min 255 ((r.started - r.accepted) / 2000000)) r.tries
  set ended := s.onSlot n.val fun g v => finishTalk g n.val reply v with hended
  have freed : (ended.slot h n.val).talk = none := (congrArg Slot.talk (after.slot n.isLt)).trans free
  have answered : ended.reg (termKey h n.val + Reg.TS_TALK_RSP) = reply := by
    rw [after.term n.isLt (by decide)]
    exact response.trans (State.reg_setReg _ _ _)
  have closed : ended.get (termKey h n.val) Reg.TS_TALK_ST_STATUS = St.OK := (after.get n.isLt (by decide)).trans status
  have idle : ended.flag (termKey h n.val) Reg.TS_TALK_ST_BUSY = false := (after.flag n.isLt (by decide)).trans busy
  obtain ⟨referee, path⟩ : ∃ q, (if s.talkOver (s.livePath n.val) n.val && ended.referee.pathWaits.getLsbD n.val then
      switchPath n.val ended else ended) = { ended with referee := q } := by
    split
    · exact ⟨_, rfl⟩
    · exact ⟨ended.referee, rfl⟩
  have ends : exec (.talkExchangeEnd n reply) s = .next (syncPad n.val { ended with referee := referee }) := by
    show execTalkExchangeEnd n reply s = _
    rw [execTalkExchangeEnd, ← path]
  obtain ⟨kept, regs⟩ := holdPulse_talk (h := h) n { ended with referee := referee }
  have st : (syncPad n.val { ended with referee := referee }).reg (termKey h n.val + Reg.TS_TALK_ST)
      = ended.reg (termKey h n.val + Reg.TS_TALK_ST) := (syncPad_reg _ _).trans (regs _ (by decide) (by decide))
  refine .intro ends ⟨?_, ?_, ?_, ?_⟩
  · rw [syncPad_slot, kept]
    exact freed
  · exact (syncPad_reg _ _).trans ((regs _ (by decide) (by decide)).trans answered)
  · exact (congrArg (fun w => bits w 19 12) st).trans closed
  · exact (congrArg (fun w => decide (bits w 11 11 = 1)) st).trans idle

end

/-! ## The obligation -/

/-- Settles O14: a trip, a request, a cancel, a mark and the end of an exchange act on one copy of the terminal at a time and
leave the other's alone; a start goes by a window that the other copy's start leaves open; a pulse that the pad's new level
makes the interlock hold keeps the slot's request. -/
theorem tripsAndTalkTakeEffect : Obligations.TripsAndTalkTakeEffect :=
  ⟨fun _ _ _ runs armed on => trip_gives runs armed on,
    fun _ _ _ _ runs ok => tripClear_gives runs ok,
    fun _ _ _ _ _ _ runs ok other free => talkRequest_free_gives runs ok other free,
    fun _ _ _ _ _ _ runs ok other busy => talkRequest_busy_gives runs ok other busy,
    fun _ _ _ _ _ runs holds => setRange_steward_gives runs holds,
    fun _ _ _ _ _ runs ok => setRange_port_gives runs ok rfl,
    fun _ _ _ _ _ runs ok waits idle => talkCancel_gives runs ok waits idle,
    fun _ _ _ runs window waits => talkExchangeStart_gives runs window waits,
    fun _ _ _ _ _ _ runs waits elapsed sampled low high good taken =>
      talkExchangeEnd_gives runs waits elapsed sampled low high good taken,
    fun _ _ _ _ runs waits idle unmarked passed no =>
      talkOneSecondMark_refused_gives runs waits idle unmarked passed no,
    fun _ _ _ _ runs waits idle unmarked passed yes =>
      talkOneSecondMark_marked_gives runs waits idle unmarked passed yes⟩

end Sys2Proof.Machine
end

section
/-! PROOF. What terminal, timebase and budget commands leave (O57): an acknowledge that lets out a packet which waits under an
activity that no half has. -/

namespace Sys2Proof.Machine

/-- An activity number whose stall counter (R106) would lie at the place of HLT_WATCH, outside the registers that a budget's
command may change. A half has 12 activities, and no command lets a packet wait under another number; but a state may hold
one. -/
def watchActivity : Nat := Reg.HLT_WATCH - Reg.BG_STALL

/-- Half A has withheld a request of activity 0. A packet waits for injection under the stray activity, its acknowledge withheld
for one grain. -/
def strayWait : State :=
  let s := State.reset
  { s with
    tref := 200
    halfA := { s.halfA with budget := { s.halfA.budget with waiting := [(0, 0, 0), (4 * watchActivity + 3, 0, 0)] } }
    router := { s.router with inject := [(watchActivity, ⟨6, 64, 3, 77, 5, 9, []⟩)] } }

/-- The state after the acknowledge of the request of activity 0. -/
def afterStrayWait : State := drainInject (chargeTransfer .A 0 0 (release .A (0, 0, 0) strayWait))

theorem exec_strayWait : exec (.stalledRequestAck .A 0 0) strayWait = .next afterStrayWait := by
  have first : strayWait.withheld .A 0 = some (0, 0, 0) := by decide +kernel
  have admitted : admitTransfer .A 0 strayWait = some strayWait := by
    rw [admitTransfer, if_pos (by decide +kernel)]
  show execStalledRequestAck .A 0 0 strayWait = _
  simp only [execStalledRequestAck, Fin.val_zero, Nat.mul_zero, Nat.add_zero, first, admitted, afterStrayWait]

/-- The packet goes out with the acknowledge, and the grain that it waited is counted in HLT_WATCH. -/
theorem watch_afterStrayWait :
    (afterStrayWait.reg (halfKey .A + Reg.HLT_WATCH)).toNat = (strayWait.reg (halfKey .A + Reg.HLT_WATCH)).toNat + 1 := by
  decide +kernel

theorem hltWatch_not_inBlocks_budget : inBlocks .budget (halfKey .A + Reg.HLT_WATCH) = false := by decide

/-- Refutes O57, by its clause on the budget's registers: the statement is about every state, and in `strayWait` an acknowledge
counts the wait of a packet in HLT_WATCH. (Where only activities 0 to 11 wait, the stall counters lie in the budget's block.) -/
theorem not_terminalAndTimebaseCommandsLeaveTheRest : ¬ Obligations.TerminalAndTimebaseCommandsLeaveTheRest := by
  rintro ⟨-, -, budget⟩
  obtain ⟨-, kept⟩ := budget (.stalledRequestAck .A 0 0) strayWait afterStrayWait rfl exec_strayWait
  have same := kept _ hltWatch_not_inBlocks_budget
  have counted := watch_afterStrayWait
  rw [same] at counted
  omega

end Sys2Proof.Machine
end

section
/-! SUPPORT. What a line's copy leaves alone as entries end, trips are latched and frames are lost (R205, R206, R212, R231,
R232), and what an entry's end brings to the line itself. -/

namespace Sys2Proof.Machine

/-! ## The rest of the state -/

/-- What is left alone where lines and engines of I and registers of P are worked on, and where records and pulses follow: the
other parts of the state but the bays' pipelines, the transmit paths and the count of free values; the other registers; the
slots; the other lines and engines. -/
def State.apartLines (P I : Set Nat) (s : State) :
    (State × ({k // k ∉ P ∧ k ∉ logKeys} → Word) × (Nat → Timebase) × ({j // j ∉ (∅ : Set Nat)} → Slot))
      × ({j // j ∉ I} → Line) × ({j // j ∉ I} → Engine) :=
  (({ s.bare with
      lines := [], engines := [], pipes := [], freeCount := 0, referee := { s.referee with linePath := 0 } },
    (s.apart P ∅).2),
    fun j => tblGet s.lines Line.reset j.1, fun j => tblGet s.engines Engine.reset j.1)

/-- The log registers of a line's copy beside LN_STAT: its counters (R244), those of its engine's swaps (R263), and the
pipeline's (R313, R316, R317). -/
def lineLogs : List Nat :=
  [0x1D0, 0x1D1, 0x1D2, 0x1D3, 0x1D4, 0x1D5, 0x1D6, 0x1D7, Reg.LE_STAT, Reg.LE_CNT_SWAP, Reg.PL_STAT, 0x304, 0x305, 0x306,
    0x307, 0x308, 0x309, Reg.PL_IDST]

/-- Registers of any copy of a bay, by offset. -/
def ofBays (os : List Nat) : Set Nat := {k | ∃ g, ∃ c < 64, ∃ o ∈ os, k = bayKey g c + o}

/-- The lines of half h. -/
def copyLines (h : Half) : Set Nat := Set.Ico (64 * h.num) (64 * h.num + 64)

section

variable {P I : Set Nat} {s t : State}

theorem apartLines_of_apart (same : t.apart P ∅ = s.apart P ∅) : t.apartLines P I = s.apartLines P I := by
  have bare := bare_of_apart same
  have lines : t.lines = s.lines := (congrArg State.lines bare :)
  have engines : t.engines = s.engines := (congrArg State.engines bare :)
  refine Prod.ext (Prod.ext ?_ (congrArg (fun v => v.2) same)) ?_
  · exact (congrArg (fun u : State => { u with
      lines := [], engines := [], pipes := [], freeCount := 0, referee := { u.referee with linePath := 0 } }) bare :)
  · show ((fun j : {j // j ∉ I} => tblGet t.lines Line.reset j.1), fun j : {j // j ∉ I} => tblGet t.engines Engine.reset j.1)
      = (_, _)
    rw [lines, engines]

variable (same : t.apartLines P I = s.apartLines P I)
include same

theorem rest_of_apartLines : (t.apartLines P I).1.1 = (s.apartLines P I).1.1 := congrArg (fun v => v.1.1) same

theorem reg_of_apartLines {k : Nat} (other : k ∉ P) (plain : k ∉ logKeys) : t.reg k = s.reg k :=
  congrFun (congrArg (fun v => v.1.2.1) same) ⟨k, other, plain⟩

theorem get_of_apartLines {b : Nat} {f : Fld} (other : b + f.addr ∉ P) (plain : b + f.addr ∉ logKeys) :
    t.get b f = s.get b f := by
  rw [State.get, reg_of_apartLines same other plain, State.get]

theorem flag_of_apartLines {b : Nat} {f : Fld} (other : b + f.addr ∉ P) (plain : b + f.addr ∉ logKeys) :
    t.flag b f = s.flag b f := by
  rw [State.flag, get_of_apartLines same other plain, State.flag]

theorem line_of_apartLines {h : Half} {b : Nat} (other : bayIx h b ∉ I) : t.line h b = s.line h b :=
  congrFun (congrArg (fun v => v.2.1) same) ⟨_, other⟩

theorem engine_of_apartLines {h : Half} {b : Nat} (other : bayIx h b ∉ I) : t.engine h b = s.engine h b :=
  congrFun (congrArg (fun v => v.2.2) same) ⟨_, other⟩

theorem computes_of_apartLines (x : Half) : t.computes x = s.computes x := by
  cases x with
  | A => exact (congrArg (fun u : State => !u.halfA.inReset) (rest_of_apartLines same) :)
  | B => exact (congrArg (fun u : State => !u.halfB.inReset) (rest_of_apartLines same) :)

theorem pad_of_apartLines (n : Nat) : t.pad n = s.pad n :=
  (congrArg (fun u : State => u.pad n) (rest_of_apartLines same) :)

theorem synth_of_apartLines (j : Nat) : t.synth j = s.synth j :=
  (congrArg (fun u : State => u.synth j) (rest_of_apartLines same) :)

end

/-! ## Writes, records and pulses -/

section

variable {P I : Set Nat} (s : State) {h : Half} {b : Nat}

theorem apartLines_setReg {k : Nat} (hk : k ∈ P) (w : Word) : (s.setReg k w).apartLines P I = s.apartLines P I :=
  apartLines_of_apart (apart_setReg s (.inl hk) w)

theorem apartLines_put {c : Nat} {f : Fld} (hk : c + f.addr ∈ P) (v : Nat) :
    (s.put c f v).apartLines P I = s.apartLines P I := apartLines_setReg s hk _

theorem apartLines_count {k : Nat} (hk : k ∈ P) (n : Nat) : (s.count k n).apartLines P I = s.apartLines P I :=
  apartLines_setReg s hk _

theorem apartLines_setLine (own : bayIx h b ∈ I) (x : Line) : (s.setLine h b x).apartLines P I = s.apartLines P I :=
  Prod.ext rfl (Prod.ext (funext fun j => tblGet_tblSet_other _ _ _ fun same => j.2 (same ▸ own)) rfl)

theorem apartLines_setEngine (own : bayIx h b ∈ I) (x : Engine) : (s.setEngine h b x).apartLines P I = s.apartLines P I :=
  Prod.ext rfl (Prod.ext rfl (funext fun j => tblGet_tblSet_other _ _ _ fun same => j.2 (same ▸ own)))

@[simp] theorem apartLines_setPipe (x : BayPipe) : (s.setPipe h b x).apartLines P I = s.apartLines P I := (rfl)

@[simp] theorem apartLines_raiseBayEvent (e : BayEvent) :
    (raiseBayEvent h b e s).apartLines P I = s.apartLines P I := apartLines_of_apart (apart_raiseBayEvent s h b e)

/-- The transmit path shows nowhere else. -/
@[simp] theorem apartLines_syncLinePath : (syncLinePath b s).apartLines P I = s.apartLines P I := by
  unfold syncLinePath
  dsimp only
  split <;> rfl

theorem apartLines_foldl {β : Type} {f : State → β → State} {l : List β}
    (hf : ∀ x ∈ l, ∀ v, (f v x).apartLines P I = v.apartLines P I) : (l.foldl f s).apartLines P I = s.apartLines P I :=
  List.foldlRecOn (motive := fun v => v.apartLines P I = s.apartLines P I) l f rfl
    fun _ kept x m => (hf x m _).trans kept

theorem apartLines_onCopies {f : Half → State → State} (hf : ∀ g v, (f g v).apartLines P I = v.apartLines P I) :
    (s.onCopies f).apartLines P I = s.apartLines P I :=
  onCopies_keeps (R := fun v => v.apartLines P I = s.apartLines P I) rfl fun g v kept => (hf g v).trans kept

theorem apart_setLineStat {S : Set Nat} {f : Fld} (stat : bayKey h b + f.addr ∈ P) :
    (setLineStat h b f s).apart P S = s.apart P S := by
  unfold setLineStat
  split
  · rfl
  · rw [apart_bayRecord, apart_put _ stat]

end

/-! ## Ends of entries (R231) -/

/-- The line after the end of an entry. -/
def Line.ended (l : Line) (e st : Nat) : Line :=
  { l.setEntry e { l.entry e with busy := false, done := true, status := st } with
    attempt := if l.attempt = some e then none else l.attempt
    pEnd := if e = entryP then some st else l.pEnd }

/-- What the end of an entry brings beside: TXDONE, the counter, NOLOCK, the event. -/
def logEnd (h : Half) (b st : Nat) (s : State) : State :=
  let s1 := s.put (bayKey h b) Reg.LN_STAT_TXDONE 1
  let s2 := if st = St.OK then countLine h b cntTxOk s1 else s1
  let s3 := if st = St.LINE_NOLOCK then setLineStat h b Reg.LN_STAT_NOLOCK s2 else s2
  raiseBayEvent h b .lineTx s3

theorem endEntry_eq (h : Half) (b e st : Nat) (s : State) :
    endEntry h b e st s = logEnd h b st (s.setLine h b ((s.line h b).ended e st)) := rfl

@[simp] theorem Line.entry_setEntry (l : Line) (e : Nat) (x : TxEntry) : (l.setEntry e x).entry e = x :=
  tblGet_tblSet_same _ _ _ _

theorem Line.entry_setEntry_other (l : Line) {e i : Nat} (x : TxEntry) (other : i ≠ e) :
    (l.setEntry e x).entry i = l.entry i :=
  tblGet_tblSet_other _ _ _ other

theorem Line.entry_ended (l : Line) (e st : Nat) :
    (l.ended e st).entry e = { l.entry e with busy := false, done := true, status := st } :=
  tblGet_tblSet_same _ _ _ _

theorem Line.entry_ended_other (l : Line) {e i : Nat} (st : Nat) (other : i ≠ e) : (l.ended e st).entry i = l.entry i :=
  tblGet_tblSet_other _ _ _ other

section

variable {P S I : Set Nat} {h : Half} {b : Nat}

/-- Beyond the line itself the end of an entry shows in its log alone. -/
theorem apart_logEnd (stat : bayKey h b + Reg.LN_STAT ∈ P) (sent : bayKey h b + Reg.LN_CNT ∈ P) (st : Nat)
    (s : State) : (logEnd h b st s).apart P S = s.apart P S := by
  have counted (v : State) : (countLine h b cntTxOk v).apart P S = v.apart P S :=
    apart_count v (by rw [Nat.add_zero]; exact sent) 1
  unfold logEnd
  dsimp only
  rw [apart_raiseBayEvent]
  split_ifs
  · rw [apart_setLineStat _ stat, counted, apart_put _ stat]
  · rw [apart_setLineStat _ stat, apart_put _ stat]
  · rw [counted, apart_put _ stat]
  · exact apart_put _ stat 1

theorem apart_endEntry (stat : bayKey h b + Reg.LN_STAT ∈ P) (sent : bayKey h b + Reg.LN_CNT ∈ P) (e st : Nat)
    (s : State) : (endEntry h b e st s).apart P S = (s.setLine h b ((s.line h b).ended e st)).apart P S := by
  rw [endEntry_eq, apart_logEnd stat sent]

variable (e st : Nat) (s : State)

theorem lines_endEntry : (endEntry h b e st s).lines = (s.setLine h b ((s.line h b).ended e st)).lines :=
  (congrArg State.lines (bare_of_apart (apart_endEntry (P := Set.univ) (S := Set.univ) trivial trivial e st s)) :)

theorem line_endEntry : (endEntry h b e st s).line h b = (s.line h b).ended e st := by
  rw [State.line, lines_endEntry e st s]
  exact State.line_setLine _ _ _ _

theorem engines_endEntry : (endEntry h b e st s).engines = s.engines :=
  (congrArg State.engines (bare_of_apart (apart_endEntry (P := Set.univ) (S := Set.univ) trivial trivial e st s)) :)

end

/-! ## All that a line's copy does -/

section

variable {P I : Set Nat} {h : Half} {b : Nat} (s : State)

section

variable (logs : ∀ o ∈ lineLogs, bayKey h b + o ∈ P)
include logs

theorem apartLines_countLine {k : Nat} (hk : Reg.LN_CNT + k ∈ lineLogs) :
    (countLine h b k s).apartLines P I = s.apartLines P I :=
  apartLines_count s (by rw [Nat.add_assoc]; exact logs _ hk) 1

theorem apartLines_countPl {k : Nat} (hk : Reg.PL_CNT + k ∈ lineLogs) (n : Nat) :
    (countPl h b k n s).apartLines P I = s.apartLines P I :=
  apartLines_count s (by rw [Nat.add_assoc]; exact logs _ hk) n

theorem apartLines_put_log {f : Fld} (hf : f.addr ∈ lineLogs) (v : Nat) :
    (s.put (bayKey h b) f v).apartLines P I = s.apartLines P I := apartLines_put s (logs _ hf) v

theorem apartLines_pushInput (i : PInput) : (pushInput h b i s).apartLines P I = s.apartLines P I := by
  unfold pushInput queueInput plMark
  dsimp only
  split_ifs
  · rfl
  · rfl
  · rfl
  · rw [apartLines_put_log _ logs (by decide), apartLines_countPl _ logs (by decide), apartLines_setPipe]

theorem apartLines_missParts (p : Poll) (cause : Nat) : (missParts h b p cause s).apartLines P I = s.apartLines P I := by
  unfold missParts freeHeld
  dsimp only
  rw [apartLines_foldl _ fun i _ v => apartLines_pushInput v logs i, apartLines_setPipe,
    apartLines_foldl _ fun q _ v => apartLines_pushInput v logs _]

theorem apartLines_endIdent (st : Nat) : (endIdent h b st s).apartLines P I = s.apartLines P I := by
  unfold endIdent plMark
  rw [apartLines_put_log _ logs (by decide), apartLines_put_log _ logs (by decide), apartLines_put_log _ logs (by decide),
    apartLines_put_log _ logs (by decide)]

/-- The scheduler takes the outcome of entry P; the rest is its own (R287). -/
theorem apartLines_settleP_eq :
    (settleP h b s).apartLines P I = (s.setLine h b { s.line h b with pEnd := none }).apartLines P I := by
  unfold settleP
  dsimp only
  split
  · next empty =>
    have same : { s.line h b with pEnd := none } = s.line h b := by rw [← empty]
    refine Eq.symm (Prod.ext rfl (Prod.ext (funext fun j => ?_) rfl))
    show tblGet (tblSet s.lines Line.reset (bayIx h b) _) Line.reset j.1 = tblGet s.lines Line.reset j.1
    rw [same, tblGet_tblSet]
    split
    · next own => rw [own, State.line]
    · rfl
  · split
    · rfl
    · split_ifs
      · rfl
      · rw [apartLines_endIdent _ logs, apartLines_setPipe]
      · rw [apartLines_countPl _ logs (by decide), apartLines_missParts _ logs, apartLines_setPipe]

theorem apartLines_settleP (own : bayIx h b ∈ I) : (settleP h b s).apartLines P I = s.apartLines P I :=
  (apartLines_settleP_eq s logs).trans (apartLines_setLine s own _)

end

theorem apartLines_muteEngine (own : bayIx h b ∈ I) : (muteEngine h b s).apartLines P I = s.apartLines P I := by
  unfold muteEngine setOutput
  dsimp only
  split
  · rw [apartLines_setEngine _ own, apartLines_setEngine _ own]
  · rfl

section

variable (stat : bayKey h b + Reg.LN_STAT ∈ P)
include stat

theorem apartLines_setLineStat {f : Fld} (hf : f.addr = Reg.LN_STAT) :
    (setLineStat h b f s).apartLines P I = s.apartLines P I :=
  apartLines_of_apart (apart_setLineStat s (by rw [hf]; exact stat))

variable (logs : ∀ o ∈ lineLogs, bayKey h b + o ∈ P) (own : bayIx h b ∈ I)
include logs own

theorem apartLines_endEntry (e st : Nat) : (endEntry h b e st s).apartLines P I = s.apartLines P I :=
  (apartLines_of_apart (apart_endEntry stat (logs 0x1D0 (by decide)) e st s)).trans (apartLines_setLine s own _)

theorem apartLines_endAttempt (st : Nat) : (endAttempt h b st s).apartLines P I = s.apartLines P I := by
  unfold endAttempt
  split
  · exact apartLines_endEntry s stat logs own _ st
  · rfl

theorem apartLines_failAttempt (st : Nat) : (failAttempt h b st s).apartLines P I = s.apartLines P I := by
  unfold failAttempt
  dsimp only
  split
  · rfl
  · have counted : (if st = St.LINE_NOACK then countLine h b cntNoAck s
        else if st = St.LINE_COLLISION then countLine h b cntColl s else s).apartLines P I = s.apartLines P I := by
      split_ifs
      · exact apartLines_countLine s logs (by decide)
      · exact apartLines_countLine s logs (by decide)
      · rfl
    rw [← counted]
    generalize (if st = St.LINE_NOACK then countLine h b cntNoAck s
        else if st = St.LINE_COLLISION then countLine h b cntColl s else s) = v
    split_ifs
    · exact apartLines_endEntry v stat logs own _ _
    · exact apartLines_endEntry v stat logs own _ _
    · exact apartLines_setLine v own _
    · exact apartLines_endEntry v stat logs own _ _

theorem apartLines_endAllEntries (st : Nat) : (endAllEntries h b st s).apartLines P I = s.apartLines P I := by
  refine apartLines_foldl s fun e _ v => ?_
  split
  · exact apartLines_endEntry v stat logs own e st
  · rfl

theorem apartLines_cancelEntry (e : Nat) : (cancelEntry h b e s).apartLines P I = s.apartLines P I := by
  unfold cancelEntry
  dsimp only
  split_ifs
  · exact apartLines_setLine s own _
  · exact apartLines_endEntry s stat logs own e _
  · rfl

theorem apartLines_lineTripCopy (volts : Bool) : (lineTripCopy h volts b s).apartLines P I = s.apartLines P I := by
  have trips : (if volts then Reg.LN_STAT_VTRIP else Reg.LN_STAT_ITRIP).addr = Reg.LN_STAT := by cases volts <;> rfl
  unfold lineTripCopy
  dsimp only
  rw [apartLines_raiseBayEvent, apartLines_endAttempt _ stat logs own, apartLines_muteEngine _ own,
    apartLines_setLineStat _ stat trips]

end

end

/-! ## What the line and its engine hold afterwards -/

section

variable {h : Half} {b : Nat} (s : State)

/-- The scheduler takes the outcome of entry P, and nothing else of a line. -/
theorem line_settleP : (settleP h b s).line h b = { s.line h b with pEnd := none } :=
  (line_of_apartLines (apartLines_settleP_eq (P := Set.univ) (I := ∅) s fun _ _ => Set.mem_univ _) (Set.notMem_empty _)).trans
    (State.line_setLine _ _ _ _)

theorem entry_settleP (e : Nat) : ((settleP h b s).line h b).entry e = (s.line h b).entry e := by
  rw [line_settleP]
  rfl

theorem engine_settleP : (settleP h b s).engine h b = s.engine h b :=
  engine_of_apartLines (apartLines_settleP_eq (P := Set.univ) (I := ∅) s fun _ _ => Set.mem_univ _) (Set.notMem_empty _)

/-- A muted engine sends nothing. -/
theorem sym_muteEngine : ((muteEngine h b s).engine h b).sym = none := by
  unfold muteEngine setOutput
  dsimp only
  split
  · simp only [State.engine_setEngine]
  · next idle =>
    rw [Bool.or_eq_true, not_or] at idle
    exact Option.not_isSome_iff_eq_none.mp idle.2

theorem line_engine_of_apart {t : State} (same : t.apart Set.univ ∅ = s.apart Set.univ ∅) :
    t.line h b = s.line h b ∧ t.engine h b = s.engine h b :=
  have same := apartLines_of_apart (I := ∅) same
  ⟨line_of_apartLines same (Set.notMem_empty _), engine_of_apartLines same (Set.notMem_empty _)⟩

theorem engine_endAttempt (st : Nat) : (endAttempt h b st s).engine h b = s.engine h b := by
  unfold endAttempt
  split
  · rw [State.engine, engines_endEntry, State.engine]
  · rfl

theorem attempt_endAttempt (st : Nat) : ((endAttempt h b st s).line h b).attempt = none := by
  unfold endAttempt
  split
  · next e open_ => rw [line_endEntry, Line.ended, if_pos open_]
  · assumption

/-- A trip ends what the line was sending (R206). -/
theorem lineTripCopy_stops (volts : Bool) :
    ((lineTripCopy h volts b s).line h b).attempt = none ∧ ((lineTripCopy h volts b s).engine h b).sym = none := by
  unfold lineTripCopy
  dsimp only
  obtain ⟨line, engine⟩ := line_engine_of_apart (h := h) (b := b) _ (apart_raiseBayEvent (P := Set.univ) (S := ∅)
    (endAttempt h b St.LINE_TRIPPED (muteEngine h b (setLineStat h b
      (if volts then Reg.LN_STAT_VTRIP else Reg.LN_STAT_ITRIP) s))) h b .lineTrip)
  rw [line, engine]
  exact ⟨attempt_endAttempt _ _, (congrArg Engine.sym (engine_endAttempt _ _)).trans (sym_muteEngine _)⟩

end

end Sys2Proof.Machine
end

section
/-! SUPPORT. A line's copy in one half goes by registers, lines and engines that an act on the other half's copy leaves alone
(R23, R24), and the bits of LN_STAT that an act leaves set (R239). -/

namespace Sys2Proof.Machine

/-! ## Registers and lines of a half -/

/-- Where a copy of half h is worked on, what changes elsewhere: only the other half's copies of bays and lines, and what keeps
records, captures and pulses. -/
def LineElsewhere (h : Half) (s t : State) : Prop :=
  t.apartLines (copyKeys h.other) (copyLines h.other) = s.apartLines (copyKeys h.other) (copyLines h.other)

/-- An act on a line's copy in any half changes that half's copies alone. -/
def ActsOnLine (f : Half → State → State) : Prop :=
  ∀ g v, (f g v).apartLines (copyKeys g) (copyLines g) = v.apartLines (copyKeys g) (copyLines g)

theorem bay_mem_copyKeys (h : Half) {b o : Nat} (hb : b < 64) (ho : o < 0x400) : bayKey h b + o ∈ copyKeys h := by
  rw [copyKeys, Set.mem_Ico, bayKey]
  omega

theorem lineLogs_lt {o : Nat} (ho : o ∈ lineLogs) : 0x180 ≤ o ∧ o < 0x400 := by
  revert o
  decide

theorem logs_copyKeys (h : Half) {b : Nat} (hb : b < 64) : ∀ o ∈ lineLogs, bayKey h b + o ∈ copyKeys h :=
  fun _ ho => bay_mem_copyKeys h hb (lineLogs_lt ho).2

theorem line_mem_copyLines (h : Half) {b : Nat} (hb : b < 64) : bayIx h b ∈ copyLines h := by
  rw [copyLines, Set.mem_Ico, bayIx]
  omega

theorem line_not_mem_other (h : Half) {b : Nat} (hb : b < 64) : bayIx h b ∉ copyLines h.other := by
  cases h <;> simp [copyLines, bayIx, Half.other, Half.num, hb]

theorem mem_ofBays (h : Half) {b : Nat} {os : List Nat} (hb : b < 64) {o : Nat} (ho : o ∈ os) : bayKey h b + o ∈ ofBays os :=
  ⟨h, b, hb, o, ho, rfl⟩

/-- An offset that is not listed names no register of the list in any bay. -/
theorem bay_not_mem_ofBays (h : Half) {b o : Nat} {os : List Nat} (hb : b < 64) (ho : o < 0x400)
    (low : ∀ p ∈ os, p < 0x400) (other : o ∉ os) : bayKey h b + o ∉ ofBays os := by
  rintro ⟨g, c, hc, p, hp, same⟩
  have hp' := low p hp
  have : o = p := by
    unfold bayKey halfKey Half.num at same
    cases g <;> cases h <;> (dsimp only at same; omega)
  exact other (this ▸ hp)

namespace LineElsewhere

variable {h : Half} {s t u : State} {b : Nat}

theorem refl (s : State) : LineElsewhere h s s := rfl

theorem trans (first : LineElsewhere h s t) (second : LineElsewhere h t u) : LineElsewhere h s u := Eq.trans second first

/-- Beyond registers and lines, records, captures, pulses and transmit paths are no matter to a copy. -/
theorem of_apartLines (same : t.apartLines ∅ ∅ = s.apartLines ∅ ∅) : LineElsewhere h s t := by
  refine Prod.ext (Prod.ext (congrArg (fun v => v.1.1) same) (Prod.ext (funext fun k => ?_) ?_))
    (Prod.ext (funext fun j => ?_) (funext fun j => ?_))
  · exact reg_of_apartLines same (Set.notMem_empty _) k.2.2
  · exact congrArg (fun v => v.1.2.2) same
  · exact congrFun (congrArg (fun v => v.2.1) same) ⟨j.1, Set.notMem_empty _⟩
  · exact congrFun (congrArg (fun v => v.2.2) same) ⟨j.1, Set.notMem_empty _⟩

variable (e : LineElsewhere h s t)
include e

theorem computes (x : Half) : t.computes x = s.computes x := computes_of_apartLines e x

theorem holder (c : Nat) : t.holder c = s.holder c :=
  State.holder_of_seats (congrArg State.seats (rest_of_apartLines e) :) c

variable (hb : b < 64)
include hb

theorem line : t.line h b = s.line h b := line_of_apartLines e (line_not_mem_other h hb)

theorem engine : t.engine h b = s.engine h b := engine_of_apartLines e (line_not_mem_other h hb)

theorem reg {o : Nat} (lo : 0x20 ≤ o) (hi : o < 0x400) : t.reg (bayKey h b + o) = s.reg (bayKey h b + o) :=
  reg_of_apartLines e (bay_not_mem_other h hb hi) (bay_not_mem_logKeys h hb hi fun p hp => by
    have := capture_lt hp
    omega)

theorem get {f : Fld} (lo : 0x20 ≤ f.addr) (hi : f.addr < 0x400) : t.get (bayKey h b) f = s.get (bayKey h b) f := by
  rw [State.get, e.reg hb lo hi, State.get]

theorem flag {f : Fld} (lo : 0x20 ≤ f.addr) (hi : f.addr < 0x400) : t.flag (bayKey h b) f = s.flag (bayKey h b) f := by
  rw [State.flag, e.get hb lo hi, State.flag]

theorem pad {f : Fld} (lo : Reg.ENV_BAYCNT < f.addr) (hi : f.addr < 0x400) :
    t.get (padKey b) f = s.get (padKey b) f := by
  have last : f.addr ≠ Reg.ENV_LAST := by
    simp only [Reg.ENV_BAYCNT, Reg.ENV_LAST] at *
    omega
  exact get_of_apartLines e (pad_not_mem_copyKeys hb hi _) (pad_not_mem_logKeys hb hi last (by omega))

end LineElsewhere

/-! ## Acts on every copy (R23) -/

section

variable {h : Half} {s : State} {f : Half → State → State}

theorem onCopies_lineElsewhere (runs : s.computes h = true) (acts : ActsOnLine f) :
    ∃ v, LineElsewhere h s v ∧ LineElsewhere h (f h v) (s.onCopies f) := by
  unfold State.onCopies
  dsimp only
  cases h with
  | A =>
    rw [if_pos runs]
    refine ⟨s, .refl s, ?_⟩
    split
    · exact acts .B _
    · exact .refl _
  | B =>
    have still : (if s.computes .A then f .A s else s).computes .B = true := by
      rw [apply_ite (State.computes · .B), computes_of_apartLines (acts .A s), ite_self, runs]
    rw [if_pos still]
    refine ⟨_, ?_, .refl _⟩
    split
    · exact acts .A s
    · exact .refl s

/-- A write of a line's register is an act on every copy; the transmit path after it is no matter. -/
theorem lineWrite_apartLines {P I : Set Nat} {m : Master} {b : Nat} (off : Nat) (ok : s.bayWriteOk m b = true) :
    (lineWrite m b off f s).apartLines P I = (s.onCopies f).apartLines P I := by
  unfold lineWrite
  dsimp only
  rw [apartLines_syncLinePath, bayWrite_accepted ok]
  rfl

theorem lineWrite_lineElsewhere {m : Master} {b : Nat} (off : Nat) (ok : s.bayWriteOk m b = true)
    (runs : s.computes h = true) (acts : ActsOnLine f) :
    ∃ v, LineElsewhere h s v ∧ LineElsewhere h (f h v) (lineWrite m b off f s) := by
  obtain ⟨v, before, after⟩ := onCopies_lineElsewhere runs acts
  exact ⟨v, before, after.trans (.of_apartLines (lineWrite_apartLines off ok))⟩

end

/-- What an act on one element brings about, where the acts on others leave the ground for it before and leave it alone
after, holds after the acts on every element. -/
theorem foldl_reaches {β : Type} [DecidableEq β] {R Q : State → Prop} {f : State → β → State} {x : β}
    (turn : ∀ v, R v → Q (f v x)) {l : List β} (before : ∀ y ∈ l, y ≠ x → ∀ v, R v → R (f v y))
    (after : ∀ y ∈ l, y ≠ x → ∀ v, Q v → Q (f v y)) (once : l.Nodup) (mem : x ∈ l) {s : State} (start : R s) :
    Q (l.foldl f s) := by
  induction l generalizing s with
  | nil => simp at mem
  | cons y l ih =>
    obtain ⟨fresh, once⟩ := List.nodup_cons.mp once
    rw [List.foldl_cons]
    by_cases here : y = x
    · subst here
      exact List.foldlRecOn (motive := Q) l f (turn s start) fun v kept z hz =>
        after z (List.mem_cons_of_mem _ hz) (fun same => fresh (same ▸ hz)) v kept
    · exact ih (fun z hz => before z (List.mem_cons_of_mem _ hz)) (fun z hz => after z (List.mem_cons_of_mem _ hz)) once
        ((List.mem_cons.mp mem).resolve_left (Ne.symm here)) (before y List.mem_cons_self here s start)

/-! ## Bits of LN_STAT -/

/-- A bit that is set stays set where another, or the same, is set. -/
theorem flag_put_one_of_flag {s : State} {b c : Nat} {f g : Fld} (f20 : f.hi < 20) (single : f.hi = f.lo)
    (alone : g.hi = g.lo) (set : s.flag b g = true) : (s.put c f 1).flag b g = true := by
  by_cases same : b + g.addr = c + f.addr
  · have word : (s.put c f 1).reg (b + g.addr) = setBits (s.reg (b + g.addr)) f.hi f.lo 1 := by
      rw [same, State.put, State.reg_setReg]
    unfold State.flag State.get at *
    rw [word]
    by_cases bit : g.lo = f.lo
    · rw [alone, bit, ← single, bits_setBits_same _ _ _ _ f20 le_rfl, Nat.add_sub_cancel_left]
      rfl
    · rw [bits_setBits_apart _ _ _ _ _ _ f20 single.ge (by omega)]
      exact set
  · rw [State.flag, State.get_put_other _ _ _ _ _ _ same]
    exact set

section

variable {h : Half} {b : Nat} (hb : b < 64) {s : State}

theorem flag_of_apart_none {t : State} (hb : b < 64) {f : Fld} (lo : 0x20 ≤ f.addr) (hi : f.addr < 0x400)
    (same : t.apart ∅ ∅ = s.apart ∅ ∅) : t.flag (bayKey h b) f = s.flag (bayKey h b) f :=
  flag_of_apart same (Set.notMem_empty _) (bay_not_mem_logKeys h hb hi fun p hp => by
    have := capture_lt hp
    omega)

include hb

theorem flag_setLineStat {f : Fld} (stat : f.addr = Reg.LN_STAT) (f20 : f.hi < 20) (single : f.hi = f.lo) :
    (setLineStat h b f s).flag (bayKey h b) f = true := by
  unfold setLineStat
  split
  · assumption
  · rw [flag_of_apart_none hb (by rw [stat]; decide) (by rw [stat]; decide) (apart_bayRecord _ _ _ _ _ _),
      flag_put_one _ _ f20 single]

/-- Acts that leave set bits of LN_STAT set, whichever line they work on. -/
def KeepsStat (f : State → State) : Prop :=
  ∀ (h : Half) (b : Nat) (g : Fld) (s : State), b < 64 → g.addr = Reg.LN_STAT → g.hi = g.lo → s.flag (bayKey h b) g = true →
    (f s).flag (bayKey h b) g = true

omit hb

theorem keepsStat_setLineStat (g : Half) (c : Nat) {f : Fld} (f20 : f.hi < 20) (single : f.hi = f.lo) :
    KeepsStat (setLineStat g c f) := by
  intro h b k s hb stat alone set
  unfold setLineStat
  split
  · exact set
  · rw [flag_of_apart_none hb (by rw [stat]; decide) (by rw [stat]; decide) (apart_bayRecord _ _ _ _ _ _)]
    exact flag_put_one_of_flag f20 single alone set

theorem keepsStat_raiseBayEvent (g : Half) (c : Nat) (e : BayEvent) : KeepsStat (raiseBayEvent g c e) := by
  intro h b k s hb stat _ set
  rw [flag_of_apart_none hb (by rw [stat]; decide) (by rw [stat]; decide) (apart_raiseBayEvent _ _ _ _)]
  exact set

/-- An act that writes registers of the bays' logs alone leaves LN_STAT as it is. -/
theorem keepsStat_of_apartLines {f : State → State}
    (acts : ∀ s, (f s).apartLines (ofBays lineLogs) Set.univ = s.apartLines (ofBays lineLogs) Set.univ) : KeepsStat f := by
  intro h b k s hb stat _ set
  rw [flag_of_apartLines (acts s)
    (by rw [stat]; exact bay_not_mem_ofBays h hb (by decide) (fun p hp => (lineLogs_lt hp).2) (by decide))
    (by rw [stat]; exact bay_not_mem_logKeys h hb (by decide) (by decide))]
  exact set

theorem keepsStat_countLine (g : Half) {c k : Nat} (hc : c < 64) (hk : Reg.LN_CNT + k ∈ lineLogs) :
    KeepsStat (countLine g c k) :=
  keepsStat_of_apartLines fun s => apartLines_countLine s (fun _ ho => mem_ofBays g hc ho) hk

theorem keepsStat_settleP (g : Half) {c : Nat} (hc : c < 64) : KeepsStat (settleP g c) :=
  keepsStat_of_apartLines fun s => apartLines_settleP s (fun _ ho => mem_ofBays g hc ho) (Set.mem_univ _)

theorem keepsStat_muteEngine (g : Half) (c : Nat) : KeepsStat (muteEngine g c) :=
  keepsStat_of_apartLines fun s => apartLines_muteEngine s (Set.mem_univ _)

theorem keepsStat_logEnd (g : Half) {c : Nat} (hc : c < 64) (st : Nat) : KeepsStat (logEnd g c st) := by
  intro h b k s hb stat alone set
  unfold logEnd
  dsimp only
  refine keepsStat_raiseBayEvent g c .lineTx h b k _ hb stat alone ?_
  have done := flag_put_one_of_flag (c := bayKey g c) (f := Reg.LN_STAT_TXDONE) (by decide) rfl alone set
  have counted := keepsStat_countLine g hc (k := cntTxOk) (by decide) h b k _ hb stat alone done
  have nolock := keepsStat_setLineStat g c (f := Reg.LN_STAT_NOLOCK) (by decide) rfl
  split_ifs
  · exact nolock h b k _ hb stat alone counted
  · exact nolock h b k _ hb stat alone done
  · exact counted
  · exact done

theorem keepsStat_endEntry (g : Half) {c : Nat} (hc : c < 64) (e st : Nat) : KeepsStat (endEntry g c e st) :=
  fun h b k s hb stat alone set => keepsStat_logEnd g hc st h b k (s.setLine g c ((s.line g c).ended e st)) hb stat alone set

theorem keepsStat_endAttempt (g : Half) {c : Nat} (hc : c < 64) (st : Nat) : KeepsStat (endAttempt g c st) := by
  intro h b k s hb stat alone set
  unfold endAttempt
  split
  · exact keepsStat_endEntry g hc _ st h b k s hb stat alone set
  · exact set

theorem keepsStat_failAttempt (g : Half) {c : Nat} (hc : c < 64) (st : Nat) : KeepsStat (failAttempt g c st) := by
  intro h b k s hb stat alone set
  unfold failAttempt
  dsimp only
  split
  · exact set
  · have counted : (if st = St.LINE_NOACK then countLine g c cntNoAck s
        else if st = St.LINE_COLLISION then countLine g c cntColl s else s).flag (bayKey h b) k = true := by
      split_ifs
      · exact keepsStat_countLine g hc (by decide) h b k s hb stat alone set
      · exact keepsStat_countLine g hc (by decide) h b k s hb stat alone set
      · exact set
    generalize (if st = St.LINE_NOACK then countLine g c cntNoAck s
        else if st = St.LINE_COLLISION then countLine g c cntColl s else s) = v at counted
    split_ifs
    · exact keepsStat_endEntry g hc _ _ h b k v hb stat alone counted
    · exact keepsStat_endEntry g hc _ _ h b k v hb stat alone counted
    · exact counted
    · exact keepsStat_endEntry g hc _ _ h b k v hb stat alone counted

end

end Sys2Proof.Machine
end

section
/-! SUPPORT. A change of an octet's frequency (R211, R212): the frames that are lost by it, and what it leaves of registers, lines
and engines. -/

namespace Sys2Proof.Machine

/-! ## Registers of bays that keep no log -/

/-- The registers of every bay's copies keep what they held, but for captures and the log registers of lines. -/
def BayRegsKept (s t : State) : Prop :=
  ∀ (h : Half) (b o : Nat), b < 64 → 0x20 ≤ o → o < 0x400 → o ∉ lineLogs → t.reg (bayKey h b + o) = s.reg (bayKey h b + o)

namespace BayRegsKept

variable {s t u : State}

theorem refl (s : State) : BayRegsKept s s := fun _ _ _ _ _ _ _ => rfl

theorem trans (first : BayRegsKept s t) (second : BayRegsKept t u) : BayRegsKept s u := fun h b o hb lo hi other =>
  (second h b o hb lo hi other).trans (first h b o hb lo hi other)

theorem of_regs (same : t.regs = s.regs) : BayRegsKept s t := fun _ _ _ _ _ _ _ => by rw [State.reg, same, State.reg]

theorem of_apartLines {I : Set Nat} (same : t.apartLines (ofBays lineLogs) I = s.apartLines (ofBays lineLogs) I) :
    BayRegsKept s t := fun h b o hb lo hi other =>
  reg_of_apartLines same (bay_not_mem_ofBays h hb hi (fun _ hp => (lineLogs_lt hp).2) other)
    (bay_not_mem_logKeys h hb hi fun p hp => by
      have := capture_lt hp
      omega)

variable (kept : BayRegsKept s t) {h : Half} {b : Nat} (hb : b < 64) {f : Fld} (lo : 0x20 ≤ f.addr) (hi : f.addr < 0x400)
  (other : f.addr ∉ lineLogs)
include kept hb lo hi other

theorem get : t.get (bayKey h b) f = s.get (bayKey h b) f := by
  rw [State.get, kept h b _ hb lo hi other, State.get]

theorem flag : t.flag (bayKey h b) f = s.flag (bayKey h b) f := by
  rw [State.flag, kept.get hb lo hi other, State.flag]

end BayRegsKept

/-! ## Frames lost (R212) -/

section

variable {P I : Set Nat} {h : Half} {b : Nat} (s : State) (logs : ∀ o ∈ lineLogs, bayKey h b + o ∈ P) (own : bayIx h b ∈ I)
include logs own

theorem apartLines_loseAssembly : (loseAssembly h b s).apartLines P I = s.apartLines P I := by
  unfold loseAssembly
  dsimp only
  split
  · split
    · rfl
    · rw [apartLines_countLine _ logs (by decide), apartLines_setEngine _ own]
  · rfl

theorem apartLines_loseFrame : (loseFrame h b s).apartLines P I = s.apartLines P I := by
  have lost : (if (s.engine h b).assembly.isSome then loseAssembly h b s
      else if (s.engine h b).hears = some false then countLine h b cntRxFmt s else s).apartLines P I
        = s.apartLines P I := by
    split_ifs
    · exact apartLines_loseAssembly s logs own
    · exact apartLines_countLine s logs (by decide)
    · rfl
  unfold loseFrame
  dsimp only
  rw [← lost]
  generalize (if (s.engine h b).assembly.isSome then loseAssembly h b s
    else if (s.engine h b).hears = some false then countLine h b cntRxFmt s else s) = v
  split
  · exact apartLines_setEngine v own _
  · rfl

end

/-- Of lines and engines the frames being received are lost, and no engine stops or starts by it. -/
def LinesRun (s t : State) : Prop := t.lines = s.lines ∧ ∀ h b, (t.engine h b).mode = (s.engine h b).mode

namespace LinesRun

theorem refl (s : State) : LinesRun s s := ⟨rfl, fun _ _ => rfl⟩

theorem trans {s t u : State} (first : LinesRun s t) (second : LinesRun t u) : LinesRun s u :=
  ⟨second.1.trans first.1, fun h b => (second.2 h b).trans (first.2 h b)⟩

theorem of_eq {s t : State} (lines : t.lines = s.lines) (engines : t.engines = s.engines) : LinesRun s t :=
  ⟨lines, fun h b => by rw [State.engine, engines, State.engine]⟩

theorem setEngine (s : State) (h : Half) (b : Nat) (x : Engine) (mode : x.mode = (s.engine h b).mode) :
    LinesRun s (s.setEngine h b x) := by
  refine ⟨rfl, fun g c => ?_⟩
  unfold State.engine State.setEngine at *
  rw [tblGet_tblSet]
  split
  · next same => rw [mode, same]
  · rfl

theorem loseAssembly (h : Half) (b : Nat) (s : State) : LinesRun s (loseAssembly h b s) := by
  unfold Machine.loseAssembly
  dsimp only
  split
  · next a _ =>
    split
    · exact refl s
    · exact .trans (.setEngine s h b { s.engine h b with assembly := some { a with lost := true } } rfl)
        (.of_eq (State.count_lines _ _ _) (State.count_engines _ _ _))
  · exact refl s

theorem loseFrame (h : Half) (b : Nat) (s : State) : LinesRun s (loseFrame h b s) := by
  have lost : LinesRun s (if (s.engine h b).assembly.isSome then Machine.loseAssembly h b s
      else if (s.engine h b).hears = some false then countLine h b cntRxFmt s else s) := by
    split_ifs
    · exact .loseAssembly h b s
    · exact .of_eq (State.count_lines _ _ _) (State.count_engines _ _ _)
    · exact refl s
  unfold Machine.loseFrame
  dsimp only
  refine lost.trans ?_
  generalize (if (s.engine h b).assembly.isSome then Machine.loseAssembly h b s
    else if (s.engine h b).hears = some false then countLine h b cntRxFmt s else s) = v
  split
  · exact .setEngine v h b _ rfl
  · exact refl v

end LinesRun

theorem Synth.with_none {x : Synth} (staged : x.staged = none) (pending : x.pendFreq = none) :
    { x with staged := none, pendFreq := none } = x := by
  cases x
  cases staged
  cases pending
  rfl

section

variable {j : Nat} (hj : j < 8) (s : State)

theorem linesRun_loseReceptions (j : Nat) : LinesRun s (loseReceptions j s) := by
  refine foldl_rel LinesRun .refl (fun _ _ _ => .trans) _ (fun v k => ?_) _ s
  refine onCopies_rel LinesRun .refl (fun _ _ _ => .trans) _ (fun h u => ?_) v
  split
  · exact .loseFrame h _ u
  · exact .refl u

include hj

theorem apartLines_loseReceptions :
    (loseReceptions j s).apartLines (ofBays lineLogs) Set.univ = s.apartLines (ofBays lineLogs) Set.univ := by
  refine apartLines_foldl s fun k hk v => apartLines_onCopies v fun h u => ?_
  have bay : 8 * j + k < 64 := by
    have := List.mem_range.mp hk
    omega
  split
  · exact apartLines_loseFrame u (fun _ ho => mem_ofBays h bay ho) (Set.mem_univ _)
  · rfl

/-! ## A frequency takes effect (R211) -/

omit hj in
theorem tune_same {f : Nat} (same : (s.synth j).freq = f) : tune j f s = s := if_pos same

theorem tune_synth (f : Nat) : ∃ d, (tune j f s).synth j = { s.synth j with freq := f, deaf := d } := by
  unfold tune
  dsimp only
  split
  · next same => exact ⟨(s.synth j).deaf, by rw [← same]⟩
  · exact ⟨true, by rw [State.synth_setSynth, synth_of_apartLines (apartLines_loseReceptions hj s)]⟩

theorem tune_kept (f : Nat) : BayRegsKept s (tune j f s) := by
  unfold tune
  dsimp only
  split
  · exact .refl s
  · exact .trans (.of_apartLines (apartLines_loseReceptions hj s)) (.of_regs rfl)

omit hj in
theorem linesRun_tune (f : Nat) : LinesRun s (tune j f s) := by
  unfold tune
  dsimp only
  split
  · exact .refl s
  · exact .trans (linesRun_loseReceptions s j) (.of_eq rfl rfl)

theorem tuneStaged_synth :
    ∃ d, (tuneStaged j s).synth j = { s.synth j with
      freq := (s.synth j).staged.getD ((s.synth j).pendFreq.getD (s.synth j).freq), deaf := d, staged := none,
      pendFreq := none } := by
  obtain ⟨d, tuned⟩ := tune_synth hj s ((s.synth j).staged.getD ((s.synth j).pendFreq.getD (s.synth j).freq))
  refine ⟨d, ?_⟩
  unfold tuneStaged
  dsimp only
  rw [State.synth_setSynth, tuned]

theorem tuneStaged_kept : BayRegsKept s (tuneStaged j s) := .trans (tune_kept hj s _) (.of_regs rfl)

omit hj in
theorem linesRun_tuneStaged : LinesRun s (tuneStaged j s) := .trans (linesRun_tune s _) (.of_eq rfl rfl)

omit hj in
/-- Where no frequency waits none takes effect. -/
theorem tuneStaged_idle (staged : (s.synth j).staged = none) (pending : (s.synth j).pendFreq = none) :
    tuneStaged j s = s.setSynth j (s.synth j) := by
  unfold tuneStaged
  dsimp only
  rw [staged, pending, Option.getD_none, Option.getD_none, tune_same s rfl, Synth.with_none staged pending]

/-! ## The octet's registers (R209) -/

omit hj in
theorem octetRegs_lineElsewhere {h : Half} (j : Nat) (f : Nat → State → State) (runs : s.computes h = true)
    (acts : ActsOnLine fun g v => f (bayKey g (8 * j)) v) :
    ∃ v, LineElsewhere h s v ∧ LineElsewhere h (f (bayKey h (8 * j)) v) (octetRegs j f s) :=
  onCopies_lineElsewhere runs acts

omit hj in
theorem put_actsOnLine {b : Nat} (hb : b < 64) {f : Fld} (hi : f.addr < 0x400) (v : Nat) :
    ActsOnLine fun g s => s.put (bayKey g b) f v :=
  fun g s => apartLines_put s (bay_mem_copyKeys g hb hi) v

end

end Sys2Proof.Machine
end

section
/-! PROOF. The carrier synthesisers (O16). -/

namespace Sys2Proof.Machine

section

variable {h : Half} {m : Master} {j : Fin 8} {s : State}

theorem octetBay_lt (j : Fin 8) : 8 * j.val < 64 := by omega

theorem octetRegs_put (runs : s.computes h = true) {f : Fld} (hi : f.addr < 0x400) (x : Nat) :
    ∃ v, LineElsewhere h s v
      ∧ LineElsewhere h (v.put (bayKey h (8 * j.val)) f x) (octetRegs j.val (fun key s => s.put key f x) s) :=
  octetRegs_lineElsewhere s j.val (fun key s => s.put key f x) runs (put_actsOnLine (octetBay_lt j) hi x)

/-- A field of the octet's registers after a write of it in every copy. -/
theorem octetRegs_get (runs : s.computes h = true) {f : Fld} (lo : 0x20 ≤ f.addr) (hi : f.addr < 0x400) (f20 : f.hi < 20)
    (order : f.lo ≤ f.hi) (v : Nat) :
    (octetRegs j.val (fun key s => s.put key f v) s).get (bayKey h (8 * j.val)) f = v % 2 ^ (f.hi + 1 - f.lo) := by
  obtain ⟨u, -, after⟩ := octetRegs_put (j := j) runs hi v
  rw [after.get (octetBay_lt j) lo hi, State.get_put _ _ _ _ f20 order]

theorem octetRegs_flag (runs : s.computes h = true) {f : Fld} (lo : 0x20 ≤ f.addr) (hi : f.addr < 0x400) (f20 : f.hi < 20)
    (single : f.hi = f.lo) :
    (octetRegs j.val (fun key s => s.put key f 1) s).flag (bayKey h (8 * j.val)) f = true := by
  rw [State.flag, octetRegs_get runs lo hi f20 single.ge, single, Nat.add_sub_cancel_left]
  rfl

theorem octetRegs_put_synths (f : Fld) (v : Nat) : (octetRegs j.val (fun key s => s.put key f v) s).synths = s.synths :=
  onCopies_keeps (R := fun u => u.synths = s.synths) rfl fun _ _ kept => (State.put_synths _ _ _ _).trans kept

theorem octetRegs_put_synth (f : Fld) (v i : Nat) :
    (octetRegs j.val (fun key s => s.put key f v) s).synth i = s.synth i := by
  rw [State.synth, octetRegs_put_synths, State.synth]

theorem octetRegs_put_computes (f : Fld) (v : Nat) (x : Half) :
    (octetRegs j.val (fun key s => s.put key f v) s).computes x = s.computes x :=
  onCopies_keeps (R := fun u => u.computes x = s.computes x) rfl fun _ u kept =>
    (computes_of_apartLines (apartLines_put (P := Set.univ) (I := ∅) u (Set.mem_univ _) v) x).trans kept

theorem octetRegs_put_holder (f : Fld) (v c : Nat) :
    (octetRegs j.val (fun key s => s.put key f v) s).holder c = s.holder c :=
  onCopies_keeps (R := fun u => u.holder c = s.holder c) rfl fun _ u kept =>
    (State.holder_of_seats (State.put_seats u _ _ _) c).trans kept

/-! ## Requests (R211) -/

theorem synthFreqWrite_bad (runs : s.computes h = true) {freq : BitVec 9} (ok : s.bayWriteOk m (8 * j.val) = true)
    (bad : freq.toNat < 95 ∨ 480 < freq.toNat) :
    Gives (.synthFreqWrite m j freq) s (fun t =>
      t.synths = s.synths ∧ t.flag (bayKey h (8 * j.val)) Reg.LS_STAT_BAD = true) := by
  have writes : exec (.synthFreqWrite m j freq) s
      = .next (octetRegs j.val (fun key s => s.put key Reg.LS_STAT_BAD 1) s) := by
    show execSynthFreqWrite m j freq s = _
    rw [execSynthFreqWrite, if_pos ok, synthFreq, if_pos bad]
  exact .intro writes ⟨octetRegs_put_synths _ _, octetRegs_flag runs (by decide) (by decide) (by decide) rfl⟩

theorem synthFreqWrite_gives (runs : s.computes h = true) {freq : BitVec 9} (ok : s.bayWriteOk m (8 * j.val) = true)
    (low : 95 ≤ freq.toNat) (high : freq.toNat ≤ 480) :
    Gives (.synthFreqWrite m j freq) s (fun t =>
      t.get (bayKey h (8 * j.val)) Reg.LS_SYN_FREQ = freq.toNat
        ∧ (t.synth j.val).mode = (s.synth j.val).mode
        ∧ (freq.toNat = (s.synth j.val).freq → (t.synth j.val).pendFreq = none ∧ (t.synth j.val).staged = none)
        ∧ (freq.toNat ≠ (s.synth j.val).freq → (s.synth j.val).mode = .locked → (t.synth j.val).pendFreq = some freq.toNat
            ∧ (t.synth j.val).freq = (s.synth j.val).freq)
        ∧ (freq.toNat ≠ (s.synth j.val).freq → (s.synth j.val).mode = .settle ∨ (s.synth j.val).mode = .cal →
            (t.synth j.val).staged = some freq.toNat ∧ (t.synth j.val).freq = (s.synth j.val).freq)
        ∧ ((s.synth j.val).mode = .stopped → (t.synth j.val).freq = freq.toNat)) := by
  set u := octetRegs j.val (fun key s => s.put key Reg.LS_SYN_FREQ freq.toNat) s with hu
  have written : u.get (bayKey h (8 * j.val)) Reg.LS_SYN_FREQ = freq.toNat :=
    (octetRegs_get runs (by decide) (by decide) (by decide) (by decide) _).trans (Nat.mod_eq_of_lt freq.isLt)
  have synth : u.synth j.val = s.synth j.val := octetRegs_put_synth _ _ _
  have writes : exec (.synthFreqWrite m j freq) s = .next (synthFreq j.val freq.toNat s) := by
    show execSynthFreqWrite m j freq s = _
    rw [execSynthFreqWrite, if_pos ok]
  refine .intro writes ?_
  unfold synthFreq
  dsimp only
  rw [if_neg (by omega), ← hu]
  split
  · next same =>
    exact ⟨written, by rw [State.synth_setSynth], fun _ => by rw [State.synth_setSynth]; exact ⟨rfl, rfl⟩,
      fun other => absurd same other, fun other => absurd same other, fun _ => by rw [State.synth_setSynth]; exact same.symm⟩
  · next other =>
    split
    · next mode =>
      refine ⟨written, ?_⟩
      rw [State.synth_setSynth, mode]
      exact ⟨rfl, fun same => absurd same other, fun _ _ => ⟨rfl, rfl⟩, fun _ busy => by simp at busy,
        fun stopped => by simp at stopped⟩
    · next mode =>
      obtain ⟨d, tuned⟩ := tune_synth j.isLt u freq.toNat
      rw [(tune_kept j.isLt u _).get (octetBay_lt j) (by decide) (by decide) (by decide), tuned, synth, mode]
      exact ⟨written, rfl, fun same => absurd same other, fun _ locked => by simp at locked, fun _ busy => by simp at busy,
        fun _ => rfl⟩
    · next unlocked moving =>
      refine ⟨written, ?_⟩
      rw [State.synth_setSynth]
      exact ⟨rfl, fun same => absurd same other, fun _ locked => absurd locked unlocked, fun _ _ => ⟨rfl, rfl⟩,
        fun stopped => absurd stopped moving⟩

theorem synthCalRequest_gives (ok : s.bayWriteOk m (8 * j.val) = true) :
    Gives (.synthCalRequest m j) s (fun t =>
      ((s.synth j.val).mode = .locked → t = s.setSynth j.val { s.synth j.val with pendCal := true })
        ∧ ((s.synth j.val).mode = .cal → t = s)
        ∧ ((s.synth j.val).mode = .stopped ∨ (s.synth j.val).mode = .settle →
            t = s.setSynth j.val { s.synth j.val with heldCal := true })) := by
  have asks : exec (.synthCalRequest m j) s = .next (synthCal j.val s) := by
    show execSynthCalRequest m j s = _
    rw [execSynthCalRequest, if_pos ok]
  refine .intro asks ?_
  unfold synthCal
  dsimp only
  cases (s.synth j.val).mode <;> simp

/-! ## What waits takes effect (R210, R211) -/

theorem synthGateApply_gives (quiet : s.octetQuiet j.val = true) (locked : (s.synth j.val).mode = .locked)
    (gated : (s.synth j.val).gated = true) (staged : (s.synth j.val).staged = none) :
    Gives (.synthGateApply j) s (fun t =>
      (t.synth j.val).mode = (if (s.synth j.val).pendCal = true then .cal else .settle)
        ∧ (t.synth j.val).freq = (s.synth j.val).pendFreq.getD (s.synth j.val).freq
        ∧ (t.synth j.val).gated = false) := by
  obtain ⟨d, tuned⟩ := tuneStaged_synth j.isLt s
  have applies : exec (.synthGateApply j) s = .next (synthApply j.val s) := by
    show execSynthGateApply j s = _
    rw [execSynthGateApply, if_pos quiet]
  refine .intro applies ?_
  unfold synthApply
  dsimp only
  rw [if_pos ⟨locked, gated⟩, State.synth_setSynth, tuned, staged]
  exact ⟨rfl, rfl, rfl⟩

theorem synthSettleDone_gives (settles : (s.synth j.val).mode = .settle) (staged : (s.synth j.val).staged = none)
    (pending : (s.synth j.val).pendFreq = none) (held : (s.synth j.val).heldCal = false) :
    Gives (.synthSettleDone j) s (fun t =>
      (t.synth j.val).mode = .locked ∧ (t.synth j.val).freq = (s.synth j.val).freq ∧ t.regs = s.regs) := by
  have done : exec (.synthSettleDone j) s = .next (synthLock j.val (s.setSynth j.val (s.synth j.val))) := by
    show execSynthSettleDone j s = _
    rw [execSynthSettleDone, synthSettleDone, if_pos settles]
    dsimp only
    rw [held, staged, tuneStaged_idle s staged pending]
    rfl
  refine .intro done ?_
  unfold synthLock
  rw [State.synth_setSynth, State.synth_setSynth]
  exact ⟨rfl, rfl, rfl⟩

theorem synthRetry_gives (stopped : (s.synth j.val).mode = .stopped) (failed : (s.synth j.val).failed = true)
    (enabled : s.octetEnabled j.val = true) :
    Gives (.synthRetry j) s (fun t => (t.synth j.val).mode = .cal ∧ t.regs = s.regs) := by
  have retries : exec (.synthRetry j) s
      = .next (s.setSynth j.val { s.synth j.val with mode := .cal, failed := false, heldCal := false }) := by
    show execSynthRetry j s = _
    rw [execSynthRetry, synthRetry]
    dsimp only
    rw [if_pos ⟨stopped, failed, enabled⟩]
  exact .intro retries ⟨by rw [State.synth_setSynth], rfl⟩

/-! ## Calibrations (R210) -/

theorem calDone_actsOnLine (j : Fin 8) : ActsOnLine fun g v =>
    (((v.put (bayKey g (8 * j.val)) Reg.LS_TEMP_CAL (v.get (bayKey g (8 * j.val)) Reg.LS_TEMP_NOW)).put
      (bayKey g (8 * j.val)) Reg.LS_STAT_CAL_DONE 1).count (bayKey g (8 * j.val) + Reg.LS_CALS) 1) := by
  intro g v
  have bay {o : Nat} (ho : o < 0x400) := bay_mem_copyKeys g (octetBay_lt j) ho
  dsimp only
  rw [apartLines_count _ (bay (by decide)), apartLines_put _ (bay (by decide)), apartLines_put _ (bay (by decide))]

theorem synthCalDone_ok (runs : s.computes h = true) (cal : (s.synth j.val).mode = .cal)
    (staged : (s.synth j.val).staged = none) :
    Gives (.synthCalDone j true) s (fun t =>
      (t.synth j.val).mode = .locked ∧ (t.synth j.val).calibrated = true
        ∧ t.flag (bayKey h (8 * j.val)) Reg.LS_STAT_CAL_DONE = true
        ∧ t.get (bayKey h (8 * j.val)) Reg.LS_TEMP_CAL = s.get (bayKey h (8 * j.val)) Reg.LS_TEMP_NOW) := by
  have bay := octetBay_lt j
  obtain ⟨v, before, after⟩ := octetRegs_lineElsewhere s j.val (fun key s => ((s.put key Reg.LS_TEMP_CAL
    (s.get key Reg.LS_TEMP_NOW)).put key Reg.LS_STAT_CAL_DONE 1).count (key + Reg.LS_CALS) 1) runs (calDone_actsOnLine j)
  set u := octetRegs j.val (fun key s => ((s.put key Reg.LS_TEMP_CAL (s.get key Reg.LS_TEMP_NOW)).put key
    Reg.LS_STAT_CAL_DONE 1).count (key + Reg.LS_CALS) 1) s with hu
  set x : Synth := { s.synth j.val with calibrated := true } with hx
  obtain ⟨d, tuned⟩ := tuneStaged_synth j.isLt (u.setSynth j.val x)
  have kept := tuneStaged_kept j.isLt (u.setSynth j.val x)
  have done : exec (.synthCalDone j true) s = .next (synthLock j.val (tuneStaged j.val (u.setSynth j.val x))) := by
    show execSynthCalDone j true s = _
    rw [execSynthCalDone, synthCalDone, if_pos cal, if_pos rfl]
    dsimp only
    rw [if_neg (by rw [staged]; decide)]
  refine .intro done ?_
  have flag : u.flag (bayKey h (8 * j.val)) Reg.LS_STAT_CAL_DONE = true := by
    rw [after.flag bay (by decide) (by decide), State.count, flag_setReg_other _ _ (by decide),
      flag_put_one _ _ (by decide) rfl]
  have temp : u.get (bayKey h (8 * j.val)) Reg.LS_TEMP_CAL = s.get (bayKey h (8 * j.val)) Reg.LS_TEMP_NOW := by
    rw [after.get bay (by decide) (by decide), State.get, State.reg_count_other _ _ (by simp), ← State.get,
      State.get_put_other _ _ _ _ _ _ (by simp), State.get_put _ _ _ _ (by decide) (by decide),
      before.get bay (by decide) (by decide)]
    exact Nat.mod_eq_of_lt (bits_lt _ 15 8)
  have lock : (synthLock j.val (tuneStaged j.val (u.setSynth j.val x))).regs = (tuneStaged j.val (u.setSynth j.val x)).regs := rfl
  refine ⟨?_, ?_, ?_, ?_⟩
  · rw [synthLock, State.synth_setSynth]
  · rw [synthLock, State.synth_setSynth, tuned, State.synth_setSynth]
  · rw [State.flag_of_regs lock, kept.flag bay (by decide) (by decide) (by decide)]
    exact flag
  · rw [(BayRegsKept.of_regs lock).get bay (by decide) (by decide) (by decide),
      kept.get bay (by decide) (by decide) (by decide)]
    exact temp

theorem synthCalDone_failed (runs : s.computes h = true) (cal : (s.synth j.val).mode = .cal) :
    Gives (.synthCalDone j false) s (fun t =>
      (t.synth j.val).mode = .stopped ∧ (t.synth j.val).failed = true
        ∧ t.flag (bayKey h (8 * j.val)) Reg.LS_STAT_CAL_FAIL = true) := by
  set u := octetRegs j.val (fun key s => s.put key Reg.LS_STAT_CAL_FAIL 1) s with hu
  have done : exec (.synthCalDone j false) s = .next ((tuneStaged j.val u).setSynth j.val
      { (tuneStaged j.val u).synth j.val with mode := .stopped, failed := true }) := by
    show execSynthCalDone j false s = _
    rw [execSynthCalDone, synthCalDone, if_pos cal, if_neg (by decide)]
  refine .intro done ⟨by rw [State.synth_setSynth], by rw [State.synth_setSynth], ?_⟩
  rw [(BayRegsKept.of_regs (State.setSynth_regs _ _ _)).flag (octetBay_lt j) (by decide) (by decide) (by decide),
    (tuneStaged_kept j.isLt u).flag (octetBay_lt j) (by decide) (by decide) (by decide)]
  exact octetRegs_flag runs (by decide) (by decide) (by decide) rfl

theorem lsTempUpdate_gives (runs : s.computes h = true) (holds : s.holder (8 * j.val) = h) (now : BitVec 8) :
    Gives (.lsTempUpdate j now) s (fun t =>
      t.get (bayKey h (8 * j.val)) Reg.LS_TEMP_NOW = now.toNat
        ∧ ((s.synth j.val).mode = .locked → s.get (bayKey h (8 * j.val)) Reg.LS_TEMP_CAL + 10 ≤ now.toNat →
            (t.synth j.val).pendCal = true)) := by
  have bay := octetBay_lt j
  obtain ⟨v, before, after⟩ := octetRegs_put (j := j) runs (f := Reg.LS_TEMP_NOW) (by decide) now.toNat
  set u := octetRegs j.val (fun key s => s.put key Reg.LS_TEMP_NOW now.toNat) s with hu
  have synth : u.synth j.val = s.synth j.val := octetRegs_put_synth _ _ _
  have written : u.get (bayKey h (8 * j.val)) Reg.LS_TEMP_NOW = now.toNat :=
    (octetRegs_get runs (by decide) (by decide) (by decide) (by decide) _).trans (Nat.mod_eq_of_lt now.isLt)
  have cal : u.get (bayKey h (8 * j.val)) Reg.LS_TEMP_CAL = s.get (bayKey h (8 * j.val)) Reg.LS_TEMP_CAL := by
    rw [after.get bay (by decide) (by decide),
      State.get_put_apart _ _ _ Reg.LS_TEMP_NOW Reg.LS_TEMP_CAL (by decide) (by decide) rfl (.inr (by decide)),
      before.get bay (by decide) (by decide)]
  have view : u.viewOf (8 * j.val) = h := by
    rw [State.viewOf, octetRegs_put_holder, octetRegs_put_computes, holds, if_pos runs]
  have updates : exec (.lsTempUpdate j now) s = .next (if (u.synth j.val).mode = .locked ∧ u.drifted j.val then
      u.setSynth j.val { u.synth j.val with pendCal := true } else u) := by
    show execLsTempUpdate j now s = _
    rw [execLsTempUpdate, synthTemp]
  refine .intro updates ⟨?_, fun locked far => ?_⟩
  · rw [apply_ite (State.get · _ _)]
    exact (ite_self _).trans written
  · have drifts : u.drifted j.val = true := by
      unfold State.drifted
      dsimp only
      rw [view, written, cal, decide_eq_true far, Bool.true_or]
    rw [if_pos ⟨synth ▸ locked, drifts⟩, State.synth_setSynth]

/-! ## Loss of lock (R210, R213) -/

/-- A line of the octet at the loss of lock: UNLOCK, and what it sends is aborted. -/
def unlockLine (h : Half) (b : Nat) (s : State) : State :=
  let s' := setLineStat h b Reg.LN_STAT_UNLOCK s
  if s.carrier h b then failAttempt h b St.LINE_ABORTED (muteEngine h b s') else s'

/-- The registers that the loss of lock writes in the bays of the octet. -/
def unlockLogs : List Nat := Reg.LN_STAT :: lineLogs

theorem apartLines_unlockLine {g : Half} {c : Nat} (hc : c < 64) (v : State) :
    (unlockLine g c v).apartLines (ofBays unlockLogs) Set.univ = v.apartLines (ofBays unlockLogs) Set.univ := by
  have stat := mem_ofBays g hc (os := unlockLogs) List.mem_cons_self
  have logs (o : Nat) (ho : o ∈ lineLogs) := mem_ofBays g hc (os := unlockLogs) (List.mem_cons_of_mem _ ho)
  unfold unlockLine
  dsimp only
  split
  · rw [apartLines_failAttempt _ stat logs (Set.mem_univ _), apartLines_muteEngine _ (Set.mem_univ _),
      apartLines_setLineStat _ stat rfl]
  · exact apartLines_setLineStat v stat rfl

theorem keepsStat_unlockLine (g : Half) {c : Nat} (hc : c < 64) : KeepsStat (unlockLine g c) := by
  intro x b k v hb stat alone set
  have marked := keepsStat_setLineStat g c (f := Reg.LN_STAT_UNLOCK) (by decide) rfl x b k v hb stat alone set
  unfold unlockLine
  dsimp only
  split
  · exact keepsStat_failAttempt g hc _ x b k _ hb stat alone (keepsStat_muteEngine g c x b k _ hb stat alone marked)
  · exact marked

theorem flag_unlockLine (g : Half) {c : Nat} (hc : c < 64) (v : State) :
    (unlockLine g c v).flag (bayKey g c) Reg.LN_STAT_UNLOCK = true := by
  have marked := flag_setLineStat (h := g) hc (s := v) (f := Reg.LN_STAT_UNLOCK) rfl (by decide) rfl
  unfold unlockLine
  dsimp only
  split
  · exact keepsStat_failAttempt g hc _ g c _ _ hc rfl rfl (keepsStat_muteEngine g c g c _ _ hc rfl rfl marked)
  · exact marked

/-- The lines of the octet, one by one, in every copy. -/
def unlockLines (j : Nat) (s : State) : State :=
  (List.range 8).foldl (fun s k => s.onCopies fun h s => unlockLine h (8 * j + k) s) s

theorem apartLines_unlockLines (j : Fin 8) (s : State) :
    (unlockLines j.val s).apartLines (ofBays unlockLogs) Set.univ = s.apartLines (ofBays unlockLogs) Set.univ :=
  apartLines_foldl s fun k hk v => apartLines_onCopies v fun _ u =>
    apartLines_unlockLine (by have := List.mem_range.mp hk; omega) u

theorem flag_unlockLines (runs : s.computes h = true) (k : Fin 8) :
    (unlockLines j.val s).flag (bayKey h (8 * j.val + k.val)) Reg.LN_STAT_UNLOCK = true := by
  have bay {i : Nat} (hi : i ∈ List.range 8) : 8 * j.val + i < 64 := by
    have := List.mem_range.mp hi
    omega
  have mem : k.val ∈ List.range 8 := List.mem_range.mpr k.isLt
  have copies {i : Nat} (hi : i ∈ List.range 8) (v : State) (x : Half) :
      (v.onCopies fun h s => unlockLine h (8 * j.val + i) s).computes x = v.computes x :=
    computes_of_apartLines (apartLines_onCopies v fun _ u => apartLines_unlockLine (bay hi) u) x
  refine foldl_reaches (R := fun v => v.computes h = true)
    (Q := fun v => v.flag (bayKey h (8 * j.val + k.val)) Reg.LN_STAT_UNLOCK = true) (fun v runs => ?_)
    (fun i hi _ v runs => (copies hi v h).trans runs) (fun i hi _ v set => ?_) List.nodup_range mem runs
  · exact onCopies_reaches (R := fun v => v.flag (bayKey h (8 * j.val + k.val)) Reg.LN_STAT_UNLOCK = true) runs
      (fun _ u x => computes_of_apartLines (apartLines_unlockLine (bay mem) u) x)
      (fun u => flag_unlockLine h (bay mem) u)
      (fun u set => keepsStat_unlockLine h.other (bay mem) h _ _ u (bay mem) rfl rfl set)
  · exact onCopies_keeps (R := fun v => v.flag (bayKey h (8 * j.val + k.val)) Reg.LN_STAT_UNLOCK = true) set
      fun g u set => keepsStat_unlockLine g (bay hi) h _ _ u (bay mem) rfl rfl set

theorem apartLines_settleOctet (j : Fin 8) (s : State) :
    (settleOctet j.val s).apartLines (ofBays lineLogs) Set.univ = s.apartLines (ofBays lineLogs) Set.univ :=
  apartLines_foldl s fun k hk v => apartLines_onCopies v fun g u =>
    apartLines_settleP u (fun _ ho => mem_ofBays g (by have := List.mem_range.mp hk; omega) ho) (Set.mem_univ _)

theorem synthUnlock_gives (runs : s.computes h = true) (locked : (s.synth j.val).mode = .locked) (k : Fin 8) :
    Gives (.synthUnlock j) s (fun t =>
      (t.synth j.val).mode = .cal ∧ t.flag (bayKey h (8 * j.val)) Reg.LS_STAT_UNLOCK = true
        ∧ t.flag (bayKey h (8 * j.val + k.val)) Reg.LN_STAT_UNLOCK = true) := by
  have bay : 8 * j.val + k.val < 64 := by omega
  set u := octetRegs j.val (fun key s => s.put key Reg.LS_STAT_UNLOCK 1) s with hu
  set v := unlockLines j.val u with hv
  set w := (tuneStaged j.val v).setSynth j.val { (tuneStaged j.val v).synth j.val with mode := .cal, pendCal := false } with hw
  have unlocks : exec (.synthUnlock j) s = .next (settleOctet j.val w) := by
    show execSynthUnlock j s = _
    rw [execSynthUnlock, synthUnlock, if_pos locked]
    rfl
  have settled := apartLines_settleOctet j w
  have kept : BayRegsKept v (settleOctet j.val w) :=
    .trans (tuneStaged_kept j.isLt v) (.trans (.of_regs (State.setSynth_regs _ _ _)) (.of_apartLines settled))
  have start : u.computes h = true := (octetRegs_put_computes _ _ _).trans runs
  refine .intro unlocks ⟨?_, ?_, ?_⟩
  · rw [synth_of_apartLines settled, hw, State.synth_setSynth]
  · rw [kept.flag (octetBay_lt j) (by decide) (by decide) (by decide),
      flag_of_apartLines (apartLines_unlockLines j u) (bay_not_mem_ofBays h (octetBay_lt j) (by decide) (by decide) (by decide))
        (bay_not_mem_logKeys h (octetBay_lt j) (by decide) (by decide))]
    exact octetRegs_flag runs (by decide) (by decide) (by decide) rfl
  · rw [kept.flag bay (by decide) (by decide) (by decide)]
    exact flag_unlockLines start k


end

/-! ## The obligation -/

/-- Settles O16: a frequency that takes effect loses frames being received and changes no register of the octet but counters;
the octet's own registers are written in every copy alike; what the loss of lock sets in a line, no other line and no end of an
attempt clears. -/
theorem synthesisersTakeTheirStates : Obligations.SynthesisersTakeTheirStates :=
  ⟨fun _ _ _ _ _ runs ok bad => synthFreqWrite_bad runs ok bad,
    fun _ _ _ _ _ runs ok low high => synthFreqWrite_gives runs ok low high,
    fun _ _ _ ok => synthCalRequest_gives ok,
    fun _ _ quiet locked gated staged => synthGateApply_gives quiet locked gated staged,
    fun _ _ _ runs cal staged => synthCalDone_ok runs cal staged,
    fun _ _ _ runs cal => synthCalDone_failed runs cal,
    fun _ _ settles staged pending held => synthSettleDone_gives settles staged pending held,
    fun _ _ k _ runs locked => synthUnlock_gives runs locked k,
    fun _ _ stopped failed enabled => synthRetry_gives stopped failed enabled,
    fun _ _ now _ runs holds => lsTempUpdate_gives runs holds now⟩

end Sys2Proof.Machine
end

section
/-! SUPPORT. Trips, submissions, cancels and the disabling of a line, in one copy (R205, R206, R229, R231, R232, R240). -/

namespace Sys2Proof.Machine

/-! ## What a copy goes by where only the other half's copies were worked on -/

theorem half_not_mem_logKeys (h : Half) {o : Nat} (lo : 0x820 ≤ o) (hi : o < 0x10000) : halfKey h + o ∉ logKeys := by
  rintro (⟨g, hg⟩ | ⟨i, hi, p, hp, same⟩ | ⟨c, -, same⟩)
  · rw [codingKeys, Set.mem_Ico] at hg
    cases g <;> cases h <;> (unfold halfKey Half.num at hg; dsimp only at hg; omega)
  · have := capture_lt hp
    unfold tbKey bayKey halfKey oneKey Half.num at same
    cases h <;> (dsimp only at same; split_ifs at same <;> omega)
  · unfold padKey halfKey oneKey Half.num at same
    cases h <;> (dsimp only at same; omega)

namespace LineElsewhere

variable {h : Half} {s t : State} {b : Nat} (e : LineElsewhere h s t)
include e

theorem get_half (x : Half) {f : Fld} (lo : 0x820 ≤ f.addr) (hi : f.addr < 0x10000) :
    t.get (halfKey x) f = s.get (halfKey x) f := by
  refine get_of_apartLines e ?_ (half_not_mem_logKeys x lo hi)
  unfold copyKeys halfKey
  cases x <;> cases h <;> simp [Half.other, Half.num] <;> omega

theorem orphaned (c : Nat) : t.orphaned c = s.orphaned c := by
  have half (x : Half) : t.half x = s.half x := by
    cases x with
    | A => exact (congrArg State.halfA (rest_of_apartLines e) :)
    | B => exact (congrArg State.halfB (rest_of_apartLines e) :)
  rw [State.orphaned, e.holder, State.orphaned, State.healthy, State.healthy]
  simp only [half, State.flag, e.get_half _ (f := Reg.HLT_STAT_MISSED) (by decide) (by decide),
    e.get_half _ (f := Reg.HLT_STAT_SYNCED) (by decide) (by decide),
    e.get_half _ (f := Reg.HLT_STAT_SELF_FAIL) (by decide) (by decide)]

variable (hb : b < 64)
include hb

theorem leWord : t.leWord h b = s.leWord h b := by
  have progs : t.progs = s.progs := (congrArg State.progs (rest_of_apartLines e) :)
  rw [State.leWord, e.engine hb, State.progWord, progs, State.leWord, State.progWord]

theorem leTurn : t.leTurn h b = s.leTurn h b := by
  have onTref : t.onTref = s.onTref := (congrArg State.onTref (rest_of_apartLines e) :)
  have mode : t.power.mode = s.power.mode := (congrArg (fun u : State => u.power.mode) (rest_of_apartLines e) :)
  have entering : t.power.entering = s.power.entering :=
    (congrArg (fun u : State => u.power.entering) (rest_of_apartLines e) :)
  have edge : t.leGet h b Reg.LE_EDGE_POL = s.leGet h b Reg.LE_EDGE_POL := by
    rw [State.leGet, State.leReg, e.engine hb, e.reg hb (by decide) (by decide), State.leGet, State.leReg]
  have quiet : t.leQuiet h b = s.leQuiet h b := by
    unfold State.leQuiet
    dsimp only
    rw [e.leWord hb, e.engine hb, edge, onTref]
  rw [State.leTurn, State.leWaits, e.engine hb, e.leWord hb, quiet, e.flag hb (by decide) (by decide), e.orphaned, mode,
    entering, e.line hb, State.leTurn, State.leWaits]

theorem submitStatus (id : Nat) : t.submitStatus h b id = s.submitStatus h b id := by
  have get (f : Fld) (lo : 0x20 ≤ f.addr) (hi : f.addr < 0x400) := e.get hb lo hi
  have flag (f : Fld) (lo : 0x20 ≤ f.addr) (hi : f.addr < 0x400) := e.flag hb lo hi
  have bad : t.submitBad h b id = s.submitBad h b id := by
    unfold State.submitBad
    dsimp only
    rw [get Reg.LN_TXC_LEN (by decide) (by decide), get Reg.LN_TXC_RATE (by decide) (by decide),
      get Reg.LE_CFG_PROTO (by decide) (by decide), flag Reg.LN_TXC_AR (by decide) (by decide)]
  unfold State.submitStatus State.lineTripped
  dsimp only
  rw [e.line hb, bad, get Reg.LN_TXC_ENTRY (by decide) (by decide), flag Reg.LN_CFG_EN (by decide) (by decide),
    e.pad hb (f := Reg.LN_ENV_TXMAX) (by decide) (by decide), flag Reg.LN_STAT_VTRIP (by decide) (by decide),
    flag Reg.LN_STAT_ITRIP (by decide) (by decide)]

end LineElsewhere

/-! ## Acts on a line's copy -/

section

variable {b : Nat} (hb : b < 64)
include hb

theorem settleP_actsOnLine : ActsOnLine fun g v => settleP g b v := fun g v =>
  apartLines_settleP v (logs_copyKeys g hb) (line_mem_copyLines g hb)

theorem endEntry_actsOnLine (e st : Nat) : ActsOnLine fun g v => endEntry g b e st v := fun g v =>
  apartLines_endEntry v (bay_mem_copyKeys g hb (by decide)) (logs_copyKeys g hb) (line_mem_copyLines g hb) e st

theorem lineTripCopy_actsOnLine (volts : Bool) : ActsOnLine fun g v => lineTripCopy g volts b v := fun g v =>
  apartLines_lineTripCopy v (bay_mem_copyKeys g hb (by decide)) (logs_copyKeys g hb) (line_mem_copyLines g hb) volts

theorem setLine_actsOnLine (x : Half → State → Line) : ActsOnLine fun g v => v.setLine g b (x g v) := fun g v =>
  apartLines_setLine v (line_mem_copyLines g hb) _

theorem writeTxData_actsOnLine (w : Word) : ActsOnLine fun g v => writeTxData g b w v := by
  intro g v
  unfold writeTxData
  dsimp only
  rw [apartLines_put _ (bay_mem_copyKeys g hb (by decide))]
  split
  · exact apartLines_put v (bay_mem_copyKeys g hb (by decide)) _
  · exact apartLines_setLine v (line_mem_copyLines g hb) _

theorem submit_actsOnLine (id : Nat) : ActsOnLine fun g v => submit g b id v := by
  intro g v
  unfold submit
  dsimp only
  split
  · rw [apartLines_setLine _ (line_mem_copyLines g hb), apartLines_put _ (bay_mem_copyKeys g hb (by decide))]
  · exact apartLines_put v (bay_mem_copyKeys g hb (by decide)) _

theorem cancelMask_actsOnLine (mask : Nat) : ActsOnLine fun g v => cancelMask g b mask v := by
  refine fun g v => apartLines_foldl v fun e _ u => ?_
  split
  · exact apartLines_cancelEntry u (bay_mem_copyKeys g hb (by decide)) (logs_copyKeys g hb) (line_mem_copyLines g hb) e
  · rfl

theorem advanceRx_actsOnLine : ActsOnLine fun g v => advanceRx g b v := fun g v =>
  apartLines_put v (bay_mem_copyKeys g hb (by decide)) _

omit hb in
theorem apartLines_plainWrite {P I : Set Nat} {k : Nat} (hk : k ∈ P) (w : Word) (v : State) :
    (v.plainWrite k w).apartLines P I = v.apartLines P I := by
  unfold State.plainWrite
  split
  · exact apartLines_setReg v hk _
  · rfl

theorem plainWrite_actsOnLine {o : Nat} (ho : o < 0x400) (w : Half → State → Word) :
    ActsOnLine fun g v => v.plainWrite (bayKey g b + o) (w g v) := fun g v =>
  apartLines_plainWrite (bay_mem_copyKeys g hb ho) _ v

end

/-! ## Trips (R206) -/

/-- A line whose trip is latched and which sends nothing. -/
def LineStopped (h : Half) (b : Nat) (f : Fld) (s : State) : Prop :=
  s.flag (bayKey h b) f = true ∧ (s.line h b).attempt = none ∧ (s.engine h b).sym = none

/-- The bit of LN_STAT that a comparator's trip sets. -/
def tripFld (volts : Bool) : Fld := if volts then Reg.LN_STAT_VTRIP else Reg.LN_STAT_ITRIP

section

variable {h : Half} {b : Nat} (hb : b < 64) (volts : Bool) {s t : State}
include hb

theorem LineStopped.elsewhere (e : LineElsewhere h s t) (stops : LineStopped h b (tripFld volts) s) :
    LineStopped h b (tripFld volts) t := by
  obtain ⟨flag, attempt, sym⟩ := stops
  refine ⟨?_, by rw [e.line hb, attempt], by rw [e.engine hb, sym]⟩
  rw [e.flag hb (by cases volts <;> decide) (by cases volts <;> decide), flag]

theorem lineTripCopy_gives (s : State) : LineStopped h b (tripFld volts) (lineTripCopy h volts b s) := by
  have stat : (tripFld volts).addr = Reg.LN_STAT := by cases volts <;> rfl
  have alone : (tripFld volts).hi = (tripFld volts).lo := by cases volts <;> rfl
  refine ⟨?_, lineTripCopy_stops s volts⟩
  refine keepsStat_raiseBayEvent h b .lineTrip h b _ _ hb stat alone ?_
  refine keepsStat_endAttempt h hb St.LINE_TRIPPED h b _ _ hb stat alone ?_
  refine keepsStat_muteEngine h b h b _ _ hb stat alone ?_
  exact flag_setLineStat hb stat (by cases volts <;> decide) alone

theorem LineStopped.settleP (g : Half) (stops : LineStopped h b (tripFld volts) s) :
    LineStopped h b (tripFld volts) (settleP g b s) := by
  by_cases own : g = h
  · subst own
    obtain ⟨flag, attempt, sym⟩ := stops
    have stat : (tripFld volts).addr = Reg.LN_STAT := by cases volts <;> rfl
    exact ⟨keepsStat_settleP g hb g b _ _ hb stat (by cases volts <;> rfl) flag, by rw [line_settleP, attempt],
      by rw [engine_settleP, sym]⟩
  · obtain rfl := Half.eq_other_of_ne own
    exact stops.elsewhere hb volts (settleP_actsOnLine hb _ s)

theorem lineTrip_stops (runs : s.computes h = true) :
    LineStopped h b (tripFld volts) (s.onCopies fun g v => lineTripCopy g volts b v) :=
  onCopies_reaches runs (fun g v x => computes_of_apartLines (lineTripCopy_actsOnLine hb volts g v) x)
    (fun v => lineTripCopy_gives hb volts v) fun v stops => stops.elsewhere hb volts (lineTripCopy_actsOnLine hb volts _ v)

end

/-! ## The power slot (R205, R206) -/

section

variable {h : Half} {n : Nat} (hn : n < 1024) {s : State}
include hn

theorem cutPad_bare (s : State) : ∃ p, (cutPad n s).bare = { s.bare with pads := p } := by
  have kept : (s.onSlot n fun h s => tripCopy h n s).bare = s.bare :=
    onCopies_keeps (R := fun v => v.bare = s.bare) rfl fun g v same =>
      ((bare_of_apart ((apart_noteBand _ g n _).trans (tripCopy_actsOnCopy hn g v))).trans same :)
  exact ⟨_, (congrArg (fun u : State => { u with pads := (cutPad n s).pads }) kept :)⟩

/-- A cut pad has lost its current, and shows TRIP in every copy (R161). -/
theorem cutPad_gives (runs : s.computes h = true) :
    (cutPad n s).flag (termKey h n) Reg.TS_STAT_TRIP = true ∧ ((cutPad n s).pad n).cut = true
      ∧ ((cutPad n s).pad n).level ≠ .on := by
  obtain ⟨v, -, after⟩ := onSlot_elsewhere (n := n) runs (tripCopy_actsOnCopy hn)
  obtain ⟨-, -, trip, -, -⟩ := tripCopy_gives (h := h) hn (s := v)
  unfold cutPad
  dsimp only
  rw [flag_setPad, State.pad_setPad, after.flag hn (by decide)]
  refine ⟨trip, rfl, ?_⟩
  dsimp only
  split <;> simp

end

/-! ## Cancels (R232) -/

section

variable {h : Half} {b e i : Nat} (other : i ≠ e) (v : State)
include other

/-- The cancel of another entry leaves an entry, and whether its attempt is open with its SOF out. -/
theorem cancelEntry_other :
    ((cancelEntry h b i v).line h b).entry e = (v.line h b).entry e
      ∧ ((cancelEntry h b i v).line h b).sof = (v.line h b).sof
      ∧ (((cancelEntry h b i v).line h b).attempt = some e ↔ (v.line h b).attempt = some e) := by
  unfold cancelEntry
  dsimp only
  split_ifs
  · rw [State.line_setLine]
    exact ⟨Line.entry_setEntry_other _ _ other.symm, rfl, Iff.rfl⟩
  · rw [line_endEntry]
    refine ⟨Line.entry_ended_other _ _ other.symm, rfl, ?_⟩
    unfold Line.ended
    split
    · next own => simp [own, other]
    · exact Iff.rfl
  · exact ⟨rfl, rfl, Iff.rfl⟩

end

/-- What LN_CANCEL leaves of an entry: one whose SOF has gone out is marked, another has ended. -/
def EntryCancelled (marked : Prop) [Decidable marked] (x : TxEntry) : Prop :=
  if marked then x.cpend = true ∧ x.busy = true else x.busy = false ∧ x.done = true ∧ x.status = St.LINE_CANCELLED

theorem cancelEntry_own {h : Half} {b e : Nat} {v : State} (busy : ((v.line h b).entry e).busy = true) :
    EntryCancelled ((v.line h b).attempt = some e ∧ (v.line h b).sof = true) (((cancelEntry h b e v).line h b).entry e) := by
  unfold cancelEntry EntryCancelled
  dsimp only
  rw [if_pos busy]
  split
  · rw [State.line_setLine, Line.entry_setEntry]
    exact ⟨rfl, busy⟩
  · rw [line_endEntry, Line.entry_ended]
    exact ⟨rfl, rfl, rfl⟩

theorem cancelMask_gives {h : Half} {b e mask : Nat} {s : State} (low : e < 8) (asked : mask.testBit e = true)
    (busy : ((s.line h b).entry e).busy = true) :
    EntryCancelled ((s.line h b).attempt = some e ∧ (s.line h b).sof = true)
      (((cancelMask h b mask s).line h b).entry e) := by
  refine foldl_reaches (x := e)
    (R := fun v => (v.line h b).entry e = (s.line h b).entry e ∧ (v.line h b).sof = (s.line h b).sof
      ∧ ((v.line h b).attempt = some e ↔ (s.line h b).attempt = some e))
    (Q := fun v => EntryCancelled ((s.line h b).attempt = some e ∧ (s.line h b).sof = true) ((v.line h b).entry e))
    (fun v stands => ?_) (fun i _ other v stands => ?_) (fun i _ other v done => ?_) List.nodup_range
    (List.mem_range.mpr low) ⟨rfl, rfl, Iff.rfl⟩
  · obtain ⟨entry, sof, attempt⟩ := stands
    rw [if_pos asked]
    have own := cancelEntry_own (h := h) (b := b) (e := e) (v := v) (by rw [entry, busy])
    simpa only [EntryCancelled, sof, attempt] using own
  · obtain ⟨entry, sof, attempt⟩ := stands
    split
    · obtain ⟨entry', sof', attempt'⟩ := cancelEntry_other (h := h) (b := b) other v
      exact ⟨entry'.trans entry, sof'.trans sof, attempt'.trans attempt⟩
    · exact ⟨entry, sof, attempt⟩
  · split
    · rw [(cancelEntry_other (h := h) (b := b) other v).1]
      exact done
    · exact done

/-! ## The end of every entry (R231) -/

theorem endAllEntries_gives {h : Half} {b e : Nat} {s : State} (st : Nat) (low : e < 9)
    (busy : ((s.line h b).entry e).busy = true) :
    (((endAllEntries h b st s).line h b).entry e).busy = false ∧ (((endAllEntries h b st s).line h b).entry e).status = st := by
  refine foldl_reaches (x := e) (R := fun v => ((v.line h b).entry e).busy = true)
    (Q := fun v => ((v.line h b).entry e).busy = false ∧ ((v.line h b).entry e).status = st)
    (fun v busy => ?_) (fun i _ other v busy => ?_) (fun i _ other v ended => ?_) List.nodup_range
    (List.mem_range.mpr low) busy
  · rw [if_pos busy, line_endEntry, Line.entry_ended]
    exact ⟨rfl, rfl⟩
  · split
    · rw [line_endEntry, Line.entry_ended_other _ _ other.symm]
      exact busy
    · exact busy
  · split
    · rw [line_endEntry, Line.entry_ended_other _ _ other.symm]
      exact ended
    · exact ended

/-! ## EN cleared (R231, R248, R266) -/

section

variable {h : Half} {b : Nat} (s : State)

theorem leDisable_mode : ((leDisable h b s).engine h b).mode = .stopped := by
  unfold leDisable
  split
  · assumption
  · unfold leHaltAll
    dsimp only
    rw [State.engine_setEngine]

theorem lines_leDisable : (leDisable h b s).lines = s.lines := by
  have swap : (leTakeSwap h b s).lines = s.lines := by
    unfold leTakeSwap leSwapBank
    split
    · rw [State.count_lines, State.put_lines, State.setEngine_lines]
    · rfl
  have drop (v : State) : (leDropAssembly h b v).lines = v.lines := (LinesRun.loseAssembly h b v).1
  unfold leDisable leHaltAll setOutput
  dsimp only
  split
  · rfl
  · simp only [State.setEngine_lines, drop, swap]

theorem apartLines_leDisable {P I : Set Nat} (logs : ∀ o ∈ lineLogs, bayKey h b + o ∈ P) (own : bayIx h b ∈ I) :
    (leDisable h b s).apartLines P I = s.apartLines P I := by
  have swap : (leTakeSwap h b s).apartLines P I = s.apartLines P I := by
    unfold leTakeSwap leSwapBank
    split
    · rw [apartLines_count _ (logs _ (by decide)), apartLines_put_log _ logs (by decide), apartLines_setEngine _ own]
    · rfl
  have drop (v : State) : (leDropAssembly h b v).apartLines P I = v.apartLines P I :=
    (apartLines_setEngine _ own _).trans (apartLines_loseAssembly v logs own)
  unfold leDisable leHaltAll setOutput
  dsimp only
  split
  · rfl
  · rw [apartLines_setEngine _ own, apartLines_setEngine _ own, apartLines_setEngine _ own, drop, swap]

theorem lnCfg_row (h : Half) {b : Nat} (hb : b < 64) :
    regRow? ((bayKey h b + Reg.LN_CFG) % 0x100000) = some ⟨0x180, 1, 1, 1, 0x100000, 0xF1FFF, 0, 0xF0A88⟩ := by
  have row : ∀ c : Fin 64, regRow? (0x10000 + 0x400 * c.val + 0x180)
      = some ⟨0x180, 1, 1, 1, 0x100000, 0xF1FFF, 0, 0xF0A88⟩ := by decide +kernel
  have key : (bayKey h b + Reg.LN_CFG) % 0x100000 = 0x10000 + 0x400 * b + 0x180 := by
    unfold bayKey halfKey Half.num Reg.LN_CFG
    cases h <;> (dsimp only; omega)
  rw [key]
  exact row ⟨b, hb⟩

theorem lnStat_row (h : Half) {b : Nat} (hb : b < 64) :
    regRow? ((bayKey h b + Reg.LN_STAT) % 0x100000) = some ⟨0x181, 1, 1, 1, 0x100000, 0, 0xFFE, 0⟩ := by
  have row : ∀ c : Fin 64, regRow? (0x10000 + 0x400 * c.val + 0x181) = some ⟨0x181, 1, 1, 1, 0x100000, 0, 0xFFE, 0⟩ := by
    decide +kernel
  have key : (bayKey h b + Reg.LN_STAT) % 0x100000 = 0x10000 + 0x400 * b + 0x181 := by
    unfold bayKey halfKey Half.num Reg.LN_STAT
    cases h <;> (dsimp only; omega)
  rw [key]
  exact row ⟨b, hb⟩

/-- A field of one bit is set where its bit is. -/
theorem flag_eq_getLsbD (c : Nat) {f : Fld} (single : f.hi = f.lo) : s.flag c f = (s.reg (c + f.addr)).getLsbD f.lo := by
  have bit : s.get c f = ((s.reg (c + f.addr)).getLsbD f.lo).toNat := by
    rw [State.get, bits, single, Nat.add_sub_cancel_left, pow_one, Nat.shiftRight_eq_div_pow, ← BitVec.testBit_toNat,
      Nat.toNat_testBit]
  rw [State.flag, bit]
  cases (s.reg (c + f.addr)).getLsbD f.lo <;> rfl

/-- The write that clears EN. -/
theorem flag_clearEn (hb : b < 64) (w : Word) :
    (s.plainWrite (bayKey h b + Reg.LN_CFG) (setBits w 0 0 0)).flag (bayKey h b) Reg.LN_CFG_EN = false := by
  rw [flag_eq_getLsbD _ _ rfl, getLsbD_plainWrite (lnCfg_row h hb) _ (by decide), if_pos (by decide),
    ← BitVec.testBit_toNat, testBit_setBits _ _ _ _ _ (by decide) (by decide), if_pos (by decide), Nat.zero_testBit]

/-- LN_CFG after the write that clears EN, BAD where RATE is out of range. -/
def lnCfgCleared (h : Half) (b : Nat) (s : State) : State :=
  let w := setBits (s.reg (bayKey h b + Reg.LN_CFG)) 0 0 0
  let s1 := s.plainWrite (bayKey h b + Reg.LN_CFG) w
  if bits w 2 1 = 3 then s1.put (bayKey h b) Reg.LN_STAT_BAD 1 else s1

theorem lnCfgCleared_en (hb : b < 64) : (lnCfgCleared h b s).flag (bayKey h b) Reg.LN_CFG_EN = false := by
  have cleared := flag_clearEn (h := h) s hb (s.reg (bayKey h b + Reg.LN_CFG))
  unfold lnCfgCleared
  dsimp only
  split
  · rw [State.flag, State.get_put_other _ _ _ _ _ _ (by simp), ← State.flag]
    exact cleared
  · exact cleared

theorem writeLnCfg_clear (hb : b < 64) :
    writeLnCfg h b (setBits (s.reg (bayKey h b + Reg.LN_CFG)) 0 0 0) s
      = if s.flag (bayKey h b) Reg.LN_CFG_EN then
          settleP h b (leDisable h b (endAllEntries h b St.LINE_DISABLED (lnCfgCleared h b s)))
        else lnCfgCleared h b s := by
  have clear := lnCfgCleared_en (h := h) s hb
  have same : writeLnCfg h b (setBits (s.reg (bayKey h b + Reg.LN_CFG)) 0 0 0) s
      = if (lnCfgCleared h b s).flag (bayKey h b) Reg.LN_CFG_EN && !s.flag (bayKey h b) Reg.LN_CFG_EN then
          leTryStart h b (lnCfgCleared h b s)
        else if s.flag (bayKey h b) Reg.LN_CFG_EN && !(lnCfgCleared h b s).flag (bayKey h b) Reg.LN_CFG_EN then
          settleP h b (leDisable h b (endAllEntries h b St.LINE_DISABLED (lnCfgCleared h b s)))
        else lnCfgCleared h b s := rfl
  rw [same, clear, Bool.false_and, if_neg (by decide), Bool.not_false, Bool.and_true]

end

end Sys2Proof.Machine
end

section
/-! PROOF. Trips, submissions, cancels, the disabling of a line and the reads of its receive FIFO (O15). -/

namespace Sys2Proof.Machine

section

variable {h : Half} {m : Master} {b : Fin 64} {s : State}

/-! ## Trips (R205, R206) -/

/-- The state in which the lines of a trip stop: the pad of the power slot is cut where the envelope says so. -/
def tripStart (b : Nat) (s : State) : State :=
  if s.flag (padKey b) Reg.LN_ENV_PWR_EN then cutPad (s.powerSlot b) s else s

/-- A trip, and what entry P's end brings. -/
def tripped (volts : Bool) (b : Nat) (s : State) : State := (lineTrip volts b s).onCopies fun h s => settleP h b s

theorem lineTrip_eq (volts : Bool) (b : Nat) (s : State) :
    lineTrip volts b s = syncLinePath b ((tripStart b s).onCopies fun h s => lineTripCopy h volts b s) := rfl

theorem powerSlot_lt (b : Fin 64) (s : State) : s.powerSlot b.val < 1024 := by
  have low : s.get (padKey b.val) Reg.LN_ENV_PWR_SLOT < 16 := bits_lt _ 3 0
  unfold State.powerSlot
  omega

theorem tripStart_bare (b : Fin 64) (s : State) : ∃ p, (tripStart b.val s).bare = { s.bare with pads := p } := by
  unfold tripStart
  split
  · exact cutPad_bare (powerSlot_lt b s) s
  · exact ⟨s.pads, rfl⟩

theorem tripStart_computes (b : Fin 64) (s : State) (x : Half) : (tripStart b.val s).computes x = s.computes x := by
  obtain ⟨p, bare⟩ := tripStart_bare b s
  cases x with
  | A => exact (congrArg (fun u : State => !u.halfA.inReset) bare :)
  | B => exact (congrArg (fun u : State => !u.halfB.inReset) bare :)

theorem tripStart_lineBlanked (b : Fin 64) (s : State) : (tripStart b.val s).lineBlanked = s.lineBlanked := by
  obtain ⟨p, bare⟩ := tripStart_bare b s
  exact (congrArg State.lineBlanked bare :)

/-- From there on a trip shows in lines, engines and their log registers alone. -/
theorem apartLines_tripped (volts : Bool) (b : Fin 64) (s : State) :
    (tripped volts b.val s).apartLines (ofBays unlockLogs) Set.univ
      = (tripStart b.val s).apartLines (ofBays unlockLogs) Set.univ := by
  have stat (g : Half) := mem_ofBays g b.isLt (os := unlockLogs) List.mem_cons_self
  have logs (g : Half) (o : Nat) (ho : o ∈ lineLogs) := mem_ofBays g b.isLt (os := unlockLogs) (List.mem_cons_of_mem _ ho)
  unfold tripped
  rw [apartLines_onCopies _ fun g v => apartLines_settleP v (logs g) (Set.mem_univ _), lineTrip_eq,
    apartLines_syncLinePath,
    apartLines_onCopies _ fun g v => apartLines_lineTripCopy v (stat g) (logs g) (Set.mem_univ _) volts]

theorem tripped_stops (volts : Bool) (runs : s.computes h = true) :
    LineStopped h b.val (tripFld volts) (tripped volts b.val s) := by
  have stops := lineTrip_stops b.isLt volts (s := tripStart b.val s) ((tripStart_computes b s h).trans runs)
  refine onCopies_keeps (R := LineStopped h b.val (tripFld volts)) ?_ fun g v stops => stops.settleP b.isLt volts g
  rw [lineTrip_eq]
  exact stops.elsewhere b.isLt volts (.of_apartLines (apartLines_syncLinePath _))

theorem exec_lineTrip {volts : Bool} (acts : (volts || !s.lineBlanked.getLsbD b.val || s.blankOver b.val) = true) :
    exec (.lineTrip b volts) s = .next (tripped volts b.val s) := by
  show execLineTrip b volts s = _
  rw [execLineTrip, if_pos acts]
  rfl

theorem lineTrip_volts_gives (runs : s.computes h = true) :
    Gives (.lineTrip b true) s (fun t =>
      t.flag (bayKey h b.val) Reg.LN_STAT_VTRIP = true ∧ (t.line h b.val).attempt = none
        ∧ (t.engine h b.val).sym = none) :=
  .intro (exec_lineTrip (by rw [Bool.true_or, Bool.true_or])) (tripped_stops true runs)

theorem lineTrip_amps_gives {n : Nat} (runs : s.computes h = true) (seen : s.lineBlanked.getLsbD b.val = false)
    (enabled : s.flag (padKey b.val) Reg.LN_ENV_PWR_EN = true) (slot : s.powerSlot b.val = n) :
    Gives (.lineTrip b false) s (fun t =>
      t.flag (bayKey h b.val) Reg.LN_STAT_ITRIP = true ∧ t.flag (termKey h n) Reg.TS_STAT_TRIP = true
        ∧ (t.pad n).cut = true ∧ (t.pad n).level ≠ .on) := by
  have hn : n < 1024 := slot ▸ powerSlot_lt b s
  obtain ⟨trip, cut, level⟩ := cutPad_gives hn runs
  have start : tripStart b.val s = cutPad n s := by rw [tripStart, if_pos enabled, slot]
  have kept := apartLines_tripped false b s
  rw [start] at kept
  refine .intro (exec_lineTrip (by rw [seen]; rfl)) ⟨(tripped_stops false runs).1, ?_, ?_, ?_⟩
  · have apart : termKey h n + Reg.TS_STAT ∉ ofBays unlockLogs := by
      have := bay_not_mem_ofBays h (b := n / 16) (o := 0x80 + 16 * (n % 16) + Reg.TS_STAT) (os := unlockLogs) (by omega)
        (by unfold Reg.TS_STAT; omega) (by decide) (fun m => by
          have : ∀ p ∈ unlockLogs, 0x180 ≤ p := by decide
          have := this _ m
          unfold Reg.TS_STAT at this
          omega)
      rwa [← Nat.add_assoc, ← Nat.add_assoc] at this
    rw [flag_of_apartLines kept apart (term_not_mem_logKeys h hn (by decide)), trip]
  · rw [pad_of_apartLines kept, cut]
  · rw [pad_of_apartLines kept]
    exact level

theorem lineTrip_blanked (blanked : s.lineBlanked.getLsbD b.val = true) (early : s.blankOver b.val = false) :
    exec (.lineTrip b false) s = .next s := by
  show execLineTrip b false s = _
  rw [execLineTrip, blanked, early]
  rfl

theorem lineBlankEnd_above_gives (runs : s.computes h = true) (blanked : s.lineBlanked.getLsbD b.val = true)
    (past : s.blankOver b.val = true) :
    Gives (.lineBlankEnd b true) s (fun t =>
      t.lineBlanked.getLsbD b.val = false ∧ t.flag (bayKey h b.val) Reg.LN_STAT_ITRIP = true) := by
  set u : State := { s with lineBlanked := s.lineBlanked &&& ~~~(BitVec.twoPow 64 b.val) } with hu
  have still : u.computes h = true := by cases h <;> exact runs
  have ends : exec (.lineBlankEnd b true) s = .next (tripped false b.val u) := by
    show execLineBlankEnd b true s = _
    rw [execLineBlankEnd, blanked, past]
    rfl
  have kept : (tripped false b.val u).lineBlanked = u.lineBlanked :=
    (congrArg State.lineBlanked (rest_of_apartLines (apartLines_tripped false b u)) :).trans (tripStart_lineBlanked b u)
  refine .intro ends ⟨?_, (tripped_stops false still).1⟩
  rw [kept, hu]
  simp

theorem lineBlankEnd_below (blanked : s.lineBlanked.getLsbD b.val = true) (past : s.blankOver b.val = true) :
    exec (.lineBlankEnd b false) s = .next { s with lineBlanked := s.lineBlanked &&& ~~~(BitVec.twoPow 64 b.val) } := by
  show execLineBlankEnd b false s = _
  rw [execLineBlankEnd, blanked, past]
  rfl

theorem lineTripClear_gives (volts amps : Bool) (runs : s.computes h = true) (ok : s.bayWriteOk m b.val = true) :
    Gives (.lineTripClear m b volts amps) s (fun t =>
      t.flag (bayKey h b.val) Reg.LN_STAT_VTRIP = (s.flag (bayKey h b.val) Reg.LN_STAT_VTRIP && !volts)
        ∧ t.flag (bayKey h b.val) Reg.LN_STAT_ITRIP = (s.flag (bayKey h b.val) Reg.LN_STAT_ITRIP && !amps)) := by
  set w : Word := BitVec.ofNat 20 (bit volts 1 + bit amps 2) with hw
  obtain ⟨v, before, after⟩ := lineWrite_lineElsewhere (f := fun g v => v.plainWrite (bayKey g b.val + Reg.LN_STAT) w)
    Reg.LN_STAT ok runs (plainWrite_actsOnLine b.isLt (by decide) fun _ _ => w)
  have cleared {f : Fld} (stat : f.addr = Reg.LN_STAT) (alone : f.hi = f.lo) (low : f.lo < 20)
      (unstored : Nat.testBit 0 f.lo = false) (w1c : Nat.testBit 0xFFE f.lo = true) :
      (lineWrite m b.val Reg.LN_STAT (fun g v => v.plainWrite (bayKey g b.val + Reg.LN_STAT) w) s).flag
        (bayKey h b.val) f = (s.flag (bayKey h b.val) f && !w.getLsbD f.lo) := by
    rw [after.flag b.isLt (by rw [stat]; decide) (by rw [stat]; decide), flag_eq_getLsbD _ _ alone, stat,
      getLsbD_plainWrite (lnStat_row h b.isLt) w low, unstored, w1c, Bool.and_true, if_neg (by decide),
      ← before.flag b.isLt (by rw [stat]; decide) (by rw [stat]; decide), flag_eq_getLsbD _ _ alone, stat]
  refine .intro (t := lineWrite m b.val Reg.LN_STAT (fun g v => v.plainWrite (bayKey g b.val + Reg.LN_STAT) w) s) rfl
    ⟨(cleared rfl rfl (by decide) (by decide) (by decide)).trans ?_, (cleared rfl rfl (by decide) (by decide) (by decide)).trans ?_⟩
  · rw [hw, show (BitVec.ofNat 20 (bit volts 1 + bit amps 2)).getLsbD 1 = volts by cases volts <;> cases amps <;> rfl]
  · rw [hw, show (BitVec.ofNat 20 (bit volts 1 + bit amps 2)).getLsbD 2 = amps by cases volts <;> cases amps <;> rfl]

/-! ## Deferrals (R213) -/

/-- The frame at its turn, where it has been deferred beyond a bound. -/
def expireDefer (b : Nat) (h : Half) (s : State) : State :=
  match s.leTurn h b with
  | some e =>
    if 40000 < ((s.line h b).entry e).settle ∨ 500000 < ((s.line h b).entry e).cal then
      settleP h b (endEntry h b e St.LINE_NOLOCK s)
    else s
  | none => s

theorem expireDefer_actsOnLine (b : Fin 64) : ActsOnLine (expireDefer b.val) := by
  intro g v
  unfold expireDefer
  split
  · split
    · rw [settleP_actsOnLine b.isLt, endEntry_actsOnLine b.isLt]
    · rfl
  · rfl

theorem flag_endEntry_nolock (h : Half) {b : Nat} (hb : b < 64) (e : Nat) (v : State) :
    (endEntry h b e St.LINE_NOLOCK v).flag (bayKey h b) Reg.LN_STAT_NOLOCK = true := by
  rw [endEntry_eq, logEnd, if_pos rfl]
  exact keepsStat_raiseBayEvent h b .lineTx h b _ _ hb rfl rfl (flag_setLineStat hb rfl (by decide) rfl)

theorem lineDeferExpiry_gives {e : Nat} (runs : s.computes h = true) (turn : s.leTurn h b.val = some e)
    (late : 40000 < ((s.line h b.val).entry e).settle ∨ 500000 < ((s.line h b.val).entry e).cal) :
    Gives (.lineDeferExpiry b) s (fun t =>
      ((t.line h b.val).entry e).busy = false ∧ ((t.line h b.val).entry e).status = St.LINE_NOLOCK
        ∧ t.flag (bayKey h b.val) Reg.LN_STAT_NOLOCK = true) := by
  obtain ⟨v, before, after⟩ := onCopies_lineElsewhere runs (expireDefer_actsOnLine b)
  have expires : exec (.lineDeferExpiry b) s = .next (s.onCopies (expireDefer b.val)) := rfl
  have ended : expireDefer b.val h v = settleP h b.val (endEntry h b.val e St.LINE_NOLOCK v) := by
    unfold expireDefer
    rw [before.leTurn b.isLt, turn]
    dsimp only
    rw [before.line b.isLt, if_pos late]
  rw [ended] at after
  have entry : ((s.onCopies (expireDefer b.val)).line h b.val).entry e
      = { (v.line h b.val).entry e with busy := false, done := true, status := St.LINE_NOLOCK } := by
    rw [after.line b.isLt, entry_settleP, line_endEntry, Line.entry_ended]
  refine .intro expires ⟨by rw [entry], by rw [entry], ?_⟩
  rw [after.flag b.isLt (by decide) (by decide)]
  refine keepsStat_settleP h b.isLt h b.val _ _ b.isLt rfl rfl ?_
  exact flag_endEntry_nolock h b.isLt e v

/-! ## Buffers and submissions (R229, R240) -/

theorem transmitBufferWrite_gives {value : Word} {a : Nat} (runs : s.computes h = true) (ok : s.bayWriteOk m b.val = true)
    (at_ : a = s.get (bayKey h b.val) Reg.LN_TXA_ADDR) (idle : ((s.line h b.val).entry (a / 32)).busy = false) :
    Gives (.transmitBufferWrite m b value) s (fun t =>
      (t.line h b.val).byte (a / 32) (2 * (a % 32)) = BitVec.ofNat 8 (bits value 15 8)
        ∧ (t.line h b.val).byte (a / 32) (2 * (a % 32) + 1) = BitVec.ofNat 8 (bits value 7 0)
        ∧ t.get (bayKey h b.val) Reg.LN_TXA_ADDR = (a + 1) % 256) := by
  obtain ⟨v, before, after⟩ := lineWrite_lineElsewhere (f := fun g v => writeTxData g b.val value v) Reg.LN_TXD ok runs
    (writeTxData_actsOnLine b.isLt value)
  have addr : v.get (bayKey h b.val) Reg.LN_TXA_ADDR = a := by rw [before.get b.isLt (by decide) (by decide), at_]
  rw [← before.line b.isLt] at idle
  have written : writeTxData h b.val value v = (v.setLine h b.val { v.line h b.val with
      buf := tblSet (tblSet (v.line h b.val).buf 0 (64 * (a / 32) + 2 * (a % 32)) (BitVec.ofNat 8 (bits value 15 8))) 0
        (64 * (a / 32) + 2 * (a % 32) + 1) (BitVec.ofNat 8 (bits value 7 0)) }).put
        (bayKey h b.val) Reg.LN_TXA_ADDR ((a + 1) % 256) := by
    unfold writeTxData
    dsimp only
    rw [addr, if_neg (by rw [idle]; decide)]
  rw [written] at after
  have line : (lineWrite m b.val Reg.LN_TXD (fun g v => writeTxData g b.val value v) s).line h b.val = { v.line h b.val with
      buf := tblSet (tblSet (v.line h b.val).buf 0 (64 * (a / 32) + 2 * (a % 32)) (BitVec.ofNat 8 (bits value 15 8))) 0
        (64 * (a / 32) + 2 * (a % 32) + 1) (BitVec.ofNat 8 (bits value 7 0)) } := by
    rw [after.line b.isLt, State.line, State.put_lines]
    exact State.line_setLine _ _ _ _
  refine .intro (t := lineWrite m b.val Reg.LN_TXD (fun g v => writeTxData g b.val value v) s) rfl ⟨?_, ?_, ?_⟩
  · rw [Line.byte, line, tblGet_tblSet_other _ _ _ (by omega), tblGet_tblSet_same]
  · rw [Line.byte, line, ← Nat.add_assoc, tblGet_tblSet_same]
  · rw [after.get b.isLt (by decide) (by decide), State.get_put _ _ _ _ (by decide) (by decide)]
    exact Nat.mod_mod _ _

theorem transmitBufferWrite_busy {value : Word} (runs : s.computes h = true) (ok : s.bayWriteOk m b.val = true)
    (busy : ((s.line h b.val).entry (s.get (bayKey h b.val) Reg.LN_TXA_ADDR / 32)).busy = true) :
    Gives (.transmitBufferWrite m b value) s (fun t =>
      t.line h b.val = s.line h b.val ∧ t.flag (bayKey h b.val) Reg.LN_STAT_BAD = true) := by
  obtain ⟨v, before, after⟩ := lineWrite_lineElsewhere (f := fun g v => writeTxData g b.val value v) Reg.LN_TXD ok runs
    (writeTxData_actsOnLine b.isLt value)
  rw [← before.line b.isLt, ← before.get b.isLt (by decide) (by decide)] at busy
  have refused : writeTxData h b.val value v = (v.put (bayKey h b.val) Reg.LN_STAT_BAD 1).put (bayKey h b.val)
      Reg.LN_TXA_ADDR ((v.get (bayKey h b.val) Reg.LN_TXA_ADDR + 1) % 256) := by
    unfold writeTxData
    dsimp only
    rw [if_pos busy]
  rw [refused] at after
  refine .intro (t := lineWrite m b.val Reg.LN_TXD (fun g v => writeTxData g b.val value v) s) rfl ⟨?_, ?_⟩
  · rw [after.line b.isLt, State.line, State.put_lines, State.put_lines]
    exact before.line b.isLt
  · rw [after.flag b.isLt (by decide) (by decide), State.flag, State.get_put_other _ _ _ _ _ _ (by simp)]
    exact flag_put_one _ _ (by decide) rfl

theorem submitStatus_lt (h : Half) (b id : Nat) (s : State) : s.submitStatus h b id < 256 := by
  unfold State.submitStatus
  dsimp only
  split_ifs <;> decide

theorem get_setLine (s : State) (h : Half) (b c : Nat) (x : Line) (f : Fld) : (s.setLine h b x).get c f = s.get c f := rfl

theorem lineSubmit_gives {id : BitVec 16} {e : Nat} (runs : s.computes h = true) (ok : s.bayWriteOk m b.val = true)
    (asked : e = s.get (bayKey h b.val) Reg.LN_TXC_ENTRY) (taken : s.submitStatus h b.val id.toNat = St.OK) :
    Gives (.lineSubmit m b id) s (fun t =>
      ((t.line h b.val).entry e).busy = true ∧ ((t.line h b.val).entry e).id = id.toNat
        ∧ ((t.line h b.val).entry e).len = s.get (bayKey h b.val) Reg.LN_TXC_LEN
        ∧ t.get (bayKey h b.val) Reg.LN_QSTAT_SUB_ST = St.OK) := by
  obtain ⟨v, before, after⟩ := lineWrite_lineElsewhere (f := fun g v => submit g b.val id.toNat v) Reg.LN_TXID ok runs
    (submit_actsOnLine b.isLt id.toNat)
  have entry : ((submit h b.val id.toNat v).line h b.val).entry e = { TxEntry.reset with
      id := id.toNat, ar := v.flag (bayKey h b.val) Reg.LN_TXC_AR, len := v.get (bayKey h b.val) Reg.LN_TXC_LEN,
      rate := v.get (bayKey h b.val) Reg.LN_TXC_RATE, retry := v.get (bayKey h b.val) Reg.LN_TXC_RETRY, busy := true,
      order := (v.line h b.val).order } := by
    unfold submit
    dsimp only
    rw [if_pos ((before.submitStatus b.isLt _).trans taken), State.line_setLine,
      before.get b.isLt (f := Reg.LN_TXC_ENTRY) (by decide) (by decide), ← asked]
    exact Line.entry_setEntry _ _ _
  have status : (submit h b.val id.toNat v).get (bayKey h b.val) Reg.LN_QSTAT_SUB_ST = St.OK := by
    have put : (v.put (bayKey h b.val) Reg.LN_QSTAT_SUB_ST St.OK).get (bayKey h b.val) Reg.LN_QSTAT_SUB_ST = St.OK :=
      State.get_put _ _ _ _ (by decide) (by decide)
    unfold submit
    dsimp only
    rw [if_pos ((before.submitStatus b.isLt _).trans taken), get_setLine, before.submitStatus b.isLt, taken]
    exact put
  refine .intro (t := lineWrite m b.val Reg.LN_TXID (fun g v => submit g b.val id.toNat v) s) rfl ⟨?_, ?_, ?_, ?_⟩
  · rw [after.line b.isLt, entry]
  · rw [after.line b.isLt, entry]
  · rw [after.line b.isLt, entry]
    exact before.get b.isLt (by decide) (by decide)
  · rw [after.get b.isLt (by decide) (by decide), status]

theorem lineSubmit_refused {id : BitVec 16} (runs : s.computes h = true) (ok : s.bayWriteOk m b.val = true)
    (refused : s.submitStatus h b.val id.toNat ≠ St.OK) :
    Gives (.lineSubmit m b id) s (fun t =>
      t.line h b.val = s.line h b.val
        ∧ t.get (bayKey h b.val) Reg.LN_QSTAT_SUB_ST = s.submitStatus h b.val id.toNat) := by
  obtain ⟨v, before, after⟩ := lineWrite_lineElsewhere (f := fun g v => submit g b.val id.toNat v) Reg.LN_TXID ok runs
    (submit_actsOnLine b.isLt id.toNat)
  have outcome : submit h b.val id.toNat v
      = v.put (bayKey h b.val) Reg.LN_QSTAT_SUB_ST (s.submitStatus h b.val id.toNat) := by
    unfold submit
    dsimp only
    rw [before.submitStatus b.isLt, if_neg refused]
  rw [outcome] at after
  refine .intro (t := lineWrite m b.val Reg.LN_TXID (fun g v => submit g b.val id.toNat v) s) rfl ⟨?_, ?_⟩
  · rw [after.line b.isLt, State.line, State.put_lines]
    exact before.line b.isLt
  · rw [after.get b.isLt (by decide) (by decide), State.get_put _ _ _ _ (by decide) (by decide)]
    exact Nat.mod_eq_of_lt (submitStatus_lt _ _ _ _)

theorem lineCancel_gives {mask : BitVec 8} {e : Nat} (runs : s.computes h = true) (ok : s.bayWriteOk m b.val = true)
    (asked : mask.getLsbD e = true) (busy : ((s.line h b.val).entry e).busy = true) :
    Gives (.lineCancel m b mask) s (fun t =>
      if (s.line h b.val).attempt = some e ∧ (s.line h b.val).sof = true then
        ((t.line h b.val).entry e).cpend = true ∧ ((t.line h b.val).entry e).busy = true
      else ((t.line h b.val).entry e).busy = false ∧ ((t.line h b.val).entry e).done = true
        ∧ ((t.line h b.val).entry e).status = St.LINE_CANCELLED) := by
  obtain ⟨v, before, after⟩ := lineWrite_lineElsewhere (f := fun g v => cancelMask g b.val mask.toNat v) Reg.LN_CANCEL ok
    runs (cancelMask_actsOnLine b.isLt mask.toNat)
  have cancelled := cancelMask_gives (h := h) (b := b.val) (s := v) (BitVec.lt_of_getLsbD asked)
    ((BitVec.testBit_toNat mask).trans asked) (by rw [before.line b.isLt, busy])
  rw [before.line b.isLt, ← after.line b.isLt] at cancelled
  exact .intro (t := lineWrite m b.val Reg.LN_CANCEL (fun g v => cancelMask g b.val mask.toNat v) s) rfl cancelled

/-! ## The disabling of a line (R231) -/

/-- A write of LN_CFG that clears EN, in one copy. -/
def clearEn (b : Nat) (h : Half) (s : State) : State :=
  writeLnCfg h b (setBits (s.reg (bayKey h b + Reg.LN_CFG)) 0 0 0) s

theorem lnCfgCleared_actsOnLine (b : Fin 64) : ActsOnLine fun g v => lnCfgCleared g b.val v := by
  intro g v
  have cfg := bay_mem_copyKeys g b.isLt (o := Reg.LN_CFG) (by decide)
  unfold lnCfgCleared
  dsimp only
  split
  · rw [apartLines_put _ (bay_mem_copyKeys g b.isLt (by decide)), apartLines_plainWrite cfg]
  · exact apartLines_plainWrite cfg _ v

theorem clearEn_actsOnLine (b : Fin 64) : ActsOnLine (clearEn b.val) := by
  intro g v
  have stat := bay_mem_copyKeys g b.isLt (o := Reg.LN_STAT) (by decide)
  have logs := logs_copyKeys g b.isLt
  have own := line_mem_copyLines g b.isLt
  rw [clearEn, writeLnCfg_clear v b.isLt]
  split
  · rw [apartLines_settleP _ logs own, apartLines_leDisable _ logs own, apartLines_endAllEntries _ stat logs own,
      lnCfgCleared_actsOnLine b]
  · exact lnCfgCleared_actsOnLine b g v

theorem lines_lnCfgCleared (h : Half) (b : Nat) (s : State) : (lnCfgCleared h b s).lines = s.lines := by
  have written (k : Nat) (w : Word) : (s.plainWrite k w).lines = s.lines := by
    unfold State.plainWrite
    split
    · exact State.setReg_lines _ _ _
    · rfl
  unfold lnCfgCleared
  dsimp only
  split
  · rw [State.put_lines, written]
  · exact written _ _

theorem clearEn_gives {v : State} (enabled : v.flag (bayKey h b.val) Reg.LN_CFG_EN = true) :
    (clearEn b.val h v).flag (bayKey h b.val) Reg.LN_CFG_EN = false
      ∧ ((clearEn b.val h v).engine h b.val).mode = .stopped
      ∧ ∀ e < 8, ((v.line h b.val).entry e).busy = true → (((clearEn b.val h v).line h b.val).entry e).busy = false
        ∧ (((clearEn b.val h v).line h b.val).entry e).status = St.LINE_DISABLED := by
  have stat := mem_ofBays h b.isLt (os := unlockLogs) List.mem_cons_self
  have logs (o : Nat) (ho : o ∈ lineLogs) := mem_ofBays h b.isLt (os := unlockLogs) (List.mem_cons_of_mem _ ho)
  rw [clearEn, writeLnCfg_clear v b.isLt, if_pos enabled]
  set u := lnCfgCleared h b.val v with hu
  set w := endAllEntries h b.val St.LINE_DISABLED u with hw
  have kept : (settleP h b.val (leDisable h b.val w)).apartLines (ofBays unlockLogs) Set.univ
      = u.apartLines (ofBays unlockLogs) Set.univ := by
    rw [apartLines_settleP _ logs (Set.mem_univ _), apartLines_leDisable _ logs (Set.mem_univ _), hw,
      apartLines_endAllEntries _ stat logs (Set.mem_univ _)]
  refine ⟨?_, ?_, fun e low busy => ?_⟩
  · rw [flag_of_apartLines kept (bay_not_mem_ofBays h b.isLt (by decide) (by decide) (by decide))
      (bay_not_mem_logKeys h b.isLt (by decide) (by decide))]
    exact lnCfgCleared_en v b.isLt
  · rw [engine_settleP]
    exact leDisable_mode w
  · have line : (leDisable h b.val w).line h b.val = w.line h b.val := by rw [State.line, lines_leDisable, State.line]
    have start : u.line h b.val = v.line h b.val := by rw [State.line, hu, lines_lnCfgCleared, State.line]
    have ended : ((w.line h b.val).entry e).busy = false ∧ ((w.line h b.val).entry e).status = St.LINE_DISABLED :=
      endAllEntries_gives St.LINE_DISABLED (by omega) (by rw [start, busy])
    rw [entry_settleP, line]
    exact ended

/-- A synthesiser that follows its lines starts or stops none of their engines and ends none of their entries. -/
theorem synthRun_kept {j : Nat} (hj : j < 8) (s : State) : BayRegsKept s (synthRun j s) ∧ LinesRun s (synthRun j s) := by
  have synth (v : State) (x : Synth) : BayRegsKept v (v.setSynth j x) ∧ LinesRun v (v.setSynth j x) :=
    ⟨.of_regs (State.setSynth_regs _ _ _), .of_eq (State.setSynth_lines _ _ _) (State.setSynth_engines _ _ _)⟩
  unfold synthRun
  dsimp only
  split_ifs
  · exact synth s _
  · exact synth s _
  · exact ⟨.refl s, .refl s⟩
  · exact ⟨(tuneStaged_kept hj s).trans (synth _ _).1, (linesRun_tuneStaged s).trans (synth _ _).2⟩

theorem lineDisable_gives (runs : s.computes h = true) (ok : s.bayWriteOk m b.val = true)
    (enabled : s.flag (bayKey h b.val) Reg.LN_CFG_EN = true) :
    Gives (.lineDisable m b) s (fun t =>
      t.flag (bayKey h b.val) Reg.LN_CFG_EN = false ∧ (t.engine h b.val).mode = .stopped
        ∧ (∀ e : Nat, e < 8 → ((s.line h b.val).entry e).busy = true →
            ((t.line h b.val).entry e).busy = false ∧ ((t.line h b.val).entry e).status = St.LINE_DISABLED)) := by
  obtain ⟨v, before, after⟩ := lineWrite_lineElsewhere (m := m) Reg.LN_CFG ok runs (clearEn_actsOnLine b)
  set u := lineWrite m b.val Reg.LN_CFG (clearEn b.val) s with hu
  obtain ⟨regs, lines⟩ := synthRun_kept (j := b.val / 8) (by omega) u
  obtain ⟨en, mode, entries⟩ := clearEn_gives (h := h) (b := b) (v := v)
    (by rw [before.flag b.isLt (by decide) (by decide), enabled])
  have disables : exec (.lineDisable m b) s = .next (synthRun (b.val / 8) u) := rfl
  refine .intro disables ⟨?_, ?_, fun e low busy => ?_⟩
  · rw [regs.flag b.isLt (by decide) (by decide) (by decide), after.flag b.isLt (by decide) (by decide), en]
  · rw [lines.2, after.engine b.isLt, mode]
  · rw [State.line, lines.1, ← State.line, after.line b.isLt]
    exact entries e low (by rw [before.line b.isLt, busy])

/-! ## The receive FIFO (R235, R243) -/

theorem receivePop_gives (runs : s.computes h = true) (ok : s.bayWriteOk m b.val = true) :
    Gives (.receivePop m b) s (fun t => (t.line h b.val).fifo = (s.line h b.val).fifo.drop 1) := by
  obtain ⟨v, before, after⟩ := lineWrite_lineElsewhere (m := m) (f := fun g v => popRx g b.val v) Reg.LN_RXPOP ok runs
    (setLine_actsOnLine b.isLt fun g v => { v.line g b.val with fifo := (v.line g b.val).fifo.drop 1 })
  refine .intro (t := lineWrite m b.val Reg.LN_RXPOP (fun g v => popRx g b.val v) s) rfl ?_
  rw [after.line b.isLt, popRx, State.line_setLine, before.line b.isLt]

theorem receiveDataRead_gives (runs : s.computes h = true) (ok : s.bayWriteOk m b.val = true) :
    Gives (.receiveDataRead m b) s (fun t =>
      t.get (bayKey h b.val) Reg.LN_RXA_ADDR = (s.get (bayKey h b.val) Reg.LN_RXA_ADDR + 1) % 32
        ∧ t = { s with regs := t.regs }) := by
  obtain ⟨v, before, after⟩ := onCopies_lineElsewhere runs (advanceRx_actsOnLine b.isLt)
  have reads : exec (.receiveDataRead m b) s = .next (s.onCopies fun g v => advanceRx g b.val v) := by
    show execReceiveDataRead m b s = _
    rw [execReceiveDataRead, State.bayRead, if_pos ok]
  obtain ⟨r, only⟩ : ∃ r, (s.onCopies fun g v => advanceRx g b.val v) = { s with regs := r } := by
    refine onCopies_keeps (R := fun v => ∃ r, v = { s with regs := r }) ⟨s.regs, rfl⟩ ?_
    rintro g _ ⟨r, rfl⟩
    exact ⟨_, rfl⟩
  refine .intro reads ⟨?_, by rw [only]⟩
  rw [after.get b.isLt (by decide) (by decide), advanceRx, State.get_put _ _ _ _ (by decide) (by decide),
    before.get b.isLt (by decide) (by decide)]
  exact Nat.mod_mod _ _

end

/-! ## The obligation -/

/-- Settles O15: a command acts on one copy of a line at a time and leaves the other's alone; a bit of LN_STAT that it sets
no end of an entry clears; of its mask a cancel takes every entry by itself; a synthesiser that stops with its last line
touches neither entries nor the engine's mode. -/
theorem lineTripsAndQueueTakeEffect : Obligations.LineTripsAndQueueTakeEffect :=
  ⟨fun _ _ _ runs => lineTrip_volts_gives runs,
    fun _ _ _ _ runs seen enabled slot => lineTrip_amps_gives runs seen enabled slot,
    fun _ _ blanked early => lineTrip_blanked blanked early,
    fun _ _ _ runs blanked past => lineBlankEnd_above_gives runs blanked past,
    fun _ _ blanked past => lineBlankEnd_below blanked past,
    fun _ _ _ volts amps _ runs ok => lineTripClear_gives volts amps runs ok,
    fun _ _ _ _ runs turn _ late => lineDeferExpiry_gives runs turn late,
    fun _ _ _ _ _ _ runs ok addr idle => transmitBufferWrite_gives runs ok addr idle,
    fun _ _ _ _ _ runs ok busy => transmitBufferWrite_busy runs ok busy,
    fun _ _ _ _ _ _ runs ok asked taken => lineSubmit_gives runs ok asked taken,
    fun _ _ _ _ _ runs ok refused => lineSubmit_refused runs ok refused,
    fun _ _ _ _ _ _ runs ok asked busy => lineCancel_gives runs ok asked busy,
    fun _ _ _ _ runs ok enabled => lineDisable_gives runs ok enabled,
    fun _ _ _ _ runs ok => receivePop_gives runs ok,
    fun _ _ _ _ runs ok => receiveDataRead_gives runs ok⟩

end Sys2Proof.Machine
end

section
/-! PROOF. What writes of the program do (O20): a refused write where the other copy's engine stands otherwise. -/

namespace Sys2Proof.Machine

/-- Both halves compute, each with its own copy of bay 0's engine: in half A it runs from bank A, which LE_PA addresses there;
in half B it is stopped, and LE_PA there addresses bank B. -/
def partedEngines : State :=
  let s := State.reset
  ({ s with halfA := { s.halfA with inReset := false }, halfB := { s.halfB with inReset := false } }.setEngine .A 0
    { Engine.reset with mode := .active }).put (bayKey .B 0) Reg.LE_PA_BANK 1

/-- The state after a write of the high word 1 to LE_PD by port 0, whose writes the seat holder executes. -/
def afterPartedWrite : State :=
  lineWrite (.port 0) 0 Reg.LE_PD_HI (fun h s => leCommitWord h 0 none 1 s)
    (partedEngines.unstage (.port 0) (0x10000 + Reg.LE_PD_LO))

theorem exec_partedWrite : exec (.programWordWrite (.port 0) 0 1) partedEngines = .next afterPartedWrite := rfl

/-- Half A's copy refuses the word; half B's commits it to the bank that is not active there. -/
theorem progs_afterPartedWrite : afterPartedWrite.progs ≠ partedEngines.progs := by decide +kernel

/-- Refutes O20, by its last clause: the hypotheses are about one copy's engine, and the conclusion is that no program word
changes in either copy. In `partedEngines` the write is refused in half A's copy and committed in half B's. -/
theorem not_engineControlTakesEffect : ¬ Obligations.EngineControlTakesEffect := by
  rintro ⟨-, -, -, -, -, -, -, -, -, -, -, refused⟩
  obtain ⟨kept, -⟩ := (refused .A (.port 0) 0 1 partedEngines (by decide +kernel) rfl (by decide +kernel)
    (by decide +kernel)).of_next exec_partedWrite
  exact progs_afterPartedWrite kept

end Sys2Proof.Machine
end


section
/-! SUPPORT. What a line engine at work leaves alone (R248 to R281): a view of the state in which the registers of the bay's page,
its line, its engine and its signature do not show is the same after every act of the engine. -/

namespace Sys2Proof.Machine

/-- Registers of a bay's page and its engine, in one copy, do not show in a view. -/
structure EngineUnseen {α : Type} (view : State → α) (h : Half) (b : Nat) : Prop where
  setReg : ∀ (s : State) {o : Nat} (w : Word), o < 0x400 → view (s.setReg (bayKey h b + o) w) = view s
  setEngine : ∀ (s : State) (x : Engine), view (s.setEngine h b x) = view s

/-- Nor do its line and its signature. -/
structure LineUnseen {α : Type} (view : State → α) (h : Half) (b : Nat) : Prop extends EngineUnseen view h b where
  setLine : ∀ (s : State) (x : Line), view (s.setLine h b x) = view s
  setMirror : ∀ (s : State) (x : Mirror), view (s.setMirror h b x) = view s

/-- A write of a register stores some word, or there is no such register. -/
theorem plainWrite_cases (s : State) (k : Nat) (w : Word) :
    s.plainWrite k w = s ∨ ∃ v, s.plainWrite k w = s.setReg k v := by
  unfold State.plainWrite
  split
  · exact .inr ⟨_, rfl⟩
  · exact .inl rfl

namespace EngineUnseen

variable {α : Type} {view : State → α} {h : Half} {b : Nat} (unseen : EngineUnseen view h b) (s : State)
include unseen

/-! ## Registers -/

theorem put {f : Fld} (low : f.addr < 0x400) (v : Nat) : view (s.put (bayKey h b) f v) = view s := unseen.setReg s _ low

theorem count {o : Nat} (low : o < 0x400) (n : Nat) : view (s.count (bayKey h b + o) n) = view s := unseen.setReg s _ low

theorem plainWrite {o : Nat} (low : o < 0x400) (w : Word) : view (s.plainWrite (bayKey h b + o) w) = view s := by
  obtain same | ⟨v, same⟩ := plainWrite_cases s (bayKey h b + o) w
  · rw [same]
  · rw [same]
    exact unseen.setReg s v low

theorem countLine {k : Nat} (low : k < 8) : view (countLine h b k s) = view s := by
  rw [Machine.countLine, Nat.add_assoc]
  exact unseen.count s (by unfold Reg.LN_CNT; omega) 1

/-! ## The engine goes on -/

theorem leUp (f : Engine → Engine) : view (leUp h b f s) = view s := unseen.setEngine s _

theorem leGo (pc : Nat) : view (leGo h b pc s) = view s := unseen.setEngine s _

theorem leNext : view (leNext h b s) = view s := unseen.leGo s _

/-- The effect of most instructions: a change of the engine, which goes on. -/
theorem leNext_leUp (f : Engine → Engine) : view (Machine.leNext h b (Machine.leUp h b f s)) = view s :=
  (unseen.leNext _).trans (unseen.leUp s f)

theorem setOutput (sym : Option Bool) (mod : Nat) (raw : Bool) : view (setOutput h b sym mod raw s) = view s :=
  unseen.setEngine s _

theorem applyLe : view (applyLe h b s) = view s := (unseen.setEngine _ _).trans (unseen.setEngine s _)

theorem loseAssembly : view (loseAssembly h b s) = view s := by
  unfold Machine.loseAssembly
  dsimp only
  split
  · split
    · rfl
    · rw [unseen.countLine _ (by decide), unseen.setEngine]
  · rfl

theorem leDropAssembly : view (leDropAssembly h b s) = view s := (unseen.setEngine _ _).trans (unseen.loseAssembly s)

theorem loseFrame : view (loseFrame h b s) = view s := by
  have lost : view (if (s.engine h b).assembly.isSome then Machine.loseAssembly h b s
      else if (s.engine h b).hears = some false then Machine.countLine h b cntRxFmt s else s) = view s := by
    split_ifs
    · exact unseen.loseAssembly s
    · exact unseen.countLine s (by decide)
    · rfl
  unfold Machine.loseFrame
  dsimp only
  rw [← lost]
  generalize (if (s.engine h b).assembly.isSome then Machine.loseAssembly h b s
    else if (s.engine h b).hears = some false then Machine.countLine h b cntRxFmt s else s) = v
  split
  · exact unseen.setEngine v _
  · rfl

/-! ## Starts, stops and swaps (R248, R261 to R266) -/

theorem leClear : view (leClear h b s) = view s := unseen.setEngine s _

theorem leTryStart : view (leTryStart h b s) = view s := by
  unfold Machine.leTryStart
  split
  · exact (unseen.leClear _).trans (unseen.applyLe s)
  · rfl

theorem leSwapBank : view (leSwapBank h b s) = view s := by
  unfold Machine.leSwapBank
  dsimp only
  rw [unseen.count _ (by decide), unseen.put _ (by decide), unseen.setEngine]

theorem leTakeSwap : view (leTakeSwap h b s) = view s := by
  unfold Machine.leTakeSwap
  split
  · exact unseen.leSwapBank s
  · rfl

theorem leHaltAll : view (leHaltAll h b s) = view s := (unseen.setEngine _ _).trans (unseen.setOutput s _ _ _)

theorem leResume : view (leResume h b s) = view s := by
  unfold Machine.leResume
  dsimp only
  split
  · exact unseen.setEngine s _
  · rfl

theorem leAskSwap (restart force : Bool) : view (leAskSwap h b restart force s) = view s := by
  unfold Machine.leAskSwap
  dsimp only
  split
  · exact (unseen.put _ (by decide) _).trans (unseen.setEngine s _)
  · have asked (x : Engine) : view ((s.setEngine h b x).put (bayKey h b) Reg.LE_SWST_STATUS St.OK) = view s :=
      (unseen.put _ (by decide) _).trans (unseen.setEngine s _)
    split
    · exact (unseen.leSwapBank _).trans (asked _)
    · exact (unseen.leSwapBank _).trans (asked _)
    · exact asked _

theorem leSwapKeep : view (leSwapKeep h b s) = view s := by
  unfold Machine.leSwapKeep
  dsimp only
  split
  · exact (unseen.setEngine _ _).trans (unseen.leSwapBank s)
  · exact unseen.leSwapBank s

theorem leSwapNow : view (leSwapNow h b s) = view s := by
  unfold Machine.leSwapNow
  dsimp only
  split
  · split
    · exact (unseen.leClear _).trans ((unseen.applyLe _).trans (unseen.leSwapBank s))
    · rfl
  · split
    · exact unseen.leSwapKeep s
    · rfl
  · rfl

/-- The commit of a program word shows in the programs alone. -/
theorem leCommitWord (progs : ∀ (v : State) (p : Tbl (BitVec 32)), view { v with progs := p } = view v)
    (low : Option Word) (hi : Word) : view (leCommitWord h b low hi s) = view s := by
  unfold Machine.leCommitWord
  dsimp only
  split
  · exact unseen.put s (by decide) _
  · exact (unseen.put _ (by decide) _).trans (progs s _)

/-! ## Microinstructions (R254 to R256, R262) -/

theorem leBr : view (leBr h b s) = view s := by
  unfold Machine.leBr
  dsimp only
  split
  · exact unseen.leGo s _
  · exact unseen.leNext s

theorem leCall : view (leCall h b s) = view s := by
  unfold Machine.leCall
  dsimp only
  split
  · split
    · exact (unseen.leGo _ _).trans (unseen.setEngine s _)
    · rfl
  · exact (unseen.leGo _ _).trans (unseen.setEngine s _)

theorem leSmp (v : Bool) : view (leSmp h b v s) = view s := by
  unfold Machine.leSmp
  dsimp only
  split
  · rfl
  · exact unseen.leNext_leUp s _

theorem leWait : view (leWait h b s) = view s := unseen.leUp s _

theorem leWaitEnd : view (leWaitEnd h b s) = view s := by
  unfold Machine.leWaitEnd
  dsimp only
  rw [apply_ite view, apply_ite view, unseen.leNext_leUp, unseen.leNext_leUp, ite_self, ite_self]

theorem leAlignStop : view (leAlignStop h b s) = view s := by
  unfold Machine.leAlignStop
  split
  · exact (unseen.leNext_leUp _ _).trans (unseen.setOutput s _ _ _)
  · rfl

theorem leAlignEdge : view (leAlignEdge h b s) = view s := unseen.leNext_leUp s _

theorem leAlignSoft : view (leAlignSoft h b s) = view s := unseen.leNext_leUp s _

theorem leLdi : view (leLdi h b s) = view s := unseen.leNext_leUp s _

theorem leAlu : view (leAlu h b s) = view s := unseen.leNext_leUp s _

theorem leDjnz : view (leDjnz h b s) = view s := by
  unfold Machine.leDjnz
  dsimp only
  split
  · exact unseen.leNext_leUp s _
  · exact (unseen.leGo _ _).trans (unseen.leUp s _)

theorem leMov : view (leMov h b s) = view s := unseen.leNext_leUp s _

theorem leCrcInit : view (leCrcInit h b s) = view s := unseen.leNext_leUp s _

theorem leCrcCheck : view (leCrcCheck h b s) = view s := unseen.leNext_leUp s _

theorem leCrcLoad : view (leCrcLoad h b s) = view s := unseen.leNext_leUp s _

theorem finOpen : view (finOpen h b s) = view s := unseen.leNext_leUp s _

theorem finBad {k : Nat} (low : k < 8) : view (finBad h b k s) = view s := by
  have closed (f : Engine → Engine) : view (Machine.leUp h b f s) = view s := unseen.leUp s f
  unfold Machine.finBad
  dsimp only
  rw [unseen.leNext]
  split
  · split
    · exact closed _
    · rw [unseen.put _ (by decide), unseen.countLine _ low, closed]
  · rw [if_neg (by decide), unseen.put _ (by decide), unseen.countLine _ low, closed]

theorem leHaltBreak : view (leHaltBreak h b s) = view s := by
  unfold Machine.leHaltBreak
  dsimp only
  split
  · exact unseen.setEngine s _
  · exact (unseen.leUp _ _).trans (unseen.leNext s)

theorem leLate : view (leLate h b s) = view s := by
  unfold Machine.leLate
  dsimp only
  split
  · split_ifs
    · exact (unseen.count _ (by decide) _).trans (unseen.setEngine s _)
    · exact (unseen.leUp _ _).trans (unseen.setOutput s _ _ _)
    · rfl
  · rfl

theorem leEdge (rise : Bool) : view (leEdge h b rise s) = view s := by
  unfold Machine.leEdge
  dsimp only
  rw [apply_ite view, apply_ite view, unseen.setEngine, unseen.setEngine, ite_self, ite_self]

end EngineUnseen

namespace LineUnseen

variable {α : Type} {view : State → α} {h : Half} {b : Nat} (unseen : LineUnseen view h b) (s : State)
include unseen

theorem noteBit (v : Bool) : view (noteBit h b v s) = view s := unseen.setMirror s _

/-- An SOF takes the amplitude and records a deferral (R204, R213). -/
theorem leSof (on : Bool) : view (leSof h b on s) = view s := by
  unfold Machine.leSof
  dsimp only
  split
  · split_ifs
    · rfl
    · exact unseen.setLine s _
    all_goals rw [unseen.put _ (by decide), unseen.put _ (by decide), unseen.put _ (by decide), unseen.setLine,
        unseen.put _ (by decide), unseen.setLine]
  · split
    · exact unseen.setLine s _
    · rfl

theorem leSym : view (leSym h b s) = view s := by
  unfold Machine.leSym
  split
  · rfl
  · dsimp only
    rw [unseen.leNext, unseen.setOutput, unseen.leUp, unseen.leSof, apply_ite view, unseen.noteBit, ite_self,
      unseen.applyLe]

theorem finDecide : view (finDecide h b s) = view s := (unseen.leNext _).trans (unseen.setLine s _)

theorem writeTxData (w : Word) : view (writeTxData h b w s) = view s := by
  unfold Machine.writeTxData
  dsimp only
  rw [unseen.put _ (by decide)]
  split
  · exact unseen.put s (by decide) _
  · exact unseen.setLine s _

theorem submit (id : Nat) : view (submit h b id s) = view s := by
  unfold Machine.submit
  dsimp only
  split
  · exact (unseen.setLine _ _).trans (unseen.put s (by decide) _)
  · exact unseen.put s (by decide) _

theorem popRx : view (popRx h b s) = view s := unseen.setLine s _

theorem advanceRx : view (advanceRx h b s) = view s := unseen.put s (by decide) _

end LineUnseen

end Sys2Proof.Machine
end


section
/-! SUPPORT. What the end of a frame and an access of the memory leave alone (R231, R257 to R259, R265, R273): beside the bay's
page, line, engine and signature its pipeline, what records and pulses reach, and what its half's budget has left. -/

namespace Sys2Proof.Machine

/-! ## A charge (R84, R87) -/

section

variable (h : Half) (s : State)

theorem setBudget_setBudget (x y : Budget) : (s.setBudget h x).setBudget h y = s.setBudget h y := by cases h <;> rfl

theorem setBudget_budget : s.setBudget h (s.budget h) = s := by cases h <;> rfl

theorem takeFromOthers_eq (place : Nat) (l : List Nat) :
    ∀ (n : Nat) (s : State), ∃ x, takeFromOthers h place l n s = s.setBudget h x := by
  induction l with
  | nil => exact fun _ s => ⟨s.budget h, (setBudget_budget h s).symm⟩
  | cons p l ih =>
    intro n s
    obtain ⟨x, hx⟩ := ih (n - min n ((s.unspent h p).toNat / 200)) (s.setBudget h
      { s.budget h with
        lent := tblSet (s.budget h).lent 0 p (tblGet (s.budget h).lent 0 p + min n ((s.unspent h p).toNat / 200))
        borrowed := tblSet (s.budget h).borrowed 0 place
          (tblGet (s.budget h).borrowed 0 place + min n ((s.unspent h p).toNat / 200)) })
    exact ⟨x, hx.trans (setBudget_setBudget h s _ x)⟩

/-- The floor's overrun is marked and pulses. -/
def markFloor (h : Half) (s : State) : State := raiseEvent evBudgetFloor (s.put (halfKey h) Reg.BG_STAT_FLOOR_OVER 1)

/-- A charge changes the half's budget, and marks an overrun of a floor. -/
theorem chargeTransfer_cases (place hold : Nat) :
    ∃ x, chargeTransfer h place hold s = s.setBudget h x ∨ chargeTransfer h place hold s = markFloor h (s.setBudget h x) := by
  unfold chargeTransfer
  split
  · exact ⟨s.budget h, .inl (setBudget_budget h s).symm⟩
  · dsimp only
    split
    · obtain ⟨x, hx⟩ := takeFromOthers_eq h place _ _ _
      refine ⟨x, .inr ?_⟩
      rw [hx, borrowGrain, setBudget_setBudget, setBudget_setBudget, markFloor]
    · exact ⟨_, .inl rfl⟩

end

/-! ## Views -/

/-- Nor do a bay's pipeline, what pulses of the event matrix and records of the bay reach, show. -/
structure FrameUnseen {α : Type} (view : State → α) (h : Half) (b : Nat) : Prop extends LineUnseen view h b where
  setPipe : ∀ (s : State) (x : BayPipe), view (s.setPipe h b x) = view s
  raiseEvents : ∀ (s : State) (ps : List Nat), view (raiseEvents ps s) = view s
  bayRecord : ∀ (s : State) (en : Fld) (rtype : Nat) (payload : List Byte), view (bayRecord h b en rtype payload s) = view s

/-- What the budget of a half has left, the mark of a floor's overrun, what pulses of the event matrix reach and the count of
free values do not show in a view. -/
structure ChargeUnseen {α : Type} (view : State → α) (h : Half) : Prop where
  setBudget : ∀ (s : State) (x : Budget), view (s.setBudget h x) = view s
  floorOver : ∀ s : State, view (s.put (halfKey h) Reg.BG_STAT_FLOOR_OVER 1) = view s
  raiseEvents : ∀ (s : State) (ps : List Nat), view (raiseEvents ps s) = view s
  freeCount : ∀ (s : State) (n : Nat), view { s with freeCount := n } = view s

theorem ChargeUnseen.chargeLine {α : Type} {view : State → α} {h : Half} (unseen : ChargeUnseen view h) (b : Nat) (s : State) :
    view (chargeLine h b s) = view s := by
  unfold Machine.chargeLine
  split
  · unfold chargeAccess
    obtain ⟨x, same | same⟩ := chargeTransfer_cases h { s with freeCount := s.freeCount + 1 } (4 * actLine)
      (Config.holdTime s.freeCount)
    · rw [same, unseen.setBudget, unseen.freeCount]
    · rw [same, markFloor, raiseEvent, unseen.raiseEvents, unseen.floorOver, unseen.setBudget, unseen.freeCount]
  · rfl

/-- Nor does what the frames and the charges of an engine reach. -/
structure BudgetUnseen {α : Type} (view : State → α) (h : Half) (b : Nat) : Prop
    extends FrameUnseen view h b, ChargeUnseen view h

theorem view_foldl {α β : Type} {view : State → α} {f : State → β → State} (acts : ∀ v x, view (f v x) = view v)
    (l : List β) (s : State) : view (l.foldl f s) = view s :=
  foldl_rel (fun s t => view t = view s) (fun _ => rfl) (fun _ _ _ first second => second.trans first) f acts l s

namespace FrameUnseen

variable {α : Type} {view : State → α} {h : Half} {b : Nat} (unseen : FrameUnseen view h b) (s : State)
include unseen

theorem raiseBayEvent (e : BayEvent) : view (raiseBayEvent h b e s) = view s := by
  unfold Machine.raiseBayEvent
  split
  · exact unseen.raiseEvents s _
  · rfl

theorem setLineStat {f : Fld} (stat : f.addr = Reg.LN_STAT) : view (setLineStat h b f s) = view s := by
  unfold Machine.setLineStat
  split
  · rfl
  · rw [unseen.bayRecord, unseen.put _ (by rw [stat]; decide)]

/-! ## Ends of entries and attempts (R231, R232) -/

theorem logEnd (st : Nat) : view (logEnd h b st s) = view s := by
  have done : view (s.put (bayKey h b) Reg.LN_STAT_TXDONE 1) = view s := unseen.put s (by decide) 1
  unfold Machine.logEnd
  dsimp only
  rw [unseen.raiseBayEvent, apply_ite view, unseen.setLineStat _ rfl, ite_self, apply_ite view,
    unseen.countLine _ (by decide), ite_self, done]

theorem endEntry (e st : Nat) : view (endEntry h b e st s) = view s := by
  rw [endEntry_eq, unseen.logEnd, unseen.setLine]

theorem failAttempt (st : Nat) : view (failAttempt h b st s) = view s := by
  unfold Machine.failAttempt
  dsimp only
  split
  · rfl
  · have counted : view (if st = St.LINE_NOACK then countLine h b cntNoAck s
        else if st = St.LINE_COLLISION then countLine h b cntColl s else s) = view s := by
      rw [apply_ite view, apply_ite view, unseen.countLine _ (by decide), unseen.countLine _ (by decide), ite_self, ite_self]
    rw [← counted]
    generalize (if st = St.LINE_NOACK then countLine h b cntNoAck s
        else if st = St.LINE_COLLISION then countLine h b cntColl s else s) = v
    split_ifs
    · exact unseen.endEntry v _ _
    · exact unseen.endEntry v _ _
    · exact unseen.setLine v _
    · exact unseen.endEntry v _ _

theorem succeedAttempt (ack : Bool) : view (succeedAttempt h b ack s) = view s := by
  unfold Machine.succeedAttempt
  dsimp only
  split
  · rfl
  · exact (unseen.endEntry _ _ _).trans (unseen.setLine s _)

theorem loseArbitration : view (loseArbitration h b s) = view s := by
  have counted (l : Line) : view (countLine h b cntArbl (s.setLine h b l)) = view s :=
    (unseen.countLine _ (by decide)).trans (unseen.setLine s l)
  unfold Machine.loseArbitration
  dsimp only
  split
  · rfl
  · split_ifs
    · exact (unseen.endEntry _ _ _).trans (counted _)
    · exact (unseen.endEntry _ _ _).trans (counted _)
    · exact counted _

theorem cancelEntry (e : Nat) : view (cancelEntry h b e s) = view s := by
  unfold Machine.cancelEntry
  dsimp only
  split_ifs
  · exact unseen.setLine s _
  · exact unseen.endEntry s _ _
  · rfl

theorem cancelMask (mask : Nat) : view (cancelMask h b mask s) = view s := by
  refine view_foldl (fun v e => ?_) _ s
  split
  · exact unseen.cancelEntry v e
  · rfl

/-! ## The pipeline takes outcomes and replies (R287 to R290, R311) -/

theorem countPl {k : Nat} (low : k < 8) (n : Nat) : view (countPl h b k n s) = view s := by
  rw [Machine.countPl, Nat.add_assoc]
  exact unseen.count s (by unfold Reg.PL_CNT; omega) n

theorem plMark {f : Fld} (low : f.addr < 0x400) : view (plMark h b f s) = view s := unseen.put s low 1

theorem pushInput (i : PInput) : view (pushInput h b i s) = view s := by
  unfold Machine.pushInput queueInput
  dsimp only
  split_ifs
  · exact unseen.setPipe s _
  · exact unseen.setPipe s _
  · exact unseen.setPipe s _
  · rw [unseen.plMark _ (by decide), unseen.countPl _ (by decide), unseen.setPipe]

theorem freeHeld : view (freeHeld h b s) = view s := by
  unfold Machine.freeHeld
  dsimp only
  rw [view_foldl fun v i => unseen.pushInput v i, unseen.setPipe]

theorem missParts (p : Poll) (cause : Nat) : view (missParts h b p cause s) = view s := by
  unfold Machine.missParts
  rw [unseen.freeHeld, view_foldl fun v q => unseen.pushInput v _]

theorem endIdent (st : Nat) : view (endIdent h b st s) = view s := by
  unfold Machine.endIdent
  rw [unseen.plMark _ (by decide), unseen.put _ (by decide), unseen.put _ (by decide), unseen.put _ (by decide)]

theorem settleP : view (settleP h b s) = view s := by
  unfold Machine.settleP
  dsimp only
  split
  · rfl
  · split
    · exact unseen.setLine s _
    · split_ifs
      · rw [unseen.setPipe, unseen.setLine]
      · rw [unseen.endIdent, unseen.setPipe, unseen.setLine]
      · rw [unseen.countPl _ (by decide), unseen.missParts, unseen.setPipe, unseen.setLine]

theorem identData (f : Nat → Word) : view (s.setRegs ((List.range 8).map fun i => (bayKey h b + Reg.PL_IDD + i, f i))) = view s := by
  have word (v : State) (i : Nat) (low : i < 8) : view (v.setReg (bayKey h b + Reg.PL_IDD + i) (f i)) = view v := by
    rw [Nat.add_assoc]
    exact unseen.setReg v (f i) (by unfold Reg.PL_IDD; omega)
  suffices each : ∀ (l : List Nat) (v : State), (∀ i ∈ l, i < 8) →
      view (v.setRegs (l.map fun i => (bayKey h b + Reg.PL_IDD + i, f i))) = view v from
    each _ s fun _ => List.mem_range.mp
  intro l
  induction l with
  | nil => exact fun _ _ => rfl
  | cons i l ih =>
    intro v low
    rw [List.map_cons, State.setRegs, ih _ fun j m => low j (List.mem_cons_of_mem _ m), word v i (low i List.mem_cons_self)]

theorem replyParts (p : Poll) (f : RxFrame) : view (replyParts h b p f s) = view s := by
  unfold Machine.replyParts
  refine (unseen.freeHeld _).trans (view_foldl (fun v q => ?_) _ s)
  dsimp only
  split
  · exact unseen.pushInput v _
  · exact unseen.pushInput v _

theorem takeReply {f : RxFrame} {edge : Nat} {t : State} (taken : takeReply h b f edge s = some t) : view t = view s := by
  obtain ⟨p, -, rfl⟩ := Option.map_eq_some_iff.mp taken
  dsimp only
  rw [apply_ite view, apply_ite view, unseen.plMark _ (by decide), unseen.countPl _ (by decide), unseen.endIdent,
    unseen.identData, unseen.replyParts, unseen.setPipe, ite_self, ite_self]

theorem pushRx (f : RxFrame) : view (pushRx h b f s) = view s := by
  unfold Machine.pushRx
  dsimp only
  split
  · rw [unseen.raiseBayEvent, unseen.put _ (by decide), unseen.countLine _ (by decide), unseen.setLine]
  · rw [unseen.setLineStat _ rfl, unseen.countLine _ (by decide)]

/-! ## The engine's frames end (R257 to R259, R265) -/

theorem leFailAttempt (st : Nat) : view (leFailAttempt h b st s) = view s := by
  unfold Machine.leFailAttempt
  dsimp only
  split
  · rw [unseen.settleP, unseen.failAttempt, unseen.setEngine]
  · rfl

theorem leCloseAttempt {f : State → State} (acts : ∀ v, view (f v) = view v) : view (leCloseAttempt h b f s) = view s := by
  unfold Machine.leCloseAttempt
  rw [unseen.leNext, unseen.settleP, acts, unseen.leUp]

theorem finTxok : view (finTxok h b s) = view s := unseen.leCloseAttempt s fun v => unseen.succeedAttempt v _

theorem finFailed (st : Nat) : view (Machine.leCloseAttempt h b (Machine.failAttempt h b st) s) = view s :=
  unseen.leCloseAttempt s fun v => unseen.failAttempt v st

theorem finArblost : view (finArblost h b s) = view s :=
  (unseen.leUp _ _).trans (unseen.leCloseAttempt s unseen.loseArbitration)

theorem leIdle : view (leIdle h b s) = view s := by
  have closed : view (leDropAssembly h b (Machine.leFailAttempt h b St.LINE_ABORTED s)) = view s :=
    (unseen.leDropAssembly _).trans (unseen.leFailAttempt s _)
  unfold Machine.leIdle
  dsimp only
  rw [unseen.applyLe, unseen.leUp]
  split
  · exact (unseen.put _ (by decide) 1).trans closed
  · exact closed

theorem leIdleReturn : view (leIdleReturn h b s) = view s := by
  unfold Machine.leIdleReturn
  dsimp only
  split
  · exact unseen.leNext_leUp s _
  · split
    · split_ifs
      · exact (unseen.settleP _).trans (unseen.endEntry s _ _)
      · exact (unseen.leNext_leUp _ _).trans (unseen.setLine s _)
      · rfl
    · rfl

theorem leAbort : view (leAbort h b s) = view s := by
  unfold Machine.leAbort leAbortCore
  split
  · rfl
  · rw [unseen.raiseBayEvent, unseen.count _ (by decide), unseen.put _ (by decide)]
    dsimp only
    rw [unseen.leClear, unseen.applyLe, unseen.leTakeSwap, unseen.leDropAssembly, unseen.leFailAttempt, unseen.setOutput]

theorem leStop : view (leStop h b s) = view s := by
  unfold Machine.leStop
  split
  · rfl
  · exact (unseen.leHaltAll _).trans (unseen.leAbort s)

theorem leEnterFault (code : Nat) : view (leEnterFault h b code s) = view s := by
  unfold Machine.leEnterFault
  dsimp only
  rw [unseen.raiseBayEvent, unseen.leTakeSwap, unseen.put _ (by decide), unseen.put _ (by decide), unseen.put _ (by decide),
    unseen.setEngine, unseen.leDropAssembly, unseen.leFailAttempt, unseen.setOutput]

theorem leSwapLate : view (leSwapLate h b s) = view s := by
  unfold Machine.leSwapLate
  dsimp only
  split
  · have late (x : Engine) : view (if (s.engine h b).swapLate then s else Machine.raiseBayEvent h b .lineEngine
        ((s.setEngine h b x).put (bayKey h b) Reg.LE_STAT_SWAP_LATE 1)) = view s := by
      rw [apply_ite view, unseen.raiseBayEvent, unseen.put _ (by decide), unseen.setEngine, ite_self]
    rw [apply_ite view, apply_ite view, unseen.leSwapKeep, apply_ite view, unseen.leAbort, unseen.put _ (by decide), late,
      ite_self, ite_self, ite_self]
  · rfl

end FrameUnseen

namespace BudgetUnseen

variable {α : Type} {view : State → α} {h : Half} {b : Nat} (unseen : BudgetUnseen view h b) (s : State)
include unseen

theorem leGet : view (leGet h b s) = view s := (unseen.leNext_leUp _ _).trans (unseen.chargeLine b s)

theorem lePut : view (lePut h b s) = view s := (unseen.leNext_leUp _ _).trans (unseen.chargeLine b s)

theorem finDeliver : view (finDeliver h b s) = view s := by
  unfold Machine.finDeliver
  dsimp only
  split
  · exact unseen.chargeLine b s
  · have closed (f : Engine → Engine) : view (leUp h b f (Machine.chargeLine h b s)) = view s :=
      (unseen.leUp _ _).trans (unseen.chargeLine b s)
    split
    · exact (unseen.leNext _).trans (closed _)
    · split
      · rw [unseen.leNext, unseen.countLine _ (by decide), closed]
      · split
        · next taken =>
          have reply := unseen.takeReply _ (Option.ite_none_left_eq_some.mp taken).2
          rw [unseen.leNext_leUp, unseen.countLine _ (by decide), reply, closed]
        · rw [unseen.leNext_leUp, unseen.pushRx, closed]

/-- Whatever instruction stands at the PC. -/
theorem leAny (v : Bool) : view (leAny h b v s) = view s := by
  unfold Machine.leAny
  dsimp only
  split
  · rfl
  · split
    · exact unseen.leEnterFault s _
    · split
      · exact unseen.leBr s
      · exact unseen.leCall s
      · exact unseen.leSym s
      · exact unseen.leSmp s v
      · exact unseen.leWait s
      · split_ifs
        · exact unseen.leAlignStop s
        · exact unseen.leAlignEdge s
        · exact unseen.leAlignSoft s
      · exact unseen.leLdi s
      · exact unseen.leAlu s
      · exact unseen.leDjnz s
      · exact unseen.leMov s
      · exact unseen.leGet s
      · exact unseen.lePut s
      · split_ifs
        · exact unseen.leCrcInit s
        · exact unseen.leCrcCheck s
        · exact unseen.leCrcLoad s
      · exact unseen.leIdle s
      · split
        · exact unseen.finTxok s
        · exact unseen.finFailed s _
        · exact unseen.finArblost s
        · exact unseen.finFailed s _
        · exact unseen.finFailed s _
        · exact unseen.finDecide s
        · exact unseen.finOpen s
        · exact unseen.finDeliver s
        · exact unseen.finBad s (by decide)
        · exact unseen.finBad s (by decide)
      · exact unseen.leHaltBreak s

theorem leStep (v : Bool) : view (leStep h b v s) = view s := by
  unfold Machine.leStep
  dsimp only
  split
  · exact (unseen.leAny _ v).trans (unseen.setEngine s _)
  · rfl

end BudgetUnseen

end Sys2Proof.Machine
end


section
/-! PROOF. What line engine and synthesiser commands leave (O53): for each group a view in which everything shows that its
commands leave, so that what a copy works on, a refused write and the transmit path do not show in it. -/

namespace Sys2Proof.Machine

/-! ## Registers at the addresses of a group -/

section

variable {g : Group} {k : Nat}

theorem inBlocks_of_mem {lo hi : Nat} (block : (lo, hi) ∈ groupBlocks g) (low : lo ≤ k % 0x100000)
    (high : k % 0x100000 < hi) : inBlocks g k = true :=
  List.any_eq_true.mpr ⟨(lo, hi), block, by rw [decide_eq_true low, decide_eq_true high]; rfl⟩

theorem inBlocks_bay (block : (0x10000, 0x20000) ∈ groupBlocks g) (h : Half) {b o : Nat} (hb : b < 64) (ho : o < 0x400) :
    inBlocks g (bayKey h b + o) = true := by
  refine inBlocks_of_mem block ?_ ?_ <;> (unfold bayKey halfKey Half.num; cases h <;> (dsimp only; omega))

theorem inBlocks_half {lo hi : Nat} (block : (lo, hi) ∈ groupBlocks g) (h : Half) {o : Nat} (low : lo ≤ o) (high : o < hi)
    (small : hi ≤ 0x100000) : inBlocks g (halfKey h + o) = true := by
  refine inBlocks_of_mem block ?_ ?_ <;> (unfold halfKey Half.num; cases h <;> (dsimp only; omega))

/-- The registers of the engines of compression, the captures and the envelope's logs. -/
theorem inBlocks_logKeys (coding : (0x800, 0x820) ∈ groupBlocks g) (bays : (0x10000, 0x20000) ∈ groupBlocks g)
    (timers : (0x71000, 0x71100) ∈ groupBlocks g) (log : k ∈ logKeys) : inBlocks g k = true := by
  obtain ⟨h, hk⟩ | ⟨i, hi, o, ho, rfl⟩ | ⟨b, hb, same⟩ := log
  · rw [codingKeys, Set.mem_Ico] at hk
    refine inBlocks_of_mem coding ?_ ?_ <;> (unfold halfKey Half.num at hk; cases h <;> (dsimp only at hk; omega))
  · have := capture_lt ho
    unfold tbKey
    split_ifs
    · exact inBlocks_bay bays .A (by omega) (by omega)
    · exact inBlocks_bay bays .B (by omega) (by omega)
    · refine inBlocks_of_mem timers ?_ ?_ <;> (unfold oneKey; omega)
  · refine inBlocks_of_mem bays ?_ ?_ <;> (unfold padKey oneKey Reg.ENV_LAST Reg.ENV_BAYCNT at same; omega)

end

/-- The registers at addresses at which a group's commands do not write. -/
def State.regsBeside (g : Group) (s : State) (k : {k // inBlocks g k = false}) : Word := s.reg k.1

theorem regsBeside_setReg {g : Group} {k : Nat} (own : inBlocks g k = true) (s : State) (w : Word) :
    (s.setReg k w).regsBeside g = s.regsBeside g :=
  funext fun j => s.reg_setReg_other w fun same => by simpa [same, own] using j.2

theorem kept_of_regsBeside {g : Group} {s t : State} (same : t.regsBeside g = s.regsBeside g) :
    RegsKeptBut (inBlocks g) s t := fun k other => congrFun same ⟨k, other⟩

/-! ## Commands -/

/-- A refused write, the transmit paths and the count of free values do not show in a view. -/
structure CommandUnseen {α : Type} (view : State → α) : Prop where
  refuseWrite : ∀ (s : State) (h : Half) (a : Nat), view (s.refuseWrite h a) = view s
  referee : ∀ (s : State) (r : Referee), view { s with referee := r } = view s
  freeCount : ∀ (s : State) (n : Nat), view { s with freeCount := n } = view s

/-- The state that a command answers shows as the state before it. -/
def Hides {α : Type} (view : State → α) (c : Instr) (s : State) : Prop := ∀ t, exec c s = .next t → view t = view s

theorem Hides.of_exec {α : Type} {view : State → α} {c : Instr} {s u : State} (answer : exec c s = .next u)
    (same : view u = view s) : Hides view c s := by
  intro t ht
  rw [answer] at ht
  cases ht
  exact same

section

variable {α : Type} {view : State → α} {f : Half → State → State} (s : State) (acts : ∀ g v, view (f g v) = view v)
include acts

theorem view_onCopies : view (s.onCopies f) = view s :=
  onCopies_keeps (R := fun v => view v = view s) rfl fun g v kept => (acts g v).trans kept

/-- An act on a condition. -/
theorem view_when {p : Half → State → Bool} (g : Half) (v : State) : view (if p g v then f g v else v) = view v := by
  split
  · exact acts g v
  · rfl

variable (unseen : CommandUnseen view)
include unseen

omit acts in
theorem CommandUnseen.syncLinePath (b : Nat) : view (syncLinePath b s) = view s := by
  unfold Machine.syncLinePath
  dsimp only
  split
  · rfl
  · exact unseen.referee s _

theorem CommandUnseen.leEvent (b : Nat) : view (leEvent b f s) = view s := by
  unfold Machine.leEvent
  dsimp only
  rw [unseen.syncLinePath, unseen.freeCount, view_onCopies s acts]

theorem CommandUnseen.lineWrite (m : Master) (b off : Nat) : view (lineWrite m b off f s) = view s := by
  have write : view (s.bayWrite m b (0x10000 + 0x400 * b + off) f) = view s := by
    obtain same | same := bayWrite_cases s m b (0x10000 + 0x400 * b + off) f
    · rw [same, view_onCopies s acts]
    · rw [same, unseen.refuseWrite]
  unfold Machine.lineWrite
  dsimp only
  rw [unseen.syncLinePath, unseen.freeCount, write]

end

/-! ## An engine at work -/

/-- What an engine at work leaves: the state but for what the claim names. -/
def State.besideEngine (s : State) : State × ({k // inBlocks .engine k = false} → Word) :=
  ({ s with
      regs := [], staging := [], referee := Referee.reset, mirrors := [], lines := [], freeCount := 0, engines := [],
      progs := [] },
    s.regsBeside .engine)

theorem besideEngine_setReg {k : Nat} (own : inBlocks .engine k = true) (s : State) (w : Word) :
    (s.setReg k w).besideEngine = s.besideEngine := Prod.ext rfl (regsBeside_setReg own s w)

theorem besideEngine_lineUnseen (h : Half) {b : Nat} (hb : b < 64) : LineUnseen State.besideEngine h b where
  setReg := fun s _ w low => besideEngine_setReg (inBlocks_bay (by decide) h hb low) s w
  setEngine := fun _ _ => rfl
  setLine := fun _ _ => rfl
  setMirror := fun _ _ => rfl

theorem besideEngine_commandUnseen : CommandUnseen State.besideEngine where
  refuseWrite := fun s h a => by
    have counted : (s.count (halfKey h + Reg.DEV_REFUSED) 1).besideEngine = s.besideEngine :=
      besideEngine_setReg (inBlocks_half (lo := 0xF09) (hi := 0xF0B) (by decide) h (by decide) (by decide) (by decide)) s _
    exact (besideEngine_setReg (inBlocks_half (lo := 0xF09) (hi := 0xF0B) (by decide) h (by decide) (by decide) (by decide))
      _ _).trans counted
  referee := fun _ _ => rfl
  freeCount := fun _ _ => rfl

/-- A command of the engine group shows nowhere else. -/
theorem engine_hides (c : Instr) (s : State) (group : groupOf c = .engine) : Hides State.besideEngine c s := by
  have command := besideEngine_commandUnseen
  have line (b : Fin 64) (h : Half) := besideEngine_lineUnseen h b.isLt
  have instr {b : Fin 64} {c : Instr} {op : Nat} {p : BitVec 32 → Bool} {f : Half → State → State}
      (answer : exec c s = leInstr b op p f s) (acts : ∀ h v, (f h v).besideEngine = v.besideEngine) :
      Hides State.besideEngine c s := .of_exec answer (command.leEvent s (view_when acts) b)
  have write {m : Master} {b : Fin 64} {c : Instr} {off : Nat} {f : Half → State → State}
      (answer : exec c s = .next (lineWrite m b off f s)) (acts : ∀ h v, (f h v).besideEngine = v.besideEngine) :
      Hides State.besideEngine c s := .of_exec answer (command.lineWrite s acts m b off)
  cases c
  case lineTripClear m b volts amps => exact write rfl fun h v => (line b h).plainWrite v (by decide) _
  case transmitBufferWrite m b value => exact write rfl fun h v => (line b h).writeTxData v value
  case lineSubmit m b id => exact write rfl fun h v => (line b h).submit v id.toNat
  case receivePop m b => exact write rfl fun h v => (line b h).popRx v
  case receiveDataRead m b =>
    refine .of_exec rfl ?_
    unfold State.bayRead
    split
    · exact view_onCopies s fun h v => (line b h).advanceRx v
    · rfl
  case leStart m b => exact write rfl fun h v => ((line b h).leTryStart _).trans ((line b h).put v (by decide) 1)
  case leResume m b => exact write rfl fun h v => (line b h).leResume v
  case leSwap m b restart force => exact write rfl fun h v => (line b h).leAskSwap v restart force
  case programWordWrite m b hi =>
    exact .of_exec rfl (command.lineWrite _ (fun h v => (line b h).leCommitWord v (fun _ _ => rfl) _ hi) m b _)
  case leSwapTakeEffect b => exact .of_exec rfl (command.leEvent s (fun h v => (line b h).leSwapNow v) b)
  case leLate b => exact .of_exec rfl (command.leEvent s (fun h v => (line b h).leLate v) b)
  case leWaitEnd b => exact .of_exec rfl (command.leEvent s (view_when fun h v => (line b h).leWaitEnd v) b)
  case leHaltBreak b => exact .of_exec rfl (command.leEvent s (view_when fun h v => (line b h).leHaltBreak v) b)
  case lineEdge b rise => exact .of_exec rfl (view_onCopies s fun h v => (line b h).leEdge v rise)
  case leBr b => exact instr rfl fun h v => (line b h).leBr v
  case leCall b => exact instr rfl fun h v => (line b h).leCall v
  case leSym b => exact instr rfl fun h v => (line b h).leSym v
  case leSmp b input => exact instr rfl fun h v => (line b h).leSmp v input
  case leWait b => exact instr rfl fun h v => (line b h).leWait v
  case leAlignStop b => exact instr rfl fun h v => (line b h).leAlignStop v
  case leAlignEdge b => exact instr rfl fun h v => (line b h).leAlignEdge v
  case leAlignSoft b => exact instr rfl fun h v => (line b h).leAlignSoft v
  case leLdi b => exact instr rfl fun h v => (line b h).leLdi v
  case leAlu b => exact instr rfl fun h v => (line b h).leAlu v
  case leDjnz b => exact instr rfl fun h v => (line b h).leDjnz v
  case leMov b => exact instr rfl fun h v => (line b h).leMov v
  case leCrcInit b => exact instr rfl fun h v => (line b h).leCrcInit v
  case leCrcCheck b => exact instr rfl fun h v => (line b h).leCrcCheck v
  case leCrcLoad b => exact instr rfl fun h v => (line b h).leCrcLoad v
  case finDecide b => exact instr rfl fun h v => (line b h).finDecide v
  case finOpen b => exact instr rfl fun h v => (line b h).finOpen v
  case finBadcrc b => exact instr rfl fun h v => (line b h).finBad v (by decide)
  case finBadfmt b => exact instr rfl fun h v => (line b h).finBad v (by decide)
  all_goals cases group

/-! ## The end of a frame, and accesses of the memory -/

/-- What the end of a frame and an access of the memory leave. -/
def State.besideFrame (s : State) : State × ({k // inBlocks .engineEnd k = false} → Word) :=
  ({ s with
      regs := [], halfA := { s.halfA with budget := Budget.reset }, halfB := { s.halfB with budget := Budget.reset },
      referee := Referee.reset, consumers := [], timebases := [], mirrors := [], lines := [], freeCount := 0, engines := [],
      pipes := [], coders := [], codeHalves := [], chans := [], bushels := [],
      power := { s.power with matrixWake := false } },
    s.regsBeside .engineEnd)

theorem besideFrame_setReg {k : Nat} (own : inBlocks .engineEnd k = true) (s : State) (w : Word) :
    (s.setReg k w).besideFrame = s.besideFrame := Prod.ext rfl (regsBeside_setReg own s w)

theorem inBlocks_engineEnd_log {k : Nat} (log : k ∈ logKeys) : inBlocks .engineEnd k = true :=
  inBlocks_logKeys (by decide) (by decide) (by decide) log

theorem not_mem_logKeys_of_beside {k : Nat} (other : inBlocks .engineEnd k = false) : k ∉ logKeys := fun log => by
  simp [inBlocks_engineEnd_log log] at other

theorem besideFrame_raiseEvents (s : State) (ps : List Nat) : (raiseEvents ps s).besideFrame = s.besideFrame := by
  have captures := raiseEvents_captures ps s
  obtain ⟨r, c, i, w, only⟩ := raiseEvents_only ps s
  refine Prod.ext (by rw [only]; rfl) (funext fun k => captures.regs k.1 fun i hi o ho same => ?_)
  exact not_mem_logKeys_of_beside k.2 (.inr (.inl ⟨i, hi, o, ho, same⟩))

theorem besideFrame_bayRecord (h : Half) (b : Nat) (s : State) (en : Fld) (rtype : Nat) (payload : List Byte) :
    (bayRecord h b en rtype payload s).besideFrame = s.besideFrame := by
  have kept (k : ((codingKeys h)ᶜ : Set Nat)) := apartCoding_bayRecord h k s b en rtype payload
  have rest := congrArg Prod.fst (kept ⟨0, by simp [codingKeys]⟩)
  refine Prod.ext ?_ (funext fun k => congrArg Prod.snd (kept ⟨k.1, fun m => not_mem_logKeys_of_beside k.2 (.inl ⟨h, m⟩)⟩))
  exact (congrArg (fun u : State => u.besideFrame.1) rest :)

theorem besideFrame_budgetUnseen (h : Half) {b : Nat} (hb : b < 64) : BudgetUnseen State.besideFrame h b where
  setReg := fun s _ w low => besideFrame_setReg (inBlocks_bay (by decide) h hb low) s w
  setEngine := fun _ _ => rfl
  setLine := fun _ _ => rfl
  setMirror := fun _ _ => rfl
  setPipe := fun _ _ => rfl
  raiseEvents := besideFrame_raiseEvents
  bayRecord := besideFrame_bayRecord h b
  setBudget := fun _ _ => by cases h <;> rfl
  floorOver := fun s =>
    besideFrame_setReg (inBlocks_half (lo := 0x602) (hi := 0x603) (by decide) h (by decide) (by decide) (by decide)) s _
  freeCount := fun _ _ => rfl

theorem besideFrame_commandUnseen : CommandUnseen State.besideFrame where
  refuseWrite := fun s h a => by
    have counted : (s.count (halfKey h + Reg.DEV_REFUSED) 1).besideFrame = s.besideFrame :=
      besideFrame_setReg (inBlocks_half (lo := 0xF09) (hi := 0xF0B) (by decide) h (by decide) (by decide) (by decide)) s _
    exact (besideFrame_setReg (inBlocks_half (lo := 0xF09) (hi := 0xF0B) (by decide) h (by decide) (by decide) (by decide))
      _ _).trans counted
  referee := fun _ _ => rfl
  freeCount := fun _ _ => rfl

/-- A command that ends a frame or crosses the budget shows nowhere else. -/
theorem engineEnd_hides (c : Instr) (s : State) (group : groupOf c = .engineEnd) : Hides State.besideFrame c s := by
  have command := besideFrame_commandUnseen
  have frame (b : Fin 64) (h : Half) := besideFrame_budgetUnseen h b.isLt
  have instr {b : Fin 64} {c : Instr} {op : Nat} {p : BitVec 32 → Bool} {f : Half → State → State}
      (answer : exec c s = leInstr b op p f s) (acts : ∀ h v, (f h v).besideFrame = v.besideFrame) :
      Hides State.besideFrame c s := .of_exec answer (command.leEvent s (view_when acts) b)
  have write {m : Master} {b : Fin 64} {c : Instr} {off : Nat} {f : Half → State → State}
      (answer : exec c s = .next (lineWrite m b off f s)) (acts : ∀ h v, (f h v).besideFrame = v.besideFrame) :
      Hides State.besideFrame c s := .of_exec answer (command.lineWrite s acts m b off)
  cases c
  case lineCancel m b mask => exact write rfl fun h v => (frame b h).cancelMask v mask.toNat
  case leStop m b => exact write rfl fun h v => ((frame b h).leStop _).trans ((frame b h).put v (by decide) 0)
  case leAbort m b => exact write rfl fun h v => (frame b h).leAbort v
  case leStep m b input => exact write rfl fun h v => (frame b h).leStep v input
  case lineDeferExpiry b =>
    refine .of_exec rfl (view_onCopies s fun h v => ?_)
    split
    · dsimp only
      split
      · exact ((frame b h).settleP _).trans ((frame b h).endEntry v _ _)
      · rfl
    · rfl
  case leSwapLate b => exact .of_exec rfl (command.leEvent s (fun h v => (frame b h).leSwapLate v) b)
  case leIdleReturn b => exact .of_exec rfl (command.leEvent s (view_when fun h v => (frame b h).leIdleReturn v) b)
  case leFault b =>
    refine .of_exec rfl (command.leEvent s (fun h v => ?_) b)
    split
    · split
      · exact (frame b h).leEnterFault v _
      · rfl
    · rfl
  case leGet b => exact instr rfl fun h v => (frame b h).leGet v
  case lePut b => exact instr rfl fun h v => (frame b h).lePut v
  case leIdle b => exact instr rfl fun h v => (frame b h).leIdle v
  case finTxok b => exact instr rfl fun h v => (frame b h).finTxok v
  case finNoack b => exact instr rfl fun h v => (frame b h).finFailed v _
  case finArblost b => exact instr rfl fun h v => (frame b h).finArblost v
  case finColl b => exact instr rfl fun h v => (frame b h).finFailed v _
  case finTxabort b => exact instr rfl fun h v => (frame b h).finFailed v _
  case finDeliver b => exact instr rfl fun h v => (frame b h).finDeliver v
  all_goals cases group

/-! ## Synthesisers -/

/-- What a synthesiser's command leaves. -/
def State.besideSynth (s : State) : State × ({k // inBlocks .synth k = false} → Word) :=
  ({ s with regs := [], synths := [], engines := [] }, s.regsBeside .synth)

theorem besideSynth_setReg {k : Nat} (own : inBlocks .synth k = true) (s : State) (w : Word) :
    (s.setReg k w).besideSynth = s.besideSynth := Prod.ext rfl (regsBeside_setReg own s w)

theorem besideSynth_engineUnseen (h : Half) {b : Nat} (hb : b < 64) : EngineUnseen State.besideSynth h b where
  setReg := fun s _ w low => besideSynth_setReg (inBlocks_bay (by decide) h hb low) s w
  setEngine := fun _ _ => rfl

theorem besideSynth_refuseWrite (s : State) (h : Half) (a : Nat) : (s.refuseWrite h a).besideSynth = s.besideSynth := by
  have counted : (s.count (halfKey h + Reg.DEV_REFUSED) 1).besideSynth = s.besideSynth :=
    besideSynth_setReg (inBlocks_half (lo := 0xF09) (hi := 0xF0B) (by decide) h (by decide) (by decide) (by decide)) s _
  exact (besideSynth_setReg (inBlocks_half (lo := 0xF09) (hi := 0xF0B) (by decide) h (by decide) (by decide) (by decide))
    _ _).trans counted

section

variable (s : State)

@[simp] theorem besideSynth_setSynth (j : Nat) (x : Synth) : (s.setSynth j x).besideSynth = s.besideSynth := (rfl)

theorem besideSynth_octetRegs {j : Nat} (hj : j < 8) {f : Fld} (low : f.addr < 0x400) (v : Nat) :
    (octetRegs j (fun key s => s.put key f v) s).besideSynth = s.besideSynth :=
  view_onCopies s fun h u => (besideSynth_engineUnseen h (by omega)).put u low v

variable {j : Nat} (hj : j < 8)
include hj

theorem besideSynth_loseReceptions : (loseReceptions j s).besideSynth = s.besideSynth := by
  refine List.foldlRecOn (motive := fun v : State => v.besideSynth = s.besideSynth) _ _ rfl fun (v : State) kept k hk => ?_
  have bay : 8 * j + k < 64 := by
    have := List.mem_range.mp hk
    omega
  refine (view_onCopies v fun h u => ?_).trans kept
  split
  · exact (besideSynth_engineUnseen h bay).loseFrame u
  · rfl

theorem besideSynth_tune (f : Nat) : (tune j f s).besideSynth = s.besideSynth := by
  unfold tune
  dsimp only
  split
  · rfl
  · rw [besideSynth_setSynth, besideSynth_loseReceptions s hj]

theorem besideSynth_tuneStaged : (tuneStaged j s).besideSynth = s.besideSynth := by
  unfold tuneStaged
  dsimp only
  rw [besideSynth_setSynth, besideSynth_tune s hj]

theorem besideSynth_synthFreq (f : Nat) : (synthFreq j f s).besideSynth = s.besideSynth := by
  unfold synthFreq
  dsimp only
  split
  · exact besideSynth_octetRegs s hj (by decide) 1
  · have written := besideSynth_octetRegs s hj (f := Reg.LS_SYN_FREQ) (by decide) f
    split
    · rw [besideSynth_setSynth, written]
    · split
      · rw [besideSynth_setSynth, written]
      · rw [besideSynth_tune _ hj, written]
      · rw [besideSynth_setSynth, written]

omit hj in
theorem besideSynth_synthCal : (synthCal j s).besideSynth = s.besideSynth := by
  unfold synthCal
  dsimp only
  split <;> rfl

theorem besideSynth_synthApply : (synthApply j s).besideSynth = s.besideSynth := by
  unfold synthApply
  dsimp only
  split
  · rw [besideSynth_setSynth, besideSynth_tuneStaged s hj]
  · rfl

theorem besideSynth_synthCalDone (ok : Bool) : (synthCalDone j ok s).besideSynth = s.besideSynth := by
  unfold synthCalDone
  dsimp only
  split
  · split
    · have calibrated : (octetRegs j (fun key s =>
          ((s.put key Reg.LS_TEMP_CAL (s.get key Reg.LS_TEMP_NOW)).put key Reg.LS_STAT_CAL_DONE 1).count
            (key + Reg.LS_CALS) 1) s).besideSynth = s.besideSynth := by
        refine view_onCopies s fun h u => ?_
        have bay := besideSynth_engineUnseen h (b := 8 * j) (by omega)
        rw [bay.count _ (by decide), bay.put _ (by decide), bay.put _ (by decide)]
      split
      · rw [besideSynth_setSynth, besideSynth_tuneStaged _ hj, besideSynth_setSynth, calibrated]
      · rw [synthLock, besideSynth_setSynth, besideSynth_tuneStaged _ hj, besideSynth_setSynth, calibrated]
    · rw [besideSynth_setSynth, besideSynth_tuneStaged _ hj, besideSynth_octetRegs s hj (by decide)]
  · rfl

theorem besideSynth_synthSettleDone : (synthSettleDone j s).besideSynth = s.besideSynth := by
  have staged := besideSynth_tuneStaged s hj
  unfold synthSettleDone synthLock
  dsimp only
  split_ifs
  · rw [besideSynth_setSynth, staged]
  · exact staged
  · rw [besideSynth_setSynth, staged]
  · rfl

omit hj in
theorem besideSynth_synthRetry : (synthRetry j s).besideSynth = s.besideSynth := by
  unfold synthRetry
  dsimp only
  split <;> rfl

theorem besideSynth_synthTemp (now : Nat) : (synthTemp j now s).besideSynth = s.besideSynth := by
  have written := besideSynth_octetRegs s hj (f := Reg.LS_TEMP_NOW) (by decide) now
  unfold synthTemp
  dsimp only
  split
  · rw [besideSynth_setSynth, written]
  · exact written

end

/-- A synthesiser's command shows nowhere else. -/
theorem synth_hides (c : Instr) (s : State) (group : groupOf c = .synth) : Hides State.besideSynth c s := by
  have write {ok : Bool} {u : State} (acts : u.besideSynth = s.besideSynth) (h : Half) (a : Nat) :
      (if ok then u else s.refuseWrite h a).besideSynth = s.besideSynth := by
    rw [apply_ite State.besideSynth, acts, besideSynth_refuseWrite, ite_self]
  cases c
  case synthFreqWrite m j freq => exact .of_exec rfl (write (besideSynth_synthFreq s j.isLt _) _ _)
  case synthCalRequest m j => exact .of_exec rfl (write (besideSynth_synthCal s) _ _)
  case synthGateApply j =>
    refine .of_exec rfl ?_
    rw [apply_ite State.besideSynth, besideSynth_synthApply s j.isLt, ite_self]
  case synthCalDone j ok => exact .of_exec rfl (besideSynth_synthCalDone s j.isLt ok)
  case synthSettleDone j => exact .of_exec rfl (besideSynth_synthSettleDone s j.isLt)
  case synthRetry j => exact .of_exec rfl (besideSynth_synthRetry s)
  case lsTempUpdate j now => exact .of_exec rfl (besideSynth_synthTemp s j.isLt _)
  all_goals cases group

/-! ## The obligation -/

/-- Settles O53: for each group, what the claim says is left shows in a view of the state, and each command of the group is
made of acts that do not show in it. -/
theorem lineCommandsLeaveTheRest : Obligations.LineCommandsLeaveTheRest := by
  refine ⟨fun c s t group answer => ?_, fun c s t group answer => ?_, fun c s t group answer => ?_⟩
  · have same := engine_hides c s group t answer
    exact ⟨(congrArg (fun v => { v.1 with
      regs := t.regs, staging := t.staging, referee := t.referee, mirrors := t.mirrors, lines := t.lines,
      freeCount := t.freeCount, engines := t.engines, progs := t.progs }) same :),
      kept_of_regsBeside (congrArg Prod.snd same)⟩
  · have same := engineEnd_hides c s group t answer
    exact ⟨(congrArg (fun v => { v.1 with
      regs := t.regs, halfA := { v.1.halfA with budget := t.halfA.budget },
      halfB := { v.1.halfB with budget := t.halfB.budget }, referee := t.referee, consumers := t.consumers,
      timebases := t.timebases, mirrors := t.mirrors, lines := t.lines, freeCount := t.freeCount, engines := t.engines,
      pipes := t.pipes, coders := t.coders, codeHalves := t.codeHalves, chans := t.chans, bushels := t.bushels,
      power := { v.1.power with matrixWake := t.power.matrixWake } }) same :), kept_of_regsBeside (congrArg Prod.snd same)⟩
  · have same := synth_hides c s group t answer
    exact ⟨(congrArg (fun v => { v.1 with regs := t.regs, synths := t.synths, engines := t.engines }) same :),
      kept_of_regsBeside (congrArg Prod.snd same)⟩

end Sys2Proof.Machine
end

section
/-! SUPPORT. What a line engine's copy in one half goes by, beside what the other half's engine changes (R23, R24, R273): as
`LineElsewhere`, but that the other half may have charged its budget too. -/

namespace Sys2Proof.Machine

/-! ## The view -/

/-- A state without what its halves' budgets have left. -/
def State.unbudgeted (s : State) : State :=
  { s with
    halfA := { s.halfA with budget := Budget.reset }
    halfB := { s.halfB with budget := Budget.reset } }

/-- The registers that charges and the other half's engines write. -/
def otherKeys (h : Half) : Set Nat := copyKeys h.other ∪ {k | ∃ g, k = halfKey g + Reg.BG_STAT}

/-- What the engines of half h go by: all that the other half's engines leave. -/
def State.ground (h : Half) (s : State) := s.unbudgeted.apartLines (otherKeys h) (copyLines h.other)

/-- Only what the other half's engines change differs. -/
def EngineElsewhere (h : Half) (s t : State) : Prop := t.ground h = s.ground h

theorem bay_ne_bgStat (g h : Half) {b o : Nat} (hb : b < 64) (ho : o < 0x400) :
    bayKey h b + o ≠ halfKey g + Reg.BG_STAT := by
  cases g <;> cases h <;> (unfold bayKey halfKey Half.num Reg.BG_STAT; dsimp only; omega)

theorem ground_of_apartLines {h : Half} {s t : State}
    (same : t.apartLines (copyKeys h.other) (copyLines h.other) = s.apartLines (copyKeys h.other) (copyLines h.other)) :
    t.ground h = s.ground h := by
  refine Prod.ext (Prod.ext ?_ (Prod.ext (funext fun k => ?_) (congrArg (fun v => v.1.2.2) same)))
    (congrArg (fun v => v.2) same)
  · exact (congrArg State.unbudgeted (rest_of_apartLines same) :)
  · exact reg_of_apartLines same (fun m => k.2.1 (.inl m)) k.2.2

theorem ground_setReg {h : Half} {k : Nat} (own : k ∈ otherKeys h) (s : State) (w : Word) :
    (s.setReg k w).ground h = s.ground h := apartLines_setReg s.unbudgeted own w

theorem apart_raiseEvents {P S : Set Nat} (s : State) (ps : List Nat) : (raiseEvents ps s).apart P S = s.apart P S := by
  have captures := raiseEvents_captures ps s
  obtain ⟨r, c, i, w, only⟩ := raiseEvents_only ps s
  refine apart_of_log (by rw [only]; rfl) (fun k hk => captures.regs k fun i hi o ho same => ?_) captures.timebase
    (by rw [only])
  exact hk (.inr (.inl ⟨i, hi, o, ho, same⟩))

/-- In a half's view nothing shows of an act on a line of that half. -/
theorem apartLines_frameUnseen (h : Half) {b : Nat} (hb : b < 64) :
    FrameUnseen (State.apartLines (copyKeys h) (copyLines h)) h b where
  setReg := fun s _ w low => apartLines_setReg s (bay_mem_copyKeys h hb low) w
  setEngine := fun s x => apartLines_setEngine s (line_mem_copyLines h hb) x
  setLine := fun s x => apartLines_setLine s (line_mem_copyLines h hb) x
  setMirror := fun _ _ => rfl
  setPipe := fun s x => apartLines_setPipe s x
  raiseEvents := fun s ps => apartLines_of_apart (apart_raiseEvents s ps)
  bayRecord := fun s en rtype payload => apartLines_of_apart (apart_bayRecord s h b en rtype payload)

/-- Charges are no matter to either half's engines. -/
theorem ground_chargeUnseen (h g : Half) : ChargeUnseen (State.ground h) g where
  setBudget := fun _ _ => by cases g <;> rfl
  floorOver := fun s => ground_setReg (.inr ⟨g, rfl⟩) s _
  raiseEvents := fun s ps => ground_of_apartLines (apartLines_of_apart (apart_raiseEvents s ps))
  freeCount := fun _ _ => rfl

theorem ground_budgetUnseen (h : Half) {b : Nat} (hb : b < 64) : BudgetUnseen (State.ground h) h.other b where
  setReg := fun s _ w low => ground_of_apartLines ((apartLines_frameUnseen h.other hb).setReg s w low)
  setEngine := fun s x => ground_of_apartLines ((apartLines_frameUnseen h.other hb).setEngine s x)
  setLine := fun s x => ground_of_apartLines ((apartLines_frameUnseen h.other hb).setLine s x)
  setMirror := fun s x => ground_of_apartLines ((apartLines_frameUnseen h.other hb).setMirror s x)
  setPipe := fun s x => ground_of_apartLines ((apartLines_frameUnseen h.other hb).setPipe s x)
  bayRecord := fun s en rtype payload => ground_of_apartLines ((apartLines_frameUnseen h.other hb).bayRecord s en rtype payload)
  toChargeUnseen := ground_chargeUnseen h h.other

theorem ground_syncLinePath (h : Half) (b : Nat) (s : State) : (syncLinePath b s).ground h = s.ground h := by
  unfold syncLinePath
  dsimp only
  split <;> rfl

/-! ## What a copy goes by -/

namespace EngineElsewhere

variable {h : Half} {s t u : State} {b : Nat}

theorem refl (s : State) : EngineElsewhere h s s := rfl

theorem trans (first : EngineElsewhere h s t) (second : EngineElsewhere h t u) : EngineElsewhere h s u := Eq.trans second first

variable (e : EngineElsewhere h s t)
include e

theorem rest : (t.ground h).1.1 = (s.ground h).1.1 := rest_of_apartLines e

theorem computes (x : Half) : t.computes x = s.computes x := by
  cases x with
  | A => exact (congrArg (fun u : State => u.computes .A) e.rest :)
  | B => exact (congrArg (fun u : State => u.computes .B) e.rest :)

theorem onTref : t.onTref = s.onTref := (congrArg State.onTref e.rest :)

theorem timeNs : t.timeNs = s.timeNs := (congrArg State.timeNs e.rest :)

theorem synth (j : Nat) : t.synth j = s.synth j := synth_of_apartLines e j

theorem defaults (x : Half) : (t.half x).defaults = (s.half x).defaults := by
  cases x with
  | A => exact (congrArg (fun u : State => u.halfA.defaults) e.rest :)
  | B => exact (congrArg (fun u : State => u.halfB.defaults) e.rest :)

theorem power : t.power.mode = s.power.mode := (congrArg (fun u : State => u.power.mode) e.rest :)

theorem progWord (x : Half) (c bank a : Nat) : t.progWord x c bank a = s.progWord x c bank a :=
  (congrArg (fun u : State => u.progWord x c bank a) e.rest :)

variable (hb : b < 64)
include hb

theorem line : t.line h b = s.line h b := line_of_apartLines e (line_not_mem_other h hb)

theorem engine : t.engine h b = s.engine h b := engine_of_apartLines e (line_not_mem_other h hb)

theorem reg {o : Nat} (lo : 0x20 ≤ o) (hi : o < 0x400) : t.reg (bayKey h b + o) = s.reg (bayKey h b + o) := by
  have plain : bayKey h b + o ∉ logKeys := bay_not_mem_logKeys h hb hi fun p hp => by
    have := capture_lt hp
    omega
  refine reg_of_apartLines e (fun m => ?_) plain
  exact m.elim (bay_not_mem_other h hb hi) fun ⟨g, same⟩ => bay_ne_bgStat g h hb hi same

theorem get {f : Fld} (lo : 0x20 ≤ f.addr) (hi : f.addr < 0x400) : t.get (bayKey h b) f = s.get (bayKey h b) f := by
  rw [State.get, e.reg hb lo hi, State.get]

theorem flag {f : Fld} (lo : 0x20 ≤ f.addr) (hi : f.addr < 0x400) : t.flag (bayKey h b) f = s.flag (bayKey h b) f := by
  rw [State.flag, e.get hb lo hi, State.flag]

/-! ## The program and the staged registers in force -/

theorem leWord : t.leWord h b = s.leWord h b := by rw [State.leWord, e.engine hb, e.progWord, State.leWord]

theorem leReg {o : Nat} (lo : 0x20 ≤ o) (hi : o < 0x400) : t.leReg h b o = s.leReg h b o := by
  rw [State.leReg, e.engine hb, e.reg hb lo hi, State.leReg]

theorem leGet {f : Fld} (lo : 0x20 ≤ f.addr) (hi : f.addr < 0x400) : t.leGet h b f = s.leGet h b f := by
  rw [State.leGet, e.leReg hb lo hi, State.leGet]

theorem leWide {o : Nat} (lo : 0x20 ≤ o) (hi : o + 1 < 0x400) : t.leWide h b o = s.leWide h b o := by
  rw [State.leWide, e.leReg hb lo (by omega), e.leReg hb (by omega) hi, State.leWide]

theorem lePer {i : Nat} (hi : i < 4) : t.lePer h b i = s.lePer h b i := by
  rw [State.lePer, e.leReg hb (by unfold Reg.LE_PER; omega) (by unfold Reg.LE_PER; omega), State.lePer]

theorem leW : t.leW h b = s.leW h b := by rw [State.leW, e.leGet hb (by decide) (by decide), State.leW]

theorem leCrcFit (v : BitVec 32) : t.leCrcFit h b v = s.leCrcFit h b v := by
  rw [State.leCrcFit, e.leW hb, State.leCrcFit]

/-! ## Conditions and times -/

theorem leBt : t.leBt h b = s.leBt h b := by rw [State.leBt, e.engine hb, e.onTref, State.leBt]

theorem leBoundary : t.leBoundary h b = s.leBoundary h b := by
  rw [State.leBoundary, e.engine hb, e.onTref, State.leBoundary]

theorem leEntry : t.leEntry h b = s.leEntry h b := by rw [State.leEntry, e.line hb, State.leEntry]

theorem robust (rate : Nat) : t.robust h b rate = s.robust h b rate := by
  unfold State.robust
  rw [e.get hb (by decide) (by decide), e.defaults]

theorem leTest (w : BitVec 32) : t.leTest h b w = s.leTest h b w := by
  have cond (c : Nat) : t.leCond h b c = s.leCond h b c := by
    unfold State.leCond
    simp only [e.engine hb, e.leEntry hb, e.robust hb, e.leGet hb (f := Reg.LE_STUFF_RUN) (by decide) (by decide),
      e.leGet hb (f := Reg.LE_EDGE_POL) (by decide) (by decide)]
  rw [State.leTest, cond, State.leTest]

theorem leFaultCode (w : BitVec 32) : t.leFaultCode h b w = s.leFaultCode h b w := by
  rw [State.leFaultCode, e.engine hb, e.flag hb (by decide) (by decide), State.leFaultCode]

theorem leBreaks : t.leBreaks h b = s.leBreaks h b := by
  rw [State.leBreaks, e.engine hb, e.flag hb (by decide) (by decide), e.get hb (by decide) (by decide), State.leBreaks]

theorem leExecutes : t.leExecutes h b = s.leExecutes h b := by
  rw [State.leExecutes, e.engine hb, e.leBreaks hb, e.power, State.leExecutes]

theorem leAt (op : Nat) : t.leAt h b op = s.leAt h b op := by
  rw [State.leAt, e.leExecutes hb, e.leWord hb, e.leFaultCode hb, State.leAt]

theorem leWaits (op : Nat) : t.leWaits h b op = s.leWaits h b op := by
  rw [State.leWaits, e.engine hb, e.leWord hb, State.leWaits]

theorem leByte (i : Nat) : t.leByte h b i = s.leByte h b i := by rw [State.leByte, e.line hb, State.leByte]

theorem leEdgeStart : t.leEdgeStart h b = s.leEdgeStart h b := by
  rw [State.leEdgeStart, e.engine hb, e.leGet hb (by decide) (by decide), State.leEdgeStart]

theorem lineTripped : t.lineTripped h b = s.lineTripped h b := by
  rw [State.lineTripped, e.flag hb (by decide) (by decide), e.flag hb (by decide) (by decide), State.lineTripped]

theorem lockOk : t.lockOk h b = s.lockOk h b := by
  rw [State.lockOk, State.carrier, e.flag hb (by decide) (by decide), e.synth, State.lockOk, State.carrier]

end EngineElsewhere

/-! ## The copies' turns (R23) -/

/-- The state in which an event comes to half h's copy. -/
def State.turn (h : Half) (f : Half → State → State) (s : State) : State :=
  match h with
  | .A => s
  | .B => if s.computes .A then f .A s else s

section

variable {α : Type} {view : State → α} {f : Half → State → State} {h : Half} (s : State)
    (hidden : ∀ u, view (f h.other u) = view u)
include hidden

theorem view_turn : view (s.turn h f) = view s := by
  cases h with
  | A => rfl
  | B =>
    unfold State.turn
    dsimp only
    split
    · exact hidden s
    · rfl

/-- Of an event in the copies, a view that does not show the other half's shows that of half h alone. -/
theorem view_onCopies_turn (runs : (s.turn h f).computes h = true) : view (s.onCopies f) = view (f h (s.turn h f)) := by
  unfold State.onCopies
  dsimp only
  cases h with
  | A =>
    unfold State.turn at runs ⊢
    dsimp only at runs ⊢
    rw [if_pos runs]
    split
    · exact hidden _
    · rfl
  | B =>
    unfold State.turn at runs ⊢
    dsimp only at runs ⊢
    rw [if_pos runs]

end

/-- An act on a bay's engine in either half changes what only the other half's engines do not go by. -/
def ActsOnEngine (f : Half → State → State) : Prop := ∀ h u, (f h.other u).ground h = u.ground h

section

variable {f : Half → State → State} {h : Half} {s : State} {b : Nat} (acts : ActsOnEngine f) (runs : s.computes h = true)
include acts

theorem turn_engineElsewhere : EngineElsewhere h s (s.turn h f) := view_turn s (acts h)

include runs

theorem onCopies_engineElsewhere : EngineElsewhere h (f h (s.turn h f)) (s.onCopies f) :=
  view_onCopies_turn s (acts h) (((turn_engineElsewhere acts).computes h).trans runs)

theorem leEvent_engineElsewhere : EngineElsewhere h (f h (s.turn h f)) (leEvent b f s) :=
  (onCopies_engineElsewhere acts runs).trans (ground_syncLinePath h b _)

/-- What an act on half h's copy brings about there holds after the event in the copies. -/
theorem leEvent_gives {c : Instr} {Q : State → Prop} (answer : exec c s = .next (leEvent b f s))
    (effect : ∀ v t, v = s.turn h f → EngineElsewhere h s v → EngineElsewhere h (f h v) t → Q t) : Gives c s Q :=
  .intro answer (effect _ _ rfl (turn_engineElsewhere acts) (leEvent_engineElsewhere acts runs))

end

/-- A microinstruction in a copy: the act on its opcode, and on a test of its word. -/
def onInstr (b op : Nat) (p : BitVec 32 → Bool) (f : Half → State → State) (h : Half) (s : State) : State :=
  if s.leAt h b op && p (s.leWord h b) then f h s else s

/-- An act of an engine that shows to no other is one on a condition. -/
theorem ActsOnEngine.when {f : Half → State → State} (acts : ActsOnEngine f) (p : Half → State → Bool) :
    ActsOnEngine fun h s => if p h s then f h s else s := fun h u => by
  dsimp only
  split
  · exact acts h u
  · rfl

/-- Where the instruction at the PC is of the kind, what the act on half h's copy brings about there holds after it. -/
theorem leInstr_gives {c : Instr} {b op : Nat} {p : BitVec 32 → Bool} {f : Half → State → State} {h : Half} {s : State}
    {Q : State → Prop} (answer : exec c s = leInstr b op p f s) (acts : ActsOnEngine f) (hb : b < 64)
    (runs : s.computes h = true) (here : s.leAt h b op = true) (word : p (s.leWord h b) = true)
    (effect : ∀ v t, v = s.turn h (onInstr b op p f) → EngineElsewhere h s v → EngineElsewhere h (f h v) t → Q t) :
    Gives c s Q := by
  refine leEvent_gives (f := onInstr b op p f) (acts.when _) runs answer fun v t turn before after => effect v t turn before ?_
  rwa [onInstr, before.leAt hb, before.leWord hb, here, word, Bool.and_self, if_pos rfl] at after

end Sys2Proof.Machine
end

section
/-! PROOF. What the branch, cell, register, buffer and CRC microinstructions do to the engine (O17): each act on a copy's engine
in its own terms, and the terms are the same before the copy's turn comes (R23). -/

namespace Sys2Proof.Machine

/-! ## The engine goes on (R254) -/

/-- An engine that goes on at an address. -/
def Engine.goes (x : Engine) (pc : Nat) : Engine :=
  { x with pc := pc % 256, skipBreak := false, stepping := false, waiting := none,
           mode := if x.mode = .halted then .halted else .active }

/-- An engine that goes on at the next address. -/
def Engine.next (x : Engine) : Engine := x.goes (x.pc + 1)

section

variable (h : Half) (b : Nat) (s : State)

@[simp] theorem engine_leUp (f : Engine → Engine) : (leUp h b f s).engine h b = f (s.engine h b) :=
  State.engine_setEngine _ _ _ _

@[simp] theorem engine_leGo (pc : Nat) : (leGo h b pc s).engine h b = (s.engine h b).goes pc :=
  State.engine_setEngine _ _ _ _

@[simp] theorem engine_leNext : (leNext h b s).engine h b = (s.engine h b).next := engine_leGo h b s _

/-- The effect of most instructions. -/
theorem engine_leNext_leUp (f : Engine → Engine) : (leNext h b (leUp h b f s)).engine h b = (f (s.engine h b)).next := by
  rw [engine_leNext, engine_leUp]

end

theorem wbits_lt_256 (w : BitVec 32) : wbits w 7 0 < 256 := Nat.mod_lt _ (by decide)

/-! ## Branches -/

section

variable (h : Half) (b : Nat) (s : State)

theorem pc_leBr : ((leBr h b s).engine h b).pc =
    if s.leTest h b (s.leWord h b) = true then wbits (s.leWord h b) 7 0 else ((s.engine h b).pc + 1) % 256 := by
  unfold leBr
  dsimp only
  split
  · rw [engine_leGo]
    exact Nat.mod_eq_of_lt (wbits_lt_256 _)
  · rw [engine_leNext]
    rfl

/-- CALL, where it calls. -/
theorem engine_leCall_call (calls : wbits (s.leWord h b) 27 27 ≠ 1) :
    (leCall h b s).engine h b =
      { s.engine h b with links := ((s.engine h b).pc + 1) % 256 :: (s.engine h b).links }.goes (wbits (s.leWord h b) 7 0) := by
  unfold leCall
  dsimp only
  rw [if_neg calls, engine_leGo, State.engine_setEngine]

/-- CALL, where it returns. -/
theorem engine_leCall_return (returns : wbits (s.leWord h b) 27 27 = 1) (some : (s.engine h b).links ≠ []) :
    (leCall h b s).engine h b =
      { s.engine h b with links := (s.engine h b).links.tail }.goes ((s.engine h b).links.headD 0) := by
  unfold leCall
  dsimp only
  rw [if_pos returns]
  split
  · next a l links =>
    rw [engine_leGo, State.engine_setEngine, links]
    rfl
  · next empty => exact absurd empty some

end

/-! ## Cells (R254) -/

theorem Engine.cell_setCell (x : Engine) (i : Nat) (v : BitVec 16) : (x.setCell i v).cell i = v := tblGet_tblSet_same _ _ _ _

theorem Engine.cell_setCell_other (x : Engine) {i j : Nat} (v : BitVec 16) (other : j ≠ i) :
    (x.setCell i v).cell j = x.cell j := tblGet_tblSet_other _ _ _ other

/-- The second operand of an ALU instruction. -/
def Engine.aluOperand (x : Engine) (w : BitVec 32) : BitVec 16 :=
  if isField 18 18 1 w = true then BitVec.ofNat 16 (wbits w 15 0) else x.cell (wbits w 24 22)

section

variable {h : Half} {b : Nat} {s : State}

theorem engine_leLdi : (leLdi h b s).engine h b =
    ((s.engine h b).setCell (wbits (s.leWord h b) 27 25) (BitVec.ofNat 16 (wbits (s.leWord h b) 15 0))).next :=
  engine_leNext_leUp h b s _

theorem engine_leAlu_add {a y : BitVec 16} (add : wbits (s.leWord h b) 21 19 = 0)
    (ha : a = (s.engine h b).cell (wbits (s.leWord h b) 27 25)) (hy : y = (s.engine h b).aluOperand (s.leWord h b)) :
    (leAlu h b s).engine h b =
      { (s.engine h b).setCell (wbits (s.leWord h b) 27 25) (a + y) with
        z := decide (a + y = 0), c := decide (0x10000 ≤ a.toNat + y.toNat) }.next := by
  rw [leAlu, engine_leNext_leUp, add, ha, hy, Engine.aluOperand]
  simp only [isField, decide_eq_true_eq]

theorem engine_leAlu_sub {a y : BitVec 16} (sub : wbits (s.leWord h b) 21 19 = 1)
    (ha : a = (s.engine h b).cell (wbits (s.leWord h b) 27 25)) (hy : y = (s.engine h b).aluOperand (s.leWord h b)) :
    (leAlu h b s).engine h b =
      { (s.engine h b).setCell (wbits (s.leWord h b) 27 25) (a - y) with
        z := decide (a - y = 0), c := decide (a.toNat < y.toNat) }.next := by
  rw [leAlu, engine_leNext_leUp, sub, ha, hy, Engine.aluOperand]
  simp only [isField, decide_eq_true_eq]

/-- An engine after DJNZ has taken a cell to a value (R254). -/
def Engine.counted (x : Engine) (i : Nat) (v : BitVec 16) : Engine := { x.setCell i v with z := decide (v = 0) }

theorem engine_leDjnz {v : BitVec 16} (hv : v = (s.engine h b).cell (wbits (s.leWord h b) 27 25) - 1) :
    (leDjnz h b s).engine h b =
      ((s.engine h b).counted (wbits (s.leWord h b) 27 25) v).goes
        (if v = 0 then (s.engine h b).pc + 1 else wbits (s.leWord h b) 7 0) := by
  subst hv
  unfold leDjnz
  dsimp only
  split
  · rw [engine_leNext_leUp]
    rfl
  · rw [engine_leGo, engine_leUp]
    rfl

/-! ## Specials (R256) -/

theorem engine_leMov_read (reads : wbits (s.leWord h b) 27 27 = 0) :
    (leMov h b s).engine h b =
      ((s.engine h b).setCell (wbits (s.leWord h b) 26 24)
        (s.leSpecial h b (wbits (s.leWord h b) 23 20) (isField 19 19 1 (s.leWord h b)))).next := by
  rw [leMov, engine_leNext_leUp, if_pos reads]
  rfl

theorem engine_leMov_tsr (writes : wbits (s.leWord h b) 27 27 = 1) (tsr : wbits (s.leWord h b) 23 20 = 0) :
    (leMov h b s).engine h b =
      { s.engine h b with
        tsr := withHalf (isField 19 19 1 (s.leWord h b)) (s.engine h b).tsr
          ((s.engine h b).cell (wbits (s.leWord h b) 26 24)) }.next := by
  rw [leMov, engine_leNext_leUp, writes, if_neg (by decide), tsr]
  rfl

theorem halfOf_withHalf (hi : Bool) (v : BitVec 32) (x : BitVec 16) : halfOf hi (withHalf hi v x) = x := by
  apply BitVec.eq_of_toNat_eq
  have := x.isLt
  have := v.isLt
  cases hi <;> simp [halfOf, withHalf] <;> omega

theorem halfOf_withHalf_other (hi : Bool) (v : BitVec 32) (x : BitVec 16) :
    halfOf (!hi) (withHalf hi v x) = halfOf (!hi) v := by
  apply BitVec.eq_of_toNat_eq
  have := x.isLt
  have := v.isLt
  cases hi <;> simp [halfOf, withHalf]
  omega

/-! ## Bytes of the buffer and of the assembly (R254, R273) -/

/-- A charge is no matter to the engine's own copy. -/
theorem chargeLine_elsewhere (h : Half) (b : Nat) (s : State) : EngineElsewhere h s (chargeLine h b s) :=
  (ground_chargeUnseen h h).chargeLine b s

theorem leByte_lt (i : Nat) : s.leByte h b i < 256 := by
  unfold State.leByte
  split
  · split
    · exact BitVec.isLt _
    · decide
  · decide

/-- Bytes in TSR, the first in its lowest or in its highest place. -/
def bytesWord (lsb : Bool) (n : Nat) (byte : Nat → Nat) : Nat :=
  ((List.range n).map fun j => byte j * 256 ^ (if lsb = true then j else 3 - j)).sum

theorem bytesWord_low_mod (n : Nat) (byte : Nat → Nat) : bytesWord true (n + 1) byte % 256 = byte 0 % 256 := by
  have rest : bytesWord true (n + 1) byte = byte 0 + 256 * bytesWord true n fun j => byte (j + 1) := by
    simp only [bytesWord, List.range_succ_eq_map, List.map_cons, List.map_map, List.sum_cons, if_true, pow_zero, mul_one,
      ← List.sum_map_mul_left]
    congr 2
    exact List.map_congr_left fun j _ => by
      simp only [Function.comp_apply, pow_succ]
      ring
  rw [rest, Nat.add_mul_mod_self_left]

theorem bytesWord_high_div {n : Nat} (hn : n < 4) {byte : Nat → Nat} (lt : ∀ j, byte j < 256) :
    (BitVec.ofNat 32 (bytesWord false (n + 1) byte)).toNat / 0x1000000 = byte 0 := by
  have h0 := lt 0
  have h1 := lt 1
  have h2 := lt 2
  have h3 := lt 3
  unfold bytesWord
  interval_cases n <;> simp [List.range_succ] <;> omega

/-- The byte in the first place is the first. -/
theorem bytesWord_first (lsb : Bool) {n : Nat} (hn : n < 4) {byte : Nat → Nat} (lt : ∀ j, byte j < 256) :
    (BitVec.ofNat 32 (bytesWord lsb (n + 1) byte)).toNat / (if lsb = true then 1 else 0x1000000) % 256 = byte 0 := by
  cases lsb with
  | false =>
    rw [if_neg Bool.false_ne_true, bytesWord_high_div hn lt]
    exact Nat.mod_eq_of_lt (lt 0)
  | true =>
    rw [if_pos rfl, Nat.div_one, BitVec.toNat_ofNat, Nat.mod_mod_of_dvd _ ⟨0x1000000, by norm_num⟩, bytesWord_low_mod]
    exact Nat.mod_eq_of_lt (lt 0)

/-- An engine after GET of n bytes through a cell (R254). -/
def Engine.got (x : Engine) (w : BitVec 32) (byte : Nat → Nat) : Engine :=
  let y := { x with
    tsr := BitVec.ofNat 32 (bytesWord (isField 22 22 1 w) (wbits w 24 23 + 1) fun j => byte ((x.cell (wbits w 27 25)).toNat + j)) }
  if isField 21 21 1 w = true then
    y.setCell (wbits w 27 25) (BitVec.ofNat 16 ((x.cell (wbits w 27 25)).toNat + (wbits w 24 23 + 1)))
  else y

theorem Engine.tsr_got (x : Engine) (w : BitVec 32) (byte : Nat → Nat) :
    (x.got w byte).tsr =
      BitVec.ofNat 32 (bytesWord (isField 22 22 1 w) (wbits w 24 23 + 1) fun j => byte ((x.cell (wbits w 27 25)).toNat + j)) := by
  unfold Engine.got
  dsimp only
  split <;> rfl

theorem Engine.cell_got (x : Engine) (w : BitVec 32) (byte : Nat → Nat) :
    (x.got w byte).cell (wbits w 27 25) =
      if isField 21 21 1 w = true then
        BitVec.ofNat 16 ((x.cell (wbits w 27 25)).toNat + (wbits w 24 23 + 1))
      else x.cell (wbits w 27 25) := by
  unfold Engine.got
  dsimp only
  split
  · exact Engine.cell_setCell _ _ _
  · rfl

section

variable (hb : b < 64)
include hb

theorem engine_leGet : (leGet h b s).engine h b = ((s.engine h b).got (s.leWord h b) (s.leByte h b)).next := by
  have charge := chargeLine_elsewhere h b s
  have byte : (chargeLine h b s).leByte h b = s.leByte h b := funext (charge.leByte hb)
  rw [leGet, engine_leNext_leUp, charge.engine hb, charge.leWord hb, byte]
  simp only [Engine.got, bytesWord, isField, decide_eq_true_eq]

theorem engine_lePut {a : Assembly} {l : List Byte} (opened : (s.engine h b).assembly = some a)
    (hl : l = a.bytes ++ rsrBytes (isField 22 22 1 (s.leWord h b)) (wbits (s.leWord h b) 24 23 + 1) (s.engine h b).rsr) :
    (lePut h b s).engine h b =
      { s.engine h b with
        assembly := some { a with bytes := l.take 64 }, ovf := (s.engine h b).ovf || decide (64 < l.length) }.next := by
  have charge := chargeLine_elsewhere h b s
  rw [lePut, engine_leNext_leUp, charge.engine hb, charge.leWord hb, hl]
  simp only [opened, isField]
  rfl

end

/-! ## The CRC (R255) -/

theorem engine_leCrcInit : (leCrcInit h b s).engine h b =
    { s.engine h b with crc := s.leCrcFit h b (s.leWide h b Reg.LE_CRC_INIT) }.next := engine_leNext_leUp h b s _

theorem engine_leCrcCheck : (leCrcCheck h b s).engine h b =
    { s.engine h b with crcok := decide ((s.engine h b).crc = 0) }.next := engine_leNext_leUp h b s _

theorem engine_leCrcLoad : (leCrcLoad h b s).engine h b =
    { s.engine h b with
      tsr := if s.leGet h b Reg.LE_CRC_CFG_DIR = 0 then (s.engine h b).crc <<< (32 - s.leW h b) else (s.engine h b).crc }.next :=
  engine_leNext_leUp h b s _

end

/-! ## What an instruction that is executed without a fault goes by (R257) -/

section

variable {h : Half} {b op : Nat} {s : State}

theorem opcode_of_leAt (here : s.leAt h b op = true) : wbits (s.leWord h b) 31 28 = op := by
  simp only [State.leAt, Bool.and_eq_true, decide_eq_true_eq] at here
  exact here.1.2

theorem leFaultCode_of_leAt (here : s.leAt h b op = true) : s.leFaultCode h b (s.leWord h b) = none := by
  simp only [State.leAt, Bool.and_eq_true, Option.isNone_iff_eq_none] at here
  exact here.2

/-- A return finds a link. -/
theorem links_of_leAt (here : s.leAt h b 1 = true) (returns : wbits (s.leWord h b) 27 27 = 1) : (s.engine h b).links ≠ [] := by
  intro empty
  have fault := leFaultCode_of_leAt here
  simp [State.leFaultCode, opcode_of_leAt here, returns, empty] at fault
  split_ifs at fault

end

theorem isField_eq {hi lo v : Nat} {w : BitVec 32} (word : isField hi lo v w = true) : wbits w hi lo = v :=
  of_decide_eq_true word

theorem wbits_lt (w : BitVec 32) (hi lo : Nat) : wbits w hi lo < 2 ^ (hi + 1 - lo) := Nat.mod_lt _ (by positivity)

/-- A special reads the same in a copy where the count of free values is the same too (R256). -/
theorem EngineElsewhere.leSpecial {h : Half} {s t : State} {b i : Nat} (e : EngineElsewhere h s t) (hb : b < 64) (hi : i < 16)
    (free : t.freeCount = s.freeCount) (high : Bool) : t.leSpecial h b i high = s.leSpecial h b i high := by
  have arg : t.reg (bayKey h b + Reg.LE_ARG + (i - 9)) = s.reg (bayKey h b + Reg.LE_ARG + (i - 9)) := by
    rw [Nat.add_assoc]
    exact e.reg hb (by unfold Reg.LE_ARG; omega) (by unfold Reg.LE_ARG; omega)
  unfold State.leSpecial
  simp only [e.engine hb, e.leBt hb, e.leEntry hb, e.robust hb, e.onTref, free, arg]

/-- The other half's MOV counts no free value. -/
theorem freeCount_turn_leMov (h : Half) (b : Nat) (s : State) :
    (s.turn h (onInstr b 9 anyWord fun h => leMov h b)).freeCount = s.freeCount :=
  view_turn (view := State.freeCount) s fun u => by
    unfold onInstr
    split
    · rfl
    · rfl

/-! ## The obligation -/

/-- Settles O17: each instruction's effect on the engine, in the copy's turn, is one of what the other half's engine leaves. -/
theorem engineInstructionsCompute : Obligations.EngineInstructionsCompute := by
  refine ⟨fun h b s runs here => ?_, fun h b s runs here => ?_, fun h b s runs here => ?_,
    fun h b a y s runs here fn ha hy => ?_, fun h b a y s runs here fn ha hy => ?_, fun h b v s runs here hv => ?_,
    fun h b s runs here reads => ?_, fun h b s runs here writes tsr => ?_, fun h b c n s runs here hc hn => ?_,
    fun h b a l s runs here opened hl => ?_, fun h b s runs here init => ?_, fun h b s runs here check => ?_,
    fun h b s runs here load => ?_⟩
  · refine leInstr_gives rfl (fun h u => (ground_budgetUnseen h b.isLt).leBr u) b.isLt runs here rfl fun v t _ e after => ?_
    rw [after.engine b.isLt, pc_leBr, e.leTest b.isLt, e.leWord b.isLt, e.engine b.isLt]
  · refine leInstr_gives rfl (fun h u => (ground_budgetUnseen h b.isLt).leCall u) b.isLt runs here rfl fun v t _ e after => ?_
    rw [after.engine b.isLt, ← e.leWord b.isLt, ← e.engine b.isLt]
    split
    · next returns =>
      have some := links_of_leAt ((e.leAt b.isLt 1).trans here) (isField_eq returns)
      rw [engine_leCall_return h _ v (isField_eq returns) some]
      exact ⟨rfl, rfl⟩
    · next calls =>
      rw [engine_leCall_call h _ v fun call => calls (decide_eq_true call)]
      exact ⟨rfl, Nat.mod_eq_of_lt (wbits_lt_256 _)⟩
  · refine leInstr_gives rfl (fun h u => (ground_budgetUnseen h b.isLt).leLdi u) b.isLt runs here rfl fun v t _ e after => ?_
    rw [after.engine b.isLt, engine_leLdi, e.leWord b.isLt, e.engine b.isLt]
    exact ⟨Engine.cell_setCell _ _ _, fun i _ other => Engine.cell_setCell_other _ _ other, rfl⟩
  · refine leInstr_gives rfl (fun h u => (ground_budgetUnseen h b.isLt).leAlu u) b.isLt runs here rfl fun v t _ e after => ?_
    rw [← e.leWord b.isLt, ← e.engine b.isLt] at ha hy
    rw [← e.leWord b.isLt] at fn ⊢
    rw [after.engine b.isLt, engine_leAlu_add (isField_eq fn) ha hy]
    exact ⟨Engine.cell_setCell _ _ _, rfl, rfl⟩
  · refine leInstr_gives rfl (fun h u => (ground_budgetUnseen h b.isLt).leAlu u) b.isLt runs here rfl fun v t _ e after => ?_
    rw [← e.leWord b.isLt, ← e.engine b.isLt] at ha hy
    rw [← e.leWord b.isLt] at fn ⊢
    rw [after.engine b.isLt, engine_leAlu_sub (isField_eq fn) ha hy]
    exact ⟨Engine.cell_setCell _ _ _, rfl, rfl⟩
  · refine leInstr_gives rfl (fun h u => (ground_budgetUnseen h b.isLt).leDjnz u) b.isLt runs here rfl fun w t _ e after => ?_
    rw [← e.leWord b.isLt, ← e.engine b.isLt] at hv ⊢
    rw [after.engine b.isLt, engine_leDjnz hv]
    refine ⟨Engine.cell_setCell _ _ _, rfl, ?_⟩
    show (if v = 0 then _ else _) % 256 = _
    rw [apply_ite (· % 256), Nat.mod_eq_of_lt (wbits_lt_256 _)]
  · refine leInstr_gives rfl (fun h u => (ground_budgetUnseen h b.isLt).leMov u) b.isLt runs here rfl fun v t turn e after => ?_
    have free : v.freeCount = s.freeCount := turn ▸ freeCount_turn_leMov h b.val s
    rw [← e.leWord b.isLt] at reads ⊢
    rw [after.engine b.isLt, engine_leMov_read (isField_eq reads), ← e.leSpecial b.isLt (wbits_lt _ 23 20) free]
    exact Engine.cell_setCell _ _ _
  · refine leInstr_gives rfl (fun h u => (ground_budgetUnseen h b.isLt).leMov u) b.isLt runs here rfl fun v t _ e after => ?_
    rw [← e.leWord b.isLt] at writes tsr ⊢
    rw [after.engine b.isLt, engine_leMov_tsr (isField_eq writes) (isField_eq tsr), ← e.engine b.isLt]
    exact ⟨halfOf_withHalf _ _ _, halfOf_withHalf_other _ _ _⟩
  · refine leInstr_gives rfl (fun h u => (ground_budgetUnseen h b.isLt).leGet u) b.isLt runs here rfl fun v t _ e after => ?_
    subst hc hn
    rw [after.engine b.isLt, engine_leGet b.isLt, ← e.leWord b.isLt, ← e.engine b.isLt, ← e.leByte b.isLt]
    refine ⟨?_, Engine.cell_got _ _ _⟩
    show ((v.engine h b.val).got _ _).tsr.toNat / _ % 256 = _
    rw [Engine.tsr_got]
    exact bytesWord_first _ (wbits_lt _ 24 23) fun j => leByte_lt _
  · refine leInstr_gives rfl (fun h u => (ground_budgetUnseen h b.isLt).lePut u) b.isLt runs here rfl fun v t _ e after => ?_
    rw [← e.leWord b.isLt, ← e.engine b.isLt] at hl
    rw [← e.engine b.isLt] at opened ⊢
    rw [after.engine b.isLt, engine_lePut b.isLt opened hl]
    exact ⟨rfl, rfl⟩
  · refine leInstr_gives rfl (fun h u => (ground_budgetUnseen h b.isLt).leCrcInit u) b.isLt runs here init
      fun v t _ e after => ?_
    rw [after.engine b.isLt, engine_leCrcInit, e.leWide b.isLt (by decide) (by decide), e.leCrcFit b.isLt]
    rfl
  · refine leInstr_gives rfl (fun h u => (ground_budgetUnseen h b.isLt).leCrcCheck u) b.isLt runs here check
      fun v t _ e after => ?_
    rw [after.engine b.isLt, engine_leCrcCheck, e.engine b.isLt]
    exact ⟨rfl, rfl⟩
  · refine leInstr_gives rfl (fun h u => (ground_budgetUnseen h b.isLt).leCrcLoad u) b.isLt runs here load
      fun v t _ e after => ?_
    rw [after.engine b.isLt, engine_leCrcLoad, e.engine b.isLt, e.leGet b.isLt (by decide) (by decide), e.leW b.isLt]
    rfl

end Sys2Proof.Machine
end

section
/-! SUPPORT. What the acts that close an attempt or an assembly bring to the engine and its line (R231, R244, R257 to R259,
R274). -/

namespace Sys2Proof.Machine

/-! ## The output and the staged registers (R261, R274) -/

/-- An engine whose output changes at a time. -/
def Engine.outputs (x : Engine) (t : Nat) (sym : Option Bool) (mod : Nat) (raw : Bool) : Engine :=
  let level := match sym with
    | some v => decide (mod = 1) || v
    | none => false
  { x with sym := sym, mod := mod, raw := raw, hist := ((t, level) :: x.hist).take 24 }

/-- An engine whose staged writes take effect. -/
def Engine.applied (x : Engine) (crc : BitVec 32) : Engine := { x with live := [], dirty := false, crc := crc }

section

variable {h : Half} {b : Nat} {s : State}

theorem engine_setOutput (sym : Option Bool) (mod : Nat) (raw : Bool) :
    (setOutput h b sym mod raw s).engine h b = (s.engine h b).outputs s.onTref sym mod raw := State.engine_setEngine _ _ _ _

theorem engine_applyLe : ∃ crc, (applyLe h b s).engine h b = (s.engine h b).applied crc := by
  refine ⟨((applyLe h b s).engine h b).crc, ?_⟩
  unfold applyLe
  dsimp only
  rw [State.engine_setEngine, State.engine_setEngine]
  rfl

theorem engine_of_engines {t : State} (same : t.engines = s.engines) : t.engine h b = s.engine h b := by
  rw [State.engine, same, State.engine]

theorem line_of_lines {t : State} (same : t.lines = s.lines) : t.line h b = s.line h b := by
  rw [State.line, same, State.line]

theorem engine_countLine (k : Nat) : (countLine h b k s).engine h b = s.engine h b :=
  engine_of_engines (State.count_engines _ _ _)

theorem line_countLine (k : Nat) : (countLine h b k s).line h b = s.line h b := line_of_lines (State.count_lines _ _ _)

theorem engine_endEntry (e st : Nat) : (endEntry h b e st s).engine h b = s.engine h b :=
  engine_of_engines (engines_endEntry e st s)

/-! ## Outcomes of an attempt (R231, R232) -/

/-- The counter of a failure's code counts (R244). -/
def countFailure (h : Half) (b st : Nat) (s : State) : State :=
  if st = St.LINE_NOACK then countLine h b cntNoAck s else if st = St.LINE_COLLISION then countLine h b cntColl s else s

theorem countFailure_cases (h : Half) (b st : Nat) (s : State) :
    (∃ k, countFailure h b st s = countLine h b k s) ∨ countFailure h b st s = s := by
  unfold countFailure
  split_ifs
  · exact .inl ⟨_, rfl⟩
  · exact .inl ⟨_, rfl⟩
  · exact .inr rfl

theorem lines_countFailure (st : Nat) : (countFailure h b st s).lines = s.lines := by
  obtain ⟨k, same⟩ | same := countFailure_cases h b st s
  · rw [same, countLine, State.count_lines]
  · rw [same]

theorem engines_countFailure (st : Nat) : (countFailure h b st s).engines = s.engines := by
  obtain ⟨k, same⟩ | same := countFailure_cases h b st s
  · rw [same, countLine, State.count_engines]
  · rw [same]

/-- A line whose entry's attempt is given up for another try (R231). -/
def Line.retried (l : Line) (e : Nat) : Line :=
  { l.setEntry e { l.entry e with tries := (l.entry e).tries + 1, settle := 0, cal := 0 } with attempt := none }

theorem failAttempt_none (none : (s.line h b).attempt = none) (st : Nat) : failAttempt h b st s = s := by
  unfold failAttempt
  simp only [none]

section

variable {e : Nat} (open_ : (s.line h b).attempt = some e) (st : Nat)
include open_

theorem failAttempt_cancelled (cancelled : ((s.line h b).entry e).cpend = true) :
    failAttempt h b st s =
      endEntry h b e (if (s.line h b).decided then St.SENT_CANCEL_LATE else st) (countFailure h b st s) := by
  unfold failAttempt countFailure
  simp only [open_, if_pos cancelled]

theorem failAttempt_retry (wanted : ((s.line h b).entry e).cpend = false)
    (left : ((s.line h b).entry e).tries < ((s.line h b).entry e).retry) :
    failAttempt h b st s = (countFailure h b st s).setLine h b ((s.line h b).retried e) := by
  unfold failAttempt countFailure
  simp only [open_]
  rw [if_neg (ne_true_of_eq_false wanted), if_pos left, Line.retried]

theorem failAttempt_last (wanted : ((s.line h b).entry e).cpend = false)
    (last : ¬ ((s.line h b).entry e).tries < ((s.line h b).entry e).retry) :
    failAttempt h b st s = endEntry h b e st (countFailure h b st s) := by
  unfold failAttempt countFailure
  simp only [open_]
  rw [if_neg (ne_true_of_eq_false wanted), if_neg last]

end

theorem engine_failAttempt (st : Nat) : (failAttempt h b st s).engine h b = s.engine h b := by
  have counted : (countFailure h b st s).engine h b = s.engine h b := engine_of_engines (engines_countFailure st)
  cases open_ : (s.line h b).attempt with
  | none => rw [failAttempt_none open_]
  | some e =>
    cases wanted : ((s.line h b).entry e).cpend with
    | true => rw [failAttempt_cancelled open_ st wanted, engine_endEntry, counted]
    | false =>
      by_cases left : ((s.line h b).entry e).tries < ((s.line h b).entry e).retry
      · rw [failAttempt_retry open_ st wanted left]
        exact counted
      · rw [failAttempt_last open_ st wanted left, engine_endEntry, counted]

/-! ## What the program leaves open is closed (R257, R258, R265) -/

theorem engine_leFailAttempt (st : Nat) :
    (leFailAttempt h b st s).engine h b = { s.engine h b with attempt := false } := by
  unfold leFailAttempt
  dsimp only
  split
  · rw [engine_settleP, engine_failAttempt, State.engine_setEngine]
  · next closed =>
    rw [← Bool.eq_false_iff.mpr closed]

theorem engine_loseAssembly : ∃ a, (loseAssembly h b s).engine h b = { s.engine h b with assembly := a } := by
  unfold loseAssembly
  dsimp only
  split
  · split
    · exact ⟨_, rfl⟩
    · exact ⟨_, by rw [engine_countLine, State.engine_setEngine]⟩
  · exact ⟨_, rfl⟩

theorem engine_leDropAssembly : (leDropAssembly h b s).engine h b = { s.engine h b with assembly := none } := by
  obtain ⟨a, lost⟩ := engine_loseAssembly (h := h) (b := b) (s := s)
  unfold leDropAssembly
  dsimp only
  rw [State.engine_setEngine, lost]

end

end Sys2Proof.Machine
end

section
/-! PROOF. What SYM, SMP, WAIT, ALIGN, IDLE, a line edge and a late bit do (O18): each act on a copy's engine in its own terms,
and the terms are the same before the copy's turn comes (R23). -/

namespace Sys2Proof.Machine

section

variable {h : Half} {b : Nat} {s : State}

/-! ## SYM (R250, R251, R255) -/

theorem engines_leSof (on : Bool) : (leSof h b on s).engines = s.engines := by
  unfold leSof
  dsimp only
  split
  · split
    · rfl
    · split
      · rfl
      · simp only [State.put_engines, State.setLine_engines]
  · split
    · rfl
    · rfl

theorem leWord_applyLe : (applyLe h b s).leWord h b = s.leWord h b := by
  obtain ⟨crc, applied⟩ := engine_applyLe (h := h) (b := b) (s := s)
  rw [State.leWord, applied, State.leWord]
  rfl

/-- Where no staged write waits, the registers in force are the same after all have taken effect. -/
theorem lePer_applyLe (clean : (s.engine h b).live = []) (i : Nat) : (applyLe h b s).lePer h b i = s.lePer h b i := by
  obtain ⟨crc, applied⟩ := engine_applyLe (h := h) (b := b) (s := s)
  have reg (o : Nat) : (applyLe h b s).reg o = s.reg o := rfl
  rw [State.lePer, State.leReg, applied, reg, State.lePer, State.leReg, clean]
  rfl

/-- SYM of a 1 at a shift boundary: the symbol goes out, and its bit starts where the one before ends. -/
theorem engine_leSym (boundary : s.leBoundary h b = true) (punctual : (s.engine h b).late = 0)
    (unstuffed : wbits (s.leWord h b) 17 17 = 0) (one : wbits (s.leWord h b) 25 23 = 2) (clean : (s.engine h b).live = []) :
    ∃ (y : Engine) (t : Nat), (leSym h b s).engine h b =
        (y.outputs t (some ((s.engine h b).sends (wbits (s.leWord h b) 22 21) true))
          (wbits (s.leWord h b) 22 21) true).next
      ∧ y.pc = (s.engine h b).pc
      ∧ y.bit = some ((match (s.engine h b).bit with
            | some (t, p) => t + p
            | none => s.onTref + 1), s.lePer h b (wbits (s.leWord h b) 27 26)) := by
  obtain ⟨crc, applied⟩ := engine_applyLe (h := h) (b := b) (s := s)
  have sof : (leSof h b true (noteBit h b true (applyLe h b s))).engine h b = (s.engine h b).applied crc :=
    (engine_of_engines (engines_leSof true)).trans applied
  unfold leSym
  rw [if_neg (by rw [boundary]; decide)]
  dsimp only
  rw [engine_leNext, engine_setOutput, engine_leUp, leWord_applyLe, lePer_applyLe clean, unstuffed, one, applied]
  simp only [OfNat.ofNat_ne_zero, ↓reduceIte, Nat.reduceEqDiff, zero_ne_one, OfNat.ofNat_ne_one, decide_false, decide_not,
    Bool.not_false, Bool.false_and, Bool.false_eq_true, or_self, sof, Engine.applied, punctual]
  exact ⟨_, _, rfl, rfl, rfl⟩

/-- Before the boundary SYM waits. -/
theorem leSym_before (before : s.leBoundary h b = false) : leSym h b s = s := by
  unfold leSym
  rw [if_pos (by rw [before]; rfl)]

/-! ## SMP (R252, R255) -/

/-- The bits of an SMP that shifts the sample into the low end of RSR, and does nothing else with it. -/
theorem wbits_shift_only {w : BitVec 32} (shifts : wbits w 24 21 = 8) :
    wbits w 24 24 = 1 ∧ wbits w 23 23 = 0 ∧ wbits w 22 22 = 0 ∧ wbits w 21 21 = 0 := by
  simp only [wbits, Nat.shiftRight_eq_div_pow] at *
  omega

theorem leInput_sampled (open_ : s.flag (bayKey h b) Reg.LE_CFG_LOOP = false) (i : Nat) (v : Bool) :
    s.leInput h b i v = v := by
  unfold State.leInput
  rw [if_neg (by rw [open_]; decide)]

/-- An engine that has sampled a bit into the low end of RSR. -/
def Engine.sampled (x : Engine) (input d ste : Bool) : Engine :=
  { x with rsr := (x.rsr <<< 1) ||| (if d = true then 1#32 else 0#32), stf := false, rxv := d, mis := input != x.raw, ste := ste }

theorem engine_leSmp {input : Bool} (reached : wbits (s.leWord h b) 15 0 ≤ s.leBt h b)
    (open_ : s.flag (bayKey h b) Reg.LE_CFG_LOOP = false) (shifts : wbits (s.leWord h b) 24 21 = 8) :
    (leSmp h b input s).engine h b =
      ((s.engine h b).sampled input (input != isField 25 25 1 (s.leWord h b)) false).next := by
  obtain ⟨shift, low, crc, stuff⟩ := wbits_shift_only shifts
  unfold leSmp
  dsimp only
  rw [if_neg (by omega), engine_leNext_leUp, leInput_sampled open_, shift, low, crc, stuff]
  rfl

/-! ## WAIT (R254) -/

theorem engine_leWait : (leWait h b s).engine h b = { s.engine h b with waiting := some s.onTref } := engine_leUp h b s _

theorem engine_leWaitEnd (ends : s.leTest h b (s.leWord h b) = true ∨ (wbits (s.leWord h b) 21 20 = 2
      ∧ (s.engine h b).waiting.getD s.onTref + 200 * wbits (s.leWord h b) 15 0 ≤ s.onTref)) :
    (leWaitEnd h b s).engine h b = { s.engine h b with tmo := !s.leTest h b (s.leWord h b) }.next := by
  unfold leWaitEnd
  dsimp only
  cases test : s.leTest h b (s.leWord h b) with
  | true =>
    rw [if_pos rfl, engine_leNext_leUp]
    rfl
  | false =>
    obtain ⟨timed, elapsed⟩ := ends.resolve_left (ne_true_of_eq_false test)
    rw [if_neg Bool.false_ne_true, timed]
    refine (congrArg (State.engine · h b) (if_pos (decide_eq_true elapsed))).trans ?_
    rw [engine_leNext_leUp]
    rfl

/-! ## ALIGN (R254) -/

theorem engine_leAlignStop (boundary : s.leBoundary h b = true) :
    (leAlignStop h b s).engine h b =
      { (s.engine h b).outputs s.onTref none 0 false with bit := none, late := 0, edgeF := false }.next := by
  unfold leAlignStop
  rw [if_pos boundary, engine_leNext_leUp, engine_setOutput]

theorem engine_leAlignEdge {e : Nat} (start : s.leEdgeStart h b = some e) :
    (leAlignEdge h b s).engine h b =
      { s.engine h b with
        bit := some (e, s.lePer h b (wbits (s.leWord h b) 25 24)), lastPer := s.lePer h b (wbits (s.leWord h b) 25 24)
        late := 0, edgeF := false }.next := by
  unfold leAlignEdge
  dsimp only
  rw [engine_leNext_leUp, start, Option.getD_some]

theorem engine_leAlignSoft {e u p : Nat} (start : s.leEdgeStart h b = some e) (runs : (s.engine h b).bit = some (u, p)) :
    (leAlignSoft h b s).engine h b =
      { s.engine h b with
        edgeF := false
        bit := some (if e ≤ u + wbits (s.leWord h b) 15 0 ∧ u ≤ e + wbits (s.leWord h b) 15 0 then e else u, p) }.next := by
  unfold leAlignSoft
  dsimp only
  rw [engine_leNext_leUp, start]
  simp only [runs]

/-! ## IDLE (R258) -/

/-- An engine that begins to wait in IDLE, with all closed. -/
def Engine.idles (x : Engine) (t : Nat) : Engine :=
  { x with attempt := false, assembly := none, edgeF := false, mute := false, hears := none, waiting := some t,
           mode := if x.mode = .halted then .halted else .idle }

theorem engine_leIdle : ∃ crc, (leIdle h b s).engine h b = ((s.engine h b).idles s.onTref).applied crc := by
  unfold leIdle
  dsimp only
  obtain ⟨crc, applied⟩ := engine_applyLe (h := h) (b := b) (s := leUp h b (fun x =>
    { x with edgeF := false, mute := false, hears := none, waiting := some s.onTref,
             mode := if x.mode = .halted then .halted else .idle })
    (if (s.engine h b).attempt || (s.engine h b).assembly.isSome then
      (leDropAssembly h b (leFailAttempt h b St.LINE_ABORTED s)).put (bayKey h b) Reg.LE_STAT_NOFIN 1
    else leDropAssembly h b (leFailAttempt h b St.LINE_ABORTED s)))
  have noted (v : State) (p : Bool) :
      (if p then v.put (bayKey h b) Reg.LE_STAT_NOFIN 1 else v).engine h b = v.engine h b := by
    split
    · exact engine_of_engines (State.put_engines _ _ _ _)
    · rfl
  refine ⟨crc, applied.trans ?_⟩
  rw [engine_leUp, noted, engine_leDropAssembly, engine_leFailAttempt]
  rfl

theorem flag_leUp (f : Engine → Engine) (k : Nat) (g : Fld) : (leUp h b f s).flag k g = s.flag k g := rfl

theorem flag_applyLe (k : Nat) (g : Fld) : (applyLe h b s).flag k g = s.flag k g := rfl

/-- What the program left open is reported. -/
theorem noFin_leIdle (opened : (s.engine h b).attempt = true) :
    (leIdle h b s).flag (bayKey h b) Reg.LE_STAT_NOFIN = true := by
  unfold leIdle
  dsimp only
  rw [flag_applyLe, flag_leUp, if_pos (by rw [opened]; rfl)]
  exact flag_put_one _ _ (by decide) rfl

/-- IDLE resumes to receive. -/
theorem engine_leIdleReturn_edge (edge : (s.engine h b).edgeF = true) (listens : wbits (s.leWord h b) 26 26 = 1) :
    (leIdleReturn h b s).engine h b = { s.engine h b with rxe := true, txg := false, hears := some false }.next := by
  unfold leIdleReturn
  dsimp only
  rw [if_pos (by rw [edge, listens]; rfl), engine_leNext_leUp]

/-- IDLE resumes to transmit. -/
theorem leIdleReturn_turn {e : Nat} (quiet : (s.engine h b).edgeF = false) (turn : s.leTurn h b = some e)
    (sound : s.lineTripped h b = false) (locked : s.lockOk h b = true) (free : (s.synth (b / 8)).gated = false) :
    leIdleReturn h b s =
      leNext h b (leUp h b (fun x => { x with txg := true, rxe := false, attempt := true })
        (s.setLine h b { s.line h b with attempt := some e, sof := false, decided := false })) := by
  unfold leIdleReturn
  dsimp only
  rw [quiet, Bool.false_and, if_neg Bool.false_ne_true, turn]
  simp only [sound, locked, free]
  rw [if_neg Bool.false_ne_true, if_pos (by rw [Bool.and_false]; rfl)]

/-! ## A late bit and an edge (R248, R251) -/

theorem leLate_first {u p : Nat} (runs : (s.engine h b).bit = some (u, p)) (punctual : (s.engine h b).late = 0)
    (out : u + p < s.onTref ∨ u + p = s.onTref ∧ s.leAt h b 2 = false ∧ s.leAt h b 5 = false) :
    leLate h b s = (s.setEngine h b { s.engine h b with late := 1 }).count (bayKey h b + Reg.LE_CNT_LATE) 1 := by
  unfold leLate
  simp only [runs]
  refine if_pos ⟨punctual, ?_, ?_⟩
  · omega
  · obtain past | ⟨-, sym, align⟩ := out
    · exact .inr past
    · rw [sym, align]
      exact .inl rfl

theorem engine_leLate_second {u p : Nat} (runs : (s.engine h b).bit = some (u, p)) (late : (s.engine h b).late = 1)
    (out : u + 2 * p ≤ s.onTref) :
    (leLate h b s).engine h b = { (s.engine h b).outputs s.onTref none 0 false with late := 2 } := by
  unfold leLate
  simp only [runs]
  rw [if_neg (by rw [late]; omega), if_pos ⟨late, out⟩, engine_leUp, engine_setOutput]

/-- With a level that the conditions follow, its change is an edge that is recorded. -/
theorem edgeSelected_of_liveLevel {pol : Nat} {v : Bool} (live : liveLevel pol v = true) : edgeSelected pol v = true := by
  unfold liveLevel at live
  split at live
  · subst live
    rfl
  · cases v with
    | false => rfl
    | true => cases live
  · cases v <;> rfl
  · cases live

theorem engine_leEdge {v : Bool} (open_ : s.flag (bayKey h b) Reg.LE_CFG_LOOP = false) (change : (s.engine h b).level ≠ v) :
    (leEdge h b v s).engine h b =
      if edgeSelected (s.leGet h b Reg.LE_EDGE_POL) v = true then
        { s.engine h b with level := v, since := s.onTref, edge := some (s.onTref, s.timeNs), edgeF := true }
      else { s.engine h b with level := v, since := s.onTref } := by
  unfold leEdge
  dsimp only
  rw [leInput_sampled open_, if_neg (Ne.symm change), apply_ite (State.engine · h b), State.engine_setEngine,
    State.engine_setEngine]

end

/-! ## The obligation -/

/-- The other half's return from IDLE is no matter to the turn of a line in this one. -/
theorem leTurn_turn {h : Half} {b : Nat} (hb : b < 64) (s : State) :
    (s.turn h fun h s => if s.leWaits h b 13 then leIdleReturn h b s else s).leTurn h b = s.leTurn h b := by
  have before : LineElsewhere h s (s.turn h fun h s => if s.leWaits h b 13 then leIdleReturn h b s else s) :=
    view_turn s fun u => by
      split
      · exact (apartLines_frameUnseen h.other hb).leIdleReturn u
      · rfl
  exact before.leTurn hb

/-- Settles O18: each act's effect on the engine, its line and its log, in the copy's turn, is one of what the other half's
engine leaves. -/
theorem engineBitsAndWaits : Obligations.EngineBitsAndWaits := by
  refine ⟨fun h b s runs here boundary punctual unstuffed one clean => ?_, fun h b s runs before => ?_,
    fun h b input s runs here reached open_ shifts => ?_, fun h b s runs here => ?_, fun h b s runs waits ends => ?_,
    fun h b s runs here stop boundary => ?_, fun h b e s runs here edge start => ?_,
    fun h b e u p s runs here soft start bit => ?_, fun h b s runs here => ?_, fun h b s runs waits edge listens => ?_,
    fun h b e s runs waits quiet turn sound locked free => ?_, fun h b u p s runs bit punctual out room => ?_,
    fun h b u p s runs bit late out => ?_, fun h b rise s runs open_ change => ?_⟩
  · refine leInstr_gives rfl (fun h u => (ground_budgetUnseen h b.isLt).leSym u) b.isLt runs here rfl fun v t _ e after => ?_
    rw [← e.leWord b.isLt] at unstuffed one ⊢
    rw [← e.engine b.isLt] at punctual clean ⊢
    rw [after.engine b.isLt, ← e.lePer b.isLt (wbits_lt _ 27 26), ← e.onTref]
    obtain ⟨y, at_, result, pc, bit⟩ := engine_leSym ((e.leBoundary b.isLt).trans boundary) punctual (isField_eq unstuffed)
      (isField_eq one) clean
    rw [result, ← pc]
    refine ⟨rfl, rfl, rfl, ?_, ?_, rfl⟩
    · exact congrArg (Option.map Prod.snd) bit
    · exact congrArg (Option.map Prod.fst) bit
  · refine leEvent_gives (f := onInstr b.val 2 anyWord fun h => leSym h b.val) (h := h)
      (ActsOnEngine.when (fun h u => (ground_budgetUnseen h b.isLt).leSym u) _) runs rfl fun v t _ e after => ?_
    have idle : onInstr b.val 2 anyWord (fun h => leSym h b.val) h v = v := by
      unfold onInstr
      dsimp only
      rw [leSym_before ((e.leBoundary b.isLt).trans before), ite_self]
    rw [after.engine b.isLt, idle, e.engine b.isLt]
  · refine leInstr_gives rfl (fun h u => (ground_budgetUnseen h b.isLt).leSmp u input) b.isLt runs here rfl
      fun v t _ e after => ?_
    rw [← e.leWord b.isLt] at reached shifts ⊢
    rw [← e.leBt b.isLt] at reached
    rw [after.engine b.isLt, engine_leSmp reached ((e.flag b.isLt (by decide) (by decide)).trans open_) (isField_eq shifts),
      e.engine b.isLt]
    exact ⟨rfl, rfl, rfl, rfl, rfl⟩
  · refine leInstr_gives rfl (fun h u => (ground_budgetUnseen h b.isLt).leWait u) b.isLt runs here rfl fun v t _ e after => ?_
    rw [after.engine b.isLt, engine_leWait, e.engine b.isLt, e.onTref]
    exact ⟨rfl, rfl⟩
  · refine leEvent_gives (h := h) (ActsOnEngine.when (fun h u => (ground_budgetUnseen h b.isLt).leWaitEnd u) _) runs rfl
      fun v t _ e after => ?_
    rw [← e.leWord b.isLt, ← e.leTest b.isLt, ← e.engine b.isLt, ← e.onTref] at ends
    rw [if_pos ((e.leWaits b.isLt 4).trans waits)] at after
    rw [after.engine b.isLt, engine_leWaitEnd (ends.imp_right (And.imp_left isField_eq)), e.leWord b.isLt, e.leTest b.isLt,
      e.engine b.isLt]
    exact ⟨rfl, rfl, rfl⟩
  · refine leInstr_gives rfl (fun h u => (ground_budgetUnseen h b.isLt).leAlignStop u) b.isLt runs here stop
      fun v t _ e after => ?_
    rw [after.engine b.isLt, engine_leAlignStop ((e.leBoundary b.isLt).trans boundary)]
    exact ⟨rfl, rfl, rfl⟩
  · refine leInstr_gives rfl (fun h u => (ground_budgetUnseen h b.isLt).leAlignEdge u) b.isLt runs here edge
      fun v t _ f after => ?_
    rw [after.engine b.isLt, engine_leAlignEdge ((f.leEdgeStart b.isLt).trans start), f.leWord b.isLt,
      f.lePer b.isLt (wbits_lt _ 25 24)]
    exact ⟨rfl, rfl⟩
  · refine leInstr_gives rfl (fun h u => (ground_budgetUnseen h b.isLt).leAlignSoft u) b.isLt runs here soft
      fun v t _ f after => ?_
    rw [← f.engine b.isLt] at bit
    rw [after.engine b.isLt, engine_leAlignSoft ((f.leEdgeStart b.isLt).trans start) bit, f.leWord b.isLt]
    exact ⟨rfl, rfl⟩
  · refine leInstr_gives rfl (fun h u => (ground_budgetUnseen h b.isLt).leIdle u) b.isLt runs here rfl fun v t _ e after => ?_
    obtain ⟨crc, idles⟩ := engine_leIdle (h := h) (b := b.val) (s := v)
    rw [after.engine b.isLt, after.flag b.isLt (by decide) (by decide), idles, ← e.onTref, ← e.engine b.isLt]
    exact ⟨rfl, rfl, rfl, rfl, noFin_leIdle⟩
  · refine leEvent_gives (h := h) (ActsOnEngine.when (fun h u => (ground_budgetUnseen h b.isLt).leIdleReturn u) _) runs rfl
      fun v t _ e after => ?_
    rw [← e.leWord b.isLt] at listens
    rw [← e.engine b.isLt] at edge
    rw [if_pos ((e.leWaits b.isLt 13).trans waits)] at after
    rw [after.engine b.isLt, engine_leIdleReturn_edge edge (isField_eq listens)]
    exact ⟨rfl, rfl, rfl⟩
  · refine leEvent_gives (h := h) (ActsOnEngine.when (fun h u => (ground_budgetUnseen h b.isLt).leIdleReturn u) _) runs rfl
      fun v t before f after => ?_
    have turn' : v.leTurn h b = some e := before ▸ (leTurn_turn b.isLt s).trans turn
    rw [← f.engine b.isLt] at quiet
    rw [if_pos ((f.leWaits b.isLt 13).trans waits), leIdleReturn_turn quiet turn' ((f.lineTripped b.isLt).trans sound)
      ((f.lockOk b.isLt).trans locked) ((congrArg Synth.gated (f.synth _)).trans free)] at after
    rw [after.engine b.isLt, after.line b.isLt, engine_leNext_leUp]
    have line (g : Engine → Engine) (u : State) : (leNext h b (leUp h b g u)).line h b = u.line h b := rfl
    rw [line, State.line_setLine]
    exact ⟨rfl, rfl, rfl, rfl, rfl⟩
  · refine leEvent_gives (h := h) (fun h u => (ground_budgetUnseen h b.isLt).leLate u) runs rfl fun v t _ e after => ?_
    rw [← e.engine b.isLt] at bit punctual ⊢
    rw [← e.onTref, ← e.leAt b.isLt, ← e.leAt b.isLt] at out
    rw [leLate_first bit punctual out] at after
    rw [after.engine b.isLt, engine_of_engines (State.count_engines _ _ _), State.engine_setEngine,
      after.reg b.isLt (by decide) (by decide), State.reg_count]
    refine ⟨rfl, rfl, ?_⟩
    have same : v.reg (bayKey h b.val + Reg.LE_CNT_LATE) = s.reg (bayKey h b.val + Reg.LE_CNT_LATE) :=
      e.reg b.isLt (by decide) (by decide)
    show min 0xFFFFF ((v.reg (bayKey h b.val + Reg.LE_CNT_LATE)).toNat + 1) = _
    rw [same]
    bv_omega
  · refine leEvent_gives (h := h) (fun h u => (ground_budgetUnseen h b.isLt).leLate u) runs rfl fun v t _ e after => ?_
    rw [← e.engine b.isLt] at bit late
    rw [← e.onTref] at out
    rw [after.engine b.isLt, engine_leLate_second bit late out]
    exact ⟨rfl, rfl⟩
  · refine .intro rfl ?_
    have acts : ActsOnEngine fun h s => leEdge h b.val rise s := fun h u => (ground_budgetUnseen h b.isLt).leEdge u rise
    have e := turn_engineElsewhere (h := h) (s := s) acts
    have after := onCopies_engineElsewhere acts runs
    rw [← e.engine b.isLt] at change
    rw [after.engine b.isLt, engine_leEdge ((e.flag b.isLt (by decide) (by decide)).trans open_) change, e.onTref, e.timeNs,
      e.leGet b.isLt (by decide) (by decide)]
    refine ⟨?_, fun live => ?_⟩
    · split <;> rfl
    · rw [if_pos (edgeSelected_of_liveLevel live)]
      exact ⟨rfl, rfl⟩

end Sys2Proof.Machine
end

section
/-! PROOF. What FIN, HALT and a fault do to the attempt, the entry, the assembly and the receive FIFO (O19): each act on a copy in
its own terms, and the terms are the same before the copy's turn comes (R23). -/

namespace Sys2Proof.Machine

section

variable {h : Half} {b : Nat} {s : State}

theorem line_leUp (f : Engine → Engine) : (leUp h b f s).line h b = s.line h b := rfl

theorem line_leNext : (leNext h b s).line h b = s.line h b := rfl

theorem flag_leNext (k : Nat) (g : Fld) : (leNext h b s).flag k g = s.flag k g := rfl

/-! ## The attempt is closed (R231, R232, R259) -/

/-- The state in which what becomes of the entry of a closed attempt is settled. -/
def closedAttempt (h : Half) (b : Nat) (s : State) : State := leUp h b (fun x => { x with attempt := false, mute := false }) s

theorem line_leCloseAttempt (f : State → State) :
    (leCloseAttempt h b f s).line h b = { (f (closedAttempt h b s)).line h b with pEnd := none } := by
  rw [leCloseAttempt, line_leNext, line_settleP, closedAttempt]

theorem entry_leCloseAttempt (f : State → State) (e : Nat) :
    ((leCloseAttempt h b f s).line h b).entry e = ((f (closedAttempt h b s)).line h b).entry e := by
  rw [line_leCloseAttempt]
  rfl

theorem lineAttempt_leCloseAttempt (f : State → State) :
    ((leCloseAttempt h b f s).line h b).attempt = ((f (closedAttempt h b s)).line h b).attempt := by
  rw [line_leCloseAttempt]

theorem attempt_leCloseAttempt {f : State → State}
    (kept : (f (closedAttempt h b s)).engine h b = (closedAttempt h b s).engine h b) :
    ((leCloseAttempt h b f s).engine h b).attempt = false := by
  rw [leCloseAttempt, engine_leNext, engine_settleP, ← closedAttempt, kept, closedAttempt, engine_leUp]
  rfl

/-- A line whose entry's attempt has succeeded (R231). -/
def Line.succeeded (l : Line) (e : Nat) (ack : Bool) : Line :=
  (l.setEntry e { l.entry e with acked := ack }).ended e (if (l.entry e).cpend = true then St.SENT_CANCEL_LATE else St.OK)

/-- A line whose entry has lost an arbitration, and waits (R231). -/
def Line.beaten (l : Line) (e : Nat) : Line :=
  { l.setEntry e { l.entry e with arbl := (l.entry e).arbl + 1, settle := 0, cal := 0 } with attempt := none }

theorem Line.entry_succeeded (l : Line) (e : Nat) (ack : Bool) :
    (l.succeeded e ack).entry e = { l.entry e with
      acked := ack, busy := false, done := true,
      status := if (l.entry e).cpend = true then St.SENT_CANCEL_LATE else St.OK } := by
  rw [Line.succeeded, Line.entry_ended, Line.entry_setEntry]

theorem Line.entry_retried (l : Line) (e : Nat) :
    (l.retried e).entry e = { l.entry e with tries := (l.entry e).tries + 1, settle := 0, cal := 0 } :=
  Line.entry_setEntry l e _

theorem Line.entry_beaten (l : Line) (e : Nat) :
    (l.beaten e).entry e = { l.entry e with arbl := (l.entry e).arbl + 1, settle := 0, cal := 0 } :=
  Line.entry_setEntry l e _

theorem Line.attempt_ended_beaten (l : Line) (e st : Nat) : ((l.beaten e).ended e st).attempt = none := by
  show (if (none : Option Nat) = some e then none else none) = none
  exact ite_self none

section

variable {e : Nat} (open_ : (s.line h b).attempt = some e)
include open_

theorem succeedAttempt_open (ack : Bool) :
    succeedAttempt h b ack s =
      endEntry h b e (if ((s.line h b).entry e).cpend = true then St.SENT_CANCEL_LATE else St.OK)
        (s.setLine h b ((s.line h b).setEntry e { (s.line h b).entry e with acked := ack })) := by
  unfold succeedAttempt
  simp only [open_]

theorem line_succeedAttempt (ack : Bool) : (succeedAttempt h b ack s).line h b = (s.line h b).succeeded e ack := by
  rw [succeedAttempt_open open_, line_endEntry, State.line_setLine, Line.succeeded]

theorem engine_succeedAttempt (ack : Bool) : (succeedAttempt h b ack s).engine h b = s.engine h b := by
  rw [succeedAttempt_open open_, engine_endEntry]
  rfl

theorem line_failAttempt_retry (st : Nat) (wanted : ((s.line h b).entry e).cpend = false)
    (left : ((s.line h b).entry e).tries < ((s.line h b).entry e).retry) :
    (failAttempt h b st s).line h b = (s.line h b).retried e := by
  rw [failAttempt_retry open_ st wanted left, State.line_setLine]

theorem line_failAttempt_last (st : Nat) (wanted : ((s.line h b).entry e).cpend = false)
    (last : ¬ ((s.line h b).entry e).tries < ((s.line h b).entry e).retry) :
    (failAttempt h b st s).line h b = (s.line h b).ended e st := by
  rw [failAttempt_last open_ st wanted last, line_endEntry, line_of_lines (lines_countFailure st)]

end

/-- Without a limit a lost arbitration ends an entry only where a cancel is pending. -/
theorem loseArbitration_open {e : Nat} (open_ : (s.line h b).attempt = some e)
    (unlimited : s.get (bayKey h b) Reg.LN_CFG_ARB_MAX = 0) :
    loseArbitration h b s =
      if ((s.line h b).entry e).cpend = true then
        endEntry h b e St.LINE_CANCELLED (countLine h b cntArbl (s.setLine h b ((s.line h b).beaten e)))
      else countLine h b cntArbl (s.setLine h b ((s.line h b).beaten e)) := by
  unfold loseArbitration
  simp only [open_, unlimited]
  rfl

theorem engine_loseArbitration {e : Nat} (open_ : (s.line h b).attempt = some e)
    (unlimited : s.get (bayKey h b) Reg.LN_CFG_ARB_MAX = 0) : (loseArbitration h b s).engine h b = s.engine h b := by
  rw [loseArbitration_open open_ unlimited]
  split
  · rw [engine_endEntry, engine_countLine]
    rfl
  · rw [engine_countLine]
    rfl

theorem line_loseArbitration {e : Nat} (open_ : (s.line h b).attempt = some e)
    (unlimited : s.get (bayKey h b) Reg.LN_CFG_ARB_MAX = 0) :
    (loseArbitration h b s).line h b =
      if ((s.line h b).entry e).cpend = true then ((s.line h b).beaten e).ended e St.LINE_CANCELLED
      else (s.line h b).beaten e := by
  rw [loseArbitration_open open_ unlimited]
  split
  · rw [line_endEntry, line_countLine, State.line_setLine]
  · rw [line_countLine, State.line_setLine]

/-! ## The assembly (R226, R234, R235, R259) -/

theorem flag_countLine (k : Nat) {f : Fld} (other : Reg.LN_CNT + k ≠ f.addr) :
    (countLine h b k s).flag (bayKey h b) f = s.flag (bayKey h b) f := by
  rw [State.flag, State.get, countLine, State.reg_count_other _ _ (by omega)]
  rfl

/-- Beyond the line itself a pulse shows in no line and no engine. -/
theorem line_engine_raiseBayEvent (e : BayEvent) :
    (raiseBayEvent h b e s).line h b = s.line h b ∧ (raiseBayEvent h b e s).engine h b = s.engine h b :=
  line_engine_of_apart s (apart_raiseBayEvent s h b e)

section

variable {f : RxFrame} (room : ((s.line h b).fifo).length < 8)
include room

theorem pushRx_room : pushRx h b f s =
    raiseBayEvent h b .lineRx
      ((countLine h b cntRxOk (s.setLine h b { s.line h b with fifo := (s.line h b).fifo ++ [f] })).put (bayKey h b)
        Reg.LN_STAT_RXNEW 1) := by
  unfold pushRx
  exact if_pos room

theorem fifo_pushRx : ((pushRx h b f s).line h b).fifo = (s.line h b).fifo ++ [f] := by
  rw [pushRx_room room, (line_engine_raiseBayEvent _).1, line_of_lines (State.put_lines _ _ _ _), line_countLine,
    State.line_setLine]

theorem engine_pushRx : (pushRx h b f s).engine h b = s.engine h b := by
  rw [pushRx_room room, (line_engine_raiseBayEvent _).2, engine_of_engines (State.put_engines _ _ _ _), engine_countLine]
  rfl

theorem rxNew_pushRx (hb : b < 64) : (pushRx h b f s).flag (bayKey h b) Reg.LN_STAT_RXNEW = true := by
  rw [pushRx_room room, flag_of_apart_none hb (by decide) (by decide) (apart_raiseBayEvent _ _ _ _)]
  exact flag_put_one _ _ (by decide) rfl

end

/-- The state in which a frame that is complete goes to its receiver. -/
def completed (h : Half) (b : Nat) (s : State) : State :=
  leUp h b (fun x => { x with assembly := none, acc := false, hears := none }) s

/-- In loopback, a frame that asks for no acknowledge goes into the FIFO. -/
theorem finDeliver_loop {u : State} {a : Assembly} (charged : chargeLine h b s = u)
    (opened : (u.engine h b).assembly = some a) (kept : a.lost = false) (plain : a.flags / 128 % 2 = 0)
    (loop : u.flag (bayKey h b) Reg.LE_CFG_LOOP = true) :
    finDeliver h b s =
      leNext h b (leUp h b (fun x => { x with acc := false })
        (pushRx h b ⟨a.id, false, decide (a.flags / 512 % 2 = 1), false, a.bytes, a.ts⟩ (completed h b u))) := by
  unfold finDeliver
  dsimp only
  rw [charged]
  simp only [opened, kept, plain, loop]
  rfl

/-- A frame that was not lost before is discarded, counted and reported. -/
theorem finBad_kept {a : Assembly} (opened : (s.engine h b).assembly = some a) (kept : a.lost = false) (k : Nat) :
    finBad h b k s =
      leNext h b ((countLine h b k (leUp h b (fun x => { x with assembly := none, hears := none }) s)).put (bayKey h b)
        Reg.LN_STAT_RXERR 1) := by
  unfold finBad
  simp only [opened, kept]
  rfl

/-! ## HALT (R262) -/

theorem engine_leHaltBreak_break (breaks : s.leBreaks h b = true) :
    (leHaltBreak h b s).engine h b = { s.engine h b with mode := .halted } := by
  unfold leHaltBreak
  rw [if_pos breaks, State.engine_setEngine]

theorem engine_leHaltBreak_halt (passes : s.leBreaks h b = false) :
    (leHaltBreak h b s).engine h b = { (s.engine h b).next with mode := .halted } := by
  unfold leHaltBreak
  rw [if_neg (ne_true_of_eq_false passes), engine_leUp, engine_leNext]

theorem leBreaks_of_leExecutes (executes : s.leExecutes h b = true) : s.leBreaks h b = false := by
  simp only [State.leExecutes, Bool.and_eq_true, Bool.not_eq_true'] at executes
  exact executes.1.2

theorem leExecutes_of_leAt {op : Nat} (here : s.leAt h b op = true) : s.leExecutes h b = true := by
  simp only [State.leAt, Bool.and_eq_true] at here
  exact here.1.1

/-- A HALT that is no fault has BRK. -/
theorem brk_of_leAt (here : s.leAt h b 15 = true) : isField 27 27 1 (s.leWord h b) = true := by
  have sound := leFaultCode_of_leAt here
  have bit := wbits_lt (s.leWord h b) 27 27
  by_contra other
  have zero : wbits (s.leWord h b) 27 27 = 0 := by
    simp only [isField, decide_eq_true_eq] at other
    omega
  simp [State.leFaultCode, opcode_of_leAt here, zero] at sound
  split_ifs at sound

/-! ## A fault (R257) -/

/-- A pending swap that takes effect leaves what the engine does. -/
theorem engine_leTakeSwap : ∃ bank swap late stalled, (leTakeSwap h b s).engine h b =
    { s.engine h b with bank := bank, swap := swap, swapLate := late, stalled := stalled } := by
  unfold leTakeSwap
  split
  · unfold leSwapBank
    dsimp only
    exact ⟨_, _, _, _, by
      rw [engine_of_engines (State.count_engines _ _ _), engine_of_engines (State.put_engines _ _ _ _), State.engine_setEngine]⟩
  · exact ⟨_, _, _, _, rfl⟩

theorem flag_leTakeSwap {f : Fld} (stat : f.addr = Reg.LE_STAT) (single : f.hi = f.lo)
    (set : s.flag (bayKey h b) f = true) : (leTakeSwap h b s).flag (bayKey h b) f = true := by
  unfold leTakeSwap
  split
  · unfold leSwapBank
    dsimp only
    rw [State.flag, State.get, State.reg_count_other _ _ (by rw [stat]; simp), ← State.get, ← State.flag]
    exact flag_put_one_of_flag (by decide) rfl single set
  · exact set

theorem get_leTakeSwap {f : Fld} (stat : f.addr ≠ Reg.LE_STAT) (count : f.addr ≠ Reg.LE_CNT_SWAP) :
    (leTakeSwap h b s).get (bayKey h b) f = s.get (bayKey h b) f := by
  unfold leTakeSwap
  split
  · unfold leSwapBank
    dsimp only
    rw [State.get, State.reg_count_other _ _ (by omega), State.reg_put_other _ _ _ _ (by simpa using stat)]
    rfl
  · rfl

/-- What an engine in FAULT reports. -/
def reportFault (h : Half) (b code pc : Nat) (s : State) : State :=
  ((s.put (bayKey h b) Reg.LE_FAULT_CODE code).put (bayKey h b) Reg.LE_FAULT_ADDR pc).put (bayKey h b) Reg.LE_STAT_FAULTED 1

theorem get_reportFault_code {code : Nat} (pc : Nat) (low : code < 256) :
    (reportFault h b code pc s).get (bayKey h b) Reg.LE_FAULT_CODE = code := by
  rw [reportFault, State.get_put_other _ _ _ _ _ _ (by simp),
    State.get_put_apart _ _ _ Reg.LE_FAULT_ADDR Reg.LE_FAULT_CODE (by decide) (by decide) rfl (.inl (by decide)),
    State.get_put _ _ _ _ (by decide) (by decide)]
  exact Nat.mod_eq_of_lt low

theorem get_reportFault_addr {pc : Nat} (code : Nat) (low : pc < 256) :
    (reportFault h b code pc s).get (bayKey h b) Reg.LE_FAULT_ADDR = pc := by
  rw [reportFault, State.get_put_other _ _ _ _ _ _ (by simp), State.get_put _ _ _ _ (by decide) (by decide)]
  exact Nat.mod_eq_of_lt low

/-- The engine enters FAULT with all closed, and reports. -/
theorem leEnterFault_reports (code : Nat) : ∃ v, (v.engine h b).mode = .fault ∧ (v.engine h b).attempt = false
    ∧ (v.engine h b).assembly = none ∧ (v.engine h b).sym = none
    ∧ leEnterFault h b code s =
      raiseBayEvent h b .lineEngine (leTakeSwap h b (reportFault h b code (s.engine h b).pc v)) := by
  unfold leEnterFault
  dsimp only
  refine ⟨_, ?_, ?_, ?_, ?_, rfl⟩
  all_goals rw [State.engine_setEngine]
  all_goals rw [engine_leDropAssembly, engine_leFailAttempt, engine_setOutput]
  rfl

theorem engine_reportFault (code pc : Nat) : (reportFault h b code pc s).engine h b = s.engine h b :=
  engine_of_engines (by rw [reportFault, State.put_engines, State.put_engines, State.put_engines])

/-- Fault codes are 1 to 7, and 0x80 with the seven bits of a HALT (R257). -/
theorem leFaultCode_lt {w : BitVec 32} {code : Nat} (fault : s.leFaultCode h b w = some code) : code < 256 := by
  have index := wbits_lt w 6 0
  unfold State.leFaultCode at fault
  grind

end

/-! ## The obligation -/

section

variable {h : Half} {b : Fin 64} {s : State} (runs : s.computes h = true) (here : s.leAt h b.val 14 = true)
include runs here

theorem finTxok_gives {e : Nat} (word : isField 27 24 0 (s.leWord h b.val) = true)
    (open_ : (s.line h b.val).attempt = some e) :
    Gives (.finTxok b) s (fun t =>
      (t.engine h b.val).attempt = false ∧ (t.line h b.val).attempt = none
        ∧ ((t.line h b.val).entry e).busy = false ∧ ((t.line h b.val).entry e).done = true
        ∧ ((t.line h b.val).entry e).status =
            (if ((s.line h b.val).entry e).cpend = true then St.SENT_CANCEL_LATE else St.OK)
        ∧ ((t.line h b.val).entry e).acked = isField 23 23 1 (s.leWord h b.val)) := by
  refine leInstr_gives rfl (fun h u => (ground_budgetUnseen h b.isLt).finTxok u) b.isLt runs here word
    fun v t _ f after => ?_
  have line : (closedAttempt h b.val v).line h b.val = s.line h b.val := f.line b.isLt
  rw [← line] at open_ ⊢
  rw [after.engine b.isLt, after.line b.isLt, finTxok, attempt_leCloseAttempt (engine_succeedAttempt open_ _),
    lineAttempt_leCloseAttempt, entry_leCloseAttempt, line_succeedAttempt open_, Line.entry_succeeded, f.leWord b.isLt]
  exact ⟨rfl, if_pos open_, rfl, rfl, rfl, rfl⟩

/-- NOACK, COLL and TXABORT: a try is counted while one is left, else the entry ends with the code. -/
theorem finFailed_gives {c : Instr} {code st e : Nat}
    (answer : exec c s = leInstr b.val 14 (isField 27 24 code) (fun h => leCloseAttempt h b.val (failAttempt h b.val st)) s)
    (word : isField 27 24 code (s.leWord h b.val) = true) (open_ : (s.line h b.val).attempt = some e)
    (wanted : ((s.line h b.val).entry e).cpend = false) :
    Gives c s (fun t =>
      (t.engine h b.val).attempt = false ∧ (t.line h b.val).attempt = none
        ∧ (if ((s.line h b.val).entry e).tries < ((s.line h b.val).entry e).retry then
            ((t.line h b.val).entry e).tries = ((s.line h b.val).entry e).tries + 1
              ∧ ((t.line h b.val).entry e).busy = ((s.line h b.val).entry e).busy
          else ((t.line h b.val).entry e).busy = false ∧ ((t.line h b.val).entry e).status = st)) := by
  refine leInstr_gives answer (fun h u => (ground_budgetUnseen h b.isLt).finFailed u st) b.isLt runs here word
    fun v t _ f after => ?_
  have line : (closedAttempt h b.val v).line h b.val = s.line h b.val := f.line b.isLt
  rw [← line] at open_ wanted ⊢
  rw [after.engine b.isLt, after.line b.isLt, attempt_leCloseAttempt (engine_failAttempt st), lineAttempt_leCloseAttempt,
    entry_leCloseAttempt]
  refine ⟨rfl, ?_⟩
  split
  · next left =>
    rw [line_failAttempt_retry open_ st wanted left, Line.entry_retried]
    exact ⟨rfl, rfl, rfl⟩
  · next last =>
    rw [line_failAttempt_last open_ st wanted last, Line.entry_ended]
    exact ⟨if_pos open_, rfl, rfl⟩

theorem finArblost_gives {e : Nat} (word : isField 27 24 2 (s.leWord h b.val) = true)
    (open_ : (s.line h b.val).attempt = some e) (unlimited : s.get (bayKey h b.val) Reg.LN_CFG_ARB_MAX = 0) :
    Gives (.finArblost b) s (fun t =>
      (t.line h b.val).attempt = none
        ∧ ((t.line h b.val).entry e).arbl = ((s.line h b.val).entry e).arbl + 1
        ∧ (((s.line h b.val).entry e).cpend = true → ((t.line h b.val).entry e).status = St.LINE_CANCELLED)
        ∧ (((s.line h b.val).entry e).cpend = false →
            ((t.line h b.val).entry e).busy = ((s.line h b.val).entry e).busy)) := by
  refine leInstr_gives rfl (fun h u => (ground_budgetUnseen h b.isLt).finArblost u) b.isLt runs here word
    fun v t _ f after => ?_
  have line : (closedAttempt h b.val v).line h b.val = s.line h b.val := f.line b.isLt
  have limit : (closedAttempt h b.val v).get (bayKey h b.val) Reg.LN_CFG_ARB_MAX = 0 :=
    (f.get b.isLt (by decide) (by decide)).trans unlimited
  rw [← line] at open_ ⊢
  rw [after.line b.isLt, finArblost, line_leUp, lineAttempt_leCloseAttempt, entry_leCloseAttempt,
    line_loseArbitration open_ limit]
  split
  · next cancelled =>
    rw [Line.entry_ended, Line.entry_beaten]
    exact ⟨Line.attempt_ended_beaten _ e _, rfl, fun _ => rfl, fun wanted => absurd cancelled (ne_true_of_eq_false wanted)⟩
  · next wanted =>
    rw [Line.entry_beaten]
    exact ⟨rfl, rfl, fun cancelled => absurd cancelled wanted, fun _ => rfl⟩

theorem finDeliver_gives {a : Assembly} (word : isField 27 24 9 (s.leWord h b.val) = true)
    (opened : (s.engine h b.val).assembly = some a) (kept : a.lost = false) (plain : a.flags / 128 % 2 = 0)
    (loop : s.flag (bayKey h b.val) Reg.LE_CFG_LOOP = true) (room : (s.line h b.val).fifo.length < 8) :
    Gives (.finDeliver b) s (fun t =>
      (t.engine h b.val).assembly = none ∧ (t.engine h b.val).acc = false
        ∧ (t.line h b.val).fifo = (s.line h b.val).fifo
            ++ [⟨a.id, false, decide (a.flags / 512 % 2 = 1), false, a.bytes, a.ts⟩]
        ∧ t.flag (bayKey h b.val) Reg.LN_STAT_RXNEW = true) := by
  refine leInstr_gives rfl (fun h u => (ground_budgetUnseen h b.isLt).finDeliver u) b.isLt runs here word
    fun v t _ f after => ?_
  have charged := f.trans (chargeLine_elsewhere h b.val v)
  have line : (completed h b.val (chargeLine h b.val v)).line h b.val = s.line h b.val := charged.line b.isLt
  rw [← line] at room ⊢
  rw [← charged.engine b.isLt] at opened
  rw [finDeliver_loop rfl opened kept plain ((charged.flag b.isLt (by decide) (by decide)).trans loop)] at after
  rw [after.engine b.isLt, after.line b.isLt, after.flag b.isLt (by decide) (by decide), line_leNext, line_leUp,
    fifo_pushRx room, flag_leNext, flag_leUp, rxNew_pushRx room b.isLt, engine_leNext_leUp, engine_pushRx room, completed,
    engine_leUp]
  exact ⟨rfl, rfl, rfl, rfl⟩

/-- BADCRC and BADFMT: the assembly is gone and RXERR set. -/
theorem finBad_gives {c : Instr} {code k : Nat} {a : Assembly}
    (answer : exec c s = leInstr b.val 14 (isField 27 24 code) (fun h => finBad h b.val k) s) (low : k < 8)
    (word : isField 27 24 code (s.leWord h b.val) = true) (opened : (s.engine h b.val).assembly = some a)
    (kept : a.lost = false) :
    Gives c s (fun t =>
      (t.engine h b.val).assembly = none ∧ t.flag (bayKey h b.val) Reg.LN_STAT_RXERR = true
        ∧ t.line h b.val = s.line h b.val) := by
  refine leInstr_gives answer (fun h u => (ground_budgetUnseen h b.isLt).finBad u low) b.isLt runs here word
    fun v t _ f after => ?_
  rw [← f.engine b.isLt] at opened
  rw [finBad_kept opened kept] at after
  rw [after.engine b.isLt, after.line b.isLt, after.flag b.isLt (by decide) (by decide), engine_leNext,
    engine_of_engines (State.put_engines _ _ _ _), engine_countLine, engine_leUp, line_leNext,
    line_of_lines (State.put_lines _ _ _ _), line_countLine, line_leUp, f.line b.isLt, flag_leNext]
  exact ⟨rfl, flag_put_one _ _ (by decide) rfl, rfl⟩

end

section

variable {h : Half} {b : Fin 64} {s : State} (runs : s.computes h = true)
include runs

/-- A HALT with BRK, or a breakpoint, halts where it stands. -/
theorem leHaltBreak_gives (halts : s.leBreaks h b.val = true ∨ s.leAt h b.val 15 = true) :
    Gives (.leHaltBreak b) s (fun t =>
      t.engine h b.val =
        if s.leBreaks h b.val = true then { s.engine h b.val with mode := .halted }
        else { (s.engine h b.val).next with mode := .halted }) := by
  refine leEvent_gives (h := h) (ActsOnEngine.when (fun h u => (ground_budgetUnseen h b.isLt).leHaltBreak u) _) runs rfl
    fun v t _ f after => ?_
  rw [if_pos (by
    rw [f.leBreaks b.isLt, f.leAt b.isLt, f.leWord b.isLt, Bool.or_eq_true, Bool.and_eq_true]
    exact halts.imp_right fun here => ⟨here, brk_of_leAt here⟩)] at after
  rw [after.engine b.isLt]
  split
  · next breaks => rw [engine_leHaltBreak_break ((f.leBreaks b.isLt).trans breaks), f.engine b.isLt]
  · next passes =>
    rw [engine_leHaltBreak_halt ((f.leBreaks b.isLt).trans (Bool.eq_false_iff.mpr passes)), f.engine b.isLt]

theorem leFault_gives {code : Nat} (executes : s.leExecutes h b.val = true)
    (fault : s.leFaultCode h b.val (s.leWord h b.val) = some code) (low : (s.engine h b.val).pc < 256) :
    Gives (.leFault b) s (fun t =>
      (t.engine h b.val).mode = .fault ∧ (t.engine h b.val).attempt = false ∧ (t.engine h b.val).assembly = none
        ∧ (t.engine h b.val).sym = none ∧ t.flag (bayKey h b.val) Reg.LE_STAT_FAULTED = true
        ∧ t.get (bayKey h b.val) Reg.LE_FAULT_CODE = code
        ∧ t.get (bayKey h b.val) Reg.LE_FAULT_ADDR = (s.engine h b.val).pc) := by
  have acts : ActsOnEngine fun h s => if s.leExecutes h b.val then
      match s.leFaultCode h b.val (s.leWord h b.val) with
      | some c => leEnterFault h b.val c s
      | none => s
    else s := ActsOnEngine.when (fun h u => by
      split
      · exact (ground_budgetUnseen h b.isLt).leEnterFault u _
      · rfl) _
  refine leEvent_gives (h := h) acts runs rfl fun v t _ f after => ?_
  rw [if_pos ((f.leExecutes b.isLt).trans executes), f.leWord b.isLt, f.leFaultCode b.isLt, fault] at after
  obtain ⟨u, mode, attempt, assembly, sym, reports⟩ := leEnterFault_reports (h := h) (b := b.val) (s := v) code
  have quiet := apart_raiseBayEvent (P := ∅) (S := ∅)
    (leTakeSwap h b.val (reportFault h b.val code (v.engine h b.val).pc u)) h b.val .lineEngine
  have get {f : Fld} (lo : 0x20 ≤ f.addr) (hi : f.addr < 0x400) := get_of_apart quiet (b := bayKey h b.val) (f := f)
    (Set.notMem_empty _) (bay_not_mem_logKeys h b.isLt hi fun p hp => by
      have := capture_lt hp
      omega)
  obtain ⟨bank, swap, late, stalled, taken⟩ := engine_leTakeSwap (h := h) (b := b.val)
    (s := reportFault h b.val code (v.engine h b.val).pc u)
  have after : EngineElsewhere h (leEnterFault h b.val code v) t := after
  rw [reports] at after
  rw [after.engine b.isLt, (line_engine_raiseBayEvent _).2, taken, engine_reportFault,
    after.flag b.isLt (by decide) (by decide), after.get b.isLt (by decide) (by decide),
    after.get b.isLt (by decide) (by decide), flag_of_apart_none b.isLt (by decide) (by decide) (apart_raiseBayEvent _ _ _ _),
    get (by decide) (by decide), get (by decide) (by decide), get_leTakeSwap (by decide) (by decide),
    get_leTakeSwap (by decide) (by decide), f.engine b.isLt]
  exact ⟨mode, attempt, assembly, sym, flag_leTakeSwap rfl rfl (flag_put_one _ _ (by decide) rfl),
    get_reportFault_code _ (leFaultCode_lt fault), get_reportFault_addr _ low⟩

end

/-- Settles O19: each act's effect on the engine, its line and its log, in the copy's turn, is one of what the other half's
engine leaves. -/
theorem engineFrameEndsTakeEffect : Obligations.EngineFrameEndsTakeEffect := by
  refine ⟨fun h b e s runs here word open_ _ => finTxok_gives runs here word open_, ?_,
    fun h b e s runs here word open_ _ unlimited => finArblost_gives runs here word open_ unlimited, ?_, ?_,
    fun h b a s runs here word opened kept plain loop room => finDeliver_gives runs here word opened kept plain loop room, ?_,
    ?_, ?_, fun h b code s runs executes fault low => leFault_gives runs executes fault low⟩
  · intro h b e c code st s listed runs here word open_ _ wanted
    simp only [List.mem_cons, Prod.mk.injEq, List.not_mem_nil, or_false] at listed
    obtain ⟨rfl, rfl, rfl⟩ | ⟨rfl, rfl, rfl⟩ | ⟨rfl, rfl, rfl⟩ := listed
    · exact finFailed_gives runs here rfl word open_ wanted
    · exact finFailed_gives runs here rfl word open_ wanted
    · exact finFailed_gives runs here rfl word open_ wanted
  · intro h b s runs here word
    refine leInstr_gives rfl (fun h u => (ground_budgetUnseen h b.isLt).finDecide u) b.isLt runs here word
      fun v t _ e after => ?_
    rw [after.line b.isLt, finDecide, line_leNext, State.line_setLine, e.line b.isLt]
    exact ⟨rfl, rfl⟩
  · intro h b s runs here word
    refine leInstr_gives rfl (fun h u => (ground_budgetUnseen h b.isLt).finOpen u) b.isLt runs here word
      fun v t _ e after => ?_
    rw [after.engine b.isLt, finOpen, engine_leNext_leUp]
    exact ⟨rfl, rfl⟩
  · intro h b c code a s listed runs here word opened kept
    simp only [List.mem_cons, Prod.mk.injEq, List.not_mem_nil, or_false] at listed
    obtain ⟨rfl, rfl⟩ | ⟨rfl, rfl⟩ := listed
    · exact finBad_gives runs here rfl (by decide) word opened kept
    · exact finBad_gives runs here rfl (by decide) word opened kept
  · intro h b s runs here
    have passes := leBreaks_of_leExecutes (leExecutes_of_leAt here)
    refine (leHaltBreak_gives runs (.inr here)).mono fun t halts => ?_
    rw [halts, if_neg (ne_true_of_eq_false passes)]
    exact ⟨rfl, rfl⟩
  · intro h b s runs breaks
    refine (leHaltBreak_gives runs (.inl breaks)).mono fun t halts => ?_
    rw [halts, if_pos breaks]
    exact ⟨rfl, rfl⟩

end Sys2Proof.Machine
end

section
/-! PROOF. Polling (O21): a missing input whose alarm lets out a packet that waits under an activity that no half has. -/

namespace Sys2Proof.Machine

/-- An activity number whose stall counter (R106) would lie at the place of bay 0's PL_STAT in half A. A half has 12 activities,
and no command lets a packet wait under another number; but a state may hold one. -/
def pipeActivity : Nat := bayKey .A 0 + Reg.PL_STAT - (halfKey .A + Reg.BG_STALL)

/-- A recogniser of the outputs of entry 0 for missing samples, whose hits send an alarm (R302, R305). -/
def missingAlarm : Recog := { Recog.reset with cfg := 0xF9000 }

/-- A missing input of entry 0. -/
def missingInput : PInput := ⟨0, 0, 0, none, 1, 1, false, 0, false⟩

/-- Half A runs, healthy, and in the pipeline of bay 0 a missing input of entry 0 waits, which `missingAlarm` watches. The
device has an address and a sink. A packet waits for injection under the stray activity, its acknowledge withheld for four
grains: the weight of MISS in PL_STAT. -/
def strayMiss : State :=
  let s := (((State.reset.put (halfKey .A) Reg.HLT_STAT_SYNCED 1).put (bayKey .A 0) Reg.PL_CFG_EN 1).put oneKey
    Reg.FAB_ADDR_STATE 2).put oneKey Reg.FAB_SINK_EN 1
  { (s.setRecog .A 0 0 missingAlarm).setPipe .A 0 { BayPipe.reset with queue := [missingInput] } with
    trefRuns := true
    tref := 800
    halfA := { s.halfA with
      inReset := false, beatSeen := true, beatSynced := true
      budget := { s.halfA.budget with waiting := [(4 * pipeActivity + 3, 0, 0)] } }
    router := { s.router with inject := [(pipeActivity, ⟨6, 64, 3, 77, 5, 9, []⟩)] } }

theorem strayMiss_takes :
    strayMiss.computes .A = true ∧ strayMiss.viewOf 0 = .A ∧ strayMiss.plTakes .A 0 = true
      ∧ strayMiss.pipe .A 0 = { BayPipe.reset with queue := [missingInput] } := by
  decide +kernel

theorem access_strayMiss : strayMiss.access .A actPipe 0 = some (chargeAccess .A 12 strayMiss) := by
  have none : strayMiss.withheld .A (4 * actPipe + 0) = none := by decide +kernel
  have admitted : strayMiss.admitted .A actPipe 0 = some strayMiss := by
    unfold State.admitted
    dsimp only
    rw [none]
    exact if_pos (by decide +kernel)
  rw [State.access, admitted]
  rfl

/-- Where no input is lost, the head of the queue goes through the chain whatever PIPE's next grain is. -/
theorem takeHead_of_queue {h : Half} {b : Nat} {s : State} {i : PInput} {rest : List PInput}
    (queue : (s.pipe h b).queue = i :: rest) (lost : (s.pipe h b).lost = []) :
    takeHead h b s = releaseHeld h b [] (takeInput h b i (s.setPipe h b { s.pipe h b with queue := rest })) := by
  unfold takeHead BayPipe.refill
  simp only [queue, lost, List.take_nil, List.drop_nil, List.append_nil]

/-- The state after the input. -/
def afterStrayMiss : State :=
  releaseHeld .A 0 [] (takeInput .A 0 missingInput ((chargeAccess .A 12 strayMiss).setPipe .A 0 BayPipe.reset))

theorem takeHead_strayMiss : takeHead .A 0 (chargeAccess .A 12 strayMiss) = afterStrayMiss :=
  takeHead_of_queue rfl rfl

theorem exec_strayMiss : exec (.pipelineInput 0) strayMiss = .next afterStrayMiss := by
  obtain ⟨-, view, takes, pipe⟩ := strayMiss_takes
  have waits : (strayMiss.pipe .A 0).queue ≠ [] := by simp [pipe]
  have copies : (chargeAccess .A 12 strayMiss).onCopies (fun h s => takeHead h 0 s) = afterStrayMiss := by
    have runs : (chargeAccess .A 12 strayMiss).computes .A = true := by decide +kernel
    have alone : afterStrayMiss.computes .B ≠ true := by decide +kernel
    unfold State.onCopies
    dsimp only
    rw [if_pos runs, takeHead_strayMiss, if_neg alone]
  show execPipelineInput 0 strayMiss = _
  rw [execPipelineInput, Fin.val_zero, view, if_pos ⟨waits, takes⟩, withAccess_of _ access_strayMiss, copies]

/-- The input sets MISS; then its missing output sends the alarm, with which the stray packet goes out, and counting the four
grains that it waited carries MISS into LATE. -/
theorem miss_afterStrayMiss : afterStrayMiss.flag (bayKey .A 0) Reg.PL_STAT_MISS = false := by decide +kernel

/-- Refutes O21, by its clause on a missing input: the statement is about every state, and in `strayMiss` the flag MISS is lost
again. (Where only activities 0 to 11 wait, the stall counters lie apart from the bays' registers.) -/
theorem not_pollingTakesEffect : ¬ Obligations.PollingTakesEffect := by
  rintro ⟨-, -, -, -, -, missing, -⟩
  obtain ⟨runs, view, takes, pipe⟩ := strayMiss_takes
  obtain ⟨-, -, flagged⟩ := (missing .A 0 missingInput [] strayMiss runs view.symm takes (by rw [access_strayMiss]; rfl)
    (congrArg BayPipe.queue pipe) (congrArg BayPipe.lost pipe) (congrArg BayPipe.held pipe) (by decide)
    rfl).of_next exec_strayMiss
  exact Bool.false_ne_true (miss_afterStrayMiss.symm.trans flagged)

end Sys2Proof.Machine
end

section
/-! SUPPORT. What commits, recogniser writes and custom sets leave alone in a bay's copy (R284, R298 to R300, R304): a view of the
state in which the registers of the bay's page, its pipeline, its recognisers, and what a commit already made leaves of an entry
do not show. -/

namespace Sys2Proof.Machine

/-! ## What stays of an entry once it is committed (R284) -/

/-- The words committed latest and the next instant. -/
def PollEntry.grid (x : PollEntry) : Word × Word × Word × Nat := (x.w0, x.w1, x.w2, x.due)

section

variable (x : PollEntry) (c : Chosen)

@[simp] theorem grid_retune : (x.retune c).grid = x.grid := by
  unfold PollEntry.retune
  split_ifs
  · rfl
  · rfl
  · rfl
  · split
    · split <;> rfl
    · rfl

@[simp] theorem grid_recoef : (x.recoef c).grid = x.grid := by
  unfold PollEntry.recoef
  split
  · rfl
  · exact grid_retune x c

@[simp] theorem grid_rechoose : (x.rechoose c).grid = x.grid := by
  unfold PollEntry.rechoose
  dsimp only
  rw [apply_ite PollEntry.grid, grid_recoef]
  exact ite_self _

@[simp] theorem grid_resetChains : x.resetChains.grid = x.grid := rfl

@[simp] theorem grid_adopt (runs : Bool) (w0 w1 : Word) : (x.adopt runs w0 w1 c).grid = x.grid := by
  have tuned : (if runs then { x with v0 := w0, v1 := w1 }.retune c else { x with v0 := w0, v1 := w1 }.rechoose c).grid
      = x.grid := by
    split
    · exact grid_retune _ c
    · exact grid_rechoose _ c
  unfold PollEntry.adopt
  dsimp only
  split
  · rfl
  · split
    · exact tuned
    · exact tuned

end

/-! ## Views -/

/-- In one copy of a bay its pipeline and recognisers, and of the entries of E what is not on the grid, do not show in a view. -/
structure EntriesUnseen {α : Type} (view : State → α) (h : Half) (b : Nat) (E : Set Nat) : Prop where
  setPipe : ∀ (s : State) (x : BayPipe), view (s.setPipe h b x) = view s
  setEntryOf : ∀ (s : State) {e : Nat} (x : PollEntry), e ∈ E → x.grid = (s.entryOf h b e).grid →
    view (s.setEntryOf h b e x) = view s
  setRecog : ∀ (s : State) {i : Nat} (x : Recog), i < 64 → view (s.setRecog h b i x) = view s
  entries : ∀ e < 256, e ∈ E

/-- Nor do the registers of the bay's page. -/
structure PipeUnseen {α : Type} (view : State → α) (h : Half) (b : Nat) (E : Set Nat) : Prop
    extends EntriesUnseen view h b E where
  setReg : ∀ (s : State) {o : Nat} (w : Word), o < 0x400 → view (s.setReg (bayKey h b + o) w) = view s

/-- Acts on the members of a list that do not show do not show together. -/
theorem view_foldl_mem {α β : Type} {view : State → α} {f : State → β → State} {l : List β}
    (acts : ∀ x ∈ l, ∀ v, view (f v x) = view v) (s : State) : view (l.foldl f s) = view s :=
  List.foldlRecOn (motive := fun v => view v = view s) l f rfl fun _ kept x mem => (acts x mem _).trans kept

/-- An act on a condition. -/
theorem view_ite {α : Type} {view : State → α} {f : State → State} (acts : ∀ v, view (f v) = view v) {p : Prop} [Decidable p]
    (s : State) : view (if p then f s else s) = view s := by
  rw [apply_ite view, acts, ite_self]

namespace EntriesUnseen

variable {α : Type} {view : State → α} {h : Half} {b : Nat} {E : Set Nat} (unseen : EntriesUnseen view h b E) (s : State)
include unseen

/-! ## Custom sets in force (R298 to R300) -/

theorem applySet (i : Nat) (f : FirSet) (plain : List Nat) : view (applySet h b i f plain s) = view s := by
  unfold Machine.applySet
  refine (view_foldl_mem (fun e mem v => ?_) _).trans (unseen.setPipe s _)
  dsimp only
  split
  · refine unseen.setEntryOf v _ (unseen.entries e (List.mem_range.mp mem)) ?_
    split_ifs
    · exact grid_recoef _ _
    · exact grid_retune _ _
    · exact grid_rechoose _ _
  · rfl

theorem releaseHeld (plain : List Nat) : view (releaseHeld h b plain s) = view s := by
  refine view_foldl (fun v i => ?_) _ s
  split
  · split
    · rfl
    · exact unseen.applySet v i _ plain
  · rfl

/-! ## Commits take effect (R284) -/

theorem idleWatchers (e : Nat) : view (idleWatchers h b e s) = view s := by
  refine view_foldl_mem (fun i mem v => ?_) s
  dsimp only
  split
  · exact unseen.setRecog v _ (List.mem_range.mp mem)
  · rfl

section

variable {e : Nat} (own : e ∈ E)
include own

theorem resetEntry : view (resetEntry h b e s) = view s :=
  (unseen.releaseHeld _ _).trans (unseen.setEntryOf s _ own (grid_resetChains _))

theorem adoptCommit : view (adoptCommit h b e s) = view s := by
  have adopted (w0 w1 : Word) (rest : List (Word × Word × Nat)) (plain : List Nat) (runs : Bool) (c : Chosen) :
      view (Machine.releaseHeld h b plain (s.setEntryOf h b e
        { (s.entryOf h b e).adopt runs w0 w1 c with newer := rest })) = view s :=
    (unseen.releaseHeld _ plain).trans (unseen.setEntryOf s _ own (grid_adopt _ _ _ _ _))
  unfold Machine.adoptCommit
  rcases newer : (s.entryOf h b e).newer with _ | ⟨⟨w0, w1, t⟩, rest⟩
  · simp only [newer]
  · simp only [newer]
    exact (view_ite (fun v => unseen.idleWatchers v e) _).trans (adopted ..)

theorem settleCommits : view (settleCommits h b e s) = view s := by
  refine view_foldl (fun v c => ?_) _ s
  split
  · exact unseen.adoptCommit v own
  · rfl

end

/-! ## Recognisers (R304, R319) -/

theorem writeRgCfg {i : Nat} (low : i < 64) (w : Word) : view (writeRgCfg h b i w s) = view s := unseen.setRecog s _ low

theorem writeRgAck (w : Word) : view (writeRgAck h b w s) = view s := by
  refine view_foldl_mem (fun i mem v => unseen.setRecog v _ ?_) s
  split at mem
  · exact List.mem_range.mp mem
  · rw [List.mem_singleton.mp mem]
    exact bits_lt _ _ _

end EntriesUnseen

namespace PipeUnseen

variable {α : Type} {view : State → α} {h : Half} {b : Nat} {E : Set Nat} (unseen : PipeUnseen view h b E) (s : State)
include unseen

theorem put {f : Fld} (low : f.addr < 0x400) (v : Nat) : view (s.put (bayKey h b) f v) = view s := unseen.setReg s _ low

theorem plMark {f : Fld} (low : f.addr < 0x400) : view (plMark h b f s) = view s := unseen.put s low 1

/-! ## Commits (R284, R300) -/

theorem commitSet (i : Nat) (f : FirSet) : view (commitSet h b i f s) = view s := by
  unfold Machine.commitSet
  dsimp only
  split_ifs
  · exact unseen.put s (by decide) 1
  · exact unseen.setPipe s _
  · exact unseen.applySet s i f []

theorem writeCcmt (st : Nat → FirSet → FirSet) (w : Word) : view (writeCcmt h b st w s) = view s := by
  unfold Machine.writeCcmt
  dsimp only
  split_ifs
  · exact (unseen.commitSet _ 1 _).trans (unseen.commitSet s 0 _)
  · exact unseen.commitSet s 1 _
  · exact unseen.commitSet s 0 _
  · rfl

/-- A commit shows where the entry's words and its next instant do. -/
theorem commitEntry {e : Nat} (own : e ∈ E)
    (hidden : ∀ (v : State) (x : PollEntry), view (v.setEntryOf h b e x) = view v) (st0 st1 : Option Word)
    (w : Word) : view (commitEntry h b e st0 st1 w s) = view s := by
  unfold Machine.commitEntry
  dsimp only
  split
  · exact unseen.plMark s (by decide)
  · exact (unseen.settleCommits _ own).trans (hidden s _)

theorem advanceTa : view (advanceTa h b s) = view s := by
  unfold Machine.advanceTa
  dsimp only
  rw [unseen.put _ (by decide), unseen.put _ (by decide)]

theorem writePlTd (hidden : ∀ (v : State) {e : Nat} (x : PollEntry), e < 256 → view (v.setEntryOf h b e x) = view v)
    (st : Nat → Nat → Option Word) (w : Word) : view (writePlTd h b st w s) = view s := by
  have entry : s.get (bayKey h b) Reg.PL_TA_ENTRY < 256 := bits_lt _ _ _
  unfold Machine.writePlTd
  dsimp only
  rw [unseen.advanceTa]
  split
  · exact unseen.commitEntry s (unseen.entries _ entry) (fun v x => hidden v x entry) _ _ w
  · exact hidden s _ entry
  · rfl

end PipeUnseen

end Sys2Proof.Machine
end

section
/-! PROOF. Settings of the pipeline (O22): commits of poll entries and custom sets, and the writes of a recogniser. Each acts on a
bay's copy in every half (R24), and shows to the copy of half h in that half alone. -/

namespace Sys2Proof.Machine

/-! ## A bay's copy (R23, R24) -/

/-- What half h's copy of a bay's pipeline goes by: the bay's page of registers, its pipeline, entries and recognisers, and
everything that no copy of a pipeline changes here. -/
def State.pipeCopy (h : Half) (b : Nat) (s : State) :
    State × (Fin 0x400 → Word) × BayPipe × (Fin 256 → PollEntry) × (Fin 64 → Recog) :=
  ({ s with regs := [], pollEntries := [], pipes := [], recogs := [] }, fun o => s.reg (bayKey h b + o), s.pipe h b,
    fun e => s.entryOf h b e, fun i => s.recog h b i)

section

variable {h : Half} {b : Nat} (s : State)

theorem State.entryOf_setEntryOf_other {e i : Nat} (x : PollEntry) (other : i ≠ e) :
    (s.setEntryOf h b e x).entryOf h b i = s.entryOf h b i :=
  tblGet_tblSet_other _ _ _ (by omega)

theorem State.recog_setRecog_other {i j : Nat} (x : Recog) (other : j ≠ i) :
    (s.setRecog h b i x).recog h b j = s.recog h b j :=
  tblGet_tblSet_other _ _ _ (by omega)

theorem State.entryOf_setReg (k e : Nat) (w : Word) : (s.setReg k w).entryOf h b e = s.entryOf h b e := by
  rw [State.entryOf, State.setReg_pollEntries, State.entryOf]

theorem State.pipe_setReg (k : Nat) (w : Word) : (s.setReg k w).pipe h b = s.pipe h b := by
  rw [State.pipe, State.setReg_pipes, State.pipe]

theorem State.recog_setReg (k i : Nat) (w : Word) : (s.setReg k w).recog h b i = s.recog h b i := by
  rw [State.recog, State.setReg_recogs, State.recog]

theorem pipeCopy_setEntryOf_other {e : Nat} (x : PollEntry) (he : e < 256) :
    (s.setEntryOf h.other b e x).pipeCopy h b = s.pipeCopy h b := by
  refine Prod.ext rfl (Prod.ext rfl (Prod.ext rfl (Prod.ext (funext fun i => tblGet_tblSet_other _ _ _ ?_) rfl)))
  cases h <;> (simp only [bayIx, Half.other, Half.num]; omega)

theorem pipeCopy_setReg_other {k : Nat} (other : ∀ o < 0x400, bayKey h b + o ≠ k) (w : Word) :
    (s.setReg k w).pipeCopy h b = s.pipeCopy h b :=
  Prod.ext rfl (Prod.ext (funext fun o => s.reg_setReg_other w (other o o.isLt)) (Prod.ext (s.pipe_setReg k w)
    (Prod.ext (funext fun e => s.entryOf_setReg k e w) (funext fun i => s.recog_setReg k i w))))

/-- The copies of the other half do not show. -/
theorem pipeCopy_other : PipeUnseen (State.pipeCopy h b) h.other b (Set.Iio 256) where
  setReg := fun s o w low => by
    refine pipeCopy_setReg_other s (fun i hi => ?_) w
    cases h <;> (simp only [bayKey, halfKey, Half.other, Half.num]; omega)
  setPipe := fun s x => by
    refine Prod.ext rfl (Prod.ext rfl (Prod.ext (tblGet_tblSet_other _ _ _ ?_) rfl))
    cases h <;> (simp only [bayIx, Half.other, Half.num]; omega)
  setEntryOf := fun s _ x own _ => pipeCopy_setEntryOf_other s x (Set.mem_Iio.mp own)
  setRecog := fun s i x low => by
    refine Prod.ext rfl (Prod.ext rfl (Prod.ext rfl (Prod.ext rfl (funext fun j => tblGet_tblSet_other _ _ _ ?_))))
    cases h <;> (simp only [bayIx, Half.other, Half.num]; omega)
  entries := fun _ low => Set.mem_Iio.mpr low

end

section

variable {h : Half} {b : Nat} {s t : State} (same : t.pipeCopy h b = s.pipeCopy h b)
include same

theorem rest_of_pipeCopy : (t.pipeCopy h b).1 = (s.pipeCopy h b).1 := congrArg Prod.fst same

theorem pipe_of_pipeCopy : t.pipe h b = s.pipe h b := congrArg (fun v => v.2.2.1) same

theorem entryOf_of_pipeCopy {e : Nat} (he : e < 256) : t.entryOf h b e = s.entryOf h b e :=
  congrFun (congrArg (fun v => v.2.2.2.1) same) ⟨e, he⟩

theorem recog_of_pipeCopy {i : Nat} (hi : i < 64) : t.recog h b i = s.recog h b i :=
  congrFun (congrArg (fun v => v.2.2.2.2) same) ⟨i, hi⟩

theorem get_of_pipeCopy {f : Fld} (low : f.addr < 0x400) : t.get (bayKey h b) f = s.get (bayKey h b) f := by
  have reg : t.reg (bayKey h b + f.addr) = s.reg (bayKey h b + f.addr) := congrFun (congrArg (fun v => v.2.1) same) ⟨_, low⟩
  rw [State.get, reg, State.get]

theorem flag_of_pipeCopy {f : Fld} (low : f.addr < 0x400) : t.flag (bayKey h b) f = s.flag (bayKey h b) f := by
  rw [State.flag, get_of_pipeCopy same low, State.flag]

theorem staging_of_pipeCopy : t.staging = s.staging := (congrArg State.staging (rest_of_pipeCopy same) :)

theorem timeNs_of_pipeCopy : t.timeNs = s.timeNs := (congrArg State.timeNs (rest_of_pipeCopy same) :)

theorem computes_of_pipeCopy : t.computes h = s.computes h := by
  cases h with
  | A => exact (congrArg (fun u : State => u.computes .A) (rest_of_pipeCopy same) :)
  | B => exact (congrArg (fun u : State => u.computes .B) (rest_of_pipeCopy same) :)

theorem setFading_of_pipeCopy (i : Nat) : t.setFading h b i = s.setFading h b i := by
  unfold State.setFading
  rw [Bool.eq_iff_iff, List.any_eq_true, List.any_eq_true]
  refine exists_congr fun e => and_congr_right fun mem => ?_
  rw [entryOf_of_pipeCopy same (List.mem_range.mp mem)]

end

/-- After an accepted write half h's copy is as its own act leaves it, from a state that shows it what stood there before. -/
theorem bayWrite_pipeCopy {h : Half} {m : Master} {b : Nat} {s : State} {f : Half → State → State} (a : Nat)
    (acts : ∀ u, (f h.other u).pipeCopy h b = u.pipeCopy h b) (runs : s.computes h = true) (ok : s.bayWriteOk m b = true) :
    ∃ v, v.pipeCopy h b = s.pipeCopy h b ∧ (s.bayWrite m b a f).pipeCopy h b = (f h v).pipeCopy h b := by
  have before : (s.turn h f).pipeCopy h b = s.pipeCopy h b := view_turn s acts
  refine ⟨_, before, ?_⟩
  rw [bayWrite_accepted ok]
  exact view_onCopies_turn s acts ((computes_of_pipeCopy before).trans runs)

/-- The state but for what the masters have staged. -/
def State.unstaged (s : State) : State := { s with staging := [] }

theorem unstaged_staging (s : State) (x : Tbl Word) : { s with staging := x }.unstaged = s.unstaged := rfl

section

variable {s t : State} (same : t.unstaged = s.unstaged) (h : Half) (b : Nat)
include same

theorem pipe_of_unstaged : t.pipe h b = s.pipe h b := (congrArg (fun v : State => v.pipe h b) same :)

theorem entryOf_of_unstaged (e : Nat) : t.entryOf h b e = s.entryOf h b e :=
  (congrArg (fun v : State => v.entryOf h b e) same :)

theorem get_of_unstaged (k : Nat) (f : Fld) : t.get k f = s.get k f := (congrArg (fun v : State => v.get k f) same :)

theorem flag_of_unstaged (k : Nat) (f : Fld) : t.flag k f = s.flag k f := (congrArg (fun v : State => v.flag k f) same :)

end

/-! ## Commits of poll entries (R284, R314) -/

section

variable {h : Half} {b : Nat} (s : State)

theorem entryOf_advanceTa (e : Nat) : (advanceTa h b s).entryOf h b e = s.entryOf h b e :=
  (State.entryOf_setReg _ _ e _).trans (State.entryOf_setReg _ _ e _)

theorem word_advanceTa (two : s.get (bayKey h b) Reg.PL_TA_WORD = 2) :
    (advanceTa h b s).get (bayKey h b) Reg.PL_TA_WORD = 3 := by
  unfold advanceTa
  dsimp only
  rw [State.get_put _ _ _ _ (by decide) (by decide), two]
  simp only [Nat.reduceAdd, Nat.reduceSub, Nat.reducePow]
  omega

theorem flag_advanceTa {f : Fld} (other : f.addr ≠ Reg.PL_TA) : (advanceTa h b s).flag (bayKey h b) f = s.flag (bayKey h b) f :=
  (flag_setReg_other _ _ other _).trans (flag_setReg_other _ _ other _)

theorem writePlTd_of_word (st : Nat → Nat → Option Word) (w : Word) (two : s.get (bayKey h b) Reg.PL_TA_WORD = 2) :
    writePlTd h b st w s = advanceTa h b (commitEntry h b (s.get (bayKey h b) Reg.PL_TA_ENTRY)
      (st (s.get (bayKey h b) Reg.PL_TA_ENTRY) 0) (st (s.get (bayKey h b) Reg.PL_TA_ENTRY) 1) w s) := by
  unfold writePlTd
  simp only [two]

variable {e : Nat} {st0 st1 : Option Word} {w : Word}

theorem commitEntry_of_refused (refused : ((s.entryOf h b e).staged st0 st1 w).refused = true) :
    commitEntry h b e st0 st1 w s = plMark h b Reg.PL_STAT_BAD s := by
  unfold commitEntry
  dsimp only
  rw [if_pos refused]

/-- Of an entry, its place on the grid is all that shows. -/
theorem grid_unseen (e : Nat) : EntriesUnseen (fun s : State => (s.entryOf h b e).grid) h b (Set.Iio 256) where
  setPipe := fun _ _ => rfl
  setEntryOf := fun s i x _ same => by
    by_cases here : e = i
    · subst here
      rw [State.entryOf_setEntryOf, same]
    · rw [State.entryOf_setEntryOf_other s x here]
  setRecog := fun _ _ _ _ => rfl
  entries := fun _ low => Set.mem_Iio.mpr low

/-- Nor does a register change when commits take effect. -/
theorem regs_unseen : EntriesUnseen State.regs h b Set.univ where
  setPipe := fun _ _ => rfl
  setEntryOf := fun _ _ _ _ _ => rfl
  setRecog := fun _ _ _ _ => rfl
  entries := fun _ _ => trivial

theorem regs_commitEntry (taken : ((s.entryOf h b e).staged st0 st1 w).refused = false) :
    (commitEntry h b e st0 st1 w s).regs = s.regs := by
  unfold commitEntry
  dsimp only
  rw [if_neg (ne_true_of_eq_false taken)]
  exact regs_unseen.settleCommits _ trivial

/-- A commit that is not refused puts the entry on its new grid, whenever it takes effect on the chains. -/
theorem grid_commitEntry (he : e < 256) (taken : ((s.entryOf h b e).staged st0 st1 w).refused = false) :
    ((commitEntry h b e st0 st1 w s).entryOf h b e).grid
      = ({ (s.entryOf h b e).staged st0 st1 w with
          due := ((s.entryOf h b e).staged st0 st1 w).nextDue s.timeNs } : PollEntry).grid := by
  unfold commitEntry
  dsimp only
  rw [if_neg (ne_true_of_eq_false taken)]
  refine ((grid_unseen e).settleCommits _ he).trans ?_
  rw [State.entryOf_setEntryOf]
  rfl

end

section

variable {h : Half} {m : Master} {b e : Nat} {s t : State} {value : Word}

theorem unstagedTd_of_del (i : Nat) (hi : i < 2) (k : Nat) (hk : k = tableKey m ((256 * b + e) * 2))
    (staging : t.staging = tblDel (tblDel s.staging k) (k + 1)) : t.stagedTd m b e i = none := by
  have here : tableKey m ((256 * b + e) * 2 + i) = k + i := by
    rw [hk, tableKey, tableKey]
    omega
  rw [State.stagedTd, here, staging]
  obtain rfl | rfl : i = 0 ∨ i = 1 := by omega
  · rw [tblFind_tblDel_other _ (by omega), Nat.add_zero, tblFind_tblDel_same]
  · exact tblFind_tblDel_same _ _

end

/-! ## Custom sets (R298 to R300) -/

section

variable {h : Half} {b : Nat} (s : State)

theorem pipe_applySet (i : Nat) (f : FirSet) (plain : List Nat) :
    (applySet h b i f plain s).pipe h b
      = (s.pipe h b).setCustom i { (s.pipe h b).custom i with now := f, held := none } := by
  unfold applySet
  refine (view_foldl (view := fun v : State => v.pipe h b) (fun v e => ?_) _ _).trans (State.pipe_setPipe ..)
  dsimp only
  split <;> rfl

theorem commitSet_of_free {i : Nat} {f : FirSet} (good : f.bad = false) (free : s.setFading h b i = false) :
    commitSet h b i f s = applySet h b i f [] s := by
  unfold commitSet
  dsimp only
  rw [if_neg (ne_true_of_eq_false good), if_neg (ne_true_of_eq_false free)]

theorem commitSet_of_bad {i : Nat} {f : FirSet} (bad : f.bad = true) :
    commitSet h b i f s = s.put (bayKey h b) Reg.PL_CSTAT_BAD 1 := by
  unfold commitSet
  dsimp only
  rw [if_pos bad]

theorem unstaged_unstageSet (m : Master) (i : Nat) (now : FirSet) : (unstageSet m b i now s).unstaged = s.unstaged := by
  unfold unstageSet
  by_cases bad : (s.stagedSet m b i now).bad = true
  · rw [if_pos bad]
  · rw [if_neg bad]
    exact unstaged_staging s _

theorem unstaged_ccmtWrite {m : Master} (w : Word) (ok : s.bayWriteOk m b = true) :
    (ccmtWrite m b w s).unstaged = (s.bayWrite m b (0x10000 + 0x400 * b + Reg.PL_CCMT) fun h u =>
      writeCcmt h b (fun i now => s.stagedSet m b i now) w u).unstaged := by
  unfold ccmtWrite
  rw [if_pos ok]
  exact (view_ite (unstaged_unstageSet · m 1 _) _).trans (view_ite (unstaged_unstageSet · m 0 _) _)

end

/-! ## Recognisers (R303, R304, R319) -/

section

variable {h : Half} {b : Nat} (s : State)

theorem recog_writeRgCfg (i : Nat) (w : Word) :
    ((writeRgCfg h b i w s).recog h b i).cfg = setBits w 10 8 0
      ∧ ((bits w 18 15 ≠ bits (s.recog h b i).cfg 18 15 ∨ bits w 7 0 ≠ bits (s.recog h b i).cfg 7 0) →
          ((writeRgCfg h b i w s).recog h b i) = { (s.recog h b i).idle with cfg := setBits w 10 8 0 }) := by
  unfold writeRgCfg
  dsimp only
  rw [State.recog_setRecog, bits_setBits_apart _ _ _ _ _ _ (by decide) (by decide) (by decide),
    bits_setBits_apart _ _ _ _ _ _ (by decide) (by decide) (by decide)]
  refine ⟨rfl, fun changed => ?_⟩
  have changed : (decide (bits (s.recog h b i).cfg 18 15 ≠ bits w 18 15)
      || decide (bits (s.recog h b i).cfg 7 0 ≠ bits w 7 0)) = true := by
    rw [Bool.or_eq_true, decide_eq_true_iff, decide_eq_true_iff]
    exact changed.imp Ne.symm Ne.symm
  rw [changed, Bool.true_or, if_pos rfl]

/-- An acknowledge clears PEND of each recogniser that it lists. -/
theorem recog_ack {i : Nat} {l : List Nat} (once : l.Nodup) (mem : i ∈ l) :
    (l.foldl (fun s i => s.setRecog h b i { s.recog h b i with pend := false }) s).recog h b i
      = { s.recog h b i with pend := false } :=
  foldl_reaches (R := fun v : State => v.recog h b i = s.recog h b i)
    (Q := fun v : State => v.recog h b i = { s.recog h b i with pend := false })
    (fun v start => by rw [State.recog_setRecog, start])
    (fun _ _ other v start => (State.recog_setRecog_other v _ (Ne.symm other)).trans start)
    (fun _ _ other v done => (State.recog_setRecog_other v _ (Ne.symm other)).trans done) once mem rfl

theorem recog_writeRgAck {i : Nat} {w : Word} (hi : i < 64) (named : bits w 6 6 = 1 ∨ bits w 5 0 = i) :
    (writeRgAck h b w s).recog h b i = { s.recog h b i with pend := false } := by
  unfold writeRgAck
  dsimp only
  split
  · exact recog_ack s List.nodup_range (List.mem_range.mpr hi)
  · next one => exact recog_ack s (List.nodup_singleton _) (List.mem_singleton.mpr (named.resolve_left one).symm)

end

/-- As many true evaluations in a row as PERS asks for make an idle recogniser active. -/
theorem Recog.advance_hit {r : Recog} (idle : r.active = false) (last : max 1 (bits r.pc 19 12) ≤ r.n + 1) :
    r.advance true = ({ r with active := true, n := 0 }, some true) := by
  unfold Recog.advance
  rw [if_neg (ne_true_of_eq_false idle)]
  exact if_pos last

/-- As many false ones as CLR asks for make an active one idle. -/
theorem Recog.advance_release {r : Recog} (active : r.active = true) (last : max 1 (bits r.pc 11 4) ≤ r.n + 1) :
    r.advance false = ({ r with active := false, n := 0 }, some false) := by
  unfold Recog.advance
  rw [if_pos active]
  exact if_pos last

/-! ## The statement, clause by clause -/

section

variable {h : Half} {m : Master} {b : Fin 64} {s : State} (runs : s.computes h = true) (ok : s.bayWriteOk m b.val = true)

/-- Writes of PL_TD act on each copy alone. -/
theorem writePlTd_other (st : Nat → Nat → Option Word) (w : Word) (u : State) :
    (writePlTd h.other b.val st w u).pipeCopy h b = u.pipeCopy h b :=
  pipeCopy_other.writePlTd u (fun v _ x low => pipeCopy_setEntryOf_other v x low) st w

/-- What PL_TD's write stages or takes out shows in no copy. -/
theorem unstaged_stageTd (e i : Nat) (w : Word) (x : PollEntry) (t : State) : (stageTd m b e i w x t).unstaged = t.unstaged := by
  unfold stageTd
  dsimp only
  split_ifs <;> rfl

theorem stageTd_of_taken {e : Nat} {w : Word} {x : PollEntry} {t : State}
    (taken : (x.staged (t.stagedTd m b e 0) (t.stagedTd m b e 1) w).refused = false) :
    (stageTd m b e 2 w x t).staging
      = tblDel (tblDel t.staging (tableKey m ((256 * b.val + e) * 2))) (tableKey m ((256 * b.val + e) * 2) + 1) := by
  unfold stageTd
  dsimp only
  rw [if_neg (by decide), if_pos ⟨rfl, taken⟩]

/-- The staging of the masters shows none of what a copy's act changes. -/
theorem staging_unseen (g : Half) : PipeUnseen State.staging g b Set.univ where
  setReg := fun s _ w _ => s.setReg_staging _ w
  setPipe := fun _ _ => rfl
  setEntryOf := fun _ _ _ _ _ => rfl
  setRecog := fun _ _ _ _ => rfl
  entries := fun _ _ => trivial

variable {e : Nat} {value : Word} (view : h = s.viewOf b.val) (two : s.get (bayKey h b.val) Reg.PL_TA_WORD = 2)
  (entry : e = s.get (bayKey h b.val) Reg.PL_TA_ENTRY)
include runs ok view two entry

/-- A write of word 2: what half h's copy is before and after it, and what it leaves of the staging. -/
theorem exec_pollEntryCommit :
    ∃ v t : State, v.pipeCopy h b = s.pipeCopy h b ∧ t.staging = s.staging
      ∧ t.pipeCopy h b
        = (advanceTa h b (commitEntry h b e (s.stagedTd m b e 0) (s.stagedTd m b e 1) value v)).pipeCopy h b
      ∧ exec (.pollEntryCommit m b value) s = .next (stageTd m b e 2 value (s.entryOf h b e) t) := by
  have staging (a : Nat) : (s.bayWrite m b a fun h u => writePlTd h b (fun e i => s.stagedTd m b e i) value u).staging
      = s.staging := by
    rw [bayWrite_accepted ok]
    exact view_onCopies s fun g v => (staging_unseen g).writePlTd v (fun _ _ _ _ => rfl) _ _
  obtain ⟨v, before, after⟩ := bayWrite_pipeCopy (f := fun h u => writePlTd h b (fun e i => s.stagedTd m b e i) value u)
    (0x10000 + 0x400 * b + Reg.PL_TD) (writePlTd_other _ value) runs ok
  refine ⟨v, _, before, staging _, after.trans ?_, ?_⟩
  · rw [writePlTd_of_word v _ _ ((get_of_pipeCopy before (by decide)).trans two), get_of_pipeCopy before (by decide), ← entry]
  · show execPollEntryCommit m b value s = _
    rw [execPollEntryCommit, ← view, if_pos two, plTdWrite, if_pos ok, ← view, two, ← entry]

variable {x : PollEntry} (staged : x = (s.entryOf h b e).staged (s.stagedTd m b e 0) (s.stagedTd m b e 1) value)
include staged

theorem pollEntryCommit_refused (refused : x.refused = true) :
    Gives (.pollEntryCommit m b value) s (fun t =>
      t.entryOf h b e = s.entryOf h b e ∧ t.flag (bayKey h b) Reg.PL_STAT_BAD = true
        ∧ t.get (bayKey h b) Reg.PL_TA_WORD = 3) := by
  have low : e < 256 := entry ▸ bits_lt _ _ _
  obtain ⟨v, t, before, -, after, answer⟩ := exec_pollEntryCommit runs ok view two entry (value := value)
  have same := entryOf_of_pipeCopy before low
  have wordTwo := (get_of_pipeCopy before (f := Reg.PL_TA_WORD) (by decide)).trans two
  rw [commitEntry_of_refused v (by rw [same, ← staged, refused])] at after
  refine .intro answer ?_
  have kept := unstaged_stageTd (m := m) (b := b) e 2 value (s.entryOf h b e) t
  refine ⟨?_, ?_, ?_⟩
  · rw [entryOf_of_unstaged kept, entryOf_of_pipeCopy after low, entryOf_advanceTa, plMark, State.put, State.entryOf_setReg,
      same]
  · rw [flag_of_unstaged kept, flag_of_pipeCopy after (by decide), flag_advanceTa _ (by decide), plMark,
      flag_put_one _ _ (by decide) rfl]
  · rw [get_of_unstaged kept, get_of_pipeCopy after (by decide), word_advanceTa]
    rw [plMark, State.get_put_other _ _ _ _ _ _ (by simp), wordTwo]

theorem pollEntryCommit_taken (taken : x.refused = false) :
    Gives (.pollEntryCommit m b value) s (fun t =>
      (t.entryOf h b e).w0 = x.w0 ∧ (t.entryOf h b e).w1 = x.w1 ∧ (t.entryOf h b e).w2 = value
        ∧ (t.entryOf h b e).due = x.nextDue s.timeNs
        ∧ t.stagedTd m b e 0 = none ∧ t.stagedTd m b e 1 = none
        ∧ t.get (bayKey h b) Reg.PL_TA_WORD = 3) := by
  have low : e < 256 := entry ▸ bits_lt _ _ _
  obtain ⟨v, t, before, staging, after, answer⟩ := exec_pollEntryCommit runs ok view two entry (value := value)
  have same := entryOf_of_pipeCopy before low
  have wordTwo := (get_of_pipeCopy before (f := Reg.PL_TA_WORD) (by decide)).trans two
  have stagedThere (i : Nat) : t.stagedTd m b e i = s.stagedTd m b e i := by rw [State.stagedTd, staging, State.stagedTd]
  have out := stageTd_of_taken (m := m) (b := b) (e := e) (w := value) (x := s.entryOf h b e) (t := t)
    (by rw [stagedThere, stagedThere, ← staged, taken])
  have placed : (t.entryOf h b e).grid = ({ x with due := x.nextDue s.timeNs } : PollEntry).grid := by
    rw [entryOf_of_pipeCopy after low, entryOf_advanceTa,
      grid_commitEntry v low (by rw [same, ← staged, taken]), same, ← staged, timeNs_of_pipeCopy before]
  refine .intro answer ?_
  have kept := unstaged_stageTd (m := m) (b := b) e 2 value (s.entryOf h b e) t
  rw [entryOf_of_unstaged kept, get_of_unstaged kept]
  obtain ⟨w0, w1, w2, due⟩ : (t.entryOf h b e).w0 = x.w0 ∧ (t.entryOf h b e).w1 = x.w1 ∧ (t.entryOf h b e).w2 = x.w2
      ∧ (t.entryOf h b e).due = x.nextDue s.timeNs := by
    simpa only [PollEntry.grid, Prod.mk.injEq] using placed
  refine ⟨w0, w1, w2.trans (by rw [staged]; rfl), due, unstagedTd_of_del 0 (by decide) _ rfl out,
    unstagedTd_of_del 1 (by decide) _ rfl out, (get_of_pipeCopy after (by decide)).trans (word_advanceTa _ ?_)⟩
  have word : (commitEntry h b e (s.stagedTd m b e 0) (s.stagedTd m b e 1) value v).get (bayKey h b) Reg.PL_TA_WORD
      = v.get (bayKey h b) Reg.PL_TA_WORD := by
    rw [State.get, State.reg, regs_commitEntry v (by rw [same, ← staged, taken]), State.get, State.reg]
  rw [word, wordTwo]

end

section

variable {h : Half} {m : Master} {b : Fin 64} {s : State} (runs : s.computes h = true) (ok : s.bayWriteOk m b.val = true)
include runs ok

/-- A commit of custom sets: what half h's copy is before and after it. -/
theorem customSetCommit_gives {w : Word} {Q : State → Prop}
    (effect : ∀ v u t : State, v.pipeCopy h b = s.pipeCopy h b →
      u.pipeCopy h b = (writeCcmt h b (fun i now => s.stagedSet m b i now) w v).pipeCopy h b →
      t.unstaged = u.unstaged → Q t) : Gives (.customSetCommit m b w) s Q := by
  obtain ⟨v, before, after⟩ := bayWrite_pipeCopy (f := fun h u => writeCcmt h b (fun i now => s.stagedSet m b i now) w u)
    (0x10000 + 0x400 * b + Reg.PL_CCMT) (fun u => pipeCopy_other.writeCcmt u _ w) runs ok
  exact .intro rfl (effect v _ _ before after (unstaged_ccmtWrite s w ok))

theorem customSetCommit_taken {f : FirSet} (staged : f = s.stagedSet m b 0 (s.pipe h b).set0.now) (good : f.bad = false)
    (free : s.setFading h b 0 = false) :
    Gives (.customSetCommit m b 1) s (fun t =>
      (t.pipe h b).set0.now = f ∧ (t.pipe h b).set0.held = none ∧ (t.pipe h b).set1 = (s.pipe h b).set1) := by
  refine customSetCommit_gives runs ok fun v u t before after kept => ?_
  have same := pipe_of_pipeCopy before
  have written : writeCcmt h b (fun i now => s.stagedSet m b i now) 1 v = applySet h b 0 f [] v := by
    rw [writeCcmt, if_neg (by decide), if_pos (by decide)]
    show commitSet h b 0 (s.stagedSet m b 0 (v.pipe h b).set0.now) v = _
    rw [same, ← staged, commitSet_of_free v good ((setFading_of_pipeCopy before 0).trans free)]
  have pipe : t.pipe h b = { s.pipe h b with set0 := { now := f, held := none } } := by
    rw [pipe_of_unstaged kept, pipe_of_pipeCopy after, written, pipe_applySet, same]
    rfl
  rw [pipe]
  exact ⟨rfl, rfl, rfl⟩

theorem customSetCommit_refused {f : FirSet} (staged : f = s.stagedSet m b 1 (s.pipe h b).set1.now) (bad : f.bad = true) :
    Gives (.customSetCommit m b 2) s (fun t =>
      t.flag (bayKey h b) Reg.PL_CSTAT_BAD = true ∧ t.pipe h b = s.pipe h b) := by
  refine customSetCommit_gives runs ok fun v u t before after kept => ?_
  have same := pipe_of_pipeCopy before
  have written : writeCcmt h b (fun i now => s.stagedSet m b i now) 2 v = v.put (bayKey h b) Reg.PL_CSTAT_BAD 1 := by
    rw [writeCcmt, if_pos (by decide), if_neg (by decide)]
    show commitSet h b 1 (s.stagedSet m b 1 (v.pipe h b).set1.now) v = _
    rw [same, ← staged, commitSet_of_bad v bad]
  rw [written] at after
  constructor
  · rw [flag_of_unstaged kept, flag_of_pipeCopy after (by decide), flag_put_one _ _ (by decide) rfl]
  · rw [pipe_of_unstaged kept, pipe_of_pipeCopy after, State.put, State.pipe_setReg, same]

theorem recogniserConfigWrite_gives {i : Nat} (value : Word) (selected : i = s.get (bayKey h b) Reg.RG_SEL_SEL) :
    Gives (.recogniserConfigWrite m b value) s (fun t =>
      (t.recog h b i).cfg = setBits value 10 8 0
        ∧ ((bits value 18 15 ≠ bits (s.recog h b i).cfg 18 15 ∨ bits value 7 0 ≠ bits (s.recog h b i).cfg 7 0) →
            (t.recog h b i).active = false ∧ (t.recog h b i).n = 0 ∧ (t.recog h b i).hist = []
              ∧ (t.recog h b i).ref = none)) := by
  have low (u : State) (g : Half) : u.get (bayKey g b) Reg.RG_SEL_SEL < 64 := bits_lt _ _ _
  obtain ⟨v, before, after⟩ := bayWrite_pipeCopy
    (f := fun h u => writeRgCfg h b (u.get (bayKey h b) Reg.RG_SEL_SEL) value u)
    (0x10000 + 0x400 * b + Reg.RG_CFG) (fun u => pipeCopy_other.writeRgCfg u (low u _) value) runs ok
  have here : i < 64 := selected ▸ low s h
  rw [get_of_pipeCopy before (by decide), ← selected] at after
  obtain ⟨cfg, idle⟩ := recog_writeRgCfg (h := h) (b := b) v i value
  refine .intro rfl ?_
  rw [recog_of_pipeCopy after here, ← recog_of_pipeCopy before here]
  refine ⟨cfg, fun changed => ?_⟩
  rw [idle changed]
  exact ⟨rfl, rfl, rfl, rfl⟩

theorem recogniserAck_gives {i : Nat} {value : Word} (hi : i < 64) (named : bits value 6 6 = 1 ∨ bits value 5 0 = i) :
    Gives (.recogniserAck m b value) s (fun t => t.recog h b i = { s.recog h b i with pend := false }) := by
  obtain ⟨v, before, after⟩ := bayWrite_pipeCopy (f := fun h u => writeRgAck h b value u)
    (0x10000 + 0x400 * b + Reg.RG_ACK) (fun u => pipeCopy_other.writeRgAck u value) runs ok
  refine .intro rfl ?_
  rw [recog_of_pipeCopy after hi, recog_writeRgAck v hi named, recog_of_pipeCopy before hi]

end

theorem FirSet.bad_iff (f : FirSet) : f.bad = true ↔ f.k < 3 ∨ 5 < f.k ∨ f.logD < 1 ∨ 5 < f.logD := decide_eq_true_iff

/-- Settles O22: each write acts on the copies apart, and what a copy's own act brings about is said of that act. -/
theorem pipelineSettingsTakeEffect : Obligations.PipelineSettingsTakeEffect := by
  refine ⟨?_, ?_, ?_, ?_, ?_, ?_, fun r => Recog.advance_hit, fun r => Recog.advance_release⟩
  · exact fun h m b e value x s runs view ok two entry staged refused =>
      pollEntryCommit_refused runs ok view two entry staged refused
  · exact fun h m b e value x s runs view ok two entry staged taken =>
      pollEntryCommit_taken runs ok view two entry staged taken
  · intro h m b f s runs ok staged k3 k5 d1 d5 free
    have good : f.bad = false := by
      rw [← Bool.not_eq_true, FirSet.bad_iff]
      omega
    exact customSetCommit_taken runs ok staged good free
  · exact fun h m b f s runs ok staged bad => customSetCommit_refused runs ok staged (f.bad_iff.mpr bad)
  · exact fun h m b i value s runs ok selected => recogniserConfigWrite_gives runs ok value selected
  · exact fun h m b value i s runs ok hi named => recogniserAck_gives runs ok hi named

end Sys2Proof.Machine
end

section
/-! SUPPORT. What the sampling pipeline leaves alone (R282 to R321): a view of the state in which pipelines, recognisers, lines,
what codes, budgets, events, what alarms send, and registers do not show. -/

namespace Sys2Proof.Machine

/-! ## Coding and accesses -/

section

variable (h : Half) (k : ((codingKeys h)ᶜ : Set Nat)) (s : State)

@[simp] theorem apartCoding_sealChan (c : Nat) (flush : Bool) (before : Option Nat) (force : Bool) :
    (sealChan h c flush before force s).apartCoding h k = s.apartCoding h k := by
  simp [sealChan, codeWaiting]

@[simp] theorem apartCoding_pushRecord (c rtype : Nat) (payload : List Byte) :
    (pushRecord h c rtype payload s).apartCoding h k = s.apartCoding h k := by
  unfold pushRecord
  dsimp only
  split <;> simp

@[simp] theorem apartCoding_pushItem (x : Item) : (pushItem h x s).apartCoding h k = s.apartCoding h k := by
  unfold pushItem
  dsimp only
  split <;> simp

end

/-! ## The view -/

/-- What sampling commands leave: the state but for what the claim names. -/
def State.besideSampling (s : State) : State :=
  { s with
    regs := [], staging := [], halfA := { s.halfA with budget := Budget.reset },
    halfB := { s.halfB with budget := Budget.reset }, consumers := [], timebases := [], lines := [], freeCount := 0,
    pollEntries := [], pipes := [], recogs := [], coders := [], codeHalves := [], chans := [], bushels := [], links := [],
    router := Router.reset, ports := [], power := { s.power with matrixWake := false } }

theorem besideSampling_of_send {s t : State} (only : SendOnly s t) : t.besideSampling = s.besideSampling := by
  obtain ⟨_, _, _, _, _, _, _, _, _, _, rfl⟩ := only
  rfl

theorem besideSampling_of_coding {h : Half} {s t : State} (kept : ∀ k, t.apartCoding h k = s.apartCoding h k) :
    t.besideSampling = s.besideSampling :=
  (congrArg (fun v => State.besideSampling v.1) (kept ⟨0, by simp [codingKeys]⟩) :)

theorem besideSampling_of_unstaged {s t : State} (same : t.unstaged = s.unstaged) : t.besideSampling = s.besideSampling :=
  (congrArg State.besideSampling same :)

section

variable (h : Half) (b : Nat) (s : State)

@[simp] theorem besideSampling_setReg (k : Nat) (w : Word) : (s.setReg k w).besideSampling = s.besideSampling := (rfl)

@[simp] theorem besideSampling_put (k : Nat) (f : Fld) (v : Nat) : (s.put k f v).besideSampling = s.besideSampling :=
  besideSampling_setReg s _ _

@[simp] theorem besideSampling_count (k n : Nat) : (s.count k n).besideSampling = s.besideSampling :=
  besideSampling_setReg s _ _

@[simp] theorem besideSampling_refuseWrite (a : Nat) : (s.refuseWrite h a).besideSampling = s.besideSampling :=
  (besideSampling_setReg _ _ _).trans (besideSampling_count s _ _)

@[simp] theorem besideSampling_plainWrite (k : Nat) (w : Word) : (s.plainWrite k w).besideSampling = s.besideSampling := by
  obtain same | ⟨v, same⟩ := plainWrite_cases s k w
  · rw [same]
  · rw [same, besideSampling_setReg]

@[simp] theorem besideSampling_setLine (x : Line) : (s.setLine h b x).besideSampling = s.besideSampling := (rfl)

@[simp] theorem besideSampling_setPipe (x : BayPipe) : (s.setPipe h b x).besideSampling = s.besideSampling := (rfl)

@[simp] theorem besideSampling_setEntryOf (e : Nat) (x : PollEntry) :
    (s.setEntryOf h b e x).besideSampling = s.besideSampling := (rfl)

@[simp] theorem besideSampling_setRecog (i : Nat) (x : Recog) : (s.setRecog h b i x).besideSampling = s.besideSampling := (rfl)

theorem besideSampling_unseen : PipeUnseen State.besideSampling h b Set.univ where
  setReg := fun s _ w _ => besideSampling_setReg s _ w
  setPipe := fun s x => besideSampling_setPipe h b s x
  setEntryOf := fun s _ x _ _ => besideSampling_setEntryOf h b s _ x
  setRecog := fun s _ x _ => besideSampling_setRecog h b s _ x
  entries := fun _ _ => trivial

@[simp] theorem besideSampling_raiseBayEvent (e : BayEvent) : (raiseBayEvent h b e s).besideSampling = s.besideSampling :=
  besideSampling_of_send (raiseBayEvent_only h b e s).send

@[simp] theorem besideSampling_pushRecord (c rtype : Nat) (payload : List Byte) :
    (pushRecord h c rtype payload s).besideSampling = s.besideSampling :=
  besideSampling_of_coding fun k => apartCoding_pushRecord h k s c rtype payload

@[simp] theorem besideSampling_pushItem (x : Item) : (pushItem h x s).besideSampling = s.besideSampling :=
  besideSampling_of_coding fun k => apartCoding_pushItem h k s x

@[simp] theorem besideSampling_bayRecord (en : Fld) (rtype : Nat) (payload : List Byte) :
    (bayRecord h b en rtype payload s).besideSampling = s.besideSampling :=
  besideSampling_of_coding fun k => apartCoding_bayRecord h k s b en rtype payload

@[simp] theorem besideSampling_countPl (k n : Nat) : (countPl h b k n s).besideSampling = s.besideSampling :=
  besideSampling_count s _ n

@[simp] theorem besideSampling_plMark (f : Fld) : (plMark h b f s).besideSampling = s.besideSampling :=
  besideSampling_put s _ f 1

theorem besideSampling_withAccess {f : State → State} (acts : ∀ v, (f v).besideSampling = v.besideSampling) (a r : Nat) :
    (withAccess h a r f s).besideSampling = s.besideSampling := by
  cases granted : s.access h a r with
  | some t => rw [withAccess_of f granted, acts, besideSampling_of_send (access_only granted)]
  | none => rw [withAccess_none f granted, besideSampling_of_send (awaitAccess_only h a r s)]

/-! ## Entry P (R231, R232, R287) -/

@[simp] theorem besideSampling_endEntry (e st : Nat) : (endEntry h b e st s).besideSampling = s.besideSampling := by
  have logged (v : State) : (setLineStat h b Reg.LN_STAT_NOLOCK v).besideSampling = v.besideSampling := by
    unfold setLineStat
    split <;> simp
  rw [endEntry_eq, logEnd, besideSampling_raiseBayEvent]
  split_ifs <;> simp [logged, countLine]

@[simp] theorem besideSampling_cancelEntry (e : Nat) : (cancelEntry h b e s).besideSampling = s.besideSampling := by
  unfold cancelEntry
  dsimp only
  split_ifs <;> simp

/-! ## The input queue (R289, R290, R310) -/

@[simp] theorem besideSampling_pushInput (i : PInput) : (pushInput h b i s).besideSampling = s.besideSampling := by
  unfold pushInput queueInput
  dsimp only
  split_ifs <;> simp

@[simp] theorem besideSampling_freeHeld : (freeHeld h b s).besideSampling = s.besideSampling :=
  (view_foldl (fun v i => besideSampling_pushInput h b v i) _ _).trans (besideSampling_setPipe h b s _)

@[simp] theorem besideSampling_missParts (p : Poll) (cause : Nat) :
    (missParts h b p cause s).besideSampling = s.besideSampling :=
  (besideSampling_freeHeld h b _).trans (view_foldl (fun v _ => besideSampling_pushInput h b v _) _ s)

@[simp] theorem besideSampling_endIdent (st : Nat) : (endIdent h b st s).besideSampling = s.besideSampling := by
  simp [endIdent]

@[simp] theorem besideSampling_settleP : (settleP h b s).besideSampling = s.besideSampling := by
  unfold settleP
  dsimp only
  split
  · rfl
  · split
    · simp
    · split_ifs <;> simp

@[simp] theorem besideSampling_loadP (p : Poll) : (loadP h b p s).besideSampling = s.besideSampling := by
  unfold loadP
  dsimp only
  split_ifs <;> simp

/-! ## Instants and POLLs (R283, R288, R289, R291) -/

@[simp] theorem besideSampling_abandonPoll (p : Poll) : (abandonPoll h b p s).besideSampling = s.besideSampling := by
  simp [abandonPoll]

@[simp] theorem besideSampling_abandonPolls (e : Nat) : (abandonPolls h b e s).besideSampling = s.besideSampling := by
  refine (view_foldl (fun v p => ?_) _ _).trans (besideSampling_setPipe h b s _)
  dsimp only
  rw [besideSampling_abandonPoll]
  split
  · rw [besideSampling_setLine, besideSampling_cancelEntry]
  · rfl

theorem besideSampling_takeSample (e kn t : Nat) : (takeSample h b e kn t s).besideSampling = s.besideSampling := by
  unfold takeSample
  dsimp only
  split <;> simp

theorem besideSampling_entryInstant (e : Nat) : (entryInstant h b e s).besideSampling = s.besideSampling := by
  unfold entryInstant
  dsimp only
  split
  · rfl
  · split
    · simp
    · simp [besideSampling_takeSample]

theorem besideSampling_noReply (p : Poll) : (noReply h b p s).besideSampling = s.besideSampling := by
  unfold noReply
  dsimp only
  split_ifs <;> simp

/-! ## Recognisers and alarms (R301 to R308) -/

theorem besideSampling_handAlarm (e kind g : Nat) (x : Sample) : (handAlarm h b e kind g x s).besideSampling = s.besideSampling := by
  unfold handAlarm
  dsimp only
  split
  · next t handed =>
    unfold injectAlarm at handed
    split at handed
    · cases handed
    · cases handed
      exact besideSampling_of_send (SendOnly.trans _ _ _ (setRouter_send s _) (injectAll_only _ _))
  · exact view_onCopies s fun g v => by simp

theorem besideSampling_recogAct (i : Nat) (hit : Bool) (x : Sample) : (recogAct h b i hit x s).besideSampling = s.besideSampling := by
  unfold recogAct
  dsimp only
  split
  · rfl
  · rw [apply_ite State.besideSampling, besideSampling_handAlarm, ite_self]
    split <;> simp

theorem besideSampling_recogStep (i : Nat) (sgn : Bool) (v : Option Int) (x : Sample) :
    (recogStep h b i sgn v x s).besideSampling = s.besideSampling := by
  unfold recogStep
  dsimp only
  split
  · rw [besideSampling_recogAct, besideSampling_setRecog]
  · exact (view_ite (fun u => besideSampling_recogAct h b u i false _) _).trans (besideSampling_setRecog ..)
  · exact besideSampling_setRecog ..

@[simp] theorem besideSampling_recogAll (e src : Nat) (sgn : Bool) (v : Option Int) (x : Sample) :
    (recogAll h b e src sgn v x s).besideSampling = s.besideSampling :=
  view_foldl (fun u i => view_ite (fun u => besideSampling_recogStep h b u i sgn v x) u) _ s

@[simp] theorem besideSampling_recogMissing (e src : Nat) (tsync : Bool) (step n : Nat) :
    ∀ (ts : Nat) (s : State), (recogMissing h b e src tsync ts step n s).besideSampling = s.besideSampling := by
  induction n with
  | zero => exact fun _ _ => rfl
  | succ n ih => exact fun ts s => (ih _ _).trans (besideSampling_recogAll h b s e src false none _)

/-! ## An input through the chain (R290, R294, R297) -/

@[simp] theorem besideSampling_deliverItem (e : Nat) (v : Option Word) (miss n fl ts : Nat) :
    (deliverItem h b e v miss n fl ts s).besideSampling = s.besideSampling := by
  unfold deliverItem
  dsimp only
  rw [besideSampling_setEntryOf]
  split <;> simp

theorem besideSampling_feedInput (i : PInput) (v : Int) (subst : Bool) :
    (feedInput h b i v subst s).besideSampling = s.besideSampling := by
  unfold feedInput
  dsimp only
  split
  · simp [deliverOutput]
  · simp

theorem besideSampling_missOutputs (i : PInput) : (missOutputs h b i s).besideSampling = s.besideSampling := by
  unfold missOutputs
  dsimp only
  split <;> simp

theorem besideSampling_takeInput (i : PInput) : (takeInput h b i s).besideSampling = s.besideSampling := by
  have unseen := besideSampling_unseen h b
  unfold takeInput
  dsimp only
  rw [unseen.settleCommits _ trivial, besideSampling_freeHeld]
  cases i.value with
  | some w => simp [besideSampling_feedInput]
  | none =>
    dsimp only
    split
    · simp [besideSampling_feedInput]
    · simp [besideSampling_missOutputs, unseen.resetEntry _ (Set.mem_univ _)]

theorem besideSampling_takeHead : (takeHead h b s).besideSampling = s.besideSampling := by
  unfold takeHead
  dsimp only
  split
  · rw [(besideSampling_unseen h b).releaseHeld, besideSampling_takeInput, besideSampling_setPipe]
  · rfl

/-! ## Settings (R284, R285, R311, R312) -/

theorem besideSampling_writePlCfg (w : Word) : (writePlCfg h b w s).besideSampling = s.besideSampling := by
  have unseen := besideSampling_unseen h b
  have started (v : State) : (startPipe h b v).besideSampling = v.besideSampling := by
    refine (unseen.releaseHeld _ _).trans (view_foldl (fun u e => ?_) _ v)
    dsimp only
    split <;> simp
  have stopped (v : State) : (stopPipe h b v).besideSampling = v.besideSampling := by
    refine (view_foldl (fun u e => unseen.settleCommits u trivial) _ _).trans ?_
    split <;> simp
  unfold writePlCfg
  dsimp only
  split_ifs <;> simp [started, stopped]

theorem besideSampling_writeIdent (node : Nat) : (writeIdent h b node s).besideSampling = s.besideSampling := by
  unfold writeIdent
  dsimp only
  split <;> simp

end

/-! ## Commands -/

theorem besideSampling_bayWrite {m : Master} {b a : Nat} {f : Half → State → State} (s : State)
    (acts : ∀ h v, (f h v).besideSampling = v.besideSampling) : (s.bayWrite m b a f).besideSampling = s.besideSampling := by
  obtain same | same := bayWrite_cases s m b a f
  · rw [same, view_onCopies s acts]
  · rw [same, besideSampling_refuseWrite]

theorem besideSampling_plTdWrite (m : Master) (b : Fin 64) (w : Word) (s : State) :
    (plTdWrite m b w s).besideSampling = s.besideSampling := by
  unfold plTdWrite
  refine (view_ite (fun v => besideSampling_of_unstaged (unstaged_stageTd _ _ w _ v)) _).trans
    (besideSampling_bayWrite s fun h v => ?_)
  exact (besideSampling_unseen h b).writePlTd v (fun u e x _ => besideSampling_setEntryOf h b u e x) _ w

theorem besideSampling_ccmtWrite (m : Master) (b : Nat) (w : Word) (s : State) :
    (ccmtWrite m b w s).besideSampling = s.besideSampling := by
  have unstage (i : Nat) (now : FirSet) (v : State) : (unstageSet m b i now v).besideSampling = v.besideSampling :=
    besideSampling_of_unstaged (unstaged_unstageSet v m i now)
  have write : (s.bayWrite m b (0x10000 + 0x400 * b + Reg.PL_CCMT) fun h u =>
      writeCcmt h b (fun i now => s.stagedSet m b i now) w u).besideSampling = s.besideSampling :=
    besideSampling_bayWrite s fun h v => (besideSampling_unseen h b).writeCcmt v _ w
  unfold ccmtWrite
  split
  · exact ((view_ite (unstage 1 _) _).trans (view_ite (unstage 0 _) _)).trans write
  · exact write

/-- A command of the sampling group shows nowhere else. -/
theorem sampling_hides (c : Instr) (s : State) (group : groupOf c = .sampling) : Hides State.besideSampling c s := by
  have write {m : Master} {b a : Nat} {c : Instr} {f : Half → State → State}
      (answer : exec c s = .next (s.bayWrite m b a f)) (acts : ∀ h v, (f h v).besideSampling = v.besideSampling) :
      Hides State.besideSampling c s := .of_exec answer (besideSampling_bayWrite s acts)
  cases c
  case pollInstant b =>
    refine .of_exec rfl (view_onCopies s fun h v => ?_)
    split
    · exact view_foldl (fun u e => besideSampling_entryInstant h b u e) _ v
    · rfl
  case pollRelease b =>
    refine .of_exec rfl (view_onCopies s fun h v => ?_)
    split
    · split
      · dsimp only
        rw [besideSampling_settleP, besideSampling_loadP]
        split <;> simp
      · rfl
    · rfl
  case replyWaitExpiry b =>
    exact .of_exec rfl (view_onCopies s fun h v => view_foldl (fun u p => besideSampling_noReply h b u p) _ v)
  case pipelineInput b =>
    refine .of_exec rfl (view_ite (fun v => ?_) s)
    exact besideSampling_withAccess _ v (fun u => view_onCopies u fun g w => besideSampling_takeHead g b w) _ _
  case pollEntryCommit m b value => exact .of_exec rfl (view_ite (besideSampling_plTdWrite m b value) s)
  case pipelineEnable m b => exact write rfl fun h v => besideSampling_writePlCfg h b v _
  case pipelineDisable m b => exact write rfl fun h v => besideSampling_writePlCfg h b v _
  case identRequest m b node => exact write rfl fun h v => besideSampling_writeIdent h b v _
  case customSetCommit m b value => exact .of_exec rfl (besideSampling_ccmtWrite m b value s)
  case recogniserConfigWrite m b value =>
    exact write rfl fun h v => (besideSampling_unseen h b).writeRgCfg v (bits_lt _ _ _) value
  case recogniserAck m b value => exact write rfl fun h v => (besideSampling_unseen h b).writeRgAck v value
  all_goals cases group

end Sys2Proof.Machine
end

section
/-! PROOF. What sampling and coding commands leave (O54): for each group a view in which everything shows that its commands
leave. -/

namespace Sys2Proof.Machine

/-! ## An access of an activity (R84, R89) -/

section

variable {α : Type} {view : State → α} {h : Half} (unseen : ChargeUnseen view h) (s : State)
include unseen

theorem ChargeUnseen.chargeAccess (place : Nat) : view (chargeAccess h place s) = view s := by
  unfold Machine.chargeAccess
  obtain ⟨x, same | same⟩ := chargeTransfer_cases h { s with freeCount := s.freeCount + 1 } place
    (Config.holdTime s.freeCount)
  · rw [same, unseen.setBudget, unseen.freeCount]
  · rw [same, markFloor, raiseEvent, unseen.raiseEvents, unseen.floorOver, unseen.setBudget, unseen.freeCount]

theorem ChargeUnseen.admitTransfer {place : Nat} {t : State} (admitted : admitTransfer h place s = some t) :
    view t = view s := by
  unfold Machine.admitTransfer at admitted
  split_ifs at admitted
  · cases admitted
    rfl
  · cases admitted
    exact unseen.setBudget s _

/-- An access that waits for its acknowledge counts its wait in its activity's stall counter. -/
theorem ChargeUnseen.withAccess {a r : Nat} (resource : r < 4)
    (stalled : ∀ (v : State) (n : Nat), view (v.count (halfKey h + Reg.BG_STALL + a) n) = view v) {f : State → State}
    (acts : ∀ v, view (f v) = view v) : view (withAccess h a r f s) = view s := by
  cases granted : s.access h a r with
  | none =>
    rw [withAccess_none f granted]
    unfold awaitAccess
    split
    · rfl
    · exact unseen.setBudget s _
  | some t =>
    obtain ⟨u, admitted, rfl⟩ := Option.map_eq_some_iff.mp granted
    rw [withAccess_of f granted, acts, unseen.chargeAccess]
    unfold State.admitted at admitted
    dsimp only at admitted
    split at admitted
    · next w waits =>
      obtain ⟨v, taken, rfl⟩ := Option.map_eq_some_iff.mp (Option.ite_none_right_eq_some.mp admitted).2
      have place : w.1 = 4 * a + r := of_decide_eq_true (List.find?_some waits :)
      have activity : w.1 / 4 = a := by omega
      rw [release, activity, stalled, unseen.setBudget, unseen.admitTransfer s taken]
    · exact unseen.admitTransfer s admitted

end

/-! ## Coding -/

/-- What coding commands leave. -/
def State.besideCoding (s : State) : State × ({k // inBlocks .coding k = false} → Word) :=
  ({ s with
      regs := [], staging := [], halfA := { s.halfA with budget := Budget.reset, nextXcfg := none },
      halfB := { s.halfB with budget := Budget.reset, nextXcfg := none }, consumers := [], timebases := [], freeCount := 0,
      coders := [], codeHalves := [], chans := [], chanCfgs := [], bushels := [],
      power := { s.power with matrixWake := false } },
    s.regsBeside .coding)

theorem besideCoding_setReg {k : Nat} (own : inBlocks .coding k = true) (s : State) (w : Word) :
    (s.setReg k w).besideCoding = s.besideCoding := Prod.ext rfl (regsBeside_setReg own s w)

theorem inBlocks_coding_log {k : Nat} (log : k ∈ logKeys) : inBlocks .coding k = true :=
  inBlocks_logKeys (by decide) (by decide) (by decide) log

theorem besideCoding_of_coding {h : Half} {s t : State} (kept : ∀ k, t.apartCoding h k = s.apartCoding h k) :
    t.besideCoding = s.besideCoding := by
  have rest := congrArg Prod.fst (kept ⟨0, by simp [codingKeys]⟩)
  refine Prod.ext ?_ (funext fun k => congrArg Prod.snd (kept ⟨k.1, fun own => ?_⟩))
  · exact (congrArg (fun u : State => u.besideCoding.1) rest :)
  · simpa [inBlocks_coding_log (.inl ⟨h, own⟩)] using k.2

theorem besideCoding_raiseEvents (s : State) (ps : List Nat) : (raiseEvents ps s).besideCoding = s.besideCoding := by
  have captures := raiseEvents_captures ps s
  obtain ⟨r, c, i, w, only⟩ := raiseEvents_only ps s
  refine Prod.ext (by rw [only]; rfl) (funext fun k => captures.regs k.1 fun i hi o ho same => ?_)
  simpa [inBlocks_coding_log (.inr (.inl ⟨i, hi, o, ho, same⟩))] using k.2

theorem besideCoding_chargeUnseen (h : Half) : ChargeUnseen State.besideCoding h where
  setBudget := fun _ _ => by cases h <;> rfl
  floorOver := fun s =>
    besideCoding_setReg (inBlocks_half (lo := 0x602) (hi := 0x603) (by decide) h (by decide) (by decide) (by decide)) s _
  raiseEvents := besideCoding_raiseEvents
  freeCount := fun _ _ => rfl

section

variable (h : Half) (s : State)

theorem besideCoding_refuseWrite (a : Nat) : (s.refuseWrite h a).besideCoding = s.besideCoding := by
  have counted : (s.count (halfKey h + Reg.DEV_REFUSED) 1).besideCoding = s.besideCoding :=
    besideCoding_setReg (inBlocks_half (lo := 0xF09) (hi := 0xF0B) (by decide) h (by decide) (by decide) (by decide)) s _
  exact (besideCoding_setReg (inBlocks_half (lo := 0xF09) (hi := 0xF0B) (by decide) h (by decide) (by decide) (by decide))
    _ _).trans counted

theorem besideCoding_sealChan (c : Nat) (flush : Bool) (before : Option Nat) (force : Bool) :
    (sealChan h c flush before force s).besideCoding = s.besideCoding :=
  besideCoding_of_coding fun k => apartCoding_sealChan h k s c flush before force

/-- Coding once CODE has a grain. -/
theorem besideCoding_withAccess {f : State → State} (acts : ∀ k v, (f v).apartCoding h k = v.apartCoding h k) :
    (withAccess h actCode 0 f s).besideCoding = s.besideCoding := by
  have stall : inBlocks .coding (halfKey h + Reg.BG_STALL + actCode) = true := by
    rw [Nat.add_assoc]
    exact inBlocks_half (lo := 0x690) (hi := 0x69C) (by decide) h (by decide) (by decide) (by decide)
  exact (besideCoding_chargeUnseen h).withAccess s (by decide) (fun v _ => besideCoding_setReg stall v _)
    fun v => besideCoding_of_coding fun k => acts k v

theorem besideCoding_writeFlush (m : Master) (b : Nat) (w : Word) : (writeFlush m b w s).besideCoding = s.besideCoding := by
  unfold writeFlush flushBay sealWhere
  split
  · split
    · exact view_foldl (fun v c => besideCoding_sealChan _ v c _ _ _) _ s
    · split
      · exact besideCoding_sealChan _ s _ _ _ _
      · rfl
  · exact besideCoding_refuseWrite _ s _

theorem besideCoding_writeCcD {b : Nat} (hb : b < 64) (st : Nat → Option Word) (w : Word) :
    (writeCcD h b st w s).besideCoding = s.besideCoding := by
  have page {o : Nat} (low : o < 0x400) (v : State) (x : Word) : (v.setReg (bayKey h b + o) x).besideCoding = v.besideCoding :=
    besideCoding_setReg (inBlocks_bay (by decide) h hb low) v x
  have committed (c : Nat) (w0 : Word) (v : State) : (commitCoding h b c w0 w v).besideCoding = v.besideCoding := by
    unfold commitCoding
    split
    · exact page (by decide) v _
    · rfl
  unfold writeCcD
  rw [advanceCcA, page (by decide)]
  split
  · exact view_ite (committed _ _) s
  · rfl

theorem besideCoding_ccdWrite (m : Master) (b : Fin 64) (w : Word) : (ccdWrite m b w s).besideCoding = s.besideCoding := by
  have write : (s.bayWrite m b (0x10000 + 0x400 * b + Reg.CC_D) fun h u =>
      writeCcD h b (fun c => s.stagedCc m c) w u).besideCoding = s.besideCoding := by
    obtain same | same := bayWrite_cases s m b (0x10000 + 0x400 * b + Reg.CC_D) fun h u =>
      writeCcD h b (fun c => s.stagedCc m c) w u
    · rw [same, view_onCopies s fun h v => besideCoding_writeCcD h v b.isLt _ w]
    · rw [same, besideCoding_refuseWrite]
  have staged (v : State) (x : Tbl Word) : { v with staging := x }.besideCoding = v.besideCoding := rfl
  unfold ccdWrite
  dsimp only
  split
  · split_ifs
    · exact write
    · rw [staged, write]
    · rw [staged, write]
    · exact write
  · exact write

theorem besideCoding_writeXcfg (w : Word) : (writeXcfg w s).besideCoding = s.besideCoding := by
  unfold writeXcfg
  split <;> rfl

end

/-- A command of the coding group shows nowhere else. -/
theorem coding_hides (c : Instr) (s : State) (group : groupOf c = .coding) : Hides State.besideCoding c s := by
  cases c
  case codeItem h e =>
    refine .of_exec rfl ?_
    dsimp only
    split
    · split
      · exact besideCoding_withAccess h s fun k v => apartCoding_codeItem h k v _ _ _
      · rfl
    · rfl
  case codeRecord h e =>
    refine .of_exec rfl ?_
    dsimp only
    split
    · split
      · exact besideCoding_withAccess h s fun k v => apartCoding_codeRecord h k v _ _
      · rfl
    · rfl
  case sealDeadline h c =>
    refine .of_exec rfl ?_
    split
    · exact view_ite (fun v => besideCoding_sealChan h v _ _ _ _) s
    · rfl
  case pfailSeal h c => exact .of_exec rfl (view_ite (fun v => besideCoding_sealChan h v _ _ _ _) s)
  case takeoverSeal h c =>
    refine .of_exec rfl ?_
    split
    · rfl
    · exact besideCoding_sealChan h s _ _ _ _
  case channelFlush m b all entry => exact .of_exec rfl (besideCoding_writeFlush s m b _)
  case codingCommit m b value => exact .of_exec rfl (view_ite (fun v => besideCoding_ccdWrite v m b value) s)
  case metrologyCodingWrite value => exact .of_exec rfl (besideCoding_writeXcfg s value)
  case sealQueueWaitEnd h e =>
    refine .of_exec rfl ?_
    dsimp only
    split
    · split <;> rfl
    · rfl
  all_goals cases group

/-! ## The obligation -/

/-- Settles O54: for each group, what the claim says is left shows in a view of the state, and each command of the group is
made of acts that do not show in it. -/
theorem samplingAndCodingCommandsLeaveTheRest : Obligations.SamplingAndCodingCommandsLeaveTheRest := by
  refine ⟨fun c s t group answer => ?_, fun c s t group answer => ?_⟩
  · have same := sampling_hides c s group t answer
    exact (congrArg (fun v : State => { v with
      regs := t.regs, staging := t.staging, halfA := { v.halfA with budget := t.halfA.budget },
      halfB := { v.halfB with budget := t.halfB.budget }, consumers := t.consumers, timebases := t.timebases,
      lines := t.lines, freeCount := t.freeCount, pollEntries := t.pollEntries, pipes := t.pipes, recogs := t.recogs,
      coders := t.coders, codeHalves := t.codeHalves, chans := t.chans, bushels := t.bushels, links := t.links,
      router := t.router, ports := t.ports, power := { v.power with matrixWake := t.power.matrixWake } }) same :)
  · have same := coding_hides c s group t answer
    exact ⟨(congrArg (fun v => { v.1 with
      regs := t.regs, staging := t.staging,
      halfA := { v.1.halfA with budget := t.halfA.budget, nextXcfg := t.halfA.nextXcfg },
      halfB := { v.1.halfB with budget := t.halfB.budget, nextXcfg := t.halfB.nextXcfg }, consumers := t.consumers,
      timebases := t.timebases, freeCount := t.freeCount, coders := t.coders, codeHalves := t.codeHalves,
      chans := t.chans, chanCfgs := t.chanCfgs, bushels := t.bushels,
      power := { v.1.power with matrixWake := t.power.matrixWake } }) same :), kept_of_regsBeside (congrArg Prod.snd same)⟩

end Sys2Proof.Machine
end

section
/-! SUPPORT. What an item or a record does to a bushel and to the state (R324, R325, R329 to R336): a bushel keeps its channel,
its SEQ and its kind whatever joins it, and what is coded for one channel leaves the open bushels of the others. -/

namespace Sys2Proof.Machine

/-! ## What a bushel is for (R327) -/

/-- The channel, the sequence number and the kind of a bushel. -/
def Bushel.label (x : Bushel) : Nat × Nat × Bool := (x.chan, x.seq, x.records)

section

variable (x : Bushel)

theorem Bushel.label_putTime (d : Int) : (x.putTime d).label = x.label := by
  unfold Bushel.putTime
  dsimp only
  split <;> rfl

theorem Bushel.label_timeOf (t n : Nat) : (x.timeOf t n).label = x.label := by
  unfold Bushel.timeOf
  split
  · exact x.label_putTime _
  · rfl

theorem Bushel.label_emit (v : Int) (skip t : Nat) : (x.emit v skip t).label = x.label := by
  unfold Bushel.emit
  dsimp only
  rw [Bushel.label_timeOf]
  split <;> split <;> rfl

theorem Bushel.label_knot : x.knot.label = x.label := by
  unfold Bushel.knot
  split
  · rfl
  · exact x.label_emit _ _ _

theorem Bushel.label_putRun (cause fuel : Nat) :
    ∀ (x : Bushel) (n t : Nat), (x.putRun cause n t fuel).label = x.label := by
  induction fuel with
  | zero => exact fun _ _ _ => rfl
  | succ fuel ih =>
    intro x n t
    rw [Bushel.putRun]
    split
    · exact Bushel.label_timeOf _ _ _
    · exact (ih _ _ _).trans (Bushel.label_timeOf _ _ _)

theorem Bushel.label_closeRun : x.closeRun.label = x.label := by
  unfold Bushel.closeRun
  split
  · rfl
  · exact Bushel.label_putRun _ _ x _ _

theorem Bushel.label_addMissing (cause n t : Nat) : (x.addMissing cause n t).label = x.label := by
  unfold Bushel.addMissing
  dsimp only
  split
  · split
    · exact x.label_knot
    · exact (Bushel.label_closeRun _).trans x.label_knot
  · exact x.label_knot

/-- A value after its flags stand in the body: it is coded, or joins the segment that is pending. -/
def Bushel.joinValue (z : Bushel) (v : Int) (t : Nat) : Bushel :=
  if z.set.thin then
    match z.hist with
    | [] => z.emit v 0 t
    | ra :: _ => if z.segmentOk ra v then { z with seg := v :: z.seg } else { z.knot with seg := [v] }
  else z.emit v 0 t

theorem Bushel.label_joinValue (v : Int) (t : Nat) : (x.joinValue v t).label = x.label := by
  unfold Bushel.joinValue
  split
  · split
    · exact x.label_emit _ _ _
    · split
      · rfl
      · exact x.label_knot
  · exact x.label_emit _ _ _

theorem Bushel.label_addValue (v : Int) (fl t : Nat) : (x.addValue v fl t).label = x.label := by
  refine (Bushel.label_joinValue _ v t).trans ?_
  split
  · exact x.label_closeRun
  · split
    · exact x.label_closeRun
    · exact (Bushel.label_knot _).trans x.label_closeRun

theorem Bushel.label_addItem (i : Item) : (x.addItem i).label = x.label := by
  unfold Bushel.addItem
  split
  · exact x.label_addValue _ _ _
  · exact x.label_addMissing _ _ _

theorem Bushel.label_addRecord (rtype : Nat) (payload : List Byte) (t : Nat) :
    (x.addRecord rtype payload t).label = x.label := (rfl)

theorem Bushel.label_addRec (r : Rec) : (x.addRec r).label = x.label := by
  unfold Bushel.addRec
  dsimp only
  rw [Bushel.label_addRecord]
  split <;> rfl

end

/-! ## Open bushels -/

section

variable (s : State) (h : Half) (c : Nat)

theorem openBushel_setOpen (x : Bushel) : (s.setOpen h c x).openBushel h c = some x := tblFind_tblPut_same _ _ _

theorem openBushel_closeOpen : (s.closeOpen h c).openBushel h c = none := tblFind_tblDel_same _ _

theorem openBushel_setOpen_other {d : Nat} (other : c ≠ d) (x : Bushel) :
    (s.setOpen h d x).openBushel h c = s.openBushel h c :=
  tblFind_tblPut_other _ _ (by unfold bushelIx; omega)

theorem openBushel_closeOpen_other {d : Nat} (other : c ≠ d) : (s.closeOpen h d).openBushel h c = s.openBushel h c :=
  tblFind_tblDel_other _ (by unfold bushelIx; omega)

end

theorem openBushel_of_bushels {s t : State} (same : t.bushels = s.bushels) (h : Half) (c : Nat) :
    t.openBushel h c = s.openBushel h c := by
  rw [State.openBushel, same, State.openBushel]

theorem coder_of_coders {s t : State} (same : t.coders = s.coders) (h : Half) (e : Nat) : t.coder h e = s.coder h e := by
  rw [State.coder, same, State.coder]

theorem codeHalf_of_codeHalves {s t : State} (same : t.codeHalves = s.codeHalves) (h : Half) :
    t.codeHalf h = s.codeHalf h := by
  rw [State.codeHalf, same, State.codeHalf]

theorem chan_of_chans {s t : State} (same : t.chans = s.chans) (c : Nat) : t.chan c = s.chan c := by
  rw [State.chan, same, State.chan]

/-! ## A bushel opens (R325 to R327) -/

section

variable (h : Half) (c : Nat) (records : Bool) (set : CodeSet) (chg : Bool) (t enter : Nat) (s : State)

theorem openChan_opens : ((openChan h c records set chg t enter s).openBushel h c).map Bushel.label
    = some (c, (s.chan c).seq, records) := by
  unfold openChan
  dsimp only
  rw [openBushel_setOpen]
  split
  · show some (c, ((s.setChan c _).chan c).seq, records) = _
    rw [State.chan_setChan]
  · rfl

theorem openChan_seq : ((openChan h c records set chg t enter s).chan c).seq = ((s.chan c).seq + 1) % 2 ^ 32 := by
  unfold openChan
  dsimp only
  split
  · refine (congrArg Chan.seq (State.chan_setChan _ _ _)).trans ?_
    rw [State.chan_setChan]
  · exact congrArg Chan.seq (State.chan_setChan _ _ _)

variable {c} in
theorem openBushel_openChan_other {d : Nat} (other : c ≠ d) :
    (openChan h d records set chg t enter s).openBushel h c = s.openBushel h c := by
  unfold openChan
  dsimp only
  rw [openBushel_setOpen_other _ _ _ other]
  split <;> rfl

end

/-! ## An item or a record enters a bushel (R324) -/

section

variable (h : Half) (i : Item) (r : Rec) (items : List Item) (recs : List Rec) (x : Bushel) (s : State)

theorem openBushel_storeItem : (storeItem h i items x s).openBushel h i.chan = some x := by
  unfold storeItem
  dsimp only
  split <;> exact openBushel_setOpen _ h i.chan x

theorem openBushel_storeItem_other {c : Nat} (other : c ≠ i.chan) :
    (storeItem h i items x s).openBushel h c = s.openBushel h c := by
  unfold storeItem
  dsimp only
  split <;> exact openBushel_setOpen_other _ h c other x

theorem coder_storeItem : (storeItem h i items x s).coder h (engineOf i.chan)
    = { s.coder h (engineOf i.chan) with samples := items } := by
  unfold storeItem
  dsimp only
  split <;> exact State.coder_setCoder s h _ _

theorem chans_storeItem : (storeItem h i items x s).chans = s.chans := by
  unfold storeItem
  dsimp only
  split <;> rfl

theorem openBushel_storeRecord : (storeRecord h r recs x s).openBushel h r.chan = some x :=
  openBushel_setOpen _ h r.chan x

theorem openBushel_storeRecord_other {c : Nat} (other : c ≠ r.chan) :
    (storeRecord h r recs x s).openBushel h c = s.openBushel h c :=
  openBushel_setOpen_other (s.setCoder h (engineOf r.chan) _) h c other x

theorem coder_storeRecord : (storeRecord h r recs x s).coder h (engineOf r.chan)
    = { s.coder h (engineOf r.chan) with records := recs } :=
  State.coder_setCoder s h _ _

theorem chans_storeRecord : (storeRecord h r recs x s).chans = s.chans := (rfl)

end

/-! ## A bushel is sealed (R325, R343) -/

section

variable (h : Half) (c : Nat) (flush full : Bool) (x : Bushel) (s : State)

/-- The bushel as it is sealed. -/
def Bushel.sealedAs (x : Bushel) (flush full : Bool) : Bushel := { x.finish with flush := flush, full := full, raws := 0 }

/-- The bytes of a sealed bushel count in the watch (R350). -/
def addSealed (h : Half) (n : Nat) (s : State) : State :=
  s.setCodeHalf h { s.codeHalf h with sealedBytes := (s.codeHalf h).sealedBytes + n }

/-- A sealed bushel is closed and counted (R351). -/
def bookSeal (h : Half) (c : Nat) (x : Bushel) (s : State) : State :=
  addSealed h x.size ((((s.closeOpen h c).setChan c
    { s.chan c with k0 := if x.finish.records then 0 else x.finish.k }).count (halfKey h + Reg.CE_CNT) 1).count
      (halfKey h + Reg.CE_CNT + 3) x.finish.raws)

/-- A sealed bushel passes to the seal queue of its half. -/
def passSealed (h : Half) (y : Bushel) (s : State) : State :=
  s.setCodeHalf h { s.codeHalf h with out := (s.codeHalf h).out ++ [y] }

/-- A sealed bushel waits in its engine for the seal queue. -/
def holdSealed (h : Half) (c : Nat) (y : Bushel) (s : State) : State :=
  (s.setCoder h (engineOf c) { s.coder h (engineOf c) with waiting := (s.coder h (engineOf c)).waiting ++ [y] }).put (halfKey h)
    Reg.CE_STAT_SQFULL 1

theorem out_addSealed (n : Nat) : ((addSealed h n s).codeHalf h).out = (s.codeHalf h).out := by
  rw [addSealed, State.codeHalf_setCodeHalf]

theorem bushels_bookSeal : (bookSeal h c x s).bushels = (s.closeOpen h c).bushels := by
  rw [bookSeal, addSealed, State.setCodeHalf_bushels, State.count_bushels, State.count_bushels, State.setChan_bushels]

theorem coders_bookSeal : (bookSeal h c x s).coders = s.coders := by
  rw [bookSeal, addSealed, State.setCodeHalf_coders, State.count_coders, State.count_coders, State.setChan_coders,
    State.closeOpen]

theorem archive_bookSeal : (bookSeal h c x s).archive = s.archive := by
  rw [bookSeal, addSealed, State.setCodeHalf_archive, State.count_archive, State.count_archive, State.setChan_archive,
    State.closeOpen]

theorem out_bookSeal : ((bookSeal h c x s).codeHalf h).out = (s.codeHalf h).out := by
  rw [bookSeal, out_addSealed, codeHalf_of_codeHalves (State.count_codeHalves _ _ _),
    codeHalf_of_codeHalves (State.count_codeHalves _ _ _), codeHalf_of_codeHalves (State.setChan_codeHalves _ _ _)]
  rfl

theorem sealQueue_bookSeal : (bookSeal h c x s).sealQueue h = s.sealQueue h := by
  rw [State.sealQueue, out_bookSeal, archive_bookSeal, State.sealQueue]

variable {x s} in
/-- What the seal of an open bushel comes to. -/
theorem sealBushel_of_open (opened : s.openBushel h c = some x) :
    sealBushel h c flush full s = if s.sealQueue h < 128 then passSealed h (x.sealedAs flush full) (bookSeal h c x s)
      else holdSealed h c (x.sealedAs flush full) (bookSeal h c x s) := by
  rw [← sealQueue_bookSeal h c x s, sealBushel, opened]
  rfl

variable {x s} in
theorem bushels_sealBushel (opened : s.openBushel h c = some x) :
    (sealBushel h c flush full s).bushels = (s.closeOpen h c).bushels := by
  rw [sealBushel_of_open h c flush full opened, ← bushels_bookSeal h c x s]
  split
  · exact State.setCodeHalf_bushels _ _ _
  · exact (State.put_bushels _ _ _ _).trans (State.setCoder_bushels _ _ _ _)

theorem openBushel_sealBushel : (sealBushel h c flush full s).openBushel h c = none := by
  cases opened : s.openBushel h c with
  | none => rw [sealBushel, opened, opened]
  | some x => rw [openBushel_of_bushels (bushels_sealBushel h c flush full opened), openBushel_closeOpen]

variable {c} in
theorem openBushel_sealBushel_other {d : Nat} (other : c ≠ d) :
    (sealBushel h d flush full s).openBushel h c = s.openBushel h c := by
  cases opened : s.openBushel h d with
  | none => rw [sealBushel, opened]
  | some x =>
    rw [openBushel_of_bushels (bushels_sealBushel h d flush full opened), openBushel_closeOpen_other _ _ _ other]

/-- A seal counts one bushel, and its RAW items elsewhere. -/
theorem count_bookSeal (below : s.reg (halfKey h + Reg.CE_CNT) ≠ 0xFFFFF) :
    ((bookSeal h c x s).reg (halfKey h + Reg.CE_CNT)).toNat = (s.reg (halfKey h + Reg.CE_CNT)).toNat + 1 := by
  have limit : (s.reg (halfKey h + Reg.CE_CNT)).toNat ≠ 0xFFFFF := fun same => below (BitVec.eq_of_toNat_eq same)
  have word := (s.reg (halfKey h + Reg.CE_CNT)).isLt
  rw [bookSeal, addSealed, reg_setCodeHalf, State.reg_count_other _ _ (by omega), State.reg_count, reg_setChan, reg_closeOpen]
  omega

end

/-! ## What is coded for a channel (R325, R340) -/

section

variable {h : Half} {c : Nat} (s : State)

theorem openBushel_codeItem_other {i : Item} (other : c ≠ i.chan) (before after : List Item) :
    (codeItem h i before after s).openBushel h c = s.openBushel h c := by
  unfold codeItem
  split
  · dsimp only
    split_ifs
    · exact openBushel_sealBushel_other h _ _ s other
    · exact openBushel_sealBushel_other h _ _ s other
    · exact openBushel_storeItem_other h i _ _ s other
    · exact openBushel_sealBushel_other h _ _ s other
  · have opened := openBushel_openChan_other h false i.set i.chg i.ts i.enter s other
    dsimp only
    split
    · exact (openBushel_storeItem_other h i _ _ _ other).trans opened
    · exact opened

theorem openBushel_codeRecord_other {r : Rec} (other : c ≠ r.chan) (rest : List Rec) :
    (codeRecord h r rest s).openBushel h c = s.openBushel h c := by
  unfold codeRecord
  split
  · dsimp only
    split_ifs
    · exact openBushel_sealBushel_other h _ _ s other
    · exact openBushel_storeRecord_other h r _ _ s other
    · exact openBushel_sealBushel_other h _ _ s other
  · have opened := openBushel_openChan_other h true CodeSet.zero false r.ts r.enter s other
    dsimp only
    split
    · exact (openBushel_storeRecord_other h r _ _ _ other).trans opened
    · exact opened

/-- What a queue yields passes the test. -/
theorem pickFirst_passes {α : Type} {p : α → Bool} {l : List α} :
    ∀ {b b' t : List α} {x : α}, pickFirst p b l = some (b', x, t) → p x = true := by
  induction l with
  | nil => exact fun found => nomatch found
  | cons y l ih =>
    intro b b' t x found
    rw [pickFirst] at found
    split at found
    · next passes =>
      cases found
      exact passes
    · exact ih found

/-- A queue in which nothing passes the test yields nothing. -/
theorem pickFirst_of_all {α : Type} {p : α → Bool} {l : List α} (fails : ∀ x ∈ l, p x = false) :
    ∀ b : List α, pickFirst p b l = none := by
  induction l with
  | nil => exact fun _ => rfl
  | cons y l ih =>
    intro b
    obtain ⟨first, others⟩ := List.forall_mem_cons.mp fails
    rw [pickFirst, if_neg (by rw [first]; decide), ih others]

theorem pickFirst_head {α : Type} {p : α → Bool} {x : α} (passes : p x = true) (b l : List α) :
    pickFirst p b (x :: l) = some (b, x, l) := if_pos passes

theorem openBushel_codeItems_other {d : Nat} (other : c ≠ d) (before : Option Nat) (force : Bool) (n : Nat) :
    ∀ s : State, (codeItems h d before force n s).openBushel h c = s.openBushel h c := by
  induction n with
  | zero => exact fun _ => rfl
  | succ n ih =>
    intro s
    rw [codeItems]
    split
    · next i _ found =>
      have own : i.chan = d := of_decide_eq_true (pickFirst_passes (p := fun i : Item => decide (i.chan = d)) found)
      rw [apply_ite (State.openBushel · h c), ih, openBushel_codeItem_other s (own ▸ other), ite_self]
    · rfl

theorem openBushel_codeRecords_other {d : Nat} (other : c ≠ d) (before : Option Nat) (force : Bool) (n : Nat) :
    ∀ s : State, (codeRecords h d before force n s).openBushel h c = s.openBushel h c := by
  induction n with
  | zero => exact fun _ => rfl
  | succ n ih =>
    intro s
    rw [codeRecords]
    split
    · next r _ found =>
      have own : r.chan = d := of_decide_eq_true (pickFirst_passes (p := fun r : Rec => decide (r.chan = d)) found)
      rw [apply_ite (State.openBushel · h c), ih, openBushel_codeRecord_other s (own ▸ other), ite_self]
    · rfl

theorem openBushel_sealChan (flush : Bool) (before : Option Nat) (force : Bool) :
    (sealChan h c flush before force s).openBushel h c = none := openBushel_sealBushel h c flush false _

theorem openBushel_sealChan_other {d : Nat} (other : c ≠ d) (flush : Bool) (before : Option Nat) (force : Bool) :
    (sealChan h d flush before force s).openBushel h c = s.openBushel h c :=
  (openBushel_sealBushel_other h flush false _ other).trans
    ((openBushel_codeRecords_other other before force _ _).trans (openBushel_codeItems_other other before force _ s))

variable {s}

theorem codeItems_of_none (waits : pickFirst (fun i : Item => decide (i.chan = c)) [] (s.coder h (engineOf c)).samples = none)
    (before : Option Nat) (force : Bool) (n : Nat) : codeItems h c before force n s = s := by
  cases n with
  | zero => rfl
  | succ n => rw [codeItems, waits]

theorem codeRecords_of_none (waits : pickFirst (fun r : Rec => decide (r.chan = c)) [] (s.coder h (engineOf c)).records = none)
    (before : Option Nat) (force : Bool) (n : Nat) : codeRecords h c before force n s = s := by
  cases n with
  | zero => rfl
  | succ n => rw [codeRecords, waits]

/-- Where nothing of its channel waits, a bushel is sealed as it stands. -/
theorem sealChan_of_nothingWaits (nothing : s.nothingWaits h c = true) (flush : Bool) (before : Option Nat) (force : Bool) :
    sealChan h c flush before force s = sealBushel h c flush false s := by
  obtain ⟨items, records⟩ := Bool.and_eq_true_iff.mp nothing
  have noItem : pickFirst (fun i : Item => decide (i.chan = c)) [] (s.coder h (engineOf c)).samples = none :=
    pickFirst_of_all (fun i mem => decide_eq_false (of_decide_eq_true (List.all_eq_true.mp items i mem))) []
  have noRecord : pickFirst (fun r : Rec => decide (r.chan = c)) [] (s.coder h (engineOf c)).records = none :=
    pickFirst_of_all (fun r mem => decide_eq_false (of_decide_eq_true (List.all_eq_true.mp records r mem))) []
  rw [sealChan, codeWaiting, codeItems_of_none noItem, codeRecords_of_none noRecord]

end

end Sys2Proof.Machine
end

section
/-! PROOF. Coding (O23): items and records that enter a bushel, seals, the settings of a channel and CE_XCFG. -/

namespace Sys2Proof.Machine

/-! ## An engine takes an item or a record (R324, R343) -/

section

variable {h : Half} {e : Fin 4} {s : State} (runs : s.computes h = true) (run : s.power.mode = .run)
include runs run

/-- With a grain of CODE an engine codes the item at the head of its queue. -/
theorem exec_codeItem {t : State} (granted : s.access h actCode 0 = some t) {i : Item} {rest : List Item}
    (records : (s.coder h e.val).records = []) (waiting : (s.coder h e.val).waiting = [])
    (items : (s.coder h e.val).samples = i :: rest) (free : s.chanBlocked h i.chan = false) :
    exec (.codeItem h e) s = .next (codeItem h i [] rest t) := by
  have noRecord : s.recordReady h e.val = false := by rw [State.recordReady, records]; rfl
  have picked : s.pickItem h (i :: rest) = some ([], i, rest) := pickFirst_head (by rw [free]; rfl) [] rest
  show execCodeItem h e s = _
  rw [execCodeItem]
  dsimp only
  rw [if_pos ⟨runs, run, noRecord, waiting⟩, items, picked]
  exact congrArg Host.Outcome.next (withAccess_of _ granted)

theorem exec_codeRecord {t : State} (granted : s.access h actCode 0 = some t) {r : Rec} {rest : List Rec}
    (waiting : (s.coder h e.val).waiting = []) (records : (s.coder h e.val).records = r :: rest)
    (free : s.chanBlocked h r.chan = false) :
    exec (.codeRecord h e) s = .next (codeRecord h r rest t) := by
  have picked : pickFirst (fun r : Rec => !s.chanBlocked h r.chan) [] (r :: rest) = some ([], r, rest) :=
    pickFirst_head (by rw [free]; rfl) [] rest
  show execCodeRecord h e s = _
  rw [execCodeRecord]
  dsimp only
  rw [if_pos ⟨runs, run, waiting⟩, records, picked]
  exact congrArg Host.Outcome.next (withAccess_of _ granted)

end

/-- An access leaves the channels and their open bushels. -/
theorem coding_of_access {h : Half} {a r : Nat} {s t : State} (granted : s.access h a r = some t) :
    t.chans = s.chans ∧ t.bushels = s.bushels := by
  obtain ⟨_, _, _, _, _, _, _, _, _, _, rfl⟩ := access_only granted
  exact ⟨rfl, rfl⟩

theorem not_chanBlocked_of_open {h : Half} {c : Nat} {x : Bushel} {s : State} (opened : s.openBushel h c = some x) :
    s.chanBlocked h c = false := by
  rw [State.chanBlocked, opened]
  rfl

section

variable {h : Half} (s : State)

/-- An item of a channel that has no open bushel opens one and stands in it. -/
theorem codeItem_opens {i : Item} (rest : List Item) (closed : s.openBushel h i.chan = none) :
    ∃ x : Bushel, codeItem h i [] rest s
        = storeItem h i rest (x.addItem i) (openChan h i.chan false i.set i.chg i.ts i.enter s)
      ∧ x.label = (i.chan, (s.chan i.chan).seq, false) := by
  obtain ⟨x, opened, label⟩ := Option.map_eq_some_iff.mp (openChan_opens h i.chan false i.set i.chg i.ts i.enter s)
  refine ⟨x, ?_, label⟩
  rw [codeItem, closed]
  dsimp only
  rw [opened]
  rfl

theorem codeRecord_opens {r : Rec} (rest : List Rec) (closed : s.openBushel h r.chan = none) :
    ∃ x : Bushel, codeRecord h r rest s
        = storeRecord h r rest (x.addRec r) (openChan h r.chan true CodeSet.zero false r.ts r.enter s)
      ∧ x.label = (r.chan, (s.chan r.chan).seq, true) := by
  obtain ⟨x, opened, label⟩ := Option.map_eq_some_iff.mp (openChan_opens h r.chan true CodeSet.zero false r.ts r.enter s)
  refine ⟨x, ?_, label⟩
  rw [codeRecord, closed]
  dsimp only
  rw [opened]

/-- An item of the open bushel's settings that came in time and fits joins it. -/
theorem codeItem_joins {i : Item} {x : Bushel} (rest : List Item) (opened : s.openBushel h i.chan = some x)
    (same : i.chg = false) (set : x.set = i.set) (early : x.bare = true ∨ i.enter < x.deadline)
    (fits : (x.addItem i).size ≤ 4096) : codeItem h i [] rest s = storeItem h i rest (x.addItem i) s := by
  have unchanged : (i.chg || decide (x.set ≠ i.set)) = false := by simp [same, set]
  have inTime : (!x.bare && decide (x.deadline ≤ i.enter)) = false := by
    rw [Bool.and_eq_false_iff, Bool.not_eq_false', decide_eq_false_iff_not, not_le]
    exact early
  rw [codeItem, opened]
  dsimp only
  rw [unchanged, Bool.and_false, if_neg Bool.false_ne_true, inTime, if_neg Bool.false_ne_true, if_pos fits]
  rfl

end

section

variable {h : Half} {e : Fin 4} {s : State} (runs : s.computes h = true) (run : s.power.mode = .run)
  (grain : (s.access h actCode 0).isSome = true) (waiting : (s.coder h e.val).waiting = [])
include runs run grain waiting

theorem codeItem_opens_gives {i : Item} {rest : List Item} (records : (s.coder h e.val).records = [])
    (items : (s.coder h e.val).samples = i :: rest) (engine : engineOf i.chan = e.val)
    (free : s.chanBlocked h i.chan = false) (closed : s.openBushel h i.chan = none) :
    Gives (.codeItem h e) s (fun t =>
      (t.coder h e.val).samples = rest ∧ (t.chan i.chan).seq = ((s.chan i.chan).seq + 1) % 2 ^ 32
        ∧ (t.openBushel h i.chan).map Bushel.label = some (i.chan, (s.chan i.chan).seq, false)) := by
  obtain ⟨u, granted⟩ := Option.isSome_iff_exists.mp grain
  obtain ⟨chans, bushels⟩ := coding_of_access granted
  obtain ⟨x, coded, label⟩ := codeItem_opens u rest ((openBushel_of_bushels bushels h i.chan).trans closed)
  rw [chan_of_chans chans] at label
  refine .intro (exec_codeItem runs run granted records waiting items free) ?_
  rw [coded]
  refine ⟨?_, ?_, ?_⟩
  · rw [← engine, coder_storeItem]
  · rw [chan_of_chans (chans_storeItem h i rest _ _), openChan_seq, chan_of_chans chans]
  · rw [openBushel_storeItem, Option.map_some, Bushel.label_addItem, label]

theorem codeItem_joins_gives {i : Item} {rest : List Item} {x : Bushel} (records : (s.coder h e.val).records = [])
    (items : (s.coder h e.val).samples = i :: rest) (engine : engineOf i.chan = e.val)
    (opened : s.openBushel h i.chan = some x) (same : i.chg = false) (set : x.set = i.set)
    (early : x.bare = true ∨ i.enter < x.deadline) (fits : (x.addItem i).size ≤ 4096) :
    Gives (.codeItem h e) s (fun t =>
      (t.coder h e.val).samples = rest ∧ t.openBushel h i.chan = some (x.addItem i) ∧ t.chans = s.chans) := by
  obtain ⟨u, granted⟩ := Option.isSome_iff_exists.mp grain
  obtain ⟨chans, bushels⟩ := coding_of_access granted
  refine .intro (exec_codeItem runs run granted records waiting items (not_chanBlocked_of_open opened)) ?_
  rw [codeItem_joins u rest ((openBushel_of_bushels bushels h i.chan).trans opened) same set early fits]
  refine ⟨?_, openBushel_storeItem h i rest _ u, (chans_storeItem h i rest _ u).trans chans⟩
  rw [← engine, coder_storeItem]

theorem codeRecord_opens_gives {r : Rec} {rest : List Rec} (records : (s.coder h e.val).records = r :: rest)
    (engine : engineOf r.chan = e.val) (free : s.chanBlocked h r.chan = false) (closed : s.openBushel h r.chan = none) :
    Gives (.codeRecord h e) s (fun t =>
      (t.coder h e.val).records = rest ∧ (t.chan r.chan).seq = ((s.chan r.chan).seq + 1) % 2 ^ 32
        ∧ (t.openBushel h r.chan).map Bushel.label = some (r.chan, (s.chan r.chan).seq, true)) := by
  obtain ⟨u, granted⟩ := Option.isSome_iff_exists.mp grain
  obtain ⟨chans, bushels⟩ := coding_of_access granted
  obtain ⟨x, coded, label⟩ := codeRecord_opens u rest ((openBushel_of_bushels bushels h r.chan).trans closed)
  rw [chan_of_chans chans] at label
  refine .intro (exec_codeRecord runs run granted waiting records free) ?_
  rw [coded]
  refine ⟨?_, ?_, ?_⟩
  · rw [← engine, coder_storeRecord]
  · rw [chan_of_chans (chans_storeRecord h r rest _ _), openChan_seq, chan_of_chans chans]
  · rw [openBushel_storeRecord, Option.map_some, Bushel.label_addRec, label]

end

/-! ## Seals (R326, R341, R343) -/

section

variable {h : Half} {c : Nat} {x : Bushel} {s : State} (opened : s.openBushel h c = some x)
  (nothing : s.nothingWaits h c = true)
include opened nothing

/-- Where the seal queue has room, a sealed bushel passes to it, and is counted. -/
theorem sealChan_passes (room : s.sealQueue h < 128) (flush : Bool) (before : Option Nat) (force : Bool) :
    ((sealChan h c flush before force s).codeHalf h).out = (s.codeHalf h).out ++ [x.sealedAs flush false]
      ∧ (s.reg (halfKey h + Reg.CE_CNT) ≠ 0xFFFFF →
          ((sealChan h c flush before force s).reg (halfKey h + Reg.CE_CNT)).toNat
            = (s.reg (halfKey h + Reg.CE_CNT)).toNat + 1) := by
  rw [sealChan_of_nothingWaits nothing, sealBushel_of_open h c flush false opened, if_pos room, passSealed,
    State.codeHalf_setCodeHalf, out_bookSeal, reg_setCodeHalf]
  exact ⟨rfl, count_bookSeal h c x s⟩

/-- Where it is full, the bushel waits in its engine, and SQFULL is set. -/
theorem sealChan_waits (full : 128 ≤ s.sealQueue h) (flush : Bool) (before : Option Nat) (force : Bool) :
    ((sealChan h c flush before force s).codeHalf h).out = (s.codeHalf h).out
      ∧ (sealChan h c flush before force s).flag (halfKey h) Reg.CE_STAT_SQFULL = true
      ∧ ((sealChan h c flush before force s).coder h (engineOf c)).waiting
        = (s.coder h (engineOf c)).waiting ++ [x.sealedAs flush false] := by
  rw [sealChan_of_nothingWaits nothing, sealBushel_of_open h c flush false opened, if_neg (not_lt.mpr full), holdSealed]
  refine ⟨?_, flag_put_one _ _ (by decide) rfl, ?_⟩
  · rw [codeHalf_of_codeHalves (State.put_codeHalves _ _ _ _), codeHalf_of_codeHalves (State.setCoder_codeHalves _ _ _ _),
      out_bookSeal]
  · rw [coder_of_coders (State.put_coders _ _ _ _), State.coder_setCoder, coder_of_coders (coders_bookSeal h c x s)]

end

/-- A power failure seals the bushel of any channel with FLUSH. -/
theorem exec_pfailSeal {h : Half} {c : Fin 16512} {s : State} (fail : s.power.pfail = true) :
    exec (.pfailSeal h c) s = .next (sealChan h c.val true none false s) := by
  show execPfailSeal h c s = _
  rw [execPfailSeal, if_pos fail]

/-- The commands that seal one channel's bushel do it, with FLUSH for a power failure. -/
theorem exec_seal {h : Half} {c : Fin 16512} {cmd : Instr} {flush : Bool} {x : Bushel} {s : State}
    (seals : (cmd = .sealDeadline h c ∧ flush = false ∧ x.deadline ≤ s.tref)
      ∨ (cmd = .pfailSeal h c ∧ flush = true ∧ s.power.pfail = true)
      ∨ (cmd = .takeoverSeal h c ∧ flush = false ∧ (s.chan c.val).gaps ≠ s.gapsOf c.val))
    (opened : s.openBushel h c.val = some x) :
    ∃ before, exec cmd s = .next (sealChan h c.val flush before false s) := by
  obtain ⟨rfl, rfl, due⟩ | ⟨rfl, rfl, fail⟩ | ⟨rfl, rfl, moved⟩ := seals
  · refine ⟨some x.deadline, ?_⟩
    show execSealDeadline h c s = _
    rw [execSealDeadline, opened]
    exact congrArg Host.Outcome.next (if_pos due)
  · exact ⟨none, exec_pfailSeal fail⟩
  · refine ⟨none, ?_⟩
    show execTakeoverSeal h c s = _
    rw [execTakeoverSeal, if_neg moved]

/-! ## CC_FLUSH (R347) -/

theorem bits_or (v w : Word) (hi lo : Nat) : bits (v ||| w) hi lo = bits v hi lo ||| bits w hi lo := by
  rw [bits, BitVec.toNat_or, Nat.shiftRight_or_distrib, Nat.or_mod_two_pow, bits, bits]

/-- ALL and ENTRY of the word that CHANNEL_FLUSH writes. -/
theorem bits_flushWord (all : Bool) (entry : Fin 512) :
    bits (inField 9 9 (if all then 1 else 0) ||| inField 8 0 entry.val) 9 9 = (if all then 1 else 0)
      ∧ bits (inField 9 9 (if all then 1 else 0) ||| inField 8 0 entry.val) 8 0 = entry.val := by
  have allBits : bits (inField 9 9 (if all then 1 else 0)) 9 9 = (if all then 1 else 0)
      ∧ bits (inField 9 9 (if all then 1 else 0)) 8 0 = 0 := by cases all <;> decide
  have entryBits : bits (inField 8 0 entry.val) 9 9 = 0 ∧ bits (inField 8 0 entry.val) 8 0 = entry.val := by
    constructor
    · exact bits_setBits_apart 0 8 0 _ 9 9 (by decide) (by decide) (by decide)
    · exact (bits_setBits_same 0 8 0 _ (by decide) (by decide)).trans (Nat.mod_eq_of_lt entry.isLt)
  rw [bits_or, bits_or, allBits.1, allBits.2, entryBits.1, entryBits.2, Nat.or_zero, Nat.zero_or]
  exact ⟨rfl, rfl⟩

section

variable {h : Half} {m : Master} {b : Fin 64} {s : State} (ok : s.bayWriteOk m b.val = true) (holder : s.holder b.val = h)
include ok holder

theorem exec_channelFlush {entry : Fin 512} (own : entry.val < 256) :
    exec (.channelFlush m b false entry) s = .next (sealChan h (256 * b.val + entry.val) true none false s) := by
  obtain ⟨all, one⟩ := bits_flushWord false entry
  show execChannelFlush m b false entry s = _
  rw [execChannelFlush, writeFlush, if_pos ok, flushBay, all, one, ccChannel, if_pos own, holder]
  rfl

theorem exec_channelFlush_all (entry : Fin 512) :
    exec (.channelFlush m b true entry) s
      = .next (sealWhere h true (fun c => decide (c / 256 = b.val) || decide (c = 16384 + b.val)) s) := by
  obtain ⟨all, -⟩ := bits_flushWord true entry
  show execChannelFlush m b true entry s = _
  rw [execChannelFlush, writeFlush, if_pos ok, flushBay, all, holder]
  rfl

end

/-- A half that has an open bushel of a channel counts the channel among its busy ones. -/
theorem mem_busyChans {h : Half} {c : Nat} {x : Bushel} {s : State} (low : c < 0x10000)
    (opened : s.openBushel h c = some x) : c ∈ s.busyChans h := by
  have listed : bushelIx h c ∈ s.bushels.map Prod.fst := List.mem_map.mpr ⟨_, mem_of_tblFind opened, rfl⟩
  have half : bushelIx h c / 0x10000 = h.num := by unfold bushelIx; omega
  have chan : bushelIx h c % 0x10000 = c := by unfold bushelIx; omega
  exact List.mem_append_left _ (List.mem_map.mpr ⟨_, List.mem_filter.mpr ⟨listed, decide_eq_true half⟩, chan⟩)

/-- Seals of several channels close the bushel of each, and open none of another. -/
theorem openBushel_sealEach {h : Half} {c : Nat} (flush : Bool) (l : List Nat) :
    ∀ s : State, c ∈ l ∨ s.openBushel h c = none →
      (l.foldl (fun s c => sealChan h c flush none false s) s).openBushel h c = none := by
  induction l with
  | nil => exact fun s closed => closed.resolve_left List.not_mem_nil
  | cons d l ih =>
    intro s closed
    refine ih _ ?_
    by_cases here : c = d
    · exact .inr (here ▸ openBushel_sealChan s flush none false)
    · rw [openBushel_sealChan_other s here]
      exact closed.imp_left (List.mem_of_ne_of_mem here)

theorem openBushel_sealWhere {h : Half} {c : Nat} (low : c < 0x10000) (flush : Bool) {p : Nat → Bool} (named : p c = true)
    (s : State) : (sealWhere h flush p s).openBushel h c = none := by
  refine openBushel_sealEach flush _ s ?_
  cases opened : s.openBushel h c with
  | none => exact .inr rfl
  | some x => exact .inl (List.mem_filter.mpr ⟨mem_busyChans low opened, named⟩)

/-! ## A commit of a channel's settings (R344, R345) -/

/-- What half h's copy of the channels' settings goes by in bay b: the bay's page of registers and the settings. -/
def State.settingsCopy (h : Half) (b : Nat) (s : State) : (Fin 0x400 → Word) × (Fin 0x10000 → ChanCfg) × Bool :=
  (fun o => s.reg (bayKey h b + o), fun c => s.chanCfg h c, s.computes h)

section

variable {h : Half} {b : Nat} {s t : State} (same : t.settingsCopy h b = s.settingsCopy h b)
include same

theorem get_of_settingsCopy {f : Fld} (low : f.addr < 0x400) : t.get (bayKey h b) f = s.get (bayKey h b) f := by
  have reg : t.reg (bayKey h b + f.addr) = s.reg (bayKey h b + f.addr) := congrFun (congrArg Prod.fst same) ⟨_, low⟩
  rw [State.get, reg, State.get]

theorem chanCfg_of_settingsCopy {c : Nat} (low : c < 0x10000) : t.chanCfg h c = s.chanCfg h c :=
  congrFun (congrArg (fun v => v.2.1) same) ⟨c, low⟩

theorem computes_of_settingsCopy : t.computes h = s.computes h := congrArg (fun v => v.2.2) same

end

section

variable {h : Half} {b : Nat} (s : State)

theorem chanCfg_setReg (k c : Nat) (w : Word) : (s.setReg k w).chanCfg h c = s.chanCfg h c := by
  rw [State.chanCfg, State.setReg_chanCfgs, State.chanCfg]

theorem computes_setReg (k : Nat) (w : Word) : (s.setReg k w).computes h = s.computes h := by cases h <;> rfl

theorem settingsCopy_staging (x : Tbl Word) : { s with staging := x }.settingsCopy h b = s.settingsCopy h b := rfl

theorem settingsCopy_setReg_other {o : Nat} (low : o < 0x400) (w : Word) :
    (s.setReg (bayKey h.other b + o) w).settingsCopy h b = s.settingsCopy h b := by
  refine Prod.ext (funext fun k => s.reg_setReg_other w ?_)
    (Prod.ext (funext fun c => chanCfg_setReg s _ c w) (computes_setReg s _ w))
  have := k.isLt
  cases h <;> (simp only [bayKey, halfKey, Half.other, Half.num]; omega)

theorem settingsCopy_setChanCfg_other {c : Nat} (low : c < 0x10000) (x : ChanCfg) :
    (s.setChanCfg h.other c x).settingsCopy h b = s.settingsCopy h b := by
  refine Prod.ext rfl (Prod.ext (funext fun d => tblGet_tblSet_other _ _ _ ?_) rfl)
  have := d.isLt
  cases h <;> (simp only [bushelIx, Half.other, Half.num]; omega)

theorem ccChannel_lt {e c : Nat} (hb : b < 64) (named : ccChannel b e = some c) : c < 0x10000 := by
  unfold ccChannel at named
  split_ifs at named <;> cases named <;> omega

/-- Writes of CC_D act on each copy alone. -/
theorem settingsCopy_writeCcD_other (hb : b < 64) (st : Nat → Option Word) (w : Word) :
    (writeCcD h.other b st w s).settingsCopy h b = s.settingsCopy h b := by
  unfold writeCcD
  rw [advanceCcA, settingsCopy_setReg_other _ (by decide)]
  split
  · next c named =>
    split
    · unfold commitCoding
      split
      · exact settingsCopy_setReg_other s (by decide) _
      · exact settingsCopy_setChanCfg_other s (ccChannel_lt hb named) _
    · rfl
  · rfl

/-- A commit in a copy: where a field is out of range BAD is set, else words 0 and 1 are in force. -/
theorem commitCoding_effect (c : Nat) (w0 w1 : Word) :
    if bits w0 18 17 = 3 ∨ 11 ≤ bits w0 15 12 then
      (commitCoding h b c w0 w1 s).chanCfg h c = s.chanCfg h c
        ∧ (commitCoding h b c w0 w1 s).flag (bayKey h b) Reg.CC_STAT_BAD = true
    else (commitCoding h b c w0 w1 s).chanCfg h c = ⟨w0, inField 11 0 w1.toNat⟩ := by
  unfold commitCoding
  split
  · exact ⟨chanCfg_setReg s _ _ _, flag_put_one _ _ (by decide) rfl⟩
  · exact State.chanCfg_setChanCfg s h c _

/-- The commit of word 1 of a sample channel. -/
theorem writeCcD_of_word {a : Nat} (st : Nat → Option Word) (w : Word) (one : s.get (bayKey h b) Reg.CC_A_WORD = 1)
    (entry : s.get (bayKey h b) Reg.CC_A_ENTRY = a) (own : a < 256) :
    writeCcD h b st w s = advanceCcA h b
      (commitCoding h b (256 * b + a) ((st (256 * b + a)).getD (s.chanCfg h (256 * b + a)).w0) w s) := by
  rw [writeCcD, entry, ccChannel, if_pos own]
  dsimp only
  rw [if_pos one]

theorem settingsCopy_ccdWrite (m : Master) (w : Word) :
    (ccdWrite m b w s).settingsCopy h b = (s.bayWrite m b (0x10000 + 0x400 * b + Reg.CC_D) fun h u =>
      writeCcD h b (fun c => s.stagedCc m c) w u).settingsCopy h b := by
  unfold ccdWrite
  dsimp only
  split
  · split_ifs
    · rfl
    · exact settingsCopy_staging _ _
    · exact settingsCopy_staging _ _
    · rfl
  · rfl

end

/-- After an event in the copies half h's is as its own act leaves it, from a state that shows it what stood there before. -/
theorem onCopies_settingsCopy {h : Half} {b : Nat} {s : State} {f : Half → State → State}
    (acts : ∀ u, (f h.other u).settingsCopy h b = u.settingsCopy h b) (runs : s.computes h = true) :
    ∃ v, v.settingsCopy h b = s.settingsCopy h b ∧ (s.onCopies f).settingsCopy h b = (f h v).settingsCopy h b := by
  have before : (s.turn h f).settingsCopy h b = s.settingsCopy h b := view_turn s acts
  exact ⟨_, before, view_onCopies_turn s acts ((computes_of_settingsCopy before).trans runs)⟩

theorem codingCommit_gives {h : Half} {m : Master} {b : Fin 64} {value w0 : Word} {a : Nat} {s : State}
    (runs : s.computes h = true) (view : h = s.viewOf b.val) (ok : s.bayWriteOk m b.val = true)
    (one : s.get (bayKey h b.val) Reg.CC_A_WORD = 1) (entry : a = s.get (bayKey h b.val) Reg.CC_A_ENTRY) (own : a < 256)
    (staged : w0 = (s.stagedCc m (256 * b.val + a)).getD (s.chanCfg h (256 * b.val + a)).w0) :
    Gives (.codingCommit m b value) s (fun t =>
      if bits w0 18 17 = 3 ∨ 11 ≤ bits w0 15 12 then
        t.chanCfg h (256 * b.val + a) = s.chanCfg h (256 * b.val + a)
          ∧ t.flag (bayKey h b.val) Reg.CC_STAT_BAD = true
      else t.chanCfg h (256 * b.val + a) = ⟨w0, inField 11 0 value.toNat⟩) := by
  have low : 256 * b.val + a < 0x10000 := by omega
  obtain ⟨v, before, after⟩ := onCopies_settingsCopy (f := fun h u => writeCcD h b.val (fun c => s.stagedCc m c) value u)
    (fun u => settingsCopy_writeCcD_other u b.isLt _ value) runs
  rw [writeCcD_of_word v _ _ ((get_of_settingsCopy before (by decide)).trans one)
    ((get_of_settingsCopy before (by decide)).trans entry.symm) own, chanCfg_of_settingsCopy before low, ← staged] at after
  have written : (ccdWrite m b.val value s).settingsCopy h b
      = (advanceCcA h b (commitCoding h b (256 * b.val + a) w0 value v)).settingsCopy h b := by
    rw [settingsCopy_ccdWrite, bayWrite_accepted ok, after]
  have answer : exec (.codingCommit m b value) s = .next (ccdWrite m b.val value s) := by
    show execCodingCommit m b value s = _
    rw [execCodingCommit, ← view, if_pos one]
  refine .intro answer ?_
  rw [chanCfg_of_settingsCopy written low, State.flag, get_of_settingsCopy written (by decide), ← State.flag, advanceCcA,
    chanCfg_setReg, flag_setReg_other _ _ (by decide), ← chanCfg_of_settingsCopy before low]
  exact commitCoding_effect v _ w0 value

/-! ## CE_XCFG and the wait for the seal queue (R343, R349) -/

/-- A value of CE_XCFG that is stored waits in both halves for their next watch boundary. -/
theorem writeXcfg_waits {value : Word} (order : bits value 1 0 ≠ 3) (sealing : bits value 5 2 < 11) (s : State) :
    (writeXcfg value s).regs = s.regs
      ∧ ∀ h : Half, ((writeXcfg value s).half h).nextXcfg = some (inField 5 0 value.toNat) := by
  rw [writeXcfg, if_neg (not_or.mpr ⟨order, not_le.mpr sealing⟩)]
  refine ⟨rfl, fun h => ?_⟩
  cases h <;> rfl

/-- At the boundary a value that waits is in force. -/
theorem reg_applyXcfg {h : Half} {w : Word} {s : State} (waits : (s.half h).nextXcfg = some w) :
    (applyXcfg h s).reg (halfKey h + Reg.CE_XCFG) = w := by
  rw [applyXcfg, waits, State.reg, State.setHalf_regs]
  exact State.reg_setReg s _ w

theorem exec_metrologyCodingWrite_refused {value : Word} (bad : bits value 1 0 = 3 ∨ 11 ≤ bits value 5 2) (s : State) :
    exec (.metrologyCodingWrite value) s = .next s := by
  show execMetrologyCodingWrite value s = _
  rw [execMetrologyCodingWrite, writeXcfg, if_pos bad]

theorem sealQueueWaitEnd_gives {h : Half} {e : Fin 4} {x : Bushel} {rest : List Bushel} {s : State}
    (waits : (s.coder h e.val).waiting = x :: rest) (room : s.sealQueue h < 128) :
    Gives (.sealQueueWaitEnd h e) s (fun t =>
      (t.coder h e.val).waiting = rest ∧ (t.codeHalf h).out = (s.codeHalf h).out ++ [x]) := by
  have answer : exec (.sealQueueWaitEnd h e) s
      = .next (passSealed h x (s.setCoder h e.val { s.coder h e.val with waiting := rest })) := by
    show execSealQueueWaitEnd h e s = _
    rw [execSealQueueWaitEnd]
    dsimp only
    rw [waits]
    exact congrArg Host.Outcome.next (if_pos room)
  refine .intro answer ?_
  rw [passSealed, coder_of_coders (State.setCodeHalf_coders _ _ _), State.coder_setCoder, State.codeHalf_setCodeHalf]
  exact ⟨rfl, rfl⟩

/-! ## The obligation -/

/-- Settles O23: each command comes to one act on the engine's queue, the channel's open bushel or its settings, and what that
act leaves is said of it alone. -/
theorem codingTakesEffect : Obligations.CodingTakesEffect := by
  refine ⟨?_, ?_, ?_, ?_, ?_, ?_, ?_, ?_, ?_, ?_, ?_⟩
  · exact fun h e i rest s runs run grain records waiting items engine free closed =>
      codeItem_opens_gives runs run grain waiting records items engine free closed
  · exact fun h e i rest x s runs run grain records waiting items engine opened same set early fits =>
      codeItem_joins_gives runs run grain waiting records items engine opened same set early fits
  · exact fun h e r rest s runs run grain waiting records engine free closed =>
      codeRecord_opens_gives runs run grain waiting records engine free closed
  · intro h c cmd flush x s seals opened
    obtain ⟨before, answer⟩ := exec_seal seals opened
    refine .intro answer ⟨openBushel_sealChan s flush before false, fun nothing room below => ?_⟩
    obtain ⟨passed, counted⟩ := sealChan_passes opened nothing room flush before false
    exact ⟨passed, counted below⟩
  · intro h c x s fail opened nothing full
    exact .intro (exec_pfailSeal fail)
      ⟨openBushel_sealChan s true none false, sealChan_waits opened nothing full true none false⟩
  · intro h m b entry x s ok holder own opened
    exact .intro (exec_channelFlush ok holder own) ⟨openBushel_sealChan s true none false,
      fun nothing room => (sealChan_passes opened nothing room true none false).1⟩
  · intro h m b entry c s ok holder own
    have named : (decide (c / 256 = b.val) || decide (c = 16384 + b.val)) = true := by simpa using own
    exact .intro (exec_channelFlush_all ok holder entry) (openBushel_sealWhere (by omega) true named s)
  · exact fun h m b value a w0 s runs view ok one entry own staged =>
      codingCommit_gives runs view ok one entry own staged
  · intro value s order sealing
    obtain ⟨regs, waits⟩ := writeXcfg_waits order sealing s
    exact .intro rfl ⟨regs, fun h => reg_applyXcfg (waits h)⟩
  · exact fun value s bad => exec_metrologyCodingWrite_refused bad s
  · exact fun h e x rest s waits room => sealQueueWaitEnd_gives waits room

end Sys2Proof.Machine
end

section
/-! PROOF. The error of coding (O24): a residual is the difference from the prediction divided by 2E + 1 and rounded to the
nearest, and clamping brings no value of the range further away. -/

namespace Sys2Proof.Machine

/-! ## The quantised residual (R331) -/

/-- Division by 2e + 1 rounded to the nearest errs by at most e. -/
theorem nearest_multiple {e : Int} (nonneg : 0 ≤ e) (d : Int) :
    d - (d + e) / (2 * e + 1) * (2 * e + 1) ≤ e ∧ (d + e) / (2 * e + 1) * (2 * e + 1) - d ≤ e := by
  have quotient := Int.ediv_mul_add_emod (d + e) (2 * e + 1)
  have low := Int.emod_nonneg (d + e) (b := 2 * e + 1) (by omega)
  have high := Int.emod_lt_of_pos (d + e) (b := 2 * e + 1) (by omega)
  constructor <;> linarith

theorem Bushel.residual_near (x : Bushel) (v : Int) :
    v - (x.predict + x.residual v * (2 * (x.set.e : Int) + 1)) ≤ x.set.e
      ∧ x.predict + x.residual v * (2 * (x.set.e : Int) + 1) - v ≤ x.set.e := by
  unfold Bushel.residual
  dsimp only
  split
  · have near := nearest_multiple (Int.natCast_nonneg x.set.e) (v - x.predict)
    constructor <;> linarith
  · have near := nearest_multiple (Int.natCast_nonneg x.set.e) (-(v - x.predict))
    constructor <;> linarith

/-! ## The range of a channel (R331) -/

theorem clampBy_mem (sgn : Bool) (v : Int) :
    (sgn = true → -524288 ≤ clampBy sgn v ∧ clampBy sgn v ≤ 524287)
      ∧ (sgn = false → 0 ≤ clampBy sgn v ∧ clampBy sgn v ≤ 1048575) := by
  cases sgn <;> simp [clampBy]

/-- A value of the range is its own clamp. -/
theorem clampBy_of_mem {sgn : Bool} {v : Int} (signed : sgn = true → -524288 ≤ v ∧ v ≤ 524287)
    (unsigned : sgn = false → 0 ≤ v ∧ v ≤ 1048575) : clampBy sgn v = v := by
  cases sgn with
  | true =>
    obtain ⟨low, high⟩ := signed rfl
    exact (congrArg (max _) (min_eq_right high)).trans (max_eq_right low)
  | false =>
    obtain ⟨low, high⟩ := unsigned rfl
    exact (congrArg (max _) (min_eq_right high)).trans (max_eq_right low)

/-- Clamping moves no two values further apart. -/
theorem clampBy_sub_le (sgn : Bool) {v w e : Int} (nonneg : 0 ≤ e) (near : v - w ≤ e) :
    clampBy sgn v - clampBy sgn w ≤ e := by
  cases sgn
  · show max 0 (min 1048575 v) - max 0 (min 1048575 w) ≤ e
    omega
  · show max (-524288) (min 524287 v) - max (-524288) (min 524287 w) ≤ e
    omega

/-- The reconstruction of a value of the range errs by at most E (R339). -/
theorem Bushel.recon_near (x : Bushel) {v : Int} (own : clampBy x.set.sgn v = v) :
    v - x.recon v ≤ x.set.e ∧ x.recon v - v ≤ x.set.e := by
  obtain ⟨below, above⟩ := x.residual_near v
  have nonneg := Int.natCast_nonneg x.set.e
  have clampedBelow := clampBy_sub_le x.set.sgn nonneg below
  have clampedAbove := clampBy_sub_le x.set.sgn nonneg above
  rw [own] at clampedBelow clampedAbove
  exact ⟨clampedBelow, clampedAbove⟩

/-! ## Zigzag mapping (R331) -/

theorem zigzag_of_nonneg {q : Int} (nonneg : 0 ≤ q) : (zigzag q : Int) = 2 * q := by
  rw [zigzag, if_pos nonneg]
  omega

theorem zigzag_of_neg {q : Int} (neg : q < 0) : (zigzag q : Int) = -2 * q - 1 := by
  rw [zigzag, if_neg (by omega)]
  omega

/-- The number is read back from its image: an odd one stands for a negative number. -/
theorem unzigzag_zigzag (q : Int) :
    q = if zigzag q % 2 = 1 then -(((zigzag q + 1) / 2 : Nat) : Int) else ((zigzag q / 2 : Nat) : Int) := by
  by_cases nonneg : 0 ≤ q
  · have image := zigzag_of_nonneg nonneg
    rw [if_neg (by omega)]
    omega
  · have image := zigzag_of_neg (not_le.mp nonneg)
    rw [if_pos (by omega)]
    omega

/-! ## The obligation -/

/-- Settles O24: rounding to the nearest multiple errs by at most E, clamping by no more, and zigzag mapping is undone. -/
theorem codedValuesStayWithinTheTolerance : Obligations.CodedValuesStayWithinTheTolerance := by
  intro x v signed unsigned
  obtain ⟨below, above⟩ := x.recon_near (clampBy_of_mem signed unsigned)
  obtain ⟨signedRange, unsignedRange⟩ := clampBy_mem x.set.sgn (x.predict + x.residual v * (2 * (x.set.e : Int) + 1))
  exact ⟨below, above, fun exactly => by omega, signedRange, unsignedRange, unzigzag_zigzag (x.residual v)⟩

end Sys2Proof.Machine
end

section
/-! SUPPORT. What no command of the main die changes of the metrology die, the one-time store and the flash: one law per
operation of the model, in the order of its definitions. -/

namespace Sys2Proof.Machine

/-- The die without what lies on the link and the frames it has to send again (R371 to R377). -/
def Meter.unlinked (m : Meter) : Meter :=
  { m with unacked := [], arrived := 0, resent := false, status := none, command := none }

/-- What the main die cannot change by what its programs do: the die off the link, the one-time store and the flash. -/
def State.vault (s : State) : Meter × Otp × Tbl Byte := (s.meter.unlinked, s.otp, s.flash)

@[simp] theorem vault_ite (c : Prop) [Decidable c] (s t : State) :
    (if c then s else t).vault = if c then s.vault else t.vault := apply_ite _ _ _ _

@[simp] theorem vault_snd_ite {α : Type} (c : Prop) [Decidable c] (x y : α × State) :
    (if c then x else y).2.vault = if c then x.2.vault else y.2.vault :=
  apply_ite (fun r : α × State => r.2.vault) _ _ _

@[simp] theorem vault_foldl {β : Type} {f : State → β → State} (acts : ∀ v x, (f v x).vault = v.vault)
    (l : List β) (s : State) : (l.foldl f s).vault = s.vault := view_foldl acts l s

@[simp] theorem vault_onCopies {f : Half → State → State} (acts : ∀ h v, (f h v).vault = v.vault) (s : State) :
    (s.onCopies f).vault = s.vault := view_onCopies s acts

/-- A change of other parts of the state, whatever they are, does not show. -/
theorem vault_mk (s : State)
    {regs staging snaps seats orphans gaps owners halfA halfB referee profile profileTarget tref stood lockAt trefRuns
      consumers timebases slots pads sars mirrors fabricTime banks bankMarks imem imemMarks vmem vmemMarks lines
      synths lineBlanked freeCount engines progs pollEntries pipes recogs coders codeHalves chans chanCfgs bushels
      metLink archive links routes offers router stewards flashOps envLock vcDue vcLoading vcEntry ports twBuses pmbus
      power gpPins jtag pending} :
    State.vault ⟨regs, staging, snaps, seats, orphans, gaps, owners, halfA, halfB, referee, profile, profileTarget,
      tref, stood, lockAt, trefRuns, consumers, timebases, slots, pads, sars, mirrors, fabricTime, banks, bankMarks,
      imem, imemMarks, vmem, vmemMarks, lines, synths, lineBlanked, freeCount, engines, progs, pollEntries, pipes,
      recogs, coders, codeHalves, chans, chanCfgs, bushels, s.meter, metLink, archive, links, routes, offers, router,
      stewards, s.flash, flashOps, s.otp, envLock, vcDue, vcLoading, vcEntry, ports, twBuses, pmbus, power, gpPins,
      jtag, pending⟩ = s.vault := rfl

theorem EventOnly.vault {s t : State} (only : EventOnly s t) : t.vault = s.vault := by
  obtain ⟨_, _, _, _, rfl⟩ := only
  rfl

theorem SendOnly.vault {s t : State} (only : SendOnly s t) : t.vault = s.vault := by
  obtain ⟨_, _, _, _, _, _, _, _, _, _, rfl⟩ := only
  rfl

theorem StewOnly.vault {s t : State} (only : StewOnly s t) : t.vault = s.vault := by
  obtain ⟨_, _, _, _, rfl⟩ := only
  rfl

theorem FetchOnly.vault {s t : State} (only : FetchOnly s t) : t.vault = s.vault := by
  obtain ⟨_, _, _, _, rfl⟩ := only
  rfl

theorem vault_of_coding {h : Half} {s t : State} (kept : ∀ k, t.apartCoding h k = s.apartCoding h k) :
    t.vault = s.vault :=
  (congrArg (fun v => State.vault v.1) (kept ⟨0, by simp [codingKeys]⟩) :)

/-! ## Registers and events -/

@[simp] theorem vault_setReg (s : State) (k : Nat) (w : Word) : (s.setReg k w).vault = s.vault := (rfl)

@[simp] theorem vault_put (s : State) (k : Nat) (f : Fld) (v : Nat) : (s.put k f v).vault = s.vault := vault_setReg _ _ _

@[simp] theorem vault_count (s : State) (k n : Nat) : (s.count k n).vault = s.vault := vault_setReg _ _ _

@[simp] theorem vault_refuseWrite (s : State) (h : Half) (a : Nat) : (s.refuseWrite h a).vault = s.vault :=
  (vault_setReg _ _ _).trans (vault_count _ _ _)

@[simp] theorem vault_plainWrite (s : State) (k : Nat) (w : Word) : (s.plainWrite k w).vault = s.vault := by
  obtain same | ⟨v, same⟩ := plainWrite_cases s k w
  · rw [same]
  · rw [same, vault_setReg]

@[simp] theorem vault_setHalf (s : State) (h : Half) (x : HalfState) : (s.setHalf h x).vault = s.vault := by
  cases h <;> rfl

@[simp] theorem vault_setRegs (l : List (Nat × Word)) (s : State) : (s.setRegs l).vault = s.vault := by
  obtain ⟨_, written⟩ := setRegs_only l s
  rw [written]
  rfl

@[simp] theorem vault_setWide (n k v : Nat) (s : State) : (s.setWide k n v).vault = s.vault := by
  obtain ⟨_, written⟩ := setWide_only n s k v
  rw [written]
  rfl

@[simp] theorem vault_raiseEvents (l : List Nat) (s : State) : (raiseEvents l s).vault = s.vault :=
  (raiseEvents_only l s).vault

@[simp] theorem vault_raiseEvent (p : Nat) (s : State) : (raiseEvent p s).vault = s.vault := (raiseEvent_only p s).vault

/-! ## Links -/

@[simp] theorem vault_chargeTransfer (h : Half) (p n : Nat) (s : State) : (chargeTransfer h p n s).vault = s.vault :=
  (chargeTransfer_only h p n s).vault

@[simp] theorem vault_awaitAccess (h : Half) (a r : Nat) (s : State) : (awaitAccess h a r s).vault = s.vault :=
  (awaitAccess_only h a r s).vault

theorem vault_access {h : Half} {a r : Nat} {s t : State} (granted : s.access h a r = some t) : t.vault = s.vault :=
  (access_only granted).vault

@[simp] theorem vault_withAccess (h : Half) (a r : Nat) {f : State → State} (acts : ∀ v, (f v).vault = v.vault) (s : State) :
    (withAccess h a r f s).vault = s.vault := by
  cases granted : s.access h a r with
  | some t => rw [withAccess_of f granted, acts, vault_access granted]
  | none => rw [withAccess_none f granted, vault_awaitAccess]

@[simp] theorem vault_egress (l : Nat) (p : Packet) (s : State) : (egress l p s).vault = s.vault := (egress_send l p s).vault

@[simp] theorem vault_drainLink (l n : Nat) (s : State) : (drainLink l n s).vault = s.vault := by
  obtain ⟨_, drained⟩ := drainLink_only l n s
  rw [drained]
  rfl

@[simp] theorem vault_queueAlarm (l : Nat) (p : Packet) (s : State) : (queueAlarm l p s).vault = s.vault :=
  (queueAlarm_only l p s).vault

@[simp] theorem vault_injectAll (l : List (Nat × Packet)) (s : State) : (injectAll l s).vault = s.vault :=
  (injectAll_only l s).vault

@[simp] theorem vault_sendTo (kind cls dst tag : Nat) (payload : List Byte) (s : State) :
    (sendTo kind cls dst tag payload s).vault = s.vault :=
  (sendTo_only kind cls dst tag payload s).vault

@[simp] theorem vault_answerCmd (p : Nat) (c : Cmd) (st : Nat) (res : List Byte) (s : State) :
    (answerCmd p c st res s).vault = s.vault :=
  (answerCmd_only p c st res s).vault

@[simp] theorem vault_endCmd (p st : Nat) (res : List Byte) (s : State) : (endCmd p st res s).vault = s.vault :=
  (endCmd_only p st res s).vault

/-! ## Stewards -/

@[simp] theorem vault_setSteward (s : State) (k : Nat) (x : Steward) : (s.setSteward k x).vault = s.vault := (rfl)

@[simp] theorem vault_endStack (k : Nat) (s : State) : (endStack k s).vault = s.vault := (endStack_only k s).vault

@[simp] theorem vault_stopNow (k : Nat) (s : State) : (stopNow k s).vault = s.vault := (stopNow_only k s).vault

@[simp] theorem vault_haltNow (k c : Nat) (s : State) : (haltNow k c s).vault = s.vault := (haltNow_only k c s).vault

@[simp] theorem vault_boundary (k : Nat) (s : State) : (boundary k s).vault = s.vault := (boundary_only k s).vault

@[simp] theorem vault_complete (k : Nat) (f : Fetched) (wr : List (Nat × Word)) (ld : Option (Nat × Word))
    (jump : Option Word) (upd : Steward → Steward) (s : State) : (complete k f wr ld jump upd s).vault = s.vault :=
  (complete_only k f wr ld jump upd s).vault

@[simp] theorem vault_logCorrected (h : Half) (s : State) : (logCorrected h s).vault = s.vault := by
  obtain ⟨_, logged⟩ := logCorrected_only h s
  rw [logged]
  rfl

@[simp] theorem vault_logUncorrectable (h : Half) (a space port : Nat) (s : State) :
    (logUncorrectable h a space port s).vault = s.vault := by
  obtain ⟨_, logged⟩ := logUncorrectable_only h a space port s
  rw [logged]
  rfl

@[simp] theorem vault_readImem (h : Half) (a port : Nat) (s : State) : (readImem h a port s).2.vault = s.vault :=
  (readImem_only h a port s).vault

@[simp] theorem vault_fetchAt (k : Nat) (pc : Word) (s : State) : (fetchAt k pc s).2.vault = s.vault :=
  (fetchAt_only k pc s).vault

/-! ## Coders -/

@[simp] theorem vault_pushRecord (h : Half) (c rtype : Nat) (payload : List Byte) (s : State) :
    (pushRecord h c rtype payload s).vault = s.vault :=
  vault_of_coding fun k => apartCoding_pushRecord h k s c rtype payload

@[simp] theorem vault_pushItem (h : Half) (x : Item) (s : State) :
    (pushItem h x s).vault = s.vault :=
  vault_of_coding fun k => apartCoding_pushItem h k s x

@[simp] theorem vault_bayRecord (h : Half) (b : Nat) (en : Fld) (rtype : Nat) (payload : List Byte) (s : State) :
    (bayRecord h b en rtype payload s).vault = s.vault :=
  vault_of_coding fun k => apartCoding_bayRecord h k s b en rtype payload

@[simp] theorem vault_sealChan (h : Half) (c : Nat) (flush : Bool) (before : Option Nat) (force : Bool) (s : State) :
    (sealChan h c flush before force s).vault = s.vault :=
  vault_of_coding fun k => apartCoding_sealChan h k s c flush before force

/-! ## The interfaces of the frame proofs -/

theorem vault_budgetUnseen (h : Half) (b : Nat) : BudgetUnseen State.vault h b where
  setReg := fun s _ w _ => vault_setReg s _ w
  setEngine := fun _ _ => rfl
  setLine := fun _ _ => rfl
  setMirror := fun _ _ => rfl
  setPipe := fun _ _ => rfl
  raiseEvents := fun s l => vault_raiseEvents l s
  bayRecord := fun s en t p => vault_bayRecord h b en t p s
  setBudget := fun _ _ => by cases h <;> rfl
  floorOver := fun s => vault_setReg s _ _
  freeCount := fun _ _ => rfl

theorem vault_pipeUnseen (h : Half) (b : Nat) : PipeUnseen State.vault h b Set.univ where
  setReg := fun s _ w _ => vault_setReg s _ w
  setPipe := fun _ _ => rfl
  setEntryOf := fun _ _ _ _ _ => rfl
  setRecog := fun _ _ _ _ => rfl
  entries := fun _ _ => trivial

/-! ## Operations on the state -/

@[simp] theorem vault_stage (s : State) (m : Master) (addr : Nat) (w : Word) :
    (State.stage s m addr w).vault = s.vault := by
  simp [State.stage, ↓vault_mk]

@[simp] theorem vault_unstage (s : State) (m : Master) (addr : Nat) : (State.unstage s m addr).vault = s.vault := by
  simp [State.unstage, ↓vault_mk]

@[simp] theorem vault_bayWrite (s : State) (m : Master) (b addr : Nat) (f : Half → State → State)
    (acts : ∀ a v, (f a v).vault = v.vault) :
    (State.bayWrite s m b addr f).vault = s.vault := by
  simp [State.bayWrite, acts]

@[simp] theorem vault_blockWrite (s : State) (m : Master) (blk addr : Nat) (f : State → State)
    (acts : ∀ v, (f v).vault = v.vault) :
    (State.blockWrite s m blk addr f).vault = s.vault := by
  simp [State.blockWrite, acts]

@[simp] theorem vault_setConsumer (s : State) (c : Nat) (x : Consumer) : (State.setConsumer s c x).vault = s.vault := by
  simp [State.setConsumer, ↓vault_mk]

@[simp] theorem vault_setTimebase (s : State) (i : Nat) (x : Timebase) : (State.setTimebase s i x).vault = s.vault := by
  simp [State.setTimebase, ↓vault_mk]

@[simp] theorem vault_setSlot (s : State) (h : Half) (t : Nat) (x : Slot) : (State.setSlot s h t x).vault = s.vault := by
  simp [State.setSlot, ↓vault_mk]

@[simp] theorem vault_setPad (s : State) (t : Nat) (x : Pad) : (State.setPad s t x).vault = s.vault := by
  simp [State.setPad, ↓vault_mk]

@[simp] theorem vault_setSar (s : State) (b : Nat) (x : Sar) : (State.setSar s b x).vault = s.vault := by
  simp [State.setSar, ↓vault_mk]

@[simp] theorem vault_setMirror (s : State) (h : Half) (b : Nat) (x : Mirror) :
    (State.setMirror s h b x).vault = s.vault := by simp [State.setMirror, ↓vault_mk]

@[simp] theorem vault_noteBand (h : Half) (t was : Nat) (s : State) : (noteBand h t was s).vault = s.vault := by
  simp [noteBand]

@[simp] theorem vault_onSlot (s : State) (t : Nat) (f : Half → State → State) (acts : ∀ a v, (f a v).vault = v.vault) :
    (State.onSlot s t f).vault = s.vault := by simp [State.onSlot, acts]

@[simp] theorem vault_noteFrame (h : Half) (b : Nat) (w : Word) (s : State) : (noteFrame h b w s).vault = s.vault := by
  simp [noteFrame]

@[simp] theorem vault_setBank (s : State) (h : Half) (a : Nat) (w : Word) : (State.setBank s h a w).vault = s.vault := by
  simp [State.setBank, ↓vault_mk]

@[simp] theorem vault_setBankRun (h : Half) (l : List Word) :
    ∀ (a : Nat) (s : State), (s.setBankRun h a l).vault = s.vault := by
  induction l with
  | nil => exact fun _ _ => rfl
  | cons w l ih => exact fun a s => (ih _ _).trans (vault_setBank s h a w)

@[simp] theorem vault_noteResult (op : Nat) (test : List Byte → Bool) (st : Nat) (bytes : List Byte) (s : State) :
    (noteResult op test st bytes s).vault = s.vault := by simp [noteResult, ↓vault_mk]

@[simp] theorem vault_pulseIrq (s : State) (h : Half) (src : Nat) : (State.pulseIrq s h src).vault = s.vault := by
  simp [State.pulseIrq]

/-! ## Events -/

@[simp] theorem vault_onTimebase (s : State) (t : TbUnit) (f : Nat → State → State)
    (acts : ∀ a v, (f a v).vault = v.vault) :
    (State.onTimebase s t f).vault = s.vault := by simp [State.onTimebase, acts]

@[simp] theorem vault_captureRise (i c : Nat) (s : State) : (captureRise i c s).vault = s.vault := by simp [captureRise]

@[simp] theorem vault_captureFall (i c : Nat) (s : State) : (captureFall i c s).vault = s.vault := by simp [captureFall]

@[simp] theorem vault_capturePin (i c : Nat) (rise : Bool) (s : State) : (capturePin i c rise s).vault = s.vault := by
  simp [capturePin]

@[simp] theorem vault_raiseBayEvent (h : Half) (b : Nat) (e : BayEvent) (s : State) :
    (raiseBayEvent h b e s).vault = s.vault := (vault_budgetUnseen h b).raiseBayEvent s _

/-! ## Budget -/

@[simp] theorem vault_setBudget (s : State) (h : Half) (x : Budget) : (State.setBudget s h x).vault = s.vault := by
  simp [State.setBudget]

@[simp] theorem vault_newWatch (h : Half) (debt : Tbl Nat) (s : State) : (newWatch h debt s).vault = s.vault := by
  simp [newWatch]

@[simp] theorem vault_withhold (h : Half) (place hold : Nat) (s : State) : (withhold h place hold s).vault = s.vault := by
  simp [withhold]

@[simp] theorem vault_release (h : Half) (w : Nat × Nat × Nat) (s : State) : (release h w s).vault = s.vault := by
  simp [release]

@[simp] theorem vault_chargeAccess (h : Half) (place : Nat) (s : State) : (chargeAccess h place s).vault = s.vault := by
  simp [chargeAccess, ↓vault_mk]

theorem vault_admitted {h : Half} {a r : Nat} {s t : State} (admitted : s.admitted h a r = some t) :
    t.vault = s.vault := by
  unfold State.admitted at admitted
  dsimp only at admitted
  split at admitted
  · obtain ⟨v, taken, rfl⟩ := Option.map_eq_some_iff.mp (Option.ite_none_right_eq_some.mp admitted).2
    rw [vault_release, (admitTransfer_only taken).vault]
  · exact (admitTransfer_only admitted).vault

/-! ## Bushels -/

@[simp] theorem vault_setChan (s : State) (c : Nat) (x : Chan) : (State.setChan s c x).vault = s.vault := by
  simp [State.setChan, ↓vault_mk]

@[simp] theorem vault_noteGap (g : Nat) (s : State) : (noteGap g s).vault = s.vault := by simp [noteGap, ↓vault_mk]

@[simp] theorem vault_setCodeHalf (s : State) (h : Half) (x : CodeHalf) : (State.setCodeHalf s h x).vault = s.vault := by
  simp [State.setCodeHalf, ↓vault_mk]

@[simp] theorem vault_setChanCfg (s : State) (h : Half) (c : Nat) (x : ChanCfg) :
    (State.setChanCfg s h c x).vault = s.vault := by simp [State.setChanCfg, ↓vault_mk]

@[simp] theorem vault_sealWhere (h : Half) (flush : Bool) (p : Nat → Bool) (s : State) :
    (sealWhere h flush p s).vault = s.vault := by simp [sealWhere]

/-! ## Records -/

@[simp] theorem vault_setLineStat (h : Half) (b : Nat) (f : Fld) (s : State) : (setLineStat h b f s).vault = s.vault := by
  simp [setLineStat]

/-! ## Coders -/

@[simp] theorem vault_flushBay (b : Nat) (w : Word) (s : State) : (flushBay b w s).vault = s.vault := by
  unfold flushBay
  repeat' split
  all_goals simp

@[simp] theorem vault_writeFlush (m : Master) (b : Nat) (w : Word) (s : State) :
    (writeFlush m b w s).vault = s.vault := by
  simp [writeFlush]

@[simp] theorem vault_commitCoding (h : Half) (b c : Nat) (w0 w1 : Word) (s : State) :
    (commitCoding h b c w0 w1 s).vault = s.vault := by simp [commitCoding]

@[simp] theorem vault_advanceCcA (h : Half) (b : Nat) (s : State) : (advanceCcA h b s).vault = s.vault := by
  simp [advanceCcA]

@[simp] theorem vault_writeCcD (h : Half) (b : Nat) (st : Nat → Option Word) (w : Word) (s : State) :
    (writeCcD h b st w s).vault = s.vault := by
  unfold writeCcD
  split <;> simp

@[simp] theorem vault_ccdWrite (m : Master) (b : Nat) (w : Word) (s : State) : (ccdWrite m b w s).vault = s.vault := by
  unfold ccdWrite
  dsimp only
  split <;> simp [↓vault_mk]

@[simp] theorem vault_writeXcfg (w : Word) (s : State) : (writeXcfg w s).vault = s.vault := by simp [writeXcfg]

@[simp] theorem vault_applyXcfg (h : Half) (s : State) : (applyXcfg h s).vault = s.vault := by
  unfold applyXcfg
  split <;> simp

@[simp] theorem vault_ratioWatch (h : Half) (s : State) : (ratioWatch h s).vault = s.vault := by simp [ratioWatch]

@[simp] theorem vault_loseBushel (x : Bushel) (s : State) : (loseBushel x s).vault = s.vault := by simp [loseBushel]

@[simp] theorem vault_loseHeld (h : Half) (c : Nat) (s : State) : (loseHeld h c s).vault = s.vault := by simp [loseHeld]

@[simp] theorem vault_abandonCoding (h : Half) (s : State) : (abandonCoding h s).vault = s.vault := by
  simp [abandonCoding, ↓vault_mk]

/-! ## Fabric -/

@[simp] theorem vault_setLink (s : State) (l : Nat) (x : Link) : (State.setLink s l x).vault = s.vault := by
  simp [State.setLink, ↓vault_mk]

@[simp] theorem vault_setPort (s : State) (p : Nat) (x : Port) : (State.setPort s p x).vault = s.vault := by
  simp [State.setPort, ↓vault_mk]

@[simp] theorem vault_setRouter (s : State) (r : Router) : (State.setRouter s r).vault = s.vault := by
  simp [State.setRouter, ↓vault_mk]

@[simp] theorem vault_fabMark (f : Fld) (s : State) : (fabMark f s).vault = s.vault := by simp [fabMark]

@[simp] theorem vault_countFab (k : Nat) (s : State) : (countFab k s).vault = s.vault := by simp [countFab]

@[simp] theorem vault_countLink (l k n : Nat) (s : State) : (countLink l k n s).vault = s.vault := by simp [countLink]

@[simp] theorem vault_sendBlock (l : Nat) (b : LinkOut) (s : State) : (sendBlock l b s).vault = s.vault := by
  simp [sendBlock]

@[simp] theorem vault_unreach (p : Packet) (st : Nat) (s : State) : (unreach p st s).vault = s.vault := by
  unfold unreach
  repeat' split
  all_goals simp

@[simp] theorem vault_forward (p : Packet) (s : State) : (forward p s).vault = s.vault := by
  unfold forward
  repeat' split
  all_goals simp

@[simp] theorem vault_setRoute (a : Nat) (r : Route) (s : State) : (setRoute a r s).vault = s.vault := by
  simp [setRoute, ↓vault_mk]

@[simp] theorem vault_refreshRoute (a : Nat) (s : State) : (refreshRoute a s).vault = s.vault := by
  unfold refreshRoute
  dsimp only
  repeat' split
  all_goals simp

@[simp] theorem vault_failRoutes (l : Nat) (s : State) : (failRoutes l s).vault = s.vault := by
  refine (vault_foldl (fun v a => ?_) _ s : (List.foldl _ s _).vault = s.vault)
  dsimp only
  split_ifs
  · split <;> simp
  · simp
  · rfl

@[simp] theorem vault_noteOwner (a uid : Nat) (s : State) : (noteOwner a uid s).vault = s.vault := by simp [noteOwner]

@[simp] theorem vault_floodClaim (s : State) : (floodClaim s).vault = s.vault := by simp [floodClaim]

@[simp] theorem vault_setAddr (st a : Nat) (s : State) : (setAddr st a s).vault = s.vault := by simp [setAddr]

@[simp] theorem vault_tryFrom (n : Nat) : ∀ (i : Nat) (s : State), (tryFrom i n s).vault = s.vault := by
  induction n with
  | zero => simp [tryFrom]
  | succ n ih => simp [tryFrom, ih]

@[simp] theorem vault_startClaim (s : State) : (startClaim s).vault = s.vault := by simp [startClaim]

@[simp] theorem vault_moveOn (s : State) : (moveOn s).vault = s.vault := by simp [moveOn]

@[simp] theorem vault_emptyRoute (a : Nat) (s : State) : (emptyRoute a s).vault = s.vault := by simp [emptyRoute]

@[simp] theorem vault_giveUpAddr (s : State) : (giveUpAddr s).vault = s.vault := by simp [giveUpAddr]

@[simp] theorem vault_conflict (a uid : Nat) (held : Bool) (s : State) : (conflict a uid held s).vault = s.vault := by
  simp [conflict]

@[simp] theorem vault_dropTsync (s : State) : (dropTsync s).vault = s.vault := by simp [dropTsync]

@[simp] theorem vault_adoptRoot (s : State) : (adoptRoot s).vault = s.vault := by simp [adoptRoot]

@[simp] theorem vault_adoptParent (s : State) : (adoptParent s).vault = s.vault := by simp [adoptParent]

@[simp] theorem vault_settleTsync (s : State) : (settleTsync s).vault = s.vault := by simp [settleTsync]

@[simp] theorem vault_refreshTime (s : State) : (refreshTime s).vault = s.vault := by simp [refreshTime]

@[simp] theorem vault_endSwap (l st : Nat) (s : State) : (endSwap l st s).vault = s.vault := by simp [endSwap]

@[simp] theorem vault_leaveUp (l : Nat) (into : LinkMode) (s : State) : (leaveUp l into s).vault = s.vault := by
  simp [leaveUp]

@[simp] theorem vault_followEnable (l : Nat) (s : State) : (followEnable l s).vault = s.vault := by simp [followEnable]

@[simp] theorem vault_followEnables (s : State) : (followEnables s).vault = s.vault := by simp [followEnables]

@[simp] theorem vault_writeFabCtl (w : Word) (remote : Bool) (s : State) : (writeFabCtl w remote s).vault = s.vault := by
  simp [writeFabCtl]

@[simp] theorem vault_sendHello (sleep : Bool) (l : Nat) (s : State) : (sendHello sleep l s).vault = s.vault := by
  unfold sendHello
  split <;> simp

@[simp] theorem vault_setRole (l r fresh : Nat) (s : State) : (setRole l r fresh s).vault = s.vault := by simp [setRole]

@[simp] theorem vault_countWrong (l : Nat) (s : State) : (countWrong l s).vault = s.vault := by simp [countWrong]

@[simp] theorem vault_takeHello (l : Nat) (b : List Byte) (s : State) : (takeHello l b s).vault = s.vault := by
  simp [takeHello]

@[simp] theorem vault_bringUp (l : Nat) (s : State) : (bringUp l s).vault = s.vault := by
  unfold bringUp
  dsimp only
  split <;> simp

@[simp] theorem vault_settleRoles (l : Nat) (s : State) : (settleRoles l s).vault = s.vault := by simp [settleRoles]

@[simp] theorem vault_oweCredit (l : Nat) (p : Packet) (s : State) : (oweCredit l p s).vault = s.vault := by
  simp [oweCredit]

@[simp] theorem vault_received (l : Nat) (p : Packet) (f : State → State) (s : State)
    (acts : ∀ v, (f v).vault = v.vault) :
    (received l p f s).vault = s.vault := by simp [received, acts]

@[simp] theorem vault_spoil (p : Packet) (s : State) : (spoil p s).vault = s.vault := by
  unfold spoil
  repeat' split
  all_goals simp

@[simp] theorem vault_passClaim (l : Nat) (p : Packet) (uid q : Nat) (s : State) :
    (passClaim l p uid q s).vault = s.vault := by simp [passClaim]

@[simp] theorem vault_takeMetric (l a m : Nat) (s : State) : (takeMetric l a m s).vault = s.vault := by
  simp [takeMetric, ↓vault_mk]

@[simp] theorem vault_sendPage (page l : Nat) (s : State) : (sendPage page l s).vault = s.vault := by simp [sendPage]

@[simp] theorem vault_deliverAlarm (p : Packet) (s : State) : (deliverAlarm p s).vault = s.vault := by simp [deliverAlarm]

@[simp] theorem vault_passAlarm (ingress : Nat) (p : Packet) (s : State) : (passAlarm ingress p s).vault = s.vault := by
  unfold passAlarm
  repeat' split
  all_goals simp

@[simp] theorem vault_addSuppressed (k : AlarmKey) (n : Nat) (s : State) : (addSuppressed k n s).vault = s.vault := by
  simp [addSuppressed]

@[simp] theorem vault_handleAlarm (ingress : Nat) (p : Packet) (s : State) :
    (handleAlarm ingress p s).vault = s.vault := by
  unfold handleAlarm
  dsimp only
  split <;> simp

@[simp] theorem vault_drainInject (s : State) : (drainInject s).vault = s.vault :=
  (vault_setRouter _ _).trans ((tryInjects_only _ _).vault.trans (vault_setRouter s _))

/-! ## Timebases -/

@[simp] theorem vault_applyPhases (i m : Nat) (newPer : Bool) (s : State) (n : Nat) :
    (applyPhases i m newPer s n).vault = s.vault := by
  induction n with
  | zero => rfl
  | succ k ih => simp [applyPhases, ih]

@[simp] theorem vault_applyStaged (i : Nat) (s : State) : (applyStaged i s).vault = s.vault := by
  unfold applyStaged
  dsimp only
  repeat' split
  all_goals simp

@[simp] theorem vault_stageTb (i : Nat) (f : Timebase → Timebase) (s : State) : (stage i f s).vault = s.vault := by
  simp [stage]

@[simp] theorem vault_writeStaged (i : Nat) (r : TbStaged) (w : Word) (s : State) :
    (writeStaged i r w s).vault = s.vault := by
  cases r <;> simp [writeStaged]

@[simp] theorem vault_afterTick (i : Nat) (s : State) : (afterTick i s).vault = s.vault := by simp [afterTick]

@[simp] theorem vault_stampTick (s : State) (i : Nat) : (State.stampTick s i).vault = s.vault := by simp [State.stampTick]

@[simp] theorem vault_tick (i : Nat) (s : State) : (tick i s).vault = s.vault := by simp [tick]

@[simp] theorem vault_wrapTick (i : Nat) (s : State) : (wrapTick i s).vault = s.vault := by simp [wrapTick]

@[simp] theorem vault_sourceEdge (i : Nat) (s : State) : (sourceEdge i s).vault = s.vault := by simp [sourceEdge]

@[simp] theorem vault_sourceEdges (i n : Nat) : ∀ s : State, (sourceEdges i n s).vault = s.vault := by
  induction n with
  | zero => exact fun _ => rfl
  | succ n ih => simp [sourceEdges, ih]

@[simp] theorem vault_wrapChain (n : Nat) : ∀ (i : Nat) (s : State), (wrapChain n i s).vault = s.vault := by
  induction n with
  | zero => exact fun _ _ => rfl
  | succ n ih =>
    intro i s
    unfold wrapChain
    dsimp only
    split
    · rw [vault_sourceEdges]
      split <;> simp [ih]
    · rfl

@[simp] theorem vault_wrapTimebase (i : Nat) (s : State) : (wrapTimebase i s).vault = s.vault := by simp [wrapTimebase]

@[simp] theorem vault_setEnable (i : Nat) (en : Bool) (s : State) : (setEnable i en s).vault = s.vault := by
  simp [setEnable]

@[simp] theorem vault_writeTbCtl (i : Nat) (w : Word) (s : State) : (writeTbCtl i w s).vault = s.vault := by
  simp [writeTbCtl]

@[simp] theorem vault_writeTbCount (i : Nat) (w : Word) (s : State) : (writeTbCount i w s).vault = s.vault := by
  simp [writeTbCount]

@[simp] theorem vault_writeTbCmp (i : Nat) (w : Word) (s : State) : (writeTbCmp i w s).vault = s.vault := by
  simp [writeTbCmp]

@[simp] theorem vault_tbEvent (i : Nat) (s : State) : (tbEvent i s).vault = s.vault := by simp [tbEvent]

@[simp] theorem vault_compareTick (i : Nat) (s : State) : (compareTick i s).vault = s.vault := by simp [compareTick]

@[simp] theorem vault_advance (i n : Nat) (s : State) : (advance i n s).1.vault = s.vault := by
  unfold advance
  dsimp only
  split <;> simp

@[simp] theorem vault_coarseEdges (i n : Nat) : ∀ r : State × Nat, (coarseEdges i n r).1.vault = r.1.vault := by
  induction n with
  | zero => exact fun _ => rfl
  | succ n ih =>
    intro r
    unfold coarseEdges
    dsimp only
    split_ifs <;> simp [ih]

@[simp] theorem vault_coarseStep (i below : Nat) (s : State) : (coarseStep i below s).1.vault = s.vault := by
  unfold coarseStep
  dsimp only
  split_ifs <;> simp

@[simp] theorem vault_coarseChain (n : Nat) :
    ∀ (s : State) (i below : Nat), (coarseChain s i below n).vault = s.vault := by
  induction n with
  | zero => exact fun _ _ _ => rfl
  | succ n ih => simp [coarseChain, ih]

@[simp] theorem vault_setGpIn (p : Nat) (v : Bool) (s : State) : (setGpIn p v s).vault = s.vault := by simp [setGpIn]

@[simp] theorem vault_pinEdgeAt (p : Nat) (rise : Bool) (i : Nat) (s : State) :
    (pinEdgeAt p rise i s).vault = s.vault := by
  simp [pinEdgeAt]

@[simp] theorem vault_gpEdge (p : Nat) (rise : Bool) (s : State) : (gpEdge p rise s).vault = s.vault := by
  simp [gpEdge, ↓vault_mk]

@[simp] theorem vault_onTbWrite (m : Master) (t : TbUnit) (off : Nat) (f : Nat → State → State) (s : State)
    (acts : ∀ a v, (f a v).vault = v.vault) :
    (onTbWrite m t off f s).vault = s.vault := by
  unfold onTbWrite
  split <;> simp [acts]

@[simp] theorem vault_readCount (i : Nat) (s : State) : (readCount i s).vault = s.vault := by
  unfold readCount
  split <;> simp

/-! ## Terminals -/

@[simp] theorem vault_refreshHealth (h : Half) (t : Nat) (s : State) : (refreshHealth h t s).vault = s.vault := by
  simp [refreshHealth]

@[simp] theorem vault_takeEvidence (h : Half) (t cls : Nat) (s : State) : (takeEvidence h t cls s).vault = s.vault := by
  simp [takeEvidence]

@[simp] theorem vault_commitSample (h : Half) (t : Nat) (s : State) : (commitSample h t s).vault = s.vault := by
  unfold commitSample
  dsimp only
  split <;> simp

@[simp] theorem vault_probeSample (h : Half) (t code : Nat) (s : State) : (probeSample h t code s).vault = s.vault := by
  simp [probeSample]

@[simp] theorem vault_envelopeAction (h : Half) (t : Nat) (fs : List Fld) (cause : Nat) (s : State) :
    (envelopeAction h t fs cause s).vault = s.vault := by simp [envelopeAction]

@[simp] theorem vault_dropProof (h : Half) (t : Nat) (s : State) : (dropProof h t s).vault = s.vault := by
  unfold dropProof
  dsimp only
  split <;> simp

@[simp] theorem vault_suppress (h : Half) (t : Nat) (s : State) : (suppress h t s).vault = s.vault := by simp [suppress]

@[simp] theorem vault_holdPulse (t : Nat) (s : State) : (holdPulse t s).vault = s.vault := by simp [holdPulse]

@[simp] theorem vault_syncPad (t : Nat) (s0 : State) : (syncPad t s0).vault = s0.vault := by simp [syncPad, ↓vault_mk]

@[simp] theorem vault_limitOn (h : Half) (t on prev : Nat) (s : State) : (limitOn h t on prev s).2.vault = s.vault := by
  simp [limitOn]

@[simp] theorem vault_setLedger (s : State) (h : Half) (t : Nat) (v : Int) :
    (State.setLedger s h t v).vault = s.vault := by
  simp [State.setLedger]

@[simp] theorem vault_repayBorrow (h : Half) (t d n cmd maxon : Nat) (s : State) :
    (repayBorrow h t d n cmd maxon s).2.vault = s.vault := by simp [repayBorrow]

@[simp] theorem vault_repayProof (h : Half) (t e n cmd : Nat) (s : State) :
    (repayProof h t e n cmd s).2.vault = s.vault := by simp [repayProof]

@[simp] theorem vault_borrow (h : Half) (t d cmd : Nat) (s : State) : (borrow h t d cmd s).2.vault = s.vault := by
  simp [borrow]

@[simp] theorem vault_applyLedger (h : Half) (t cmd maxon : Nat) (s : State) :
    (applyLedger h t cmd maxon s).2.vault = s.vault := by
  unfold applyLedger
  dsimp only
  repeat' split
  all_goals simp

@[simp] theorem vault_startPulse (h : Half) (t : Nat) (s : State) : (startPulse h t s).vault = s.vault := by
  simp [startPulse]

@[simp] theorem vault_startOff (h : Half) (t : Nat) (s : State) : (startOff h t s).vault = s.vault := by simp [startOff]

@[simp] theorem vault_missTelemetry (h : Half) (t : Nat) (s : State) : (missTelemetry h t s).vault = s.vault := by
  simp [missTelemetry]

@[simp] theorem vault_endProof (h : Half) (t : Nat) (s : State) : (endProof h t s).vault = s.vault := by
  unfold endProof
  dsimp only
  split <;> simp

@[simp] theorem vault_closeSample (h : Half) (t : Nat) (s : State) : (closeSample h t s).vault = s.vault := by
  simp [closeSample]

@[simp] theorem vault_fallCopy (h : Half) (t : Nat) (s : State) : (fallCopy h t s).vault = s.vault := by simp [fallCopy]

@[simp] theorem vault_restSlot (h : Half) (t : Nat) (s : State) : (restSlot h t s).vault = s.vault := by simp [restSlot]

@[simp] theorem vault_restSlots (s : State) : (restSlots s).vault = s.vault := by simp [restSlots]

@[simp] theorem vault_restBay (i : Nat) (s : State) : (restBay i s).vault = s.vault := by simp [restBay]

@[simp] theorem vault_periodStart (h : Half) (t : Nat) (s : State) : (periodStart h t s).vault = s.vault := by
  simp [periodStart]

@[simp] theorem vault_riseCopy (held : Bool) (h : Half) (t : Nat) (s : State) :
    (riseCopy held h t s).vault = s.vault := by
  simp [riseCopy]

@[simp] theorem vault_tripCopy (h : Half) (t : Nat) (s : State) : (tripCopy h t s).vault = s.vault := by simp [tripCopy]

@[simp] theorem vault_noteRange (t st frame : Nat) (s : State) : (noteRange t st frame s).vault = s.vault := by
  simp [noteRange]

@[simp] theorem vault_endTalk (h : Half) (t st wait tries : Nat) (s0 : State) :
    (endTalk h t st wait tries s0).vault = s0.vault := by simp [endTalk]

@[simp] theorem vault_requestTalk (host env : Bool) (h : Half) (t op arg : Nat) (s : State) :
    (requestTalk host env h t op arg s).vault = s.vault := by simp [requestTalk]

@[simp] theorem vault_cancelTalk (h : Half) (t : Nat) (s : State) : (cancelTalk h t s).vault = s.vault := by
  unfold cancelTalk
  dsimp only
  split <;> simp

@[simp] theorem vault_startTalk (h : Half) (t : Nat) (s : State) : (startTalk h t s).vault = s.vault := by
  unfold startTalk
  dsimp only
  split <;> simp

@[simp] theorem vault_delayProbe (h : Half) (t : Nat) (s : State) : (delayProbe h t s).vault = s.vault := by
  simp [delayProbe]

@[simp] theorem vault_closeTalk (h : Half) (t st : Nat) (r : TalkReq) (s : State) :
    (closeTalk h t st r s).vault = s.vault := by simp [closeTalk]

@[simp] theorem vault_retryTalk (h : Half) (t st : Nat) (r : TalkReq) (s : State) :
    (retryTalk h t st r s).vault = s.vault := by simp [retryTalk]

@[simp] theorem vault_finishTalk (h : Half) (t : Nat) (reply : Word) (s0 : State) :
    (finishTalk h t reply s0).vault = s0.vault := by
  unfold finishTalk
  split <;> simp

@[simp] theorem vault_markTalk (h : Half) (t : Nat) (s : State) : (markTalk h t s).vault = s.vault := by
  unfold markTalk
  dsimp only
  split <;> simp

@[simp] theorem vault_terminalCycle (h : Half) (b code : Nat) (s : State) :
    (terminalCycle h b code s).vault = s.vault := by
  unfold terminalCycle
  repeat' split
  all_goals simp

@[simp] theorem vault_senseCycle (b : Nat) (volts : Bool) (code : Nat) (s : State) :
    (senseCycle b volts code s).vault = s.vault := by simp [senseCycle]

@[simp] theorem vault_coarseLedger (h : Half) (t cmd maxon : Nat) (s : State) :
    (coarseLedger h t cmd maxon s).2.vault = s.vault := by
  unfold coarseLedger
  split <;> simp

@[simp] theorem vault_coarseStart (h : Half) (t : Nat) (s : State) : (coarseStart h t s).vault = s.vault := by
  simp [coarseStart]

@[simp] theorem vault_dropDrive (h : Half) (t : Nat) (s : State) : (dropDrive h t s).vault = s.vault := by
  simp [dropDrive]

@[simp] theorem vault_raiseDrive (h : Half) (t : Nat) (s : State) : (raiseDrive h t s).vault = s.vault := by
  simp [raiseDrive]

@[simp] theorem vault_coarseBand (h : Half) (t : Nat) (s : State) : (coarseBand h t s).vault = s.vault := by
  simp [coarseBand]

@[simp] theorem vault_staticBand (entry : Bool) (h : Half) (t : Nat) (live : Bool) (s : State) :
    (staticBand entry h t live s).vault = s.vault := by simp [staticBand]

@[simp] theorem vault_sleepBand (entry : Bool) (h : Half) (t : Nat) (s0 : State) :
    (sleepBand entry h t s0).vault = s0.vault := by simp [sleepBand]

@[simp] theorem vault_takeEnvelope (t : Nat) (s : State) : (takeEnvelope t s).vault = s.vault := by simp [takeEnvelope]

@[simp] theorem vault_switchPath (t : Nat) (s : State) : (switchPath t s).vault = s.vault := by
  simp [switchPath, ↓vault_mk]

@[simp] theorem vault_loseExchange (t : Nat) (s : State) : (loseExchange t s).vault = s.vault := by
  refine vault_onCopies (fun h v => ?_) s
  split <;> simp

@[simp] theorem vault_takePath (t : Nat) (s : State) : (takePath t s).vault = s.vault := by simp [takePath, ↓vault_mk]

@[simp] theorem vault_sleepBands (entry : Bool) (s : State) : (sleepBands entry s).vault = s.vault := by simp [sleepBands]

@[simp] theorem vault_ageTick (s : State) : (ageTick s).vault = s.vault := by simp [ageTick]

@[simp] theorem vault_unlatch (t : Nat) (s : State) : (unlatch t s).vault = s.vault := by simp [unlatch]

@[simp] theorem vault_markThreshold (h : Half) (b which : Nat) (s : State) :
    (markThreshold h b which s).vault = s.vault := by simp [markThreshold]

@[simp] theorem vault_readThreshold (b which code : Nat) (s : State) :
    (readThreshold b which code s).vault = s.vault := by
  simp [readThreshold]

@[simp] theorem vault_cutPad (t : Nat) (s : State) : (cutPad t s).vault = s.vault := by simp [cutPad]

@[simp] theorem vault_clearTrip (h : Half) (t : Nat) (s : State) : (clearTrip h t s).vault = s.vault := by
  simp [clearTrip]

@[simp] theorem vault_writeTalk (m : Master) (t op arg : Nat) (s : State) : (writeTalk m t op arg s).vault = s.vault := by
  simp [writeTalk]

@[simp] theorem vault_coarseEdge (s : State) : (coarseEdge s).vault = s.vault := by simp [coarseEdge]

/-! ## Lines -/

@[simp] theorem vault_setLine (s : State) (h : Half) (b : Nat) (x : Line) : (State.setLine s h b x).vault = s.vault := by
  simp [State.setLine, ↓vault_mk]

@[simp] theorem vault_setEngine (s : State) (h : Half) (b : Nat) (x : Engine) :
    (State.setEngine s h b x).vault = s.vault := by simp [State.setEngine, ↓vault_mk]

@[simp] theorem vault_setSynth (s : State) (j : Nat) (x : Synth) : (State.setSynth s j x).vault = s.vault := by
  simp [State.setSynth, ↓vault_mk]

@[simp] theorem vault_syncLinePath (b : Nat) (s : State) : (syncLinePath b s).vault = s.vault := by
  simp [syncLinePath, ↓vault_mk]

@[simp] theorem vault_endEntry (h : Half) (b e st : Nat) (s : State) : (endEntry h b e st s).vault = s.vault :=
  (vault_budgetUnseen h b).endEntry s _ _

@[simp] theorem vault_failAttempt (h : Half) (b st : Nat) (s : State) : (failAttempt h b st s).vault = s.vault :=
  (vault_budgetUnseen h b).failAttempt s _

@[simp] theorem vault_endAttempt (h : Half) (b st : Nat) (s : State) : (endAttempt h b st s).vault = s.vault := by
  unfold endAttempt
  split <;> simp

@[simp] theorem vault_setOutput (h : Half) (b : Nat) (sym : Option Bool) (mod : Nat) (raw : Bool) (s : State) :
    (setOutput h b sym mod raw s).vault = s.vault := (vault_budgetUnseen h b).setOutput s _ _ _

@[simp] theorem vault_muteEngine (h : Half) (b : Nat) (s : State) : (muteEngine h b s).vault = s.vault := by
  simp [muteEngine]

@[simp] theorem vault_endAllEntries (h : Half) (b st : Nat) (s : State) : (endAllEntries h b st s).vault = s.vault := by
  simp [endAllEntries]

@[simp] theorem vault_loseAssembly (h : Half) (b : Nat) (s : State) : (loseAssembly h b s).vault = s.vault :=
  (vault_budgetUnseen h b).loseAssembly s

@[simp] theorem vault_loseFrame (h : Half) (b : Nat) (s : State) : (loseFrame h b s).vault = s.vault :=
  (vault_budgetUnseen h b).loseFrame s

@[simp] theorem vault_submit (h : Half) (b id : Nat) (s : State) : (submit h b id s).vault = s.vault :=
  (vault_budgetUnseen h b).submit s _

@[simp] theorem vault_cancelEntry (h : Half) (b e : Nat) (s : State) : (cancelEntry h b e s).vault = s.vault :=
  (vault_budgetUnseen h b).cancelEntry s _

@[simp] theorem vault_cancelMask (h : Half) (b mask : Nat) (s : State) : (cancelMask h b mask s).vault = s.vault :=
  (vault_budgetUnseen h b).cancelMask s _

@[simp] theorem vault_writeTxData (h : Half) (b : Nat) (w : Word) (s : State) : (writeTxData h b w s).vault = s.vault :=
  (vault_budgetUnseen h b).writeTxData s _

@[simp] theorem vault_advanceRx (h : Half) (b : Nat) (s : State) : (advanceRx h b s).vault = s.vault :=
  (vault_budgetUnseen h b).advanceRx s

@[simp] theorem vault_popRx (h : Half) (b : Nat) (s : State) : (popRx h b s).vault = s.vault :=
  (vault_budgetUnseen h b).popRx s

@[simp] theorem vault_lineTripCopy (h : Half) (volts : Bool) (b : Nat) (s : State) :
    (lineTripCopy h volts b s).vault = s.vault := by simp [lineTripCopy]

@[simp] theorem vault_lineTrip (volts : Bool) (b : Nat) (s : State) : (lineTrip volts b s).vault = s.vault := by
  simp [lineTrip]

@[simp] theorem vault_octetRegs (j : Nat) (f : Nat → State → State) (s : State) (acts : ∀ a v, (f a v).vault = v.vault) :
    (octetRegs j f s).vault = s.vault := by simp [octetRegs, acts]

@[simp] theorem vault_loseReceptions (j : Nat) (s : State) : (loseReceptions j s).vault = s.vault := by
  simp [loseReceptions]

@[simp] theorem vault_tune (j f : Nat) (s : State) : (tune j f s).vault = s.vault := by simp [tune]

@[simp] theorem vault_tuneStaged (j : Nat) (s : State) : (tuneStaged j s).vault = s.vault := by simp [tuneStaged]

@[simp] theorem vault_synthRun (j : Nat) (s : State) : (synthRun j s).vault = s.vault := by simp [synthRun]

@[simp] theorem vault_synthFreq (j f : Nat) (s : State) : (synthFreq j f s).vault = s.vault := by
  unfold synthFreq
  dsimp only
  repeat' split
  all_goals simp

@[simp] theorem vault_synthCal (j : Nat) (s : State) : (synthCal j s).vault = s.vault := by
  unfold synthCal
  dsimp only
  split <;> simp

@[simp] theorem vault_synthUnlock (j : Nat) (s : State) : (synthUnlock j s).vault = s.vault := by simp [synthUnlock]

/-! ## Sampling -/

@[simp] theorem vault_setEntryOf (s : State) (h : Half) (b e : Nat) (x : PollEntry) :
    (State.setEntryOf s h b e x).vault = s.vault := by simp [State.setEntryOf, ↓vault_mk]

@[simp] theorem vault_setPipe (s : State) (h : Half) (b : Nat) (x : BayPipe) :
    (State.setPipe s h b x).vault = s.vault := by
  simp [State.setPipe, ↓vault_mk]

@[simp] theorem vault_setRecog (s : State) (h : Half) (b i : Nat) (x : Recog) :
    (State.setRecog s h b i x).vault = s.vault := by simp [State.setRecog, ↓vault_mk]

@[simp] theorem vault_countPl (h : Half) (b k n : Nat) (s : State) : (countPl h b k n s).vault = s.vault := by
  simp [countPl]

@[simp] theorem vault_plMark (h : Half) (b : Nat) (f : Fld) (s : State) : (plMark h b f s).vault = s.vault := by
  simp [plMark]

@[simp] theorem vault_releaseHeld (h : Half) (b : Nat) (plain : List Nat) (s : State) :
    (releaseHeld h b plain s).vault = s.vault := (vault_pipeUnseen h b).releaseHeld s _

@[simp] theorem vault_pushInput (h : Half) (b : Nat) (i : PInput) (s : State) : (pushInput h b i s).vault = s.vault :=
  (vault_budgetUnseen h b).pushInput s _

@[simp] theorem vault_settleCommits (h : Half) (b e : Nat) (s : State) : (settleCommits h b e s).vault = s.vault :=
  (vault_pipeUnseen h b).settleCommits s trivial

@[simp] theorem vault_missParts (h : Half) (b : Nat) (p : Poll) (cause : Nat) (s : State) :
    (missParts h b p cause s).vault = s.vault := (vault_budgetUnseen h b).missParts s _ _

@[simp] theorem vault_abandonPoll (h : Half) (b : Nat) (p : Poll) (s : State) :
    (abandonPoll h b p s).vault = s.vault := by
  simp [abandonPoll]

@[simp] theorem vault_abandonPolls (h : Half) (b e : Nat) (s : State) : (abandonPolls h b e s).vault = s.vault := by
  simp [abandonPolls]

@[simp] theorem vault_gapEntry (h : Half) (b e : Nat) (s : State) : (gapEntry h b e s).vault = s.vault := by
  simp [gapEntry]

@[simp] theorem vault_gapRuns (s : State) : (gapRuns s).vault = s.vault :=
  vault_foldl (fun _ b => vault_onCopies (view_when fun h v => vault_foldl (fun u e => vault_gapEntry h b e u) _ v) _) _ s

@[simp] theorem vault_settleP (h : Half) (b : Nat) (s : State) : (settleP h b s).vault = s.vault :=
  (vault_budgetUnseen h b).settleP s

@[simp] theorem vault_commitEntry (h : Half) (b e : Nat) (st0 st1 : Option Word) (w2 : Word) (s : State) :
    (commitEntry h b e st0 st1 w2 s).vault = s.vault := by simp [commitEntry]

@[simp] theorem vault_advanceTa (h : Half) (b : Nat) (s : State) : (advanceTa h b s).vault = s.vault :=
  (vault_pipeUnseen h b).advanceTa s

@[simp] theorem vault_writePlTd (h : Half) (b : Nat) (st : Nat → Nat → Option Word) (w : Word) (s : State) :
    (writePlTd h b st w s).vault = s.vault := by
  unfold writePlTd
  split <;> simp

@[simp] theorem vault_stageTd (m : Master) (b e i : Nat) (w : Word) (x : PollEntry) (s : State) :
    (stageTd m b e i w x s).vault = s.vault := by simp [stageTd, ↓vault_mk]

@[simp] theorem vault_plTdWrite (m : Master) (b : Nat) (w : Word) (s : State) : (plTdWrite m b w s).vault = s.vault := by
  simp [plTdWrite]

@[simp] theorem vault_startPipe (h : Half) (b : Nat) (s : State) : (startPipe h b s).vault = s.vault := by
  simp [startPipe]

@[simp] theorem vault_stopPipe (h : Half) (b : Nat) (s : State) : (stopPipe h b s).vault = s.vault := by simp [stopPipe]

@[simp] theorem vault_writePlCfg (h : Half) (b : Nat) (w : Word) (s : State) : (writePlCfg h b w s).vault = s.vault := by
  simp [writePlCfg]

@[simp] theorem vault_writeIdent (h : Half) (b node : Nat) (s : State) : (writeIdent h b node s).vault = s.vault := by
  simp [writeIdent]

@[simp] theorem vault_writeCcmt (h : Half) (b : Nat) (st : Nat → FirSet → FirSet) (w : Word) (s : State) :
    (writeCcmt h b st w s).vault = s.vault := (vault_pipeUnseen h b).writeCcmt s _ _

@[simp] theorem vault_unstageSet (m : Master) (b i : Nat) (now : FirSet) (s : State) :
    (unstageSet m b i now s).vault = s.vault := by simp [unstageSet, ↓vault_mk]

@[simp] theorem vault_ccmtWrite (m : Master) (b : Nat) (w : Word) (s : State) : (ccmtWrite m b w s).vault = s.vault := by
  simp [ccmtWrite]

@[simp] theorem vault_advanceCa (h : Half) (b : Nat) (s : State) : (advanceCa h b s).vault = s.vault := by
  simp [advanceCa]

@[simp] theorem vault_plCdWrite (m : Master) (b : Nat) (w : Word) (s : State) : (plCdWrite m b w s).vault = s.vault := by
  simp [plCdWrite, ↓vault_mk]

@[simp] theorem vault_retunePresets (h : Half) (s : State) : (retunePresets h s).vault = s.vault := by
  simp [retunePresets]

@[simp] theorem vault_writeRgCfg (h : Half) (b i : Nat) (w : Word) (s : State) :
    (writeRgCfg h b i w s).vault = s.vault := by
  simp [writeRgCfg]

@[simp] theorem vault_writeRgAck (h : Half) (b : Nat) (w : Word) (s : State) : (writeRgAck h b w s).vault = s.vault :=
  (vault_pipeUnseen h b).writeRgAck s _

/-! ## Engines -/

@[simp] theorem vault_applyLe (h : Half) (b : Nat) (s : State) : (applyLe h b s).vault = s.vault :=
  (vault_budgetUnseen h b).applyLe s

@[simp] theorem vault_writeLeStaged (h : Half) (b off : Nat) (w : Word) (s : State) :
    (writeLeStaged h b off w s).vault = s.vault := by
  unfold writeLeStaged
  dsimp only
  repeat' split
  all_goals simp

@[simp] theorem vault_leDropAssembly (h : Half) (b : Nat) (s : State) : (leDropAssembly h b s).vault = s.vault :=
  (vault_budgetUnseen h b).leDropAssembly s

@[simp] theorem vault_leTakeSwap (h : Half) (b : Nat) (s : State) : (leTakeSwap h b s).vault = s.vault :=
  (vault_budgetUnseen h b).leTakeSwap s

@[simp] theorem vault_leTryStart (h : Half) (b : Nat) (s : State) : (leTryStart h b s).vault = s.vault :=
  (vault_budgetUnseen h b).leTryStart s

@[simp] theorem vault_leAbort (h : Half) (b : Nat) (s : State) : (leAbort h b s).vault = s.vault :=
  (vault_budgetUnseen h b).leAbort s

@[simp] theorem vault_leHaltAll (h : Half) (b : Nat) (s : State) : (leHaltAll h b s).vault = s.vault :=
  (vault_budgetUnseen h b).leHaltAll s

@[simp] theorem vault_leStop (h : Half) (b : Nat) (s : State) : (leStop h b s).vault = s.vault :=
  (vault_budgetUnseen h b).leStop s

@[simp] theorem vault_leDisable (h : Half) (b : Nat) (s : State) : (leDisable h b s).vault = s.vault := by
  simp [leDisable]

@[simp] theorem vault_lineWrite (m : Master) (b off : Nat) (f : Half → State → State) (s : State)
    (acts : ∀ a v, (f a v).vault = v.vault) :
    (lineWrite m b off f s).vault = s.vault := by
  simp [lineWrite, ↓vault_mk, acts]

@[simp] theorem vault_leStep (h : Half) (b : Nat) (v : Bool) (s : State) : (leStep h b v s).vault = s.vault :=
  (vault_budgetUnseen h b).leStep s _

@[simp] theorem vault_leResume (h : Half) (b : Nat) (s : State) : (leResume h b s).vault = s.vault :=
  (vault_budgetUnseen h b).leResume s

@[simp] theorem vault_leAskSwap (h : Half) (b : Nat) (restart force : Bool) (s : State) :
    (leAskSwap h b restart force s).vault = s.vault := (vault_budgetUnseen h b).leAskSwap s _ _

@[simp] theorem vault_leCommitWord (h : Half) (b : Nat) (low : Option Word) (hi : Word) (s : State) :
    (leCommitWord h b low hi s).vault = s.vault := by simp [leCommitWord, ↓vault_mk]

@[simp] theorem vault_settleOctet (j : Nat) (s : State) : (settleOctet j s).vault = s.vault := by simp [settleOctet]

@[simp] theorem vault_writeLnCfg (h : Half) (b : Nat) (w : Word) (s : State) : (writeLnCfg h b w s).vault = s.vault := by
  simp [writeLnCfg]

@[simp] theorem vault_lnCfgWrite (m : Master) (b : Nat) (w : Half → State → Word) (s : State) :
    (lnCfgWrite m b w s).vault = s.vault := by simp [lnCfgWrite]

@[simp] theorem vault_bayRead (s : State) (m : Master) (b : Nat) (f : Half → State → State)
    (acts : ∀ a v, (f a v).vault = v.vault) :
    (State.bayRead s m b f).vault = s.vault := by
  simp [State.bayRead, acts]

/-! ## Archive -/

@[simp] theorem vault_setArchive (s : State) (a : Archive) : (State.setArchive s a).vault = s.vault := by
  simp [State.setArchive, ↓vault_mk]

@[simp] theorem vault_countArc (k n : Nat) (s : State) : (countArc k n s).vault = s.vault := by simp [countArc]

@[simp] theorem vault_arcMark (f : Fld) (v : Nat) (s : State) : (arcMark f v s).vault = s.vault := by simp [arcMark]

@[simp] theorem vault_land (half : Option Half) (bytes : List Byte) (s : State) :
    (land half bytes s).vault = s.vault := by
  simp [land]

@[simp] theorem vault_followTail (s : State) : (followTail s).vault = s.vault := by simp [followTail]

@[simp] theorem vault_killSlot (slot : Nat) (s : State) : (killSlot slot s).vault = s.vault := by simp [killSlot]

@[simp] theorem vault_retireSlot (slot : Nat) (s : State) : (retireSlot slot s).vault = s.vault := by
  unfold retireSlot
  dsimp only
  split <;> simp

@[simp] theorem vault_showGeom (l : List NandChip) (s : State) : (showGeom l s).vault = s.vault := by
  unfold showGeom
  split <;> simp

@[simp] theorem vault_showRing (s : State) : (showRing s).vault = s.vault := by simp [showRing]

@[simp] theorem vault_startRecovery (chips : List NandChip) (torn : Nat) (s : State) :
    (startRecovery chips torn s).vault = s.vault := by simp [startRecovery]

@[simp] theorem vault_answerRequest (r : ArcReq) (st : Nat) (bytes : List Byte) (found : Nat) (s : State) :
    (answerRequest r st bytes found s).vault = s.vault := by
  unfold answerRequest
  split <;> simp

@[simp] theorem vault_dropRequests (keep : ArcReq → Bool) (st : Nat) (s : State) :
    (dropRequests keep st s).vault = s.vault := by simp [dropRequests]

@[simp] theorem vault_stopArchive (s : State) : (stopArchive s).vault = s.vault := by simp [stopArchive]

@[simp] theorem vault_writeArcCtl (w : Word) (s : State) : (writeArcCtl w s).vault = s.vault := by simp [writeArcCtl]

@[simp] theorem vault_writeArcPair (w : Word) (s : State) : (writeArcPair w s).vault = s.vault := by simp [writeArcPair]

@[simp] theorem vault_writeArcFmt (w : Word) (s : State) : (writeArcFmt w s).vault = s.vault := by simp [writeArcFmt]

@[simp] theorem vault_meetCodeword (slot corr : Nat) (s : State) : (meetCodeword slot corr s).vault = s.vault := by
  simp [meetCodeword]

@[simp] theorem vault_serveArchive (op arg parm origin corr : Nat) (s : State) :
    (serveArchive op arg parm origin corr s).2.2.2.vault = s.vault := by
  unfold serveArchive
  dsimp only
  repeat' split
  all_goals simp

@[simp] theorem vault_refuseRequest (st : Nat) (s : State) : (refuseRequest st s).vault = s.vault := by
  simp [refuseRequest]

@[simp] theorem vault_writeArcOp (h : Half) (w : Word) (s : State) : (writeArcOp h w s).vault = s.vault := by
  simp [writeArcOp]

@[simp] theorem vault_askArchive (m : Master) (w : Word) (s : State) : (askArchive m w s).vault = s.vault := by
  simp [askArchive]

@[simp] theorem vault_serveRequest (r : ArcReq) (rest : List ArcReq) (corr : Nat) (s : State) :
    (serveRequest r rest corr s).vault = s.vault := by simp [serveRequest]

@[simp] theorem vault_archiveMoved (old : Half) (s : State) : (archiveMoved old s).vault = s.vault := by
  simp [archiveMoved]

@[simp] theorem vault_sendReplica (x : Landed) (s : State) : (sendReplica x s).vault = s.vault := by
  unfold sendReplica
  dsimp only
  split <;> simp

@[simp] theorem vault_sendCharged (x : Landed) (sent : List (Nat × Nat)) (s : State) :
    (sendCharged x sent s).vault = s.vault := by simp [sendCharged]

@[simp] theorem vault_sendRack (dst st lap off : Nat) (s : State) : (sendRack dst st lap off s).vault = s.vault := by
  simp [sendRack]

@[simp] theorem vault_writeOrigFree (w : Word) (s : State) : (writeOrigFree w s).vault = s.vault := by
  simp [writeOrigFree]

@[simp] theorem vault_writeArcRepl (w : Word) (s : State) : (writeArcRepl w s).vault = s.vault := by simp [writeArcRepl]

/-! ## Routed commands -/

@[simp] theorem vault_putReply (p : Nat) (b : List Byte) (s : State) : (putReply p b s).vault = s.vault := by
  simp [putReply]

@[simp] theorem vault_takeRouted (c : Cmd) (s : State) : (takeRouted c s).vault = s.vault := by simp [takeRouted]

@[simp] theorem vault_atTarget (l : Nat) (p : Packet) (f : State → State) (s : State)
    (acts : ∀ v, (f v).vault = v.vault) :
    (atTarget l p f s).vault = s.vault := by simp [atTarget, acts]

@[simp] theorem vault_endRouted (p tag : Nat) (b : List Byte) (s : State) : (endRouted p tag b s).vault = s.vault := by
  simp [endRouted]

@[simp] theorem vault_failRouted (p tag st : Nat) (s : State) : (failRouted p tag st s).vault = s.vault := by
  unfold failRouted
  split <;> simp

/-! ## Memory -/

@[simp] theorem vault_readBank (h : Half) (a port : Nat) (s : State) : (readBank h a port s).2.vault = s.vault := by
  unfold readBank
  dsimp only
  split <;> simp [↓vault_mk]

@[simp] theorem vault_readBankPort (h : Half) (a port : Nat) (s : State) :
    (readBankPort h a port s).2.vault = s.vault := by
  simp [readBankPort]

@[simp] theorem vault_readBankRun (h : Half) (port n : Nat) :
    ∀ (a : Nat) (s : State), (readBankRun h a port n s).2.vault = s.vault := by
  induction n with
  | zero => exact fun _ _ => rfl
  | succ n ih => simp [readBankRun, ih]

@[simp] theorem vault_dataRead (k a : Nat) (s : State) : (dataRead k a s).2.vault = s.vault := by
  unfold dataRead
  repeat' split
  all_goals simp [↓vault_mk]

@[simp] theorem vault_setVigil (s : State) (a : Nat) (w : Word) : (State.setVigil s a w).vault = s.vault := by
  unfold State.setVigil
  dsimp only
  split <;> simp [↓vault_mk]

theorem vault_dataWrite (k a : Nat) (w : Word) (s : State) : ∀ t, (dataWrite k a w s) = some t → t.vault = s.vault := by
  unfold dataWrite
  split <;> simp

@[simp] theorem vault_supersede (k a : Nat) (s : State) : (supersede k a s).vault = s.vault := by simp [supersede]

@[simp] theorem vault_setImem (s : State) (h : Half) (a : Nat) (w : Word) : (State.setImem s h a w).vault = s.vault := by
  simp [State.setImem, ↓vault_mk]

@[simp] theorem vault_writeImD (h : Half) (w : Word) (s : State) : (writeImD h w s).vault = s.vault := by simp [writeImD]

@[simp] theorem vault_readImD (h : Half) (port : Nat) (s : State) : (readImD h port s).2.vault = s.vault := by
  simp [readImD]

@[simp] theorem vault_writeVmD (h : Half) (w : Word) (s : State) : (writeVmD h w s).vault = s.vault := by simp [writeVmD]

@[simp] theorem vault_readVmD (h : Half) (port : Nat) (s : State) : (readVmD h port s).2.vault = s.vault := by
  unfold readVmD
  dsimp only
  split <;> simp [↓vault_mk]

@[simp] theorem vault_copyWindow (h : Half) (l : List Nat) (s : State) : (copyWindow h l s).vault = s.vault := by
  simp [copyWindow, ↓vault_mk]

@[simp] theorem vault_restoreWindow (h : Half) (l : List Nat) (s : State) : (restoreWindow h l s).vault = s.vault := by
  simp [restoreWindow, ↓vault_mk]

/-! ## A steward's core -/

@[simp] theorem vault_haltRequest (k : Nat) (s : State) : (haltRequest k s).vault = s.vault := by simp [haltRequest]

@[simp] theorem vault_stopRequest (k : Nat) (s : State) : (stopRequest k s).vault = s.vault := by
  unfold stopRequest
  dsimp only
  split <;> simp

@[simp] theorem vault_startRequest (k : Nat) (s : State) : (startRequest k s).vault = s.vault := by simp [startRequest]

@[simp] theorem vault_resumeRequest (k : Nat) (s : State) : (resumeRequest k s).vault = s.vault := by simp [resumeRequest]

@[simp] theorem vault_stepRequest (k : Nat) (s : State) : (stepRequest k s).vault = s.vault := by simp [stepRequest]

@[simp] theorem vault_writeStwCtl (k : Nat) (w : Word) (s : State) : (writeStwCtl k w s).vault = s.vault := by
  simp [writeStwCtl]

@[simp] theorem vault_writeRdat (k : Nat) (v : Word) (s : State) : (writeRdat k v s).vault = s.vault := by
  simp [writeRdat]

theorem vault_getD {o : Option State} {s : State} (acts : ∀ t, o = some t → t.vault = s.vault) :
    (o.getD s).vault = s.vault := by
  cases o with
  | none => rfl
  | some t => exact acts t rfl

@[simp] theorem vault_pushWord (k : Nat) (a v : Word) (s : State) : (pushWord k a v s).vault = s.vault :=
  vault_getD (vault_dataWrite k a.toNat v s)

@[simp] theorem vault_entry (k n : Nat) (r : Word) (s : State) : (entry k n r s).vault = s.vault := by simp [entry]

@[simp] theorem vault_enterTrap (k code : Nat) (f : Fetched) (taddr : Option Word) (s : State) :
    (enterTrap k code f taddr s).vault = s.vault := by simp [enterTrap]

@[simp] theorem vault_countRet (k : Nat) (s : State) : (countRet k s).vault = s.vault := by simp [countRet]

@[simp] theorem vault_retire (k : Nat) (f : Fetched) (wr : List (Nat × Word)) (ld : Option (Nat × Word))
    (jump : Option Word) (upd : Steward → Steward) (s : State) :
    (retire k f wr ld jump upd s).vault = s.vault := by
  simp [retire]

@[simp] theorem vault_issue (k : Nat) (op : StewOp) (body : Fetched → State → State) (s : State)
    (acts : ∀ a v, (body a v).vault = v.vault) :
    (issue k op body s).vault = s.vault := by
  unfold issue
  dsimp only
  repeat' split
  all_goals simp [acts]

/-! ## Takeover -/

@[simp] theorem vault_endCmds (op st : Nat) (s : State) : (endCmds op st s).vault = s.vault := by
  refine vault_foldl (fun v p => ?_) _ s
  split <;> simp

@[simp] theorem vault_orphanRequests (p : Nat) (s : State) : (orphanRequests p s).vault = s.vault := by
  simp [orphanRequests, ↓vault_mk]

@[simp] theorem vault_endExecuting (h : Half) (s : State) : (endExecuting h s).vault = s.vault := by
  refine vault_foldl (fun v p => ?_) _ s
  split <;> simp

@[simp] theorem vault_syncBayPads (b : Nat) (s : State) : (syncBayPads b s).vault = s.vault := by simp [syncBayPads]

@[simp] theorem vault_abortLine (b : Nat) (s : State) : (abortLine b s).vault = s.vault := by simp [abortLine]

@[simp] theorem vault_refreshOrphans (s : State) : (refreshOrphans s).vault = s.vault := by
  simp [refreshOrphans, ↓vault_mk]

@[simp] theorem vault_setSeat (b : Nat) (h : Half) (s : State) : (setSeat b h s).vault = s.vault := by
  simp [setSeat, ↓vault_mk]

@[simp] theorem vault_moveSeats (bs : List Nat) (h : Half) (cause bay : Nat) (s : State) :
    (moveSeats bs h cause bay s).vault = s.vault := by simp [moveSeats]

@[simp] theorem vault_dropStaging (h : Half) (blk : Nat) (s : State) : (dropStaging h blk s).vault = s.vault := by
  simp [dropStaging, ↓vault_mk]

@[simp] theorem vault_setPrf (f : Fld) (v : Nat) (s : State) : (setPrf f v s).vault = s.vault := by simp [setPrf]

@[simp] theorem vault_readModes (s : State) : (readModes s).vault = s.vault := by simp [readModes, ↓vault_mk]

@[simp] theorem vault_knowModes (s : State) : (knowModes s).vault = s.vault := by simp [knowModes]

@[simp] theorem vault_sendVout (mv : Nat) (acked : Bool) (s0 : State) : (sendVout mv acked s0).vault = s0.vault := by
  simp [sendVout, ↓vault_mk]

@[simp] theorem vault_endProfile (st : Nat) (s : State) : (endProfile st s).vault = s.vault := by
  simp [endProfile, ↓vault_mk]

@[simp] theorem vault_setOwner (blk : Nat) (h : Half) (s : State) : (setOwner blk h s).vault = s.vault := by
  simp [setOwner, ↓vault_mk]

@[simp] theorem vault_moveConsumers (h : Half) (mark : Bool) (s : State) : (moveConsumers h mark s).vault = s.vault := by
  simp [moveConsumers]

@[simp] theorem vault_abandonEntry (block : Nat) (s : State) : (abandonEntry block s).vault = s.vault := by
  unfold abandonEntry
  rw [vault_ite, vault_mk]
  cases s.power.requester <;> simp

@[simp] theorem vault_endSession (path : Nat) (s : State) : (endSession path s).vault = s.vault := by simp [endSession]

@[simp] theorem vault_stopStewards (h : Half) (s : State) : (stopStewards h s).vault = s.vault := by simp [stopStewards]

@[simp] theorem vault_yieldMarks (h : Half) (s : State) : (yieldMarks h s).vault = s.vault := by simp [yieldMarks]

@[simp] theorem vault_yieldHalf (h : Half) (cause : Nat) (bay : Option Nat) (s : State) :
    (yieldHalf h cause bay s).vault = s.vault := by simp [yieldHalf]

@[simp] theorem vault_yieldBoth (s : State) : (yieldBoth s).vault = s.vault := by simp [yieldBoth]

@[simp] theorem vault_keepProfile (h : Half) (s : State) : (keepProfile h s).vault = s.vault := by
  unfold keepProfile
  split <;> simp

@[simp] theorem vault_resetHalf (h : Half) (cause : Nat) (s : State) : (resetHalf h cause s).vault = s.vault := by
  simp [resetHalf, ↓vault_mk]

/-! ## Halves -/

@[simp] theorem vault_writeBgCommit (h : Half) (w : Word) (s : State) : (writeBgCommit h w s).vault = s.vault := by
  simp [writeBgCommit]

@[simp] theorem vault_writeBgGrant (h : Half) (place : Nat) (w : Word) (s : State) :
    (writeBgGrant h place w s).vault = s.vault := by simp [writeBgGrant]

@[simp] theorem vault_writeBgLen (h : Half) (w : Word) (s : State) : (writeBgLen h w s).vault = s.vault := by
  simp [writeBgLen]

@[simp] theorem vault_defaultGrants (h : Half) (s : State) : (defaultGrants h s).vault = s.vault := by
  simp [defaultGrants]

@[simp] theorem vault_updateFloors (h : Half) (s : State) : (updateFloors h s).vault = s.vault := by simp [updateFloors]

@[simp] theorem vault_applyDefaults (h : Half) (s : State) : (applyDefaults h s).vault = s.vault := by
  simp [applyDefaults]

@[simp] theorem vault_applyLength (h : Half) (s : State) : (applyLength h s).vault = s.vault := by
  unfold applyLength
  split <;> simp

@[simp] theorem vault_recordSpending (h : Half) (s : State) : (recordSpending h s).vault = s.vault := by
  simp [recordSpending]

@[simp] theorem vault_recheckGrants (h : Half) (was : Nat) (s : State) : (recheckGrants h was s).vault = s.vault := by
  simp [recheckGrants]

@[simp] theorem vault_applyCommit (h : Half) (s : State) : (applyCommit h s).vault = s.vault := by simp [applyCommit]

@[simp] theorem vault_squeeze (h : Half) (r : Nat) (s : State) : (squeeze h r s).vault = s.vault := by simp [squeeze]

@[simp] theorem vault_countBeat (h : Half) (s : State) : (countBeat h s).vault = s.vault := by simp [countBeat]

@[simp] theorem vault_halfBoundary (h : Half) (s : State) : (halfBoundary h s).vault = s.vault := by
  unfold halfBoundary
  dsimp only
  split
  · rw [vault_pulseIrq, vault_ratioWatch, vault_countBeat, vault_put, vault_newWatch,
      vault_foldl fun v r => vault_squeeze h r v, vault_updateFloors, vault_applyCommit, vault_recheckGrants]
    simp
  · rfl

@[simp] theorem vault_compareMirrors (bs : List Nat) (s : State) : (compareMirrors bs s).vault = s.vault := by
  simp [compareMirrors, ↓vault_mk]

@[simp] theorem vault_yieldMissed (s : State) : (yieldMissed s).vault = s.vault := by simp [yieldMissed]

@[simp] theorem vault_takeOrphans (h : Half) (s : State) : (takeOrphans h s).vault = s.vault := by simp [takeOrphans]

@[simp] theorem vault_confirmBoot (h : Half) (s : State) : (confirmBoot h s).vault = s.vault := by simp [confirmBoot]

@[simp] theorem vault_writeBeat (h : Half) (w : Word) (s : State) : (writeBeat h w s).vault = s.vault := by
  simp [writeBeat]

@[simp] theorem vault_writeYield (h : Half) (w : Word) (s : State) : (writeYield h w s).vault = s.vault := by
  simp [writeYield]

@[simp] theorem vault_setSelf (h : Half) (pass : Bool) (s : State) : (setSelf h pass s).vault = s.vault := by
  simp [setSelf]

@[simp] theorem vault_settleBay (passA passB : Bool) (h : Half) (b : Nat) (s : State) :
    (settleBay passA passB h b s).vault = s.vault := by simp [settleBay]

@[simp] theorem vault_loseSupply (h : Half) (s : State) : (loseSupply h s).vault = s.vault := by simp [loseSupply]

@[simp] theorem vault_failSupply (h : Half) (s : State) : (failSupply h s).vault = s.vault := by simp [failSupply]

@[simp] theorem vault_takeLength (h : Half) (s : State) : (takeLength h s).vault = s.vault := by simp [takeLength]

@[simp] theorem vault_leaveReset (h : Half) (s : State) : (leaveReset h s).vault = s.vault := by simp [leaveReset]

@[simp] theorem vault_reportSeat (m : Master) (bay st : Nat) (moved : Bool) (s : State) :
    (reportSeat m bay st moved s).vault = s.vault := by simp [reportSeat]

@[simp] theorem vault_giveSeats (h : Half) (bs : List Nat) (cause : Nat) (s : State) :
    (giveSeats h bs cause s).2.vault = s.vault := by simp [giveSeats]

@[simp] theorem vault_seatGive (m : Master) (all : Bool) (bay : Nat) (s : State) :
    (seatGive m all bay s).vault = s.vault := by simp [seatGive]

@[simp] theorem vault_seatClaim (m : Master) (all : Bool) (bay : Nat) (s : State) :
    (seatClaim m all bay s).vault = s.vault := by simp [seatClaim]

@[simp] theorem vault_writeSeatReq (m : Master) (w : Word) (s : State) : (writeSeatReq m w s).vault = s.vault := by
  simp [writeSeatReq]

@[simp] theorem vault_copyBay (h : Half) (b : Nat) (s : State) : (copyBay h b s).vault = s.vault := by
  simp [copyBay, ↓vault_mk]

@[simp] theorem vault_markSynced (h : Half) (b : Nat) (s : State) : (markSynced h b s).vault = s.vault := by
  simp [markSynced]

@[simp] theorem vault_requestProfile (target : Nat) (acked : Bool) (s0 : State) :
    (requestProfile target acked s0).vault = s0.vault := by simp [requestProfile, ↓vault_mk]

@[simp] theorem vault_writePrfReq (m : Master) (target : Nat) (acked : Bool) (s : State) :
    (writePrfReq m target acked s).vault = s.vault := by simp [writePrfReq]

/-! ## Firmware -/

@[simp] theorem vault_startVc (f slot : Nat) (s : State) : (startVc f slot s).vault = s.vault := by
  unfold startVc
  dsimp only
  rw [vault_startRequest, vault_mk]
  simp only [vault_put, vault_setReg]
  refine (vault_foldl (fun v e => ?_) _ _).trans ?_ <;> rfl

@[simp] theorem vault_voidVigil (s : State) : (voidVigil s).vault = s.vault := by
  unfold voidVigil
  refine (vault_foldl (fun v a => ?_) _ _).trans ?_ <;> rfl

@[simp] theorem vault_loadVc (f slot : Nat) (reads boot : Bool) (s : State) :
    (loadVc f slot reads boot s).vault = s.vault := by simp [loadVc]

@[simp] theorem vault_requestVcLoad (f slot : Nat) (s : State) : (requestVcLoad f slot s).vault = s.vault := by
  simp [requestVcLoad, ↓vault_mk]

@[simp] theorem vault_writeVcLoad (w : Word) (s : State) : (writeVcLoad w s).vault = s.vault := by simp [writeVcLoad]

@[simp] theorem vault_clearMemories (h : Half) (s : State) : (clearMemories h s).vault = s.vault := by
  simp [clearMemories, ↓vault_mk]

@[simp] theorem vault_loadImage (h : Half) (slot : Nat) (s : State) : (loadImage h slot s).vault = s.vault := by
  simp [loadImage]

@[simp] theorem vault_enterImage (h : Half) (entryAt : Nat) (info : Word) (s : State) :
    (enterImage h entryAt info s).vault = s.vault := by simp [enterImage, ↓vault_mk]

@[simp] theorem vault_updateBootSel (h : Half) (slot : Nat) (rolled : Bool) (s : State) :
    (updateBootSel h slot rolled s).vault = s.vault := by simp [updateBootSel]

@[simp] theorem vault_bootInto (h : Half) (slot : Nat) (rolled readsVc : Bool) (stAlt : Nat) (s : State) :
    (bootInto h slot rolled readsVc stAlt s).vault = s.vault := by simp [bootInto, ↓vault_mk]

@[simp] theorem vault_romFail (h : Half) (slot st : Nat) (s : State) : (romFail h slot st s).vault = s.vault := by
  simp [romFail]

@[simp] theorem vault_writeBootSel (h : Half) (w : Word) (s : State) : (writeBootSel h w s).vault = s.vault := by
  simp [writeBootSel]

@[simp] theorem vault_setFlashQueue (s : State) (f : Nat) (l : List FlashOp) :
    (State.setFlashQueue s f l).vault = s.vault := by simp [State.setFlashQueue, ↓vault_mk]

@[simp] theorem vault_writeBfOp (h : Half) (cross : Bool) (w : Word) (s : State) :
    (writeBfOp h cross w s).vault = s.vault := by
  unfold writeBfOp
  dsimp only
  split <;> simp

@[simp] theorem vault_flashData (o : FlashOp) (s : State) : (flashData o s).2.vault = s.vault := by
  unfold flashData
  split <;> simp

@[simp] theorem vault_answerFlash (o : FlashOp) (st : Nat) (bytes : List Byte) (s : State) :
    (answerFlash o st bytes s).vault = s.vault := by
  unfold answerFlash
  dsimp only
  split <;> simp

@[simp] theorem vault_ruStatus (st : Nat) (s : State) : (ruStatus st s).vault = s.vault := by simp [ruStatus]

@[simp] theorem vault_vacate (x : Half) (s : State) : (vacate x s).vault = s.vault := by simp [vacate]

@[simp] theorem vault_restartHalf (x : Half) (s : State) : (restartHalf x s).vault = s.vault := by simp [restartHalf]

@[simp] theorem vault_holdHalf (x : Half) (s : State) : (holdHalf x s).vault = s.vault := by simp [holdHalf]

@[simp] theorem vault_releaseHalf (x : Half) (s : State) : (releaseHalf x s).vault = s.vault := by simp [releaseHalf]

@[simp] theorem vault_restoreConsumers (s : State) : (restoreConsumers s).vault = s.vault := by
  simp [restoreConsumers, ↓vault_mk]

@[simp] theorem vault_restoreHalves (s : State) : (restoreHalves s).vault = s.vault := by simp [restoreHalves]

@[simp] theorem vault_writeRuCtl (w : Word) (s : State) : (writeRuCtl w s).vault = s.vault := by
  unfold writeRuCtl
  split <;> simp

/-! ## Two-wire buses -/

@[simp] theorem vault_setTw (s : State) (b : Nat) (x : TwBus) : (State.setTw s b x).vault = s.vault := by
  simp [State.setTw, ↓vault_mk]

@[simp] theorem vault_beginTransfer (b : Nat) (s : State) : (beginTransfer b s).vault = s.vault := by
  unfold beginTransfer
  split <;> simp

@[simp] theorem vault_writeTwCcmd (b : Nat) (w : Word) (s : State) : (writeTwCcmd b w s).vault = s.vault := by
  simp [writeTwCcmd]

@[simp] theorem vault_endTransfer (b st count : Nat) (s : State) : (endTransfer b st count s).vault = s.vault := by
  simp [endTransfer]

@[simp] theorem vault_takeTargetByte (b i : Nat) (v : Byte) (s : State) : (takeTargetByte b i v s).vault = s.vault := by
  simp [takeTargetByte]

@[simp] theorem vault_freeBus (b : Nat) (s : State) : (freeBus b s).vault = s.vault := by simp [freeBus]

@[simp] theorem vault_popTrx (b : Nat) (s : State) : (popTrx b s).vault = s.vault := by
  unfold popTrx
  dsimp only
  split <;> simp

@[simp] theorem vault_pushTtx (b : Nat) (v : Byte) (s : State) : (pushTtx b v s).vault = s.vault := by simp [pushTtx]

@[simp] theorem vault_writeTwCfg (b : Nat) (w : Word) (s : State) : (writeTwCfg b w s).vault = s.vault := by
  simp [writeTwCfg]

@[simp] theorem vault_readTwCbd (b : Nat) (move : Bool) (s : State) : (readTwCbd b move s).2.vault = s.vault := by
  simp [readTwCbd]

@[simp] theorem vault_writeTwCbd (b : Nat) (w : Word) (s : State) : (writeTwCbd b w s).vault = s.vault := by
  simp [writeTwCbd]

@[simp] theorem vault_writePmb (w : Word) (s : State) : (writePmb w s).vault = s.vault := by simp [writePmb]

/-! ## Power -/

@[simp] theorem vault_setPower (s : State) (p : Power) : (State.setPower s p).vault = s.vault := by
  simp [State.setPower, ↓vault_mk]

@[simp] theorem vault_sealAll (s : State) : (sealAll s).vault = s.vault := by simp [sealAll]

@[simp] theorem vault_pwrStatus (st block : Nat) (s : State) : (pwrStatus st block s).vault = s.vault := by
  simp [pwrStatus]

@[simp] theorem vault_startEntry (m : Master) (target : PwrMode) (s : State) :
    (startEntry m target s).vault = s.vault := by
  simp [startEntry]

@[simp] theorem vault_writePwrReq (m : Master) (target key : Nat) (s : State) :
    (writePwrReq m target key s).vault = s.vault := by
  unfold writePwrReq
  repeat' split
  all_goals simp

@[simp] theorem vault_sleepTimer (i : Nat) (s : State) : (sleepTimer i s).vault = s.vault := by simp [sleepTimer]

@[simp] theorem vault_gapTimers (s : State) : (gapTimers s).vault = s.vault := by simp [gapTimers]

@[simp] theorem vault_settleWraps (s : State) : (settleWraps s).vault = s.vault := by simp [settleWraps]

@[simp] theorem vault_stopSynth (j : Nat) (s : State) : (stopSynth j s).vault = s.vault := by simp [stopSynth]

@[simp] theorem vault_stopBlocks (s : State) : (stopBlocks s).vault = s.vault := by
  unfold stopBlocks
  rw [vault_mk]
  simp

@[simp] theorem vault_latchPad (s0 : State) (t : Nat) (s : State) : (latchPad s0 t s).vault = s.vault := by
  simp [latchPad]

@[simp] theorem vault_latchAll (s : State) : (latchAll s).vault = s.vault := by simp [latchAll]

@[simp] theorem vault_enterMode (target : PwrMode) (s : State) : (enterMode target s).vault = s.vault := by
  unfold enterMode
  split <;> simp [↓vault_mk]

@[simp] theorem vault_beginReturn (code : Nat) (s : State) : (beginReturn code s).vault = s.vault := by simp [beginReturn]

@[simp] theorem vault_takeWake (s : State) : (takeWake s).vault = s.vault := by
  unfold takeWake
  repeat' split
  all_goals simp

@[simp] theorem vault_powerOn (vaon testN xrefMode : Bool) (s : State) :
    (powerOn vaon testN xrefMode s).vault = s.vault := by simp [powerOn, ↓vault_mk]

@[simp] theorem vault_assertReset (s : State) : (assertReset s).vault = s.vault := by simp [assertReset, ↓vault_mk]

@[simp] theorem vault_leaveResets (s : State) : (leaveResets s).vault = s.vault := by simp [leaveResets]

@[simp] theorem vault_wakeTimer (deep : Bool) (i : Nat) (s : State) : (wakeTimer deep i s).vault = s.vault := by
  simp [wakeTimer]

@[simp] theorem vault_applyFlip (f : Flip) (s : State) : (applyFlip f s).vault = s.vault := by simp [applyFlip, ↓vault_mk]

@[simp] theorem vault_lockTref (s : State) : (lockTref s).vault = s.vault := by simp [lockTref, ↓vault_mk]

@[simp] theorem vault_freeWakers (s : State) : (freeWakers s).vault = s.vault := by simp [freeWakers, ↓vault_mk]

@[simp] theorem vault_reachRun (flips : List Flip) (s : State) : (reachRun flips s).vault = s.vault := by
  simp [reachRun, ↓vault_mk]

@[simp] theorem vault_writePwrPad (w : Word) (s : State) : (writePwrPad w s).vault = s.vault := by simp [writePwrPad]

/-! ## Clock -/

@[simp] theorem vault_addTime (units : Nat) (s : State) : (addTime units s).vault = s.vault := by
  simp [addTime, ↓vault_mk]

@[simp] theorem vault_countResidency (n : Nat) (s : State) : (countResidency n s).vault = s.vault := by
  unfold countResidency
  split <;> simp

@[simp] theorem vault_lfxPass (s : State) : (lfxPass s).vault = s.vault := by simp [lfxPass, ↓vault_mk]

/-! ## Fabric time -/

@[simp] theorem vault_stepTime (by_ : Int) (s : State) : (stepTime by_ s).vault = s.vault := by simp [stepTime, ↓vault_mk]

@[simp] theorem vault_gainTsync (l : Nat) (s : State) : (gainTsync l s).vault = s.vault := by simp [gainTsync]

@[simp] theorem vault_takeExchange (l : Nat) (theta : Int) (s : State) : (takeExchange l theta s).vault = s.vault := by
  simp [takeExchange]

@[simp] theorem vault_setTime (ns : Nat) (s : State) : (setTime ns s).2.vault = s.vault := by simp [setTime, ↓vault_mk]

@[simp] theorem vault_commitTset (m : Master) (hi : Word) (s : State) : (commitTset m hi s).vault = s.vault := by
  simp [commitTset]

@[simp] theorem vault_swapRole (l : Nat) (s : State) : (swapRole l s).vault = s.vault := by simp [swapRole]

@[simp] theorem vault_sendRoleReq (l : Nat) (s : State) : (sendRoleReq l s).vault = s.vault := by simp [sendRoleReq]

@[simp] theorem vault_askSwap (l : Nat) (s : State) : (askSwap l s).vault = s.vault := by simp [askSwap]

@[simp] theorem vault_collide (l : Nat) (s : State) : (collide l s).vault = s.vault := by simp [collide, ↓vault_mk]

/-! ## Interrupts -/

@[simp] theorem vault_acceptIrq (k c : Nat) (s : State) : (acceptIrq k c s).vault = s.vault := by simp [acceptIrq]

@[simp] theorem vault_writeEoi (h : Half) (i src : Nat) (s : State) : (writeEoi h i src s).vault = s.vault := by
  unfold writeEoi
  dsimp only
  split <;> simp

@[simp] theorem vault_pulseSw (h : Half) (set : Nat) (s : State) : (pulseSw h set s).vault = s.vault := by simp [pulseSw]

@[simp] theorem vault_writeSwset (h : Half) (w : Word) (s : State) : (writeSwset h w s).vault = s.vault := by
  simp [writeSwset]

@[simp] theorem vault_writeSwev (w : Word) (s : State) : (writeSwev w s).vault = s.vault := by simp [writeSwev]

@[simp] theorem vault_writeVcBell (w : Word) (s : State) : (writeVcBell w s).vault = s.vault := by simp [writeVcBell]

/-! ## The metrology die -/

theorem vault_setMeter (s : State) {m : Meter} (same : m.unlinked = s.meter.unlinked) : (s.setMeter m).vault = s.vault :=
  congrArg (fun x => (x, s.otp, s.flash)) same

/-- A step of the die that works on the link alone. -/
theorem vault_onMeter {f : Meter → Meter} (acts : ∀ m, (f m).unlinked = m.unlinked) (s : State) :
    (onMeter f s).vault = s.vault := by
  unfold onMeter
  split
  · exact vault_setMeter s (acts _)
  · rfl

/-! ## The metrology link -/

@[simp] theorem vault_setMetLink (s : State) (x : MetLink) : (State.setMetLink s x).vault = s.vault := by
  simp [State.setMetLink, ↓vault_mk]

@[simp] theorem vault_freeFrames (s : State) : (freeFrames s).vault = s.vault := by
  unfold freeFrames
  refine vault_onMeter (fun m => ?_) s
  rfl

@[simp] theorem vault_keepRecord (r : MetRec) (s : State) : (keepRecord r s).vault = s.vault := by simp [keepRecord]

@[simp] theorem vault_mirrorIdent (r : MetRec) (s : State) : (mirrorIdent r s).vault = s.vault := by simp [mirrorIdent]

@[simp] theorem vault_passFrame (b : MetBody) (s : State) : (passFrame b s).vault = s.vault := by
  unfold passFrame
  split <;> simp

@[simp] theorem vault_countMet (k : Nat) (s : State) : (countMet k s).vault = s.vault := by simp [countMet]

@[simp] theorem vault_endMetCmd (st reason : Nat) (s : State) : (endMetCmd st reason s).vault = s.vault := by
  simp [endMetCmd]

@[simp] theorem vault_takeResult (x : MetStatus) (s : State) : (takeResult x s).vault = s.vault := by
  unfold takeResult
  split <;> simp

@[simp] theorem vault_mirrorStatus (x : MetStatus) (s : State) : (mirrorStatus x s).vault = s.vault := by
  simp [mirrorStatus]

@[simp] theorem vault_sendMetCmd (b : List Byte) (s : State) : (sendMetCmd b s).vault = s.vault := by
  unfold sendMetCmd
  dsimp only
  split_ifs
  · simp
  · simp
  · refine (vault_onMeter (fun m => ?_) _).trans ?_
    · rfl
    · simp [State.setMetLink, ↓vault_mk]

@[simp] theorem vault_commitMetCmd (m : Master) (w2 : Word) (s : State) : (commitMetCmd m w2 s).vault = s.vault := by
  simp [commitMetCmd]

/-! ## Reads of the I/O space -/

@[simp] theorem vault_latch (key : Nat → Nat) (val : Nat → Word) (l : List Nat) :
    ∀ s : State, (s.latch key val l).vault = s.vault := by
  induction l with
  | nil => exact fun _ => rfl
  | cons i l ih => exact fun s => ih _

@[simp] theorem vault_readMoves (m : Master) (v : Option Half) (a : Nat) (s : State) :
    (readMoves m v a s).vault = s.vault := by
  unfold readMoves
  repeat' split
  all_goals simp

@[simp] theorem vault_readIn (m : Master) (v : Option Half) (a : Nat) (s : State) :
    (readIn m v a s).2.vault = s.vault := by
  unfold readIn
  dsimp only
  repeat' split
  all_goals simp

@[simp] theorem vault_ioRead (m : Master) (a : Nat) (s : State) : (ioRead m a s).2.vault = s.vault := by simp [ioRead]

/-! ## Writes of the I/O space -/

@[simp] theorem vault_commitWide (m : Master) (v : Option Half) (key base n : Nat) (top : Word) (s : State) :
    (commitWide m v key base n top s).vault = s.vault := by simp [commitWide]

@[simp] theorem vault_writeWide (m : Master) (v : Option Half) (key base n a : Nat) (w : Word) (s : State) :
    (writeWide m v key base n a w s).vault = s.vault := by simp [writeWide]

@[simp] theorem vault_writeIcSrc (h : Half) (src : Nat) (w : Word) (s : State) :
    (writeIcSrc h src w s).vault = s.vault := by
  simp [writeIcSrc]

@[simp] theorem vault_writeStw (m : Master) (v : Option Half) (k off a : Nat) (w : Word) (s : State) :
    (writeStw m v k off a w s).vault = s.vault := by simp [writeStw]

@[simp] theorem vault_writeHalf (m : Master) (h : Half) (a : Nat) (w : Word) (s : State) :
    (writeHalf m h a w s).vault = s.vault := by
  have counted (n : Nat) : State.vault { s with freeCount := n } = s.vault := rfl
  unfold writeHalf
  simp only [vault_ite, vault_writeSwset, vault_writeEoi, vault_writeIcSrc, vault_writeBgLen, vault_writeBgCommit,
    vault_writeBgGrant, vault_writePrfReq, counted, vault_writeXcfg, vault_writeBfOp, vault_writeWide, vault_writeStw,
    vault_writeBeat, vault_writeYield, vault_plainWrite]
  cases viewedSteward m h <;> simp

@[simp] theorem vault_writeCcfg (m : Master) (c : Nat) (w : Word) (s : State) : (writeCcfg m c w s).vault = s.vault := by
  simp [writeCcfg]

@[simp] theorem vault_writeEnables (m : Master) (v : Option Half) (c a : Nat) (w : Word) (s : State) :
    (writeEnables m v c a w s).vault = s.vault := by simp [writeEnables]

@[simp] theorem vault_writeConsumer (m : Master) (c a : Nat) (w : Word) (s : State) :
    (writeConsumer m c a w s).vault = s.vault := by simp [writeConsumer]

@[simp] theorem vault_writeGpedge (m : Master) (n : Nat) (w : Word) (s : State) :
    (writeGpedge m n w s).vault = s.vault := by
  simp [writeGpedge]

@[simp] theorem vault_writeMatrix (m : Master) (v : Option Half) (a : Nat) (w : Word) (s : State) :
    (writeMatrix m v a w s).vault = s.vault := by
  unfold writeMatrix
  repeat' split
  all_goals simp

@[simp] theorem vault_writeTimebase (i off : Nat) (w : Word) (s : State) : (writeTimebase i off w s).vault = s.vault := by
  simp [writeTimebase]

@[simp] theorem vault_writeTerminal (m : Master) (b t o a : Nat) (w : Word) (s : State) :
    (writeTerminal m b t o a w s).vault = s.vault := by simp [writeTerminal]

@[simp] theorem vault_writeLeCfg (h : Half) (b : Nat) (w : Word) (s : State) : (writeLeCfg h b w s).vault = s.vault := by
  simp [writeLeCfg]

@[simp] theorem vault_writeLeCtl (h : Half) (b : Nat) (w : Word) (level : Bool) (s : State) :
    (writeLeCtl h b w level s).vault = s.vault := by simp [writeLeCtl]

@[simp] theorem vault_writeLine (m : Master) (b off a : Nat) (w : Word) (s : State) :
    (writeLine m b off a w s).vault = s.vault := by simp [writeLine]

@[simp] theorem vault_writeEngine (m : Master) (b off a : Nat) (w : Word) (s : State) :
    (writeEngine m b off a w s).vault = s.vault := by simp [writeEngine, ↓vault_mk]

@[simp] theorem vault_setChosen (h : Half) (b : Nat) (f : Recog → Recog) (s : State) :
    (setChosen h b f s).vault = s.vault := by simp [setChosen]

@[simp] theorem vault_writePipe (h : Half) (b off : Nat) (w : Word) (s : State) :
    (writePipe h b off w s).vault = s.vault := by simp [writePipe]

@[simp] theorem vault_writeBay (m : Master) (a : Nat) (w : Word) (s : State) : (writeBay m a w s).vault = s.vault := by
  simp [writeBay]

@[simp] theorem vault_writeMemory (h : Half) (a : Nat) (w : Word) (s : State) :
    (writeMemory h a w s).vault = s.vault := by
  simp [writeMemory]

@[simp] theorem vault_writeLink (l o : Nat) (w : Word) (s : State) : (writeLink l o w s).vault = s.vault := by
  simp [writeLink]

@[simp] theorem vault_writeFabric (m : Master) (v : Option Half) (a : Nat) (w : Word) (s : State) :
    (writeFabric m v a w s).vault = s.vault := by simp [writeFabric]

@[simp] theorem vault_writeArchive (m : Master) (v : Option Half) (a : Nat) (w : Word) (s : State) :
    (writeArchive m v a w s).vault = s.vault := by simp [writeArchive]

@[simp] theorem vault_writeMet (m : Master) (v : Option Half) (a : Nat) (w : Word) (s : State) :
    (writeMet m v a w s).vault = s.vault := by simp [writeMet]

@[simp] theorem vault_writeTw (a : Nat) (w : Word) (s : State) : (writeTw a w s).vault = s.vault := by simp [writeTw]

@[simp] theorem vault_writeGpCfg (p : Nat) (w : Word) (s : State) : (writeGpCfg p w s).vault = s.vault := by
  simp [writeGpCfg]

@[simp] theorem vault_writeBlock (m : Master) (v : Option Half) (a : Nat) (w : Word) (s : State) :
    (writeBlock m v a w s).vault = s.vault := by simp [writeBlock]

@[simp] theorem vault_writeVwSel (m : Master) (a : Nat) (w : Word) (s : State) :
    (writeVwSel m a w s).vault = s.vault := by
  simp [writeVwSel]

@[simp] theorem vault_writeAlarm (m : Master) (v : Option Half) (a : Nat) (w : Word) (s : State) :
    (writeAlarm m v a w s).vault = s.vault := by simp [writeAlarm]

@[simp] theorem vault_writeBootwait (m : Master) (a : Nat) (w : Word) (s : State) :
    (writeBootwait m a w s).vault = s.vault := by simp [writeBootwait]

@[simp] theorem vault_writeVigil (m : Master) (v : Option Half) (a : Nat) (w : Word) (s : State) :
    (writeVigil m v a w s).vault = s.vault := by simp [writeVigil]

@[simp] theorem vault_writeIn (m : Master) (v : Option Half) (a : Nat) (w : Word) (s : State) :
    (writeIn m v a w s).vault = s.vault := by
  unfold writeIn
  repeat' split
  all_goals simp

@[simp] theorem vault_ioWrite (m : Master) (a : Nat) (w : Word) (s : State) : (ioWrite m a w s).vault = s.vault := by
  simp [ioWrite]

/-! ## Ports -/

@[simp] theorem vault_driven (p : Nat) (b : List Byte) (s : State) : (driven p b s).vault = s.vault := by simp [driven]

@[simp] theorem vault_noteLast (p st op count tag : Nat) (s : State) :
    (noteLast p st op count tag s).vault = s.vault := by
  simp [noteLast]

@[simp] theorem vault_refusePort (p st : Nat) (b : List Byte) (count : Nat) (s : State) :
    (refusePort p st b count s).vault = s.vault := by simp [refusePort]

@[simp] theorem vault_acceptPort (p extra : Nat) (b : List Byte) (count : Nat) (s : State) :
    (acceptPort p extra b count s).vault = s.vault := by simp [acceptPort]

@[simp] theorem vault_wakeByPort (p : Nat) (s : State) : (wakeByPort p s).vault = s.vault := by simp [wakeByPort]

@[simp] theorem vault_transact (p : Nat) (b : List Byte) (count : Nat) (f : State → State) (s : State)
    (acts : ∀ v, (f v).vault = v.vault) :
    (transact p b count f s).vault = s.vault := by
  simp [transact, acts]

@[simp] theorem vault_sendPacket (p op : Nat) (b : Option (List Byte)) (host : List Byte) (f : State → State) (s : State)
    (acts : ∀ v, (f v).vault = v.vault) :
    (sendPacket p op b host f s).vault = s.vault := by
  unfold sendPacket
  split <;> simp [acts]

@[simp] theorem vault_enqueue (p : Nat) (b : List Byte) (s : State) : (enqueue p b s).vault = s.vault := by
  unfold enqueue
  split <;> simp

@[simp] theorem vault_bootflashCmd (p : Nat) (b : List Byte) (s : State) : (bootflashCmd p b s).vault = s.vault := by
  unfold bootflashCmd
  dsimp only
  repeat' split
  all_goals simp

@[simp] theorem vault_vcLoadCmd (p : Nat) (b : List Byte) (s : State) : (vcLoadCmd p b s).vault = s.vault := by
  simp [vcLoadCmd]

@[simp] theorem vault_rupdateCmd (p : Nat) (b : List Byte) (s : State) : (rupdateCmd p b s).vault = s.vault := by
  simp [rupdateCmd]

@[simp] theorem vault_beginCmd (p : Nat) (c : Cmd) (s : State) : (beginCmd p c s).vault = s.vault := by
  unfold beginCmd
  split <;> simp

@[simp] theorem vault_sendRouted (p : Nat) (c : Cmd) (s : State) : (sendRouted p c s).vault = s.vault := by
  simp [sendRouted]

@[simp] theorem vault_onHost (h : Half) (go : State → State) (s : State) (acts : ∀ v, (go v).vault = v.vault) :
    (onHost h go s).vault = s.vault := by simp [onHost, acts]

@[simp] theorem vault_startCmd (p : Nat) (c : Cmd) (rest : List Cmd) (s : State) :
    (startCmd p c rest s).vault = s.vault := by simp [startCmd]

/-! ## Commands -/

@[simp] theorem vault_onCommand (p : Fin 3) (op : Nat) (f : Cmd → List Byte → State → State) (s : State)
    (acts : ∀ a b v, (f a b v).vault = v.vault) :
    (onCommand p op f s).vault = s.vault := by
  unfold onCommand
  split <;> simp [acts]

@[simp] theorem vault_needHalf (p : Fin 3) (c : Cmd) (res : List Byte) (f : State → State) (s : State)
    (acts : ∀ v, (f v).vault = v.vault) :
    (needHalf p c res f s).vault = s.vault := by
  simp [needHalf, acts]

@[simp] theorem vault_badParam (p : Fin 3) (s : State) : (badParam p s).vault = s.vault := by simp [badParam]

@[simp] theorem vault_begin_ (p : Fin 3) (f : State → State) (s : State) (acts : ∀ v, (f v).vault = v.vault) :
    (begin_ p f s).vault = s.vault := by
  unfold begin_
  dsimp only
  split <;> simp [acts]

@[simp] theorem vault_twoPhase (p : Fin 3) (start : State → State) (s : State) (acts : ∀ v, (start v).vault = v.vault) :
    (twoPhase p start s).vault = s.vault := by
  unfold twoPhase
  repeat' split
  all_goals simp [acts]

@[simp] theorem vault_readSeq (m : Master) (v : Option Half) (n : Nat) :
    ∀ (a : Nat) (s : State), (readSeq m v a n s).2.vault = s.vault := by
  induction n with
  | zero => exact fun _ _ => rfl
  | succ n ih => simp [readSeq, ih]

@[simp] theorem vault_writeSeq (m : Master) (v : Option Half) (l : List Word) :
    ∀ (a : Nat) (s : State), (writeSeq m v a l s).vault = s.vault := by
  induction l with
  | nil => exact fun _ _ => rfl
  | cons w l ih => simp [writeSeq, ih]

@[simp] theorem vault_moveBlocks (bs : List Nat) (h : Half) (s : State) : (moveBlocks bs h s).vault = s.vault := by
  simp [moveBlocks]

@[simp] theorem vault_flushHalf (scope chan : Nat) (h : Half) (s : State) :
    (flushHalf scope chan h s).vault = s.vault := by
  simp [flushHalf]

@[simp] theorem vault_askByPort (p : Fin 3) (r : ArcReq) (s : State) : (askByPort p r s).vault = s.vault := by
  simp [askByPort]

/-! ## Envelope -/

@[simp] theorem vault_setNonces (l : Tbl Nat) (s : State) : (setNonces l s).vault = s.vault := by
  simp [setNonces, ↓vault_mk]

@[simp] theorem vault_giveNonce (path n : Nat) (s : State) : (giveNonce path n s).vault = s.vault := by
  simp [giveNonce, ↓vault_mk]

@[simp] theorem vault_inEnvelope (p : Fin 3) (op : Nat) (f : Cmd → List Byte → State → State) (s : State)
    (acts : ∀ a b v, (f a b v).vault = v.vault) :
    (inEnvelope p op f s).vault = s.vault := by
  simp [inEnvelope, ↓vault_mk, acts]

@[simp] theorem vault_failOpen (s : State) : (failOpen s).vault = s.vault := by simp [failOpen, ↓vault_mk]

@[simp] theorem vault_openSession (c : Cmd) (p : Nat) (s : State) : (openSession c p s).vault = s.vault := by
  simp [openSession, ↓vault_mk]

@[simp] theorem vault_putIf (set : Bool) (base : Nat) (f : Fld) (v : Nat) (s : State) :
    (putIf set base f v s).vault = s.vault := by simp [putIf]

@[simp] theorem vault_termRec_fields (r : TermRec) (s : State) : (TermRec.fields r s).vault = s.vault := by
  simp [TermRec.fields]

@[simp] theorem vault_termRec_part (r : TermRec) (s : State) : (TermRec.part r s).vault = s.vault := by
  unfold TermRec.part
  repeat' split
  all_goals simp

@[simp] theorem vault_pairOne (t q dead : Nat) (s : State) : (pairOne t q dead s).vault = s.vault := by simp [pairOne]

@[simp] theorem vault_termRec_join (r : TermRec) (s : State) : (TermRec.join r s).vault = s.vault := by
  simp [TermRec.join]

@[simp] theorem vault_afterTerms (l : List TermRec) (s : State) : (afterTerms l s).vault = s.vault := by simp [afterTerms]

@[simp] theorem vault_cutSlot (h : Half) (t : Nat) (s : State) : (cutSlot h t s).vault = s.vault := by simp [cutSlot]

@[simp] theorem vault_cutPair (was : State) (r : TermRec) (s : State) : (cutPair was r s).vault = s.vault := by
  simp [cutPair]

@[simp] theorem vault_lineRec_apply (r : LineRec) (s : State) : (LineRec.apply r s).vault = s.vault := by
  simp [LineRec.apply]

/-! ## Jtag -/

@[simp] theorem vault_syncAllPads (s : State) : (syncAllPads s).vault = s.vault := by simp [syncAllPads]

@[simp] theorem vault_setScan (i : JtagInstr) (s : State) : (setScan i s).vault = s.vault := by simp [setScan, ↓vault_mk]

@[simp] theorem vault_scanRegister (pins : BitVec 1121) (shift : Option (BitVec 3363)) (s : State) :
    (scanRegister pins shift s).vault = s.vault := by simp [scanRegister, ↓vault_mk]

@[simp] theorem vault_selectIdcode (s : State) : (selectIdcode s).vault = s.vault := by
  unfold selectIdcode
  rw [vault_mk, vault_setScan]

@[simp] theorem vault_selectBypass (s : State) : (selectBypass s).vault = s.vault := by
  unfold selectBypass
  rw [vault_mk, vault_setScan]

@[simp] theorem vault_debugSetReg (k : Nat) (cr : Bool) (n : Nat) (v : Word) (s : State) :
    (debugSetReg k cr n v s).vault = s.vault := by simp [debugSetReg]

@[simp] theorem vault_debugRun (k : Fin 9) (op : DebugOp) (s : State) : (debugRun k op s).2.vault = s.vault := by
  cases op with
  | halt => exact vault_haltRequest k.val s
  | readReg cr n => rfl
  | writeReg cr n v => exact vault_debugSetReg k.val cr n.val v s
  | readData a => exact vault_dataRead k.val a.toNat s
  | writeData a v => exact vault_getD (vault_dataWrite k.val a.toNat v s)
  | readInstr a =>
    unfold debugRun
    dsimp only
    split_ifs
    · simp
    · split <;> rfl
    · rfl
  | writeInstr a v => simp [debugRun]
  | readIo a => exact vault_ioRead (.jtag k) a.toNat s
  | writeIo a v => exact vault_ioWrite (.jtag k) a.toNat v s

/-! ## Steward arithmetic -/

@[simp] theorem vault_writeRd (k : Nat) (f : Fetched) (v : Word) (s : State) : (writeRd k f v s).vault = s.vault := by
  simp [writeRd]

@[simp] theorem vault_regOp (k : Nat) (op : StewOp) (g : Word → Word → Word) (s : State) :
    (regOp k op g s).vault = s.vault := by simp [regOp]

@[simp] theorem vault_immOp (k : Nat) (op : StewOp) (g : Word → Word → Word) (s : State) :
    (immOp k op g s).vault = s.vault := by simp [immOp]

@[simp] theorem vault_shiftImm (k : Nat) (op : StewOp) (g : Word → Nat → Word) (s : State) :
    (shiftImm k op g s).vault = s.vault := by simp [shiftImm]

@[simp] theorem vault_accOp (k : Nat) (op : StewOp) (g : BitVec 48 → Word → Word → BitVec 48) (s : State) :
    (accOp k op g s).vault = s.vault := by simp [accOp]

/-! ## Steward accesses -/

theorem vault_stewAck {k a : Nat} {s t : State} (granted : s.stewAck k a = some t) : t.vault = s.vault := by
  unfold State.stewAck at granted
  split at granted
  · exact vault_access granted
  · cases granted
    rfl

@[simp] theorem vault_onAccess (k a : Nat) {f : State → State} (acts : ∀ v, (f v).vault = v.vault) (s : State) :
    (onAccess k a f s).vault = s.vault := by
  unfold onAccess
  split
  · rw [acts, vault_stewAck ‹_›]
  · simp

@[simp] theorem vault_onBoth (k a b : Nat) {f : State → State} (acts : ∀ v, (f v).vault = v.vault) (s : State) :
    (onBoth k a b f s).vault = s.vault := by
  unfold onBoth
  split
  · next granted =>
    split
    · next granted' => rw [acts, vault_stewAck granted', vault_stewAck granted]
    · rw [vault_awaitAccess]
  · simp

@[simp] theorem vault_readOrTrap (k : Nat) (f : Fetched) (a : Word) (go : Word → State → State) (s : State)
    (acts : ∀ a v, (go a v).vault = v.vault) :
    (readOrTrap k f a go s).vault = s.vault := by
  unfold readOrTrap
  dsimp only
  split <;> simp [acts]

theorem vault_storeWord {k : Nat} {a v : Word} {clash : Bool} {s t : State} (stored : storeWord k a v clash s = some t) :
    t.vault = s.vault := by
  unfold storeWord at stored
  split at stored
  · rw [← Option.some.inj stored, vault_supersede]
  · exact vault_dataWrite k _ v s t stored

@[simp] theorem vault_writeOrTrap (k : Nat) (f : Fetched) (a v : Word) (clash : Bool) {go : State → State}
    (acts : ∀ u, (go u).vault = u.vault) (s : State) :
    (writeOrTrap k f a v clash go s).vault = s.vault := by
  unfold writeOrTrap
  split
  · rw [acts, vault_storeWord ‹_›]
  · simp

@[simp] theorem vault_loadFrom (k : Nat) (f : Fetched) (a : Word) (s : State) : (loadFrom k f a s).vault = s.vault := by
  simp [loadFrom]

@[simp] theorem vault_storeTo (k : Nat) (f : Fetched) (a : Word) (clash : Bool) (s : State) :
    (storeTo k f a clash s).vault = s.vault := by simp [storeTo]

@[simp] theorem vault_inFrom (k : Nat) (f : Fetched) (a : Word) (s : State) : (inFrom k f a s).vault = s.vault := by
  unfold inFrom
  dsimp only
  split
  · split
    · rw [vault_complete, vault_ioRead, vault_admitted ‹_›]
    · simp
  · simp

@[simp] theorem vault_outTo (k : Nat) (f : Fetched) (a : Word) (s : State) : (outTo k f a s).vault = s.vault := by
  simp [outTo]

@[simp] theorem vault_blockWord (k : Nat) (f : Fetched) (wr : List (Nat × Word)) (acc : BitVec 48) (left : Word)
    (s : State) :
    (blockWord k f wr acc left s).vault = s.vault := by
  simp [blockWord]

@[simp] theorem vault_blkmovWord (k : Nat) (clash : Bool) (f : Fetched) (s : State) :
    (blkmovWord k clash f s).vault = s.vault := by
  unfold blkmovWord
  dsimp only
  split_ifs
  · simp
  · simp
  · refine vault_onBoth k _ _ (fun v => ?_) s
    rw [vault_readOrTrap]
    intro w u
    rw [vault_writeOrTrap]
    intro v
    rw [vault_blockWord]

@[simp] theorem vault_blkfillWord (k : Nat) (clash : Bool) (f : Fetched) (s : State) :
    (blkfillWord k clash f s).vault = s.vault := by simp [blkfillWord]

@[simp] theorem vault_blkcrcWord (k : Nat) (f : Fetched) (s : State) : (blkcrcWord k f s).vault = s.vault := by
  simp [blkcrcWord]

/-! ## Steward control flow -/

@[simp] theorem vault_branch (k : Nat) (f : Fetched) (taken : Bool) (target : Word) (s : State) :
    (branch k f taken target s).vault = s.vault := by simp [branch]

@[simp] theorem vault_callTo (k : Nat) (f : Fetched) (target : Word) (clash : Bool) (s : State) :
    (callTo k f target clash s).vault = s.vault := by simp [callTo]

@[simp] theorem vault_loopBody (k : Nat) (f : Fetched) (s : State) : (loopBody k f s).vault = s.vault := by
  simp [loopBody]

@[simp] theorem vault_onSteward (k : Nat) (g : State → State) (s : State) (hg : ∀ v, (g v).vault = v.vault) :
    (onSteward k g s).vault = s.vault := by simp [onSteward, hg]

end Sys2Proof.Machine
end

section
/-! SUPPORT. The commands, group by group, that leave the metrology die off the link, the one-time store and the flash. -/

namespace Sys2Proof.Machine

theorem Hides.of_check {α : Type} {view : State → α} {c : Instr} {s u : State} {check : Bool}
    (answer : exec c s = if check then .next u else .fault .illFormed) (same : view u = view s) : Hides view c s := by
  intro t ht
  rw [answer] at ht
  split at ht
  · cases ht
    exact same
  · cases ht

theorem Hides.of_checked {α : Type} {view : State → α} {c : Instr} {s u : State} {check : Prop} [Decidable check]
    (answer : exec c s = if check then .next u else .fault .illFormed) (same : view u = view s) : Hides view c s :=
  .of_check (check := decide check) (by rw [answer]; simp) same

/-- A STATUS frame, good or not, taken from the link. -/
theorem vault_takeStatus (s : State) : (s.setMeter { s.meter with status := none }).vault = s.vault :=
  vault_setMeter s rfl

/-- A frame of the die that arrives. -/
theorem vault_takeArrival (s : State) :
    (s.setMeter { s.meter with arrived := s.meter.arrived + 1, resent := false }).vault = s.vault :=
  vault_setMeter s rfl

/-- A steward's arithmetic, branches and control: none of these commands shows in the vault. -/
theorem steward_hides_vault (c : Instr) (s : State) (group : groupOf c = .steward) :
    Hides State.vault c s := by
  cases c
  case add | sub | andRR | orRR | xorRR | slt | sltu | andn | sll | srl | sra | adds | subs | addus | subus | addi |
      movi | slli | srli | srai | addiLong | andi | ori | xori | slti | sltiu | addsi | bz | br | j | jr | nop | wait |
      fence | ei | di | mul | mulh | mulhu | mac | macu | msu | macs | rdacc | mfa | mta | stewardStart | stewardStop |
      stewardHalt | stewardResume | stewardStep | stewardRegisterWrite =>
    exact .of_exec rfl (by simp)
  case breakpointHalt k =>
    refine .of_exec rfl ?_
    repeat' split
    all_goals simp
  all_goals cases group

/-- A steward's commands that reach memory: none of these commands shows in the vault. -/
theorem stewardMemory_hides_vault (c : Instr) (s : State) (group : groupOf c = .stewardMemory) :
    Hides State.vault c s := by
  cases c
  case ld | ldx | st | stx | call | callr | loopOpen | lpop | brk | mtc | blkmov | blkfill | blkcrc =>
    exact .of_exec rfl (by simp)
  case ret k =>
    refine .of_exec rfl (vault_issue _ _ _ s fun f v => vault_onAccess _ _ (fun u => ?_) v)
    exact vault_readOrTrap _ f _ _ u (by simp)
  case reti k =>
    refine .of_exec rfl (vault_issue _ _ _ s fun f v => vault_onBoth _ _ _ (fun u => ?_) v)
    exact vault_readOrTrap _ f _ _ u fun p w => vault_readOrTrap _ f _ _ w (by simp)
  case trap k =>
    refine .of_exec rfl ?_
    dsimp only
    repeat' split
    all_goals simp
  case mfc k =>
    refine .of_exec rfl (vault_issue _ _ _ s fun f v => ?_)
    split <;> simp
  case lr k =>
    refine .of_exec rfl (vault_issue _ _ _ s fun f v => vault_onAccess _ _ (fun u => ?_) v)
    exact vault_readOrTrap _ f _ _ u (by simp)
  case sc k clash =>
    refine .of_exec rfl (vault_issue _ _ _ s fun f v => vault_onAccess _ _ (fun u => ?_) v)
    split
    · exact vault_writeOrTrap _ f _ _ _ (by simp) u
    · simp
  case tas k =>
    refine .of_exec rfl (vault_issue _ _ _ s fun f v => vault_onAccess _ _ (fun u => ?_) v)
    exact vault_readOrTrap _ f _ _ u fun w x => vault_writeOrTrap _ f _ _ _ (by simp) x
  all_goals cases group

/-- The archive: none of these commands shows in the vault. -/
theorem archive_hides_vault (c : Instr) (s : State) (group : groupOf c = .archive) :
    Hides State.vault c s := by
  cases c
  case pageProgram | slotErase | archiveEnable | archiveFormat | archiveFormatDone | archiveRead | archiveFind |
      archiveNext | rackReceived | originFree =>
    exact .of_exec rfl (by simp)
  case bushelCommit h =>
    refine .of_exec rfl ?_
    split <;> simp
  case pageProgramDone pass =>
    refine .of_exec rfl ?_
    split <;> simp
  case slotEraseDone pass =>
    refine .of_exec rfl ?_
    split <;> simp
  case slotRefresh =>
    refine .of_exec rfl ?_
    repeat' split
    all_goals simp
  case archiveRecoveryDone firstBad =>
    refine .of_exec rfl ?_
    repeat' split
    all_goals simp
  case replicaSend =>
    refine .of_exec rfl ?_
    split <;> simp
  case replicaResend =>
    refine .of_exec rfl ?_
    repeat' split
    all_goals simp
  case replReceived l p lap off =>
    refine .of_check rfl (vault_received l p _ s fun v => ?_)
    dsimp only
    split
    · split
      · split_ifs <;> simp
      · simp
    · simp
  case refreshSwitch =>
    refine .of_exec rfl ?_
    split <;> simp
  all_goals cases group

/-- The two-wire buses: none of these commands shows in the vault. -/
theorem twoWire_hides_vault (c : Instr) (s : State) (group : groupOf c = .twoWire) :
    Hides State.vault c s := by
  cases c
  case twTransfer | twTargetAddress | twTargetStop | twRxPop | twTxPush | twTimeout | twBusStop =>
    exact .of_exec rfl (by simp)
  case twTransferDone b outcome count data =>
    refine .of_check rfl ?_
    split
    · split
      · rfl
      · dsimp only
        split <;> simp
    · rfl
  case twTargetByte b v =>
    refine .of_exec rfl ?_
    split <;> simp
  case twTargetReadByte b =>
    refine .of_exec rfl ?_
    repeat' split
    all_goals simp
  all_goals cases group

/-- The fabric: none of these commands shows in the vault. -/
theorem fabric_hides_vault (c : Instr) (s : State) (group : groupOf c = .fabric) :
    Hides State.vault c s := by
  cases c
  case blockLock | linkDown | helloSend | rootExpiry | creditReceived | claimFlood | addressHeld | addressSearchRestart
      | routePeriodic | routeTriggered | routeGoneExpiry | syncSend | syncrReceived | tsyncTimeout | roleReqReceived |
      roleAckReceived | roleNakReceived =>
    exact .of_exec rfl (by simp)
  case helloReceived | claimReceived | routeReceived | syncReceived | alarmReceived | replyReceived | adataReceived |
      unreachReceived =>
    exact .of_check rfl (by simp)
  case blockLockLost l =>
    refine .of_exec rfl ?_
    split <;> simp
  case helloTimeout l =>
    refine .of_exec rfl ?_
    split <;> simp
  case egressStuck l c =>
    refine .of_exec rfl ?_
    split <;> simp
  case packetTransit l p how =>
    refine .of_check rfl ?_
    cases how <;> simp
  case routeOfferLapse a l =>
    refine .of_exec rfl ?_
    split <;> simp [↓vault_mk]
  case timestampsReceived l seq t1 t4 =>
    refine .of_exec rfl ?_
    dsimp only
    split_ifs <;> simp
  case swapRequest l m =>
    refine .of_exec rfl ?_
    split <;> simp
  case swapTimeout l =>
    refine .of_exec rfl ?_
    split <;> simp
  case swapBackoffEnd l =>
    refine .of_exec rfl ?_
    split <;> simp
  case alsumReceived l p =>
    refine .of_check rfl (vault_received l p _ s fun v => ?_)
    dsimp only
    split
    · simp
    · split <;> simp
  case alarmSummary k =>
    refine .of_exec rfl ?_
    split <;> simp
  case cmdReceived l p =>
    refine .of_check rfl (vault_atTarget l p _ s fun v => ?_)
    split <;> simp
  case routedCommandTimeout p tag =>
    refine .of_exec rfl ?_
    split <;> simp
  all_goals cases group

/-- The terminals: none of these commands shows in the vault. -/
theorem terminal_hides_vault (c : Instr) (s : State) (group : groupOf c = .terminal) :
    Hides State.vault c s := by
  cases c
  case slotPeriodStart | pulseRise | tripBlankEnd | pulseFall | complianceLoss | trip | tripClear | tdAgeTick |
      talkRequest | talkCancel | talkExchangeEnd | talkOneSecondMark =>
    exact .of_exec rfl (by simp)
  case sarCycle bay code =>
    refine .of_exec rfl ?_
    split <;> simp
  case talkExchangeStart t =>
    refine .of_exec rfl ?_
    dsimp only
    repeat' split
    all_goals simp
  all_goals cases group

/-- Timebases and events: none of these commands shows in the vault. -/
theorem timebase_hides_vault (c : Instr) (s : State) (group : groupOf c = .timebase) :
    Hides State.vault c s := by
  cases c
  case timebaseWrap | timebaseStage | timebaseEnable | chainSnapshotRead | compareArm | compareMatch | captureEdge |
      softwareEvent =>
    exact .of_exec rfl (by simp)
  all_goals cases group

/-- The access budget: none of these commands shows in the vault. -/
theorem budget_hides_vault (c : Instr) (s : State) (group : groupOf c = .budget) :
    Hides State.vault c s := by
  cases c
  case lendRelease | budgetCommit | watchLengthWrite =>
    exact .of_exec rfl (by simp)
  case transferRequest h a r hold =>
    refine .of_check rfl ?_
    split
    · split
      · simp
      · split
        · rw [vault_chargeTransfer, (admitTransfer_only ‹_›).vault]
        · simp
    · rfl
  case stalledRequestAck h a r =>
    refine .of_exec rfl ?_
    split
    · split
      · rw [vault_drainInject, vault_chargeTransfer, vault_release, (admitTransfer_only ‹_›).vault]
      · rfl
    · rfl
  all_goals cases group

/-- A command port, but for the commands of the one-time store: none of these commands shows in the vault. -/
theorem port_hides_vault (c : Instr) (s : State) (group : groupOf c = .port) (plain : changesOtp c = false) :
    Hides State.vault c s := by
  cases c
  case status | fetch | refetch | alarms | cmdNop | cmdIdent | cmdMetRecord | envNonce | envOpen | envClose | envRemote
      =>
    exact .of_exec rfl (by simp)
  case peek p q n =>
    refine .of_exec rfl ?_
    split <;> simp
  case lanes p b =>
    refine .of_exec rfl ?_
    split <;> simp
  case packetTaken p b cut =>
    refine .of_exec rfl ?_
    repeat' split
    all_goals simp
  case cmdArcRead p =>
    refine .of_exec rfl (vault_onCommand p _ _ s fun c b v => vault_twoPhase p _ v fun u => ?_)
    dsimp only
    split
    · simp
    · exact vault_needHalf p c _ _ u (by simp)
  case cmdArcFind p =>
    refine .of_exec rfl (vault_onCommand p _ _ s fun c b v => vault_twoPhase p _ v fun u => ?_)
    dsimp only
    split
    · simp
    · exact vault_needHalf p c _ _ u (by simp)
  case cmdArcNext p =>
    refine .of_exec rfl (vault_onCommand p _ _ s fun c b v => vault_twoPhase p _ v fun u => ?_)
    split
    · simp
    · exact vault_needHalf p c _ _ u (by simp)
  case envLine p =>
    refine .of_exec rfl (vault_inEnvelope p _ _ s fun c b v => ?_)
    dsimp only
    split
    · simp
    · split <;> simp
  case otpKey | otpRevoke | otpSvn | otpDbgoff => cases plain
  all_goals cases group

/-- The test access port: none of these commands shows in the vault. -/
theorem testPort_hides_vault (c : Instr) (s : State) (group : groupOf c = .testPort) :
    Hides State.vault c s := by
  cases c
  case extest | samplePreload | idcode | bypass | trstN =>
    exact .of_exec rfl (by simp)
  case clamp =>
    exact .of_exec rfl ((vault_mk _).trans (vault_setScan .clamp s))
  case highz =>
    exact .of_exec rfl ((vault_mk _).trans (vault_setScan .highz s))
  all_goals cases group

/-- The remaining commands, but for the end of a flash operation: none of these commands shows in the vault. -/
theorem other_hides_vault (c : Instr) (s : State) (group : groupOf c = .other)
    (plain : ∀ f reads, c ≠ .flashOperationDone f reads) :
    Hides State.vault c s := by
  cases c
  case registerWrite | areqReceived | returnToRun =>
    exact .of_check rfl (by simp)
  case heartbeat | supplyRecovery | halfResetEntry | bootwaitExpiry | seatGive | seatClaim | mirrorSyncBay |
      terminalPathSwitch | profileRequest | profileTimeout | lfxEdgeCoarse | gpInputEdge | thresholdStale | lineTrip |
      synthUnlock | lineDisable | metrologyLinkDown | metCommandSend | metNolinkTimeout | archiveDisable | timeSetWrite
      | inShort | inx | out | outx | halfBoot | bootPrefWrite | flashRead | flashProgram | flashErase | flashVerify |
      vcLoad | vacate | restart | hold | release | restore | envelopeSessionExpiry | envelopeBackoffEnd | endOfInterrupt
      | softwareInterrupt | interruptSyncRead | gpoPulseEnd | vcBell | testWindow | instructionMemoryWrite |
      vigilMemoryWrite | cmdSeatMove | cmdBlockMove | cmdFlush | cmdArcFormat | cmdTimeSet | sleepRequest | deepRequest
      | offRequest | runRequest | wakeRequest | regulatorRetry | padHoldRelease | vigilAlarm | xrefReturn | lfxLoss |
      lfxOk | pfailAssert | pfailRelease | powerOnReset | resetN | vaonFall | acknowledgementFrame =>
    exact .of_exec rfl (by simp)
  case selfCheckDone | lineBlankEnd | nonceExpiry | xrefLoss =>
    exact .of_exec rfl (by simp [↓vault_mk])
  case watchBoundary disagree =>
    refine .of_checked rfl ?_
    split
    · simp
    · rfl
  case declareFault h key =>
    refine .of_exec rfl ?_
    split <;> simp
  case supplyFail h =>
    refine .of_exec rfl ?_
    repeat' split
    all_goals simp
  case regulatorPoll readA readB acked =>
    refine .of_exec rfl ?_
    split <;> simp [↓vault_mk]
  case thresholdReadback bay which code =>
    refine .of_exec rfl ?_
    split <;> simp
  case metrologyFrameAccept crcOk =>
    refine .of_exec rfl ?_
    split
    · dsimp only
      split_ifs <;> simp [vault_takeArrival]
    · rfl
  case metrologyStatusReceived crcOk =>
    refine .of_exec rfl ?_
    split
    · dsimp only
      split_ifs <;> simp [vault_takeStatus]
    · rfl
  case archiveRequestDone corr =>
    refine .of_exec rfl ?_
    split <;> simp
  case waitEnd k =>
    refine .of_exec rfl ?_
    repeat' split
    all_goals simp
  case interruptAccept k =>
    refine .of_exec rfl ?_
    repeat' split
    all_goals simp
  case testWindowDone h fail =>
    refine .of_exec rfl ?_
    repeat' split
    all_goals simp
  case commandStart p =>
    refine .of_exec rfl ?_
    repeat' split
    all_goals simp
  case cmdRegRead p =>
    refine .of_exec rfl (vault_onCommand p _ _ s fun c b v => ?_)
    split
    · split
      · simp
      · exact vault_needHalf p c _ _ v (by simp)
    · simp
  case cmdRegWrite p =>
    refine .of_exec rfl (vault_onCommand p _ _ s fun c b v => ?_)
    split
    · split
      · simp
      · split
        · simp
        · exact vault_needHalf p c _ _ v (by simp)
    · simp
  case cmdMemRead p =>
    refine .of_exec rfl (vault_onCommand p _ _ s fun c b v => ?_)
    split <;> simp
  case cmdMemWrite p =>
    refine .of_exec rfl (vault_onCommand p _ _ s fun c b v => ?_)
    split <;> simp
  case cmdProfile p acked =>
    refine .of_exec rfl (vault_onCommand p _ _ s fun c b v => vault_twoPhase p _ v fun u => ?_)
    dsimp only
    split
    · simp
    · exact vault_needHalf p c _ _ u (by simp)
  case cmdTalk p =>
    refine .of_exec rfl (vault_onCommand p _ _ s fun c b v => ?_)
    dsimp only
    split
    · simp
    · exact vault_needHalf p c _ _ v (by simp)
  case cmdMetCmd p =>
    refine .of_exec rfl (vault_onCommand p _ _ s fun c b v => vault_twoPhase p _ v fun u => ?_)
    split
    · simp
    · refine vault_needHalf p c _ _ u fun w => ?_
      split
      · simp
      · refine vault_begin_ p _ w fun x => ?_
        split <;> simp
  case envTerm p =>
    refine .of_exec rfl (vault_inEnvelope p _ _ s fun c b v => ?_)
    dsimp only
    split
    · simp
    · split <;> simp
  case envRange p =>
    refine .of_exec rfl (vault_inEnvelope p _ _ s fun c b v => ?_)
    split
    · split <;> simp
    · dsimp only
      split
      · simp
      · exact vault_needHalf p c _ _ v (by simp)
  case powerEntryCommit pinFalls =>
    refine .of_exec rfl ?_
    split <;> simp [↓vault_mk]
  case powerEntryRefused =>
    refine .of_exec rfl ?_
    repeat' split
    all_goals simp
  case entryTimeout =>
    refine .of_exec rfl ?_
    repeat' split
    all_goals simp
  case brownout word =>
    refine .of_exec rfl ?_
    repeat' split
    all_goals simp [↓vault_mk]
  case debug k op =>
    refine .of_exec rfl ?_
    split
    · simp
    · dsimp only
      split
      · rw [vault_mk, vault_debugRun, vault_setScan]
      · rw [vault_mk, vault_setScan]
  case vcLoadDone reads =>
    refine .of_exec rfl ?_
    split <;> simp [↓vault_mk]
  case flashOperationDone f reads => exact absurd rfl (plain f reads)
  all_goals cases group

end Sys2Proof.Machine
end

section
/-! PROOF. The main die cannot reach the measurement (R355, R363, R375, R377). -/

namespace Sys2Proof.Machine

/-! ## The commands that change the one-time store or the flash -/

theorem Hides.congr {α β : Type} {view : State → α} {coarser : State → β} {c : Instr} {s : State} (f : α → β)
    (agrees : ∀ v, coarser v = f (view v)) (kept : Hides view c s) : Hides coarser c s := by
  intro t ht
  rw [agrees, agrees, kept t ht]

/-- The die as the main die must leave it. -/
def State.die (s : State) : Meter := s.meter.unlinked

theorem die_of_vault {s t : State} (same : t.vault = s.vault) : t.die = s.die := congrArg Prod.fst same

theorem Hides.die_of_vault {c : Instr} {s : State} (kept : Hides State.vault c s) : Hides State.die c s :=
  kept.congr Prod.fst fun _ => rfl

theorem die_inEnvelope (p : Fin 3) (op : Nat) {f : Cmd → List Byte → State → State} (s : State)
    (acts : ∀ c b v, (f c b v).die = v.die) : (inEnvelope p op f s).die = s.die := by
  unfold inEnvelope onCommand
  split
  · split
    · rw [acts]
      split <;> rfl
    · rfl
  · rfl

/-- A command that ends after a write of the one-time store. -/
theorem die_endCmd (p st : Nat) (res : List Byte) (s : State) : (endCmd p st res s).die = s.die :=
  die_of_vault (vault_endCmd p st res s)

theorem die_badParam (p : Fin 3) (s : State) : (badParam p s).die = s.die := die_of_vault (vault_badParam p s)

/-- The words of the one-time store are no part of the die. -/
theorem changesOtp_hides_die (c : Instr) (s : State) (writes : changesOtp c = true) : Hides State.die c s := by
  cases c
  case otpKey p | otpRevoke p | otpDbgoff p =>
    refine .of_exec rfl (die_inEnvelope p _ s fun c b v => ?_)
    dsimp only
    split
    · exact die_badParam p v
    · exact die_endCmd _ _ _ _
  case otpSvn p =>
    refine .of_exec rfl (die_inEnvelope p _ s fun c b v => ?_)
    dsimp only
    split
    · exact die_badParam p v
    · split <;> exact die_endCmd _ _ _ _
  all_goals cases writes

theorem die_programFlash (f a : Nat) (l : List Byte) (s : State) : (programFlash f a l s).die = s.die := by
  unfold programFlash
  apply view_foldl (view := State.die)
  intros
  rfl

theorem die_runFlash (f : Nat) (o : FlashOp) (reads : Bool) (s : State) : (runFlash f o reads s).2.2.die = s.die := by
  unfold runFlash
  split
  · split <;> rfl
  · exact (die_programFlash _ _ _ _).trans (die_of_vault (vault_flashData o s))
  · rfl
  · rfl

theorem flashOperationDone_hides_die (f : Fin 2) (reads : Bool) (s : State) :
    Hides State.die (.flashOperationDone f reads) s := by
  refine .of_exec rfl ?_
  split
  · rename_i o t _
    calc State.die (answerFlash o _ _ (runFlash f.val o reads (s.setFlashQueue f.val t)).2.2)
      _ = (runFlash f.val o reads (s.setFlashQueue f.val t)).2.2.die := die_of_vault (vault_answerFlash ..)
      _ = (s.setFlashQueue f.val t).die := die_runFlash ..
      _ = s.die := die_of_vault (vault_setFlashQueue ..)
  · rfl

/-! ## All commands -/

theorem other_hides_die (c : Instr) (s : State) (group : groupOf c = .other) : Hides State.die c s := by
  by_cases erases : ∃ f reads, c = .flashOperationDone f reads
  · obtain ⟨f, reads, rfl⟩ := erases
    exact flashOperationDone_hides_die f reads s
  · push Not at erases
    exact (other_hides_vault c s group erases).die_of_vault

theorem port_hides_die (c : Instr) (s : State) (group : groupOf c = .port) : Hides State.die c s := by
  cases writes : changesOtp c
  · exact (port_hides_vault c s group writes).die_of_vault
  · exact changesOtp_hides_die c s writes

/-- The commands of the lines, the engines, sampling and coding leave the die whole. -/
theorem lines_hide_die (c : Instr) (s : State)
    (group : groupOf c = .engine ∨ groupOf c = .engineEnd ∨ groupOf c = .synth ∨ groupOf c = .sampling
      ∨ groupOf c = .coding) : Hides State.die c s := by
  intro t ht
  have lines := lineCommandsLeaveTheRest
  unfold Obligations.LineCommandsLeaveTheRest at lines
  have items := samplingAndCodingCommandsLeaveTheRest
  unfold Obligations.SamplingAndCodingCommandsLeaveTheRest at items
  obtain ⟨engine, engineEnd, synth⟩ := lines
  obtain ⟨sampling, coding⟩ := items
  obtain group | group | group | group | group := group
  · rw [(engine c s t group ht).1]; rfl
  · rw [(engineEnd c s t group ht).1]; rfl
  · rw [(synth c s t group ht).1]; rfl
  · rw [sampling c s t group ht]; rfl
  · rw [(coding c s t group ht).1]; rfl

theorem outside_hides_die (c : Instr) (s : State) (outside : groupOf c ≠ .meterDie) : Hides State.die c s := by
  cases group : groupOf c with
  | meterDie => exact absurd group outside
  | testPort => exact (testPort_hides_vault c s group).die_of_vault
  | steward => exact (steward_hides_vault c s group).die_of_vault
  | stewardMemory => exact (stewardMemory_hides_vault c s group).die_of_vault
  | engine => exact lines_hide_die c s (.inl group)
  | engineEnd => exact lines_hide_die c s (.inr (.inl group))
  | synth => exact lines_hide_die c s (.inr (.inr (.inl group)))
  | sampling => exact lines_hide_die c s (.inr (.inr (.inr (.inl group))))
  | coding => exact lines_hide_die c s (.inr (.inr (.inr (.inr group))))
  | archive => exact (archive_hides_vault c s group).die_of_vault
  | twoWire => exact (twoWire_hides_vault c s group).die_of_vault
  | fabric => exact (fabric_hides_vault c s group).die_of_vault
  | terminal => exact (terminal_hides_vault c s group).die_of_vault
  | timebase => exact (timebase_hides_vault c s group).die_of_vault
  | budget => exact (budget_hides_vault c s group).die_of_vault
  | port => exact port_hides_die c s group
  | other => exact other_hides_die c s group

/-! ## Commands that came over the link (R375, R376) -/

/-- What no command of the link reaches; the tariff that waits is left out, since TARIFF sets it. -/
def Meter.guarded (m : Meter) : Meter :=
  { m with reqs := [], nextIntervals := [], streams := [], page := none, nextTariff := none, command := none,
           result := none, rej := 0 }

/-- The REASON of a frame that arrives whole: its form first, then its spacing, then what the die holds. -/
def frameVerdict (how : MetArrival) (form state : List Byte → Meter → Nat) (b : List Byte) (m : Meter) : Nat :=
  if form b m ≠ 0 then form b m else if how = .early then 4 else state b m

/-- What judging a frame can do: nothing, count it, refuse it, or do what it asks. -/
theorem judge_cases (cmd : Nat) (how : MetArrival) (form state : List Byte → Meter → Nat)
    (f : List Byte → Meter → Meter) (s : State) :
    (judge cmd how form state f s).meter = s.meter
    ∨ (judge cmd how form state f s).meter = { s.meter with command := none, rej := s.meter.rej + 1 }
    ∨ (∃ x, (judge cmd how form state f s).meter = { s.meter with command := none, result := x })
    ∨ ∃ b x, frameVerdict how form state b s.meter = 0
      ∧ (judge cmd how form state f s).meter = f b { s.meter with command := none, result := x } := by
  by_cases on : s.meter.on = true
  · simp only [judge, onMeter, if_pos on, State.setMeter]
    split
    · rename_i b _
      split
      · exact .inl rfl
      · split
        · exact .inr (.inl rfl)
        · by_cases sound : frameVerdict how form state b s.meter = 0
          · exact .inr (.inr (.inr ⟨b, _, sound, if_pos sound⟩))
          · exact .inr (.inr (.inl ⟨_, if_neg sound⟩))
    · exact .inl rfl
  · exact .inl (by simp only [judge, onMeter, if_neg on])

theorem judge_keeps {α : Type} {view : Meter → α} {f : List Byte → Meter → Meter}
    (rejected : ∀ m : Meter, view { m with command := none, rej := m.rej + 1 } = view m)
    (answered : ∀ (m : Meter) x, view { m with command := none, result := x } = view m)
    (acts : ∀ b m, view (f b m) = view m) (cmd : Nat) (how : MetArrival) (form state : List Byte → Meter → Nat)
    (s : State) :
    view (judge cmd how form state f s).meter = view s.meter := by
  obtain same | counted | ⟨x, refused⟩ | ⟨b, x, _, done⟩ := judge_cases cmd how form state f s
  · rw [same]
  · rw [counted, rejected]
  · rw [refused, answered]
  · rw [done, acts, answered]

theorem linkCommand_guarded (c : Instr) (s : State) (link : linkCommand c = true) :
    Hides (fun v => v.meter.guarded) c s := by
  cases c
  case metRead how | metReport how | metStream how | metLogread how | metDisplay how | metTariff how =>
    refine .of_exec rfl ?_
    apply judge_keeps (view := Meter.guarded) <;> (intros; rfl)
  all_goals cases link

/-- With TARIFF_SRC 1 the frame of a TARIFF command is refused with reason 5 at the latest, so its tariff does not wait. -/
theorem metTariff_nextTariff (how : MetArrival) (s : State) (inside : s.meter.param 0x43 = 1) :
    Hides (fun v => v.meter.nextTariff) (.metTariff how) s := by
  refine .of_exec rfl ?_
  obtain same | counted | ⟨x, refused⟩ | ⟨b, x, sound, _⟩ := judge_cases 9 how _ _ _ s
  · rw [same]
  · rw [counted]
  · rw [refused]
  · refine absurd sound ?_
    simp only [frameVerdict, if_pos inside]
    split
    · assumption
    · split <;> decide

theorem linkCommand_nextTariff (c : Instr) (s : State) (link : linkCommand c = true) (inside : s.meter.param 0x43 = 1) :
    Hides (fun v => v.meter.nextTariff) c s := by
  cases c
  case metTariff how => exact metTariff_nextTariff how s inside
  case metRead how | metReport how | metStream how | metLogread how | metDisplay how =>
    refine .of_exec rfl ?_
    apply judge_keeps (view := Meter.nextTariff) <;> (intros; rfl)
  all_goals cases link

/-- A die is its parts off the link with what lies on it. -/
theorem Meter.eq_of_unlinked {m n : Meter} (same : n.unlinked = m.unlinked) :
    n = { m with
      unacked := n.unacked, arrived := n.arrived, resent := n.resent, status := n.status, command := n.command } :=
  congrArg (fun x : Meter => { x with
    unacked := n.unacked, arrived := n.arrived, resent := n.resent, status := n.status, command := n.command }) same

/-- Settles O60: every command outside the die's group keeps the die's parts off the link, group by group through the
vault, and what a command of the link can do is what judging its frame can do. -/
theorem theMainDieCannotReachTheMeasurement : Obligations.TheMainDieCannotReachTheMeasurement := by
  unfold Obligations.TheMainDieCannotReachTheMeasurement
  refine ⟨fun c s t ht outside => Meter.eq_of_unlinked (outside_hides_die c s outside t ht), fun c s t ht link => ?_⟩
  have kept : t.meter.guarded = s.meter.guarded := linkCommand_guarded c s link t ht
  have keeps {α : Type} (part : Meter → α) (seen : ∀ m, part m = part m.guarded) : part t.meter = part s.meter := by
    rw [seen, kept, ← seen]
  exact ⟨keeps Meter.energy fun _ => rfl, keeps Meter.msec fun _ => rfl, keeps Meter.params fun _ => rfl,
    keeps Meter.committed fun _ => rfl, keeps Meter.staged fun _ => rfl, keeps Meter.chg fun _ => rfl,
    keeps Meter.log fun _ => rfl, keeps Meter.logged fun _ => rfl, keeps Meter.copyA fun _ => rfl,
    keeps Meter.copyB fun _ => rfl, keeps Meter.unsealed fun _ => rfl,
    fun inside => ⟨keeps Meter.tariff fun _ => rfl, linkCommand_nextTariff c s link inside t ht⟩⟩

end Sys2Proof.Machine
end

section
/-! PROOF. The commands of the metrology die and of the test access port leave the rest (R355, R377, R683). -/

namespace Sys2Proof.Machine

/-! ## The metrology die -/

/-- What a command of the die leaves: all but the die and the count of free values. -/
def State.besideDie (s : State) : State := { s with freeCount := 0, meter := Meter.reset }

theorem besideDie_setMeter (m : Meter) (s : State) : (s.setMeter m).besideDie = s.besideDie := rfl

theorem besideDie_onMeter (f : Meter → Meter) (s : State) : (onMeter f s).besideDie = s.besideDie := by
  unfold onMeter
  split <;> rfl

theorem besideDie_calibrate (cmd len : Nat) (payload : List Byte) (crcOk : Bool) (f : Meter → Nat × List Byte × Meter)
    (s : State) : (calibrate cmd len payload crcOk f s).besideDie = s.besideDie := by
  unfold calibrate
  split
  · split <;> rfl
  · rfl

theorem die_hides (c : Instr) (s : State) (group : groupOf c = .meterDie) : Hides State.besideDie c s := by
  cases c
  case metrologyCycleEnd | vmetFall | sealChange | selftestRom | selftestLrp | xmetFail | xmetReturn | watchdogExpiry |
      phaseLoss | phaseReturn | displayFrame | displayTimeout | energyPulse | statusFrame | linkResend | metRead |
      metReport | metStream | metLogread | metDisplay | metTariff =>
    exact .of_exec rfl (besideDie_onMeter _ s)
  case msecSecond | recordFrame => exact .of_exec rfl (besideDie_onMeter _ { s with freeCount := s.freeCount + 1 })
  case samplesFrame => exact .of_check rfl (besideDie_onMeter _ s)
  case getId | getParam | getLog | getEnergy | setParam | commitParams | discardParams =>
    exact .of_check rfl (besideDie_calibrate _ _ _ _ _ s)
  case metrologyStart =>
    refine .of_exec rfl ?_
    split
    · rfl
    · exact besideDie_setMeter _ s
  all_goals cases group

/-! ## The test access port -/

/-- What a command of the test access port leaves: all but the state that the claim names, and the registers of its
blocks. -/
def State.besideScan (s : State) : State × ({k // inBlocks .testPort k = false} → Word) :=
  ({ s with
      regs := [], consumers := [], timebases := [], slots := [], pads := [], mirrors := [], lineBlanked := 0,
      coders := [], codeHalves := [], chans := [], bushels := [], power := { s.power with matrixWake := false },
      jtag := Jtag.reset },
    s.regsBeside .testPort)

theorem besideScan_setReg {k : Nat} (own : inBlocks .testPort k = true) (s : State) (w : Word) :
    (s.setReg k w).besideScan = s.besideScan := Prod.ext rfl (regsBeside_setReg own s w)

theorem besideScan_setSlot (s : State) (h : Half) (t : Nat) (x : Slot) :
    (s.setSlot h t x).besideScan = s.besideScan := rfl

theorem besideScan_setJtag (s : State) (j : Jtag) : State.besideScan { s with jtag := j } = s.besideScan := rfl

theorem inBlocks_testPort_log {k : Nat} (log : k ∈ logKeys) : inBlocks .testPort k = true :=
  inBlocks_logKeys (by decide) (by decide) (by decide) log

theorem inBlocks_testPort_term (h : Half) {t o : Nat} (ht : t < 1024) (ho : o < 16) :
    inBlocks .testPort (termKey h t + o) = true := by
  have key : termKey h t + o = bayKey h (t / 16) + (0x80 + 16 * (t % 16) + o) := by
    unfold termKey
    omega
  rw [key]
  exact inBlocks_bay (by decide) h (by omega) (by omega)

theorem besideScan_putTerm (h : Half) {t : Nat} (ht : t < 1024) (f : Fld) (ho : f.addr < 16) (s : State) (v : Nat) :
    (s.put (termKey h t) f v).besideScan = s.besideScan := besideScan_setReg (inBlocks_testPort_term h ht ho) s _

theorem besideScan_raiseEvents (s : State) (ps : List Nat) : (raiseEvents ps s).besideScan = s.besideScan := by
  have captures := raiseEvents_captures ps s
  obtain ⟨r, c, i, w, only⟩ := raiseEvents_only ps s
  refine Prod.ext (by rw [only]; rfl) (funext fun k => captures.regs k.1 fun i hi o ho same => ?_)
  simpa [inBlocks_testPort_log (.inr (.inl ⟨i, hi, o, ho, same⟩))] using k.2

theorem besideScan_raiseBayEvent (h : Half) (b : Nat) (e : BayEvent) (s : State) :
    (raiseBayEvent h b e s).besideScan = s.besideScan := by
  unfold raiseBayEvent
  split
  · exact besideScan_raiseEvents s _
  · rfl

theorem besideScan_bayRecord (h : Half) (b : Nat) (en : Fld) (rtype : Nat) (payload : List Byte) (s : State) :
    (bayRecord h b en rtype payload s).besideScan = s.besideScan := by
  have kept (k : ((codingKeys h)ᶜ : Set Nat)) := apartCoding_bayRecord h k s b en rtype payload
  have rest := congrArg Prod.fst (kept ⟨0, by simp [codingKeys]⟩)
  refine Prod.ext ?_ (funext fun k => congrArg Prod.snd (kept ⟨k.1, fun own => ?_⟩))
  · exact (congrArg (fun u : State => u.besideScan.1) rest :)
  · simpa [inBlocks_testPort_log (.inl ⟨h, own⟩)] using k.2

section

variable (h : Half) {t : Nat} (ht : t < 1024) (s : State)
include ht

/-- The envelope's log of a terminal's bay (R200). -/
theorem besideScan_envelopeLog (cause : Nat) :
    (envelopeAction h t [Reg.TD_STAT_ILK_HOLD] cause s).besideScan = s.besideScan := by
  have marked := besideScan_putTerm h ht Reg.TD_STAT_ILK_HOLD (by decide) s 1
  have logKey {o : Nat} (ho : o = Reg.ENV_LAST ∨ o = Reg.ENV_BAYCNT) : inBlocks .testPort (padKey (t / 16) + o) = true :=
    inBlocks_testPort_log (.inr (.inr ⟨t / 16, by omega, by rcases ho with rfl | rfl <;> simp⟩))
  unfold envelopeAction
  simp only [List.foldl_cons, List.foldl_nil]
  split
  · split
    · rw [besideScan_raiseBayEvent, besideScan_bayRecord, besideScan_setReg (logKey (.inl rfl)), State.count,
        besideScan_setReg (logKey (.inr rfl)), marked]
    · rw [besideScan_setReg (logKey (.inl rfl)), State.count, besideScan_setReg (logKey (.inr rfl)), marked]
  · exact marked

theorem besideScan_dropProof : (dropProof h t s).besideScan = s.besideScan := by
  unfold dropProof
  dsimp only
  split
  · rfl
  · rename_i o _
    have ended (x : Slot) : ((s.put (termKey h t) Reg.TD_STAT_PROVING 0).setSlot h t x).besideScan = s.besideScan :=
      (besideScan_setSlot _ h t x).trans (besideScan_putTerm h ht _ (by decide) s 0)
    split
    · have excess : inBlocks .testPort (excessKey h t) = true := by
        unfold excessKey
        rw [Nat.add_assoc]
        exact inBlocks_bay (by decide) h (by omega) (by unfold Reg.TD_EXCESS; omega)
      rw [besideScan_putTerm h ht _ (by decide), State.count, besideScan_setReg excess, ended]
    · exact ended _

theorem besideScan_suppress : (suppress h t s).besideScan = s.besideScan :=
  (besideScan_envelopeLog h ht _ 3).trans (besideScan_dropProof h ht s)

omit ht in
theorem besideScan_noteBand (t was : Nat) : (noteBand h t was s).besideScan = s.besideScan := by
  unfold noteBand
  dsimp only
  split <;> rfl

omit h

theorem besideScan_holdPulse : (holdPulse t s).besideScan = s.besideScan := by
  unfold holdPulse State.onSlot
  split
  · refine view_onCopies s fun g v => (besideScan_noteBand g _ t _).trans ?_
    dsimp only
    split
    · exact besideScan_suppress g ht v
    · rfl
  · rfl

theorem besideScan_syncPad : (syncPad t s).besideScan = s.besideScan := by
  refine Eq.trans ?_ (besideScan_holdPulse ht s)
  unfold syncPad
  dsimp only
  split_ifs <;> rfl

end

theorem besideScan_syncBayPads {b : Nat} (hb : b < 64) (s : State) : (syncBayPads b s).besideScan = s.besideScan := by
  refine view_foldl_mem (fun t mem v => besideScan_syncPad ?_ v) s
  obtain ⟨i, hi, rfl⟩ := List.mem_map.mp mem
  have := List.mem_range.mp hi
  omega

theorem besideScan_syncAllPads (s : State) : (syncAllPads s).besideScan = s.besideScan := by
  refine view_foldl_mem (fun b mem v => besideScan_syncBayPads ?_ v) s
  exact List.mem_range.mp mem

theorem besideScan_setScan (i : JtagInstr) (s : State) : (setScan i s).besideScan = s.besideScan := by
  rw [setScan, besideScan_syncAllPads, besideScan_setJtag]

theorem testPort_hides (c : Instr) (s : State) (group : groupOf c = .testPort) : Hides State.besideScan c s := by
  have scans (i : JtagInstr) (pins : BitVec 1121) (shift : Option (BitVec 3363)) :
      (setScan i (scanRegister pins shift s)).besideScan = s.besideScan :=
    (besideScan_setScan i _).trans (besideScan_setJtag s _)
  have answers (i : JtagInstr) (j : Jtag) : State.besideScan { setScan i s with jtag := j } = s.besideScan :=
    (besideScan_setJtag _ j).trans (besideScan_setScan i s)
  cases c
  case extest pins shift | samplePreload pins shift => exact .of_exec rfl (scans _ pins shift)
  case idcode | trstN | clamp | highz | bypass => exact .of_exec rfl (answers _ _)
  all_goals cases group

/-! ## The obligation -/

/-- Settles O51: each command of the two groups hides from the view of what the claim leaves alone. -/
theorem meterAndTestPortCommandsLeaveTheRest : Obligations.MeterAndTestPortCommandsLeaveTheRest := by
  unfold Obligations.MeterAndTestPortCommandsLeaveTheRest
  refine ⟨fun c s t group ht => ?_, fun c s t group ht => ⟨?_, ?_⟩⟩
  · exact congrArg (fun u : State => { u with freeCount := t.freeCount, meter := t.meter }) (die_hides c s group t ht)
  · exact congrArg (fun v : State × _ => { v.1 with
      regs := t.regs, consumers := t.consumers, timebases := t.timebases, slots := t.slots, pads := t.pads,
      mirrors := t.mirrors, lineBlanked := t.lineBlanked, coders := t.coders, codeHalves := t.codeHalves,
      chans := t.chans, bushels := t.bushels, power := { v.1.power with matrixWake := t.power.matrixWake },
      jtag := t.jtag }) (testPort_hides c s group t ht)
  · exact kept_of_regsBeside (congrArg Prod.snd (testPort_hides c s group t ht))

end Sys2Proof.Machine
end

section
/-! SUPPORT. The metrology die's own operations: a running die, its record buffer, its event log and its energy registers (R354,
R355, R365, R372). -/

namespace Sys2Proof.Machine

/-! ## What a running die does -/

theorem onMeter_on {s : State} (f : Meter → Meter) (on : s.meter.on = true) : onMeter f s = s.setMeter (f s.meter) :=
  if_pos on

/-- A step that changes nothing of the die changes nothing. -/
theorem onMeter_same {f : Meter → Meter} {s : State} (same : f s.meter = s.meter) : onMeter f s = s := by
  unfold onMeter
  rw [same]
  split <;> rfl

/-- What a step of the running die gives. -/
theorem Gives.of_onMeter {c : Instr} {s u : State} {f : Meter → Meter} {P : State → Prop}
    (answer : exec c s = .next (onMeter f u)) (on : u.meter.on = true) (holds : P (u.setMeter (f u.meter))) :
    Gives c s P :=
  .intro (answer.trans (congrArg _ (onMeter_on f on))) holds

/-! ## Records and the event log (R365, R366, R372) -/

/-- The die without its record buffer and its event log. -/
def Meter.unbuffered (m : Meter) : Meter :=
  { m with due := [], unacked := [], rdrop := 0, dropped := (0, 0), log := [], logged := 0 }

@[simp] theorem unbuffered_dropRec (m : Meter) (r : MetRec) : (m.dropRec r).unbuffered = m.unbuffered := rfl

@[simp] theorem unbuffered_generate (r : MetRec) (n : Nat) :
    ∀ m : Meter, (m.generate r n).unbuffered = m.unbuffered := by
  induction n with
  | zero => exact fun _ => rfl
  | succ n ih =>
    intro m
    unfold Meter.generate
    split
    · rfl
    · split
      · rw [ih, unbuffered_dropRec]
      · rfl

@[simp] theorem unbuffered_addRec (m : Meter) (r : MetRec) : (m.addRec r).unbuffered = m.unbuffered :=
  unbuffered_generate r _ m

@[simp] theorem unbuffered_addLog (m : Meter) (code detail : Nat) (data : List Byte) :
    (m.addLog code detail data).unbuffered = m.unbuffered := by
  unfold Meter.addLog
  dsimp only
  split
  · exact unbuffered_addRec _ _
  · rfl

/-- A part of the die that neither the record buffer nor the event log shows in. -/
def Meter.Unbuffered {α : Type} (part : Meter → α) : Prop := ∀ m : Meter, part m = part m.unbuffered

theorem Meter.Unbuffered.addLog {α : Type} {part : Meter → α} (apart : Meter.Unbuffered part) (m : Meter)
    (code detail : Nat) (data : List Byte) : part (m.addLog code detail data) = part m := by
  rw [apart, unbuffered_addLog, ← apart]

theorem mem_listMark (l : List Nat) (v : Nat) : v ∈ listMark l v := by
  unfold listMark
  split
  · assumption
  · simp

theorem not_mem_listDrop (l : List Nat) (v : Nat) : v ∉ listDrop l v := by simp [listDrop]

/-- A test that fails is listed. -/
theorem mem_fails_fail (m : Meter) (test : Nat) : test ∈ (m.fail test).fails := by
  have same : (m.fail test).fails = listMark m.fails test :=
    Meter.Unbuffered.addLog (part := Meter.fails) (fun _ => rfl) _ _ _ _
  exact same ▸ mem_listMark m.fails test

/-! ## The energy registers (R354, R355) -/

/-- The die without what booking a cycle changes. -/
def Meter.unbooked (m : Meter) : Meter := { m with energy := [], bookedNow := [], pulseP := 0, pulseQ := 0 }

section

variable (m : Meter)

@[simp] theorem unbooked_addEnergy (i e : Nat) : (m.addEnergy i e).unbooked = m.unbooked := rfl

@[simp] theorem unbooked_addInterval (i : Nat) (e : Int) : (m.addInterval i e).unbooked = m.unbooked := rfl

@[simp] theorem unbooked_book (f q ph : Nat) (e : Int) : (m.book f q ph e).unbooked = m.unbooked := by
  unfold Meter.book
  split <;> rfl

@[simp] theorem unbooked_bookS (f ph s : Nat) (p : Int) : (m.bookS f ph s p).unbooked = m.unbooked := rfl

@[simp] theorem unbooked_bookPhase (f ph : Nat) (x : PhaseCycle) : (m.bookPhase f ph x).unbooked = m.unbooked := by
  simp [Meter.bookPhase]

@[simp] theorem unbooked_pulses (f : Nat) (ep eq : Int) : (m.pulses f ep eq).unbooked = m.unbooked := by
  unfold Meter.pulses
  dsimp only
  split <;> rfl

@[simp] theorem unbooked_bookFeeder (x : FeederCycle) : (m.bookFeeder x).unbooked = m.unbooked := by
  simp [Meter.bookFeeder]

theorem unbooked_bookAll (b : Option Nat) (l : List FeederCycle) : (m.bookAll b l).unbooked = m.unbooked := by
  unfold Meter.bookAll
  split
  · refine List.foldlRecOn (motive := fun n : Meter => n.unbooked = m.unbooked) l _ rfl fun n kept x _ => ?_
    split
    · split
      · exact (unbooked_bookFeeder n x).trans kept
      · exact kept
    · exact (unbooked_bookFeeder n x).trans kept
  · rfl

/-- A register of energy as it is held, in the die's own unit. -/
def Meter.booked (i : Nat) : Nat := tblGet m.energy 0 i

@[simp] theorem booked_addInterval (i : Nat) (e : Int) (j : Nat) : (m.addInterval i e).booked j = m.booked j := rfl

@[simp] theorem booked_pulses (f : Nat) (ep eq : Int) (j : Nat) : (m.pulses f ep eq).booked j = m.booked j := by
  unfold Meter.pulses
  dsimp only
  split <;> rfl

theorem booked_addEnergy (i e j : Nat) : (m.addEnergy i e).booked j = m.booked j + if j = i then e else 0 := by
  refine (tblGet_tblSet ..).trans ?_
  split
  · subst_vars
    rfl
  · rfl

/-- Booking adds what flows to one register and what flows back to the next. -/
theorem booked_book (f q ph : Nat) (e : Int) (j : Nat) :
    (m.book f q ph e).booked j =
      m.booked j + (if j = 24 * f + 4 * q + ph then e.toNat else 0)
        + (if j = 24 * f + 4 * (q + 1) + ph then (-e).toNat else 0) := by
  unfold Meter.book
  split
  · have none : (-e).toNat = 0 := by omega
    rw [booked_addEnergy, none, ite_self, Nat.add_zero]
  · have none : e.toNat = 0 := by omega
    rw [booked_addEnergy, none, ite_self, Nat.add_zero (m.booked j)]

theorem booked_bookS {f ph : Nat} (s : Nat) (p : Int) {j : Nat} (other : j < 24 * f + 16 ∨ 24 * f + 24 ≤ j)
    (small : ph < 4) : (m.bookS f ph s p).booked j = m.booked j := by
  unfold Meter.bookS
  rw [booked_addEnergy, if_neg, Nat.add_zero]
  split <;> omega

/-- The cycle of one phase leaves the registers of the total and of the tariffs. -/
theorem booked_bookPhase {f ph : Nat} (x : PhaseCycle) {j : Nat} (phase : ph < 3)
    (other : j = 24 * f + 3 ∨ j = 24 * f + 7 ∨ 24 * f + 24 ≤ j) : (m.bookPhase f ph x).booked j = m.booked j := by
  unfold Meter.bookPhase
  dsimp only
  rw [booked_bookS _ _ _ (by omega) (by omega), booked_book, booked_book, if_neg (by omega), if_neg (by omega),
    if_neg (by omega), if_neg (by omega), booked_addInterval, booked_addInterval]
  rfl

/-- The total active energy of a feeder's cycle, as it is booked. -/
def Meter.total (x : FeederCycle) : Int := (m.phase x.l1).p + (m.phase x.l2).p + (m.phase x.l3).p

/-- A feeder's cycle in its registers of total active energy and in those of the tariffs. -/
theorem booked_bookFeeder (x : FeederCycle) {j : Nat}
    (own : j = 24 * x.feeder.val + 3 ∨ j = 24 * x.feeder.val + 7 ∨ 192 ≤ j) :
    (m.bookFeeder x).booked j =
      m.booked j + (if j = 24 * x.feeder.val + 3 then (m.total x).toNat else 0)
        + (if j = 24 * x.feeder.val + 7 then (-(m.total x)).toNat else 0)
        + (if j = 192 + 8 * x.feeder.val + 2 * m.tariff + (if 0 ≤ m.total x then 0 else 1)
            then (m.total x).natAbs else 0) := by
  have feeder := x.feeder.isLt
  have place : j = 24 * x.feeder.val + 3 ∨ j = 24 * x.feeder.val + 7 ∨ 24 * x.feeder.val + 24 ≤ j := by omega
  unfold Meter.bookFeeder
  dsimp only
  rw [booked_pulses, booked_addEnergy, booked_bookS _ _ _ (by omega) (by omega), booked_book, booked_book,
    booked_bookPhase _ _ (by omega) place, booked_bookPhase _ _ (by omega) place, booked_bookPhase _ _ (by omega) place,
    if_neg (c := j = 24 * x.feeder.val + 4 * 2 + 3) (by omega),
    if_neg (c := j = 24 * x.feeder.val + 4 * (2 + 1) + 3) (by omega)]
  have sameTariff (n : Meter) (same : n.unbooked = m.unbooked) : n.tariff = m.tariff := by
    have tariff := congrArg Meter.tariff same
    exact tariff
  rw [sameTariff _ (by simp)]
  rfl

end

end Sys2Proof.Machine
end

section
/-! PROOF. What the calibration port answers (R363 to R368). -/

namespace Sys2Proof.Machine

/-! ## Frames of the calibration port (R364) -/

theorem payloadField_one (a : Byte) (l : List Byte) : payloadField (a :: l) 0 1 = a.toNat := by
  simp [payloadField, fromBytes]

theorem payloadField_two (a b : Byte) (l : List Byte) : payloadField (a :: b :: l) 0 2 = 256 * a.toNat + b.toNat := by
  simp [payloadField, fromBytes]

/-- A frame of a length that the port takes, or the refusal of the term. -/
theorem of_short {p : List Byte} (short : p.length ≤ 64) (s : State) :
    (if decide (p.length ≤ 64) then (.next s : Result) else .fault .illFormed) = .next s := if_pos (decide_eq_true short)

theorem calibrate_badCrc (cmd len : Nat) (p : List Byte) (f : Meter → Nat × List Byte × Meter) (s : State) :
    calibrate cmd len p false f s = s := by
  simp [calibrate]

/-- A frame of the right length gets the command's answer. -/
theorem calibrate_answers {cmd len : Nat} {p : List Byte} {f : Meter → Nat × List Byte × Meter} {s : State}
    {o : Nat × List Byte × Meter} (on : s.meter.on = true) (fits : p.length = len) (gives : f s.meter = o) :
    calibrate cmd len p true f s = s.setMeter { o.2.2 with answer := some (cmd, o.1, o.2.1) } := by
  simp [calibrate, on, fits, gives]

theorem exec_of_calibrate (p : List Byte) {c : Instr} {cmd len : Nat} {f : Meter → Nat × List Byte × Meter} {s : State}
    {o : Nat × List Byte × Meter}
    (answer : exec c s = if decide (p.length ≤ 64) then .next (calibrate cmd len p true f s) else .fault .illFormed)
    (short : p.length ≤ 64) (on : s.meter.on = true) (fits : p.length = len) (gives : f s.meter = o) :
    exec c s = .next (s.setMeter { o.2.2 with answer := some (cmd, o.1, o.2.1) }) := by
  rw [answer, of_short short, calibrate_answers on fits gives]

/-- A frame of a wrong length is answered BAD_FRAME. -/
theorem calibrate_badFrame {cmd len : Nat} {p : List Byte} (f : Meter → Nat × List Byte × Meter) {s : State}
    (on : s.meter.on = true) (wrong : p.length ≠ len) :
    calibrate cmd len p true f s = s.setMeter { s.meter with answer := some (cmd, 5, []) } := by
  simp [calibrate, on, wrong]

theorem unsealedOnly_of_unsealed {m : Meter} (f : Meter → Nat × List Byte × Meter) (unsealed : m.unsealed = true) :
    unsealedOnly f m = f m := if_pos unsealed

theorem unsealedOnly_of_sealed {m : Meter} (f : Meter → Nat × List Byte × Meter) (sealed : m.unsealed = false) :
    unsealedOnly f m = (1, [], m) := by
  simp [unsealedOnly, sealed]

theorem calibration_badCrc (p : List Byte) (c : Instr) (s : State) (short : p.length ≤ 64)
    (frame : c ∈ [.getId p false, .getParam p false, .getLog p false, .getEnergy p false, .setParam p false,
      .commitParams p false, .discardParams p false]) : exec c s = .next s := by
  have unanswered (cmd len : Nat) (f : Meter → Nat × List Byte × Meter) :
      (if decide (p.length ≤ 64) then (.next (calibrate cmd len p false f s) : Result) else .fault .illFormed) =
        .next s := by
    rw [calibrate_badCrc, of_short short]
  simp only [List.mem_cons, List.not_mem_nil, or_false] at frame
  obtain rfl | rfl | rfl | rfl | rfl | rfl | rfl := frame <;> exact unanswered _ _ _

theorem setParam_stages (id a b c d : Byte) (v : Nat) (s : State) (on : s.meter.on = true)
    (unsealed : s.meter.unsealed = true) (listed : id.toNat ∈ paramIds)
    (value : v = ((a.toNat * 256 + b.toNat) * 256 + c.toNat) * 256 + d.toNat) (ok : paramOk id.toNat v = true) :
    exec (.setParam [id, a, b, c, d] true) s = .next (s.setMeter { s.meter with
      staged := tblPut s.meter.staged id.toNat v, answer := some (0x10, 0, bigEndian 4 v) }) := by
  have read : payloadField [id, a, b, c, d] 1 4 = v := by
    simp [payloadField, fromBytes, value]
    ring
  refine exec_of_calibrate [id, a, b, c, d]
    (o := (0, bigEndian 4 v, { s.meter with staged := tblPut s.meter.staged id.toNat v })) rfl (by simp) on rfl ?_
  rw [unsealedOnly_of_unsealed _ unsealed]
  dsimp only
  rw [payloadField_one, read, if_pos ⟨listed, ok⟩]

theorem sealed_refuses (p : List Byte) (c : Instr) (k : Nat) (s : State) (on : s.meter.on = true)
    (sealed : s.meter.unsealed = false)
    (frame : (c, k, p.length) ∈
      [(.setParam p true, 0x10, 5), (.commitParams p true, 0x11, 0), (.discardParams p true, 0x12, 0)]) :
    exec c s = .next (s.setMeter { s.meter with answer := some (k, 1, []) }) := by
  have refused {cmd len : Nat} (f : Meter → Nat × List Byte × Meter) (fits : p.length = len) (short : p.length ≤ 64) :
      (if decide (p.length ≤ 64) then (.next (calibrate cmd len p true (unsealedOnly f) s) : Result)
        else .fault .illFormed) = .next (s.setMeter { s.meter with answer := some (cmd, 1, []) }) :=
    (of_short short _).trans (congrArg _ (calibrate_answers on fits (unsealedOnly_of_sealed f sealed)))
  simp only [List.mem_cons, List.not_mem_nil, or_false, Prod.mk.injEq] at frame
  obtain ⟨rfl, rfl, len⟩ | ⟨rfl, rfl, len⟩ | ⟨rfl, rfl, len⟩ := frame <;> exact refused _ len (by omega)

/-- COMMIT of one staged value that differs from the one in force. -/
theorem commit_differs (m : Meter) (id v : Nat) (room : m.logFull = false) (counts : m.chg ≠ 0xFFFFFFFF)
    (settled : m.committed = none) (staged : m.staged = [(id, v)]) (differs : m.param id ≠ v) :
    (m.commit.2.2).unbuffered =
      { m.unbuffered with
        chg := m.chg + 1, committed := some (tblSet m.params (paramFactory id) id v), staged := [],
        fails := listDrop m.fails 2 } := by
  have new : tblSet m.params (paramFactory id) id v ≠ m.params := fun same =>
    differs ((congrArg (fun t => paramIn t id) same).symm.trans (tblGet_tblSet_same m.params _ id v))
  unfold Meter.commit
  simp only [room, settled, staged, Option.getD_none, List.foldl_cons, List.foldl_nil, if_neg new, if_neg counts,
    Bool.false_eq_true, if_false, unbuffered_addLog]
  rfl

theorem commitParams_takes (id v : Nat) (s : State) (on : s.meter.on = true) (unsealed : s.meter.unsealed = true)
    (room : s.meter.logFull = false) (counts : s.meter.chg ≠ 0xFFFFFFFF) (settled : s.meter.committed = none)
    (staged : s.meter.staged = [(id, v)]) (differs : s.meter.param id ≠ v) :
    Gives (.commitParams [] true) s (fun t =>
      t.meter.chg = s.meter.chg + 1 ∧ t.meter.staged = [] ∧ t.meter.params = s.meter.params
        ∧ t.meter.committed.map (fun x => paramIn x id) = some v) := by
  have after := commit_differs s.meter id v room counts settled staged differs
  refine .intro (exec_of_calibrate [] rfl (by simp) on rfl (unsealedOnly_of_unsealed Meter.commit unsealed)) ?_
  have part {α : Type} (f : Meter → α) (apart : Meter.Unbuffered f) :=
    (apart s.meter.commit.2.2).trans (congrArg f after)
  refine ⟨part Meter.chg fun _ => rfl, part Meter.staged fun _ => rfl, part Meter.params fun _ => rfl, ?_⟩
  refine (congrArg (Option.map _) (part Meter.committed fun _ => rfl)).trans (congrArg some ?_)
  exact tblGet_tblSet_same s.meter.params _ id v

/-- Settles O26: each command of the port, by what `calibrate` makes of its answer. -/
theorem theCalibrationPortAnswers : Obligations.TheCalibrationPortAnswers := by
  unfold Obligations.TheCalibrationPortAnswers
  refine ⟨fun p c s => calibration_badCrc p c s, ?_, ?_, ?_, ?_, ?_, sealed_refuses, commitParams_takes, ?_, ?_⟩
  · intro s on
    exact exec_of_calibrate [] (o := (0, s.meter.ident, s.meter)) rfl (by simp) on rfl rfl
  · intro id s on listed unstaged
    refine exec_of_calibrate [id] (o := (0, bigEndian 4 (s.meter.param id.toNat), s.meter)) rfl (by simp) on rfl ?_
    rw [payloadField_one, if_pos listed, unstaged, List.append_nil]
  · intro i j e s on logged
    refine exec_of_calibrate [i, j] (o := (0, entryBytes e, s.meter)) rfl (by simp) on rfl ?_
    rw [payloadField_two, logged]
  · intro f s on feeder
    refine exec_of_calibrate [f] (o := (0, s.meter.feederRegs f.toNat, s.meter)) rfl (by simp) on rfl ?_
    rw [payloadField_one, if_pos feeder]
  · intro id a b c d v s on unsealed listed value ok
    exact .intro (setParam_stages id a b c d v s on unsealed listed value ok)
      ⟨tblFind_tblPut_same s.meter.staged id.toNat v, rfl, rfl, rfl⟩
  · intro s on unsealed
    exact exec_of_calibrate [] (o := (0, [], { s.meter with staged := [] })) rfl (by simp) on rfl
      (unsealedOnly_of_unsealed _ unsealed)
  · intro p s on short long
    have wrong : p.length ≠ 0 := fun empty => long (List.length_eq_zero_iff.mp empty)
    exact (of_short short _).trans (congrArg _ (calibrate_badFrame _ on wrong))

end Sys2Proof.Machine
end

section
/-! PROOF. The metrology die keeps its registers (R354 to R370, R383). -/

namespace Sys2Proof.Machine

/-! ## The two copies of the block (R359) -/

/-- A block that is written carries the present MSEC, and it becomes the newer copy. -/
theorem newerCopy_writeBlock (m : Meter) :
    (newerCopy m.writeBlock.2.copyA m.writeBlock.2.copyB).map (fun x => x.2.msec) = some m.msec := by
  unfold Meter.writeBlock
  cases a : m.copyA with
  | none => cases b : m.copyB <;> simp [newerCopy]
  | some x =>
    cases b : m.copyB with
    | none => simp [newerCopy]
    | some y => by_cases older : x.ctr < y.ctr <;> simp [newerCopy, older]

/-- The block goes to the copy that is not the newer one. -/
theorem writeBlock_copies (m : Meter) :
    if (newerCopy m.copyA m.copyB).map Prod.fst = some 0 then
      m.writeBlock.2.copyA = m.copyA ∧ m.writeBlock.2.copyB.map MetCopy.msec = some m.msec
    else m.writeBlock.2.copyB = m.copyB ∧ m.writeBlock.2.copyA.map MetCopy.msec = some m.msec := by
  cases newer : newerCopy m.copyA m.copyB with
  | none => simp [Meter.writeBlock, newer]
  | some p =>
    obtain ⟨i, x⟩ := p
    cases i with
    | zero => simp [Meter.writeBlock, newer]
    | succ i => simp [Meter.writeBlock, newer]

/-- The die without its copies of the block. -/
def Meter.uncopied (m : Meter) : Meter := { m with copyA := none, copyB := none }

theorem uncopied_writeBlock (m : Meter) : m.writeBlock.2.uncopied = m.uncopied := by
  unfold Meter.writeBlock
  dsimp only
  split <;> rfl

/-! ## What a second and a start leave once the block is taken (R358, R383) -/

/-- The die without its buffers, what its reports count, the tests that fail and the mark of a block saved. -/
def Meter.core (m : Meter) : Meter := { m.unbuffered with bookedNow := [], bookedFrom := 0, fails := [], saved := false }

theorem core_of_unbuffered {m n : Meter} (same : n.unbuffered = m.unbuffered) : n.core = m.core :=
  congrArg (fun x : Meter => { x with bookedNow := [], bookedFrom := 0, fails := [], saved := false }) same

@[simp] theorem core_addRec (m : Meter) (r : MetRec) : (m.addRec r).core = m.core :=
  core_of_unbuffered (unbuffered_addRec m r)

@[simp] theorem core_addLog (m : Meter) (code detail : Nat) (data : List Byte) :
    (m.addLog code detail data).core = m.core :=
  core_of_unbuffered (unbuffered_addLog m code detail data)

@[simp] theorem core_fail (m : Meter) (test : Nat) : (m.fail test).core = m.core := core_addLog _ _ _ _

theorem core_saved (m : Meter) (b : Bool) : Meter.core { m with saved := b } = m.core := rfl

@[simp] theorem core_foldl {β : Type} {f : Meter → β → Meter} (acts : ∀ n x, (f n x).core = n.core) (l : List β)
    (m : Meter) : (l.foldl f m).core = m.core :=
  List.foldlRecOn (motive := fun n : Meter => n.core = m.core) l f rfl fun n kept x _ => (acts n x).trans kept

theorem core_unless (m n : Meter) (c : Prop) [Decidable c] (same : n.core = m.core) :
    (if c then m else n).core = m.core := by
  split
  · rfl
  · exact same

theorem core_periodic (m : Meter) (k : Nat) (meas : List MetMeas) : (m.periodic k meas).core = m.core := by
  refine core_foldl (fun n t => ?_) _ m
  dsimp only
  split
  · have recorded := core_foldl (fun (v : Meter) (src : Nat) => core_addRec v (v.mkRec k meas t src false false 0))
      (List.range (sourcesOf t)) n
    split
    · exact recorded
    · exact recorded
  · rfl

/-- The die with its RAM cleared, at a start. -/
def Meter.cleared (m : Meter) : Meter :=
  { m.clear with
    on := true, starts := (m.starts + 1) % 65536, params := m.committed.getD m.params, committed := none }

/-- The die that takes a copy of its block. -/
def Meter.load (m : Meter) (x : MetCopy) : Meter :=
  { m with
    energy := x.energy.map (fun (e : Nat × Nat) => (e.1, e.2 * 1000000)), msec := x.msec, bookedFrom := x.msec,
    tariff := if m.param 0x43 = 1 then 0 else x.tariff }

/-- The die as a start takes it from the newer valid copy, before its tests and its first records. -/
def Meter.taken (m : Meter) (t : MetTests) : Meter :=
  match newerCopy (if t.copyA then m.copyA else none) (if t.copyB then m.copyB else none) with
  | some (_, x) => m.cleared.load x
  | none => { m.cleared with energy := [], msec := 0, bookedFrom := 0, tariff := 0, copyA := none, copyB := none }

theorem core_start (m : Meter) (cause : Nat) (t : MetTests) : (m.start cause t).core = (m.taken t).core := by
  unfold Meter.start
  extract_lets a b cleared m0 m1 m2 m3 m4 m5 m6 ended m7 bit res m8 m9
  have h1 : m1.core = (m.taken t).core := by
    unfold Meter.taken
    dsimp only [m1]
    cases newerCopy a b <;> rfl
  have h2 : m2.core = m1.core := core_unless _ _ _ (core_fail _ _)
  have h3 : m3.core = m2.core := core_unless _ _ _ (core_fail _ _)
  have h4 : m4.core = m3.core := core_unless _ _ _ (by simp)
  have h5 : m5.core = m4.core := core_unless _ _ _ (by simp)
  have h6 : m6.core = m5.core := core_unless _ _ _ (core_fail _ _)
  have h7 : m7.core = m6.core := (core_saved _ _).trans (core_addLog _ _ _ _)
  have h9 : m9.core = m7.core := (core_addRec _ _).trans (core_addRec _ _)
  rw [core_foldl fun n t => core_foldl (fun v f => core_addRec v _) _ n, h9, h7, h6, h5, h4, h3, h2, h1]

/-- A part of the die that the core holds. -/
def Meter.Core {α : Type} (part : Meter → α) : Prop := ∀ m : Meter, part m = part m.core

theorem Meter.Core.eq {α : Type} {part : Meter → α} (held : Meter.Core part) {m n : Meter} (same : n.core = m.core) :
    part n = part m := by
  rw [held, same, ← held]

/-! ## Cycles, seconds, and the fall of VMET -/

theorem metrologyCycleEnd_books (b : Fin 2) (x : FeederCycle) (s : State) (on : s.meter.on = true)
    (counts : s.meter.counts = true) (bus : (s.meter.param 0x40).testBit x.feeder.val = decide (b.val = 1))
    (l1 : s.meter.param 0x42 ≤ x.l1.irms) (l2 : s.meter.param 0x42 ≤ x.l2.irms) (l3 : s.meter.param 0x42 ≤ x.l3.irms) :
    Gives (.metrologyCycleEnd b [x]) s (fun t =>
      tblGet t.meter.energy 0 (24 * x.feeder.val + 3) =
          tblGet s.meter.energy 0 (24 * x.feeder.val + 3) + (x.l1.p + x.l2.p + x.l3.p).toNat
        ∧ tblGet t.meter.energy 0 (24 * x.feeder.val + 7) =
            tblGet s.meter.energy 0 (24 * x.feeder.val + 7) + (-(x.l1.p + x.l2.p + x.l3.p)).toNat
        ∧ tblGet t.meter.energy 0 (192 + 8 * x.feeder.val + 2 * s.meter.tariff) =
            tblGet s.meter.energy 0 (192 + 8 * x.feeder.val + 2 * s.meter.tariff) + (x.l1.p + x.l2.p + x.l3.p).toNat
        ∧ tblGet t.meter.energy 0 (192 + 8 * x.feeder.val + 2 * s.meter.tariff + 1) =
            tblGet s.meter.energy 0 (192 + 8 * x.feeder.val + 2 * s.meter.tariff + 1)
              + (-(x.l1.p + x.l2.p + x.l3.p)).toNat
        ∧ t = s.setMeter t.meter) := by
  have total : s.meter.total x = x.l1.p + x.l2.p + x.l3.p := by
    simp [Meter.total, Meter.phase, not_lt.mpr l1, not_lt.mpr l2, not_lt.mpr l3]
  have books : s.meter.bookAll (some b.val) [x] = s.meter.bookFeeder x := by simp [Meter.bookAll, counts, bus]
  have feeder := x.feeder.isLt
  refine .of_onMeter rfl on ?_
  rw [books]
  refine ⟨(booked_bookFeeder _ x (by omega)).trans ?_, (booked_bookFeeder _ x (by omega)).trans ?_,
    (booked_bookFeeder _ x (by omega)).trans ?_, (booked_bookFeeder _ x (by omega)).trans ?_, rfl⟩ <;>
  · rw [total, Meter.booked]
    split_ifs <;> omega

/-- The die as a second takes it, before it writes the block and makes its records. -/
def Meter.advanced (m : Meter) : Meter :=
  { m with
    msec := min (2 ^ 32 - 1) (m.msec + 1), params := m.committed.getD m.params, committed := none,
    tariff := if paramIn (m.committed.getD m.params) 0x43 = 1 then 0 else m.nextTariff.getD m.tariff, nextTariff := none,
    intervals := m.nextIntervals.foldl (fun t (e : Nat × Nat) => tblSet t (intervalDefault e.1) e.1 e.2) m.intervals,
    nextIntervals := [] }

/-- What a die holds after a second, whatever records it made in it. -/
theorem advanced_kept (m : Meter) {n : Meter} (kept : n.core = m.advanced.writeBlock.2.core) :
    n.msec = min (2 ^ 32 - 1) (m.msec + 1) ∧ n.params = m.committed.getD m.params ∧ n.committed = none
      ∧ n.tariff = (if n.param 0x43 = 1 then 0 else m.nextTariff.getD m.tariff)
      ∧ n.nextTariff = none ∧ n.energy = m.energy
      ∧ (if (newerCopy m.copyA m.copyB).map Prod.fst = some 0 then
            n.copyA = m.copyA ∧ n.copyB.map MetCopy.msec = some n.msec
          else n.copyB = m.copyB ∧ n.copyA.map MetCopy.msec = some n.msec) := by
  have part {α : Type} (f : Meter → α) (held : Meter.Core f) (apart : ∀ m : Meter, f m = f m.uncopied) :
      f n = f m.advanced := by
    rw [held.eq kept, apart, uncopied_writeBlock, ← apart]
  have msec : n.msec = m.advanced.msec := part Meter.msec (fun _ => rfl) fun _ => rfl
  have params : n.params = m.advanced.params := part Meter.params (fun _ => rfl) fun _ => rfl
  have tariff : n.tariff = m.advanced.tariff := part Meter.tariff (fun _ => rfl) fun _ => rfl
  have copyA : n.copyA = m.advanced.writeBlock.2.copyA := Meter.Core.eq (part := Meter.copyA) (fun _ => rfl) kept
  have copyB : n.copyB = m.advanced.writeBlock.2.copyB := Meter.Core.eq (part := Meter.copyB) (fun _ => rfl) kept
  refine ⟨msec, params, part Meter.committed (fun _ => rfl) fun _ => rfl, ?_,
    part Meter.nextTariff (fun _ => rfl) fun _ => rfl, part Meter.energy (fun _ => rfl) fun _ => rfl, ?_⟩
  · rw [tariff, Meter.param, params]
    rfl
  · rw [copyA, copyB, msec]
    exact writeBlock_copies m.advanced

/-- A block saved before the die stops is its newer copy, with the present MSEC. -/
theorem vmetFall_saves (feeders : List FeederCycle) (m : Meter) :
    (newerCopy ((m.bookAll none feeders).writeBlock.2.addLog 0x01 (m.bookAll none feeders).writeBlock.1 []).copyA
      ((m.bookAll none feeders).writeBlock.2.addLog 0x01 (m.bookAll none feeders).writeBlock.1 []).copyB).map
        (fun x => x.2.msec) = some m.msec := by
  have msec : (m.bookAll none feeders).msec = m.msec := by
    have kept := congrArg Meter.msec (unbooked_bookAll m none feeders)
    exact kept
  rw [Meter.Unbuffered.addLog (part := Meter.copyA) fun _ => rfl,
    Meter.Unbuffered.addLog (part := Meter.copyB) fun _ => rfl,
    newerCopy_writeBlock, msec]

/-! ## Starts (R360, R361, R383) -/

/-- What a die holds after a start that found a valid copy, whatever its tests and first records. -/
theorem taken_kept {m n : Meter} {tests : MetTests} {i : Nat} {x : MetCopy} (kept : n.core = (m.taken tests).core)
    (newer : newerCopy (if tests.copyA = true then m.copyA else none) (if tests.copyB = true then m.copyB else none) =
      some (i, x)) :
    n.on = true ∧ n.msec = x.msec ∧ n.tariff = (if n.param 0x43 = 1 then 0 else x.tariff)
      ∧ n.energy = x.energy.map (fun (e : Nat × Nat) => (e.1, e.2 * 1000000))
      ∧ n.starts = (m.starts + 1) % 65536 ∧ n.streams = [] := by
  have loaded : m.taken tests = m.cleared.load x := by rw [Meter.taken, newer]
  have part {α : Type} (f : Meter → α) (held : Meter.Core f) : f n = f (m.cleared.load x) := by
    rw [held.eq kept, loaded]
  have params : n.params = m.committed.getD m.params := part Meter.params fun _ => rfl
  refine ⟨part Meter.on fun _ => rfl, part Meter.msec fun _ => rfl, ?_, part Meter.energy fun _ => rfl,
    part Meter.starts fun _ => rfl, part Meter.streams fun _ => rfl⟩
  rw [Meter.param, params]
  exact part Meter.tariff fun _ => rfl

theorem metrologyStart_takes (tests : MetTests) (i : Nat) (x : MetCopy) (s : State) (off : s.meter.on = false)
    (newer : newerCopy (if tests.copyA = true then s.meter.copyA else none)
      (if tests.copyB = true then s.meter.copyB else none) = some (i, x)) :
    Gives (.metrologyStart tests) s (fun t =>
      t.meter.on = true ∧ t.meter.msec = x.msec
        ∧ t.meter.tariff = (if t.meter.param 0x43 = 1 then 0 else x.tariff)
        ∧ t.meter.energy = x.energy.map (fun (e : Nat × Nat) => (e.1, e.2 * 1000000))
        ∧ t.meter.starts = (s.meter.starts + 1) % 65536 ∧ t.meter.streams = []) := by
  have answer : exec (.metrologyStart tests) s = .next (s.setMeter (s.meter.start 0 tests)) :=
    congrArg _ (if_neg (by simp [off]))
  have kept := taken_kept (core_start s.meter 0 tests) newer
  generalize s.meter.start 0 tests = n at answer kept
  exact .intro answer kept

theorem watchdogExpiry_restarts (tests : MetTests) (s : State) (on : s.meter.on = true) :
    Gives (.watchdogExpiry tests) s (fun t =>
      t.meter.on = true ∧ t.meter.starts = (s.meter.starts + 1) % 65536 ∧ t.meter.streams = []
        ∧ t.meter.unsealed = s.meter.unsealed
        ∧ t.meter.msec = (match newerCopy (if tests.copyA = true then s.meter.copyA else none)
            (if tests.copyB = true then s.meter.copyB else none) with | some (_, x) => x.msec | none => 0)) := by
  refine .of_onMeter rfl on ?_
  have failed {α : Type} (f : Meter → α) (held : Meter.Core f) : f (s.meter.fail 5) = f s.meter :=
    held.eq (core_fail _ _)
  have copyA := failed Meter.copyA fun _ => rfl
  have copyB := failed Meter.copyB fun _ => rfl
  have starts := failed Meter.starts fun _ => rfl
  have unsealed := failed Meter.unsealed fun _ => rfl
  have part {α : Type} (f : Meter → α) (held : Meter.Core f) :
      f ((s.meter.fail 5).start 1 tests) = f ((s.meter.fail 5).taken tests) := held.eq (core_start _ 1 tests)
  generalize s.meter.fail 5 = m at part copyA copyB starts unsealed
  rw [← copyA, ← copyB, ← starts, ← unsealed]
  refine ⟨(part Meter.on fun _ => rfl).trans ?_, (part Meter.starts fun _ => rfl).trans ?_,
    (part Meter.streams fun _ => rfl).trans ?_, (part Meter.unsealed fun _ => rfl).trans ?_,
    (part Meter.msec fun _ => rfl).trans ?_⟩ <;>
  · unfold Meter.taken
    cases newerCopy (if tests.copyA = true then m.copyA else none) (if tests.copyB = true then m.copyB else none) <;> rfl

/-! ## The seal, self-tests, phases and the display (R362, R365, R368, R369) -/

theorem sealChange_notes (o : Bool) (s : State) (on : s.meter.on = true) (turns : s.meter.unsealed ≠ o) :
    Gives (.sealChange o) s (fun t =>
      t.meter.unsealed = o ∧ t.meter.params = s.meter.params ∧ (o = false → t.meter.staged = [])) := by
  have part {α : Type} (f : Meter → α) (apart : Meter.Unbuffered f) := Meter.Unbuffered.addLog apart
  refine .of_onMeter rfl on ?_
  cases o with
  | true =>
    rw [if_neg turns, if_pos rfl]
    exact ⟨part Meter.unsealed (fun _ => rfl) _ _ _ _, part Meter.params (fun _ => rfl) _ _ _ _, nofun⟩
  | false =>
    rw [if_neg turns, if_neg Bool.false_ne_true]
    exact ⟨part Meter.unsealed (fun _ => rfl) _ _ _ _, part Meter.params (fun _ => rfl) _ _ _ _,
      fun _ => part Meter.staged (fun _ => rfl) _ _ _ _⟩

theorem energy_fail (m : Meter) (test : Nat) : (m.fail test).energy = m.energy :=
  Meter.Unbuffered.addLog (part := Meter.energy) (fun _ => rfl) _ _ _ _

theorem failed_test_listed (c : Instr) (k : Nat) (s : State)
    (test : (c, k) ∈ [(.selftestRom false, 1), (.selftestLrp false, 2), (.xmetFail, 4)]) (on : s.meter.on = true) :
    Gives c s (fun t => k ∈ t.meter.fails ∧ t.meter.energy = s.meter.energy) := by
  simp only [List.mem_cons, List.not_mem_nil, or_false, Prod.mk.injEq] at test
  obtain ⟨rfl, rfl⟩ | ⟨rfl, rfl⟩ | ⟨rfl, rfl⟩ := test
  · exact .of_onMeter rfl on ⟨mem_fails_fail s.meter 1, energy_fail s.meter 1⟩
  · exact .of_onMeter rfl on ⟨mem_fails_fail s.meter 2, energy_fail s.meter 2⟩
  · refine .of_onMeter rfl on ?_
    have fails := Meter.Unbuffered.addLog (part := Meter.fails) (fun _ => rfl) (s.meter.fail 4) 0x22 0 []
    have energy := Meter.Unbuffered.addLog (part := Meter.energy) (fun _ => rfl) (s.meter.fail 4) 0x22 0 []
    exact ⟨fails ▸ mem_fails_fail s.meter 4, energy.trans (energy_fail s.meter 4)⟩

theorem passed_test_nothing (c : Instr) (s : State) (test : c ∈ [.selftestRom true, .selftestLrp true]) :
    exec c s = .next s := by
  simp only [List.mem_cons, List.not_mem_nil, or_false] at test
  obtain rfl | rfl := test <;> exact congrArg _ (onMeter_same rfl)

theorem phaseLoss_marks (c : Fin 6) (s : State) (on : s.meter.on = true) :
    Gives (.phaseLoss c) s (fun t => c.val ∈ t.meter.lostPhases ∧ t.meter.energy = s.meter.energy) := by
  refine .of_onMeter rfl on ?_
  split
  · exact ⟨‹_›, rfl⟩
  · have lost := Meter.Unbuffered.addLog (part := Meter.lostPhases) (fun _ => rfl)
      { s.meter with lostPhases := listMark s.meter.lostPhases c.val } 0x30 c.val []
    exact ⟨lost ▸ mem_listMark s.meter.lostPhases c.val,
      Meter.Unbuffered.addLog (part := Meter.energy) (fun _ => rfl) _ _ _ _⟩

theorem phaseReturn_unmarks (c : Fin 6) (s : State) (on : s.meter.on = true) :
    Gives (.phaseReturn c) s (fun t => c.val ∉ t.meter.lostPhases ∧ t.meter.energy = s.meter.energy) := by
  refine .of_onMeter rfl on ?_
  split
  · have lost := Meter.Unbuffered.addLog (part := Meter.lostPhases) (fun _ => rfl)
      { s.meter with lostPhases := listDrop s.meter.lostPhases c.val } 0x31 c.val []
    exact ⟨lost ▸ not_mem_listDrop s.meter.lostPhases c.val,
      Meter.Unbuffered.addLog (part := Meter.energy) (fun _ => rfl) _ _ _ _⟩
  · exact ⟨‹_›, rfl⟩

theorem length_text (m : Meter) (p : Nat) : (m.text p).length = 16 := by
  unfold Meter.text
  dsimp only
  split_ifs <;> simp

theorem displayFrame_length (s : State) (on : s.meter.on = true) :
    Gives .displayFrame s (fun t => t.meter.display.length = 20 ∧ t.meter.energy = s.meter.energy) := by
  refine .of_onMeter rfl on ?_
  dsimp only
  split_ifs <;> exact ⟨by simp [length_text], rfl⟩

theorem displayTimeout_ends (p u : Nat) (s : State) (on : s.meter.on = true) (shown : s.meter.page = some (p, u))
    (late : u + 60 ≤ s.meter.msec) : exec .displayTimeout s = .next (s.setMeter { s.meter with page := none }) := by
  refine congrArg _ ((onMeter_on _ on).trans (congrArg s.setMeter ?_))
  simp only [shown, if_pos late]

theorem energyPulse_active (s : State) (on : s.meter.on = true) (owed : 10 ^ 12 ≤ s.meter.pulseP) :
    exec (.energyPulse false) s =
      .next (s.setMeter { s.meter with pulseP := s.meter.pulseP - 10 ^ 12, pulsesP := s.meter.pulsesP + 1 }) :=
  congrArg _ ((onMeter_on _ on).trans (congrArg s.setMeter (if_pos owed)))

theorem energyPulse_reactive (s : State) (on : s.meter.on = true) (owed : 10 ^ 12 ≤ s.meter.pulseQ) :
    exec (.energyPulse true) s =
      .next (s.setMeter { s.meter with pulseQ := s.meter.pulseQ - 10 ^ 12, pulsesQ := s.meter.pulsesQ + 1 }) :=
  congrArg _ ((onMeter_on _ on).trans (congrArg s.setMeter (if_pos owed)))

/-! ## The obligation -/

/-- Settles O25: a cycle by the registers that its bookings reach, a second and a start by what they leave once the block
is written or taken, the rest by what each command's step of the die says. -/
theorem theMeterKeepsItsRegisters : Obligations.TheMeterKeepsItsRegisters := by
  unfold Obligations.TheMeterKeepsItsRegisters
  refine ⟨metrologyCycleEnd_books, ?_, ?_, ?_, metrologyStart_takes, watchdogExpiry_restarts, sealChange_notes,
    failed_test_listed, passed_test_nothing, ?_, phaseLoss_marks, phaseReturn_unmarks, displayFrame_length,
    displayTimeout_ends, energyPulse_active, energyPulse_reactive⟩
  · intro meas s on
    have kept := advanced_kept s.meter (core_periodic s.meter.advanced.writeBlock.2 s.freeCount meas)
    have answer : exec (.msecSecond meas) s = .next (State.setMeter { s with freeCount := s.freeCount + 1 }
        (s.meter.advanced.writeBlock.2.periodic s.freeCount meas)) := congrArg _ (if_pos on)
    generalize s.meter.advanced.writeBlock.2.periodic s.freeCount meas = n at answer kept
    exact .intro answer kept
  · intro feeders s on
    exact .of_onMeter rfl on ⟨rfl, rfl, vmetFall_saves feeders s.meter⟩
  · intro feeders s on
    exact .of_onMeter rfl on ⟨rfl, rfl, rfl, rfl⟩
  · intro s on
    exact .of_onMeter rfl on (not_mem_listDrop s.meter.fails 4)

end Sys2Proof.Machine
end

section
/-! PROOF. What the metrology link carries at both ends (R371 to R376, R388). -/

namespace Sys2Proof.Machine

/-! ## What the die sends (R371, R372) -/

theorem statusFrame_carries (ticks : BitVec 48) (s : State) (on : s.meter.on = true) :
    Gives (.statusFrame ticks) s (fun t =>
      t.meter.status.map (fun x => (x.ticks, x.msec, x.tariff, x.starts)) =
          some (ticks.toNat, s.meter.msec, s.meter.tariff, s.meter.starts) ∧ t.meter.unacked = s.meter.unacked) := by
  have judged : ∃ c r, s.meter.judgeUnlisted = { s.meter with command := c, result := r } := by
    unfold Meter.judgeUnlisted
    split
    · dsimp only
      split <;> exact ⟨_, _, rfl⟩
    · exact ⟨_, _, rfl⟩
  obtain ⟨c, r, same⟩ := judged
  refine .of_onMeter rfl on ?_
  dsimp only
  rw [same]
  exact ⟨rfl, rfl⟩

@[simp] theorem length_dropOldest (l : List MetFrame) : (dropOldest l).length = l.length := by
  induction l with
  | nil => rfl
  | cons f t ih =>
    unfold dropOldest
    split
    · rfl
    · simp [ih]

/-- Dropping sample frames keeps the sequence and its numbers. -/
theorem fitSamples_numbers (n : Nat) :
    ∀ m : Meter, (m.fitSamples n).seq = m.seq ∧ (m.fitSamples n).unacked.length = m.unacked.length := by
  induction n with
  | zero => exact fun _ => ⟨rfl, rfl⟩
  | succ n ih =>
    intro m
    unfold Meter.fitSamples
    split
    · exact ⟨rfl, rfl⟩
    · obtain ⟨seq, frames⟩ := ih { m with
        unacked := dropOldest m.unacked, sdrop := m.sdrop + 1, dropped := (m.dropped.1 + 1, m.dropped.2) }
      exact ⟨seq, frames.trans (length_dropOldest m.unacked)⟩

theorem samplesFrame_numbered (input : Fin 30) (tick : BitVec 48) (values : List Word) (s : State)
    (on : s.meter.on = true) (some_ : 1 ≤ values.length) (fits : values.length ≤ 96)
    (streams : tblGet s.meter.streams 0 input.val ≠ 0) (passed : 1 ∉ s.meter.fails) :
    Gives (.samplesFrame input tick values) s (fun t =>
      t.meter.seq = (s.meter.seq + 1) % 65536 ∧ t.meter.unacked.length = s.meter.unacked.length + 1) := by
  refine .of_onMeter (if_pos (by simp [some_, fits])) on ?_
  rw [if_pos ⟨streams, passed⟩]
  obtain ⟨seq, frames⟩ := fitSamples_numbers
    (s.meter.sendFrame (.samples input.val (tblGet s.meter.streams 0 input.val) tick.toNat values)).unacked.length
    (s.meter.sendFrame (.samples input.val (tblGet s.meter.streams 0 input.val) tick.toNat values))
  exact ⟨seq, frames.trans (by simp [Meter.sendFrame])⟩

theorem recordFrame_sends (body : List Byte) (r : MetRec) (rest : List MetRec) (s : State) (on : s.meter.on = true)
    (reported : s.meter.dropped = (0, 0)) (answered : s.meter.reqs = []) (due : s.meter.due = r :: rest) :
    Gives (.recordFrame body) s (fun t =>
      t.meter.due = rest ∧ t.meter.unacked = s.meter.unacked ++ [⟨(s.meter.seq + 1) % 65536, .record r⟩]) := by
  refine .of_onMeter (u := { s with freeCount := s.freeCount + 1 }) rfl on ?_
  simp only [reported, answered, due, ne_eq, not_true_eq_false, if_false]
  exact ⟨rfl, rfl⟩

theorem linkResend_restarts (s : State) (on : s.meter.on = true) (sent : s.meter.unacked ≠ []) :
    Gives .linkResend s (fun t => t.meter.arrived = 0 ∧ t.meter.unacked = s.meter.unacked) := by
  refine .of_onMeter rfl on ?_
  rw [if_neg sent]
  exact ⟨rfl, rfl⟩

/-! ## What the receiver answers and takes (R371, R373, R379) -/

theorem drop_length_takeWhile {α : Type} (p : α → Bool) (l : List α) :
    l.drop (l.takeWhile p).length = l.dropWhile p := by
  have split := List.drop_left (l₁ := l.takeWhile p) (l₂ := l.dropWhile p)
  rwa [List.takeWhile_append_dropWhile] at split

theorem linkHears_of_run {s : State} (run : s.power.mode = .run) : s.linkHears = true := decide_eq_true run

theorem acknowledgementFrame_frees (s : State) (on : s.meter.on = true) (rx : s.flag oneKey Reg.MET_CTL_RX_EN = true)
    (run : s.power.mode = .run) (computes : s.computes (s.runner blkMet) = true)
    (grain : (s.access (s.runner blkMet) actMet 0).isSome = true) :
    Gives .acknowledgementFrame s (fun t =>
      t.meter.unacked =
        s.meter.unacked.dropWhile (fun f => decide ((s.metLink.accepted + 65536 - f.seq) % 65536 < 32768))) := by
  obtain ⟨u, granted⟩ := Option.isSome_iff_exists.mp grain
  have answer : exec .acknowledgementFrame s = .next (freeFrames u) :=
    congrArg _ ((if_pos (by simp [rx, linkHears_of_run run, computes])).trans (withAccess_of freeFrames granted))
  obtain ⟨_, _, _, _, _, _, _, _, _, _, rfl⟩ := access_only granted
  exact .of_onMeter answer on (drop_length_takeWhile _ s.meter.unacked)

/-- The two ends of the link: the receiver without its window of latest records, and the die. -/
def State.ends (s : State) : MetLink × Meter := ({ s.metLink with window := [] }, s.meter)

@[simp] theorem ends_setReg (s : State) (k : Nat) (w : Word) : (s.setReg k w).ends = s.ends := (rfl)

@[simp] theorem ends_put (s : State) (b : Nat) (f : Fld) (v : Nat) : (s.put b f v).ends = s.ends := ends_setReg _ _ _

@[simp] theorem ends_countMet (k : Nat) (s : State) : (countMet k s).ends = s.ends := ends_setReg _ _ _

@[simp] theorem ends_setRegs (l : List (Nat × Word)) (s : State) : (s.setRegs l).ends = s.ends := by
  obtain ⟨_, written⟩ := setRegs_only l s
  rw [written]
  rfl

@[simp] theorem ends_setWide (n k v : Nat) (s : State) : (s.setWide k n v).ends = s.ends := by
  obtain ⟨_, written⟩ := setWide_only n s k v
  rw [written]
  rfl

@[simp] theorem ends_raiseEvent (p : Nat) (s : State) : (raiseEvent p s).ends = s.ends := by
  obtain ⟨_, _, _, _, raised⟩ := raiseEvent_only p s
  rw [raised]
  rfl

theorem ends_of_coding {h : Half} {s t : State} (kept : ∀ k, t.apartCoding h k = s.apartCoding h k) : t.ends = s.ends :=
  (congrArg (fun v => State.ends v.1) (kept ⟨0, by simp [codingKeys]⟩) :)

@[simp] theorem ends_pushItem (h : Half) (x : Item) (s : State) : (pushItem h x s).ends = s.ends :=
  ends_of_coding fun k => apartCoding_pushItem h k s x

@[simp] theorem ends_pushRecord (h : Half) (c rtype : Nat) (payload : List Byte) (s : State) :
    (pushRecord h c rtype payload s).ends = s.ends :=
  ends_of_coding fun k => apartCoding_pushRecord h k s c rtype payload

@[simp] theorem ends_keepRecord (r : MetRec) (s : State) : (keepRecord r s).ends = s.ends := rfl

@[simp] theorem ends_mirrorIdent (r : MetRec) (s : State) : (mirrorIdent r s).ends = s.ends := by simp [mirrorIdent]

/-- What an accepted frame carries goes to the engines, the mirrors and the window. -/
theorem ends_passFrame (b : MetBody) (s : State) : (passFrame b s).ends = s.ends := by
  unfold passFrame
  split
  · exact view_foldl (view := State.ends) (fun v e => ends_pushItem _ _ v) _ s
  · exact ends_pushItem _ _ s
  · dsimp only
    split <;> simp
  · rfl

/-- The state once the next frame has arrived; a frame sent again is counted. -/
def State.arrival (s : State) : State :=
  let s1 := s.setMeter { s.meter with arrived := s.meter.arrived + 1, resent := false }
  if s.meter.resent then countMet 3 s1 else s1

theorem ends_arrival (s : State) : s.arrival.ends =
    ({ s.metLink with window := [] }, { s.meter with arrived := s.meter.arrived + 1, resent := false }) := by
  unfold State.arrival
  dsimp only
  split
  · exact ends_countMet 3 _
  · rfl

theorem metrologyFrame_accepted (f : MetFrame) (s : State) (on : s.meter.on = true)
    (next : s.meter.unacked[s.meter.arrived]? = some f) (rx : s.flag oneKey Reg.MET_CTL_RX_EN = true)
    (run : s.power.mode = .run) (follows : f.seq = (s.metLink.accepted + 1) % 65536)
    (fits : s.frameFits f.body = true) :
    Gives (.metrologyFrameAccept true) s (fun t =>
      t.metLink.accepted = f.seq ∧ t.meter.arrived = s.meter.arrived + 1) := by
  have answer : exec (.metrologyFrameAccept true) s = .next (passFrame f.body (countMet 0
      (s.arrival.setMetLink { s.arrival.metLink with accepted := f.seq }))) := by
    refine (congrArg Host.Outcome.next ?_ : execMetrologyFrameAccept true s = _)
    split
    · rename_i g _ found
      obtain rfl : g = f := Option.some.inj (found.symm.trans next)
      simp only [linkHears_of_run run, rx, if_pos follows, fits, Bool.not_true, Bool.false_eq_true, if_false]
      rfl
    · rename_i nothing
      exact (nothing f on next).elim
  have passed := (ends_passFrame f.body _).trans
    (ends_countMet 0 (s.arrival.setMetLink { s.arrival.metLink with accepted := f.seq }))
  refine .intro answer ⟨?_, ?_⟩
  · exact congrArg (fun e => e.1.accepted) passed
  · exact (congrArg (fun e => e.2.arrived) passed).trans (congrArg (fun e => e.2.arrived) (ends_arrival s))

/-! ## Registers of the link -/

/-- The link's registers are no captures of a timebase. -/
theorem reg_raiseEvent_link {o : Nat} (low : 0x50000 ≤ o) (high : o < 0x60000) (p : Nat) (s : State) :
    (raiseEvent p s).reg (oneKey + o) = s.reg (oneKey + o) := by
  refine (raiseEvents_captures [p] s).regs _ fun i hi c captured => ?_
  have small := capture_lt captured
  unfold tbKey bayKey halfKey oneKey Half.num
  dsimp only
  split_ifs <;> omega

theorem reg_setRegs_other {j : Nat} (l : List (Nat × Word)) :
    ∀ s : State, j ∉ l.map Prod.fst → (s.setRegs l).reg j = s.reg j := by
  induction l with
  | nil => exact fun _ _ => rfl
  | cons e l ih =>
    intro s other
    rw [List.map_cons, List.mem_cons, not_or] at other
    exact (ih _ other.2).trans (s.reg_setReg_other e.2 other.1)

theorem get_of_reg {s t : State} {b : Nat} {f : Fld} (same : t.reg (b + f.addr) = s.reg (b + f.addr)) :
    t.get b f = s.get b f := by
  rw [State.get, same, State.get]

theorem flag_of_reg {s t : State} {b : Nat} {f : Fld} (same : t.reg (b + f.addr) = s.reg (b + f.addr)) :
    t.flag b f = s.flag b f := by
  rw [State.flag, get_of_reg same, State.flag]

/-- A field of a register of the link keeps what it held where one beside it is written. -/
theorem get_put_beside (s : State) (v : Nat) {f g : Fld}
    (beside : g.addr = f.addr ∧ f.hi < 20 ∧ f.lo ≤ f.hi ∧ (f.hi < g.lo ∨ g.hi < f.lo)) :
    (s.put oneKey f v).get oneKey g = s.get oneKey g := by
  obtain ⟨same, h20, hlo, apart⟩ := beside
  exact s.get_put_apart oneKey v f g h20 hlo same apart

theorem regs_noteResult (op : Nat) (test : List Byte → Bool) (st : Nat) (bytes : List Byte) (s : State) :
    (noteResult op test st bytes s).regs = s.regs := rfl

/-- The end of a command: DONE and the status, and BUSY clear (R376, R388). -/
theorem endMetCmd_marks (st reason : Nat) (s : State) :
    (endMetCmd st reason s).get oneKey Reg.MET_CST_STATUS = st % 256
      ∧ (endMetCmd st reason s).flag oneKey Reg.MET_CST_BUSY = false
      ∧ (endMetCmd st reason s).flag oneKey Reg.MET_CST_DONE = true := by
  have shown (g : Fld) (cst : g.addr = Reg.MET_CST) : (endMetCmd st reason s).get oneKey g =
      ((((s.put oneKey Reg.MET_CST_STATUS st).put oneKey Reg.MET_CST_DONE 1).put oneKey Reg.MET_CST_BUSY 0).put oneKey
        Reg.MET_CST_REASON reason).get oneKey g :=
    (State.get_of_regs (regs_noteResult ..) _ _).trans (State.get_put_other _ _ _ _ _ _ (by rw [cst]; decide))
  refine ⟨?_, ?_, ?_⟩
  · rw [shown _ rfl, get_put_beside _ _ (by decide), get_put_beside _ _ (by decide), get_put_beside _ _ (by decide),
      State.get_put _ _ _ _ (by decide) (by decide)]
    rfl
  · rw [State.flag, shown _ rfl, get_put_beside _ _ (by decide), State.get_put _ _ _ _ (by decide) (by decide)]
    rfl
  · rw [State.flag, shown _ rfl, get_put_beside _ _ (by decide), get_put_beside _ _ (by decide),
      State.get_put _ _ _ _ (by decide) (by decide)]
    rfl

/-- The mirrors and MET_STAT lie beside the register that shows the command. -/
theorem reg_mirrorStatus_cst (x : MetStatus) (s : State) :
    (mirrorStatus x s).reg (oneKey + Reg.MET_CST) = s.reg (oneKey + Reg.MET_CST) := by
  have put (f : Fld) (v : Nat) (u : State) (stat : f.addr = Reg.MET_STAT) :
      (u.put oneKey f v).reg (oneKey + Reg.MET_CST) = u.reg (oneKey + Reg.MET_CST) :=
    u.reg_put_other _ _ _ (by rw [stat]; decide)
  unfold mirrorStatus
  dsimp only
  rw [State.reg_setWide_other _ _ _ _ (by decide), State.reg_setWide_other _ _ _ _ (by decide),
    reg_setRegs_other _ _ (by simp [oneKey, Reg.MET_CST, Reg.MET_CNT_DIE]), put _ _ _ rfl, put _ _ _ rfl, put _ _ _ rfl,
    put _ _ _ rfl, put _ _ _ rfl]

@[simp] theorem ends_endMetCmd (st reason : Nat) (s : State) : (endMetCmd st reason s).ends = s.ends := by
  have noted (op : Nat) (test : List Byte → Bool) (st : Nat) (bytes : List Byte) (u : State) :
      (noteResult op test st bytes u).ends = u.ends := rfl
  simp [endMetCmd, noted]

@[simp] theorem ends_mirrorStatus (x : MetStatus) (s : State) : (mirrorStatus x s).ends = s.ends := by
  simp [mirrorStatus]

/-- The command that a STATUS frame answers ends with the status of its REASON. -/
theorem takeResult_ends {x : MetStatus} {s : State} {r : Nat} (busy : s.flag oneKey Reg.MET_CST_BUSY = true)
    (answers : x.result = some (s.get oneKey Reg.MET_CST_SER, r)) :
    takeResult x s = endMetCmd (reasonStatus r) r s := by
  unfold takeResult
  rw [answers]
  exact if_pos (by simp [busy])

/-- A STATUS frame that reports another count of starts than the last one did. -/
def MetLink.again (l : MetLink) (x : MetStatus) : Bool :=
  match l.last with
  | some y => decide (y.starts ≠ x.starts)
  | none => false

/-- A STATUS frame that reports more dropped than the last one did. -/
def MetLink.more (l : MetLink) (x : MetStatus) : Bool :=
  match l.last with
  | some y => decide (y.sdrop < x.sdrop) || decide (y.rdrop < x.rdrop)
  | none => decide (0 < x.sdrop) || decide (0 < x.rdrop)

/-- The receiver once it has taken a good STATUS frame, at a time of its own and one of the fabric. -/
def MetLink.latch (l : MetLink) (x : MetStatus) (at_ now : Nat) : MetLink :=
  { l with
    last := some x, lastAt := at_, accepted := if l.again x then 0 else l.accepted,
    latches := ((x.ticks, (now + 2 ^ 60 - 1500) % 2 ^ 60) :: (if l.again x then [] else l.latches)).take 1024 }

/-- The marks and events of a good STATUS frame, after its result is taken. -/
def statusMarks (more again : Bool) (s : State) : State :=
  let s3 := if more then s.put oneKey Reg.MET_STAT_DROP 1 else s
  let s4 := if again then raiseEvent evMetRestart (s3.put oneKey Reg.MET_STAT_RESTART 1) else s3
  if s4.flag oneKey Reg.MET_STAT_UP then s4 else raiseEvent evMetLink (s4.put oneKey Reg.MET_STAT_UP 1)

theorem statusMarks_up (more again : Bool) (s : State) :
    (statusMarks more again s).flag oneKey Reg.MET_STAT_UP = true := by
  unfold statusMarks
  dsimp only
  generalize (if again = true then _ else _ : State) = u
  split
  · assumption
  · rw [flag_of_reg (reg_raiseEvent_link (by decide) (by decide) _ _)]
    exact flag_put_one _ _ (by decide) rfl

/-- A view in which neither MET_STAT nor an event shows does not show the marks. -/
theorem view_statusMarks {α : Type} {view : State → α}
    (put : ∀ (f : Fld) (u : State), f.addr = Reg.MET_STAT → view (u.put oneKey f 1) = view u)
    (raise : ∀ (p : Nat) (u : State), view (raiseEvent p u) = view u) (more again : Bool) (s : State) :
    view (statusMarks more again s) = view s := by
  unfold statusMarks
  extract_lets s3 s4
  have dropped : view s3 = view s := view_ite (fun u => put _ u rfl) s
  have restarted : view s4 = view s3 := view_ite
    (f := fun u => raiseEvent evMetRestart (u.put oneKey Reg.MET_STAT_RESTART 1))
    (fun u => (raise _ _).trans (put _ u rfl)) s3
  split
  · exact restarted.trans dropped
  · exact ((raise _ _).trans (put _ s4 rfl)).trans (restarted.trans dropped)

/-- The marks leave the register that shows the command. -/
theorem reg_statusMarks_cst (more again : Bool) (s : State) :
    (statusMarks more again s).reg (oneKey + Reg.MET_CST) = s.reg (oneKey + Reg.MET_CST) :=
  view_statusMarks (view := fun u => u.reg (oneKey + Reg.MET_CST))
    (fun _ u stat => u.reg_put_other _ _ _ (by rw [stat]; decide))
    (fun p u => reg_raiseEvent_link (by decide) (by decide) p u) more again s

theorem ends_statusMarks (more again : Bool) (s : State) : (statusMarks more again s).ends = s.ends :=
  view_statusMarks (view := State.ends) (fun _ u _ => ends_put u _ _ _) ends_raiseEvent more again s

/-- The state once a good STATUS frame is taken from the link and latched. -/
def State.latched (s : State) (x : MetStatus) : State :=
  (s.setMeter { s.meter with status := none }).setMetLink (s.metLink.latch x s.tref s.timeNs)

theorem exec_metrologyStatusReceived {x : MetStatus} {s : State} (sent : s.meter.status = some x)
    (run : s.power.mode = .run) :
    exec (.metrologyStatusReceived true) s = .next (statusMarks (s.metLink.more x) (s.metLink.again x)
      (takeResult x (mirrorStatus x (s.latched x)))) := by
  refine (congrArg Host.Outcome.next ?_ : execMetrologyStatusReceived true s = _)
  rw [sent]
  simp only [linkHears_of_run run, Bool.not_true, Bool.false_eq_true, if_false]
  rfl

theorem metrologyStatus_received (x : MetStatus) (s : State) (sent : s.meter.status = some x)
    (run : s.power.mode = .run) (busy : s.flag oneKey Reg.MET_CST_BUSY = true)
    (answers : x.result = some (s.get oneKey Reg.MET_CST_SER, 0)) :
    Gives (.metrologyStatusReceived true) s (fun t =>
      t.flag oneKey Reg.MET_STAT_UP = true ∧ t.metLink.last = some x ∧ t.meter.status = none
        ∧ t.flag oneKey Reg.MET_CST_BUSY = false ∧ t.get oneKey Reg.MET_CST_STATUS = St.OK) := by
  have cst := reg_mirrorStatus_cst x (s.latched x)
  have ends := ends_mirrorStatus x (s.latched x)
  have answer := exec_metrologyStatusReceived sent run
  generalize mirrorStatus x (s.latched x) = u at answer cst ends
  have before : u.reg (oneKey + Reg.MET_CST) = s.reg (oneKey + Reg.MET_CST) := cst
  rw [takeResult_ends ((flag_of_reg (f := Reg.MET_CST_BUSY) before).trans busy)
    (answers.trans (congrArg (fun n => some (n, 0)) (get_of_reg (f := Reg.MET_CST_SER) before).symm))] at answer
  obtain ⟨status, idle, _⟩ := endMetCmd_marks (reasonStatus 0) 0 u
  have ended := (ends_endMetCmd (reasonStatus 0) 0 u).trans ends
  generalize endMetCmd (reasonStatus 0) 0 u = v at answer status idle ended
  have shown := reg_statusMarks_cst (s.metLink.more x) (s.metLink.again x) v
  have kept := (ends_statusMarks (s.metLink.more x) (s.metLink.again x) v).trans ended
  refine .intro answer ⟨statusMarks_up _ _ v, ?_, ?_, (flag_of_reg (f := Reg.MET_CST_BUSY) shown).trans idle,
    (get_of_reg (f := Reg.MET_CST_STATUS) shown).trans status⟩
  · exact congrArg (fun e => e.1.last) kept
  · exact congrArg (fun e => e.2.status) kept

/-! ## Commands to the die (R375, R376, R388) -/

/-- The first byte of a command's words is bits 15:8 of the first of them. -/
theorem payloadField_command (a : Word) (rest : List Byte) :
    payloadField (bigEndian 2 (bits a 15 0) ++ rest) 0 1 = bits a 15 8 := by
  have first : bigEndian 2 (bits a 15 0) ++ rest =
      bigEndian 1 (bits a 15 0 / 256) ++ (bigEndian 1 (bits a 15 0) ++ rest) := by simp [bigEndian]
  rw [first, payloadField_bigEndian]
  simp only [bits, Nat.shiftRight_eq_div_pow]
  omega

theorem payloadField_serial {n : Nat} (small : n < 256) (rest : List Byte) :
    payloadField (bigEndian 1 n ++ rest) 0 1 = n := by
  rw [payloadField_bigEndian, Nat.mod_eq_of_lt (by omega)]

/-- A command that the die accepts is no acknowledgement. -/
theorem listed_not_ack {c : Nat} (listed : metCmdListed c = true) : c ≠ 1 := by
  rintro rfl
  cases listed

theorem sendMetCmd_busy {s : State} (b : List Byte) (busy : s.flag oneKey Reg.MET_CST_BUSY = true) :
    sendMetCmd b s = s.put oneKey Reg.MET_CST_STATUS St.BUSY := if_pos busy

/-- The bytes of a command with its serial. -/
def commandBody (ser : Nat) (b : List Byte) : List Byte := bigEndian 1 (16 * ser + payloadField b 0 1 % 16) ++ b.drop 1

/-- MET_CST while a command with a serial waits for its result. -/
def showCommand (ser : Nat) (s : State) : State :=
  ((s.put oneKey Reg.MET_CST_SER ser).put oneKey Reg.MET_CST_BUSY 1).put oneKey Reg.MET_CST_DONE 0

theorem showCommand_marks (ser : Nat) (s : State) :
    (showCommand ser s).flag oneKey Reg.MET_CST_BUSY = true
      ∧ (showCommand ser s).get oneKey Reg.MET_CST_SER = ser % 16 := by
  unfold showCommand
  constructor
  · rw [State.flag, get_put_beside _ _ (by decide), State.get_put _ _ _ _ (by decide) (by decide)]
    rfl
  · rw [get_put_beside _ _ (by decide), get_put_beside _ _ (by decide), State.get_put _ _ _ _ (by decide) (by decide)]
    rfl

/-- A command of the host on its way to the running die. -/
def sendBody (body : List Byte) (s : State) : State :=
  (s.setMetLink { s.metLink with sentAt := s.tref }).setMeter
    { s.meter with command := some (body ++ bigEndian 2 (crc16 body)) }

theorem regs_sendBody (body : List Byte) (s : State) : (sendBody body s).regs = s.regs := rfl

/-- A command of a listed CMD goes to the running die with the next serial and the CRC. -/
theorem sendMetCmd_sends {b : List Byte} {s : State} (on : s.meter.on = true)
    (idle : s.flag oneKey Reg.MET_CST_BUSY = false) (listed : metCmdListed (payloadField b 0 1 % 16) = true) :
    sendMetCmd b s = sendBody (commandBody ((s.get oneKey Reg.MET_CST_SER + 1) % 16) b)
      (showCommand ((s.get oneKey Reg.MET_CST_SER + 1) % 16) s) := by
  refine ((if_neg (by simp [idle])).trans (if_neg (listed_not_ack listed))).trans ?_
  exact if_pos on

theorem commandBody_frame {ser : Nat} {b : List Byte} (small : ser < 16) (size : b.length = 6) (crc : Nat) :
    ((commandBody ser b ++ bigEndian 2 crc).length, payloadField (commandBody ser b ++ bigEndian 2 crc) 0 1) =
      (8, 16 * ser + payloadField b 0 1 % 16) := by
  refine Prod.ext (by simp [commandBody, size]) ?_
  dsimp only
  rw [commandBody, List.append_assoc, payloadField_serial (by omega)]

theorem meter_put (s : State) (b : Nat) (f : Fld) (v : Nat) : (s.put b f v).meter = s.meter :=
  (congrArg Prod.snd (ends_put s b f v) :)

theorem meter_setRegs (l : List (Nat × Word)) (s : State) : (s.setRegs l).meter = s.meter := by
  obtain ⟨_, written⟩ := setRegs_only l s
  rw [written]

/-- The state in which the three words of MET_CMD are committed. -/
def commitWords (m : Master) (w : Word) (s : State) : State :=
  ((s.unstage m Reg.MET_CMD0).unstage m Reg.MET_CMD1).setRegs
    [(oneKey + Reg.MET_CMD0, s.staged m Reg.MET_CMD0 (s.reg (oneKey + Reg.MET_CMD0))),
     (oneKey + Reg.MET_CMD1, s.staged m Reg.MET_CMD1 (s.reg (oneKey + Reg.MET_CMD1))), (oneKey + Reg.MET_CMD2, w)]

theorem reg_commitWords_cst (m : Master) (w : Word) (s : State) :
    (commitWords m w s).reg (oneKey + Reg.MET_CST) = s.reg (oneKey + Reg.MET_CST) :=
  reg_setRegs_other _ _ (by simp [Reg.MET_CST, Reg.MET_CMD0, Reg.MET_CMD1, Reg.MET_CMD2])

theorem meter_commitWords (m : Master) (w : Word) (s : State) : (commitWords m w s).meter = s.meter := by
  unfold commitWords
  rw [meter_setRegs]
  rfl

/-- A write of MET_CMD that its block takes sends the committed words. -/
theorem exec_metCommandSend {m : Master} {w : Word} {s : State} (taken : s.blockWriteOk m blkMet = true) :
    ∃ rest : List Byte, rest.length = 4 ∧ exec (.metCommandSend m w) s = .next (sendMetCmd
      (bigEndian 2 (bits (s.staged m Reg.MET_CMD0 (s.reg (oneKey + Reg.MET_CMD0))) 15 0) ++ rest)
      (commitWords m w s)) :=
  ⟨bigEndian 2 (bits (s.staged m Reg.MET_CMD1 (s.reg (oneKey + Reg.MET_CMD1))) 15 0) ++ bigEndian 2 (bits w 15 0),
    by simp, congrArg _ ((if_pos taken).trans (congrArg (sendMetCmd · _) (List.append_assoc ..)))⟩

theorem metCommand_sent (m : Master) (w a : Word) (s : State) (taken : s.blockWriteOk m blkMet = true)
    (idle : s.flag oneKey Reg.MET_CST_BUSY = false)
    (word : s.staged m Reg.MET_CMD0 (s.reg (oneKey + Reg.MET_CMD0)) = a)
    (listed : metCmdListed (bits a 15 8 % 16) = true)
    (on : s.meter.on = true) :
    Gives (.metCommandSend m w) s (fun t =>
      t.flag oneKey Reg.MET_CST_BUSY = true
        ∧ t.get oneKey Reg.MET_CST_SER = (s.get oneKey Reg.MET_CST_SER + 1) % 16
        ∧ t.meter.command.map (fun b => (b.length, payloadField b 0 1)) =
            some (8, 16 * ((s.get oneKey Reg.MET_CST_SER + 1) % 16) + bits a 15 8 % 16)) := by
  obtain ⟨rest, size, answer⟩ := exec_metCommandSend (w := w) taken
  rw [word] at answer
  have first := payloadField_command a rest
  generalize words : bigEndian 2 (bits a 15 0) ++ rest = b at answer first
  have cst := reg_commitWords_cst m w s
  rw [sendMetCmd_sends ((congrArg Meter.on (meter_commitWords m w s)).trans on)
    ((flag_of_reg (f := Reg.MET_CST_BUSY) cst).trans idle) (first ▸ listed),
    get_of_reg (f := Reg.MET_CST_SER) cst] at answer
  obtain ⟨busy, serial⟩ := showCommand_marks ((s.get oneKey Reg.MET_CST_SER + 1) % 16) (commitWords m w s)
  refine .intro answer ⟨(State.flag_of_regs (regs_sendBody ..) _ _).trans busy,
    (State.get_of_regs (regs_sendBody ..) _ _).trans (serial.trans (Nat.mod_mod _ _)), ?_⟩
  have length : b.length = 6 := by simp [← words, size]
  have frame := commandBody_frame (b := b) (Nat.mod_lt (s.get oneKey Reg.MET_CST_SER + 1) (by decide : 0 < 16)) length
  rw [first] at frame
  exact congrArg some (frame _)

theorem metCommand_refused (m : Master) (w : Word) (s : State) (taken : s.blockWriteOk m blkMet = true)
    (busy : s.flag oneKey Reg.MET_CST_BUSY = true) :
    Gives (.metCommandSend m w) s (fun t => t.meter = s.meter ∧ t.get oneKey Reg.MET_CST_STATUS = St.BUSY) := by
  obtain ⟨rest, _, answer⟩ := exec_metCommandSend (w := w) taken
  rw [sendMetCmd_busy _ ((flag_of_reg (f := Reg.MET_CST_BUSY) (reg_commitWords_cst m w s)).trans busy)] at answer
  have status := (commitWords m w s).get_put oneKey St.BUSY Reg.MET_CST_STATUS (by decide) (by decide)
  have kept := meter_commitWords m w s
  generalize commitWords m w s = u at answer status kept
  have shown : (u.put oneKey Reg.MET_CST_STATUS St.BUSY).meter = s.meter :=
    (meter_put u _ _ _).trans kept
  generalize u.put oneKey Reg.MET_CST_STATUS St.BUSY = v at answer status shown
  exact .intro answer ⟨shown, status⟩

theorem metNolinkTimeout_ends (s : State) (busy : s.flag oneKey Reg.MET_CST_BUSY = true)
    (late : s.metLink.sentAt + 1000000 ≤ s.tref) :
    Gives .metNolinkTimeout s (fun t =>
      t.get oneKey Reg.MET_CST_STATUS = St.MET_NOLINK ∧ t.flag oneKey Reg.MET_CST_BUSY = false
        ∧ t.flag oneKey Reg.MET_CST_DONE = true) := by
  have answer : execMetNolinkTimeout s = .next (endMetCmd St.MET_NOLINK (s.get oneKey Reg.MET_CST_REASON) s) :=
    congrArg Host.Outcome.next (if_pos (by simp [busy, late]))
  have marks := endMetCmd_marks St.MET_NOLINK (s.get oneKey Reg.MET_CST_REASON) s
  generalize endMetCmd St.MET_NOLINK (s.get oneKey Reg.MET_CST_REASON) s = u at answer marks
  exact .intro answer marks

/-! ## What the die does with a command (R375, R376) -/

section

variable {cmd : Nat} {form state : List Byte → Meter → Nat} {f : List Byte → Meter → Meter} {b : List Byte} {s : State}
  (on : s.meter.on = true) (frame : s.meter.command = some b) (own : payloadField b 0 1 % 16 = cmd)
include on frame own

/-- A frame with a bad CRC is counted. -/
theorem judge_badCrc :
    judge cmd .badCrc form state f s = s.setMeter { s.meter with command := none, rej := s.meter.rej + 1 } := by
  unfold judge
  rw [onMeter_on _ on, frame]
  simp [own]

/-- A good frame of a sound form, of which the die takes what it asks, is answered with REASON 0. -/
theorem judge_good (sound : form b s.meter = 0) (taken : state b s.meter = 0) :
    judge cmd .good form state f s =
      s.setMeter (f b { s.meter with command := none, result := some (payloadField b 0 1 / 16, 0) }) := by
  unfold judge
  rw [onMeter_on _ on, frame]
  simp [own, sound, taken]

end

theorem formOf_sound {reserved range : Bool} (reservedOk : reserved = true) (rangeOk : range = true) :
    formOf reserved range = 0 := by
  rw [reservedOk, rangeOk]
  rfl

theorem linkCommand_badCrc (c : Instr) (k : Nat) (b : List Byte) (s : State)
    (row : (c, k) ∈ [(.metRead .badCrc, 2), (.metReport .badCrc, 3), (.metStream .badCrc, 4), (.metLogread .badCrc, 5),
      (.metDisplay .badCrc, 8), (.metTariff .badCrc, 9)])
    (on : s.meter.on = true) (frame : s.meter.command = some b) (own : payloadField b 0 1 % 16 = k) :
    exec c s = .next (s.setMeter { s.meter with command := none, rej := s.meter.rej + 1 }) := by
  simp only [List.mem_cons, List.not_mem_nil, or_false, Prod.mk.injEq] at row
  obtain ⟨rfl, rfl⟩ | ⟨rfl, rfl⟩ | ⟨rfl, rfl⟩ | ⟨rfl, rfl⟩ | ⟨rfl, rfl⟩ | ⟨rfl, rfl⟩ := row <;>
    exact congrArg Host.Outcome.next (judge_badCrc on frame own)

section

variable (b : List Byte) (s : State) (on : s.meter.on = true) (frame : s.meter.command = some b)
include on frame

theorem metRead_accepted (own : payloadField b 0 1 % 16 = 2) (reserved : zeroFrom b 5 = true)
    (low : 0x20 ≤ payloadField b 1 1) (high : payloadField b 1 1 ≤ 0x26)
    (source : payloadField b 2 1 < sourcesOf (payloadField b 1 1)) (room : s.meter.reqs.length < 8) :
    Gives (.metRead .good) s (fun t =>
      t.meter.result = some (payloadField b 0 1 / 16, 0) ∧ t.meter.reqs =
        s.meter.reqs ++ [.read (payloadField b 1 1) (payloadField b 2 1) (payloadField b 3 2)]) :=
  .intro (congrArg Host.Outcome.next
    (judge_good on frame own (formOf_sound reserved (by simp [low, high, source])) (if_pos room))) ⟨rfl, rfl⟩

theorem metReport_accepted (own : payloadField b 0 1 % 16 = 3) (reserved : zeroFrom b 3 = true)
    (low : 0x20 ≤ payloadField b 1 1) (high : payloadField b 1 1 ≤ 0x24) (code : payloadField b 2 1 ≤ 9) :
    Gives (.metReport .good) s (fun t =>
      t.meter.result = some (payloadField b 0 1 / 16, 0)
        ∧ t.meter.nextIntervals = s.meter.nextIntervals ++ [(payloadField b 1 1, payloadField b 2 1)]) :=
  .intro (congrArg Host.Outcome.next
    (judge_good on frame own (formOf_sound reserved (by simp [low, high, code])) rfl)) ⟨rfl, rfl⟩

theorem metStream_accepted (own : payloadField b 0 1 % 16 = 4) (reserved : zeroFrom b 3 = true)
    (input : payloadField b 1 1 < 30) (preset : payloadField b 2 1 ≤ 5)
    (fits : streamTotal (tblSet s.meter.streams 0 (payloadField b 1 1) (payloadField b 2 1)) ≤ 256) :
    Gives (.metStream .good) s (fun t =>
      t.meter.result = some (payloadField b 0 1 / 16, 0)
        ∧ tblGet t.meter.streams 0 (payloadField b 1 1) = payloadField b 2 1) :=
  .intro (congrArg Host.Outcome.next
    (judge_good on frame own (formOf_sound reserved (by simp [input, preset])) (if_pos fits)))
    ⟨rfl, tblGet_tblSet_same s.meter.streams 0 _ _⟩

theorem metLogread_accepted (own : payloadField b 0 1 % 16 = 5) (reserved : zeroFrom b 5 = true)
    (place : payloadField b 1 2 ≤ 1023) (some_ : 1 ≤ payloadField b 3 2) (all : payloadField b 3 2 ≤ 1024)
    (room : s.meter.reqs.length < 8) :
    Gives (.metLogread .good) s (fun t =>
      t.meter.result = some (payloadField b 0 1 / 16, 0)
        ∧ t.meter.reqs = s.meter.reqs ++ [.log (payloadField b 1 2) (payloadField b 3 2)]) :=
  .intro (congrArg Host.Outcome.next
    (judge_good on frame own (formOf_sound reserved (by simp [place, some_, all])) (if_pos room))) ⟨rfl, rfl⟩

theorem metDisplay_accepted (own : payloadField b 0 1 % 16 = 8) (reserved : zeroFrom b 2 = true)
    (page : payloadField b 1 1 < 0x40) :
    Gives (.metDisplay .good) s (fun t =>
      t.meter.result = some (payloadField b 0 1 / 16, 0) ∧ t.meter.page = some (payloadField b 1 1, s.meter.msec)) :=
  .intro (congrArg Host.Outcome.next (judge_good on frame own (formOf_sound reserved (by simp [page])) rfl))
    ⟨rfl, if_neg (by omega)⟩

theorem metTariff_accepted (own : payloadField b 0 1 % 16 = 9) (reserved : zeroFrom b 2 = true)
    (tariff : payloadField b 1 1 ≤ 3) (outside : s.meter.param 0x43 ≠ 1) :
    Gives (.metTariff .good) s (fun t =>
      t.meter.result = some (payloadField b 0 1 / 16, 0) ∧ t.meter.nextTariff = some (payloadField b 1 1)
        ∧ t.meter.tariff = s.meter.tariff) :=
  .intro (congrArg Host.Outcome.next
    (judge_good on frame own (formOf_sound reserved (by simp [tariff])) (if_neg outside))) ⟨rfl, rfl, rfl⟩

end

/-! ## The obligation -/

/-- Settles O27: each frame and each command at its own end of the link. -/
theorem theMetrologyLinkCarries : Obligations.TheMetrologyLinkCarries := by
  unfold Obligations.TheMetrologyLinkCarries
  exact ⟨statusFrame_carries, samplesFrame_numbered, recordFrame_sends, linkResend_restarts, acknowledgementFrame_frees,
    metrologyFrame_accepted, metrologyStatus_received, fun _ late => congrArg Host.Outcome.next (if_pos late),
    metCommand_sent, metCommand_refused, metNolinkTimeout_ends, linkCommand_badCrc, metRead_accepted, metReport_accepted,
    metStream_accepted, metLogread_accepted, metDisplay_accepted, metTariff_accepted⟩

end Sys2Proof.Machine
end
